-- ==== Sys2Proof/Word.lean ====
section
/-! DEFINITION. The word types of the Buryr (01_notation.md R9, R20) and nothing else. -/

namespace Sys2Proof

/-- A general register, an address, a doubleword of memory. -/
abbrev W64 := BitVec 64

/-- A byte of memory. -/
abbrev Byte := BitVec 8

/-- A halfword of code (05_encoding.md R76). -/
abbrev Half := BitVec 16

/-- A vector register of 512 bits (10_isa_vector.md R176). -/
abbrev Vec := BitVec 512

/-- A lane of 32 bits, an f32 code, a format record. -/
abbrev W32 := BitVec 32

/-- The number of a general, vector or mask register in an instruction's field. -/
abbrev Reg := BitVec 5

end Sys2Proof
end

