-- ==== Sys2Proof/Config.lean ====
section
/-! DEFINITION. What the implementation fixes and the spec leaves open (log entry 1): opaque constants without a body, so
that nothing can evaluate them and a statement holds whatever they are. Values that may differ at every use are applied to
the counter `free` of State. -/

namespace Sys2Proof
namespace Config

/-- The Hint of a walker's index (04_placing.md R64): 0 to 15, "not architectural, and it may differ from one take to
the next"; applied to the free counter and the index. -/
opaque hint : Nat → Nat → BitVec 4

/-- The directory slice of a line (13_memory_hierarchy.md R231): "The function is not architectural"; the line's device
physical address and the partition's rectangle (x, y, width, height, the last two minus 1) give a number, taken modulo the
number of clusters. -/
opaque directorySlice : Nat → Nat → Nat → Nat → Nat → Nat

/-- The choice of the CNI among the cores that can take a kind-3 message (08_isa_memory_messages.md R145). -/
opaque kind3Pick : Nat → Nat

/-- The next pair that a merge of partial lines combines (13_memory_hierarchy.md R234 case 2: "in pairwise steps whose
order is not specified"): free counter and number of parts. -/
opaque mergePick : Nat → Nat → Nat × Nat

/-- The line that a full L1 portion gives up (13_memory_hierarchy.md R229 states no replacement order): free counter and
number of lines. -/
opaque evictPick : Nat → Nat → Nat

/-- The set of its L2 slice that a line falls into (11_matrix_unit.md R209 item 4 counts the ways of a set; no rule gives the function). -/
opaque l2Set : Nat → Nat

/-- A value that the spec leaves open at one use, by the free counter (log entry 1). -/
opaque freeWord : Nat → BitVec 64

/-- Which byte an overlapping copy reads (12_copy_engine.md R218: "Which one is unspecified"). -/
opaque overlapPick : Nat → Bool

/-- Which of the writes of a failed ACCS are made (11_matrix_unit.md R210: "any subset of its elements and scales written"):
free counter and number of the write. -/
opaque subsetPick : Nat → Nat → Bool

/-- Whether the fetch of a slot that has not issued FNCI sees the new halfword (07 R127): free counter. -/
opaque stalePick : Nat → Bool

/-- The hash of a drain of a paired task (24_protection.md R335 case 4: "not architectural"). -/
opaque drainHash : List Nat → W64

/-- ENT of a frame that the device sends (20_fabric.md R293: "its value is not architectural"). -/
opaque entropy : Nat → BitVec 8

/-- The EPOCH with which the fabric manager starts a broken flow again (20_fabric.md R302 says a new one): free counter. -/
opaque restartEpoch : Nat → Nat

/-- Free receive slots of the downstream link of a port (20_fabric.md R299 case 1: a count that the next device holds): free counter
and port. -/
opaque portSlots : Nat → Nat → Nat

/-- Fabric device id at the other end of a scale-up port, and whether a switch stands there (20_fabric.md R309): the wiring. -/
opaque linkPeer : Nat → Nat
opaque facesSwitch : Nat → Bool

/-- DDEV of a stream's frames that leave by a port (20_fabric.md R308 states none): stream and port. -/
opaque streamDest : Nat → Nat → Nat

/-- Cycles of the reference clock for which a change of an island's frequency stops issue (25_bring_up.md R354: at most 10
microseconds): island and time. -/
opaque islandPause : Nat → Nat → Nat

/-- Whether the partition that a memory-plane slot names has no flit waiting at a router (24_protection.md R344): by the time and
the partition. -/
opaque slotIdle : Nat → Nat → Bool

/-- The digest of the public key of the device identity (25_bring_up.md R351). -/
opaque identityDigest : BitVec 256

/-- The clusters' choice of the candidate order of a nearest search: the summaries "may be stale" (04_placing.md R70);
whether a walker's summary shows it as non-empty. -/
opaque summaryStale : Nat → Nat → Bool

/-- Whether the nodes of other devices show evidence in a round of a system instance (17_mortar_plane.md R259, R260): free
counter. -/
opaque otherNodes : Nat → Bool

/-- SHAKE256 with 256 bits of output (25_bring_up.md R348, R352): a standard outside the spec. -/
opaque shake256 : List Byte → BitVec 256

/-- XMSS verification under the public key whose digest the ROM holds (25_bring_up.md R349 case 1). -/
opaque xmssVerify : BitVec 256 → List Byte → List Byte → Bool

/-- The XMSS signature of a quote with a one-time index (25_bring_up.md R352, R353). -/
opaque xmssSign : Nat → List Byte → List Byte

/-- The public key digest in the ROM (25_bring_up.md R349). -/
opaque romKeyDigest : BitVec 256

/-- The nonce of the attestation in a recovery request (25_bring_up.md R351, R352 state none), by the request's number. -/
opaque recoveryNonce : Nat → BitVec 256

end Config
end Sys2Proof
end

