-- ==== Sys2Proof/Syntax.lean ====
section
/-! DEFINITION. The syntax of the machine: one constructor of `Instr` for every row of spec/opcode_table.json.

Rows with words are the instructions of 05_encoding.md R76 to R85; their arguments are the fields of the word.
Rows without words are operations and events of the machine (95_what_each_step_holds.md); their arguments say at which
core, slot, cluster, partition, context or port the event takes place and what comes in from outside (a frame, a
management write). The types of what comes in stand before `Instr`.

The numbers of places: a core is `16 * (16 * y + x) + c` and a cluster `16 * y + x`, in package coordinates. -/

namespace Sys2Proof

/-- Four argument words (08_isa_memory_messages.md R144, R147). -/
structure Quad where
  a : W64
  b : W64
  c : W64
  d : W64
deriving DecidableEq, Repr

/-- A scope instance of the mortar plane (17_mortar_plane.md R257). -/
inductive Inst where
  /-- One cluster. -/
  | group (cluster : Nat)
  /-- The partition on this package. -/
  | device (part : Nat)
  /-- The partition's tenant fabric domain. -/
  | system (domain : Nat)
deriving DecidableEq, Repr

/-- Which synchronisation completion of 17_mortar_plane.md R269 a message is. -/
inductive CompKind where
  | course (idx : Nat)
  | grant (ring mem : Nat)
  | reduction (gen : Nat)
  | multicast
  | clock
deriving DecidableEq, Repr

/-- A completion with its instance and its round (17_mortar_plane.md R269). -/
structure Completion where
  kind : CompKind
  inst : Inst
  round : Nat
deriving DecidableEq, Repr

/-- Names a launch: its context and its launch id (03_launching.md R43), and its device when that is not the one at hand. -/
structure LaunchId where
  ctx : Nat
  lid : Nat
  dev : Option Nat := none
deriving DecidableEq, Repr

/-- The KIND of a message descriptor (08_isa_memory_messages.md R144). -/
inductive MsgKind where
  | pad
  | byClass
  | byAddress
  | carried
  | spawn
  | bounce
  | rdxData
  | faultRecord
  | service
deriving DecidableEq, Repr

/-- What a message retires or releases when it is consumed. -/
inductive MsgTie where
  /-- Nothing. -/
  | none
  /-- A failed transfer whose MODE 2 handler this message is: channel and id (12_copy_engine.md R223 case 3). -/
  | transfer (chan xid : Nat)
deriving DecidableEq, Repr

/-- A message: its descriptor (08_isa_memory_messages.md R144), its carried code and its payload, and the ties that the
CNI keeps and the descriptor does not show. -/
structure Msg where
  kind : MsgKind
  /-- TARGET, the place word as sent. -/
  target : W64
  /-- SOURCE, read by tasks as MSRC. -/
  source : W64
  /-- SPART, the source partition. -/
  spart : Nat
  msgid : W32
  /-- HANDLER: a routine address of R77, or the class for KIND 1. -/
  handler : Nat
  bclass : Nat
  defer : Nat
  prio : Nat
  refuse : Nat
  args : Quad
  payload : List Byte
  code : List Half
  /-- The launch the message belongs to (R47). -/
  launch : Option LaunchId
  /-- The completion that the message is, if it is one (R269). -/
  comp : Option Completion
  /-- Held mark of 06_issuing.md R98 case 3. -/
  held : Bool
  /-- Retried mark of 24_protection.md R337. -/
  retried : Bool
  /-- TCAUSE and TADDR of the trap that returned the message (R101). -/
  tcause : W64
  taddr : W64
  tie : MsgTie
  /-- The launch record (02_describing_work.md R23), which goes with the message to another device. -/
  rcd : Option (BitVec 1024) := none
deriving DecidableEq, Repr

/-- One nibble-masked byte of a store (08_isa_memory_messages.md R143): where, the value, which nibbles. -/
structure NibByte where
  pos : Nat
  val : Byte
  lo : Bool
  hi : Bool
deriving DecidableEq, Repr

/-- Where an RDX delivers and how it reports (08_isa_memory_messages.md R153). -/
structure RdxReq where
  /-- The request quad: source address, length, recipient, completion word. -/
  quad : Quad
  /-- Requester's core, as a kind-0 place word, its partition, its fabric device id and its launch. -/
  requester : W64
  rpart : Nat
  rdev : Nat
  msgid : W32
  prio : Nat
  launch : Option LaunchId
  /-- Device and partition of the recipient, as the requester's tables name them, and the tenant fabric domain. -/
  cdev : Nat
  cpart : Nat
  dom : Nat
  /-- The record of the requester's launch, for a task that the data starts at another device. -/
  rcd : Option (BitVec 1024) := none
deriving DecidableEq, Repr

/-- A service request or reply that crosses the fabric (20_fabric.md R296). Addresses are guest virtual addresses of
partition `part` of the receiving device. -/
inductive Service where
  /-- A posted store. -/
  | store (part addr : Nat) (bytes : List NibByte)
  /-- A posted atomic: operation, size in bytes, operand. -/
  | amop (part addr op size : Nat) (p : W64)
  /-- A commutative update: operation of R142, size, operand. -/
  | red (part addr op size : Nat) (p : W64)
  /-- A read of `n` bytes. -/
  | load (part addr n : Nat)
  /-- A returning atomic: operation, size, both operands. -/
  | amo (part addr op size : Nat) (p q : W64)
  /-- The read of an RDX at its owner. -/
  | rdx (part : Nat) (r : RdxReq)
  /-- Data of an RDX for its recipient; bytes of it that do not fit into one frame go ahead in frames of their own (R292). -/
  | rdxData (r : RdxReq) (bytes : List Byte) (status : Nat)
  | rdxPiece (r : RdxReq) (bytes : List Byte)
  /-- Acknowledgement of a posted write, successful or failed (R133 case 6); cause 8 or 9 when failed. -/
  | ack (ok : Bool) (cause : Nat)
  /-- One acknowledgement for several writes of a core (21_program_three_chip_chain.md R311 case 2): each with its request's number and its
  failure mark. -/
  | acks (l : List (Nat × Bool × Nat))
  /-- Reply to a load: its bytes, or the cause that it returns. -/
  | data (bytes : List Byte)
  | failed (cause : Nat)
  /-- The request has ended at every recipient, each of which has taken its delivery or refused it; with the notice that NOTIFY
  asks for when each took it. With `stays`, tasks that it started still run, and `settled` follows. -/
  | rdxDone (r : RdxReq) (notify stays : Bool)
  /-- A fault record of the owner for the requester's supervisor. -/
  | rdxFault (r : RdxReq) (cause : Nat) (addr : W64) (owner : Nat)
  | rdxRefused (r : RdxReq) (refuse : Nat) (place : W64)
  /-- What has become of a task message: its sender's launch, partition, place and message id, and how many copies bounce; all
  that it started has ended (03_launching.md R47). -/
  | settled (launch : LaunchId) (part : Nat) (source : W64) (msgid : W32) (bounces : Nat)
  /-- A launch is torn down (22_interruption.md R320). -/
  | kill (launch : LaunchId)
deriving DecidableEq, Repr

/-- A word or the marker of a virtual stream (20_fabric.md R307, R308). -/
inductive StreamItem where
  | word (idx : Nat) (v : W64)
  | marker
deriving DecidableEq, Repr

/-- The payload of a frame, in clear: what its sender encrypted (20_fabric.md R296). -/
inductive Payload where
  | empty
  /-- An active message for a core of the receiving device. -/
  | message (part : Nat) (m : Msg)
  /-- A service message, with the core that asked and its request's number. -/
  | service (core req : Nat) (v : Service)
  /-- State of the system trellis and clock: distance and clock of the sender. -/
  | mortar (dist : Nat) (clock : Nat)
  | stream (items : List StreamItem)
  /-- Link control (R301): the count of frames received in order with good FCS, and whether a frame failed or is missing. -/
  | link (count : Nat) (gap : Bool)
deriving DecidableEq, Repr

/-- A Voluno frame (20_fabric.md R292 to R296). The cipher is symbolic: a frame names the key it was sealed under and
whether its ciphertext and its tag belong together. -/
structure Frame where
  ddev : Nat
  sdev : Nat
  tc : Nat
  ent : Nat
  opcode : Nat
  ackv : Bool
  resend : Bool
  seq : Nat
  ack : Nat
  domain : Nat
  length : Nat
  stream : Nat
  epoch : Nat
  payload : Payload
  /-- The fabric key that sealed the payload: the domain and the number of the key in the domain's series. -/
  key : Nat
  /-- The tag matches ciphertext and header. -/
  tagGood : Bool
  /-- Good FCS. -/
  fcsGood : Bool
  /-- Every reserved bit is zero. -/
  reservedZero : Bool
  /-- Bytes of the whole frame on the wire. -/
  wire : Nat
  /-- The frame uses nothing that R291 says the device does not support. -/
  supported : Bool
  /-- UDP destination port of a frame at a front-end port (R291). -/
  udp : Nat := 48111
  /-- Its number among the frames sent on the link, which both ends count (R301). -/
  count : Nat := 0
  /-- The port by which its sender sends it again; none when any of its minimal ports will do. -/
  out : Option Nat := none
deriving DecidableEq, Repr

/-- A flow: source device, destination device, traffic class (20_fabric.md R295). -/
structure FlowId where
  sdev : Nat
  ddev : Nat
  tc : Nat
deriving DecidableEq, Repr

/-- What a debugger writes in a halted context (22_interruption.md R331). -/
inductive DebugWrite where
  | g (core slot : Nat) (r : Reg) (v : W64)
  | v (core slot : Nat) (r : Reg) (v : Vec)
  | m (core slot r : Nat) (v : W64)
  /-- A control register of a slot, by its number. -/
  | cr (core slot num : Nat) (v : W64)
  /-- The program counter, as a routine address (05_encoding.md R77). -/
  | pc (core slot addr : Nat)
  | spad (core off : Nat) (b : Byte)
  | imem (core off : Nat) (b : Byte)
  | acc (core idx : Nat) (v : W32)
  /-- A tile walker, by the words of 04_placing.md R62 and R63 and its return list. -/
  | walker (cluster w : Nat) (state window : W64) (ret : List Nat)
  /-- A word of a record of the trap queue, which is a call record or not as it was; from 4 on, of its payload. -/
  | record (idx word : Nat) (v : W64)
deriving DecidableEq, Repr

/-- The registers and tables that a management write sets (03_launching.md R39, R50; 13_memory_hierarchy.md R237, R239;
17_mortar_plane.md R259, R267; 20_fabric.md R291, R297, R299; 22_interruption.md R318, R327; 24_protection.md R339, R344,
R345, R341; 25_bring_up.md R347). -/
inductive Mgmt where
  /-- Ring descriptor, 256 bits. -/
  | ring (ctx ring : Nat) (w : BitVec 256)
  /-- Stage-1 and stage-2 queue tables. -/
  | queue1 (ctx idx : Nat) (w : Byte)
  | queue2 (ctx idx : Nat) (w : Byte)
  /-- Stage-2 root and translation control block of a context, and the memory it may be given: guest and device
  physical addresses. -/
  | stage2Root (ctx addr : Nat)
  | controlBlock (ctx addr : Nat)
  /-- Guest physical address of the supervisor image. -/
  | supervisorImage (ctx addr : Nat)
  /-- Save area, a device physical address. -/
  | saveArea (ctx addr : Nat)
  /-- Tenant fabric domain of a context. -/
  | domain (ctx dom : Nat)
  /-- Peer entry and table length; they take effect at a peer invalidation (R298 case 5). -/
  | peer (part handle : Nat) (w : BitVec 128)
  | peerLength (part len : Nat)
  /-- Snapshot root, 256 bits. -/
  | snapshotRoot (part : Nat) (w : BitVec 256)
  /-- Entry of the slot table. -/
  | slotEntry (t : Nat) (w : Byte)
  | qos (part : Nat) (w : W64)
  | transitWeight (w : Byte)
  /-- Stream ring descriptor of a partition. -/
  | streamRing (part : Nat) (w : BitVec 256)
  /-- Fabric device id, route table, UDP port, system trellis. -/
  | deviceId (v : Nat)
  | route (dev : Nat) (ports : List Nat)
  | udpPort (v : Nat)
  | systemTrellis (dom root cap : Nat)
  /-- A doubleword of HBM, by device physical address (the hypervisor's tables; snapshot fields of R341). -/
  | memory (addr : Nat) (w : W64)
  /-- A write of 1 to ERR of a ring's descriptor (RW1C), its other fields written as they stand. -/
  | ringWriteClear (ctx ring : Nat)
  /-- The hypervisor asks for bytes of a sealed snapshot, by guest physical address (R341). -/
  | sealedRead (part gpa n : Nat)
  /-- A write of the debugger that is attached to a context. -/
  | debug (ctx : Nat) (w : DebugWrite)
deriving DecidableEq, Repr

/-- A manifest entry of the firmware image set (25_bring_up.md R348). -/
structure ManifestEntry where
  digest : BitVec 256
  /-- Reserved bits 255:128. -/
  reservedHi : BitVec 128
  length : BitVec 32
  offset : BitVec 32
  /-- Reserved bits 63:16. -/
  reservedLo : BitVec 48
  version : BitVec 8
  id : BitVec 8
deriving DecidableEq, Repr

/-- An image set, byte for byte as it lies in the flash: the manifest, the signature over it, the images (25_bring_up.md R348). -/
structure ImageSet where
  bytes : List Byte
deriving DecidableEq, Repr

/-- What a debugger reads or writes is outside the table of rows; what a soft error changes is this
(17_mortar_plane.md R258, 24_protection.md R337). -/
inductive SoftTarget where
  /-- A protocol or configuration field of the mortar plane, named as SYNLD names it, and its new value. -/
  | mortar (part : Nat) (field : W64) (v : W64)
  /-- A bit of a general register of a slot. -/
  | greg (core slot : Nat) (r : Reg) (bit : Nat)
  /-- A bit of a vector register of a slot. -/
  | vreg (core slot : Nat) (r : Reg) (bit : Nat)
  /-- An uncorrectable error in a halfword of a core's IMEM (24_protection.md R338). -/
  | imem (core half : Nat)
  /-- An uncorrectable error in a halfword of a partition's supervisor IMEM (R338). -/
  | supImem (part half : Nat)
  /-- A bit of the next instruction of a slot, upset between IMEM and issue (R338). -/
  | upset (core slot bit : Nat)
  /-- An uncorrectable error in a 128-byte line of HBM, by line number (R342). -/
  | hbm (line : Nat)
deriving DecidableEq, Repr

/-- What a stage-2 fill reply does: fill the entry at a device physical address, or fail it (13_memory_hierarchy.md
R238 case 3). -/
inductive FillReply where
  | fill (addr : Nat) (w : W64)
  | fail
deriving DecidableEq, Repr

/-- The instructions and events of the machine, in the order of spec/opcode_table.json. -/
inductive Instr where
  /-- ADD (R113). Writes the sum of two general registers, modulo 2^64. -/
  | add (d a b : Reg)
  /-- SUB (R113). Writes the difference of two general registers, modulo 2^64. -/
  | sub (d a b : Reg)
  /-- AND (R113). Writes the bitwise AND of two registers. -/
  | andOp (d a b : Reg)
  /-- OR (R113). Writes the bitwise OR of two registers. -/
  | orOp (d a b : Reg)
  /-- XOR (R113). Writes the bitwise XOR of two registers. -/
  | xorOp (d a b : Reg)
  /-- ANDN (R113). Writes A AND NOT B. -/
  | andn (d a b : Reg)
  /-- SHL (R113). Shifts left by the whole of B, giving 0 for amounts of 64 or more. -/
  | shl (d a b : Reg)
  /-- SHR (R113). Shifts right logically by the whole of B. -/
  | shr (d a b : Reg)
  /-- SHA (R113). Shifts right arithmetically by min(B, 63). -/
  | sha (d a b : Reg)
  /-- ROL (R113). Rotates left by B modulo 64. -/
  | rol (d a b : Reg)
  /-- MIN (R113). Writes the signed minimum. -/
  | min (d a b : Reg)
  /-- MAX (R113). Writes the signed maximum. -/
  | max (d a b : Reg)
  /-- MINN (R113). Writes the unsigned minimum. -/
  | minn (d a b : Reg)
  /-- MAXN (R113). Writes the unsigned maximum. -/
  | maxn (d a b : Reg)
  /-- SLT (R113). Writes 1 when A is less than B as signed values. -/
  | slt (d a b : Reg)
  /-- SLTN (R113). Writes 1 when A is less than B as unsigned values. -/
  | sltn (d a b : Reg)
  /-- SEQ (R113). Writes 1 when A equals B. -/
  | seq (d a b : Reg)
  /-- CLZ (R113). Writes the count of leading zero bits of A. -/
  | clz (d a : Reg)
  /-- CTZ (R113). Writes the count of trailing zero bits of A. -/
  | ctz (d a : Reg)
  /-- POPC (R113). Writes the count of set bits of A. -/
  | popc (d a : Reg)
  /-- SEL (R113). Writes A when gd is non-zero, else B. -/
  | sel (d a b : Reg)
  /-- NOP (R124). ADD g0, g0, g0: changes nothing but the PC. -/
  | nop
  /-- MUL (R114). Long-latency low 64 bits of the product. -/
  | mul (d a b : Reg) (la : BitVec 4)
  /-- MULH (R114). Long-latency high 64 bits of the signed product. -/
  | mulh (d a b : Reg) (la : BitVec 4)
  /-- MULHN (R114). Long-latency high 64 bits of the unsigned product. -/
  | mulhn (d a b : Reg) (la : BitVec 4)
  /-- DIV (R114). Long-latency signed quotient with defined results for zero and overflow. -/
  | div (d a b : Reg) (la : BitVec 4)
  /-- DIVN (R114). Long-latency unsigned quotient. -/
  | divn (d a b : Reg) (la : BitVec 4)
  /-- REM (R114). Long-latency signed remainder. -/
  | rem (d a b : Reg) (la : BitVec 4)
  /-- REMN (R114). Long-latency unsigned remainder. -/
  | remn (d a b : Reg) (la : BitVec 4)
  /-- BFX (R115). Extracts a zero-extended bit field. -/
  | bfx (d a : Reg) (pos wid : BitVec 6)
  /-- BFXS (R115). Extracts a sign-extended bit field. -/
  | bfxs (d a : Reg) (pos wid : BitVec 6)
  /-- BFI (R115). Inserts the low bits of ga into a field of gd. -/
  | bfi (d a : Reg) (pos wid : BitVec 6)
  /-- ADDI (R116). Adds a sign-extended 14-bit immediate. -/
  | addi (d a : Reg) (imm : BitVec 14)
  /-- ANDI (R116). ANDs with a sign-extended immediate. -/
  | andi (d a : Reg) (imm : BitVec 14)
  /-- ORI (R116). ORs with a sign-extended immediate. -/
  | ori (d a : Reg) (imm : BitVec 14)
  /-- XORI (R116). XORs with a sign-extended immediate. -/
  | xori (d a : Reg) (imm : BitVec 14)
  /-- SHLI (R116). Shifts left by an immediate 0-63. -/
  | shli (d a : Reg) (imm : BitVec 6)
  /-- SHRI (R116). Shifts right logically by an immediate. -/
  | shri (d a : Reg) (imm : BitVec 6)
  /-- SHAI (R116). Shifts right arithmetically by an immediate. -/
  | shai (d a : Reg) (imm : BitVec 6)
  /-- SLTI (R116). Writes 1 when A is less than the signed immediate. -/
  | slti (d a : Reg) (imm : BitVec 14)
  /-- LI (R117). Loads a sign-extended 19-bit immediate. -/
  | li (d : Reg) (imm : BitVec 19)
  /-- LIH (R117). Replaces bits 63:45 of gd with the immediate. -/
  | lih (d : Reg) (imm : BitVec 19)
  /-- ADR (R117). Writes a PC-relative routine address, trapping outside 0-32767. -/
  | adr (d : Reg) (imm : BitVec 19)
  /-- BEQ (R119). Branches when the two registers are equal. -/
  | beq (d a : Reg) (off : BitVec 14)
  /-- BNE (R119). Branches when the two registers differ. -/
  | bne (d a : Reg) (off : BitVec 14)
  /-- BLT (R119). Branches on signed less-than. -/
  | blt (d a : Reg) (off : BitVec 14)
  /-- BGE (R119). Branches on signed greater-or-equal. -/
  | bge (d a : Reg) (off : BitVec 14)
  /-- BLTN (R119). Branches on unsigned less-than. -/
  | bltn (d a : Reg) (off : BitVec 14)
  /-- BGEN (R119). Branches on unsigned greater-or-equal. -/
  | bgen (d a : Reg) (off : BitVec 14)
  /-- JMP (R120). Jumps by a 24-bit halfword offset. -/
  | jmp (off : BitVec 24)
  /-- JAL (R120). Jumps and writes the link into g1. -/
  | jal (off : BitVec 24)
  /-- JALR (R120). Jumps to ga plus immediate and writes the link into gd. -/
  | jalr (d a : Reg) (imm : BitVec 14)
  /-- LOOP (R121). Starts a counted loop over the following body, or skips it for a count of 0. -/
  | loop (a : Reg) (len : BitVec 8)
  /-- END (R122). Checks the signature, waits for confirmation if tainted, drains the buffer and frees the slot. -/
  | endOp
  /-- ENDD (R122). Discards every entry since the last commit point and consumes the message. -/
  | endd
  /-- CMT (R122). Commit point: drains the buffer and makes the task non-replayable. -/
  | cmt
  /-- FOLW (R123). Joins the slot's leader stream under the conditions of R90, or acts as a no-op. -/
  | folw
  /-- FOLLOW_WAIT_EXPIRY (R90). After 64 cycles without the leader issuing the next address, FOLW acts as a no-op. -/
  | followWaitExpiry (core slot : Nat)
  /-- SIG (R124). Checks the running block's CRC when armed and arms a new full check. -/
  | sig (sig : BitVec 16)
  /-- SIG_SHORT (R94). Short-form SIG comparing 11 bits of the CRC. -/
  | sigShort (sig : BitVec 11)
  /-- RDC (R125). Reads a control register into gd. -/
  | rdc (d : Reg) (num : BitVec 12)
  /-- WRC (R125). Writes a control register from ga, trapping for read-only or reserved values. -/
  | wrc (a : Reg) (num : BitVec 12)
  /-- SKIP_WRITE (R206). A write to SKIP waits until no released MMAS is pending and then writes the stream pointer. -/
  | skipWrite (core slot : Nat)
  /-- LFSR_WRITE (R105). A write to LFSR stores bits 31:0, writing 1 when they are 0. -/
  | lfsrWrite (v : W64)
  /-- TRAP (R126). Takes the precise trap TRAP with its immediate as CODE. -/
  | trap (code : BitVec 14)
  /-- BKPT (R126). Takes the precise trap BREAKPOINT. -/
  | bkpt
  /-- FNCI (R127). Makes earlier IMEM writes visible to the slot's fetch and discards prefetched halfwords. -/
  | fnci
  /-- TLBI (R129). Privileged: drops stage-1 translations of the partition. -/
  | tlbi (a b : Reg)
  /-- TLBI_COMPLETE (R129). TLBI completes once TLBs drop entries, walks finish and pins drain. -/
  | tlbiComplete (core slot : Nat)
  /-- SNAP (R130). Privileged: requests sealing of the partition's snapshot epoch. -/
  | snap (d : Reg)
  /-- SNAP_FLIP (R130). Once earlier drains and reclaim finish, the epoch is sealed, the root flipped and gd written. -/
  | snapFlip (core slot : Nat)
  /-- DBGH (R131). Privileged: requests debug halt of the issuing context. -/
  | dbgh
  /-- SYNLD (R132). Privileged: stages a mortar-state write, or applies the staged set at the next round. -/
  | synld (a b : Reg)
  /-- LD_B (R134). Loads a zero-extended byte. -/
  | ldB (d a : Reg) (la : BitVec 4) (off : BitVec 10)
  /-- LD_H (R134). Loads a zero-extended halfword. -/
  | ldH (d a : Reg) (la : BitVec 4) (off : BitVec 10)
  /-- LD_W (R134). Loads a zero-extended word. -/
  | ldW (d a : Reg) (la : BitVec 4) (off : BitVec 10)
  /-- LD_D (R134). Loads a doubleword. -/
  | ldD (d a : Reg) (la : BitVec 4) (off : BitVec 10)
  /-- LD_B_S (R134). Loads a sign-extended byte. -/
  | ldBS (d a : Reg) (la : BitVec 4) (off : BitVec 10)
  /-- LD_H_S (R134). Loads a sign-extended halfword. -/
  | ldHS (d a : Reg) (la : BitVec 4) (off : BitVec 10)
  /-- LD_W_S (R134). Loads a sign-extended word. -/
  | ldWS (d a : Reg) (la : BitVec 4) (off : BitVec 10)
  /-- ST_B (R134). Buffers a byte store. -/
  | stB (d a : Reg) (off : BitVec 10)
  /-- ST_H (R134). Buffers a halfword store. -/
  | stH (d a : Reg) (off : BitVec 10)
  /-- ST_W (R134). Buffers a word store. -/
  | stW (d a : Reg) (off : BitVec 10)
  /-- ST_D (R134). Buffers a doubleword store. -/
  | stD (d a : Reg) (off : BitVec 10)
  /-- LDP (R134). Loads a 16-byte pair into an even register pair. -/
  | ldp (d a : Reg) (la : BitVec 4) (off : BitVec 10)
  /-- STP (R134). Buffers a 16-byte pair store. -/
  | stp (d a : Reg) (off : BitVec 10)
  /-- LDS (R135). Strong load with acquire or sc order at a scope. -/
  | lds (d a : Reg) (sc : BitVec 2) (la : BitVec 4) (sz : BitVec 2) (sgn ord : BitVec 1)
  /-- STS (R135). Buffers a strong store with release or sc order at a scope. -/
  | sts (d a : Reg) (sc sz : BitVec 2) (ord : BitVec 1)
  /-- FNC (R136). Places a fence mark ordering the selected kinds at a scope. -/
  | fnc (kinds : BitVec 4) (sc : BitVec 2)
  /-- PFX (R137). Prefetches the line into L1 or its home L2 slice. -/
  | pfx (a : Reg) (sc : BitVec 2)
  /-- CLN (R137). Merges partial sums of the line and, at device or system scope, writes it back to HBM. -/
  | cln (a : Reg) (sc : BitVec 2)
  /-- INVL (R137). Drops the line from the core's L1 or the cluster's L1 portions. -/
  | invl (a : Reg) (sc : BitVec 2)
  /-- TMAD (R138). Reads a tensor map and returns the address of a brick's first element. -/
  | tmad (d a b : Reg) (la : BitVec 4)
  /-- AMO (R140). Returning atomic: a commit point that performs the operation at the owner and returns the old value. -/
  | amo (d a b : Reg) (la op : BitVec 4) (sz : BitVec 1)
  /-- AMOP (R141). Buffers a posted atomic performed at the owner at drain. -/
  | amop (a b : Reg) (op : BitVec 4) (sz : BitVec 1)
  /-- RED (R142). Buffers a commutative update that enters the line's partial-sum state. -/
  | red (a b : Reg) (op : BitVec 2) (sz : BitVec 1)
  /-- SEND (R147). Buffers a message to a handler address with built or scratchpad payload. -/
  | send (d a b : Reg)
  /-- SENDK (R147). Buffers a message to a class with the built payload. -/
  | sendk (d a : Reg) (cls bnc : BitVec 6)
  /-- SENDX (R147). Buffers a message carrying code from the scratchpad. -/
  | sendx (d a b : Reg)
  /-- SPWN (R150). Commit point that sends a spawn request and returns whether the child started. -/
  | spwn (d a b : Reg) (la : BitVec 4)
  /-- RDX (R154). Checks and buffers a third-party read request. -/
  | rdx (a : Reg)
  /-- DEQ (R152). Pops a whole completion record into four registers and acquires its writes. -/
  | deq (d : Reg) (la : BitVec 4)
  /-- MXQ (R197). Checks, samples and queues a matrix command, waiting or trapping when the queue is full. -/
  | mxq (a : Reg)
  /-- MXQT (R197). Like MXQ but returns busy instead of waiting. -/
  | mxqt (d a : Reg) (la : BitVec 4)
  /-- CPQ (R215). Checks, samples and queues a copy request and returns its transfer id. -/
  | cpq (d a : Reg) (la : BitVec 4)
  /-- CPQT (R215). Like CPQ but returns all ones when busy. -/
  | cpqt (d a : Reg) (la : BitVec 4)
  /-- WKNX (R67). Takes the next tile from the task's walker, optionally cleaving when dry. -/
  | wknx (d a : Reg) (la : BitVec 4)
  /-- CLV (R71). Cleaves a named or nearest walker into the task's dry walker and returns a result word. -/
  | clv (d a : Reg) (la : BitVec 4)
  /-- WKRD (R72). Reads a walker's state or window word. -/
  | wkrd (d a b : Reg) (la : BitVec 4)
  /-- LNCH (R52). Buffers a device launch request and returns the launch ticket. -/
  | lnch (d a b : Reg)
  /-- TRIG (R53). Buffers a trigger of the issuing cluster for the task's launch. -/
  | trig
  /-- VFADD (R178). Adds f32 lanes under mask, rounding by RNDM. -/
  | vfadd (d a b : Reg) (mk : BitVec 3) (zr : BitVec 1)
  /-- VFSUB (R178). Subtracts f32 lanes. -/
  | vfsub (d a b : Reg) (mk : BitVec 3) (zr : BitVec 1)
  /-- VFMUL (R178). Multiplies f32 lanes. -/
  | vfmul (d a b : Reg) (mk : BitVec 3) (zr : BitVec 1)
  /-- VFMA (R178). Fused multiply-add of f32 lanes, rounded once. -/
  | vfma (d a b : Reg) (mk : BitVec 3) (zr : BitVec 1)
  /-- VFMS (R178). Fused multiply-subtract of f32 lanes. -/
  | vfms (d a b : Reg) (mk : BitVec 3) (zr : BitVec 1)
  /-- VFNMA (R178). Fused c minus a times b. -/
  | vfnma (d a b : Reg) (mk : BitVec 3) (zr : BitVec 1)
  /-- VFMIN (R178). Lesser of f32 lanes, -0 below +0. -/
  | vfmin (d a b : Reg) (mk : BitVec 3) (zr : BitVec 1)
  /-- VFMAX (R178). Greater of f32 lanes. -/
  | vfmax (d a b : Reg) (mk : BitVec 3) (zr : BitVec 1)
  /-- VFABS (R179). Clears the sign bit of each selected lane. -/
  | vfabs (d a : Reg) (mk : BitVec 3) (zr : BitVec 1)
  /-- VFNEG (R179). Inverts the sign bit of each selected lane. -/
  | vfneg (d a : Reg) (mk : BitVec 3) (zr : BitVec 1)
  /-- VFCPY (R179). Copysign: magnitude from va, sign from vb. -/
  | vfcpy (d a b : Reg) (mk : BitVec 3) (zr : BitVec 1)
  /-- VFCMP (R180). Compares f32 lanes and writes a mask register. -/
  | vfcmp (d : BitVec 3) (a b : Reg) (mk : BitVec 3) (zr : BitVec 1) (cond : BitVec 5)
  /-- VRCP (R181). Table-and-refinement reciprocal of f32 lanes. -/
  | vrcp (d a : Reg) (mk : BitVec 3) (zr : BitVec 1)
  /-- VRSQ (R181). Table-and-refinement reciprocal square root. -/
  | vrsq (d a : Reg) (mk : BitVec 3) (zr : BitVec 1)
  /-- VEXP2 (R181). Table-and-refinement power of two. -/
  | vexp2 (d a : Reg) (mk : BitVec 3) (zr : BitVec 1)
  /-- VADD (R182). Adds integer lanes, wrapping. -/
  | vadd (d a b : Reg) (mk : BitVec 3) (zr : BitVec 1) (lane : BitVec 2)
  /-- VSUB (R182). Subtracts integer lanes. -/
  | vsub (d a b : Reg) (mk : BitVec 3) (zr : BitVec 1) (lane : BitVec 2)
  /-- VMUL (R182). Low half of integer lane products. -/
  | vmul (d a b : Reg) (mk : BitVec 3) (zr : BitVec 1) (lane : BitVec 2)
  /-- VMULH (R182). High half of signed integer lane products. -/
  | vmulh (d a b : Reg) (mk : BitVec 3) (zr : BitVec 1) (lane : BitVec 2)
  /-- VMIN (R182). Signed minimum of integer lanes. -/
  | vmin (d a b : Reg) (mk : BitVec 3) (zr : BitVec 1) (lane : BitVec 2)
  /-- VMAX (R182). Signed maximum of integer lanes. -/
  | vmax (d a b : Reg) (mk : BitVec 3) (zr : BitVec 1) (lane : BitVec 2)
  /-- VAND (R182). Bitwise AND of vector registers. -/
  | vand (d a b : Reg) (mk : BitVec 3) (zr : BitVec 1)
  /-- VOR (R182). Bitwise OR of vector registers. -/
  | vor (d a b : Reg) (mk : BitVec 3) (zr : BitVec 1)
  /-- VXOR (R182). Bitwise XOR of vector registers. -/
  | vxor (d a b : Reg) (mk : BitVec 3) (zr : BitVec 1)
  /-- VSHL (R182). Shifts integer lanes left. -/
  | vshl (d a b : Reg) (mk : BitVec 3) (zr : BitVec 1) (lane : BitVec 2)
  /-- VSHR (R182). Shifts integer lanes right logically. -/
  | vshr (d a b : Reg) (mk : BitVec 3) (zr : BitVec 1) (lane : BitVec 2)
  /-- VSHA (R182). Shifts integer lanes right arithmetically. -/
  | vsha (d a b : Reg) (mk : BitVec 3) (zr : BitVec 1) (lane : BitVec 2)
  /-- VCMP (R183). Compares signed integer lanes and writes a mask register. -/
  | vcmp (d : BitVec 3) (a b : Reg) (mk : BitVec 3) (zr : BitVec 1) (lane : BitVec 2) (cond : BitVec 3)
  /-- VSEL (R183). Selects each lane from va or vb by mask. -/
  | vsel (d a b : Reg) (mk : BitVec 3) (lane : BitVec 2)
  /-- VLD (R188). Loads 64 bytes into a vector register. -/
  | vld (d a : Reg) (la : BitVec 4) (off : BitVec 10)
  /-- VST (R188). Buffers a 64-byte vector store. -/
  | vst (d a : Reg) (off : BitVec 10)
  /-- VLDB (R188). Loads one 16-byte sector and repeats it in four places. -/
  | vldb (d a : Reg) (la : BitVec 4) (off : BitVec 10)
  /-- VLDX (R190). Gathers sixteen 4-byte chunks under mask. -/
  | vldx (d a b : Reg) (la : BitVec 4) (mk : BitVec 3) (lane : BitVec 2)
  /-- VSTX (R190). Buffers a scatter of sixteen 4-byte chunks under mask. -/
  | vstx (d a b : Reg) (mk : BitVec 3) (lane : BitVec 2)
  /-- VPERM (R185). Permutes lanes of va by indices in vb. -/
  | vperm (d a b : Reg) (mk : BitVec 3) (zr : BitVec 1) (lane : BitVec 2)
  /-- VSLD (R185). Slides lanes of va by a signed register amount. -/
  | vsld (d a b : Reg) (mk : BitVec 3) (zr : BitVec 1) (lane : BitVec 2)
  /-- VINS (R185). Inserts a general register into one lane. -/
  | vins (d a b : Reg) (lane : BitVec 2)
  /-- VEXT (R185). Extracts one lane into a general register. -/
  | vext (d a b : Reg) (lane : BitVec 2)
  /-- VBCAST (R185). Broadcasts a general register into every selected lane. -/
  | vbcast (d a : Reg) (mk : BitVec 3) (zr : BitVec 1) (lane : BitVec 2)
  /-- VRED (R184). Reduces lanes in a fixed tree order into lane 0. -/
  | vred (d a : Reg) (mk : BitVec 3) (lane : BitVec 2) (op : BitVec 3)
  /-- VSCAN (R184). Writes the running prefix of lanes in lane order. -/
  | vscan (d a : Reg) (mk : BitVec 3) (lane : BitVec 2) (op : BitVec 3)
  /-- VCVT (R186). Converts elements between formats without forced saturation. -/
  | vcvt (d a : Reg) (dst src : BitVec 6) (rnd : BitVec 2)
  /-- VCVT_SAT (R186). Converts elements between formats with saturation. -/
  | vcvtSat (d a : Reg) (dst src : BitVec 6) (rnd : BitVec 2)
  /-- VBSC (R187). Derives the block scale code and value for a block of f32 lanes. -/
  | vbsc (d a b : Reg) (mk : BitVec 3) (knd : BitVec 2)
  /-- MAND (R191). ANDs two mask registers. -/
  | mand (d a b : Reg)
  /-- MOR (R191). ORs two mask registers. -/
  | mor (d a b : Reg)
  /-- MXOR (R191). XORs two mask registers. -/
  | mxor (d a b : Reg)
  /-- MNOT (R191). Complements a mask register. -/
  | mnot (d a : Reg)
  /-- MPOP (R191). Counts set mask bits into a general register. -/
  | mpop (d a : Reg)
  /-- MSET (R191). Copies a general register into a mask register. -/
  | mset (d a : Reg)
  /-- CARV (R277). Records an arrival at a course, buffered or with immediate commit. -/
  | carv (a b : Reg)
  /-- CEXP (R278). Buffers an expected byte count for a course. -/
  | cexp (a b : Reg)
  /-- CMIS (R279). Reads a course's missing members or phase. -/
  | cmis (d a b : Reg) (la : BitVec 4)
  /-- CJOIN (R278). Buffers joining the slot to a course. -/
  | cjoin (a : Reg)
  /-- CQUIT (R278). Buffers leaving a course. -/
  | cquit (a : Reg)
  /-- TKRQ (R280). Buffers a token request for a ring. -/
  | tkrq (a b : Reg) (sc : BitVec 2)
  /-- TKPS (R280). Buffers passing of the held token. -/
  | tkps (a : Reg) (sc : BitVec 2)
  /-- SCRD (R281). Reads the step clock, a synchronisation completion. -/
  | scrd (d : Reg) (la : BitVec 4) (sc : BitVec 2)
  /-- LGRD (R281). Reads the legitimacy word or the taint-abort count. -/
  | lgrd (d a : Reg) (la : BitVec 4) (sc : BitVec 2)
  /-- TRMC (R282). Buffers a multicast of a quad down the launch's trellis. -/
  | trmc (a b : Reg)
  /-- TRRD (R283). Buffers a reduction contribution and returns its generation. -/
  | trrd (d a b : Reg) (la : BitVec 4)
  /-- C_MV (R81). Compact ADD gd, ga, g0. -/
  | cMv (d a : Reg)
  /-- C_ADD (R81). Compact ADD gd, gd, gb. -/
  | cAdd (d b : Reg)
  /-- C_SUB (R81). Compact SUB gd, gd, gb. -/
  | cSub (d b : Reg)
  /-- C_AND (R81). Compact AND gd, gd, gb. -/
  | cAnd (d b : Reg)
  /-- C_ADDI (R81). Compact ADDI with a 6-bit signed immediate. -/
  | cAddi (d : Reg) (imm : BitVec 6)
  /-- C_SHLI (R81). Compact SHLI. -/
  | cShli (d : Reg) (imm : BitVec 6)
  /-- C_LI (R81). Compact LI. -/
  | cLi (d : Reg) (imm : BitVec 6)
  /-- C_LD (R81). Compact doubleword load from g8-g15. -/
  | cLd (d a : BitVec 3) (off : BitVec 5)
  /-- C_ST (R81). Compact doubleword store. -/
  | cSt (b a : BitVec 3) (off : BitVec 5)
  /-- C_BEQZ (R81). Compact branch if zero. -/
  | cBeqz (d : BitVec 3) (off : BitVec 8)
  /-- C_BNEZ (R81). Compact branch if not zero. -/
  | cBnez (d : BitVec 3) (off : BitVec 8)
  /-- C_J (R81). Compact jump. -/
  | cJ (off : BitVec 11)
  /-- C_END (R81). Compact END. -/
  | cEnd
  /-- C_CMT (R81). Compact CMT. -/
  | cCmt
  /-- C_SIG (R94). Compact short SIG. -/
  | cSig (sig : BitVec 11)
  /-- C_NOP (R81). Compact NOP. -/
  | cNop
  /-- QPAY_READ (R103). Reading qpay pops the next payload word, or 0 with QPE set when exhausted. -/
  | qpayRead (d : Reg)
  /-- QBLD_WRITE (R103). Writing qbld appends 8 bytes to the outbound builder, trapping RINGLEN at the 257th. -/
  | qbldWrite (a : Reg)
  /-- QCMP_READ (R104). Reading qcmp binds and returns completion record words, acquiring at the fourth. -/
  | qcmpRead (d : Reg)
  /-- QTILE_READ (R68). Reading qtile performs a WKNX with G(a) = 0. -/
  | qtileRead (d : Reg)
  /-- CHANNEL_STATUS_READ (R224). A load of a copy channel status word returns CPDN and, with acquire, acquires retired transfers' writes. -/
  | channelStatusRead (chan : BitVec 2) (acq : Bool) (d : Reg)
  /-- LONG_LATENCY_RESULT (R100). A long-latency instruction's result arrives and is written, freeing waiting instructions. -/
  | longLatencyResult (core slot : Nat)
  /-- TASK_DISPATCH (R98). A free task slot takes the highest-priority oldest unheld message and starts its task. -/
  | taskDispatch (core : Nat)
  /-- SERVICE_DISPATCH (R98). Slot 0 takes the oldest service message and runs its ROM handler. -/
  | serviceDispatch (core : Nat)
  /-- BUDGET_EXPIRY (R102). BUDG reaches 0 and the next instruction traps BUDGET. -/
  | budgetExpiry (core slot : Nat)
  /-- BUFFER_POOL_WAIT_END (R107). An instruction waiting for a pool sector proceeds once one frees. -/
  | bufferPoolWaitEnd (core slot : Nat)
  /-- CBFULL_DEADLOCK_ABORT (R107). When all pool-holding tasks wait, the core aborts the last-dispatched waiting task with CBFULL. -/
  | cbfullDeadlockAbort (core : Nat)
  /-- TRAP_QUEUE_WAIT_END (R317). A held non-fatal record is posted once an ordinary queue entry frees. -/
  | trapQueueWaitEnd (part : Nat)
  /-- STORM_RELEASE (R322). The hypervisor releases a storm-halted context; only the supervisor dispatches until fatal records clear. -/
  | stormRelease (part : Nat)
  /-- SUPERVISOR_DISPATCH (R318). The supervisor slot takes the next record and starts its routine, or the device kills or consumes when the class is absent. -/
  | supervisorDispatch (part : Nat)
  /-- CALL_RECORD (R318). The partition manager posts a call record requested by the hypervisor or host driver. -/
  | callRecord (ctx handler : Nat) (q : Quad)
  /-- RESUME (R319). Reply 1: unholds the message or unparks the slot. -/
  | resume (core slot : Nat)
  /-- SKIP (R319). Reply 2: consumes the trapped message and unparks the slot. -/
  | skip (core slot : Nat)
  /-- KILL (R320). Reply 0 or 3: tears down the trapping task's launch. -/
  | kill (core slot : Nat)
  /-- TASK_MESSAGE_ARRIVAL (R97). A task message is accepted into the run queue and inbox, or refused and bounced. -/
  | taskMessageArrival (k : Nat)
  /-- SERVICE_MESSAGE_ARRIVAL (R97). A service message takes a reserved run-queue entry, its sender retrying while none is free. -/
  | serviceMessageArrival (core k : Nat)
  /-- BOUNCE_ARRIVAL (R149). A bounce reaches its source core and starts a task of its bounce class. -/
  | bounceArrival (k : Nat)
  /-- BOUNCE_RETRY (R149). The source CNI retries a held bounce until the core accepts it. -/
  | bounceRetry (core : Nat)
  /-- MESSAGE_HANDOVER (R147). After earlier stores are performed, a drained send gets its message id and goes to the CNI. -/
  | messageHandover (core k : Nat)
  /-- DEFER_EXPIRY (R148). A deferred message is released by the sending CNI after DEFER x 64 cycles. -/
  | deferExpiry (core k : Nat)
  /-- COMPLETION_TASK_ACCEPT (R276). A completion-started task held by the CNI is accepted by its core. -/
  | completionTaskAccept (cluster k : Nat)
  /-- SPAWN_AT_TARGET (R150). A spawn request starts the child at once in a free slot or replies 0. -/
  | spawnAtTarget (k : Nat)
  /-- ATOMIC_AT_OWNER (R139). The owner's service slot performs an atomic or posted atomic indivisibly. -/
  | atomicAtOwner (core : Nat)
  /-- SUB_BYTE_MERGE (R143). The owner merges a nibble-masked sector into memory indivisibly. -/
  | subByteMerge (core : Nat)
  /-- MEMORY_REQUEST_AT_HOME (R231). A read, store or merge request is performed, parked or refused at the line's home slice. -/
  | memoryRequestAtHome (core k : Nat)
  /-- IMEM_WINDOW_STORE (R227). A store through the core window is performed into the named core's IMEM by its service slot. -/
  | imemWindowStore (core : Nat)
  /-- REDUCTION_ENTRY (R234). A RED update enters its cluster's or source device's partial line. -/
  | reductionEntry (core k : Nat)
  /-- FORWARDING_ENTRY_INSTALL (R233). The moved line's forwarding entry is installed and parked requests are replayed. -/
  | forwardingEntryInstall (line : Nat)
  /-- PARK_RETRY (R323). A request refused by a full park queue is retried by its source CNI. -/
  | parkRetry (core k : Nat)
  /-- SCRUB (R323). A line is rewritten after a corrected error and its parked requests replayed. -/
  | scrub (line : Nat)
  /-- STAGE2_FILL_REPLY (R238). The hypervisor fills or fails the stage-2 entry, replaying or failing parked walks. -/
  | stage2FillReply (part gpa : Nat) (r : FillReply)
  /-- STAGE2_INVALIDATION (R239). The hypervisor drops stage-2-derived translations, waiting for pins. -/
  | stage2Invalidation (part : Nat) (gpa : Option Nat)
  /-- PAGE_MIGRATION (R241). The hypervisor marks a page migrating and copies its frame. -/
  | pageMigration (part gpa frame : Nat)
  /-- PAGE_MIGRATION_COMPLETE (R241). Once pins drain the stage-2 entry changes, the mark is removed and parked requests replay. -/
  | pageMigrationComplete (part gpa : Nat)
  /-- COPY_ON_WRITE_COMPLETE (R340). LIVE flips, WE is set and parked requests replay to the new frame. -/
  | copyOnWriteComplete (part page : Nat)
  /-- WRITE_ACK (R311). A write acknowledgement reaches the source core, letting waiting flushes and releases pass. -/
  | writeAck (core k : Nat) (ok : Bool)
  /-- FENCE_MARK_PASS (R136). A drain held at an FNC .ss mark proceeds once earlier entries are performed. -/
  | fenceMarkPass (core k : Nat)
  /-- RELEASE_PERFORM (R246). A release entry is performed once every earlier and observed write is performed at its scope. -/
  | releasePerform (core k : Nat)
  /-- RDX_REQUEST_SEND (R154). After earlier stores are performed, a drained RDX gets a message id and goes to the owner. -/
  | rdxRequestSend (core k : Nat)
  /-- RDX_READ_AT_OWNER (R155). The owner checks and reads the bytes at their home and sends data or a fault. -/
  | rdxReadAtOwner (k : Nat)
  /-- RDX_DELIVERY (R155). The recipient accepts the data as a task or scratchpad write with record, or bounces it. -/
  | rdxDelivery (k : Nat)
  /-- MMA (R204). Matrix command adding A times B into an accumulator block by block. -/
  | mma (core : Nat)
  /-- MMAS (R205). Matrix command walking K-blocks with keep or skip decisions from the skip stream. -/
  | mmas (core : Nat)
  /-- ACCZ (R207). Zeroes the accumulators selected by ZMASK. -/
  | accz (core : Nat)
  /-- ACCL (R207). Loads an accumulator from operand C. -/
  | accl (core : Nat)
  /-- ACCS (R208). Stores an accumulator to C with optional derived scales. -/
  | accs (core : Nat)
  /-- ACCM_COPY (R207). Copies one accumulator to another. -/
  | accmCopy (core : Nat)
  /-- ACCM_ADD (R207). Adds one accumulator into another. -/
  | accmAdd (core : Nat)
  /-- ACCM_TRANSPOSE (R207). Writes the transpose of one accumulator into another. -/
  | accmTranspose (core : Nat)
  /-- MATRIX_COMPLETION (R210). A finished command reports by record, handler or course delivery and frees its entry. -/
  | matrixCompletion (core : Nat)
  /-- MATRIX_QUEUE_WAIT_END (R196). An MXQ waiting on a full queue proceeds once an entry frees. -/
  | matrixQueueWaitEnd (core slot : Nat)
  /-- ENGINE_REPORT_UNBLOCK (R202). A held completion record or handler message is posted once room frees. -/
  | engineReportUnblock (core : Nat)
  /-- ACCUMULATOR_ZEROING (R194). Release's zeroing of the accumulators takes effect behind earlier commands. -/
  | accumulatorZeroing (core : Nat)
  /-- LIN (R218). Copy transfer of LEN consecutive bytes. -/
  | lin (core chan : Nat)
  /-- RECT (R218). Copy transfer of strided rows. -/
  | rect (core chan : Nat)
  /-- RECT_MAP (R218). Copy of a tensor-map brick to or from a packed buffer. -/
  | rectMap (core chan : Nat)
  /-- SLAB (R220). Deals blocks of elements over the scratchpads of a rectangle of clusters. -/
  | slab (core chan : Nat)
  /-- GATH (R219). Gathers elements at offsets from a scratchpad list. -/
  | gath (core chan : Nat)
  /-- FILL (R218). Fills destination bytes with a 64-bit pattern. -/
  | fill (core chan : Nat)
  /-- COPY_CHUNK (R221). A chunk translates and pins its pages, moves its bytes, or stops the transfer on a fault. -/
  | copyChunk (core chan : Nat)
  /-- COPY_COMPLETION (R222). A transfer retires its id, delivers course counts and takes its MODE. -/
  | copyCompletion (core chan : Nat)
  /-- COPY_QUEUE_WAIT_END (R214). A CPQ waiting on a full FIFO proceeds once an entry frees. -/
  | copyQueueWaitEnd (core slot : Nat)
  /-- RING_VISIT (R41). The front end visits a ring, takes device launches then up to 4 records, or stops it with ERR. -/
  | ringVisit (ctx ring : Nat)
  /-- LNCH_COMMIT (R52). A drained LNCH enters translation and its ring's device queue after earlier stores are performed. -/
  | lnchCommit (core k : Nat)
  /-- LAUNCH_RELEASE (R46). A launch whose waits and occupancy conditions hold is released and its walkers loaded. -/
  | launchRelease (ctx lid : Nat)
  /-- RELEASE_IMAGE_LOAD (R54). At each gang core, once free, the image is written, L1 invalidated and split and fuse set. -/
  | releaseImageLoad (ctx lid core : Nat)
  /-- RELEASE_MESSAGE (R54). The release message reaches a cluster and starts each gang core's task with its rank. -/
  | releaseMessage (ctx lid cluster : Nat)
  /-- TRIG_COMMIT (R53). After earlier stores are performed, the issuing cluster is triggered for the launch. -/
  | trigCommit (core k : Nat)
  /-- LAUNCH_DONE (R47). Once nothing of the launch remains, writes are acknowledged, the signal raised and DONE written. -/
  | launchDone (ctx lid : Nat)
  /-- PARTITION_DESCRIPTOR_WRITE (R37). The hypervisor writes a partition descriptor, refused if it overlaps or breaks limits. -/
  | partitionDescriptorWrite (part : Nat) (v : W64)
  /-- MANAGEMENT_WRITE (R39). A management write to a register with no behaviour of its own, such as a ring descriptor or table. -/
  | managementWrite (t : Mgmt)
  /-- PEER_INVALIDATION (R298). The hypervisor completes a peer invalidation and peer-table edits take effect. -/
  | peerInvalidation (part : Nat)
  /-- E2ET_WRITE (R302). The fabric manager writes the end-to-end timer, refused below 40 us. -/
  | e2etWrite (v : Nat)
  /-- MORTAR_ROUND (R257). A round of a scope instance: every structure steps once and the counter advances. -/
  | mortarRound (inst : Inst)
  /-- CONFIRMED_DRAIN (R270). A tainted commit point or END drains once all its pairs are confirmed. -/
  | confirmedDrain (core slot : Nat)
  /-- SCRD_PAIR_WAIT_END (R269). An SCRD waiting for a free pair place proceeds once a pair is confirmed. -/
  | scrdPairWaitEnd (core slot : Nat)
  /-- TRRD_GENERATION_CLOSE (R283). A generation closes when every gang core contributed and result tasks start. -/
  | trrdGenerationClose (ctx lid : Nat)
  /-- TRRD_DRAIN_WAIT_END (R283). A drain that would open a fifth generation proceeds once one closes. -/
  | trrdDrainWaitEnd (core k : Nat)
  /-- TRMC_DELIVERY (R282). The multicast reaches every gang core and starts its delivery tasks. -/
  | trmcDelivery (ctx lid : Nat)
  /-- TRMC_DRAIN_WAIT_END (R282). A TRMC drain waiting on one in flight proceeds. -/
  | trmcDrainWaitEnd (core k : Nat)
  /-- FRAME_RECEIVE (R300). A port receives a frame: drops, forwards, or takes it in sequence order and acks. -/
  | frameReceive (port : Nat) (f : Frame)
  /-- ACK_RECEIVE (R300). A transport ack frees acknowledged frames of the flow. -/
  | ackReceive (port : Nat) (f : Frame)
  /-- LINK_CONTROL_FRAME (R301). A link-control count report frees replay buffer frames or triggers link replay. -/
  | linkControlFrame (port count : Nat) (gap : Bool)
  /-- LINK_DOWN (R301). A link not recovered within 10 us is marked down and removed from port sets. -/
  | linkDown (port : Nat)
  /-- E2E_TIMER_EXPIRY (R302). The flow's timer expires and every unacknowledged frame is resent with RESEND set. -/
  | e2eTimerExpiry (flow : FlowId)
  /-- FLOW_RESTART (R302). The fabric manager restarts a broken flow with a new EPOCH and SEQ 0. -/
  | flowRestart (flow : FlowId)
  /-- STREAM_CONFIGURE (R309). A stream ring request configures a stream's router entry or returns BUSY, NOKEY, ACTIVE or ill-formed. -/
  | streamConfigure (part : Nat)
  /-- STREAM_RELEASE (R309). A stream ring request releases a stream entry and frees its slots. -/
  | streamRelease (part : Nat)
  /-- STREAM_WORD (R308). A router entry forwards or combines stream words of the current set. -/
  | streamWord (stream port : Nat)
  /-- STREAM_MARKER (R308). Once every IN port delivered the marker, it is sent on, CUR advances and a marker task may start. -/
  | streamMarker (stream : Nat)
  /-- PLUMB_CHECK (R337). The router compares the pair's drain hashes and proceeds, retries or traps PAIR. -/
  | plumbCheck (core slot : Nat)
  /-- PLUMB_TIMEOUT (R337). The second hash not arriving within 4,096 cycles counts as a mismatch. -/
  | plumbTimeout (core slot : Nat)
  /-- ECC_UNCORRECTABLE (R316). An uncorrectable error in a slot's registers or buffer posts a fatal record. -/
  | eccUncorrectable (core slot : Nat)
  /-- CORRECTED_ERROR (R338). A corrected ECC error is counted and is invisible. -/
  | correctedError
  /-- PREEMPTION_REQUEST (R325). The hypervisor asks to switch a partition's context; dispatch stops. -/
  | preemptionRequest (part ctx : Nat)
  /-- CONTEXT_SAVE (R326). Once tasks end and engines finish, dirty lines and partial sums are merged and the context saved. -/
  | contextSave (part : Nat)
  /-- TEST_SLICE_END (R329). The 20 us in-field test slice ends, storing indices or marking failed clusters. -/
  | testSliceEnd (part : Nat) (failed : List Nat)
  /-- CONTEXT_RESTORE (R328). The save area is checked and loaded, or the context is marked lost. -/
  | contextRestore (part damage : Nat)
  /-- DEBUG_HALT_REQUEST (R330). A management request starts a debug halt of a context. -/
  | debugHaltRequest (ctx : Nat)
  /-- DEBUG_HALT (R330). Every core of the context has stopped issuing and engines stop starting work. -/
  | debugHalt (ctx : Nat)
  /-- DEBUGGER_ATTACH (R331). The hypervisor attaches a debugger to a context. -/
  | debuggerAttach (ctx : Nat)
  /-- DEBUGGER_STEP (R331). The debugger steps one slot by one instruction. -/
  | debuggerStep (core slot : Nat)
  /-- DEBUG_RELEASE (R332). The halt is released, held frames handed over and pending replies take effect. -/
  | debugRelease (ctx : Nat)
  /-- FABRIC_KEY_INSTALL (R346). Keystone cores install a domain's next fabric key beside the current one. -/
  | fabricKeyInstall (dom : Nat)
  /-- FABRIC_KEY_SWITCH (R346). Senders switch to the next fabric key on the fabric manager's command. -/
  | fabricKeySwitch (dom : Nat)
  /-- FABRIC_KEY_DESTROY (R346). The old fabric key is destroyed once all devices switched and no frame is unacknowledged. -/
  | fabricKeyDestroy (dom : Nat)
  /-- CONTEXT_DESTROY (R346). The hypervisor destroys a context and its memory keys. -/
  | contextDestroy (ctx : Nat)
  /-- POWER_ON (R347). The keystone core runs from ROM and verifies the image set. -/
  | powerOn
  /-- READY_REPORT (R350). A stage reports ready and the keystone core releases the next stage. -/
  | readyReport (stage : Nat)
  /-- WATCHDOG_EXPIRY (R350). A management core misses its 100 ms watchdog and its set is reset into recovery. -/
  | watchdogExpiry
  /-- RECOVERY_PORT_TIMEOUT (R351). Port 0 has no link within 1 s, so port 1 is brought up. -/
  | recoveryPortTimeout
  /-- RECOVERY_ANSWER (R351). The first passing answer is written to flash and the device restarts. -/
  | recoveryAnswer (set : ImageSet)
  /-- RECOVERY_RETRY (R351). After a failed set the recovery request is repeated every 10 s. -/
  | recoveryRetry
  /-- ATTESTATION_REQUEST (R352). The keystone core answers with a signed quote, reserving index blocks as needed. -/
  | attestationRequest (nonce : BitVec 256)
  /-- POWER_OFF (R353). Power is removed and the current block's unused indices are abandoned. -/
  | powerOff
  /-- ISLAND_FREQUENCY_WRITE (R354). The hypervisor sets an island's target frequency. -/
  | islandFrequencyWrite (island mhz : Nat)
  /-- FREQUENCY_STEP (R355). An island steps toward its target, by at most 300 MHz per 20 us while matrix work runs. -/
  | frequencyStep (island : Nat)
  /-- POWER_LIMIT_THROTTLE (R354). Telemetry lowers islands to hold 2,600 W averaged over 1 ms. -/
  | powerLimitThrottle (island mhz : Nat)
  /-- SOFT_ERROR (R258). A soft error changes an unprotected mortar protocol field, or a register such as a mirror's data register, with no detection at that moment. -/
  | softError (t : SoftTarget)
  /-- LINK_TRAINING (R301). A port's link completes auto-negotiation and training and comes up, or comes back after retraining. -/
  | linkTraining (port : Nat)
  /-- MEMORY_PLANE_FRAME (R344). A 256-cycle memory-plane frame ends, and a pending slot-table write takes effect. -/
  | memoryPlaneFrame
  /-- CONTEXT_CREATION (R346). The hypervisor creates a context, and the keystone core generates its memory key pair and tag key. -/
  | contextCreation (ctx : Nat)
  /-- DOMAIN_CREATION (R346). The fabric manager creates a tenant fabric domain, and the keystone core generates and loads its first fabric key. -/
  | domainCreation (dom : Nat)
  /-- DOMAIN_DESTRUCTION (R346). A tenant fabric domain is destroyed along with its fabric key. -/
  | domainDestruction (dom : Nat)
deriving DecidableEq, Repr

end Sys2Proof
end

