-- ==== Sys2Proof/Machine/Fields.lean ====
section
/-! DEFINITION. What an instruction's fields name: the registers read and written (05_encoding.md R80, 06_issuing.md R100
case 3), the long-latency instructions and their lookahead (R79), the expansion of the compact forms (R81), and the
patterns that trap ILLEGAL at decode although the bits match a row (R80, R82, R84, R85 and the entries). -/

namespace Sys2Proof

/-- The registers that an instruction's fields name or imply. -/
structure Uses where
  /-- General registers named by source fields. -/
  gsrc : List Nat := []
  /-- General registers read because a field implies them (a pair's second register, a quad). -/
  gimp : List Nat := []
  /-- General registers written, implied ones included. -/
  gdst : List Nat := []
  vsrc : List Nat := []
  vdst : List Nat := []
deriving DecidableEq, Repr

namespace Machine

/-- The registers named or implied by each instruction. -/
def uses : Instr → Uses
  | .add d a b => { gsrc := [a.toNat, b.toNat], gdst := [d.toNat] }
  | .sub d a b => { gsrc := [a.toNat, b.toNat], gdst := [d.toNat] }
  | .andOp d a b => { gsrc := [a.toNat, b.toNat], gdst := [d.toNat] }
  | .orOp d a b => { gsrc := [a.toNat, b.toNat], gdst := [d.toNat] }
  | .xorOp d a b => { gsrc := [a.toNat, b.toNat], gdst := [d.toNat] }
  | .andn d a b => { gsrc := [a.toNat, b.toNat], gdst := [d.toNat] }
  | .shl d a b => { gsrc := [a.toNat, b.toNat], gdst := [d.toNat] }
  | .shr d a b => { gsrc := [a.toNat, b.toNat], gdst := [d.toNat] }
  | .sha d a b => { gsrc := [a.toNat, b.toNat], gdst := [d.toNat] }
  | .rol d a b => { gsrc := [a.toNat, b.toNat], gdst := [d.toNat] }
  | .min d a b => { gsrc := [a.toNat, b.toNat], gdst := [d.toNat] }
  | .max d a b => { gsrc := [a.toNat, b.toNat], gdst := [d.toNat] }
  | .minn d a b => { gsrc := [a.toNat, b.toNat], gdst := [d.toNat] }
  | .maxn d a b => { gsrc := [a.toNat, b.toNat], gdst := [d.toNat] }
  | .slt d a b => { gsrc := [a.toNat, b.toNat], gdst := [d.toNat] }
  | .sltn d a b => { gsrc := [a.toNat, b.toNat], gdst := [d.toNat] }
  | .seq d a b => { gsrc := [a.toNat, b.toNat], gdst := [d.toNat] }
  | .clz d a => { gsrc := [a.toNat], gdst := [d.toNat] }
  | .ctz d a => { gsrc := [a.toNat], gdst := [d.toNat] }
  | .popc d a => { gsrc := [a.toNat], gdst := [d.toNat] }
  | .sel d a b => { gsrc := [a.toNat, b.toNat, d.toNat], gdst := [d.toNat] }
  | .nop => {}
  | .mul d a b _ => { gsrc := [a.toNat, b.toNat], gdst := [d.toNat] }
  | .mulh d a b _ => { gsrc := [a.toNat, b.toNat], gdst := [d.toNat] }
  | .mulhn d a b _ => { gsrc := [a.toNat, b.toNat], gdst := [d.toNat] }
  | .div d a b _ => { gsrc := [a.toNat, b.toNat], gdst := [d.toNat] }
  | .divn d a b _ => { gsrc := [a.toNat, b.toNat], gdst := [d.toNat] }
  | .rem d a b _ => { gsrc := [a.toNat, b.toNat], gdst := [d.toNat] }
  | .remn d a b _ => { gsrc := [a.toNat, b.toNat], gdst := [d.toNat] }
  | .bfx d a _ _ => { gsrc := [a.toNat], gdst := [d.toNat] }
  | .bfxs d a _ _ => { gsrc := [a.toNat], gdst := [d.toNat] }
  | .bfi d a _ _ => { gsrc := [a.toNat, d.toNat], gdst := [d.toNat] }
  | .addi d a _ => { gsrc := [a.toNat], gdst := [d.toNat] }
  | .andi d a _ => { gsrc := [a.toNat], gdst := [d.toNat] }
  | .ori d a _ => { gsrc := [a.toNat], gdst := [d.toNat] }
  | .xori d a _ => { gsrc := [a.toNat], gdst := [d.toNat] }
  | .shli d a _ => { gsrc := [a.toNat], gdst := [d.toNat] }
  | .shri d a _ => { gsrc := [a.toNat], gdst := [d.toNat] }
  | .shai d a _ => { gsrc := [a.toNat], gdst := [d.toNat] }
  | .slti d a _ => { gsrc := [a.toNat], gdst := [d.toNat] }
  | .li d _ => { gdst := [d.toNat] }
  | .lih d _ => { gsrc := [d.toNat], gdst := [d.toNat] }
  | .adr d _ => { gdst := [d.toNat] }
  | .beq d a _ => { gsrc := [d.toNat, a.toNat] }
  | .bne d a _ => { gsrc := [d.toNat, a.toNat] }
  | .blt d a _ => { gsrc := [d.toNat, a.toNat] }
  | .bge d a _ => { gsrc := [d.toNat, a.toNat] }
  | .bltn d a _ => { gsrc := [d.toNat, a.toNat] }
  | .bgen d a _ => { gsrc := [d.toNat, a.toNat] }
  | .jmp _ => {}
  | .jal _ => { gdst := [1] }
  | .jalr d a _ => { gsrc := [a.toNat], gdst := [d.toNat] }
  | .loop a _ => { gsrc := [a.toNat] }
  | .endOp => {}
  | .endd => {}
  | .cmt => {}
  | .folw => {}
  | .sig _ => {}
  | .sigShort _ => {}
  | .rdc d _ => { gdst := [d.toNat] }
  | .wrc a _ => { gsrc := [a.toNat] }
  | .trap _ => {}
  | .bkpt => {}
  | .fnci => {}
  | .tlbi a b => { gsrc := [a.toNat, b.toNat] }
  | .snap d => { gdst := [d.toNat] }
  | .dbgh => {}
  | .synld a b => { gsrc := [a.toNat, b.toNat] }
  | .ldB d a _ _ => { gsrc := [a.toNat], gdst := [d.toNat] }
  | .ldH d a _ _ => { gsrc := [a.toNat], gdst := [d.toNat] }
  | .ldW d a _ _ => { gsrc := [a.toNat], gdst := [d.toNat] }
  | .ldD d a _ _ => { gsrc := [a.toNat], gdst := [d.toNat] }
  | .ldBS d a _ _ => { gsrc := [a.toNat], gdst := [d.toNat] }
  | .ldHS d a _ _ => { gsrc := [a.toNat], gdst := [d.toNat] }
  | .ldWS d a _ _ => { gsrc := [a.toNat], gdst := [d.toNat] }
  | .stB d a _ => { gsrc := [a.toNat, d.toNat] }
  | .stH d a _ => { gsrc := [a.toNat, d.toNat] }
  | .stW d a _ => { gsrc := [a.toNat, d.toNat] }
  | .stD d a _ => { gsrc := [a.toNat, d.toNat] }
  | .ldp d a _ _ => { gsrc := [a.toNat], gdst := [d.toNat, d.toNat + 1] }
  | .stp d a _ => { gsrc := [a.toNat, d.toNat], gimp := [d.toNat + 1] }
  | .lds d a _ _ _ _ _ => { gsrc := [a.toNat], gdst := [d.toNat] }
  | .sts d a _ _ _ => { gsrc := [a.toNat, d.toNat] }
  | .fnc _ _ => {}
  | .pfx a _ => { gsrc := [a.toNat] }
  | .cln a _ => { gsrc := [a.toNat] }
  | .invl a _ => { gsrc := [a.toNat] }
  | .tmad d a b _ => { gsrc := [a.toNat, b.toNat], gdst := [d.toNat] }
  | .amo d a b _ op _ =>
    { gsrc := [a.toNat, b.toNat], gimp := if op = 9 then [b.toNat + 1] else [], gdst := [d.toNat] }
  | .amop a b _ _ => { gsrc := [a.toNat, b.toNat] }
  | .red a b _ _ => { gsrc := [a.toNat, b.toNat] }
  | .send d a b => { gsrc := [d.toNat, a.toNat, b.toNat], gimp := [a.toNat + 1, a.toNat + 2, a.toNat + 3] }
  | .sendk d a _ _ => { gsrc := [d.toNat, a.toNat], gimp := [a.toNat + 1, a.toNat + 2, a.toNat + 3] }
  | .sendx d a b => { gsrc := [d.toNat, a.toNat, b.toNat], gimp := [a.toNat + 1, a.toNat + 2, a.toNat + 3] }
  | .spwn d a b _ => { gsrc := [a.toNat, b.toNat], gimp := [a.toNat + 1, a.toNat + 2, a.toNat + 3], gdst := [d.toNat] }
  | .rdx a => { gsrc := [a.toNat], gimp := [a.toNat + 1, a.toNat + 2, a.toNat + 3] }
  | .deq d _ => { gdst := [d.toNat, d.toNat + 1, d.toNat + 2, d.toNat + 3] }
  | .mxq a => { vsrc := [a.toNat] }
  | .mxqt d a _ => { vsrc := [a.toNat], gdst := [d.toNat] }
  | .cpq d a _ => { gsrc := [a.toNat], gimp := [a.toNat + 1, a.toNat + 2, a.toNat + 3], gdst := [d.toNat] }
  | .cpqt d a _ => { gsrc := [a.toNat], gimp := [a.toNat + 1, a.toNat + 2, a.toNat + 3], gdst := [d.toNat] }
  | .wknx d a _ => { gsrc := [a.toNat], gdst := [d.toNat] }
  | .clv d a _ => { gsrc := [a.toNat], gdst := [d.toNat] }
  | .wkrd d a b _ => { gsrc := [a.toNat, b.toNat], gdst := [d.toNat] }
  | .lnch d a b => { gsrc := [a.toNat, b.toNat], gdst := [d.toNat] }
  | .trig => {}
  | .vfadd d a b _ _ => { vsrc := [a.toNat, b.toNat], vdst := [d.toNat] }
  | .vfsub d a b _ _ => { vsrc := [a.toNat, b.toNat], vdst := [d.toNat] }
  | .vfmul d a b _ _ => { vsrc := [a.toNat, b.toNat], vdst := [d.toNat] }
  | .vfma d a b _ _ => { vsrc := [a.toNat, b.toNat, d.toNat], vdst := [d.toNat] }
  | .vfms d a b _ _ => { vsrc := [a.toNat, b.toNat, d.toNat], vdst := [d.toNat] }
  | .vfnma d a b _ _ => { vsrc := [a.toNat, b.toNat, d.toNat], vdst := [d.toNat] }
  | .vfmin d a b _ _ => { vsrc := [a.toNat, b.toNat], vdst := [d.toNat] }
  | .vfmax d a b _ _ => { vsrc := [a.toNat, b.toNat], vdst := [d.toNat] }
  | .vfabs d a _ _ => { vsrc := [a.toNat], vdst := [d.toNat] }
  | .vfneg d a _ _ => { vsrc := [a.toNat], vdst := [d.toNat] }
  | .vfcpy d a b _ _ => { vsrc := [a.toNat, b.toNat], vdst := [d.toNat] }
  | .vfcmp _ a b _ _ _ => { vsrc := [a.toNat, b.toNat] }
  | .vrcp d a _ _ => { vsrc := [a.toNat], vdst := [d.toNat] }
  | .vrsq d a _ _ => { vsrc := [a.toNat], vdst := [d.toNat] }
  | .vexp2 d a _ _ => { vsrc := [a.toNat], vdst := [d.toNat] }
  | .vadd d a b _ _ _ => { vsrc := [a.toNat, b.toNat], vdst := [d.toNat] }
  | .vsub d a b _ _ _ => { vsrc := [a.toNat, b.toNat], vdst := [d.toNat] }
  | .vmul d a b _ _ _ => { vsrc := [a.toNat, b.toNat], vdst := [d.toNat] }
  | .vmulh d a b _ _ _ => { vsrc := [a.toNat, b.toNat], vdst := [d.toNat] }
  | .vmin d a b _ _ _ => { vsrc := [a.toNat, b.toNat], vdst := [d.toNat] }
  | .vmax d a b _ _ _ => { vsrc := [a.toNat, b.toNat], vdst := [d.toNat] }
  | .vand d a b _ _ => { vsrc := [a.toNat, b.toNat], vdst := [d.toNat] }
  | .vor d a b _ _ => { vsrc := [a.toNat, b.toNat], vdst := [d.toNat] }
  | .vxor d a b _ _ => { vsrc := [a.toNat, b.toNat], vdst := [d.toNat] }
  | .vshl d a b _ _ _ => { vsrc := [a.toNat, b.toNat], vdst := [d.toNat] }
  | .vshr d a b _ _ _ => { vsrc := [a.toNat, b.toNat], vdst := [d.toNat] }
  | .vsha d a b _ _ _ => { vsrc := [a.toNat, b.toNat], vdst := [d.toNat] }
  | .vcmp _ a b _ _ _ _ => { vsrc := [a.toNat, b.toNat] }
  | .vsel d a b _ _ => { vsrc := [a.toNat, b.toNat], vdst := [d.toNat] }
  | .vld d a _ _ => { gsrc := [a.toNat], vdst := [d.toNat] }
  | .vst d a _ => { gsrc := [a.toNat], vsrc := [d.toNat] }
  | .vldb d a _ _ => { gsrc := [a.toNat], vdst := [d.toNat] }
  | .vldx d a b _ _ _ => { gsrc := [a.toNat], vsrc := [b.toNat], vdst := [d.toNat] }
  | .vstx d a b _ _ => { gsrc := [a.toNat], vsrc := [b.toNat, d.toNat] }
  | .vperm d a b _ _ _ => { vsrc := [a.toNat, b.toNat], vdst := [d.toNat] }
  | .vsld d a b _ _ _ => { gsrc := [b.toNat], vsrc := [a.toNat], vdst := [d.toNat] }
  | .vins d a b _ => { gsrc := [a.toNat, b.toNat], vdst := [d.toNat] }
  | .vext d a b _ => { gsrc := [b.toNat], vsrc := [a.toNat], gdst := [d.toNat] }
  | .vbcast d a _ _ _ => { gsrc := [a.toNat], vdst := [d.toNat] }
  | .vred d a _ _ _ => { vsrc := [a.toNat], vdst := [d.toNat] }
  | .vscan d a _ _ _ => { vsrc := [a.toNat], vdst := [d.toNat] }
  | .vcvt d a _ _ _ => { vsrc := [a.toNat], vdst := [d.toNat] }
  | .vcvtSat d a _ _ _ => { vsrc := [a.toNat], vdst := [d.toNat] }
  | .vbsc d a b _ knd =>
    { gsrc := [b.toNat], vsrc := if knd = 1 ∨ knd = 3 then [a.toNat, a.toNat + 1] else [a.toNat], vdst := [d.toNat] }
  | .mand _ _ _ => {}
  | .mor _ _ _ => {}
  | .mxor _ _ _ => {}
  | .mnot _ _ => {}
  | .mpop d _ => { gdst := [d.toNat] }
  | .mset _ a => { gsrc := [a.toNat] }
  | .carv a b => { gsrc := [a.toNat, b.toNat], gimp := [a.toNat + 1, a.toNat + 2, a.toNat + 3] }
  | .cexp a b => { gsrc := [a.toNat, b.toNat] }
  | .cmis d a b _ => { gsrc := [a.toNat, b.toNat], gdst := [d.toNat] }
  | .cjoin a => { gsrc := [a.toNat] }
  | .cquit a => { gsrc := [a.toNat] }
  | .tkrq a b _ => { gsrc := [a.toNat, b.toNat] }
  | .tkps a _ => { gsrc := [a.toNat] }
  | .scrd d _ _ => { gdst := [d.toNat] }
  | .lgrd d a _ _ => { gsrc := [a.toNat], gdst := [d.toNat] }
  | .trmc a b => { gsrc := [a.toNat, b.toNat], gimp := [a.toNat + 1, a.toNat + 2, a.toNat + 3] }
  | .trrd d a b _ => { gsrc := [a.toNat, b.toNat], gdst := [d.toNat] }
  | .cMv d a => { gsrc := [a.toNat], gdst := [d.toNat] }
  | .cAdd d b => { gsrc := [d.toNat, b.toNat], gdst := [d.toNat] }
  | .cSub d b => { gsrc := [d.toNat, b.toNat], gdst := [d.toNat] }
  | .cAnd d b => { gsrc := [d.toNat, b.toNat], gdst := [d.toNat] }
  | .cAddi d _ => { gsrc := [d.toNat], gdst := [d.toNat] }
  | .cShli d _ => { gsrc := [d.toNat], gdst := [d.toNat] }
  | .cLi d _ => { gdst := [d.toNat] }
  | .cLd d a _ => { gsrc := [8 + a.toNat], gdst := [8 + d.toNat] }
  | .cSt b a _ => { gsrc := [8 + a.toNat, 8 + b.toNat] }
  | .cBeqz d _ => { gsrc := [8 + d.toNat] }
  | .cBnez d _ => { gsrc := [8 + d.toNat] }
  | .cJ _ => {}
  | .cEnd => {}
  | .cCmt => {}
  | .cSig _ => {}
  | .cNop => {}
  | _ => {}

/-- The long-latency instructions (R79) and their lookahead; `none` for every other instruction. C.LD expands to LD.d
with lookahead 0 (R81). -/
def lookahead : Instr → Option Nat
  | .mul _ _ _ la => some la.toNat
  | .mulh _ _ _ la => some la.toNat
  | .mulhn _ _ _ la => some la.toNat
  | .div _ _ _ la => some la.toNat
  | .divn _ _ _ la => some la.toNat
  | .rem _ _ _ la => some la.toNat
  | .remn _ _ _ la => some la.toNat
  | .ldB _ _ la _ => some la.toNat
  | .ldH _ _ la _ => some la.toNat
  | .ldW _ _ la _ => some la.toNat
  | .ldD _ _ la _ => some la.toNat
  | .ldBS _ _ la _ => some la.toNat
  | .ldHS _ _ la _ => some la.toNat
  | .ldWS _ _ la _ => some la.toNat
  | .ldp _ _ la _ => some la.toNat
  | .lds _ _ _ la _ _ _ => some la.toNat
  | .tmad _ _ _ la => some la.toNat
  | .amo _ _ _ la _ _ => some la.toNat
  | .spwn _ _ _ la => some la.toNat
  | .deq _ la => some la.toNat
  | .mxqt _ _ la => some la.toNat
  | .cpq _ _ la => some la.toNat
  | .cpqt _ _ la => some la.toNat
  | .wknx _ _ la => some la.toNat
  | .clv _ _ la => some la.toNat
  | .wkrd _ _ _ la => some la.toNat
  | .vld _ _ la _ => some la.toNat
  | .vldb _ _ la _ => some la.toNat
  | .vldx _ _ _ la _ _ => some la.toNat
  | .cmis _ _ _ la => some la.toNat
  | .scrd _ la _ => some la.toNat
  | .lgrd _ _ la _ => some la.toNat
  | .trrd _ _ _ la => some la.toNat
  | .cLd _ _ _ => some 0
  | _ => none

/-- The 32-bit instruction that a compact one expands to (R81); any other instruction is its own. -/
def expand : Instr → Instr
  | .cMv d a => .add d a 0
  | .cAdd d b => .add d d b
  | .cSub d b => .sub d d b
  | .cAnd d b => .andOp d d b
  | .cAddi d imm => .addi d d (imm.signExtend 14)
  | .cShli d imm => .shli d d imm
  | .cLi d imm => .li d (imm.signExtend 19)
  | .cLd d a off => .ldD (8 + d.zeroExtend 5) (8 + a.zeroExtend 5) 0 (off.zeroExtend 10)
  | .cSt b a off => .stD (8 + b.zeroExtend 5) (8 + a.zeroExtend 5) (off.zeroExtend 10)
  | .cBeqz d off => .beq (8 + d.zeroExtend 5) 0 (off.signExtend 14)
  | .cBnez d off => .bne (8 + d.zeroExtend 5) 0 (off.signExtend 14)
  | .cJ off => .jmp (off.signExtend 24)
  | .cEnd => .endOp
  | .cCmt => .cmt
  | .cSig sig => .sigShort sig
  | .cNop => .nop
  | j => j

/-- The primary opcode is 0x00: such an instruction alone may read `qbld` (R103). -/
def opcodeZero : Instr → Bool
  | .add _ _ _ => true
  | .sub _ _ _ => true
  | .andOp _ _ _ => true
  | .orOp _ _ _ => true
  | .xorOp _ _ _ => true
  | .andn _ _ _ => true
  | .shl _ _ _ => true
  | .shr _ _ _ => true
  | .sha _ _ _ => true
  | .rol _ _ _ => true
  | .min _ _ _ => true
  | .max _ _ _ => true
  | .minn _ _ _ => true
  | .maxn _ _ _ => true
  | .slt _ _ _ => true
  | .sltn _ _ _ => true
  | .seq _ _ _ => true
  | .clz _ _ => true
  | .ctz _ _ => true
  | .popc _ _ => true
  | .sel _ _ _ => true
  | .nop => true
  | .cMv _ _ => true
  | .cAdd _ _ => true
  | .cSub _ _ => true
  | .cAnd _ _ => true
  | .cNop => true
  | _ => false

end Machine
end Sys2Proof
end

