-- ==== Sys2Proof/WellFormed.lean ====
section
/-! DEFINITION. Well-formed instructions: the ones that some word stands for and that no decode check of 05_encoding.md
refuses (R80, R82, R84, R85, and the decode checks of the instruction entries). `Machine.forbidden` names the check that
refuses an instruction; `WellFormed` adds that the instruction is the one its word decodes to (NOP has the word of
ADD g0, g0, g0). -/

namespace Sys2Proof

/-- Why a word is refused. Every refusal is the trap ILLEGAL of R85. -/
inductive DecodeError where
  /-- An unassigned primary opcode. -/
  | opcode
  /-- An unlisted function value, or a field that must be zero and is not. -/
  | function
  /-- A field of a compact form that must be zero and is not. -/
  | reserved
  /-- The bytes end before the instruction does. -/
  | tooShort
  /-- One read port in two source fields (R80 case 1). -/
  | portTwice
  /-- A port as destination of a long-latency instruction (R80 case 2). -/
  | portDest
  /-- A pair that starts at an odd register, or a quad not at a multiple of four (R80 case 3). -/
  | group
  /-- `qbld` read by an instruction whose opcode is not 0x00 (R80 case 4). -/
  | qbldRead
  /-- The halfword 0x0000 (R82). -/
  | zeroHalf
  /-- Position and width of a bit field pass 64 (R84). -/
  | fieldWidth
  /-- An operation that does not exist, or not at its size (R84). -/
  | operation
  /-- A scope that the entry does not list (R137, R276). -/
  | scope
  /-- A condition, lane or kind that the entry does not list (R180, R183, R184, R185, R187). -/
  | lane
  /-- A mask register number above 7 (R191). -/
  | maskReg
  /-- A body length of 0 (R121). -/
  | bodyLength
  /-- A fence kind of 0 (R136). -/
  | fenceKind
deriving DecidableEq, Repr

namespace Machine

/-- A list names some element of `ports` twice (R80 case 1). -/
def namesTwice (ports : List Nat) (l : List Nat) : Bool :=
  ports.any fun p => decide (1 < l.count p)

/-- The register that must start a pair or a quad, with the multiple it must be of (R80 case 3). -/
def groupStart : Instr → Option (Nat × Nat)
  | .ldp d _ _ _ => some (d.toNat, 2)
  | .stp d _ _ => some (d.toNat, 2)
  | .amo _ _ b _ op _ => if op = 9 then some (b.toNat, 2) else none
  | .send _ a _ => some (a.toNat, 4)
  | .sendk _ a _ _ => some (a.toNat, 4)
  | .sendx _ a _ => some (a.toNat, 4)
  | .spwn _ a _ _ => some (a.toNat, 4)
  | .rdx a => some (a.toNat, 4)
  | .deq d _ => some (d.toNat, 4)
  | .cpq _ a _ => some (a.toNat, 4)
  | .cpqt _ a _ => some (a.toNat, 4)
  | .carv a _ => some (a.toNat, 4)
  | .trmc a _ => some (a.toNat, 4)
  | _ => none

/-- The checks of the entries that look at fields alone. -/
def forbiddenField : Instr → Option DecodeError
  | .bfx _ _ pos wid => if 64 < pos.toNat + wid.toNat + 1 then some .fieldWidth else none
  | .bfxs _ _ pos wid => if 64 < pos.toNat + wid.toNat + 1 then some .fieldWidth else none
  | .bfi _ _ pos wid => if 64 < pos.toNat + wid.toNat + 1 then some .fieldWidth else none
  | .loop _ len => if len = 0 then some .bodyLength else none
  | .lds _ _ _ _ sz sgn _ => if sgn = 1 ∧ sz = 3 then some .operation else none
  | .fnc kinds _ => if kinds = 0 then some .fenceKind else none
  | .invl _ sc => if 2 ≤ sc.toNat then some .scope else none
  | .amo _ _ _ _ op sz =>
    if 11 < op.toNat ∨ (10 ≤ op.toNat ∧ sz = 1) then some .operation else none
  | .amop _ _ op sz =>
    if 11 < op.toNat ∨ op = 9 ∨ (10 ≤ op.toNat ∧ sz = 1) then some .operation else none
  | .red _ _ op sz => if (op = 0 ∧ sz = 0) ∨ (op = 1 ∧ sz = 1) then some .operation else none
  | .vfcmp _ _ _ _ _ cond => if 5 < cond.toNat then some .lane else none
  | .vcmp _ _ _ _ _ _ cond => if 5 < cond.toNat then some .lane else none
  | .vperm _ _ _ _ _ lane => if lane = 0 then some .lane else none
  | .vred _ _ _ lane op => if op.toNat < 3 ∧ lane ≠ 3 then some .lane else none
  | .vscan _ _ _ lane op => if op.toNat < 3 ∧ lane ≠ 3 then some .lane else none
  | .vbsc _ a _ _ knd => if (knd = 1 ∨ knd = 3) ∧ a.toNat % 2 = 1 then some .lane else none
  | .mand d a b => if 7 < d.toNat ∨ 7 < a.toNat ∨ 7 < b.toNat then some .maskReg else none
  | .mor d a b => if 7 < d.toNat ∨ 7 < a.toNat ∨ 7 < b.toNat then some .maskReg else none
  | .mxor d a b => if 7 < d.toNat ∨ 7 < a.toNat ∨ 7 < b.toNat then some .maskReg else none
  | .mnot d a => if 7 < d.toNat ∨ 7 < a.toNat then some .maskReg else none
  | .mpop _ a => if 7 < a.toNat then some .maskReg else none
  | .mset d _ => if 7 < d.toNat then some .maskReg else none
  | .tkrq _ _ sc => if sc = 0 ∨ sc = 3 then some .scope else none
  | .tkps _ sc => if sc = 0 ∨ sc = 3 then some .scope else none
  | .scrd _ _ sc => if sc.toNat < 2 then some .scope else none
  | .lgrd _ _ _ sc => if sc = 0 then some .scope else none
  | .cMv d a => if d = 0 ∧ a = 0 then some .zeroHalf else none
  | _ => none

/-- The decode check that refuses an instruction whose bits match a row (R80, R82, R84, R85). -/
def forbidden (j : Instr) : Option DecodeError :=
  let u := uses j
  if namesTwice [28, 29, 30, 31] (u.gsrc ++ u.gimp) then some .portTwice
  else if (lookahead j).isSome && u.gdst.any (fun r => decide (28 ≤ r)) then some .portDest
  else if (match groupStart j with | some (r, n) => decide (r % n ≠ 0) | none => false) then some .group
  else if !opcodeZero j && (u.gsrc ++ u.gimp).contains 29 then some .qbldRead
  else forbiddenField j

/-- The row has a word: it is an instruction and not an event of the machine. -/
def hasWord : Instr → Bool
  | .add _ _ _ => true
  | .sub _ _ _ => true
  | .andOp _ _ _ => true
  | .orOp _ _ _ => true
  | .xorOp _ _ _ => true
  | .andn _ _ _ => true
  | .shl _ _ _ => true
  | .shr _ _ _ => true
  | .sha _ _ _ => true
  | .rol _ _ _ => true
  | .min _ _ _ => true
  | .max _ _ _ => true
  | .minn _ _ _ => true
  | .maxn _ _ _ => true
  | .slt _ _ _ => true
  | .sltn _ _ _ => true
  | .seq _ _ _ => true
  | .clz _ _ => true
  | .ctz _ _ => true
  | .popc _ _ => true
  | .sel _ _ _ => true
  | .nop => true
  | .mul _ _ _ _ => true
  | .mulh _ _ _ _ => true
  | .mulhn _ _ _ _ => true
  | .div _ _ _ _ => true
  | .divn _ _ _ _ => true
  | .rem _ _ _ _ => true
  | .remn _ _ _ _ => true
  | .bfx _ _ _ _ => true
  | .bfxs _ _ _ _ => true
  | .bfi _ _ _ _ => true
  | .addi _ _ _ => true
  | .andi _ _ _ => true
  | .ori _ _ _ => true
  | .xori _ _ _ => true
  | .shli _ _ _ => true
  | .shri _ _ _ => true
  | .shai _ _ _ => true
  | .slti _ _ _ => true
  | .li _ _ => true
  | .lih _ _ => true
  | .adr _ _ => true
  | .beq _ _ _ => true
  | .bne _ _ _ => true
  | .blt _ _ _ => true
  | .bge _ _ _ => true
  | .bltn _ _ _ => true
  | .bgen _ _ _ => true
  | .jmp _ => true
  | .jal _ => true
  | .jalr _ _ _ => true
  | .loop _ _ => true
  | .endOp => true
  | .endd => true
  | .cmt => true
  | .folw => true
  | .sig _ => true
  | .sigShort _ => true
  | .rdc _ _ => true
  | .wrc _ _ => true
  | .trap _ => true
  | .bkpt => true
  | .fnci => true
  | .tlbi _ _ => true
  | .snap _ => true
  | .dbgh => true
  | .synld _ _ => true
  | .ldB _ _ _ _ => true
  | .ldH _ _ _ _ => true
  | .ldW _ _ _ _ => true
  | .ldD _ _ _ _ => true
  | .ldBS _ _ _ _ => true
  | .ldHS _ _ _ _ => true
  | .ldWS _ _ _ _ => true
  | .stB _ _ _ => true
  | .stH _ _ _ => true
  | .stW _ _ _ => true
  | .stD _ _ _ => true
  | .ldp _ _ _ _ => true
  | .stp _ _ _ => true
  | .lds _ _ _ _ _ _ _ => true
  | .sts _ _ _ _ _ => true
  | .fnc _ _ => true
  | .pfx _ _ => true
  | .cln _ _ => true
  | .invl _ _ => true
  | .tmad _ _ _ _ => true
  | .amo _ _ _ _ _ _ => true
  | .amop _ _ _ _ => true
  | .red _ _ _ _ => true
  | .send _ _ _ => true
  | .sendk _ _ _ _ => true
  | .sendx _ _ _ => true
  | .spwn _ _ _ _ => true
  | .rdx _ => true
  | .deq _ _ => true
  | .mxq _ => true
  | .mxqt _ _ _ => true
  | .cpq _ _ _ => true
  | .cpqt _ _ _ => true
  | .wknx _ _ _ => true
  | .clv _ _ _ => true
  | .wkrd _ _ _ _ => true
  | .lnch _ _ _ => true
  | .trig => true
  | .vfadd _ _ _ _ _ => true
  | .vfsub _ _ _ _ _ => true
  | .vfmul _ _ _ _ _ => true
  | .vfma _ _ _ _ _ => true
  | .vfms _ _ _ _ _ => true
  | .vfnma _ _ _ _ _ => true
  | .vfmin _ _ _ _ _ => true
  | .vfmax _ _ _ _ _ => true
  | .vfabs _ _ _ _ => true
  | .vfneg _ _ _ _ => true
  | .vfcpy _ _ _ _ _ => true
  | .vfcmp _ _ _ _ _ _ => true
  | .vrcp _ _ _ _ => true
  | .vrsq _ _ _ _ => true
  | .vexp2 _ _ _ _ => true
  | .vadd _ _ _ _ _ _ => true
  | .vsub _ _ _ _ _ _ => true
  | .vmul _ _ _ _ _ _ => true
  | .vmulh _ _ _ _ _ _ => true
  | .vmin _ _ _ _ _ _ => true
  | .vmax _ _ _ _ _ _ => true
  | .vand _ _ _ _ _ => true
  | .vor _ _ _ _ _ => true
  | .vxor _ _ _ _ _ => true
  | .vshl _ _ _ _ _ _ => true
  | .vshr _ _ _ _ _ _ => true
  | .vsha _ _ _ _ _ _ => true
  | .vcmp _ _ _ _ _ _ _ => true
  | .vsel _ _ _ _ _ => true
  | .vld _ _ _ _ => true
  | .vst _ _ _ => true
  | .vldb _ _ _ _ => true
  | .vldx _ _ _ _ _ _ => true
  | .vstx _ _ _ _ _ => true
  | .vperm _ _ _ _ _ _ => true
  | .vsld _ _ _ _ _ _ => true
  | .vins _ _ _ _ => true
  | .vext _ _ _ _ => true
  | .vbcast _ _ _ _ _ => true
  | .vred _ _ _ _ _ => true
  | .vscan _ _ _ _ _ => true
  | .vcvt _ _ _ _ _ => true
  | .vcvtSat _ _ _ _ _ => true
  | .vbsc _ _ _ _ _ => true
  | .mand _ _ _ => true
  | .mor _ _ _ => true
  | .mxor _ _ _ => true
  | .mnot _ _ => true
  | .mpop _ _ => true
  | .mset _ _ => true
  | .carv _ _ => true
  | .cexp _ _ => true
  | .cmis _ _ _ _ => true
  | .cjoin _ => true
  | .cquit _ => true
  | .tkrq _ _ _ => true
  | .tkps _ _ => true
  | .scrd _ _ _ => true
  | .lgrd _ _ _ _ => true
  | .trmc _ _ => true
  | .trrd _ _ _ _ => true
  | .cMv _ _ => true
  | .cAdd _ _ => true
  | .cSub _ _ => true
  | .cAnd _ _ => true
  | .cAddi _ _ => true
  | .cShli _ _ => true
  | .cLi _ _ => true
  | .cLd _ _ _ => true
  | .cSt _ _ _ => true
  | .cBeqz _ _ => true
  | .cBnez _ _ => true
  | .cJ _ => true
  | .cEnd => true
  | .cCmt => true
  | .cSig _ => true
  | .cNop => true
  | _ => false

/-- No check refuses the instruction, and its own word decodes to it. -/
def wellFormed (j : Instr) : Bool :=
  hasWord j && (forbidden j).isNone && decide (j ≠ .add 0 0 0)

end Machine

/-- A well-formed instruction. -/
abbrev WellFormed (j : Instr) : Prop := Machine.wellFormed j = true

end Sys2Proof
end

