-- ==== Sys2Proof/Decode.lean ====
section
/-! DEFINITION. Decoding: from the bytes that fetch reads to an instruction, or a refusal by name (05_encoding.md R76 to
R85). `raw32` and `raw16` read the fields of a word by the rows of spec/opcode_table.json; `decode32` and `decode16`
then refuse the patterns that R80, R82, R84 and the entries forbid. After the decoder stands an encoder, written from the
same rows. -/

namespace Sys2Proof

/-- Bits from `lo` upward of a word, as many as the field has. -/
def bitsAt {n : Nat} (w lo : Nat) : BitVec n := BitVec.ofNat n (w / lo)

/-- Opcode 0x00: NOP, ADD, SUB, AND, OR, XOR, ANDN, SHL, SHR, SHA, ROL, MIN, MAX, MINN, MAXN, SLT, SLTN, SEQ, CLZ, CTZ, POPC, SEL. -/
def raw_00 (w : Nat) : Except DecodeError Instr :=
  if w / 256 = 0 then .ok (.nop) else
  if w / 8388608 = 0 then .ok (.add (bitsAt w 256) (bitsAt w 8192) (bitsAt w 262144)) else
  if w / 8388608 = 16 then .ok (.sub (bitsAt w 256) (bitsAt w 8192) (bitsAt w 262144)) else
  if w / 8388608 = 32 then .ok (.andOp (bitsAt w 256) (bitsAt w 8192) (bitsAt w 262144)) else
  if w / 8388608 = 48 then .ok (.orOp (bitsAt w 256) (bitsAt w 8192) (bitsAt w 262144)) else
  if w / 8388608 = 64 then .ok (.xorOp (bitsAt w 256) (bitsAt w 8192) (bitsAt w 262144)) else
  if w / 8388608 = 80 then .ok (.andn (bitsAt w 256) (bitsAt w 8192) (bitsAt w 262144)) else
  if w / 8388608 = 96 then .ok (.shl (bitsAt w 256) (bitsAt w 8192) (bitsAt w 262144)) else
  if w / 8388608 = 112 then .ok (.shr (bitsAt w 256) (bitsAt w 8192) (bitsAt w 262144)) else
  if w / 8388608 = 128 then .ok (.sha (bitsAt w 256) (bitsAt w 8192) (bitsAt w 262144)) else
  if w / 8388608 = 144 then .ok (.rol (bitsAt w 256) (bitsAt w 8192) (bitsAt w 262144)) else
  if w / 8388608 = 160 then .ok (.min (bitsAt w 256) (bitsAt w 8192) (bitsAt w 262144)) else
  if w / 8388608 = 176 then .ok (.max (bitsAt w 256) (bitsAt w 8192) (bitsAt w 262144)) else
  if w / 8388608 = 192 then .ok (.minn (bitsAt w 256) (bitsAt w 8192) (bitsAt w 262144)) else
  if w / 8388608 = 208 then .ok (.maxn (bitsAt w 256) (bitsAt w 8192) (bitsAt w 262144)) else
  if w / 8388608 = 224 then .ok (.slt (bitsAt w 256) (bitsAt w 8192) (bitsAt w 262144)) else
  if w / 8388608 = 240 then .ok (.sltn (bitsAt w 256) (bitsAt w 8192) (bitsAt w 262144)) else
  if w / 8388608 = 256 then .ok (.seq (bitsAt w 256) (bitsAt w 8192) (bitsAt w 262144)) else
  if w / 262144 = 8704 then .ok (.clz (bitsAt w 256) (bitsAt w 8192)) else
  if w / 262144 = 9216 then .ok (.ctz (bitsAt w 256) (bitsAt w 8192)) else
  if w / 262144 = 9728 then .ok (.popc (bitsAt w 256) (bitsAt w 8192)) else
  if w / 8388608 = 320 then .ok (.sel (bitsAt w 256) (bitsAt w 8192) (bitsAt w 262144)) else
  .error .function

/-- Opcode 0x01: MUL, MULH, MULHN, DIV, DIVN, REM, REMN. -/
def raw_01 (w : Nat) : Except DecodeError Instr :=
  if w / 134217728 = 0 then .ok (.mul (bitsAt w 256) (bitsAt w 8192) (bitsAt w 262144) (bitsAt w 8388608)) else
  if w / 134217728 = 1 then .ok (.mulh (bitsAt w 256) (bitsAt w 8192) (bitsAt w 262144) (bitsAt w 8388608)) else
  if w / 134217728 = 2 then .ok (.mulhn (bitsAt w 256) (bitsAt w 8192) (bitsAt w 262144) (bitsAt w 8388608)) else
  if w / 134217728 = 3 then .ok (.div (bitsAt w 256) (bitsAt w 8192) (bitsAt w 262144) (bitsAt w 8388608)) else
  if w / 134217728 = 4 then .ok (.divn (bitsAt w 256) (bitsAt w 8192) (bitsAt w 262144) (bitsAt w 8388608)) else
  if w / 134217728 = 5 then .ok (.rem (bitsAt w 256) (bitsAt w 8192) (bitsAt w 262144) (bitsAt w 8388608)) else
  if w / 134217728 = 6 then .ok (.remn (bitsAt w 256) (bitsAt w 8192) (bitsAt w 262144) (bitsAt w 8388608)) else
  .error .function

/-- Opcode 0x02: BFX, BFXS, BFI. -/
def raw_02 (w : Nat) : Except DecodeError Instr :=
  if w / 1073741824 = 0 then .ok (.bfx (bitsAt w 256) (bitsAt w 8192) (bitsAt w 262144) (bitsAt w 16777216)) else
  if w / 1073741824 = 1 then .ok (.bfxs (bitsAt w 256) (bitsAt w 8192) (bitsAt w 262144) (bitsAt w 16777216)) else
  if w / 1073741824 = 2 then .ok (.bfi (bitsAt w 256) (bitsAt w 8192) (bitsAt w 262144) (bitsAt w 16777216)) else
  .error .function

/-- Opcode 0x03: ADDI. -/
def raw_03 (w : Nat) : Except DecodeError Instr :=
  .ok (.addi (bitsAt w 256) (bitsAt w 8192) (bitsAt w 262144))

/-- Opcode 0x04: ANDI. -/
def raw_04 (w : Nat) : Except DecodeError Instr :=
  .ok (.andi (bitsAt w 256) (bitsAt w 8192) (bitsAt w 262144))

/-- Opcode 0x05: ORI. -/
def raw_05 (w : Nat) : Except DecodeError Instr :=
  .ok (.ori (bitsAt w 256) (bitsAt w 8192) (bitsAt w 262144))

/-- Opcode 0x06: XORI. -/
def raw_06 (w : Nat) : Except DecodeError Instr :=
  .ok (.xori (bitsAt w 256) (bitsAt w 8192) (bitsAt w 262144))

/-- Opcode 0x07: SHLI. -/
def raw_07 (w : Nat) : Except DecodeError Instr :=
  if w / 16777216 = 0 then .ok (.shli (bitsAt w 256) (bitsAt w 8192) (bitsAt w 262144)) else
  .error .function

/-- Opcode 0x08: SHRI. -/
def raw_08 (w : Nat) : Except DecodeError Instr :=
  if w / 16777216 = 0 then .ok (.shri (bitsAt w 256) (bitsAt w 8192) (bitsAt w 262144)) else
  .error .function

/-- Opcode 0x09: SHAI. -/
def raw_09 (w : Nat) : Except DecodeError Instr :=
  if w / 16777216 = 0 then .ok (.shai (bitsAt w 256) (bitsAt w 8192) (bitsAt w 262144)) else
  .error .function

/-- Opcode 0x0A: SLTI. -/
def raw_0a (w : Nat) : Except DecodeError Instr :=
  .ok (.slti (bitsAt w 256) (bitsAt w 8192) (bitsAt w 262144))

/-- Opcode 0x0B: LI. -/
def raw_0b (w : Nat) : Except DecodeError Instr :=
  .ok (.li (bitsAt w 256) (bitsAt w 8192))

/-- Opcode 0x0C: LIH. -/
def raw_0c (w : Nat) : Except DecodeError Instr :=
  .ok (.lih (bitsAt w 256) (bitsAt w 8192))

/-- Opcode 0x0D: ADR. -/
def raw_0d (w : Nat) : Except DecodeError Instr :=
  .ok (.adr (bitsAt w 256) (bitsAt w 8192))

/-- Opcode 0x10: BEQ. -/
def raw_10 (w : Nat) : Except DecodeError Instr :=
  .ok (.beq (bitsAt w 256) (bitsAt w 8192) (bitsAt w 262144))

/-- Opcode 0x11: BNE. -/
def raw_11 (w : Nat) : Except DecodeError Instr :=
  .ok (.bne (bitsAt w 256) (bitsAt w 8192) (bitsAt w 262144))

/-- Opcode 0x12: BLT. -/
def raw_12 (w : Nat) : Except DecodeError Instr :=
  .ok (.blt (bitsAt w 256) (bitsAt w 8192) (bitsAt w 262144))

/-- Opcode 0x13: BGE. -/
def raw_13 (w : Nat) : Except DecodeError Instr :=
  .ok (.bge (bitsAt w 256) (bitsAt w 8192) (bitsAt w 262144))

/-- Opcode 0x14: BLTN. -/
def raw_14 (w : Nat) : Except DecodeError Instr :=
  .ok (.bltn (bitsAt w 256) (bitsAt w 8192) (bitsAt w 262144))

/-- Opcode 0x15: BGEN. -/
def raw_15 (w : Nat) : Except DecodeError Instr :=
  .ok (.bgen (bitsAt w 256) (bitsAt w 8192) (bitsAt w 262144))

/-- Opcode 0x16: JMP. -/
def raw_16 (w : Nat) : Except DecodeError Instr :=
  .ok (.jmp (bitsAt w 256))

/-- Opcode 0x17: JAL. -/
def raw_17 (w : Nat) : Except DecodeError Instr :=
  .ok (.jal (bitsAt w 256))

/-- Opcode 0x18: JALR. -/
def raw_18 (w : Nat) : Except DecodeError Instr :=
  .ok (.jalr (bitsAt w 256) (bitsAt w 8192) (bitsAt w 262144))

/-- Opcode 0x19: LOOP. -/
def raw_19 (w : Nat) : Except DecodeError Instr :=
  if w / 256 % 32 = 0 ∧ w / 67108864 = 0 then .ok (.loop (bitsAt w 8192) (bitsAt w 262144)) else
  .error .function

/-- Opcode 0x1A: END, ENDD, CMT, FOLW. -/
def raw_1a (w : Nat) : Except DecodeError Instr :=
  if w / 256 = 0 then .ok (.endOp) else
  if w / 256 = 524288 then .ok (.endd) else
  if w / 256 = 1048576 then .ok (.cmt) else
  if w / 256 = 1572864 then .ok (.folw) else
  .error .function

/-- Opcode 0x1B: SIG, SIG_SHORT. -/
def raw_1b (w : Nat) : Except DecodeError Instr :=
  if w / 256 % 256 = 0 then .ok (.sig (bitsAt w 65536)) else
  if w / 256 % 256 = 1 ∧ w / 134217728 = 0 then .ok (.sigShort (bitsAt w 65536)) else
  .error .function

/-- Opcode 0x78: RDC. -/
def raw_78 (w : Nat) : Except DecodeError Instr :=
  if w / 8192 % 32 = 0 ∧ w / 1073741824 = 0 then .ok (.rdc (bitsAt w 256) (bitsAt w 262144)) else
  .error .function

/-- Opcode 0x79: WRC. -/
def raw_79 (w : Nat) : Except DecodeError Instr :=
  if w / 256 % 32 = 0 ∧ w / 1073741824 = 0 then .ok (.wrc (bitsAt w 8192) (bitsAt w 262144)) else
  .error .function

/-- Opcode 0x7A: TRAP. -/
def raw_7a (w : Nat) : Except DecodeError Instr :=
  if w / 256 % 1024 = 0 then .ok (.trap (bitsAt w 262144)) else
  .error .function

/-- Opcode 0x7B: BKPT, FNCI. -/
def raw_7b (w : Nat) : Except DecodeError Instr :=
  if w / 256 = 0 then .ok (.bkpt) else
  if w / 256 = 524288 then .ok (.fnci) else
  .error .function

/-- Opcode 0x7C: TLBI, SNAP, DBGH, SYNLD. -/
def raw_7c (w : Nat) : Except DecodeError Instr :=
  if w / 256 % 32 = 0 ∧ w / 8388608 = 0 then .ok (.tlbi (bitsAt w 8192) (bitsAt w 262144)) else
  if w / 8192 = 16384 then .ok (.snap (bitsAt w 256)) else
  if w / 256 = 1048576 then .ok (.dbgh) else
  if w / 256 % 32 = 0 ∧ w / 8388608 = 48 then .ok (.synld (bitsAt w 8192) (bitsAt w 262144)) else
  .error .function

/-- Opcode 0x20: LD_B. -/
def raw_20 (w : Nat) : Except DecodeError Instr :=
  .ok (.ldB (bitsAt w 256) (bitsAt w 8192) (bitsAt w 262144) (bitsAt w 4194304))

/-- Opcode 0x21: LD_H. -/
def raw_21 (w : Nat) : Except DecodeError Instr :=
  .ok (.ldH (bitsAt w 256) (bitsAt w 8192) (bitsAt w 262144) (bitsAt w 4194304))

/-- Opcode 0x22: LD_W. -/
def raw_22 (w : Nat) : Except DecodeError Instr :=
  .ok (.ldW (bitsAt w 256) (bitsAt w 8192) (bitsAt w 262144) (bitsAt w 4194304))

/-- Opcode 0x23: LD_D. -/
def raw_23 (w : Nat) : Except DecodeError Instr :=
  .ok (.ldD (bitsAt w 256) (bitsAt w 8192) (bitsAt w 262144) (bitsAt w 4194304))

/-- Opcode 0x24: LD_B_S. -/
def raw_24 (w : Nat) : Except DecodeError Instr :=
  .ok (.ldBS (bitsAt w 256) (bitsAt w 8192) (bitsAt w 262144) (bitsAt w 4194304))

/-- Opcode 0x25: LD_H_S. -/
def raw_25 (w : Nat) : Except DecodeError Instr :=
  .ok (.ldHS (bitsAt w 256) (bitsAt w 8192) (bitsAt w 262144) (bitsAt w 4194304))

/-- Opcode 0x26: LD_W_S. -/
def raw_26 (w : Nat) : Except DecodeError Instr :=
  .ok (.ldWS (bitsAt w 256) (bitsAt w 8192) (bitsAt w 262144) (bitsAt w 4194304))

/-- Opcode 0x27: ST_B. -/
def raw_27 (w : Nat) : Except DecodeError Instr :=
  if w / 262144 % 16 = 0 then .ok (.stB (bitsAt w 256) (bitsAt w 8192) (bitsAt w 4194304)) else
  .error .function

/-- Opcode 0x28: ST_H. -/
def raw_28 (w : Nat) : Except DecodeError Instr :=
  if w / 262144 % 16 = 0 then .ok (.stH (bitsAt w 256) (bitsAt w 8192) (bitsAt w 4194304)) else
  .error .function

/-- Opcode 0x29: ST_W. -/
def raw_29 (w : Nat) : Except DecodeError Instr :=
  if w / 262144 % 16 = 0 then .ok (.stW (bitsAt w 256) (bitsAt w 8192) (bitsAt w 4194304)) else
  .error .function

/-- Opcode 0x2A: ST_D. -/
def raw_2a (w : Nat) : Except DecodeError Instr :=
  if w / 262144 % 16 = 0 then .ok (.stD (bitsAt w 256) (bitsAt w 8192) (bitsAt w 4194304)) else
  .error .function

/-- Opcode 0x2B: LDP. -/
def raw_2b (w : Nat) : Except DecodeError Instr :=
  .ok (.ldp (bitsAt w 256) (bitsAt w 8192) (bitsAt w 262144) (bitsAt w 4194304))

/-- Opcode 0x2C: STP. -/
def raw_2c (w : Nat) : Except DecodeError Instr :=
  if w / 262144 % 16 = 0 then .ok (.stp (bitsAt w 256) (bitsAt w 8192) (bitsAt w 4194304)) else
  .error .function

/-- Opcode 0x2D: LDS, STS, FNC, PFX, CLN, INVL. -/
def raw_2d (w : Nat) : Except DecodeError Instr :=
  if w / 1048576 % 8 = 0 ∧ w / 2147483648 = 0 then .ok (.lds (bitsAt w 256) (bitsAt w 8192) (bitsAt w 262144) (bitsAt w 8388608) (bitsAt w 134217728) (bitsAt w 536870912) (bitsAt w 1073741824)) else
  if w / 1048576 % 128 = 0 ∧ w / 1073741824 = 2 then .ok (.sts (bitsAt w 256) (bitsAt w 8192) (bitsAt w 262144) (bitsAt w 134217728) (bitsAt w 536870912)) else
  if w / 4096 % 64 = 0 ∧ w / 1048576 = 3072 then .ok (.fnc (bitsAt w 256) (bitsAt w 262144)) else
  if w / 256 % 32 = 0 ∧ w / 1048576 = 3200 then .ok (.pfx (bitsAt w 8192) (bitsAt w 262144)) else
  if w / 256 % 32 = 0 ∧ w / 1048576 = 3328 then .ok (.cln (bitsAt w 8192) (bitsAt w 262144)) else
  if w / 256 % 32 = 0 ∧ w / 1048576 = 3456 then .ok (.invl (bitsAt w 8192) (bitsAt w 262144)) else
  .error .function

/-- Opcode 0x38: TMAD. -/
def raw_38 (w : Nat) : Except DecodeError Instr :=
  if w / 134217728 = 0 then .ok (.tmad (bitsAt w 256) (bitsAt w 8192) (bitsAt w 262144) (bitsAt w 8388608)) else
  .error .function

/-- Opcode 0x2E: AMO. -/
def raw_2e (w : Nat) : Except DecodeError Instr :=
  .ok (.amo (bitsAt w 256) (bitsAt w 8192) (bitsAt w 262144) (bitsAt w 8388608) (bitsAt w 134217728) (bitsAt w 2147483648))

/-- Opcode 0x2F: AMOP, RED. -/
def raw_2f (w : Nat) : Except DecodeError Instr :=
  if w / 256 % 32 = 0 ∧ w / 8388608 % 16 = 0 ∧ w / 536870912 % 4 ≠ 3 then .ok (.amop (bitsAt w 8192) (bitsAt w 262144) (bitsAt w 134217728) (bitsAt w 2147483648)) else
  if w / 256 % 32 = 0 ∧ w / 8388608 % 16 = 0 ∧ w / 536870912 % 4 = 3 then .ok (.red (bitsAt w 8192) (bitsAt w 262144) (bitsAt w 134217728) (bitsAt w 2147483648)) else
  .error .function

/-- Opcode 0x30: SEND. -/
def raw_30 (w : Nat) : Except DecodeError Instr :=
  if w / 8388608 = 0 then .ok (.send (bitsAt w 256) (bitsAt w 8192) (bitsAt w 262144)) else
  .error .function

/-- Opcode 0x31: SENDK. -/
def raw_31 (w : Nat) : Except DecodeError Instr :=
  if w / 1073741824 = 0 then .ok (.sendk (bitsAt w 256) (bitsAt w 8192) (bitsAt w 262144) (bitsAt w 16777216)) else
  .error .function

/-- Opcode 0x32: SENDX. -/
def raw_32 (w : Nat) : Except DecodeError Instr :=
  if w / 8388608 = 0 then .ok (.sendx (bitsAt w 256) (bitsAt w 8192) (bitsAt w 262144)) else
  .error .function

/-- Opcode 0x33: SPWN. -/
def raw_33 (w : Nat) : Except DecodeError Instr :=
  if w / 134217728 = 0 then .ok (.spwn (bitsAt w 256) (bitsAt w 8192) (bitsAt w 262144) (bitsAt w 8388608)) else
  .error .function

/-- Opcode 0x34: RDX. -/
def raw_34 (w : Nat) : Except DecodeError Instr :=
  if w / 256 % 32 = 0 ∧ w / 262144 = 0 then .ok (.rdx (bitsAt w 8192)) else
  .error .function

/-- Opcode 0x35: DEQ. -/
def raw_35 (w : Nat) : Except DecodeError Instr :=
  if w / 8192 % 1024 = 0 ∧ w / 134217728 = 0 then .ok (.deq (bitsAt w 256) (bitsAt w 8388608)) else
  .error .function

/-- Opcode 0x36: MXQ, MXQT. -/
def raw_36 (w : Nat) : Except DecodeError Instr :=
  if w / 256 % 32 = 0 ∧ w / 262144 = 0 then .ok (.mxq (bitsAt w 8192)) else
  if w / 262144 % 32 = 0 ∧ w / 134217728 = 1 then .ok (.mxqt (bitsAt w 256) (bitsAt w 8192) (bitsAt w 8388608)) else
  .error .function

/-- Opcode 0x37: CPQ, CPQT. -/
def raw_37 (w : Nat) : Except DecodeError Instr :=
  if w / 262144 % 32 = 0 ∧ w / 134217728 = 0 then .ok (.cpq (bitsAt w 256) (bitsAt w 8192) (bitsAt w 8388608)) else
  if w / 262144 % 32 = 0 ∧ w / 134217728 = 1 then .ok (.cpqt (bitsAt w 256) (bitsAt w 8192) (bitsAt w 8388608)) else
  .error .function

/-- Opcode 0x3B: WKNX, CLV, WKRD. -/
def raw_3b (w : Nat) : Except DecodeError Instr :=
  if w / 262144 % 32 = 0 ∧ w / 134217728 = 0 then .ok (.wknx (bitsAt w 256) (bitsAt w 8192) (bitsAt w 8388608)) else
  if w / 262144 % 32 = 0 ∧ w / 134217728 = 1 then .ok (.clv (bitsAt w 256) (bitsAt w 8192) (bitsAt w 8388608)) else
  if w / 134217728 = 2 then .ok (.wkrd (bitsAt w 256) (bitsAt w 8192) (bitsAt w 262144) (bitsAt w 8388608)) else
  .error .function

/-- Opcode 0x3C: LNCH, TRIG. -/
def raw_3c (w : Nat) : Except DecodeError Instr :=
  if w / 8388608 = 0 then .ok (.lnch (bitsAt w 256) (bitsAt w 8192) (bitsAt w 262144)) else
  if w / 256 = 524288 then .ok (.trig) else
  .error .function

/-- Opcode 0x40: VFADD. -/
def raw_40 (w : Nat) : Except DecodeError Instr :=
  if w / 134217728 = 0 then .ok (.vfadd (bitsAt w 256) (bitsAt w 8192) (bitsAt w 262144) (bitsAt w 8388608) (bitsAt w 67108864)) else
  .error .function

/-- Opcode 0x41: VFSUB. -/
def raw_41 (w : Nat) : Except DecodeError Instr :=
  if w / 134217728 = 0 then .ok (.vfsub (bitsAt w 256) (bitsAt w 8192) (bitsAt w 262144) (bitsAt w 8388608) (bitsAt w 67108864)) else
  .error .function

/-- Opcode 0x42: VFMUL. -/
def raw_42 (w : Nat) : Except DecodeError Instr :=
  if w / 134217728 = 0 then .ok (.vfmul (bitsAt w 256) (bitsAt w 8192) (bitsAt w 262144) (bitsAt w 8388608) (bitsAt w 67108864)) else
  .error .function

/-- Opcode 0x43: VFMA. -/
def raw_43 (w : Nat) : Except DecodeError Instr :=
  if w / 134217728 = 0 then .ok (.vfma (bitsAt w 256) (bitsAt w 8192) (bitsAt w 262144) (bitsAt w 8388608) (bitsAt w 67108864)) else
  .error .function

/-- Opcode 0x44: VFMS. -/
def raw_44 (w : Nat) : Except DecodeError Instr :=
  if w / 134217728 = 0 then .ok (.vfms (bitsAt w 256) (bitsAt w 8192) (bitsAt w 262144) (bitsAt w 8388608) (bitsAt w 67108864)) else
  .error .function

/-- Opcode 0x45: VFNMA. -/
def raw_45 (w : Nat) : Except DecodeError Instr :=
  if w / 134217728 = 0 then .ok (.vfnma (bitsAt w 256) (bitsAt w 8192) (bitsAt w 262144) (bitsAt w 8388608) (bitsAt w 67108864)) else
  .error .function

/-- Opcode 0x46: VFMIN. -/
def raw_46 (w : Nat) : Except DecodeError Instr :=
  if w / 134217728 = 0 then .ok (.vfmin (bitsAt w 256) (bitsAt w 8192) (bitsAt w 262144) (bitsAt w 8388608) (bitsAt w 67108864)) else
  .error .function

/-- Opcode 0x47: VFMAX. -/
def raw_47 (w : Nat) : Except DecodeError Instr :=
  if w / 134217728 = 0 then .ok (.vfmax (bitsAt w 256) (bitsAt w 8192) (bitsAt w 262144) (bitsAt w 8388608) (bitsAt w 67108864)) else
  .error .function

/-- Opcode 0x48: VFABS, VFNEG, VFCPY. -/
def raw_48 (w : Nat) : Except DecodeError Instr :=
  if w / 262144 % 32 = 0 ∧ w / 134217728 = 0 then .ok (.vfabs (bitsAt w 256) (bitsAt w 8192) (bitsAt w 8388608) (bitsAt w 67108864)) else
  if w / 262144 % 32 = 0 ∧ w / 134217728 = 1 then .ok (.vfneg (bitsAt w 256) (bitsAt w 8192) (bitsAt w 8388608) (bitsAt w 67108864)) else
  if w / 134217728 = 2 then .ok (.vfcpy (bitsAt w 256) (bitsAt w 8192) (bitsAt w 262144) (bitsAt w 8388608) (bitsAt w 67108864)) else
  .error .function

/-- Opcode 0x49: VFCMP. -/
def raw_49 (w : Nat) : Except DecodeError Instr :=
  if w / 2048 % 4 = 0 then .ok (.vfcmp (bitsAt w 256) (bitsAt w 8192) (bitsAt w 262144) (bitsAt w 8388608) (bitsAt w 67108864) (bitsAt w 134217728)) else
  .error .function

/-- Opcode 0x4A: VRCP. -/
def raw_4a (w : Nat) : Except DecodeError Instr :=
  if w / 262144 % 32 = 0 ∧ w / 134217728 = 0 then .ok (.vrcp (bitsAt w 256) (bitsAt w 8192) (bitsAt w 8388608) (bitsAt w 67108864)) else
  .error .function

/-- Opcode 0x4B: VRSQ. -/
def raw_4b (w : Nat) : Except DecodeError Instr :=
  if w / 262144 % 32 = 0 ∧ w / 134217728 = 0 then .ok (.vrsq (bitsAt w 256) (bitsAt w 8192) (bitsAt w 8388608) (bitsAt w 67108864)) else
  .error .function

/-- Opcode 0x4C: VEXP2. -/
def raw_4c (w : Nat) : Except DecodeError Instr :=
  if w / 262144 % 32 = 0 ∧ w / 134217728 = 0 then .ok (.vexp2 (bitsAt w 256) (bitsAt w 8192) (bitsAt w 8388608) (bitsAt w 67108864)) else
  .error .function

/-- Opcode 0x50: VADD. -/
def raw_50 (w : Nat) : Except DecodeError Instr :=
  if w / 536870912 = 0 then .ok (.vadd (bitsAt w 256) (bitsAt w 8192) (bitsAt w 262144) (bitsAt w 8388608) (bitsAt w 67108864) (bitsAt w 134217728)) else
  .error .function

/-- Opcode 0x51: VSUB. -/
def raw_51 (w : Nat) : Except DecodeError Instr :=
  if w / 536870912 = 0 then .ok (.vsub (bitsAt w 256) (bitsAt w 8192) (bitsAt w 262144) (bitsAt w 8388608) (bitsAt w 67108864) (bitsAt w 134217728)) else
  .error .function

/-- Opcode 0x52: VMUL. -/
def raw_52 (w : Nat) : Except DecodeError Instr :=
  if w / 536870912 = 0 then .ok (.vmul (bitsAt w 256) (bitsAt w 8192) (bitsAt w 262144) (bitsAt w 8388608) (bitsAt w 67108864) (bitsAt w 134217728)) else
  .error .function

/-- Opcode 0x53: VMULH. -/
def raw_53 (w : Nat) : Except DecodeError Instr :=
  if w / 536870912 = 0 then .ok (.vmulh (bitsAt w 256) (bitsAt w 8192) (bitsAt w 262144) (bitsAt w 8388608) (bitsAt w 67108864) (bitsAt w 134217728)) else
  .error .function

/-- Opcode 0x54: VMIN. -/
def raw_54 (w : Nat) : Except DecodeError Instr :=
  if w / 536870912 = 0 then .ok (.vmin (bitsAt w 256) (bitsAt w 8192) (bitsAt w 262144) (bitsAt w 8388608) (bitsAt w 67108864) (bitsAt w 134217728)) else
  .error .function

/-- Opcode 0x55: VMAX. -/
def raw_55 (w : Nat) : Except DecodeError Instr :=
  if w / 536870912 = 0 then .ok (.vmax (bitsAt w 256) (bitsAt w 8192) (bitsAt w 262144) (bitsAt w 8388608) (bitsAt w 67108864) (bitsAt w 134217728)) else
  .error .function

/-- Opcode 0x56: VAND. -/
def raw_56 (w : Nat) : Except DecodeError Instr :=
  if w / 134217728 = 0 then .ok (.vand (bitsAt w 256) (bitsAt w 8192) (bitsAt w 262144) (bitsAt w 8388608) (bitsAt w 67108864)) else
  .error .function

/-- Opcode 0x57: VOR. -/
def raw_57 (w : Nat) : Except DecodeError Instr :=
  if w / 134217728 = 0 then .ok (.vor (bitsAt w 256) (bitsAt w 8192) (bitsAt w 262144) (bitsAt w 8388608) (bitsAt w 67108864)) else
  .error .function

/-- Opcode 0x58: VXOR. -/
def raw_58 (w : Nat) : Except DecodeError Instr :=
  if w / 134217728 = 0 then .ok (.vxor (bitsAt w 256) (bitsAt w 8192) (bitsAt w 262144) (bitsAt w 8388608) (bitsAt w 67108864)) else
  .error .function

/-- Opcode 0x59: VSHL. -/
def raw_59 (w : Nat) : Except DecodeError Instr :=
  if w / 536870912 = 0 then .ok (.vshl (bitsAt w 256) (bitsAt w 8192) (bitsAt w 262144) (bitsAt w 8388608) (bitsAt w 67108864) (bitsAt w 134217728)) else
  .error .function

/-- Opcode 0x5A: VSHR. -/
def raw_5a (w : Nat) : Except DecodeError Instr :=
  if w / 536870912 = 0 then .ok (.vshr (bitsAt w 256) (bitsAt w 8192) (bitsAt w 262144) (bitsAt w 8388608) (bitsAt w 67108864) (bitsAt w 134217728)) else
  .error .function

/-- Opcode 0x5B: VSHA. -/
def raw_5b (w : Nat) : Except DecodeError Instr :=
  if w / 536870912 = 0 then .ok (.vsha (bitsAt w 256) (bitsAt w 8192) (bitsAt w 262144) (bitsAt w 8388608) (bitsAt w 67108864) (bitsAt w 134217728)) else
  .error .function

/-- Opcode 0x5C: VCMP. -/
def raw_5c (w : Nat) : Except DecodeError Instr :=
  if w / 2048 % 4 = 0 then .ok (.vcmp (bitsAt w 256) (bitsAt w 8192) (bitsAt w 262144) (bitsAt w 8388608) (bitsAt w 67108864) (bitsAt w 134217728) (bitsAt w 536870912)) else
  .error .function

/-- Opcode 0x5D: VSEL. -/
def raw_5d (w : Nat) : Except DecodeError Instr :=
  if w / 67108864 % 2 = 0 ∧ w / 536870912 = 0 then .ok (.vsel (bitsAt w 256) (bitsAt w 8192) (bitsAt w 262144) (bitsAt w 8388608) (bitsAt w 134217728)) else
  .error .function

/-- Opcode 0x60: VLD. -/
def raw_60 (w : Nat) : Except DecodeError Instr :=
  .ok (.vld (bitsAt w 256) (bitsAt w 8192) (bitsAt w 262144) (bitsAt w 4194304))

/-- Opcode 0x61: VST. -/
def raw_61 (w : Nat) : Except DecodeError Instr :=
  if w / 262144 % 16 = 0 then .ok (.vst (bitsAt w 256) (bitsAt w 8192) (bitsAt w 4194304)) else
  .error .function

/-- Opcode 0x62: VLDB. -/
def raw_62 (w : Nat) : Except DecodeError Instr :=
  .ok (.vldb (bitsAt w 256) (bitsAt w 8192) (bitsAt w 262144) (bitsAt w 4194304))

/-- Opcode 0x63: VLDX. -/
def raw_63 (w : Nat) : Except DecodeError Instr :=
  .ok (.vldx (bitsAt w 256) (bitsAt w 8192) (bitsAt w 262144) (bitsAt w 8388608) (bitsAt w 134217728) (bitsAt w 1073741824))

/-- Opcode 0x64: VSTX. -/
def raw_64 (w : Nat) : Except DecodeError Instr :=
  if w / 8388608 % 16 = 0 then .ok (.vstx (bitsAt w 256) (bitsAt w 8192) (bitsAt w 262144) (bitsAt w 134217728) (bitsAt w 1073741824)) else
  .error .function

/-- Opcode 0x65: VPERM, VSLD, VINS, VEXT, VBCAST. -/
def raw_65 (w : Nat) : Except DecodeError Instr :=
  if w / 536870912 = 0 then .ok (.vperm (bitsAt w 256) (bitsAt w 8192) (bitsAt w 262144) (bitsAt w 8388608) (bitsAt w 67108864) (bitsAt w 134217728)) else
  if w / 536870912 = 1 then .ok (.vsld (bitsAt w 256) (bitsAt w 8192) (bitsAt w 262144) (bitsAt w 8388608) (bitsAt w 67108864) (bitsAt w 134217728)) else
  if w / 8388608 % 16 = 0 ∧ w / 536870912 = 2 then .ok (.vins (bitsAt w 256) (bitsAt w 8192) (bitsAt w 262144) (bitsAt w 134217728)) else
  if w / 8388608 % 16 = 0 ∧ w / 536870912 = 3 then .ok (.vext (bitsAt w 256) (bitsAt w 8192) (bitsAt w 262144) (bitsAt w 134217728)) else
  if w / 262144 % 32 = 0 ∧ w / 536870912 = 4 then .ok (.vbcast (bitsAt w 256) (bitsAt w 8192) (bitsAt w 8388608) (bitsAt w 67108864) (bitsAt w 134217728)) else
  .error .function

/-- Opcode 0x66: VRED. -/
def raw_66 (w : Nat) : Except DecodeError Instr :=
  if w / 262144 % 32 = 0 ∧ w / 67108864 % 2 = 0 then .ok (.vred (bitsAt w 256) (bitsAt w 8192) (bitsAt w 8388608) (bitsAt w 134217728) (bitsAt w 536870912)) else
  .error .function

/-- Opcode 0x67: VSCAN. -/
def raw_67 (w : Nat) : Except DecodeError Instr :=
  if w / 262144 % 32 = 0 ∧ w / 67108864 % 2 = 0 then .ok (.vscan (bitsAt w 256) (bitsAt w 8192) (bitsAt w 8388608) (bitsAt w 134217728) (bitsAt w 536870912)) else
  .error .function

/-- Opcode 0x68: VCVT. -/
def raw_68 (w : Nat) : Except DecodeError Instr :=
  .ok (.vcvt (bitsAt w 256) (bitsAt w 8192) (bitsAt w 262144) (bitsAt w 16777216) (bitsAt w 1073741824))

/-- Opcode 0x69: VCVT_SAT. -/
def raw_69 (w : Nat) : Except DecodeError Instr :=
  .ok (.vcvtSat (bitsAt w 256) (bitsAt w 8192) (bitsAt w 262144) (bitsAt w 16777216) (bitsAt w 1073741824))

/-- Opcode 0x6A: VBSC. -/
def raw_6a (w : Nat) : Except DecodeError Instr :=
  if w / 67108864 % 2 = 0 ∧ w / 536870912 = 0 then .ok (.vbsc (bitsAt w 256) (bitsAt w 8192) (bitsAt w 262144) (bitsAt w 8388608) (bitsAt w 134217728)) else
  .error .function

/-- Opcode 0x6B: MAND, MOR, MXOR, MNOT, MPOP, MSET. -/
def raw_6b (w : Nat) : Except DecodeError Instr :=
  if w / 8388608 = 0 then .ok (.mand (bitsAt w 256) (bitsAt w 8192) (bitsAt w 262144)) else
  if w / 8388608 = 16 then .ok (.mor (bitsAt w 256) (bitsAt w 8192) (bitsAt w 262144)) else
  if w / 8388608 = 32 then .ok (.mxor (bitsAt w 256) (bitsAt w 8192) (bitsAt w 262144)) else
  if w / 262144 = 1536 then .ok (.mnot (bitsAt w 256) (bitsAt w 8192)) else
  if w / 262144 = 2048 then .ok (.mpop (bitsAt w 256) (bitsAt w 8192)) else
  if w / 262144 = 2560 then .ok (.mset (bitsAt w 256) (bitsAt w 8192)) else
  .error .function

/-- Opcode 0x70: CARV. -/
def raw_70 (w : Nat) : Except DecodeError Instr :=
  if w / 256 % 32 = 0 ∧ w / 8388608 = 16 then .ok (.carv (bitsAt w 8192) (bitsAt w 262144)) else
  .error .function

/-- Opcode 0x71: CEXP. -/
def raw_71 (w : Nat) : Except DecodeError Instr :=
  if w / 256 % 32 = 0 ∧ w / 8388608 = 16 then .ok (.cexp (bitsAt w 8192) (bitsAt w 262144)) else
  .error .function

/-- Opcode 0x72: CMIS. -/
def raw_72 (w : Nat) : Except DecodeError Instr :=
  if w / 134217728 = 1 then .ok (.cmis (bitsAt w 256) (bitsAt w 8192) (bitsAt w 262144) (bitsAt w 8388608)) else
  .error .function

/-- Opcode 0x73: CJOIN, CQUIT. -/
def raw_73 (w : Nat) : Except DecodeError Instr :=
  if w / 256 % 32 = 0 ∧ w / 262144 = 512 then .ok (.cjoin (bitsAt w 8192)) else
  if w / 256 % 32 = 0 ∧ w / 262144 = 2560 then .ok (.cquit (bitsAt w 8192)) else
  .error .function

/-- Opcode 0x74: TKRQ, TKPS. -/
def raw_74 (w : Nat) : Except DecodeError Instr :=
  if w / 256 % 32 = 0 ∧ w / 8388608 % 16 = 0 ∧ w / 536870912 = 0 then .ok (.tkrq (bitsAt w 8192) (bitsAt w 262144) (bitsAt w 134217728)) else
  if w / 256 % 32 = 0 ∧ w / 262144 % 512 = 0 ∧ w / 536870912 = 1 then .ok (.tkps (bitsAt w 8192) (bitsAt w 134217728)) else
  .error .function

/-- Opcode 0x75: SCRD, LGRD. -/
def raw_75 (w : Nat) : Except DecodeError Instr :=
  if w / 8192 % 1024 = 0 ∧ w / 536870912 = 0 then .ok (.scrd (bitsAt w 256) (bitsAt w 8388608) (bitsAt w 134217728)) else
  if w / 262144 % 32 = 0 ∧ w / 536870912 = 1 then .ok (.lgrd (bitsAt w 256) (bitsAt w 8192) (bitsAt w 8388608) (bitsAt w 134217728)) else
  .error .function

/-- Opcode 0x76: TRMC. -/
def raw_76 (w : Nat) : Except DecodeError Instr :=
  if w / 256 % 32 = 0 ∧ w / 8388608 = 32 then .ok (.trmc (bitsAt w 8192) (bitsAt w 262144)) else
  .error .function

/-- Opcode 0x77: TRRD. -/
def raw_77 (w : Nat) : Except DecodeError Instr :=
  if w / 134217728 = 2 then .ok (.trrd (bitsAt w 256) (bitsAt w 8192) (bitsAt w 262144) (bitsAt w 8388608)) else
  .error .function

/-- The row of a 32-bit word, by its primary opcode (R83). -/
def raw32 (w : Nat) : Except DecodeError Instr :=
  match w / 2 % 128 with
  | 0x00 => raw_00 w
  | 0x01 => raw_01 w
  | 0x02 => raw_02 w
  | 0x03 => raw_03 w
  | 0x04 => raw_04 w
  | 0x05 => raw_05 w
  | 0x06 => raw_06 w
  | 0x07 => raw_07 w
  | 0x08 => raw_08 w
  | 0x09 => raw_09 w
  | 0x0A => raw_0a w
  | 0x0B => raw_0b w
  | 0x0C => raw_0c w
  | 0x0D => raw_0d w
  | 0x10 => raw_10 w
  | 0x11 => raw_11 w
  | 0x12 => raw_12 w
  | 0x13 => raw_13 w
  | 0x14 => raw_14 w
  | 0x15 => raw_15 w
  | 0x16 => raw_16 w
  | 0x17 => raw_17 w
  | 0x18 => raw_18 w
  | 0x19 => raw_19 w
  | 0x1A => raw_1a w
  | 0x1B => raw_1b w
  | 0x78 => raw_78 w
  | 0x79 => raw_79 w
  | 0x7A => raw_7a w
  | 0x7B => raw_7b w
  | 0x7C => raw_7c w
  | 0x20 => raw_20 w
  | 0x21 => raw_21 w
  | 0x22 => raw_22 w
  | 0x23 => raw_23 w
  | 0x24 => raw_24 w
  | 0x25 => raw_25 w
  | 0x26 => raw_26 w
  | 0x27 => raw_27 w
  | 0x28 => raw_28 w
  | 0x29 => raw_29 w
  | 0x2A => raw_2a w
  | 0x2B => raw_2b w
  | 0x2C => raw_2c w
  | 0x2D => raw_2d w
  | 0x38 => raw_38 w
  | 0x2E => raw_2e w
  | 0x2F => raw_2f w
  | 0x30 => raw_30 w
  | 0x31 => raw_31 w
  | 0x32 => raw_32 w
  | 0x33 => raw_33 w
  | 0x34 => raw_34 w
  | 0x35 => raw_35 w
  | 0x36 => raw_36 w
  | 0x37 => raw_37 w
  | 0x3B => raw_3b w
  | 0x3C => raw_3c w
  | 0x40 => raw_40 w
  | 0x41 => raw_41 w
  | 0x42 => raw_42 w
  | 0x43 => raw_43 w
  | 0x44 => raw_44 w
  | 0x45 => raw_45 w
  | 0x46 => raw_46 w
  | 0x47 => raw_47 w
  | 0x48 => raw_48 w
  | 0x49 => raw_49 w
  | 0x4A => raw_4a w
  | 0x4B => raw_4b w
  | 0x4C => raw_4c w
  | 0x50 => raw_50 w
  | 0x51 => raw_51 w
  | 0x52 => raw_52 w
  | 0x53 => raw_53 w
  | 0x54 => raw_54 w
  | 0x55 => raw_55 w
  | 0x56 => raw_56 w
  | 0x57 => raw_57 w
  | 0x58 => raw_58 w
  | 0x59 => raw_59 w
  | 0x5A => raw_5a w
  | 0x5B => raw_5b w
  | 0x5C => raw_5c w
  | 0x5D => raw_5d w
  | 0x60 => raw_60 w
  | 0x61 => raw_61 w
  | 0x62 => raw_62 w
  | 0x63 => raw_63 w
  | 0x64 => raw_64 w
  | 0x65 => raw_65 w
  | 0x66 => raw_66 w
  | 0x67 => raw_67 w
  | 0x68 => raw_68 w
  | 0x69 => raw_69 w
  | 0x6A => raw_6a w
  | 0x6B => raw_6b w
  | 0x70 => raw_70 w
  | 0x71 => raw_71 w
  | 0x72 => raw_72 w
  | 0x73 => raw_73 w
  | 0x74 => raw_74 w
  | 0x75 => raw_75 w
  | 0x76 => raw_76 w
  | 0x77 => raw_77 w
  | _ => .error .opcode

/-- The row of a compact halfword, by its compact opcode (R81). -/
def raw16 (w : Nat) : Except DecodeError Instr :=
  match w / 2 % 16 with
  | 0 => if w / 32768 = 0 then .ok (.cMv (bitsAt w 32) (bitsAt w 1024)) else .error .reserved
  | 1 => if w / 32768 = 0 then .ok (.cAdd (bitsAt w 32) (bitsAt w 1024)) else .error .reserved
  | 2 => if w / 32768 = 0 then .ok (.cSub (bitsAt w 32) (bitsAt w 1024)) else .error .reserved
  | 3 => if w / 32768 = 0 then .ok (.cAnd (bitsAt w 32) (bitsAt w 1024)) else .error .reserved
  | 4 => .ok (.cAddi (bitsAt w 32) (bitsAt w 1024))
  | 5 => .ok (.cShli (bitsAt w 32) (bitsAt w 1024))
  | 6 => .ok (.cLi (bitsAt w 32) (bitsAt w 1024))
  | 7 => .ok (.cLd (bitsAt w 32) (bitsAt w 256) (bitsAt w 2048))
  | 8 => .ok (.cSt (bitsAt w 32) (bitsAt w 256) (bitsAt w 2048))
  | 9 => .ok (.cBeqz (bitsAt w 32) (bitsAt w 256))
  | 10 => .ok (.cBnez (bitsAt w 32) (bitsAt w 256))
  | 11 => .ok (.cJ (bitsAt w 32))
  | 12 => if w / 32 = 0 then .ok (.cEnd) else .error .reserved
  | 13 => if w / 32 = 0 then .ok (.cCmt) else .error .reserved
  | 14 => .ok (.cSig (bitsAt w 32))
  | 15 => if w / 32 = 0 then .ok (.cNop) else .error .reserved
  | _ => .error .opcode

/-- A 32-bit word decodes to its row unless a pattern of R80 to R85 forbids it. -/
def decode32 (w : Nat) : Except DecodeError Instr :=
  match raw32 w with
  | .ok j => match Machine.forbidden j with
    | none => .ok j
    | some e => .error e
  | .error e => .error e

/-- The same of a compact halfword. -/
def decode16 (w : Nat) : Except DecodeError Instr :=
  match raw16 w with
  | .ok j => match Machine.forbidden j with
    | none => .ok j
    | some e => .error e
  | .error e => .error e

/-- The little-endian value of two bytes. -/
def halfOf (b0 b1 : Byte) : Nat := b0.toNat + 256 * b1.toNat

/-- Decoding of the bytes at the program counter: the instruction and its length in halfwords, or the refusal with the
bits that TADDR takes (R76, R85, R357). -/
def decode : List Byte → Except (DecodeError × Nat) (Instr × Nat)
  | b0 :: b1 :: rest =>
    if b0.toNat % 2 = 0 then
      match decode16 (halfOf b0 b1) with
      | .ok j => .ok (j, 1)
      | .error e => .error (e, halfOf b0 b1)
    else
      match rest with
      | b2 :: b3 :: _ =>
        match decode32 (halfOf b0 b1 + 65536 * halfOf b2 b3) with
        | .ok j => .ok (j, 2)
        | .error e => .error (e, halfOf b0 b1 + 65536 * halfOf b2 b3)
      | _ => .error (.tooShort, halfOf b0 b1)
  | _ => .error (.tooShort, 0)

/-- The bytes of a word as the hardware stores them: halfwords in address order, each little-endian (R76). -/
def bytesOf (nbits w : Nat) : List Byte :=
  if nbits ≤ 16 then [BitVec.ofNat 8 w, BitVec.ofNat 8 (w / 256)]
  else [BitVec.ofNat 8 w, BitVec.ofNat 8 (w / 256), BitVec.ofNat 8 (w / 65536), BitVec.ofNat 8 (w / 16777216)]

/-- The instruction that the decoder reads from a word numbered as spec/opcode_table.json numbers it. -/
def decodeTableWord (nbits w : Nat) : Option Instr :=
  match decode (bytesOf nbits w ++ [0, 0]) with
  | .ok (j, _) => some j
  | .error _ => none

/-- The word of an instruction: how many bits it has, and its bits, with the fixed bits of its row; (0, 0) for a row
without words. -/
def encode : Instr → Nat × Nat
  | .add d a b => (32, 1 + 256 * d.toNat + 8192 * a.toNat + 262144 * b.toNat)
  | .sub d a b => (32, 134217729 + 256 * d.toNat + 8192 * a.toNat + 262144 * b.toNat)
  | .andOp d a b => (32, 268435457 + 256 * d.toNat + 8192 * a.toNat + 262144 * b.toNat)
  | .orOp d a b => (32, 402653185 + 256 * d.toNat + 8192 * a.toNat + 262144 * b.toNat)
  | .xorOp d a b => (32, 536870913 + 256 * d.toNat + 8192 * a.toNat + 262144 * b.toNat)
  | .andn d a b => (32, 671088641 + 256 * d.toNat + 8192 * a.toNat + 262144 * b.toNat)
  | .shl d a b => (32, 805306369 + 256 * d.toNat + 8192 * a.toNat + 262144 * b.toNat)
  | .shr d a b => (32, 939524097 + 256 * d.toNat + 8192 * a.toNat + 262144 * b.toNat)
  | .sha d a b => (32, 1073741825 + 256 * d.toNat + 8192 * a.toNat + 262144 * b.toNat)
  | .rol d a b => (32, 1207959553 + 256 * d.toNat + 8192 * a.toNat + 262144 * b.toNat)
  | .min d a b => (32, 1342177281 + 256 * d.toNat + 8192 * a.toNat + 262144 * b.toNat)
  | .max d a b => (32, 1476395009 + 256 * d.toNat + 8192 * a.toNat + 262144 * b.toNat)
  | .minn d a b => (32, 1610612737 + 256 * d.toNat + 8192 * a.toNat + 262144 * b.toNat)
  | .maxn d a b => (32, 1744830465 + 256 * d.toNat + 8192 * a.toNat + 262144 * b.toNat)
  | .slt d a b => (32, 1879048193 + 256 * d.toNat + 8192 * a.toNat + 262144 * b.toNat)
  | .sltn d a b => (32, 2013265921 + 256 * d.toNat + 8192 * a.toNat + 262144 * b.toNat)
  | .seq d a b => (32, 2147483649 + 256 * d.toNat + 8192 * a.toNat + 262144 * b.toNat)
  | .clz d a => (32, 2281701377 + 256 * d.toNat + 8192 * a.toNat)
  | .ctz d a => (32, 2415919105 + 256 * d.toNat + 8192 * a.toNat)
  | .popc d a => (32, 2550136833 + 256 * d.toNat + 8192 * a.toNat)
  | .sel d a b => (32, 2684354561 + 256 * d.toNat + 8192 * a.toNat + 262144 * b.toNat)
  | .nop => (32, 1)
  | .mul d a b la => (32, 3 + 256 * d.toNat + 8192 * a.toNat + 262144 * b.toNat + 8388608 * la.toNat)
  | .mulh d a b la => (32, 134217731 + 256 * d.toNat + 8192 * a.toNat + 262144 * b.toNat + 8388608 * la.toNat)
  | .mulhn d a b la => (32, 268435459 + 256 * d.toNat + 8192 * a.toNat + 262144 * b.toNat + 8388608 * la.toNat)
  | .div d a b la => (32, 402653187 + 256 * d.toNat + 8192 * a.toNat + 262144 * b.toNat + 8388608 * la.toNat)
  | .divn d a b la => (32, 536870915 + 256 * d.toNat + 8192 * a.toNat + 262144 * b.toNat + 8388608 * la.toNat)
  | .rem d a b la => (32, 671088643 + 256 * d.toNat + 8192 * a.toNat + 262144 * b.toNat + 8388608 * la.toNat)
  | .remn d a b la => (32, 805306371 + 256 * d.toNat + 8192 * a.toNat + 262144 * b.toNat + 8388608 * la.toNat)
  | .bfx d a pos wid => (32, 5 + 256 * d.toNat + 8192 * a.toNat + 262144 * pos.toNat + 16777216 * wid.toNat)
  | .bfxs d a pos wid => (32, 1073741829 + 256 * d.toNat + 8192 * a.toNat + 262144 * pos.toNat + 16777216 * wid.toNat)
  | .bfi d a pos wid => (32, 2147483653 + 256 * d.toNat + 8192 * a.toNat + 262144 * pos.toNat + 16777216 * wid.toNat)
  | .addi d a imm => (32, 7 + 256 * d.toNat + 8192 * a.toNat + 262144 * imm.toNat)
  | .andi d a imm => (32, 9 + 256 * d.toNat + 8192 * a.toNat + 262144 * imm.toNat)
  | .ori d a imm => (32, 11 + 256 * d.toNat + 8192 * a.toNat + 262144 * imm.toNat)
  | .xori d a imm => (32, 13 + 256 * d.toNat + 8192 * a.toNat + 262144 * imm.toNat)
  | .shli d a imm => (32, 15 + 256 * d.toNat + 8192 * a.toNat + 262144 * imm.toNat)
  | .shri d a imm => (32, 17 + 256 * d.toNat + 8192 * a.toNat + 262144 * imm.toNat)
  | .shai d a imm => (32, 19 + 256 * d.toNat + 8192 * a.toNat + 262144 * imm.toNat)
  | .slti d a imm => (32, 21 + 256 * d.toNat + 8192 * a.toNat + 262144 * imm.toNat)
  | .li d imm => (32, 23 + 256 * d.toNat + 8192 * imm.toNat)
  | .lih d imm => (32, 25 + 256 * d.toNat + 8192 * imm.toNat)
  | .adr d imm => (32, 27 + 256 * d.toNat + 8192 * imm.toNat)
  | .beq d a off => (32, 33 + 256 * d.toNat + 8192 * a.toNat + 262144 * off.toNat)
  | .bne d a off => (32, 35 + 256 * d.toNat + 8192 * a.toNat + 262144 * off.toNat)
  | .blt d a off => (32, 37 + 256 * d.toNat + 8192 * a.toNat + 262144 * off.toNat)
  | .bge d a off => (32, 39 + 256 * d.toNat + 8192 * a.toNat + 262144 * off.toNat)
  | .bltn d a off => (32, 41 + 256 * d.toNat + 8192 * a.toNat + 262144 * off.toNat)
  | .bgen d a off => (32, 43 + 256 * d.toNat + 8192 * a.toNat + 262144 * off.toNat)
  | .jmp off => (32, 45 + 256 * off.toNat)
  | .jal off => (32, 47 + 256 * off.toNat)
  | .jalr d a imm => (32, 49 + 256 * d.toNat + 8192 * a.toNat + 262144 * imm.toNat)
  | .loop a len => (32, 51 + 8192 * a.toNat + 262144 * len.toNat)
  | .endOp => (32, 53)
  | .endd => (32, 134217781)
  | .cmt => (32, 268435509)
  | .folw => (32, 402653237)
  | .sig sig => (32, 55 + 65536 * sig.toNat)
  | .sigShort sig => (32, 311 + 65536 * sig.toNat)
  | .rdc d num => (32, 241 + 256 * d.toNat + 262144 * num.toNat)
  | .wrc a num => (32, 243 + 8192 * a.toNat + 262144 * num.toNat)
  | .trap code => (32, 245 + 262144 * code.toNat)
  | .bkpt => (32, 247)
  | .fnci => (32, 134217975)
  | .tlbi a b => (32, 249 + 8192 * a.toNat + 262144 * b.toNat)
  | .snap d => (32, 134217977 + 256 * d.toNat)
  | .dbgh => (32, 268435705)
  | .synld a b => (32, 402653433 + 8192 * a.toNat + 262144 * b.toNat)
  | .ldB d a la off => (32, 65 + 256 * d.toNat + 8192 * a.toNat + 262144 * la.toNat + 4194304 * off.toNat)
  | .ldH d a la off => (32, 67 + 256 * d.toNat + 8192 * a.toNat + 262144 * la.toNat + 4194304 * off.toNat)
  | .ldW d a la off => (32, 69 + 256 * d.toNat + 8192 * a.toNat + 262144 * la.toNat + 4194304 * off.toNat)
  | .ldD d a la off => (32, 71 + 256 * d.toNat + 8192 * a.toNat + 262144 * la.toNat + 4194304 * off.toNat)
  | .ldBS d a la off => (32, 73 + 256 * d.toNat + 8192 * a.toNat + 262144 * la.toNat + 4194304 * off.toNat)
  | .ldHS d a la off => (32, 75 + 256 * d.toNat + 8192 * a.toNat + 262144 * la.toNat + 4194304 * off.toNat)
  | .ldWS d a la off => (32, 77 + 256 * d.toNat + 8192 * a.toNat + 262144 * la.toNat + 4194304 * off.toNat)
  | .stB d a off => (32, 79 + 256 * d.toNat + 8192 * a.toNat + 4194304 * off.toNat)
  | .stH d a off => (32, 81 + 256 * d.toNat + 8192 * a.toNat + 4194304 * off.toNat)
  | .stW d a off => (32, 83 + 256 * d.toNat + 8192 * a.toNat + 4194304 * off.toNat)
  | .stD d a off => (32, 85 + 256 * d.toNat + 8192 * a.toNat + 4194304 * off.toNat)
  | .ldp d a la off => (32, 87 + 256 * d.toNat + 8192 * a.toNat + 262144 * la.toNat + 4194304 * off.toNat)
  | .stp d a off => (32, 89 + 256 * d.toNat + 8192 * a.toNat + 4194304 * off.toNat)
  | .lds d a sc la sz sgn ord => (32, 91 + 256 * d.toNat + 8192 * a.toNat + 262144 * sc.toNat + 8388608 * la.toNat + 134217728 * sz.toNat + 536870912 * sgn.toNat + 1073741824 * ord.toNat)
  | .sts d a sc sz ord => (32, 2147483739 + 256 * d.toNat + 8192 * a.toNat + 262144 * sc.toNat + 134217728 * sz.toNat + 536870912 * ord.toNat)
  | .fnc kinds sc => (32, 3221225563 + 256 * kinds.toNat + 262144 * sc.toNat)
  | .pfx a sc => (32, 3355443291 + 8192 * a.toNat + 262144 * sc.toNat)
  | .cln a sc => (32, 3489661019 + 8192 * a.toNat + 262144 * sc.toNat)
  | .invl a sc => (32, 3623878747 + 8192 * a.toNat + 262144 * sc.toNat)
  | .tmad d a b la => (32, 113 + 256 * d.toNat + 8192 * a.toNat + 262144 * b.toNat + 8388608 * la.toNat)
  | .amo d a b la op sz => (32, 93 + 256 * d.toNat + 8192 * a.toNat + 262144 * b.toNat + 8388608 * la.toNat + 134217728 * op.toNat + 2147483648 * sz.toNat)
  | .amop a b op sz => (32, 95 + 8192 * a.toNat + 262144 * b.toNat + 134217728 * op.toNat + 2147483648 * sz.toNat)
  | .red a b op sz => (32, 1610612831 + 8192 * a.toNat + 262144 * b.toNat + 134217728 * op.toNat + 2147483648 * sz.toNat)
  | .send d a b => (32, 97 + 256 * d.toNat + 8192 * a.toNat + 262144 * b.toNat)
  | .sendk d a cls bnc => (32, 99 + 256 * d.toNat + 8192 * a.toNat + 262144 * cls.toNat + 16777216 * bnc.toNat)
  | .sendx d a b => (32, 101 + 256 * d.toNat + 8192 * a.toNat + 262144 * b.toNat)
  | .spwn d a b la => (32, 103 + 256 * d.toNat + 8192 * a.toNat + 262144 * b.toNat + 8388608 * la.toNat)
  | .rdx a => (32, 105 + 8192 * a.toNat)
  | .deq d la => (32, 107 + 256 * d.toNat + 8388608 * la.toNat)
  | .mxq a => (32, 109 + 8192 * a.toNat)
  | .mxqt d a la => (32, 134217837 + 256 * d.toNat + 8192 * a.toNat + 8388608 * la.toNat)
  | .cpq d a la => (32, 111 + 256 * d.toNat + 8192 * a.toNat + 8388608 * la.toNat)
  | .cpqt d a la => (32, 134217839 + 256 * d.toNat + 8192 * a.toNat + 8388608 * la.toNat)
  | .wknx d a la => (32, 119 + 256 * d.toNat + 8192 * a.toNat + 8388608 * la.toNat)
  | .clv d a la => (32, 134217847 + 256 * d.toNat + 8192 * a.toNat + 8388608 * la.toNat)
  | .wkrd d a b la => (32, 268435575 + 256 * d.toNat + 8192 * a.toNat + 262144 * b.toNat + 8388608 * la.toNat)
  | .lnch d a b => (32, 121 + 256 * d.toNat + 8192 * a.toNat + 262144 * b.toNat)
  | .trig => (32, 134217849)
  | .vfadd d a b mk zr => (32, 129 + 256 * d.toNat + 8192 * a.toNat + 262144 * b.toNat + 8388608 * mk.toNat + 67108864 * zr.toNat)
  | .vfsub d a b mk zr => (32, 131 + 256 * d.toNat + 8192 * a.toNat + 262144 * b.toNat + 8388608 * mk.toNat + 67108864 * zr.toNat)
  | .vfmul d a b mk zr => (32, 133 + 256 * d.toNat + 8192 * a.toNat + 262144 * b.toNat + 8388608 * mk.toNat + 67108864 * zr.toNat)
  | .vfma d a b mk zr => (32, 135 + 256 * d.toNat + 8192 * a.toNat + 262144 * b.toNat + 8388608 * mk.toNat + 67108864 * zr.toNat)
  | .vfms d a b mk zr => (32, 137 + 256 * d.toNat + 8192 * a.toNat + 262144 * b.toNat + 8388608 * mk.toNat + 67108864 * zr.toNat)
  | .vfnma d a b mk zr => (32, 139 + 256 * d.toNat + 8192 * a.toNat + 262144 * b.toNat + 8388608 * mk.toNat + 67108864 * zr.toNat)
  | .vfmin d a b mk zr => (32, 141 + 256 * d.toNat + 8192 * a.toNat + 262144 * b.toNat + 8388608 * mk.toNat + 67108864 * zr.toNat)
  | .vfmax d a b mk zr => (32, 143 + 256 * d.toNat + 8192 * a.toNat + 262144 * b.toNat + 8388608 * mk.toNat + 67108864 * zr.toNat)
  | .vfabs d a mk zr => (32, 145 + 256 * d.toNat + 8192 * a.toNat + 8388608 * mk.toNat + 67108864 * zr.toNat)
  | .vfneg d a mk zr => (32, 134217873 + 256 * d.toNat + 8192 * a.toNat + 8388608 * mk.toNat + 67108864 * zr.toNat)
  | .vfcpy d a b mk zr => (32, 268435601 + 256 * d.toNat + 8192 * a.toNat + 262144 * b.toNat + 8388608 * mk.toNat + 67108864 * zr.toNat)
  | .vfcmp d a b mk zr cond => (32, 147 + 256 * d.toNat + 8192 * a.toNat + 262144 * b.toNat + 8388608 * mk.toNat + 67108864 * zr.toNat + 134217728 * cond.toNat)
  | .vrcp d a mk zr => (32, 149 + 256 * d.toNat + 8192 * a.toNat + 8388608 * mk.toNat + 67108864 * zr.toNat)
  | .vrsq d a mk zr => (32, 151 + 256 * d.toNat + 8192 * a.toNat + 8388608 * mk.toNat + 67108864 * zr.toNat)
  | .vexp2 d a mk zr => (32, 153 + 256 * d.toNat + 8192 * a.toNat + 8388608 * mk.toNat + 67108864 * zr.toNat)
  | .vadd d a b mk zr lane => (32, 161 + 256 * d.toNat + 8192 * a.toNat + 262144 * b.toNat + 8388608 * mk.toNat + 67108864 * zr.toNat + 134217728 * lane.toNat)
  | .vsub d a b mk zr lane => (32, 163 + 256 * d.toNat + 8192 * a.toNat + 262144 * b.toNat + 8388608 * mk.toNat + 67108864 * zr.toNat + 134217728 * lane.toNat)
  | .vmul d a b mk zr lane => (32, 165 + 256 * d.toNat + 8192 * a.toNat + 262144 * b.toNat + 8388608 * mk.toNat + 67108864 * zr.toNat + 134217728 * lane.toNat)
  | .vmulh d a b mk zr lane => (32, 167 + 256 * d.toNat + 8192 * a.toNat + 262144 * b.toNat + 8388608 * mk.toNat + 67108864 * zr.toNat + 134217728 * lane.toNat)
  | .vmin d a b mk zr lane => (32, 169 + 256 * d.toNat + 8192 * a.toNat + 262144 * b.toNat + 8388608 * mk.toNat + 67108864 * zr.toNat + 134217728 * lane.toNat)
  | .vmax d a b mk zr lane => (32, 171 + 256 * d.toNat + 8192 * a.toNat + 262144 * b.toNat + 8388608 * mk.toNat + 67108864 * zr.toNat + 134217728 * lane.toNat)
  | .vand d a b mk zr => (32, 173 + 256 * d.toNat + 8192 * a.toNat + 262144 * b.toNat + 8388608 * mk.toNat + 67108864 * zr.toNat)
  | .vor d a b mk zr => (32, 175 + 256 * d.toNat + 8192 * a.toNat + 262144 * b.toNat + 8388608 * mk.toNat + 67108864 * zr.toNat)
  | .vxor d a b mk zr => (32, 177 + 256 * d.toNat + 8192 * a.toNat + 262144 * b.toNat + 8388608 * mk.toNat + 67108864 * zr.toNat)
  | .vshl d a b mk zr lane => (32, 179 + 256 * d.toNat + 8192 * a.toNat + 262144 * b.toNat + 8388608 * mk.toNat + 67108864 * zr.toNat + 134217728 * lane.toNat)
  | .vshr d a b mk zr lane => (32, 181 + 256 * d.toNat + 8192 * a.toNat + 262144 * b.toNat + 8388608 * mk.toNat + 67108864 * zr.toNat + 134217728 * lane.toNat)
  | .vsha d a b mk zr lane => (32, 183 + 256 * d.toNat + 8192 * a.toNat + 262144 * b.toNat + 8388608 * mk.toNat + 67108864 * zr.toNat + 134217728 * lane.toNat)
  | .vcmp d a b mk zr lane cond => (32, 185 + 256 * d.toNat + 8192 * a.toNat + 262144 * b.toNat + 8388608 * mk.toNat + 67108864 * zr.toNat + 134217728 * lane.toNat + 536870912 * cond.toNat)
  | .vsel d a b mk lane => (32, 187 + 256 * d.toNat + 8192 * a.toNat + 262144 * b.toNat + 8388608 * mk.toNat + 134217728 * lane.toNat)
  | .vld d a la off => (32, 193 + 256 * d.toNat + 8192 * a.toNat + 262144 * la.toNat + 4194304 * off.toNat)
  | .vst d a off => (32, 195 + 256 * d.toNat + 8192 * a.toNat + 4194304 * off.toNat)
  | .vldb d a la off => (32, 197 + 256 * d.toNat + 8192 * a.toNat + 262144 * la.toNat + 4194304 * off.toNat)
  | .vldx d a b la mk lane => (32, 199 + 256 * d.toNat + 8192 * a.toNat + 262144 * b.toNat + 8388608 * la.toNat + 134217728 * mk.toNat + 1073741824 * lane.toNat)
  | .vstx d a b mk lane => (32, 201 + 256 * d.toNat + 8192 * a.toNat + 262144 * b.toNat + 134217728 * mk.toNat + 1073741824 * lane.toNat)
  | .vperm d a b mk zr lane => (32, 203 + 256 * d.toNat + 8192 * a.toNat + 262144 * b.toNat + 8388608 * mk.toNat + 67108864 * zr.toNat + 134217728 * lane.toNat)
  | .vsld d a b mk zr lane => (32, 536871115 + 256 * d.toNat + 8192 * a.toNat + 262144 * b.toNat + 8388608 * mk.toNat + 67108864 * zr.toNat + 134217728 * lane.toNat)
  | .vins d a b lane => (32, 1073742027 + 256 * d.toNat + 8192 * a.toNat + 262144 * b.toNat + 134217728 * lane.toNat)
  | .vext d a b lane => (32, 1610612939 + 256 * d.toNat + 8192 * a.toNat + 262144 * b.toNat + 134217728 * lane.toNat)
  | .vbcast d a mk zr lane => (32, 2147483851 + 256 * d.toNat + 8192 * a.toNat + 8388608 * mk.toNat + 67108864 * zr.toNat + 134217728 * lane.toNat)
  | .vred d a mk lane op => (32, 205 + 256 * d.toNat + 8192 * a.toNat + 8388608 * mk.toNat + 134217728 * lane.toNat + 536870912 * op.toNat)
  | .vscan d a mk lane op => (32, 207 + 256 * d.toNat + 8192 * a.toNat + 8388608 * mk.toNat + 134217728 * lane.toNat + 536870912 * op.toNat)
  | .vcvt d a dst src rnd => (32, 209 + 256 * d.toNat + 8192 * a.toNat + 262144 * dst.toNat + 16777216 * src.toNat + 1073741824 * rnd.toNat)
  | .vcvtSat d a dst src rnd => (32, 211 + 256 * d.toNat + 8192 * a.toNat + 262144 * dst.toNat + 16777216 * src.toNat + 1073741824 * rnd.toNat)
  | .vbsc d a b mk knd => (32, 213 + 256 * d.toNat + 8192 * a.toNat + 262144 * b.toNat + 8388608 * mk.toNat + 134217728 * knd.toNat)
  | .mand d a b => (32, 215 + 256 * d.toNat + 8192 * a.toNat + 262144 * b.toNat)
  | .mor d a b => (32, 134217943 + 256 * d.toNat + 8192 * a.toNat + 262144 * b.toNat)
  | .mxor d a b => (32, 268435671 + 256 * d.toNat + 8192 * a.toNat + 262144 * b.toNat)
  | .mnot d a => (32, 402653399 + 256 * d.toNat + 8192 * a.toNat)
  | .mpop d a => (32, 536871127 + 256 * d.toNat + 8192 * a.toNat)
  | .mset d a => (32, 671088855 + 256 * d.toNat + 8192 * a.toNat)
  | .carv a b => (32, 134217953 + 8192 * a.toNat + 262144 * b.toNat)
  | .cexp a b => (32, 134217955 + 8192 * a.toNat + 262144 * b.toNat)
  | .cmis d a b la => (32, 134217957 + 256 * d.toNat + 8192 * a.toNat + 262144 * b.toNat + 8388608 * la.toNat)
  | .cjoin a => (32, 134217959 + 8192 * a.toNat)
  | .cquit a => (32, 671088871 + 8192 * a.toNat)
  | .tkrq a b sc => (32, 233 + 8192 * a.toNat + 262144 * b.toNat + 134217728 * sc.toNat)
  | .tkps a sc => (32, 536871145 + 8192 * a.toNat + 134217728 * sc.toNat)
  | .scrd d la sc => (32, 235 + 256 * d.toNat + 8388608 * la.toNat + 134217728 * sc.toNat)
  | .lgrd d a la sc => (32, 536871147 + 256 * d.toNat + 8192 * a.toNat + 8388608 * la.toNat + 134217728 * sc.toNat)
  | .trmc a b => (32, 268435693 + 8192 * a.toNat + 262144 * b.toNat)
  | .trrd d a b la => (32, 268435695 + 256 * d.toNat + 8192 * a.toNat + 262144 * b.toNat + 8388608 * la.toNat)
  | .cMv d a => (16, 0 + 32 * d.toNat + 1024 * a.toNat)
  | .cAdd d b => (16, 2 + 32 * d.toNat + 1024 * b.toNat)
  | .cSub d b => (16, 4 + 32 * d.toNat + 1024 * b.toNat)
  | .cAnd d b => (16, 6 + 32 * d.toNat + 1024 * b.toNat)
  | .cAddi d imm => (16, 8 + 32 * d.toNat + 1024 * imm.toNat)
  | .cShli d imm => (16, 10 + 32 * d.toNat + 1024 * imm.toNat)
  | .cLi d imm => (16, 12 + 32 * d.toNat + 1024 * imm.toNat)
  | .cLd d a off => (16, 14 + 32 * d.toNat + 256 * a.toNat + 2048 * off.toNat)
  | .cSt b a off => (16, 16 + 32 * b.toNat + 256 * a.toNat + 2048 * off.toNat)
  | .cBeqz d off => (16, 18 + 32 * d.toNat + 256 * off.toNat)
  | .cBnez d off => (16, 20 + 32 * d.toNat + 256 * off.toNat)
  | .cJ off => (16, 22 + 32 * off.toNat)
  | .cEnd => (16, 24)
  | .cCmt => (16, 26)
  | .cSig sig => (16, 28 + 32 * sig.toNat)
  | .cNop => (16, 30)
  | _ => (0, 0)

namespace Machine

/-- The instruction's bits, zero-extended: the TADDR of most traps (06_issuing.md R357). -/
def instrBits (j : Instr) : W64 := BitVec.ofNat 64 (encode j).2

/-- The instruction's length in halfwords. -/
def instrLen (j : Instr) : Nat := (encode j).1 / 16

/-- The instruction's halfwords in address order, which the signature unit is fed (05_encoding.md R92, R93). -/
def instrHalves (j : Instr) : List Half :=
  if (encode j).1 = 16 then [BitVec.ofNat 16 (encode j).2]
  else [BitVec.ofNat 16 (encode j).2, BitVec.ofNat 16 ((encode j).2 / 65536)]

end Machine
end Sys2Proof
end

