-- ==== Sys2Proof/Machine/Table.lean ====
section
/-! DEFINITION. Finite tables as plain data: sorted lists of numbered entries. A table of values with a default (`find`,
`put`) lists no entry equal to the default, so equal tables are equal lists; a table of records (`get?`, `set`, `del`)
lists what exists. Memory is such a table of bytes. -/

namespace Sys2Proof
namespace Machine

/-- A finite table: entries by number, in rising order. -/
abbrev Tbl (α : Type) := List (Nat × α)

namespace Tbl

/-- The entry at a number, if one is listed. -/
def get? {α : Type} (m : Tbl α) (k : Nat) : Option α :=
  match m with
  | [] => none
  | (j, v) :: r => if j = k then some v else get? r k

/-- The value at a number; an unlisted number has the default. -/
def find {α : Type} (d : α) (m : Tbl α) (k : Nat) : α := (get? m k).getD d

/-- Without every entry of a number. -/
def del {α : Type} (m : Tbl α) (k : Nat) : Tbl α := m.filter fun e => e.1 != k

/-- An entry put in its place of the rising order. -/
def insert {α : Type} (k : Nat) (v : α) : Tbl α → Tbl α
  | [] => [(k, v)]
  | e :: r => if k < e.1 then (k, v) :: e :: r else e :: insert k v r

/-- The table with a record at a number. -/
def set {α : Type} (m : Tbl α) (k : Nat) (v : α) : Tbl α := insert k v (del m k)

/-- The table with a value at a number; the default is not listed. -/
def put {α : Type} [DecidableEq α] (d : α) (m : Tbl α) (k : Nat) (v : α) : Tbl α :=
  if v = d then del m k else set m k v

/-- The canonical form: numbers strictly rising, no entry equal to the default. -/
def wf {α : Type} [DecidableEq α] (d : α) : Tbl α → Bool
  | [] => true
  | [e] => decide (e.2 ≠ d)
  | e :: f :: r => decide (e.2 ≠ d) && decide (e.1 < f.1) && wf d (f :: r)

end Tbl

/-- Memory: bytes by address, in canonical form; an unlisted address reads as `Memory.unlisted`. -/
abbrev Memory := List Host.Cell

namespace Memory

/-- What an address that nothing has written reads as (log entry 4). -/
def unlisted : Byte := 0

/-- The byte at an address. -/
def read (m : Memory) (a : Nat) : Byte := Tbl.find unlisted m a

/-- The memory after a byte is written. -/
def write (m : Memory) (a : Nat) (v : Byte) : Memory := Tbl.put unlisted m a v

/-- The canonical form of memory. -/
def wf (m : Memory) : Bool := Tbl.wf unlisted m

/-- Bytes written one after another, the first of the list last. -/
def writeAll (m : Memory) : List (Nat × Byte) → Memory
  | [] => m
  | (a, v) :: r => write (writeAll m r) a v

end Memory
end Machine
end Sys2Proof
end

