-- ==== Sys2Proof/Machine/Bits.lean ====
section
/-! DEFINITION. Bit fields, byte order, sign extension and check codes that the meanings share (01_notation.md R20, R21;
02_describing_work.md R22, R29; 05_encoding.md R92). -/

namespace Sys2Proof
namespace Machine

/-- Bits `hi` to `lo` of a word, unsigned (R20). -/
def field {n : Nat} (w : BitVec n) (hi lo : Nat) : Nat := w.toNat / 2 ^ lo % 2 ^ (hi - lo + 1)

/-- Bit `k` of a word. -/
def bitAt {n : Nat} (w : BitVec n) (k : Nat) : Bool := decide (w.toNat / 2 ^ k % 2 = 1)

/-- SExt(x, n) of R21: the low `n` bits read as signed. -/
def sext (x n : Nat) : Int :=
  let y := x % 2 ^ n
  if y < 2 ^ (n - 1) then (y : Int) else (y : Int) - 2 ^ n

/-- An integer as a word, modulo 2^64. -/
def wrap (z : Int) : W64 := BitVec.ofInt 64 z

/-- The number as a doubleword. -/
def w64 (n : Nat) : W64 := BitVec.ofNat 64 n

/-- 1 for true, 0 for false. -/
def ofBool (b : Bool) : Nat := if b then 1 else 0

/-- The `n` bytes of a number, little-endian. -/
def leBytes : Nat → Nat → List Byte
  | 0, _ => []
  | n + 1, v => BitVec.ofNat 8 v :: leBytes n (v / 256)

/-- The number of a list of bytes, little-endian. -/
def leVal : List Byte → Nat
  | [] => 0
  | b :: r => b.toNat + 256 * leVal r

/-- Set bits of a number below 2^n. -/
def popc : Nat → Nat → Nat
  | 0, _ => 0
  | n + 1, v => v % 2 + popc n (v / 2)

/-- floor(log2 v) for v > 0; 0 for 0. -/
def log2 (v : Nat) : Nat := Nat.log2 v

/-- The smallest power of two at or above `v` (02 R24). -/
def powerAbove (v : Nat) : Nat := if v ≤ 1 then 1 else 2 ^ (Nat.log2 (v - 1) + 1)

/-- Ceiling of a quotient. -/
def ceilDiv (a b : Nat) : Nat := (a + b - 1) / b

/-- One bit of CrcStep of R92. -/
def crc16Bit (c : Half) (b : Bool) : Half :=
  if Bool.xor (c.getLsbD 15) b then (c <<< 1) ^^^ 0x1021#16 else c <<< 1

/-- CrcStep(c, h) of R92: bits 15 to 0 of the halfword in turn. -/
def crc16Step (c h : Half) : Half :=
  [15, 14, 13, 12, 11, 10, 9, 8, 7, 6, 5, 4, 3, 2, 1, 0].foldl (fun c k => crc16Bit c (h.getLsbD k)) c

/-- Eight reflected steps of the CRC-32C (02 R29: polynomial 0x1EDC6F41, reflected 0x82F63B78). -/
def crc32cByte (c : W32) (b : Byte) : W32 :=
  [0, 1, 2, 3, 4, 5, 6, 7].foldl
    (fun c _ => if c.getLsbD 0 then (c >>> 1) ^^^ 0x82F63B78#32 else c >>> 1) (c ^^^ b.zeroExtend 32)

/-- CRC-32C of bytes, initial value and final XOR 0xFFFFFFFF (R29). -/
def crc32c (bs : List Byte) : W32 := (bs.foldl crc32cByte 0xFFFFFFFF#32) ^^^ 0xFFFFFFFF#32

/-- `l` without its first element that satisfies `p`. -/
def removeFirst {α : Type} (p : α → Bool) : List α → List α
  | [] => []
  | x :: r => if p x then r else x :: removeFirst p r

/-- `l` with its element at a place changed. -/
def modifyAt {α : Type} (f : α → α) : Nat → List α → List α
  | _, [] => []
  | 0, x :: r => f x :: r
  | n + 1, x :: r => x :: modifyAt f n r

/-- `l` without its element at a place. -/
def removeAt {α : Type} : Nat → List α → List α
  | _, [] => []
  | 0, _ :: r => r
  | n + 1, x :: r => x :: removeAt n r

/-- The index of the first element that satisfies `p`. -/
def indexOf? {α : Type} (p : α → Bool) : List α → Option Nat
  | [] => none
  | x :: r => if p x then some 0 else (indexOf? p r).map (· + 1)

/-- `n` numbers from 0. -/
def upto (n : Nat) : List Nat := List.range n

end Machine
end Sys2Proof
end

