-- ==== Sys2Proof/Machine/State.lean ====
section
/-! DEFINITION. The state of the machine as plain data, its faults and refusals, and the state after reset.

Everything the spec gives the machine is here; INVENTORY.md lists each piece with its rule and reset value. Records that
exist many times (cores, slots, clusters, partitions, contexts, launches) stand in tables; a number that is not listed has
the reset record. Cores and clusters are numbered in package coordinates (see Syntax). -/

namespace Sys2Proof
namespace Machine

/-- Scopes, coded as in every scope field (05_encoding.md R84 case 1). -/
inductive Scope where
  | core
  | grp
  | dev
  | sys
deriving DecidableEq, Repr

/-- The order of an access (01_notation.md R10 row 4). -/
inductive Order where
  | weak
  | acq
  | rel
  | sc
deriving DecidableEq, Repr

/-- The program counter (05_encoding.md R77): its space, and the halfword in it. A fall-through past halfword 32,767 is
kept as it stands, so that the fetch there traps. -/
structure Pc where
  carried : Bool := false
  off : Nat := 0
deriving DecidableEq, Repr

/-- Where the bytes of an access lie, after translation (13_memory_hierarchy.md). -/
inductive Loc where
  /-- HBM, a device physical address; the guest virtual and guest physical addresses it came from. -/
  | hbm (part phys gva gpa : Nat)
  /-- A core's scratchpad. -/
  | spad (core off : Nat)
  /-- A core's IMEM through the core window. -/
  | imem (core off : Nat)
  /-- A core's inbox ring through the core window. -/
  | inbox (core off : Nat)
  /-- A status word of a copy channel of a core. -/
  | status (core chan : Nat)
  /-- Another device: device id, its partition, address there, and the tenant fabric domain. -/
  | peer (dev part addr dom : Nat)
  /-- A virtual stream: stream number, offset. -/
  | stream (num off : Nat)
  /-- Partition memory whose translation waits for a stage-2 fill (13 R238 case 3): the guest virtual address, and the guest physical
  address that stage 2 does not map. -/
  | unmapped (part gva gpa : Nat)
deriving DecidableEq, Repr

/-- Which cores a message goes to on this package, or the device it goes to (08_isa_memory_messages.md R145). -/
inductive Target where
  | core (core : Nat)
  | anyOf (cluster : Nat)
  | device (dev part dom : Nat)
deriving DecidableEq, Repr

/-- What an entry of the commit buffer does when it is performed (06_issuing.md R107, 17_mortar_plane.md R276). -/
inductive Act where
  /-- A store of nibble-masked bytes, at offsets from the entry's address. -/
  | store (bytes : List NibByte)
  /-- AMOP: operation, size in bytes, operand (R141). -/
  | amop (op size : Nat) (p : W64)
  /-- RED: 0 add, 1 f32 add, 2 max, 3 minn; size; operand (R142). -/
  | red (op size : Nat) (p : W64)
  /-- AMO, handed on after the drain: operation, size, operands, the pending result it fills (R140). -/
  | amo (op size : Nat) (p q : W64) (uid : Nat)
  /-- The mark of FNC with .ss (R136). -/
  | fence
  /-- CLN: an FNC.ss at the same scope waits until it is complete (R137). -/
  | clean
  | send (m : Msg) (tgt : List Target)
  | rdx (r : RdxReq) (owner : Loc) (tgt : List Target)
  /-- SPWN, handed on after the drain: child's message, target, pending result (R150). -/
  | spawn (m : Msg) (tgt : Target) (uid : Nat)
  /-- LNCH: record address, queue id, acceptance record, done record, ticket (R52). -/
  | launch (addr : W64) (qid : Nat) (accRec doneRec : Bool) (ticket : Nat)
  | trig
  /-- Release mark of a matrix command, of a copy request (R107). -/
  | mxRelease (uid : Nat)
  | cpRelease (uid : Nat)
  /-- Tile entry: walker and index (04_placing.md R65). -/
  | tile (cluster walker idx : Nat)
  /-- CARV: course, class, continuation started, quad (R277). -/
  | arrive (course cls : Nat) (cont : Bool) (q : Quad)
  /-- CEXP: course, bytes, working phase sampled at buffering, member (R278). -/
  | cexp (course bytes tag : Nat) (mem : Bool)
  | cjoin (course : Nat)
  | cquit (course : Nat)
  /-- TKRQ: ring, scope, class, tag; TKPS and what passes a token: ring, member, round of the grant (R262, R280). -/
  | tkrq (ring scope cls : Nat) (tag : W64)
  | tkps (ring mem round : Nat)
  /-- TRMC: class, quad (R282). -/
  | trmc (cls : Nat) (q : Quad)
  /-- TRRD: generation, value, operation, class (R283). -/
  | trrd (gen : Nat) (v : W64) (op cls : Nat)
deriving DecidableEq, Repr

/-- An entry of a task's commit buffer, or the same entry once drained. -/
structure Entry where
  /-- Request number of the core (13_memory_hierarchy.md R233 case 3). -/
  id : Nat := 0
  slot : Nat := 0
  /-- Number of the task on its core: entries of one task share it. -/
  task : Nat := 0
  msgid : W32 := 0
  launch : Option LaunchId := none
  prio : Nat := 0
  ea : W64 := 0
  loc : Loc := .spad 0 0
  order : Order := .weak
  scope : Scope := .core
  act : Act := .fence
  /-- Number of the drain of its task that it belongs to. -/
  drain : Nat := 0
  /-- It is performed for its issuer's cluster (14_ordering.md R244): what reads its lines there waits until it is performed at its home. -/
  near : Bool := false
deriving DecidableEq, Repr

/-- How far a drained entry has come. -/
inductive FlightSt where
  /-- Handed on, not yet performed. -/
  | waiting
  /-- Sent to another device or to an owner's service slot; its acknowledgement is awaited. -/
  | sent
  /-- Parked at a home (22_interruption.md R323). -/
  | parked
  /-- Refused by a full park queue; its source CNI retries it. -/
  | refused
deriving DecidableEq, Repr

/-- A drained entry that is not performed yet. -/
structure Flight where
  e : Entry := {}
  st : FlightSt := .waiting
deriving DecidableEq, Repr

/-- One byte of a vector register that a reply fills: byte of the reply, byte of the register, which nibbles. -/
structure VByte where
  src : Nat
  dst : Nat
  lo : Bool
  hi : Bool
deriving DecidableEq, Repr

/-- How the bytes that a read returns become the result of its instruction. -/
inductive Shape where
  /-- An integer of `n` bytes, sign-extended or not. -/
  | int (n : Nat) (sgn : Bool)
  /-- LDP: two doublewords, or one of them. -/
  | pair
  | dword (k : Nat)
  /-- Bytes of a vector register. -/
  | vec (at_ : List VByte)
  /-- TMAD: the map; the coordinates asked for and the address of the map (08 R138). -/
  | tmad (c : List Nat) (ea : W64)
deriving DecidableEq, Repr

/-- A read under way for a long-latency result: its request number, how many bytes, what they become, and the task's own
buffered bytes over what is read (06_issuing.md R108). -/
structure Want where
  req : Nat
  /-- Address that a fault of the read reports. -/
  ea : W64
  n : Nat
  shape : Shape
  fwd : List NibByte
  /-- Its reply was a fault, with this cause. -/
  bad : Option Nat := none
deriving DecidableEq, Repr

/-- A long-latency result (06_issuing.md R100). -/
structure Pending where
  uid : Nat := 0
  gd : List Nat := []
  vd : List Nat := []
  /-- Instructions of the window not yet issued. -/
  left : Nat := 0
  /-- The result is there, to be written when it arrives. -/
  ready : Bool := false
  gval : List W64 := []
  vval : Vec := 0
  /-- It has arrived and is written. -/
  arrived : Bool := false
  /-- Fault returned with the result: cause and TADDR (08_isa_memory_messages.md R133 case 5). -/
  bad : Option (Nat × W64) := none
  /-- The result is a synchronisation completion (17_mortar_plane.md R269). -/
  comp : Option Completion := none
  /-- It is an acquire: scope index + 1, 0 for none; no later access of the task goes before it (R246). -/
  acq : Nat := 0
  /-- Reads that the result still waits for. -/
  want : List Want := []
deriving DecidableEq, Repr

/-- What a slot waits for; it is not ready until the wait is over (06_issuing.md R99). -/
inductive Wait where
  | none
  /-- A long-latency result (R100). -/
  | results
  /-- Sectors of the pool, as many as the instruction needs (R107 case 2). -/
  | pool (need : Nat)
  /-- A full matrix queue, a full copy FIFO (R196, R214). -/
  | mxq
  | cpq
  /-- Confirmation of the task's pairs (R270); at an END, whose wait does not count against BUDG. -/
  | confirm (fin : Bool)
  /-- A place among the task's eight pairs (R269). -/
  | pair
  /-- The leader's next instruction, until a count of TIME (R90 case 4). -/
  | follow (deadline : Nat)
  /-- No released MMAS of the core (R206 case 2). -/
  | skip
  /-- A fifth long-latency instruction: the oldest result of the four in flight (R100 case 5), by its number. -/
  | oldest (uid : Nat)
  /-- TLBI under way (R129): the walks that had begun before it issued and wait, each by whose it is. -/
  | tlbi (walks : List (Nat × Nat × Nat))
  /-- SNAP under way (R130): the writes of the partition's earlier drains that were not performed when it issued, by core and
  request number. -/
  | snap (writes : List (Nat × Nat))
  /-- SYNLD under way (R132): its place among those that wait, in the order in which they issued. -/
  | synld (turn : Nat)
  /-- The plumb check of a drain or of a trap (R337); at an END. -/
  | plumb (fin : Bool)
  /-- A drain that has handed its entries on: the stores of it to the core's own scratchpad and IMEM that are not performed yet (14
  R245 case 4); at an END. -/
  | handing (fin : Bool)
  /-- A write that the task drained to the same bytes (R243), or an earlier acquire. -/
  | order
  /-- The home in a cluster whose full park queue refused the instruction's read (22 R323). -/
  | refused (home : Nat)
  /-- A read of another device that the instruction makes before it takes effect: address and bytes. -/
  | remote (ea : W64) (n : Nat)
  /-- A stage-2 fill of a guest physical address (13 R238 case 3). -/
  | fill (gpa : Nat)
  /-- The read of an entry of a walk, at a guest physical address, that the home of its line has parked (22 R323). -/
  | walk (gpa : Nat)
deriving DecidableEq, Repr

/-- Registers saved at task start and restored by an abort (06_issuing.md R105 rule 2). -/
structure SlotRegs where
  fmta : W64 := 0
  fmtb : W64 := 0
  fmtc : W64 := 0
  scla : W64 := 0
  sclb : W64 := 0
  rndm : W64 := 0
  lfsr : W32 := 1
deriving DecidableEq, Repr

/-- A completion record (08_isa_memory_messages.md R151), with what taking it for good retires. -/
structure CRec where
  w0 : W64 := 0
  w1 : W64 := 0
  w2 : W64 := 0
  w3 : W64 := 0
  tie : MsgTie := .none
  launch : Option LaunchId := none
deriving DecidableEq, Repr

/-- A read that an instruction under way made of another device: address, bytes, its request's number, and the answer. -/
structure Asked where
  ea : W64
  n : Nat
  req : Nat
  got : Option (List Byte) := none
  /-- The cause of a failed read. -/
  bad : Option Nat := none
deriving DecidableEq, Repr

/-- A record of the supervisor trap queue (22_interruption.md R315). -/
structure TRec where
  w0 : W64
  w1 : W64
  w2 : W64
  w3 : W64
  payload : List Byte
  /-- A call record: its handler address. -/
  call : Option Nat
  /-- Core and slot that a reply acts on. -/
  core : Nat
  slot : Nat
  launch : Option LaunchId
  msgid : W32
  /-- Number of the trapped task on its core. -/
  task : Nat := 0
  /-- It takes an entry of the reserve (R317 case 2). -/
  reserve : Bool := false
  /-- TIME at which it was posted (R317 case 4, R321 case 1), and whether an engine posted it, which is held with it (R317 case 1): 1 the
  matrix unit, 2 the copy engine. -/
  at_ : Nat := 0
  engine : Nat := 0
  /-- Aborts in a row of the supervisor tasks that it started (R319). -/
  aborts : Nat := 0
deriving DecidableEq, Repr

/-- A reply to a record, not yet in effect (22_interruption.md R319, R321 case 4): the slot and the task that it is for, and the
number of the supervisor task that gave it; none for the debugger. -/
structure Reply where
  core : Nat
  slot : Nat
  code : Nat
  task : Nat
  giver : Option Nat
deriving DecidableEq, Repr

/-- A value that a walker instruction of a pair's primary returned (04_placing.md R60). -/
structure WalkRead where
  kind : Nat := 0
  val : W64 := 0
deriving DecidableEq, Repr

/-- A thread slot (06_issuing.md R96, R101, R105). -/
structure Slot where
  /-- A task runs in the slot. -/
  running : Bool := false
  /-- Parked by a trap until the reply (R314). -/
  parked : Bool := false
  g : Tbl W64 := []
  v : Tbl Vec := []
  m : Tbl W64 := []
  pc : Pc := {}
  regs : SlotRegs := {}
  saved : SlotRegs := {}
  msgid : W32 := 0
  msrc : W64 := 0
  budg : Nat := 0
  tcause : W64 := 0
  taddr : W64 := 0
  qce : Bool := false
  qpe : Bool := false
  /-- Payload bytes read through `qpay`. -/
  qpos : Nat := 0
  /-- Words of the outbound builder. -/
  qbld : List W64 := []
  /-- Record bound by `qcmp`, and the words of it that have been read. -/
  bound : Option (CRec × Nat) := none
  /-- Records taken since the last commit point, the bound one included, the first taken first (R104 case 2). -/
  taken : List CRec := []
  pend : List Pending := []
  armed : Bool := false
  exp : Half := 0
  short : Bool := false
  crc : Half := 0xFFFF
  lact : Bool := false
  lc : Nat := 0
  ls : Nat := 0
  le : Nat := 0
  buf : List Entry := []
  repl : Bool := false
  /-- Completions consumed and not yet confirmed (R269). -/
  pairs : List Completion := []
  /-- TAINT (R106). -/
  taint : Bool := false
  /-- Completions consumed by a task of an eager launch and refuted later (R272). -/
  eaten : List Completion := []
  /-- The core whose stream the slot follows (R90, R91). -/
  follow : Option Nat := none
  msg : Option Msg := none
  wait : Wait := .none
  /-- SYNLD writes staged (R132). -/
  staged : List (W64 × W64) := []
  /-- Reads of another device that the instruction under way asked for, with their answers (11_matrix_unit.md R197). -/
  asked : List Asked := []
  /-- Number of the task on its core; order of dispatch (R107 case 3). -/
  task : Nat := 0
  /-- The task has passed TKPS (R280). -/
  passed : Bool := false
  /-- Drains of the task so far, and the hash of the drain that waits for its plumb check (R335, R337). -/
  drains : Nat := 0
  hash : Option W64 := none
  /-- The plumb check let the waiting drain proceed. -/
  checked : Bool := false
  /-- The drain of the waiting commit point or END has handed its entries on; the operands that the commit point read, and popped, at its
  issue (01_notation.md R9). -/
  handed : Bool := false
  opnds : List W64 := []
  /-- TIME of the first hash. -/
  hashTime : Nat := 0
  /-- Walker reads of the task so far (R60). -/
  walks : List WalkRead := []
  walkPos : Nat := 0
  /-- Results that the owners returned to a pair's primary, with their faults, for the mirror (24 R335 case 3). -/
  owned : List (W64 × Option (Nat × W64)) := []
  ownedPos : Nat := 0
  /-- Trap held until the other task of the pair has trapped or not (R337): cause, code and TADDR. -/
  pairTrap : Option (Nat × Nat × W64 × Pc) := none
  /-- The record whose supervisor routine runs here (R318). -/
  record : Option TRec := none
  /-- The stage-2 fill that the slot's access waited for was failed by the hypervisor (13 R238 case 3). -/
  fillFailed : Bool := false
  /-- The leader's instructions that the following slot has not issued yet: instruction, address, next address (R91). -/
  stream : List (Instr × Pc × Pc) := []
  /-- Bits of the next instruction that are upset between IMEM and issue (24 R338). -/
  upset : List Nat := []
deriving DecidableEq, Repr

/-- A service message at a core: an atomic, a sub-byte sector, an IMEM store (R96, R139, R143, R227 case 3). -/
structure SvcReq where
  /-- Core that asked; the device whose core it is, for a request from the fabric, and its tenant domain. -/
  src : Nat := 0
  dev : Option Nat := none
  dom : Nat := 0
  req : Nat := 0
  ea : W64 := 0
  loc : Loc := .spad 0 0
  act : Act := .fence
deriving DecidableEq, Repr

/-- A message in the run queue, with its inbox entry's offset and the count of TIME in which it arrived (R98 case 4); none for one
that a trap returned. -/
structure QMsg where
  msg : Msg
  off : Nat
  at_ : Option Nat := none
deriving DecidableEq, Repr

/-- An entry of the inbox ring (06_issuing.md R110). -/
structure InboxEnt where
  off : Nat
  len : Nat
  freed : Bool
  pad : Bool
  msg : Option Msg
deriving DecidableEq, Repr

/-- A queued matrix command with what was sampled (11_matrix_unit.md R197). -/
structure MxEntry where
  uid : Nat := 0
  slot : Nat := 0
  task : Nat := 0
  launch : Option LaunchId := none
  prio : Nat := 0
  cmd : Vec := 0
  recA : W32 := 0
  recB : W32 := 0
  recC : W32 := 0
  scla : W64 := 0
  sclb : W64 := 0
  mapX : Vec := 0
  mapY : Vec := 0
  words : List W32 := []
  parity : Nat := 0
  released : Bool := false
  /-- Accumulator zeroing of a release instead of a command (03 R57 case 3). -/
  zeroing : Bool := false
  /-- Released behind these entries of the core's flight (R211 case 1). -/
  after : Nat := 0
  finished : Bool := false
  status : Nat := 0
  blocks : Nat := 0
  bad : W64 := 0
  /-- Number of the command among the core's released commands (R210). -/
  num : Nat := 0
  /-- TIME before which the unit does not start it: the stagger of its launch's release (03_launching.md R55). -/
  start : Nat := 0
  /-- It has begun and waits at the memory side: the lines that it has fetched, by line of their addresses (R209). -/
  begun : Bool := false
  got : Tbl (List Byte) := []
  /-- A request of the command is parked at a home; the home whose full park queue refused it; and whether the stage-2 fill that it
  waited for was failed. -/
  parked : Bool := false
  refused : Option Nat := none
  fillFailed : Bool := false
deriving DecidableEq, Repr

/-- A queued copy request with what was sampled, and its progress (12_copy_engine.md R215, R221). -/
structure CpEntry where
  uid : Nat := 0
  slot : Nat := 0
  task : Nat := 0
  launch : Option LaunchId := none
  prio : Nat := 0
  q : Quad := ⟨0, 0, 0, 0⟩
  map : Vec := 0
  /-- Working phase of the slot in the course, and the cluster of the slot. -/
  parity : Nat := 0
  chan : Nat := 0
  xid : Nat := 0
  released : Bool := false
  after : Nat := 0
  /-- Bytes of the transfer's byte order done. -/
  off : Nat := 0
  finished : Bool := false
  /-- A chunk under way with another device: source and destination, the number of its request, and the bytes that came. -/
  under : Option (Loc × Loc × Nat) := none
  /-- Its store is sent and its acknowledgement awaited. -/
  acking : Bool := false
  fetched : Option (List Byte) := none
  /-- A fault storm discarded it while its chunk was under way (22_interruption.md R322). -/
  doomed : Bool := false
  status : Nat := 0
  bad : W64 := 0
  /-- Half-bytes written into scratchpads, by cluster, and under 256 those written elsewhere (R222). -/
  counts : Tbl Nat := []
  /-- The bytes of a stream's word that the transfer has written and not yet contributed: stream and word index (20_fabric.md R307). -/
  word : Option (Nat × Nat × List NibByte) := none
  /-- Bytes overwritten by the transfer, as they stood before, by the number of their place (R218). -/
  olds : Tbl Byte := []
  /-- Offset of the GATH element under way, as its list held it when its first chunk started (R219). -/
  gath : Option W64 := none
  /-- A request of the chunk is parked at a home; the home whose full park queue refused it; and whether the stage-2 fill that it
  waited for was failed. -/
  parked : Bool := false
  refused : Option Nat := none
  fillFailed : Bool := false
deriving DecidableEq, Repr

/-- A completion report that an engine holds (11 R202, 12 R222). -/
structure Report where
  handler : Bool
  cls : Nat
  crec : CRec
  launch : Option LaunchId
  prio : Nat
deriving DecidableEq, Repr

/-- A cached line of an L1 portion (13_memory_hierarchy.md R229, R230). -/
structure L1Line where
  data : List Byte := []
  /-- Cores of the cluster whose valid bit is set. -/
  valid : List Nat := []
deriving DecidableEq, Repr

/-- A cached translation (13_memory_hierarchy.md R239): both stages and the rights of both. -/
structure TlbEnt where
  part : Nat
  va : Nat
  size : Nat
  pa : Nat
  gpa : Nat
  s2size : Nat
  r : Bool
  w : Bool
  a : Bool
  r2 : Bool
  w2 : Bool
  a2 : Bool
  /-- Guest physical addresses of the stage-1 entries that the walk read, with the sizes of the stage-2 pages that they lie in. -/
  via : List (Nat × Nat) := []
deriving DecidableEq, Repr

/-- A pin on a page's translation: of a chunk of the copy engine (12_copy_engine.md R221), or of a line that the tile fetch unit has fetched
and its command not consumed (11_matrix_unit.md R209), with the request or the command that holds it. -/
structure Pin where
  part : Nat
  gva : Nat
  gpa : Nat
  s2size : Nat := 65536
  via : List (Nat × Nat) := []
  uid : Nat := 0
  /-- The line that the tile fetch unit pins. -/
  line : Option Nat := none
deriving DecidableEq, Repr

/-- A message held by the sending CNI until a count of TIME (08 R148). -/
structure Deferred where
  due : Nat
  m : Msg
  tgt : Target
deriving DecidableEq, Repr

/-- A core (06_issuing.md R95). -/
structure Core where
  slots : Tbl Slot := []
  last : Nat := 7
  /-- Cycles of the core's island so far, the first of them in which the core may issue, and the slots whose instruction was
  found not ready in the current one (R99). -/
  clock : Nat := 0
  next : Nat := 0
  tried : List Nat := []
  /-- DEV of SELF as it stood at the last release that reached the core (04_placing.md R75 case 3). -/
  selfDev : Option Nat := none
  /-- Tasks started on the core so far. -/
  tasks : Nat := 0
  runq : List QMsg := []
  svcq : List SvcReq := []
  /-- Service message that slot 0 runs. -/
  serving : Option SvcReq := none
  inbox : List InboxEnt := []
  inHead : Nat := 0
  cinbox : List CRec := []
  imem : Tbl Byte := []
  /-- IMEM written since release by other means (R90 case 3). -/
  imemDirty : Bool := false
  /-- Halfwords written since the slots' last FNCI or task start, as they stood: slot, halfword, old bytes (R127). -/
  stale : List (Nat × Nat × Byte) := []
  /-- Halfwords of IMEM with an uncorrectable error (24 R338). -/
  badImem : List Nat := []
  spad : Tbl Byte := []
  /-- The SRAM split: L1 code 0 to 4 (R228); the fuse state that release set (03 R54), and whether fusing is in effect on this
  core (R230 cases 1 and 4). -/
  l1code : Nat := 0
  fuse : Bool := false
  fused : Bool := false
  l1 : Tbl L1Line := []
  tlb : List TlbEnt := []
  flight : List Flight := []
  /-- Requests made so far. -/
  reqs : Nat := 0
  launchCount : Nat := 0
  msgCount : Nat := 0
  skip : W64 := 0
  taintAborts : Nat := 0
  /-- The launch whose image the core holds. -/
  image : Option LaunchId := none
  /-- Launches whose images the core held before: their messages are stale here (R57 case 4). -/
  earlier : List LaunchId := []
  acc : Tbl W32 := []
  mxq : List MxEntry := []
  /-- Entries of the matrix queue that completions freed in this cycle of the core (11_matrix_unit.md R195). -/
  mxFreed : Nat := 0
  mxCount : Nat := 0
  /-- TIME before which the matrix unit starts no command of the launch (R55). -/
  mxStart : Nat := 0
  mxHeld : Option Report := none
  cpq : List CpEntry := []
  cpIds : Tbl Nat := []
  cpdn : Tbl Nat := []
  /-- Retired ids at or above CPDN: channel and id (R213). -/
  retired : List (Nat × Nat) := []
  cpHeld : List Report := []
  pins : List Pin := []
  deferred : List Deferred := []
  /-- Bounces that the core could not take yet (R149). -/
  bounces : List Msg := []
  /-- TRRD contributions committed, by the number of a launch (R283). -/
  trrdCount : Tbl Nat := []
  /-- RDX requests of the core that a full park queue refused: message id, and the cluster of that home (22 R323). -/
  rdxRefused : List (W32 × Nat) := []
  /-- Stopped by a debug halt. -/
  halted : Bool := false
deriving DecidableEq, Repr

/-- A tile walker (04_placing.md R58, R61). -/
structure Walker where
  launch : Option LaunchId := none
  stage : Nat := 0
  num : Nat := 0
  count : Nat := 0
  lo : Nat := 0
  hi : Nat := 0
  taken : BitVec 8 := 0xFF#8
  ret : List Nat := []
  gen : Nat := 0
deriving DecidableEq, Repr

/-- A recorded continuation of an arrival (17_mortar_plane.md R263). -/
structure Cont where
  start : Bool
  cls : Nat
  q : Quad
  prio : Nat
  launch : Option LaunchId
deriving DecidableEq, Repr

/-- The fields of a course that a completion saves in LAST (17_mortar_plane.md R263). -/
structure CourseF where
  arr : BitVec 72 := 0
  held : BitVec 72 := 0
  q : Nat := 0
  pm : Tbl Nat := []
  dcur : Nat := 0
  ecur : Nat := 0
  dnxt : Nat := 0
  enxt : Nat := 0
  cont : Tbl Cont := []
  contHeld : Tbl Cont := []
deriving DecidableEq, Repr

/-- A course (17_mortar_plane.md R263). -/
structure Course where
  mem : BitVec 72 := 0
  /-- ECC-protected shadow of MEM (R258). -/
  shadow : BitVec 72 := 0
  f : CourseF := {}
  overMark : Bool := false
  /-- The OVERDELIVERY record of case 4 of R266 has been sent since the mark was last cleared. -/
  overSent : Bool := false
  last : Option (CourseF × Nat) := none
  unconfirmed : Bool := false
  /-- The member slots' own copies of their phase and arrival bit. -/
  phase : Tbl Nat := []
  arrived : BitVec 72 := 0
deriving DecidableEq, Repr

/-- The detector and the round counter of a scope instance (17_mortar_plane.md R257, R259, R260). -/
structure Detector where
  round : Nat := 0
  /-- TIME at which the current round began. -/
  began : Nat := 0
  legit : Bool := false
  since : Nat := 0
  /-- The start of the current round showed evidence. -/
  evid : Bool := false
  /-- Verdicts not yet delivered, the oldest first: round and V. -/
  waiting : List (Nat × Bool) := []
  /-- Rounds refuted. -/
  refuted : List Nat := []
  /-- Tasks of eager launches that consumed a completion of a round and have committed: round, message id, core. Those of a
  round not yet judged, and those that committed after the refutation (R272). -/
  eaters : List (Nat × W32 × Nat) := []
  late : List (Nat × W32 × Nat) := []
deriving DecidableEq, Repr

/-- A request for a token (17_mortar_plane.md R262, R280). -/
structure TokReq where
  cls : Nat
  tag : W64
  prio : Nat
  launch : Option LaunchId
deriving DecidableEq, Repr

/-- A token ring of a partition (17_mortar_plane.md R261, R262). -/
structure Ring where
  n : Nat := 0
  k : Nat := 0
  place : Tbl W64 := []
  /-- Shadow of the configuration (R258). -/
  shadowN : Nat := 0
  shadowK : Nat := 0
  shadowPlace : Tbl W64 := []
  /-- Scope as it is configured: 1 group, 2 device; and the cluster at group scope. -/
  scope : Nat := 0
  cluster : Nat := 0
  x : Tbl Nat := []
  /-- Members held, with the request granted and the round of the grant. -/
  held : Tbl (TokReq × Nat) := []
  /-- Members whose hold was released in the current round: it started with them held. -/
  rel : List Nat := []
  fifo : Tbl (List TokReq) := []
deriving DecidableEq, Repr

/-- The trellis and the step clock of a launch (17_mortar_plane.md R267, R268), by cluster in package coordinates. -/
structure Trellis where
  dist : Tbl Nat := []
  parent : Tbl Nat := []
  clock : Tbl Nat := []
  /-- Clock values at the end of the previous round (R260). -/
  was : Tbl Nat := []
deriving DecidableEq, Repr

/-- A TRRD contribution (17_mortar_plane.md R283). -/
structure Contribution where
  core : Nat
  v : W64
  op : Nat
  cls : Nat
  prio : Nat
deriving DecidableEq, Repr

/-- What is under way on the message plane (20_fabric.md R289, R290). -/
inductive NetItem where
  /-- A task message for a core; the core that sent it. -/
  | task (src dst : Nat) (m : Msg)
  /-- A message for any core of a cluster (kind 3). -/
  | anyOf (src cluster : Nat) (m : Msg)
  /-- A refused message on its way back to its source core. -/
  | bounce (dst : Nat) (m : Msg)
  /-- A spawn request (08 R150). -/
  | spawn (src slot uid : Nat) (tgt : Target) (m : Msg)
  /-- An RDX request at its owner on this package (08 R155). -/
  | rdx (r : RdxReq) (owner : Loc) (tgt : List Target)
  /-- RDX data for a recipient core, or a kind-5 record: status 0 to 3; no recipient has refused so far. -/
  | delivery (r : RdxReq) (dst : Nat) (bytes : List Byte) (status : Nat) (clean : Bool)
  /-- A kind-4 record for the requester (08 R155 case 7). -/
  | notice (r : RdxReq) (dst : Nat)
  /-- A service request of another device: the device, its core and request number, the tenant domain (20 R296). -/
  | remote (dev core req dom : Nat) (v : Service)
  /-- The acknowledgement of a posted write at another device, for the core that issued it (08 R133 case 6). -/
  | ack (core req : Nat) (ok : Bool) (cause dev : Nat)
deriving DecidableEq, Repr

/-- Whose request is parked. -/
inductive Asker where
  /-- A drained entry of the core's flight, by its number. -/
  | entry
  /-- A read of `n` bytes for a pending result, by its number. -/
  | load (n : Nat)
  /-- The copy engine's request with the number, of a channel. -/
  | copy (chan : Nat)
  /-- The matrix unit's command with the number. -/
  | matrix
  /-- A request of another device, or the read of an RDX. -/
  | item (x : NetItem)
  /-- The read of an entry of a slot's walk, by core and slot, or an access of the front end, which is made again when its home replays. -/
  | again
deriving DecidableEq, Repr

/-- Numbers that tell a request of the message plane, which has no core here, from every other. -/
def NetItem.tag : NetItem → Nat × Nat
  | .remote dev core req _ _ => (2 ^ 32 + 4096 * dev + core, req)
  | .rdx r _ _ => (2 ^ 64 + 2 ^ 20 * r.rdev + r.requester.toNat, r.msgid.toNat)
  | _ => (0, 0)

/-- A parked request at a home (22_interruption.md R323): core, its number, and the place; an item's tag for what has no core here. -/
structure Parked where
  who : Asker
  src : Nat
  req : Nat
  loc : Loc
  /-- Bytes from the place on to the line that it waits for, whose home parks it. -/
  off : Nat := 0
  /-- Its turn among the parked requests: those of one source are replayed in the order of their arrival (R324). -/
  seq : Nat := 0
deriving DecidableEq, Repr

/-- The home state of a line that differs from an ordinary line at its directory slice (13 R232 to R234), and its tag. -/
structure Line where
  /-- Cluster of its home, when it has migrated. -/
  home : Option Nat := none
  cand : Nat := 0
  count : Nat := 0
  /-- Cluster it is moving to. -/
  moving : Option Nat := none
  /-- Being scrubbed. -/
  scrub : Bool := false
  /-- Partial lines: the partition, operation and size, and the elements by contributor (cluster, or 256 + device). -/
  owner : Nat := 0
  op : Nat := 0
  size : Nat := 0
  partials : List (Nat × Tbl W64) := []
  /-- Number of the memory key under which the line was written, and the partition (24_protection.md R342); none before its first write. -/
  key : Option (Nat × Nat) := none
  /-- An uncorrectable error in the line. -/
  bad : Bool := false
deriving DecidableEq, Repr

/-- A cluster (04 R58, 17 R263, 22 R329). -/
structure Cluster where
  walkers : Tbl Walker := []
  courses : Tbl Course := []
  det : Detector := {}
  tlb : List TlbEnt := []
  /-- Completion-started tasks that the CNI holds: core and message (R276 case 5). -/
  tasks : List (Nat × Msg) := []
  /-- Park queue of the cluster's L2 slice. -/
  park : List Parked := []
  failed : Bool := false
  testIndex : Nat := 0
deriving DecidableEq, Repr

/-- Debug state of a partition's resident context (22_interruption.md R330 to R332). -/
inductive Halt where
  | running
  | pending
  | halted
deriving DecidableEq, Repr

/-- The step of a context switch (22_interruption.md R325). -/
inductive Switch where
  | none
  /-- Dispatch has stopped; tasks end, engines finish. -/
  | stopping (ctx : Nat)
  /-- Saved; the test slice runs. -/
  | testing (ctx : Nat)
  /-- Tested; the incoming context is to be restored. -/
  | restoring (ctx : Nat)
deriving DecidableEq, Repr

/-- A partition (03 R37, 22 R317, 24 R339, R345). -/
structure Partition where
  en : Bool := false
  l1max : Nat := 0
  l1min : Nat := 0
  ctx : Nat := 0
  /-- The context is resident (03_launching.md R36): it is not between the save of one context and the restore of the next. -/
  resident : Bool := false
  /-- DEV of SELF as it stood when the context became resident (04_placing.md R75 case 3). -/
  selfDev : Nat := 0
  ph : Nat := 0
  pw : Nat := 0
  py : Nat := 0
  px : Nat := 0
  /-- The trap queue; records that wait for room; the fatal record of a storm. -/
  trapq : List TRec := []
  heldRecs : List TRec := []
  /-- The record that the supervisor slot handles keeps its entry: one of the reserve, or not (R317). -/
  handled : Option Bool := none
  fatalHeld : Option TRec := none
  supImem : Tbl Byte := []
  /-- Halfwords of the supervisor IMEM with an uncorrectable error (24 R338). -/
  badSup : List Nat := []
  /-- TIME at which the test slice began (R329). -/
  testFrom : Nat := 0
  halt : Halt := .running
  haltTime : Nat := 0
  storm : Bool := false
  /-- After a storm only the supervisor dispatches (R322). -/
  onlySup : Bool := false
  debugger : Bool := false
  debugRecs : List TRec := []
  replies : List Reply := []
  /-- Frames held while halted, and their bytes. -/
  holding : List (Nat × Frame) := []
  holdBytes : Nat := 0
  peers : Tbl (BitVec 128) := []
  peerLen : Nat := 0
  peerEdits : List (Nat × BitVec 128) := []
  peerLenEdit : Option Nat := none
  tokens : Tbl Ring := []
  det : Detector := {}
  /-- Snapshot root (R339). -/
  snapPages : Nat := 0
  snapBase : Nat := 0
  snapTable : Nat := 0
  snapEpoch : Nat := 0
  snapEn : Bool := false
  /-- Snapshot pages being copied on write. -/
  cow : List Nat := []
  /-- Guest physical pages marked migrating, with the frame each goes to and the page's size (R241). -/
  migrating : Tbl (Nat × Nat) := []
  /-- Walks that wait for a stage-2 fill: guest physical addresses (R238). -/
  faults : List Nat := []
  /-- Those that the front end waits for, and whether the fill was failed. -/
  feAsked : List (Nat × Bool) := []
  qos : W64 := 0
  switch : Switch := .none
  switchq : List Nat := []
  streamRing : BitVec 256 := 0
  /-- Counted by the partition manager: records without a class; first plumb mismatches of each pair, by its primary core. -/
  counted : Nat := 0
  mismatches : Tbl Nat := []
deriving DecidableEq, Repr

/-- A device launch in a ring's device queue (03_launching.md R51, R52). -/
structure DevLaunch where
  addr : W64
  core : Nat
  qid : Nat
  accRec : Bool
  doneRec : Bool
  ticket : Nat
deriving DecidableEq, Repr

/-- A physical ring: its descriptor (03_launching.md R39) and its device queue. -/
structure RingD where
  ctx : Nat := 0
  err : Bool := false
  en : Bool := false
  /-- The front end's copy of EN. -/
  served : Bool := false
  pcap : Nat := 0
  log2n : Nat := 0
  ctrl : Nat := 0
  status : Nat := 0
  base : Nat := 0
  devq : List DevLaunch := []
deriving DecidableEq, Repr

/-- How far a launch has come. -/
inductive LStage where
  | held
  | releasing
  | running
  | done
deriving DecidableEq, Repr

/-- A message or an RDX request of a launch that has gone to another device and whose fate is not known yet (03_launching.md R47):
its source core and message id, the device, how many bounces are due, and how many have come. -/
structure Abroad where
  core : Nat
  msgid : W32
  dev : Nat
  due : Option Nat := none
  back : Nat := 0
  /-- The device has been told that the launch is torn down. -/
  told : Bool := false
deriving DecidableEq, Repr

/-- Whom a guest's end is told to: the first message of the launch that came, with its device, its domain and its launch as
that device names it, its partition, place and id, and its bounces. -/
structure Tell where
  dev : Nat
  dom : Nat
  launch : LaunchId
  part : Nat
  source : W64
  msgid : W32
  bounces : Nat
deriving DecidableEq, Repr

/-- A launch of another device, or of another context, with tasks on this device (03_launching.md R47): the contexts that its
messages have reached, its own messages at other devices, and whether it is torn down. -/
structure Guest where
  launch : LaunchId
  dom : Nat
  ctxs : List Nat := []
  tell : Option Tell := none
  abroad : List Abroad := []
  killed : Bool := false
  /-- Its home device is to be told that it is torn down. -/
  upward : Bool := false
  /-- The launch record, as its messages bring it (02_describing_work.md R23). -/
  rcd : Option (BitVec 1024) := none
deriving DecidableEq, Repr

/-- An accepted launch (03_launching.md R43 to R49). -/
structure Launch where
  rcd : BitVec 1024
  prio : Nat
  /-- Launches that its waits name (R45). -/
  waits : List Nat
  stage : LStage := .held
  /-- Raised: completed (true) or failed (false); R48. -/
  raised : Option Bool := none
  early : Bool := false
  /-- Gang clusters that have triggered or exited. -/
  trig : List Nat := []
  /-- Drained writes of clusters that have exited, not performed yet: core and request number (R49 case 2). -/
  cover : List (Nat × Nat) := []
  /-- Cores that hold the image; clusters whose release message has arrived. -/
  loaded : List Nat := []
  started : List Nat := []
  killed : Bool := false
  final : Nat := 0
  /-- Where its status goes: ring and slot index, or the device launch. -/
  ring : Nat
  slotIdx : Nat
  device : Option DevLaunch
  /-- The image that release multicasts (R54, R86), from step 1 on. -/
  image : List Byte := []
  trellis : Trellis := {}
  /-- Open TRRD generations: number and contributions (17_mortar_plane.md R283). -/
  gens : Tbl (List Contribution) := []
  /-- Generations closed whose result is not yet confirmed: number, round of closing, contributions (R271). -/
  closed : List (Nat × Nat × List Contribution) := []
  /-- TRMC in flight, the one to be repeated first: class, quad, priority (R282). -/
  trmc : List (Nat × Quad × Nat) := []
  /-- Multicasts delivered and not yet confirmed, with the round in which they left the root (R271). -/
  trmcSent : List (Nat × (Nat × Quad × Nat)) := []
  /-- Messages at other devices. -/
  abroad : List Abroad := []
deriving DecidableEq, Repr

/-- A context (03_launching.md R36). -/
structure Ctx where
  alive : Bool := false
  rings : Tbl RingD := []
  q1 : Tbl Byte := []
  q2 : Tbl Byte := []
  launches : Tbl Launch := []
  lastLid : Nat := 0
  s2root : Nat := 0
  tcb : Nat := 0
  /-- The stage-1 root in force (R237). -/
  root1 : W64 := 0
  supImage : Nat := 0
  saveArea : Nat := 0
  /-- The save sequence number that the partition manager keeps (22_interruption.md R327). -/
  saveSeq : Nat := 0
  domain : Nat := 0
  /-- Memory key pair and tag key: the number of the key, none before creation and after destruction (R346). -/
  key : Option Nat := none
  lost : Bool := false
  /-- The context has been resident before (R228 case 2). -/
  ran : Bool := false
  /-- The ring that the front end served last (03_launching.md R41). -/
  turn : Nat := 0
  /-- Calls made while it was not resident: handler and words (22_interruption.md R318). -/
  calls : List (Nat × Quad) := []
deriving DecidableEq, Repr

/-- The contents of a save area (22_interruption.md R326, R327); cores and clusters have the numbers of the origin that the
partition had, which `part` holds. -/
structure Saved where
  pw : Nat
  ph : Nat
  cores : Tbl Core
  clusters : Tbl Cluster
  part : Partition
  /-- Save sequence number in the area's header. -/
  seq : Nat
  /-- Key the area is sealed under, and the partition; the area's address. -/
  key : Option Nat
  addr : Nat
deriving DecidableEq, Repr

/-- The sending side of a flow (20_fabric.md R300, R302). -/
structure FlowOut where
  seq : Nat := 0
  /-- EPOCH, counted on: a frame carries its low 20 bits. -/
  epoch : Nat := 0
  unacked : List Frame := []
  /-- TIME of the last sending of each of them, end-to-end resends included. -/
  sentAt : List Nat := []
  expired : Nat := 0
  broken : Bool := false
  ackCount : Nat := 0
  /-- What waits for room in the window: domain, stream, port, payload. -/
  queue : List (Nat × Nat × Option Nat × Payload) := []
  /-- The key of each domain whose frames the flow has carried, with the EPOCH at which the flow first used it; and the same of its ack
  frames, with the ack counter: domain, key, and what was counted then (R304: no IV is used twice). -/
  keys : List (Nat × Nat × Nat) := []
  ackKeys : List (Nat × Nat × Nat) := []
deriving DecidableEq, Repr

/-- The receiving side of a flow (20_fabric.md R300). -/
structure FlowIn where
  next : Nat := 0
  /-- The EPOCH of NEXT (R303). -/
  epoch : Nat := 0
  /-- Frames held for their turn, with the ports by which they came. -/
  held : Tbl (Nat × Frame) := []
deriving DecidableEq, Repr

/-- A link's sending and receiving ends (20_fabric.md R301). Ports 0 to 23 are scale-up, 24 and 25 front-end. -/
structure Link where
  up : Bool := false
  replay : List Frame := []
  sent : Nat := 0
  freed : Nat := 0
  received : Nat := 0
  /-- What is on its way over the link, the oldest first: frames, frames sent again, and the last link-control frame. -/
  wire : List Frame := []
  /-- The port's schedule (24_protection.md R345): bytes over weights that have gone out, and the count at which the next frame of each class
  is due to start. -/
  clock : Nat := 0
  start : Tbl Nat := []
deriving DecidableEq, Repr

/-- A set of a stream entry (20_fabric.md R306). -/
structure StreamSet where
  inp : BitVec 25 := 0
  out : BitVec 25 := 0
  op : Nat := 0
deriving DecidableEq, Repr

/-- A router entry of a virtual stream (20_fabric.md R306, R308). -/
structure Stream where
  part : Nat
  dom : Nat
  sets : List StreamSet
  cur : Nat := 0
  base : Nat
  notify : W64
  cls : Nat
  /-- A contribution has entered. -/
  entered : Bool := false
  /-- Items delivered by each IN port and not yet consumed, in order; with those whose frame went on unchanged marked. -/
  queues : Tbl (List (StreamItem × Bool)) := []
  /-- Word values of the current set delivered so far: word index, then port. -/
  words : Tbl (Tbl W64) := []
deriving DecidableEq, Repr

/-- The fabric keys of a tenant domain: numbers in its series (20 R304, 24 R346). -/
structure DomKeys where
  current : Nat := 0
  next : Option Nat := none
  /-- Senders use the next key. -/
  switched : Bool := false
  made : Nat := 0
deriving DecidableEq, Repr

/-- The system trellis and step clock at this device's node (17 R267, R268). -/
structure SysTrellis where
  /-- The fabric manager has configured it. -/
  conf : Bool := false
  root : Nat := 0
  cap : Nat := 0
  dist : Nat := 0
  parent : Nat := 31
  clock : Nat := 0
  /-- What the neighbours' last mortar frames said, by port: distance and clock. -/
  heard : Tbl (Nat × Nat) := []
  det : Detector := {}
deriving DecidableEq, Repr

/-- The fabric side of the device (20_fabric.md). -/
structure Fabric where
  devId : Nat := 0
  udpPort : Nat := 48111
  routes : Tbl (List Nat) := []
  out : List (FlowId × FlowOut) := []
  inn : List (FlowId × FlowIn) := []
  links : Tbl Link := []
  /-- Frames handed to the ports' egress queues: port, class (a partition, or 64 for frames forwarded for other devices), frame. -/
  egress : List (Nat × Nat × Frame) := []
  /-- Frames of this device that wait for a slot of the memory plane on their way to a port, with their partition; frames taken that wait for
  one on their way from a port, with that port (R289, 24 R344). -/
  inject : List (Nat × Frame) := []
  arrived : List (Nat × Frame) := []
  /-- Acknowledgements of the writes performed in this count of TIME (21 R311 case 2): device, domain, core, request, failure mark. -/
  acks : List (Nat × Nat × Nat × Nat × Bool × Nat) := []
  /-- Data of RDX requests that has come ahead (R292). -/
  pieces : List (RdxReq × List Byte) := []
  /-- Streams without an entry that a contribution has entered (R309). -/
  early : List Nat := []
  /-- Keys made so far for each domain (24 R346). -/
  keysMade : Tbl Nat := []
  /-- Frames dropped and counted. -/
  dropped : Nat := 0
  e2et : Nat := 50
  streams : Tbl Stream := []
  keys : Tbl DomKeys := []
  sysTrellis : Tbl SysTrellis := []
  transitWeight : Nat := 1
  /-- Slot table of the memory plane, its writes that wait for a frame's end, and the frame of the last of them (24 R344). -/
  slotTable : Tbl Byte := []
  slotPending : List (Nat × Byte) := []
  frames : Nat := 0
  /-- Launches of other devices with tasks here. -/
  guests : List Guest := []
deriving DecidableEq, Repr

/-- Stages of bring-up (25_bring_up.md R347, R350, R351). -/
inductive BootStage where
  | off
  /-- The keystone core runs from ROM. -/
  | verifying
  /-- The management cores, then the home cores, then the compute clusters are released and have not reported ready. -/
  | stage1
  | stage2
  | stage3
  | running
  | recovery
deriving DecidableEq, Repr

/-- The keystone core's state, the flash and fuses, and the frequency islands (25_bring_up.md). -/
structure Platform where
  stage : BootStage := .verifying
  flash : ImageSet := ⟨[]⟩
  /-- Minimum versions of IDs 1 to 4. -/
  fuses : Tbl Nat := []
  /-- Versions that the management cores run. -/
  versions : Tbl Nat := []
  manifestDigest : BitVec 256 := 0
  /-- Counter in the flash, next index of the current block and its end (R353). -/
  quoteCounter : Nat := 0
  quoteNext : Nat := 0
  quoteEnd : Nat := 0
  /-- The last quote given: index, body and signature; and the refusals given. -/
  quote : Option (List Byte × List Byte) := none
  exhausted : Bool := false
  recoveryPort : Option Nat := none
  recoveryRequests : Nat := 0
  /-- The images in the management cores' memories, by ID (R349). -/
  loaded : Tbl (List Byte) := []
  /-- The last recovery request: the identity key's digest, and the quote (R351); TIME at which it was sent, and at which the port was
  brought up. -/
  request : Option (BitVec 256 × List Byte × List Byte) := none
  askedAt : Nat := 0
  portAt : Nat := 0
  /-- An answer whose manifest passed has been taken to the last request: no other is accepted (R351 case 2). -/
  answered : Bool := false
  /-- TIME at which the management cores' watchdog intervals began (R350). -/
  watchAt : Nat := 0
  /-- TIME until which a change of frequency stops issue in an island (R354). -/
  islandStop : Tbl Nat := []
  /-- Current and target frequency of each island in MHz; unlisted is 2700. -/
  islandCur : Tbl Nat := []
  islandTgt : Tbl Nat := []
  /-- TIME of an island's last step up with matrix work under way (R355). -/
  islandStep : Tbl Nat := []
deriving DecidableEq, Repr

/-- Who moves next when the agenda says so: an event of the table, or the instruction of a slot. -/
inductive Move where
  | event (j : Instr)
  | issue (core slot : Nat)
  /-- The instruction of a halted slot, stepped by the debugger (22_interruption.md R331). -/
  | debug (core slot : Nat)
  /-- An L1 portion loses a line (13 R229: nothing promises that it stays). -/
  | evict (core line : Nat)
  /-- A migrated line is evicted from its home (13 R232 case 4). -/
  | evictHome (line : Nat)
  /-- A slice evicts a partial line: it is merged into the base first (13 R234 case 3). -/
  | evictPartial (line src : Nat)
deriving DecidableEq, Repr

/-- Alerts and answers to the hypervisor and the fabric manager through the management interface. -/
inductive Alert where
  | descriptorRefused (part : Nat)
  | stage2Fault (part gpa : Nat)
  | supervisorTrap (part : Nat)
  | storm (part : Nat)
  | clusterFailed (cluster : Nat)
  | e2etRefused (v : Nat)
  | restoreRefused (part ctx : Nat)
deriving DecidableEq, Repr

/-- The whole machine. -/
structure State where
  /-- Memory of the device: HBM by device physical address. -/
  mem : Memory
  /-- Bytes of memory written by the step under way, the newest first; empty between steps. -/
  wr : List (Nat × Byte)
  cores : Tbl Core
  clusters : Tbl Cluster
  parts : Tbl Partition
  ctxs : Tbl Ctx
  saves : Tbl Saved
  lines : Tbl Line
  net : List NetItem
  fabric : Fabric
  plat : Platform
  /-- TIME, in cycles of the 2.7 GHz reference. -/
  time : Nat
  /-- Corrected errors counted by the partition manager (R316, R338). -/
  corrected : Nat
  alerts : List Alert
  /-- The last answer of the management interface: bytes of a sealed snapshot (24 R341). -/
  readout : List Byte
  /-- Keys of contexts made so far (24 R346). -/
  keysMade : Nat
  /-- The core and slot whose instruction issues next. -/
  curCore : Nat
  curSlot : Nat
  /-- Of the default schedule (log entry 11): the events of the device that took place in this count of TIME. -/
  evs : Nat
  /-- Free values used so far (log entry 1). -/
  free : Nat
  /-- Which agent moves next, and the cycles that pass before the steps to come (log entry 11). -/
  agenda : List Move
  ticks : List Nat
deriving DecidableEq, Repr

/-- Why the machine stops. -/
inductive Fault where
  /-- An instruction was to be executed in a slot in which no task runs: nothing on the hardware issues there. Raised by
  the meanings of instructions alone, never by a step that chooses its slot; safe. -/
  | noTask
deriving DecidableEq, Repr

/-- Why an instruction has no meaning. -/
inductive Refusal where
  /-- The instruction's meaning is not written; raised by the dispatch alone; safe. -/
  | notModelled (mnemonic : String)
deriving DecidableEq, Repr

/-- The machine right after power-on reset: no partition enabled, every register at its reset value
(INVENTORY.md, State). -/
def State.reset : State where
  mem := []
  wr := []
  cores := []
  clusters := []
  parts := []
  ctxs := []
  saves := []
  lines := []
  net := []
  fabric := {}
  plat := {}
  time := 0
  corrected := 0
  alerts := []
  readout := []
  keysMade := 0
  curCore := 0
  curSlot := 1
  evs := 0
  free := 0
  agenda := []
  ticks := []

end Machine
end Sys2Proof
end

