-- ==== Sys2Proof/Machine/Ops.lean ====
section
/-! DEFINITION. The named operations over the state: records by number, bytes of memory, places, the fields of launch
records, messages and queues, the boundary of a step. -/

namespace Sys2Proof
namespace Machine

/-! ## Records by number -/

def State.core (s : State) (c : Nat) : Core := (Tbl.get? s.cores c).getD {}
def State.setCore (s : State) (c : Nat) (k : Core) : State := { s with cores := Tbl.set s.cores c k }
def State.modCore (s : State) (c : Nat) (f : Core → Core) : State := s.setCore c (f (s.core c))

def Core.slot (k : Core) (n : Nat) : Slot := (Tbl.get? k.slots n).getD {}
def Core.setSlot (k : Core) (n : Nat) (t : Slot) : Core := { k with slots := Tbl.set k.slots n t }

def State.slot (s : State) (c n : Nat) : Slot := (s.core c).slot n
def State.setSlot (s : State) (c n : Nat) (t : Slot) : State := s.setCore c ((s.core c).setSlot n t)
def State.modSlot (s : State) (c n : Nat) (f : Slot → Slot) : State := s.setSlot c n (f (s.slot c n))

/-- The slot whose instruction issues. -/
def State.cur (s : State) : Slot := s.slot s.curCore s.curSlot
def State.setCur (s : State) (t : Slot) : State := s.setSlot s.curCore s.curSlot t
def State.modCur (s : State) (f : Slot → Slot) : State := s.setCur (f s.cur)

def State.cluster (s : State) (c : Nat) : Cluster := (Tbl.get? s.clusters c).getD {}
def State.setCluster (s : State) (c : Nat) (k : Cluster) : State := { s with clusters := Tbl.set s.clusters c k }
def State.modCluster (s : State) (c : Nat) (f : Cluster → Cluster) : State := s.setCluster c (f (s.cluster c))

def State.part (s : State) (p : Nat) : Partition := (Tbl.get? s.parts p).getD {}
def State.setPart (s : State) (p : Nat) (k : Partition) : State := { s with parts := Tbl.set s.parts p k }
def State.modPart (s : State) (p : Nat) (f : Partition → Partition) : State := s.setPart p (f (s.part p))

def State.ctx (s : State) (x : Nat) : Ctx := (Tbl.get? s.ctxs x).getD {}
def State.setCtx (s : State) (x : Nat) (k : Ctx) : State := { s with ctxs := Tbl.set s.ctxs x k }
def State.modCtx (s : State) (x : Nat) (f : Ctx → Ctx) : State := s.setCtx x (f (s.ctx x))

def State.launch? (s : State) (l : LaunchId) : Option Launch :=
  if l.dev.isSome then none else Tbl.get? (s.ctx l.ctx).launches l.lid
def State.setLaunch (s : State) (l : LaunchId) (k : Launch) : State :=
  s.modCtx l.ctx fun x => { x with launches := Tbl.set x.launches l.lid k }
def State.modLaunch (s : State) (l : LaunchId) (f : Launch → Launch) : State :=
  match s.launch? l with
  | some k => s.setLaunch l (f k)
  | none => s

/-- A launch of another device, or of another context, with tasks here. -/
def State.guest? (s : State) (l : LaunchId) : Option Guest := s.fabric.guests.find? fun g => g.launch == l
def State.modGuest (s : State) (l : LaunchId) (f : Guest → Guest) : State :=
  { s with fabric := { s.fabric with guests := s.fabric.guests.map fun g => if g.launch = l then f g else g } }

def State.line (s : State) (a : Nat) : Line := (Tbl.get? s.lines a).getD {}
def State.setLine (s : State) (a : Nat) (k : Line) : State := { s with lines := Tbl.set s.lines a k }

def Cluster.course (k : Cluster) (n : Nat) : Course := (Tbl.get? k.courses n).getD {}
def Cluster.setCourse (k : Cluster) (n : Nat) (c : Course) : Cluster := { k with courses := Tbl.set k.courses n c }

def Partition.ring (k : Partition) (n : Nat) : Ring := (Tbl.get? k.tokens n).getD {}
def Partition.setRing (k : Partition) (n : Nat) (r : Ring) : Partition := { k with tokens := Tbl.set k.tokens n r }

/-- The next free value's number, and the counter advanced (log entry 1). -/
def State.nextFree (s : State) : Nat × State := (s.free, { s with free := s.free + 1 })

/-! ## Memory of the device -/

/-- The byte of memory at a device physical address, as the step under way has left it. -/
def State.rdByte (s : State) (a : Nat) : Byte :=
  match s.wr.find? (fun e => e.1 == a) with
  | some e => e.2
  | none => Memory.read s.mem a

/-- `n` bytes of memory from an address. -/
def State.rdBytes (s : State) (a n : Nat) : List Byte := (upto n).map fun k => s.rdByte (a + k)

/-- A byte of memory written. -/
def State.wrByte (s : State) (a : Nat) (v : Byte) : State := { s with wr := (a, v) :: s.wr }

/-- Bytes written from an address on. -/
def State.wrBytes (s : State) (a : Nat) (bs : List Byte) : State :=
  (bs.zipIdx).foldl (fun s e => s.wrByte (a + e.2) e.1) s

/-- The bytes that a step wrote enter memory: the one place where memory changes. -/
def State.settleMem (s : State) : State := { s with mem := Memory.writeAll s.mem s.wr, wr := [] }

/-- An operation of the device as one step: it leaves the platform of bring-up as it is, and memory changes by the bytes
it wrote and by nothing else. -/
def State.perform (f : State → State) (s : State) : State :=
  let t := f { s with wr := [] }
  State.settleMem { t with mem := s.mem, plat := s.plat }

/-- An operation of the keystone core or of power management as one step: it changes the platform alone. -/
def State.performPlat (f : Platform → Platform) (s : State) : State := { s with plat := f s.plat }

/-! ## Places (03 R38, 04 R75, 06 R96) -/

/-- Cluster and index of a core; column and row of a cluster. -/
def clusterOf (c : Nat) : Nat := c / 16
def indexOf (c : Nat) : Nat := c % 16
def clX (k : Nat) : Nat := k % 16
def clY (k : Nat) : Nat := k / 16
def coreAt (x y c : Nat) : Nat := 16 * (16 * y + x) + c
def clusterAt (x y : Nat) : Nat := 16 * y + x

/-- The island of a cluster, and the cores of an island (log entry 10). -/
def islandOf (k : Nat) : Nat := 16 * (clX k / 8 + 2 * (clY k / 8)) + 4 * (clY k % 8 / 2) + clX k % 8 / 2

/-- A change of frequency stops issue in a core's island (25_bring_up.md R354). -/
def State.islandStopped (s : State) (c : Nat) : Bool := decide (s.time < Tbl.find 0 s.plat.islandStop (islandOf (clusterOf c)))

/-- The partition holds the cluster. -/
def Partition.holds (p : Partition) (k : Nat) : Bool :=
  p.en && decide (p.px ≤ clX k) && decide (clX k ≤ p.px + p.pw) && decide (p.py ≤ clY k) && decide (clY k ≤ p.py + p.ph)

/-- The partition of a cluster. -/
def State.partOf? (s : State) (k : Nat) : Option Nat :=
  (s.parts.find? fun e => e.2.holds k).map (·.1)

/-- The partition of a core. -/
def State.corePart? (s : State) (c : Nat) : Option Nat := s.partOf? (clusterOf c)

/-- The clusters of a partition, in row-major order. -/
def Partition.clusters (p : Partition) : List Nat :=
  if p.en then
    (upto (p.ph + 1)).flatMap fun dy => (upto (p.pw + 1)).map fun dx => clusterAt (p.px + dx) (p.py + dy)
  else []

/-- The nine cores of a cluster. -/
def coresOf (k : Nat) : List Nat := (upto 9).map fun c => 16 * k + c

/-- The cores of a partition. -/
def Partition.cores (p : Partition) : List Nat := p.clusters.flatMap coresOf

/-- The supervisor core of a partition: home core of its cluster (0,0) (R96). -/
def Partition.supCore (p : Partition) : Nat := coreAt p.px p.py 8

/-- Privileged() of R21: true only in the supervisor slot. -/
def State.privileged (s : State) (c n : Nat) : Bool :=
  match s.corePart? c with
  | some p => decide (n = 7) && decide (c = (s.part p).supCore)
  | none => false

/-- The partition whose resident context is given. -/
def State.residentIn? (s : State) (ctx : Nat) : Option Nat :=
  (s.parts.find? fun e => e.2.en && e.2.resident && e.2.ctx == ctx).map (·.1)

/-- Slots 1 to 7. -/
def taskSlots : List Nat := [1, 2, 3, 4, 5, 6, 7]

/-! ## Launch records (02 R23 to R25) -/

namespace Rec

def version (r : BitVec 1024) : Nat := field r 7 0
def rank (r : BitVec 1024) : Nat := field r 9 8
def lin (r : BitVec 1024) : Nat := field r 10 10
def fuse (r : BitVec 1024) : Bool := bitAt r 11
def pair (r : BitVec 1024) : Bool := bitAt r 12
def eager (r : BitVec 1024) : Bool := bitAt r 13
def prio (r : BitVec 1024) : Nat := field r 15 14
def reduce (r : BitVec 1024) : Nat := field r 18 16
def stages (r : BitVec 1024) : Nat := field r 22 19 + 1
def ext (r : BitVec 1024) (d : Nat) : Nat := field r (95 + 32 * d) (64 + 32 * d)
def tile (r : BitVec 1024) (d : Nat) : Nat := field r (207 + 16 * d) (192 + 16 * d)
def gx (r : BitVec 1024) : Nat := field r 259 256
def gy (r : BitVec 1024) : Nat := field r 263 260
def gw (r : BitVec 1024) : Nat := field r 267 264
def gh (r : BitVec 1024) : Nat := field r 271 268
def cores (r : BitVec 1024) : Nat := field r 280 272
def l1 (r : BitVec 1024) : Nat := field r 290 288
def cls (r : BitVec 1024) : Nat := field r 309 304
def image (r : BitVec 1024) : Nat := field r 383 320
def args (r : BitVec 1024) : Nat := field r 447 384
def fmt (r : BitVec 1024) : Nat := field r 511 448
def scla (r : BitVec 1024) : Nat := field r 575 512
def sclb (r : BitVec 1024) : Nat := field r 639 576
def wait0 (r : BitVec 1024) : Nat := field r 671 640
def wait1 (r : BitVec 1024) : Nat := field r 703 672
def signal (r : BitVec 1024) : Nat := field r 735 704
def trigger (r : BitVec 1024) : Nat := field r 737 736
def budget (r : BitVec 1024) : Nat := field r 767 752
def check (r : BitVec 1024) : Nat := field r 991 960

/-- Tiles of dimension `d`: n[d] of R24. -/
def tiles (r : BitVec 1024) (d : Nat) : Nat :=
  if d ≤ rank r then ceilDiv (ext r d) (tile r d) else 1

/-- Padded tile count p[d] of R24. -/
def padded (r : BitVec 1024) (d : Nat) : Nat := powerAbove (tiles r d)

/-- T of R24. -/
def total (r : BitVec 1024) : Nat :=
  if lin r = 0 then tiles r 0 * tiles r 1 * tiles r 2 * tiles r 3
  else padded r 0 * padded r 1 * padded r 2 * padded r 3

/-- The bit places of the Morton index, from bit 0 of the index up: dimension and bit (R24). -/
def mortonBits (r : BitVec 1024) : List (Nat × Nat) :=
  (upto 32).flatMap fun j => ([0, 1, 2, 3].filter fun d => decide (2 ^ j < padded r d)).map fun d => (d, j)

/-- TileCoord(i) of R24: coordinate `d` of the tile with linear index `i`. -/
def coord (r : BitVec 1024) (i d : Nat) : Nat :=
  if lin r = 0 then
    match d with
    | 0 => i % tiles r 0
    | 1 => i / tiles r 0 % tiles r 1
    | 2 => i / (tiles r 0 * tiles r 1) % tiles r 2
    | _ => i / (tiles r 0 * tiles r 1 * tiles r 2)
  else
    ((mortonBits r).zipIdx.filter fun e => e.1.1 == d).foldl (fun t e => t + i / 2 ^ e.2 % 2 * 2 ^ e.1.2) 0

/-- InSpace of R24, of a linear index. -/
def inSpace (r : BitVec 1024) (i : Nat) : Bool :=
  [0, 1, 2, 3].all fun d => decide (coord r i d < tiles r d)

/-- Stage of gang column `dx` = x − GX (R25). -/
def stageOf (r : BitVec 1024) (dx : Nat) : Nat :=
  ((upto (stages r)).filter fun k => decide (k * (gw r + 1) / stages r ≤ dx)).getLastD 0

end Rec

/-- Gang clusters of a launch, in row-major order of relative coordinates, in package coordinates (R25). -/
def gangClusters (p : Partition) (r : BitVec 1024) : List Nat :=
  (upto (Rec.gh r + 1)).flatMap fun dy =>
    (upto (Rec.gw r + 1)).map fun dx => clusterAt (p.px + Rec.gx r + dx) (p.py + Rec.gy r + dy)

/-- Mirror clusters under PAIR = 1 (R25). -/
def mirrorClusters (p : Partition) (r : BitVec 1024) : List Nat :=
  if Rec.pair r then (gangClusters p r).map (· + 8) else []

/-- Cores of a cluster that a core mask selects. -/
def maskCores (r : BitVec 1024) (k : Nat) : List Nat :=
  ((upto 9).filter fun c => decide (Rec.cores r / 2 ^ c % 2 = 1)).map fun c => 16 * k + c

/-- Gang cores of a launch. -/
def gangCores (p : Partition) (r : BitVec 1024) : List Nat := (gangClusters p r).flatMap (maskCores r)

/-- Gang cores and mirror cores (R46, R336). -/
def occupied (p : Partition) (r : BitVec 1024) : List Nat :=
  (gangClusters p r ++ mirrorClusters p r).flatMap (maskCores r)

/-- Rank of a gang core (R54); a mirror core has the rank of the core it mirrors. -/
def rankOf (p : Partition) (r : BitVec 1024) (c : Nat) : Nat :=
  let k := clusterOf c
  let dx := clX k - (p.px + Rec.gx r)
  let ddx := if Rec.pair r && decide (8 ≤ dx) then dx - 8 else dx
  let dy := clY k - (p.py + Rec.gy r)
  (dy * (Rec.gw r + 1) + ddx) * popc 9 (Rec.cores r) + popc (indexOf c) (Rec.cores r % 2 ^ indexOf c)

/-- Number of gang cores (R54). -/
def gangSize (r : BitVec 1024) : Nat := (Rec.gw r + 1) * (Rec.gh r + 1) * popc 9 (Rec.cores r)

/-- The launch of a task. -/
def Slot.launch (t : Slot) : Option LaunchId := t.msg.bind (·.launch)

/-! ## Which slot issues (06 R99) -/

/-- The slot's next instruction may issue: none of the waits that an event ends holds it. A wait for an order of writes, and one
for another device whose answer has not been asked for, is looked at again at every turn. -/
def Slot.ready (t : Slot) : Bool :=
  t.running && (t.follow.isNone || !t.stream.isEmpty) && match t.wait with
    | .none => true
    | .order => true
    | .handing _ => true
    | .refused _ => true
    | .remote ea n => !t.asked.any fun a => a.ea == ea && a.n == n
    | _ => false

/-- A slot of a core is ready; the service slot is while it has a service message. -/
def Core.slotReady (k : Core) (n : Nat) : Bool :=
  !k.tried.contains n && if n = 0 then k.serving.isSome else (k.slot n).ready

/-- The slots of a core, from the one that follows the last issuer; slot 0 is included. -/
def Core.turns (k : Core) : List Nat := (upto 8).map fun j => (k.last + 1 + j) % 8

/-- The core has not issued in this cycle of its island, and is not halted. -/
def Core.mayIssue (k : Core) : Bool := !k.halted && decide (k.next ≤ k.clock)

/-- The ready slot of a core whose turn it is. -/
def Core.turn? (k : Core) : Option Nat := if k.mayIssue then k.turns.find? k.slotReady else none

/-- It is the turn of a slot whose wait has just ended. -/
def Core.turnOf (k : Core) (n : Nat) : Bool := k.mayIssue && (k.turns.find? fun m => m == n || k.slotReady m) == some n

/-- The ready slot of a core whose turn it is, unless its island is stopped. -/
def State.turnAt? (s : State) (c : Nat) : Option Nat := if s.islandStopped c then none else (s.core c).turn?

/-- A core runs nothing: it is halted, and by no fault storm, in which slot 0 performs what was drained (22_interruption.md R322). -/
def State.stopped (s : State) (c : Nat) : Bool :=
  (s.core c).halted && !(match s.corePart? c with | some p => (s.part p).storm | none => false)

/-- A slot has issued its instruction in this cycle. -/
def Core.issued (k : Core) (n : Nat) : Core := { k with last := n, next := k.clock + 1, tried := [] }

/-- A slot's instruction was found not ready in this cycle. -/
def Core.notReady (k : Core) (n : Nat) : Core := { k with tried := n :: k.tried }

/-- The launch record of a launch. -/
def State.rcd? (s : State) (l : Option LaunchId) : Option (BitVec 1024) :=
  l.bind fun l => (s.launch? l).map (·.rcd)

/-- The record of a launch, on whichever device it was accepted (03 R47): of another's, as its messages brought it. -/
def State.rcdAny? (s : State) (l : Option LaunchId) : Option (BitVec 1024) :=
  (s.rcd? l).orElse fun _ => l.bind fun l => (s.guest? l).bind (·.rcd)

/-- REDUCE of a launch (02_describing_work.md R27); 0 when there is none. -/
def State.reduceOf (s : State) (l : Option LaunchId) : Nat := ((s.rcdAny? l).map Rec.reduce).getD 0

/-- The paired launch whose image the core holds, with the partition (24 R335, R336). -/
def State.pairOf? (s : State) (c : Nat) : Option (Launch × Partition) :=
  match (s.core c).image with
  | none => none
  | some i =>
    match s.launch? i, s.residentIn? i.ctx with
    | some k, some p => if Rec.pair k.rcd && k.stage != .done then some (k, s.part p) else none
    | _, _ => none

/-- The core is a mirror core: the core it mirrors (R60, R335). -/
def State.primaryOf? (s : State) (c : Nat) : Option Nat :=
  match s.pairOf? c with
  | some (k, p) =>
    if (mirrorClusters p k.rcd).contains (clusterOf c) && (maskCores k.rcd (clusterOf c)).contains c then some (c - 128)
    else none
  | none => none

/-- The mirror of a primary core of a pair. -/
def State.mirrorOf? (s : State) (c : Nat) : Option Nat :=
  match s.pairOf? c with
  | some (k, p) => if (gangCores p k.rcd).contains c then some (c + 128) else none
  | none => none

/-- The core of the other task of a pair. -/
def State.partnerOf? (s : State) (c : Nat) : Option Nat := (s.mirrorOf? c).orElse fun _ => s.primaryOf? c

/-! ## The memory plane's slots (24 R344) -/

/-- The slot table with the writes that wait for the frame's end. -/
def Fabric.slotsWritten (f : Fabric) : Tbl Byte := f.slotPending.foldl (fun m e => Tbl.put 0 m e.1 e.2) f.slotTable

/-- The slot table's entry for the present cycle of the frame of 256; a write takes effect at the next frame's start. -/
def State.slotNow (s : State) : Byte :=
  let f := s.fabric
  Tbl.find 0 (if f.frames < s.time / 256 then f.slotsWritten else f.slotTable) (s.time % 256)

/-- In this cycle requests of a partition enter the memory plane: its own slot, or with BORROW one that is invalid or idle. -/
def State.planeOpen (s : State) (p : Nat) : Bool :=
  let e := s.slotNow
  let q := field e 5 0
  (bitAt e 7 && q == p) || (bitAt (s.part p).qos 24 && (!bitAt e 7 || Config.slotIdle s.time q))

/-- In this cycle a core's traffic to the I/O dies enters the memory plane (20_fabric.md R289). -/
def State.coreOpen (s : State) (c : Nat) : Bool := match s.corePart? c with | some p => s.planeOpen p | none => true

/-- A place of partition memory whose partition sends nothing over the memory plane in this cycle. -/
def State.planeShut (s : State) : Loc → Bool
  | .hbm p _ _ _ => !s.planeOpen p
  | .unmapped p _ _ => !s.planeOpen p
  | _ => false

/-! ## SELF and place words (04 R75, 08 R145) -/

/-- A kind-0 place word of a core of a partition: relative cluster, device field 0. -/
def placeOf (p : Partition) (c : Nat) : W64 :=
  w64 (indexOf c + 256 * (clX (clusterOf c) - p.px) + 4096 * (clY (clusterOf c) - p.py))

/-- The kind-0 place word of a core, or of a core outside every partition (R75 case 2). -/
def State.placeWord (s : State) (c : Nat) : W64 :=
  match s.corePart? c with
  | some p => placeOf (s.part p) c
  | none => w64 (indexOf c)

/-- DEV of SELF: the device id as it stood when the core's image was released, else when the context became resident; a core
outside every partition has the device's own (R75 case 3). -/
def State.devOf (s : State) (c : Nat) : Nat :=
  match (s.core c).selfDev, s.corePart? c with
  | some d, _ => d
  | none, some p => (s.part p).selfDev
  | none, none => s.fabric.devId

/-- SELF of R75 for a task of a launch on a core. -/
def State.selfOf (s : State) (c : Nat) (l : Option LaunchId) : W64 :=
  let me := (s.primaryOf? c).getD c
  let dev := w64 (s.devOf c % 2 ^ 18 * 2 ^ 20)
  match s.corePart? c, s.rcd? l with
  | some p, some r =>
    let inGang := (gangClusters (s.part p) r).contains (clusterOf me)
    let dx := clX (clusterOf me) - ((s.part p).px + Rec.gx r)
    let stage := if inGang then Rec.stageOf r dx else 0
    dev ||| w64 (65536 * stage) ||| placeOf (s.part p) me
  | some p, none => dev ||| placeOf (s.part p) me
  | none, _ => dev ||| w64 (indexOf c)

/-- Fields of a place word. -/
def plKind (w : W64) : Nat := field w 7 4
def plCore (w : W64) : Nat := field w 3 0
def plX (w : W64) : Nat := field w 11 8
def plY (w : W64) : Nat := field w 15 12
def plStage (w : W64) : Nat := field w 19 16
def plDev (w : W64) : Nat := field w 37 20

/-! ## Run queue and inbox (06 R97, R98, R110) -/

/-- A message enters behind every message of its level and above. -/
def enqueue (q : List QMsg) (m : QMsg) : List QMsg :=
  q.filter (fun x => decide (m.msg.prio ≤ x.msg.prio)) ++ m :: q.filter (fun x => decide (x.msg.prio < m.msg.prio))

/-- A message enters at the head of its level. -/
def enqueueHead (q : List QMsg) (m : QMsg) : List QMsg :=
  q.filter (fun x => decide (m.msg.prio < x.msg.prio)) ++ m :: q.filter (fun x => decide (x.msg.prio ≤ m.msg.prio))

/-- Bytes of an inbox entry: descriptor, code and payload, each padded to 16 (R110). -/
def entryLen (m : Msg) : Nat :=
  64 + 16 * ceilDiv (2 * m.code.length) 16 + 16 * ceilDiv m.payload.length 16

/-- The offset where the oldest unreclaimed entry begins; the head when the ring is empty. -/
def Core.inTail (k : Core) : Nat :=
  match k.inbox with
  | [] => k.inHead
  | e :: _ => e.off

/-- Room in the ring from the head on, before wrapping and after it. -/
def Core.inRoom (k : Core) : Nat × Nat :=
  if k.inbox.isEmpty then (32768 - k.inHead, k.inHead)
  else if k.inTail < k.inHead then (32768 - k.inHead, k.inTail)
  else (k.inTail - k.inHead, 0)

/-- Places an entry of `len` bytes in the ring, with the pad that R110 case 1 asks for, or finds no room. -/
def Core.inPlace (k : Core) (len : Nat) (m : Option Msg) : Option (Core × Nat) :=
  let room := k.inRoom
  if len ≤ room.1 then
    some ({ k with inbox := k.inbox ++ [⟨k.inHead, len, false, false, m⟩], inHead := (k.inHead + len) % 32768 }, k.inHead)
  else if len ≤ room.2 then
    let pad := if 64 ≤ room.1 then [⟨k.inHead, room.1, true, true, none⟩] else []
    some ({ k with inbox := k.inbox ++ pad ++ [⟨0, len, false, false, m⟩], inHead := len % 32768 }, 0)
  else none

/-- Reclaims freed entries from the tail in ring order (R110 case 3). -/
def dropFreed : List InboxEnt → List InboxEnt
  | [] => []
  | e :: r => if e.freed then dropFreed r else e :: r

/-- Frees the entry at an offset. -/
def Core.inFree (k : Core) (off : Nat) : Core :=
  { k with inbox := dropFreed (k.inbox.map fun e => if e.off == off && !e.pad then { e with freed := true } else e) }

/-- The KIND code of a descriptor (08 R144). -/
def kindCode : MsgKind → Nat
  | .pad => 0
  | .byClass => 1
  | .byAddress => 2
  | .carried => 3
  | .spawn => 4
  | .bounce => 5
  | .rdxData => 6
  | .faultRecord => 7
  | .service => 8

/-- The descriptor word of bits [191:128] (R144, R149), with a REFUSE code. -/
def descWord (m : Msg) (refuse : Nat) : W64 :=
  w64 (m.handler % 65536 * 2 ^ 48 + m.defer % 65536 * 2 ^ 32 + m.bclass % 64 * 2 ^ 26 + m.prio % 4 * 2 ^ 24
    + kindCode m.kind * 2 ^ 20 + refuse % 16 * 2 ^ 16 + m.spart % 64)

/-- The 64 bytes of a descriptor (R144). -/
def descBytes (m : Msg) : List Byte :=
  leBytes 8 m.target.toNat ++ leBytes 8 m.source.toNat ++ leBytes 8 (descWord m m.refuse).toNat
    ++ leBytes 8 (m.code.length + 256 * m.payload.length + 2 ^ 32 * m.msgid.toNat)
    ++ leBytes 8 m.args.a.toNat ++ leBytes 8 m.args.b.toNat ++ leBytes 8 m.args.c.toNat ++ leBytes 8 m.args.d.toNat

/-- The bytes of an inbox entry. -/
def entryBytes (e : InboxEnt) : List Byte :=
  match e.msg with
  | none => leBytes 24 0 ++ leBytes 8 e.len ++ leBytes 32 0
  | some m =>
    let code := m.code.flatMap fun h => leBytes 2 h.toNat
    descBytes m ++ code ++ leBytes (16 * ceilDiv code.length 16 - code.length) 0 ++ m.payload
      ++ leBytes (16 * ceilDiv m.payload.length 16 - m.payload.length) 0

/-- A byte of the inbox ring as the core window shows it (13 R227). DESIGN CHOICE (log entry 4): the bytes of a reclaimed entry, for
which R110 states nothing, read as 0. -/
def Core.inByte (k : Core) (a : Nat) : Byte :=
  match k.inbox.find? fun e => decide (e.off ≤ a ∧ a < e.off + e.len) with
  | some e => (entryBytes e).getD (a - e.off) 0
  | none => 0

/-- The task messages of the run queue leave 56 entries and the inbox room: a message is accepted at a count of TIME (R97, R110
case 2). The messages that traps returned to a full queue are counted too (log entry 12). -/
def Core.accept (k : Core) (m : Msg) (time : Nat) : Except Nat Core :=
  match k.inPlace (entryLen m) (some m) with
  | none => .error 1
  | some (k', off) => if 56 ≤ k.runq.length then .error 2 else .ok { k' with runq := enqueue k'.runq ⟨m, off, some time⟩ }

/-- The next message id of the core's series (08 R148). -/
def Core.nextMsgId (k : Core) : W32 × Core := (BitVec.ofNat 32 k.msgCount, { k with msgCount := (k.msgCount + 1) % 2 ^ 32 })

/-- A class message that the device starts on a core (17 R276 case 5, 06 R358). -/
def classMsg (place : W64) (spart : Nat) (cls prio : Nat) (q : Quad) (payload : List Byte)
    (l : Option LaunchId) (comp : Option Completion) : Msg where
  kind := .byClass
  target := place
  source := place
  spart := spart
  msgid := 0
  handler := cls
  bclass := 0
  defer := 0
  prio := prio
  refuse := 0
  args := q
  payload := payload
  code := []
  launch := l
  comp := comp
  held := false
  retried := false
  tcause := 0
  taddr := 0
  tie := .none

/-! ## Size of local memories (13 R228) -/

/-- Scratchpad bytes of a core: 256 KiB less 32 KiB for each step of the L1 code; a home core has 96 KiB. -/
def State.spadSize (s : State) (c : Nat) : Nat :=
  if indexOf c = 8 then 98304 else 262144 - 32768 * (s.core c).l1code

/-- Lines that an L1 portion holds. -/
def State.l1Lines (s : State) (c : Nat) : Nat :=
  if indexOf c = 8 then 256 else 256 * (s.core c).l1code

/-- Bytes of a scratchpad. -/
def Core.spadBytes (k : Core) (a n : Nat) : List Byte := (upto n).map fun i => Tbl.find 0 k.spad (a + i)

/-- Bytes written into a scratchpad. -/
def Core.spadWrite (k : Core) (a : Nat) (bs : List Byte) : Core :=
  { k with spad := bs.zipIdx.foldl (fun m e => Tbl.put 0 m (a + e.2) e.1) k.spad }

/-- A nibble-masked byte merged into the byte that stands there (08 R143). -/
def mergeNib (b : NibByte) (old : Byte) : Byte :=
  (if b.lo then b.val &&& 0x0F#8 else old &&& 0x0F#8) ||| (if b.hi then b.val &&& 0xF0#8 else old &&& 0xF0#8)

/-- Nibble-masked bytes merged into a scratchpad. -/
def Core.spadMerge (k : Core) (a : Nat) (bs : List NibByte) : Core :=
  { k with spad := bs.foldl (fun m b => Tbl.put 0 m (a + b.pos) (mergeNib b (Tbl.find 0 m (a + b.pos)))) k.spad }

/-- Some byte of the store writes only half of its byte. -/
def hasNibble (bs : List NibByte) : Bool := bs.any fun b => b.lo != b.hi

/-- Full bytes as nibble-masked bytes. -/
def fullBytes (bs : List Byte) : List NibByte := bs.zipIdx.map fun e => ⟨e.2, e.1, true, true⟩

/-! ## Walkers (04 R61) -/

/-- TAKEN bit of the index `j` of a walker whose end is `hi`: passed over when it is not in the space (R61). -/
def windowBit (r : BitVec 1024) (hi j : Nat) : Bool := decide (hi ≤ j) || !Rec.inSpace r j

/-- Slide(w) of R61, with at most `fuel` steps. -/
def slide (r : BitVec 1024) : Nat → Walker → Walker
  | 0, w => w
  | fuel + 1, w =>
    if w.lo < w.hi ∧ w.taken.getLsbD 0 then
      slide r fuel { w with
        lo := w.lo + 1
        taken := (w.taken >>> 1) ||| (if windowBit r w.hi (w.lo + 8) then 0x80#8 else 0#8) }
    else if w.lo = w.hi then { w with taken := 0xFF#8 } else w

/-- A window loaded by the rule of R61, then slid. -/
def loadWindow (r : BitVec 1024) (w : Walker) : Walker :=
  slide r (w.hi - w.lo + 1)
    { w with taken := (upto 8).foldl (fun b k => if windowBit r w.hi (w.lo + k) then b ||| (1#8 <<< k) else b) 0#8 }

/-- Dry(w) of R61. -/
def Walker.dry (w : Walker) : Bool := decide (w.lo = w.hi) && w.ret.isEmpty

/-- The walker that a launch holds in a cluster, with its place in the CNI (R58). -/
def State.walkerOf? (s : State) (l : Option LaunchId) (k : Nat) : Option (Nat × Walker) :=
  match l with
  | none => none
  | some i => (s.cluster k).walkers.find? fun e => e.2.launch == some i

def State.setWalker (s : State) (k n : Nat) (w : Walker) : State :=
  s.modCluster k fun c => { c with walkers := Tbl.set c.walkers n w }

/-- An index appended to its walker's return list (R65). -/
def State.returnTile (s : State) (k n idx : Nat) : State :=
  match Tbl.get? (s.cluster k).walkers n with
  | some w => s.setWalker k n { w with ret := w.ret ++ [idx] }
  | none => s

/-- The management cores run. -/
def BootStage.up : BootStage → Bool
  | .stage1 => true
  | .stage2 => true
  | .stage3 => true
  | .running => true
  | .off => false
  | .verifying => false
  | .recovery => false

/-- The front end, the partition manager and the fabric manager run (25_bring_up.md R347, R350). -/
def State.managed (s : State) : Bool := s.plat.stage.up

end Machine
end Sys2Proof
end

