-- ==== Sys2Proof/Machine/Buffer.lean ====
section
/-! DEFINITION. How an instruction stops short of its effect, and the commit buffer: sectors, guarantee and pool,
forwarding (06_issuing.md R107 to R109). -/

namespace Sys2Proof
namespace Machine

/-! ## Causes (06 R106, 22 R315) -/

namespace Cause
def illegal : Nat := 1
def lookahead : Nat := 2
def format : Nat := 3
def budget : Nat := 4
def cbfull : Nat := 5
def engq : Nat := 6
def align : Nat := 7
def translate : Nat := 8
def permission : Nat := 9
def signature : Nat := 10
def pair : Nat := 11
def ringlen : Nat := 12
def overdelivery : Nat := 13
def coursephase : Nat := 14
def containment : Nat := 15
def ecc : Nat := 16
def breakpoint : Nat := 17
def trap : Nat := 18
def lost : Nat := 19
end Cause

/-- Why an instruction does not take its effect now: a precise trap, or a wait, in which the
instruction has no effect and issues again later. A trap without an address has the instruction's bits as TADDR (R357). -/
inductive Stop where
  | trap (cause : Nat) (addr : Option W64)
  | trapCode (code : Nat)
  | hold (w : Wait)
  /-- A wait that leaves the instruction's effect so far: its drain has handed the entries on. -/
  | handed (s : State) (w : Wait)
deriving DecidableEq, Repr

/-- What follows an instruction that took its effect. -/
inductive Next where
  /-- The next instruction. -/
  | seq
  /-- A taken transfer. -/
  | jump (pc : Pc)
  /-- LOOP with a count of 0 passes over its body; no taken transfer (R121). -/
  | over (off : Nat)
  /-- The task has ended. -/
  | ended
deriving DecidableEq, Repr

/-- The effect of an instruction on the state. -/
abbrev Effect := Except Stop (State × Next)

/-- A trap whose TADDR is the instruction's bits. -/
def trapBits {α : Type} (cause : Nat) : Except Stop α := .error (.trap cause none)

/-- A trap with an address. -/
def trapAt {α : Type} (cause : Nat) (a : W64) : Except Stop α := .error (.trap cause (some a))

/-- Traps unless the condition holds. -/
def require (b : Bool) (e : Except Stop Unit) : Except Stop Unit := if b then .ok () else e

/-! ## Sectors (R107) -/

/-- A number for every byte of every space, so that two accesses to one byte have one number: memory by guest physical
address, so that a page that moves keeps its numbers. -/
def locKey : Loc → Nat
  | .hbm part _ _ gpa => 2 ^ 100 + part * 2 ^ 64 + gpa
  | .spad core off => 2 ^ 101 + core * 2 ^ 32 + off
  | .imem core off => 2 ^ 102 + core * 2 ^ 32 + off
  | .inbox core off => 2 ^ 103 + core * 2 ^ 32 + off
  | .status core chan => 2 ^ 104 + core * 2 ^ 32 + 8 * chan
  | .peer dev part addr _ => 2 ^ 105 + (dev * 64 + part) * 2 ^ 64 + addr
  | .stream num off => 2 ^ 106 + num * 2 ^ 32 + off
  | .unmapped part gva _ => 2 ^ 107 + part * 2 ^ 64 + gva

/-- The same place, `k` bytes on. -/
def Loc.add : Loc → Nat → Loc
  | .hbm part phys gva gpa, k => .hbm part (phys + k) (gva + k) (gpa + k)
  | .spad core off, k => .spad core (off + k)
  | .imem core off, k => .imem core (off + k)
  | .inbox core off, k => .inbox core (off + k)
  | .status core chan, _ => .status core chan
  | .peer dev part addr dom, k => .peer dev part (addr + k) dom
  | .stream num off, k => .stream num (off + k)
  | .unmapped part gva gpa, k => .unmapped part (gva + k) gpa

/-- The sectors a store touches. -/
def storeSectors (e : Entry) : List Nat :=
  match e.act with
  | .store bs => (bs.map fun b => (locKey e.loc + b.pos) / 16).dedup
  | _ => []

/-- Sectors of an entry that is no store. -/
def otherSectors (e : Entry) : Nat :=
  match e.act with
  | .store _ => 0
  | .amop _ _ _ => 1
  | .red _ _ _ => 1
  | .amo _ _ _ _ _ => 0
  | .fence => 0
  | .clean => 0
  | .send m _ => 4 + ceilDiv (m.payload.length + 2 * m.code.length) 16
  | .rdx _ _ _ => 2
  | .spawn _ _ _ => 0
  | .launch _ _ _ _ _ => 2
  | .trig => 1
  | .mxRelease _ => 1
  | .cpRelease _ => 1
  | .tile _ _ _ => 1
  | .arrive _ _ _ _ => 1
  | .cexp _ _ _ _ => 1
  | .cjoin _ => 1
  | .cquit _ => 1
  | .tkrq _ _ _ _ => 1
  | .tkps _ _ _ => 1
  | .trmc _ _ => 2
  | .trrd _ _ _ _ => 1

/-- TSECT: sectors that a task's entries hold. -/
def sectors (buf : List Entry) : Nat :=
  (buf.flatMap storeSectors).dedup.length + (buf.map otherSectors).sum

/-- TILES: tile entries held. -/
def tiles (buf : List Entry) : Nat :=
  (buf.filter fun e => match e.act with | .tile _ _ _ => true | _ => false).length

/-- CSECT: sectors in use in the core's buffer. -/
def coreSectors (k : Core) : Nat := (k.slots.map fun e => sectors e.2.buf).sum

/-- Pool sectors that a task holds beyond its guarantee of 64. -/
def poolShare (buf : List Entry) : Nat := sectors buf - 64

/-- Pool sectors in use on a core. -/
def poolUsed (k : Core) : Nat := (k.slots.map fun e => poolShare e.2.buf).sum

/-- The buffer may grow to `buf'`: no more than 256 sectors and 8 tile entries, else CBFULL; a sector beyond the guarantee
waits while the pool is empty (R107 cases 1 and 2). DESIGN CHOICE (log entry 12): a pool that holds fewer sectors than the instruction
needs counts as empty for it, for R107 names no case between. -/
def growBuffer (s : State) (buf' : List Entry) : Except Stop State :=
  let t := s.cur
  if 256 < sectors buf' ∨ 8 < tiles buf' then trapBits Cause.cbfull
  else if poolShare t.buf < poolShare buf' ∧ 576 < poolUsed (s.core s.curCore) - poolShare t.buf + poolShare buf' then
    .error (.hold (.pool (poolShare buf' - poolShare t.buf)))
  else .ok (s.modCur fun t => { t with buf := buf' })

/-- The next request number of a core, and the core with it taken. -/
def State.nextReq (s : State) (c : Nat) : Nat × State :=
  ((s.core c).reqs, s.modCore c fun k => { k with reqs := k.reqs + 1 })

/-- An entry of the current task. -/
def newEntry (s : State) (id : Nat) (ea : W64) (loc : Loc) (order : Order) (scope : Scope) (act : Act) : Entry :=
  let t := s.cur
  { id := id, slot := s.curSlot, task := t.task, msgid := t.msgid, launch := t.launch,
    prio := (t.msg.map (·.prio)).getD 0, ea := ea, loc := loc, order := order, scope := scope, act := act, drain := t.drains }

/-- Puts an entry at the end of the current task's buffer. -/
def addEntry (s : State) (ea : W64) (loc : Loc) (order : Order) (scope : Scope) (act : Act) : Except Stop State :=
  let (id, s1) := s.nextReq s.curCore
  growBuffer s1 (s1.cur.buf ++ [newEntry s1 id ea loc order scope act])

/-! ## Forwarding (R108) -/

/-- The nibble-masked byte that an entry stores at a byte number. -/
def storeByte? (e : Entry) (key : Nat) : Option NibByte :=
  match e.act with
  | .store bs => (bs.reverse.find? fun b => locKey e.loc + b.pos == key)
  | _ => none

/-- A byte as the task sees it: its buffered stores over what memory holds. -/
def forwardByte (buf : List Entry) (key : Nat) (mem : Byte) : Byte :=
  buf.foldl (fun v e => match storeByte? e key with | some b => mergeNib b v | none => v) mem

/-- Bytes as the task sees them. -/
def forward (buf : List Entry) (loc : Loc) (bs : List Byte) : List Byte :=
  bs.zipIdx.map fun e => forwardByte buf (locKey loc + e.2) e.1

/-- The entry writes some byte of a range. -/
def writesIn (e : Entry) (key n : Nat) : Bool :=
  match e.act with
  | .store bs => bs.any fun b => decide (key ≤ locKey e.loc + b.pos ∧ locKey e.loc + b.pos < key + n)
  | .amop _ size _ => decide (locKey e.loc < key + n ∧ key < locKey e.loc + size)
  | .red _ size _ => decide (locKey e.loc < key + n ∧ key < locKey e.loc + size)
  | .amo _ size _ _ _ => decide (locKey e.loc < key + n ∧ key < locKey e.loc + size)
  | _ => false

/-- The entry writes memory. -/
def Entry.writes (e : Entry) : Bool :=
  match e.act with
  | .store _ => true
  | .amop _ _ _ => true
  | .red _ _ _ => true
  | .amo _ _ _ _ _ => true
  | _ => false

/-- The entry is a send of a message. -/
def Entry.sends (e : Entry) : Bool :=
  match e.act with
  | .send _ _ => true
  | .rdx _ _ _ => true
  | .spawn _ _ _ => true
  | _ => false

/-- A place by its guest virtual address, when the place that it is compared with has no other. -/
def Loc.beside (loc other : Loc) : Loc :=
  match loc, other with
  | .hbm p _ gva gpa, .unmapped _ _ _ => .unmapped p gva gpa
  | _, _ => loc

/-- The entry as it lies beside a place. -/
def Entry.beside (e : Entry) (loc : Loc) : Entry := { e with loc := e.loc.beside loc }

/-- The task has drained a write to some of `n` bytes of a place that is not performed yet (14 R243). -/
def drainedIn (k : Core) (task : Nat) (loc : Loc) (n : Nat) : Bool :=
  k.flight.any fun f => f.e.task == task && writesIn (f.e.beside loc) (locKey (loc.beside f.e.loc)) n

/-! ## What a drained entry waits for (14 R243, R246, R248; 08 R136, R140) -/

/-- Two entries write some byte in common. -/
def overlaps (a b : Entry) : Bool :=
  let a := a.beside b.loc
  let b := b.beside a.loc
  match b.act with
  | .store bs => bs.any fun x => writesIn a (locKey b.loc + x.pos) 1
  | .amop _ n _ => writesIn a (locKey b.loc) n
  | .red _ n _ => writesIn a (locKey b.loc) n
  | .amo _ n _ _ _ => writesIn a (locKey b.loc) n
  | _ => false

/-- Bytes from an entry's address on that it touches. -/
def Entry.span (e : Entry) : Nat :=
  match e.act with
  | .store bs => bs.foldl (fun m b => Nat.max m (b.pos + 1)) 1
  | .amop _ n _ => n
  | .red _ n _ => n
  | .amo _ n _ _ _ => n
  | _ => 1

/-- The entry touches a line of `n` bytes of a place of partition memory. -/
def Entry.onLines (e : Entry) (loc : Loc) (n : Nat) : Bool :=
  let meet (a b : Nat) : Bool := decide (a / 128 ≤ (b + n - 1) / 128 ∧ b / 128 ≤ (a + e.span - 1) / 128)
  match e.loc.beside loc, loc.beside e.loc with
  | .hbm _ a _ _, .hbm _ b _ _ => meet a b
  | .unmapped p a _, .unmapped q b _ => p == q && meet a b
  | _, _ => false

/-- Entries of the same task that were drained before an entry and are not performed. -/
def Core.before (k : Core) (e : Entry) : List Flight :=
  k.flight.filter fun f => f.e.task == e.task && decide (f.e.id < e.id)

/-- The mark of an FNC with .ss; with .sl (its order says which: rel .ss, acq .sl, sc both; 08 R136). -/
def Entry.fenceSs (e : Entry) : Bool := (match e.act with | .fence => true | _ => false) && decide (e.order = .rel ∨ e.order = .sc)
def Entry.fenceSl (e : Entry) : Bool := (match e.act with | .fence => true | _ => false) && decide (e.order = .acq ∨ e.order = .sc)

/-- The entry is a store, a CLN. -/
def Entry.isStore (e : Entry) : Bool := match e.act with | .store _ => true | _ => false
def Entry.cleans (e : Entry) : Bool := match e.act with | .clean => true | _ => false

/-- The task drained a mark of FNC.sl with a store before it that is not performed: its later loads wait (08 R136). -/
def slOpen (k : Core) (task : Nat) : Bool :=
  k.flight.any fun f => f.e.task == task && f.e.fenceSl && (k.before f.e).any fun g => g.e.isStore

/-- No earlier mark of FNC.ss, no earlier STS.sc of its drain, no earlier write to its bytes stands before the entry. -/
def Core.mayPerform (k : Core) (e : Entry) : Bool :=
  (k.before e).all fun f =>
    !f.e.fenceSs
      && !(f.e.order == .sc && f.e.writes && f.e.drain == e.drain)
      && !(e.writes && overlaps f.e e)

/-- A write that a release at a scope need not wait for: at core and group scope a store to partition memory, which is performed for the
cluster from then on (14_ordering.md R244): what reads its lines there waits until its home has it, so that nobody there reads an older value.
DEDUCED (log entry 6). -/
def Entry.nearBy (sc : Scope) (e : Entry) : Bool :=
  decide (sc = .core ∨ sc = .grp) && e.isStore && match e.loc with | .hbm _ _ _ _ => true | _ => false

/-- An entry that releases waits for every earlier write of its task (R246), at its scope. Writes that the task observed are performed at
every scope already, for a read waits until a write that is performed for its cluster alone is performed at its home. -/
def Core.mayRelease (k : Core) (e : Entry) : Bool :=
  k.mayPerform e && (k.before e).all fun f => !f.e.writes || f.e.nearBy e.scope

/-- The earlier writes that an entry which releases does not wait for. -/
def Core.nears (k : Core) (e : Entry) : List Entry :=
  if e.order = .weak then [] else ((k.before e).map (·.e)).filter fun f => f.nearBy e.scope

/-- They are performed for the cluster from now on. -/
def Core.nearAll (k : Core) (e : Entry) : Core :=
  if (k.nears e).isEmpty then k
  else { k with flight := k.flight.map fun f =>
    if (k.nears e).any (fun x => x.id == f.e.id) then { f with e := { f.e with near := true } } else f }

/-- The fence mark passes when every earlier write and send of the task is performed (08 R136), and every CLN at its scope is complete
(R137); one with .sl alone, when every earlier store is. -/
def Core.mayPass (k : Core) (e : Entry) : Bool :=
  if decide (e.order = .acq) then (k.before e).all fun f => !f.e.isStore
  else k.mayPerform e && (k.before e).all fun f =>
    (!f.e.writes || f.e.nearBy e.scope) && !f.e.sends && !(f.e.cleans && f.e.scope == e.scope)

/-- The entry is one of the mortar plane. -/
def Entry.mortar (e : Entry) : Bool :=
  match e.act with
  | .arrive _ _ _ _ => true
  | .cexp _ _ _ _ => true
  | .cjoin _ => true
  | .cquit _ => true
  | .tkrq _ _ _ _ => true
  | .tkps _ _ _ => true
  | .trmc _ _ => true
  | .trrd _ _ _ _ => true
  | _ => false

/-- An AMO releases, and comes after every entry that its drain performed (R140 case 1, R248 case 4), at the scope that covers its issuer
and its owner. -/
def Core.mayAmo (k : Core) (e : Entry) : Bool :=
  k.mayPass e && !slOpen k e.task && (k.before e).all fun f => f.e.nearBy e.scope || f.e.cleans || f.e.drain + 1 != e.drain

/-- An entry may arrive: a strong store once it may release, an AMO once its drain's entries are performed, another entry once
those before it allow. -/
def Core.mayArrive (k : Core) (e : Entry) : Bool :=
  match e.act with
  | .amo _ _ _ _ _ => k.mayAmo e
  | .store _ => if e.order = .weak then k.mayPerform e else k.mayRelease e
  | _ => k.mayPerform e

end Machine
end Sys2Proof
end

