-- ==== Sys2Proof/Machine/Tiles.lean ====
section
/-! DEFINITION. The tile walkers: a take, a cleave, the nearest search, the two words of a walker, and the reads of a pair's
mirror (04_placing.md R58 to R74). -/

namespace Sys2Proof
namespace Machine

/-! ## Taking (R64) -/

/-- The place in the window that a take picks: an untaken one with the highest hint, of equal ones the lowest. -/
def pickPlace (n : Nat) (w : Walker) : Nat :=
  (((upto 8).filter fun i => !w.taken.getLsbD i).foldl (fun best i =>
    match best with
    | none => some i
    | some b => if Config.hint n (w.lo + b) < Config.hint n (w.lo + i) then some i else some b) none).getD 0

/-- Take(w): the returned indices first, then the window. -/
def takeTile (n : Nat) (r : BitVec 1024) (w : Walker) : Option Nat × Walker :=
  match w.ret with
  | i :: q => (some i, { w with ret := q })
  | [] =>
    if w.lo = w.hi then (none, w)
    else
      let i := pickPlace n w
      (some (w.lo + i), slide r (w.hi - w.lo + 1) { w with taken := w.taken ||| (1#8 <<< i) })

/-- A take on the walker at a place of a cluster. -/
def State.takeAt (s : State) (r : BitVec 1024) (k n : Nat) : Option Nat × State :=
  match Tbl.get? (s.cluster k).walkers n with
  | some w =>
    let (f, s) := s.nextFree
    let (i, w) := takeTile f r w
    (i, s.setWalker k n w)
  | none => (none, s)

/-! ## Cleaving (R69, R70) -/

/-- Untaken indices of a walker at and above an index. -/
def Walker.avail (w : Walker) (x : Nat) : Nat :=
  (w.hi - x) - ((upto 8).filter fun i => w.taken.getLsbD i && decide (x ≤ w.lo + i) && decide (w.lo + i < w.hi)).length

/-- L of R69: the lowest index above which exactly `m` untaken ones lie. -/
def Walker.splitAt (w : Walker) (m : Nat) : Nat :=
  (((upto 9).map (w.lo + ·)).find? fun x => decide (x ≤ w.hi) && decide (w.avail x = m)).getD (w.hi - m)

/-- Cleave(t, v): refuse 1, refuse 2, or both walkers after it and the number moved. -/
def cleave (r : BitVec 1024) (t v : Walker) : Except Nat (Walker × Walker × Nat) :=
  if !t.dry then .error 1
  else if v.avail v.lo < 2 then .error 2
  else
    let m := v.avail v.lo / 2
    let l := v.splitAt m
    let bitOf (i : Nat) : Bool :=
      if l + i < v.lo + 8 then v.taken.getLsbD (l + i - v.lo) else windowBit r v.hi (l + i)
    let tt := (upto 8).foldl (fun b i => if bitOf i then b ||| (1#8 <<< i) else b) 0#8
    let vt := (upto 8).foldl (fun b i => if l ≤ v.lo + i then b ||| (1#8 <<< i) else b) v.taken
    .ok (slide r (v.hi - l + 1) { t with lo := l, hi := v.hi, taken := tt, gen := (t.gen + 1) % 256 },
         slide r (l - v.lo + 1) { v with hi := l, taken := vt, gen := (v.gen + 1) % 256 }, m)

/-- The walkers of a launch's stage: cluster, place in the CNI, walker. -/
def State.stageWalkers (s : State) (l : Option LaunchId) (stage : Nat) : List (Nat × Nat × Walker) :=
  s.clusters.flatMap fun e =>
    (e.2.walkers.filter fun w => w.2.launch == l && w.2.stage == stage).map fun w => (e.1, w.1, w.2)

/-- One cleave step between the walkers of two clusters. -/
def State.cleaveAt (s : State) (r : BitVec 1024) (t v : Nat × Nat × Walker) : Except Nat (State × Nat) :=
  match cleave r t.2.2 v.2.2 with
  | .ok (t', v', m) => .ok ((s.setWalker t.1 t.2.1 t').setWalker v.1 v.2.1 v', m)
  | .error c => .error c

/-- The result word of CLV (R71). -/
def clvWord (code victim moved : Nat) : W64 := w64 (code * 2 ^ 60 + victim % 256 * 2 ^ 32 + moved % 2 ^ 28)

/-- Distance of two clusters. -/
def manhattan (a b : Nat) : Nat := (clX a - clX b) + (clX b - clX a) + (clY a - clY b) + (clY b - clY a)

/-- `x` placed in a rising list by a measure. -/
def insertBy {α : Type} (f : α → Nat) (x : α) : List α → List α
  | [] => [x]
  | y :: r => if f x < f y then x :: y :: r else y :: insertBy f x r

/-- A list sorted by a measure; equal elements keep their order. -/
def sortBy {α : Type} (f : α → Nat) (l : List α) : List α := l.foldl (fun a x => insertBy f x a) []

/-- The tries of the nearest search, in rank order. -/
def nearestTries (s : State) (r : BitVec 1024) (t : Nat × Nat × Walker) : List (Nat × Nat × Walker) → State × W64
  | [] => (s, clvWord 3 0xFF 0)
  | v :: q =>
    match s.cleaveAt r t v with
    | .ok (s', m) => (s', clvWord 0 v.2.2.num m)
    | .error 1 => (s, clvWord 1 0xFF 0)
    | .error _ => nearestTries s r t q

/-- The nearest search of R70: up to four candidates whose occupancy summary, which may be stale, shows a range. DESIGN CHOICE (log entry
12): its tries, and the take, cleave and second take of WKNX, are one step, where R70 makes only each take and each cleave one. -/
def State.cleaveNearest (s : State) (r : BitVec 1024) (t : Nat × Nat × Walker) : State × W64 :=
  if !t.2.2.dry then (s, clvWord 1 0xFF 0)
  else
    let (f, s) := s.nextFree
    let shown (v : Nat × Nat × Walker) : Bool := decide (v.2.2.lo < v.2.2.hi) != Config.summaryStale f v.2.2.num
    let cands := (s.stageWalkers t.2.2.launch t.2.2.stage).filter fun v => v.2.2.num != t.2.2.num && shown v
    nearestTries s r t ((sortBy (fun v => 256 * manhattan t.1 v.1 + v.2.2.num) cands).take 4)

/-- The effect and the result of CLV with an operand (R71). -/
def State.cleaveOp (s : State) (r : BitVec 1024) (t : Nat × Nat × Walker) (a : W64) : State × W64 :=
  if a = 0xFFFFFFFFFFFFFFFF#64 then s.cleaveNearest r t
  else
    match (s.stageWalkers t.2.2.launch t.2.2.stage).find? fun v => v.2.2.num == a.toNat with
    | none => (s, clvWord 4 0xFF 0)
    | some v =>
      if v.2.2.num = t.2.2.num then (s, clvWord 4 0xFF 0)
      else
        match s.cleaveAt r t v with
        | .ok (s', m) => (s', clvWord 0 v.2.2.num m)
        | .error 1 => (s, clvWord 1 0xFF 0)
        | .error c => (s, clvWord c v.2.2.num 0)

/-! ## The words of a walker (R62, R63) -/

/-- State word. -/
def Walker.stateWord (w : Walker) : W64 := w64 (w.gen % 256 * 2 ^ 56 + w.hi % 2 ^ 28 * 2 ^ 28 + w.lo % 2 ^ 28)

/-- Window word. -/
def Walker.windowWord (w : Walker) : W64 :=
  w64 (w.num % 256 * 2 ^ 32 + (w.count - 1) % 256 * 2 ^ 24 + w.ret.length % 512 * 2 ^ 8 + w.taken.toNat)

/-! ## Reads of a walker by a task (R58, R60) -/

/-- All ones: the dry value. -/
def dryValue : W64 := 0xFFFFFFFFFFFFFFFF#64

/-- The slot of the core that a mirror core mirrors, which runs the other task of the pair: the task of the same message. -/
def State.pairSlot? (s : State) (t : Slot) (other : Nat) : Option Nat :=
  [1, 2, 3, 4, 5, 6, 7].find? fun n =>
    let u := s.slot other n
    match t.msg, u.msg with
    | some a, some b => decide (a.msgid = b.msgid ∧ a.source = b.source ∧ a.handler = b.handler ∧ a.kind = b.kind
        ∧ a.args = b.args ∧ a.launch = b.launch)
    | _, _ => false

/-- What the other task of a mirror's pair has read from walkers: while it runs as its slot holds it, and once ENDD has ended it as
it left it to the mirror (R60). -/
def State.pairWalks (s : State) (t : Slot) (primary : Nat) : List WalkRead :=
  match s.pairSlot? t primary with
  | some n => (s.slot primary n).walks
  | none => t.walks

/-- A walker read of the current task. On a mirror core it changes no walker and returns what the matching read of the
other task returned, waiting for it; on the core of a pair's primary the value is kept for the mirror. -/
def State.walkRead (s : State) (kind : Nat) (act : State → State × W64) : Except Stop (State × W64) :=
  let t := s.cur
  match s.primaryOf? s.curCore with
  | some pc =>
    match (s.pairWalks t pc)[t.walkPos]? with
    | some w => .ok (s.modCur fun t => { t with walkPos := t.walkPos + 1 }, w.val)
    | none => .error (.hold .order)
  | none =>
    let (s', v) := act s
    if (s.mirrorOf? s.curCore).isSome then
      .ok (s'.modCur fun t => { t with walks := t.walks ++ [⟨kind, v⟩] }, v)
    else .ok (s', v)

/-- The cluster whose walker serves the current task, with the walker and its launch's record. -/
def State.myWalker? (s : State) : Option ((Nat × Nat × Walker) × BitVec 1024) :=
  let l := s.cur.launch
  let k := clusterOf ((s.primaryOf? s.curCore).getD s.curCore)
  match s.walkerOf? l k, s.rcd? l with
  | some (n, w), some r => some ((k, n, w), r)
  | _, _ => none

/-- WKNX with an operand (R67): the index or the dry value. A mirror's tile entry names no walker, so that the index returns
once. -/
def State.wknx (s : State) (ask : Bool) : Except Stop (State × W64) :=
  match s.myWalker? with
  | none => s.walkRead 0 fun s => (s, dryValue)
  | some ((k, n, w), r) => do
    let mirror := (s.primaryOf? s.curCore).isSome
    let place := if mirror then 4 else n
    let _ ← addEntry s 0 (.spad 0 0) .weak .core (.tile k place 0)
    let (s, v) ← s.walkRead 0 fun s =>
      match s.takeAt r k n with
      | (some i, s) => (s, w64 (i % 2 ^ 28))
      | (none, s) =>
        if ask then
          match (s.cleaveNearest r (k, n, w)).1.takeAt r k n with
          | (some i, s) => (s, w64 (i % 2 ^ 28))
          | (none, s) => (s, dryValue)
        else (s, dryValue)
    if v = dryValue then .ok (s, v)
    else
      let s ← addEntry s 0 (.spad 0 0) .weak .core (.tile k place v.toNat)
      .ok (s, v)

/-- CLV (R71): its result word. -/
def State.clv (s : State) (a : W64) : Except Stop (State × W64) :=
  s.walkRead 1 fun s =>
    match s.myWalker? with
    | none => (s, clvWord 4 0xFF 0)
    | some (t, r) => s.cleaveOp r t a

/-- WKRD (R72): the word read. -/
def State.wkrd (s : State) (a b : W64) : Except Stop (State × W64) :=
  s.walkRead 2 fun s =>
    match s.myWalker? with
    | none => (s, dryValue)
    | some (t, _) =>
      let w? := if a = dryValue then some t.2.2
        else ((s.stageWalkers t.2.2.launch t.2.2.stage).find? fun v => v.2.2.num == a.toNat).map (·.2.2)
      match w? with
      | none => (s, dryValue)
      | some w => (s, if b = 0 then w.stateWord else w.windowWord)

end Machine
end Sys2Proof
end

