-- ==== Sys2Proof/Machine/Num.lean ====
section
/-! DEFINITION. Number formats as exact values: decoding, RoundTo, conversions, the LFSR, block scales and the f32
operations (09_number_formats.md R156 to R174). -/

namespace Sys2Proof
namespace Machine

/-- An exact value: sign, magnitude `m * 2^e`, or ±Inf, or NaN. A zero keeps its sign. -/
inductive Val where
  | nan
  | inf (neg : Bool)
  | fin (neg : Bool) (m : Nat) (e : Int)
deriving DecidableEq, Repr

/-- An element format (R156). -/
inductive Fmt where
  /-- binary8 with precision `p` (R157). -/
  | b8 (p : Nat) (uns ext : Bool)
  /-- 4-bit floating point (R160). -/
  | b4 (p : Nat)
  /-- IEEE 754: bits, precision. -/
  | ieee (bits p : Nat)
  /-- Integers of a width. -/
  | int (w : Nat) (uns : Bool)
deriving DecidableEq, Repr

/-- The format of a code; none for a reserved code. -/
def fmtOf? (code : Nat) : Option Fmt :=
  if code < 0x20 then
    let p := code % 8
    if p = 0 then none else some (.b8 p (decide (16 ≤ code)) (decide (code / 8 % 2 = 1)))
  else
    match code with
    | 0x21 => some (.b4 1)
    | 0x22 => some (.b4 2)
    | 0x23 => some (.b4 3)
    | 0x28 => some (.ieee 16 8)
    | 0x29 => some (.ieee 16 11)
    | 0x2A => some (.ieee 32 24)
    | 0x30 => some (.int 4 false)
    | 0x31 => some (.int 8 false)
    | 0x32 => some (.int 16 false)
    | 0x33 => some (.int 32 false)
    | 0x34 => some (.int 64 false)
    | 0x39 => some (.int 8 true)
    | 0x3A => some (.int 16 true)
    | 0x3B => some (.int 32 true)
    | 0x3C => some (.int 64 true)
    | _ => none

/-- The f32 format. -/
def f32 : Fmt := .ieee 32 24

/-- Bits of an element. -/
def Fmt.bits : Fmt → Nat
  | .b8 _ _ _ => 8
  | .b4 _ => 4
  | .ieee b _ => b
  | .int w _ => w

/-- Precision P of a floating-point format. -/
def Fmt.prec : Fmt → Nat
  | .b8 p _ _ => p
  | .b4 p => p
  | .ieee _ p => p
  | .int _ _ => 1

/-- Whether a format has no sign bit. -/
def Fmt.uns : Fmt → Bool
  | .b8 _ u _ => u
  | .b4 _ => false
  | .ieee _ _ => false
  | .int _ u => u

/-- Exponent bits W. -/
def Fmt.ebits (f : Fmt) : Nat := f.bits - f.prec + ofBool f.uns

/-- Bias: 2^(W-1), and 2^(W-1) - 1 for the IEEE formats. -/
def Fmt.bias : Fmt → Nat
  | .ieee b p => 2 ^ (b - p - 1) - 1
  | f => 2 ^ (f.ebits - 1)

/-- The code of the largest finite magnitude. -/
def Fmt.maxMag : Fmt → Nat
  | .b8 _ false false => 0x7F
  | .b8 _ false true => 0x7E
  | .b8 _ true false => 0xFE
  | .b8 _ true true => 0xFD
  | .b4 _ => 7
  | .ieee b p => (2 ^ (b - p) - 1) * 2 ^ (p - 1) - 1
  | .int w u => if u then 2 ^ w - 1 else 2 ^ (w - 1) - 1

/-- The format has infinities. -/
def Fmt.hasInf : Fmt → Bool
  | .b8 _ _ ext => ext
  | .b4 _ => false
  | .ieee _ _ => true
  | .int _ _ => false

/-- The sign bit's weight. -/
def Fmt.signBit (f : Fmt) : Nat := 2 ^ (f.bits - 1)

/-- The code of the format's NaN (R157 case 2, R160, R161). -/
def Fmt.nanCode : Fmt → Nat
  | .b8 _ false _ => 0x80
  | .b8 _ true _ => 0xFF
  | .b4 _ => 8
  | .ieee b p => (2 ^ (b - p) - 1) * 2 ^ (p - 1) + 2 ^ (p - 2)
  | .int _ _ => 0

/-- A magnitude's code with a sign. -/
def Fmt.signed (f : Fmt) (neg : Bool) (mag : Nat) : Nat := mag + (if neg && !f.uns then f.signBit else 0)

/-- Decode of a magnitude below infinity: zero, subnormals and normals (R157). -/
def decodeMag (f : Fmt) (neg : Bool) (mag : Nat) : Val :=
  let p := f.prec
  let e := mag / 2 ^ (p - 1)
  let t := mag % 2 ^ (p - 1)
  if e = 0 then .fin neg t (1 - (f.bias : Int) - ((p : Int) - 1))
  else .fin neg (2 ^ (p - 1) + t) ((e : Int) - (f.bias : Int) - ((p : Int) - 1))

/-- The value of a code (R157, R160, R161, R162). -/
def decodeVal (f : Fmt) (code : Nat) : Val :=
  match f with
  | .int w u =>
    let x := code % 2 ^ w
    if u then .fin false x 0
    else
      let z := sext x w
      .fin (decide (z < 0)) z.natAbs 0
  | .ieee b p =>
    let x := code % 2 ^ b
    let neg := decide (2 ^ (b - 1) ≤ x)
    let mag := x % 2 ^ (b - 1)
    let top := (2 ^ (b - p) - 1) * 2 ^ (p - 1)
    if top < mag then .nan else if mag = top then .inf neg else decodeMag f neg mag
  | .b8 _ u ext =>
    let x := code % 256
    if x = f.nanCode then .nan
    else if u then (if ext && decide (x = 0xFE) then .inf false else decodeMag f false x)
    else if ext && decide (x % 128 = 0x7F) then .inf (decide (128 ≤ x))
    else decodeMag f (decide (128 ≤ x)) (x % 128)
  | .b4 _ =>
    let x := code % 16
    if x = 8 then .nan else decodeMag f (decide (8 ≤ x)) (x % 8)

/-- Rounding modes: 0 nearest even, 1 toward zero, 2 down, 3 up, 4 stochastic (R163). -/
def roundUp (mode : Nat) (neg : Bool) (k rem den : Nat) (word : W32) : Bool :=
  match mode with
  | 0 => decide (den < 2 * rem) || (decide (2 * rem = den) && decide (k % 2 = 1))
  | 1 => false
  | 2 => decide (0 < rem) && neg
  | 3 => decide (0 < rem) && !neg
  | _ => decide (65536 ≤ rem * 65536 / den + word.toNat / 65536)

/-- floor(log2(num / den)) for a positive quotient. -/
def floorLog2 (num den : Nat) : Int :=
  let g := (Nat.log2 num : Int) - (Nat.log2 den : Int)
  if (if 0 ≤ g then den * 2 ^ g.toNat ≤ num else den ≤ num * 2 ^ (-g).toNat) then g else g - 1

/-- A quotient divided by 2^e, as a quotient. -/
def scaleDown (num den : Nat) (e : Int) : Nat × Nat :=
  if 0 ≤ e then (num, den * 2 ^ e.toNat) else (num * 2 ^ (-e).toNat, den)

/-- Overflow of R166. -/
def overflowCode (f : Fmt) (mode : Nat) (sat neg : Bool) : Nat :=
  let mx := f.signed neg f.maxMag
  let infty := f.signed neg (f.maxMag + 1)
  if !f.hasInf || sat then mx
  else
    match mode with
    | 1 => mx
    | 2 => if neg then infty else mx
    | 3 => if neg then mx else infty
    | _ => infty

/-- ±Inf as input of a floating-point format (R166). -/
def infCode (f : Fmt) (sat neg : Bool) : Nat :=
  if f.uns && neg then 0
  else if !f.hasInf || sat then f.signed neg f.maxMag
  else f.signed neg (f.maxMag + 1)

/-- Zero(x, fmt): an IEEE zero has the sign of x. -/
def zeroCode (f : Fmt) (neg : Bool) : Nat :=
  match f with
  | .ieee _ _ => f.signed neg 0
  | _ => 0

/-- RoundTo of a quotient into a floating-point format (R165). -/
def roundQuot (f : Fmt) (mode : Nat) (sat : Bool) (word : W32) (neg : Bool) (num den : Nat) : Nat :=
  if num = 0 then zeroCode f neg
  else if f.uns && neg then 0
  else
    let emin := 1 - (f.bias : Int)
    let lg := floorLog2 num den
    let b := if lg < emin then emin else lg
    let (a, d) := scaleDown num den (b - ((f.prec : Int) - 1))
    let k := a / d
    let y := k + ofBool (roundUp mode neg k (a % d) d word)
    let mag := ((b + (f.bias : Int) - 1) * 2 ^ (f.prec - 1) + y).toNat
    if f.maxMag < mag then overflowCode f mode sat neg
    else if mag = 0 then zeroCode f neg
    else f.signed neg mag

/-- Conversion of a quotient to an integer format (R167). -/
def roundInt (w : Nat) (uns : Bool) (mode : Nat) (sat : Bool) (word : W32) (neg : Bool) (num den : Nat) : Nat :=
  let k := num / den
  let y := k + ofBool (roundUp mode neg k (num % den) den word)
  let z : Int := if neg then -(y : Int) else y
  let lo : Int := if uns then 0 else -2 ^ (w - 1)
  let hi : Int := if uns then 2 ^ w - 1 else 2 ^ (w - 1) - 1
  let z' := if sat then (if z < lo then lo else if hi < z then hi else z) else z
  (z' % 2 ^ w).toNat

/-- RoundTo of a quotient into any format. -/
def roundRat (f : Fmt) (mode : Nat) (sat : Bool) (word : W32) (neg : Bool) (num den : Nat) : Nat :=
  match f with
  | .int w u => roundInt w u mode sat word neg num den
  | _ => roundQuot f mode sat word neg num den

/-- RoundTo(x, fmt, mode, sat): the code (R165 to R167). -/
def roundTo (f : Fmt) (mode : Nat) (sat : Bool) (word : W32) (x : Val) : Nat :=
  match x with
  | .nan => f.nanCode
  | .inf neg =>
    match f with
    | .int w u => if neg then (if u then 0 else 2 ^ (w - 1)) else (if u then 2 ^ w - 1 else 2 ^ (w - 1) - 1)
    | _ => infCode f sat neg
  | .fin neg m e => if 0 ≤ e then roundRat f mode sat word neg (m * 2 ^ e.toNat) 1 else roundRat f mode sat word neg m (2 ^ (-e).toNat)

/-! ## The LFSR (R168) -/

/-- Step(s). -/
def lfsrStep (s : W32) : W32 :=
  (s <<< 1) ||| (if Bool.xor (Bool.xor (s.getLsbD 31) (s.getLsbD 21)) (Bool.xor (s.getLsbD 1) (s.getLsbD 0)) then 1#32 else 0#32)

/-- `n` steps. -/
def lfsrSteps : Nat → W32 → W32
  | 0, s => s
  | n + 1, s => lfsrSteps n (lfsrStep s)

/-- NextWord(): the word, which is the new state as well. -/
def nextWord (s : W32) : W32 := lfsrSteps 32 s

/-- The next `n` words. -/
def nextWords : Nat → W32 → List W32
  | 0, _ => []
  | n + 1, s => nextWord s :: nextWords n (nextWord s)

/-! ## Exact arithmetic -/

/-- The signed magnitude. -/
def signedMag (neg : Bool) (m : Nat) : Int := if neg then -(m : Int) else m

/-- Exact sum; an exact zero of opposite signs is +0, under mode down -0 (R174). -/
def addVal (mode : Nat) (x y : Val) : Val :=
  match x, y with
  | .nan, _ => .nan
  | _, .nan => .nan
  | .inf a, .inf b => if a = b then .inf a else .nan
  | .inf a, _ => .inf a
  | _, .inf b => .inf b
  | .fin a m e, .fin b n f =>
    let g := if e ≤ f then e else f
    let z := signedMag a (m * 2 ^ (e - g).toNat) + signedMag b (n * 2 ^ (f - g).toNat)
    if z = 0 then (if a = b then .fin a 0 0 else .fin (decide (mode = 2)) 0 0)
    else .fin (decide (z < 0)) z.natAbs g

/-- Exact product. -/
def mulVal (x y : Val) : Val :=
  match x, y with
  | .nan, _ => .nan
  | _, .nan => .nan
  | .inf a, .inf b => .inf (Bool.xor a b)
  | .inf a, .fin b n _ => if n = 0 then .nan else .inf (Bool.xor a b)
  | .fin a m _, .inf b => if m = 0 then .nan else .inf (Bool.xor a b)
  | .fin a m e, .fin b n f => .fin (Bool.xor a b) (m * n) (e + f)

/-- The value with its sign changed; NaN stays. -/
def negVal : Val → Val
  | .nan => .nan
  | .inf a => .inf (!a)
  | .fin a m e => .fin (!a) m e

/-- 2^e. -/
def powVal (e : Int) : Val := .fin false 1 e

/-- f32 codes. -/
def dec32 (w : W32) : Val := decodeVal f32 w.toNat
def enc32 (mode : Nat) (word : W32) (x : Val) : W32 := BitVec.ofNat 32 (roundTo f32 mode false word x)

/-- f32 addition of codes, rounding to nearest even. -/
def f32add (a b : W32) : W32 := enc32 0 0 (addVal 0 (dec32 a) (dec32 b))

/-- Order of two values: x < y; false with a NaN. -/
def ltVal (x y : Val) : Bool :=
  match x, y with
  | .nan, _ => false
  | _, .nan => false
  | .inf a, .inf b => a && !b
  | .inf a, .fin _ _ _ => a
  | .fin _ _ _, .inf b => !b
  | .fin a m e, .fin b n f =>
    let g := if e ≤ f then e else f
    decide (signedMag a (m * 2 ^ (e - g).toNat) < signedMag b (n * 2 ^ (f - g).toNat))

/-- Equality of two values; false with a NaN; the zeros are equal. -/
def eqVal (x y : Val) : Bool :=
  match x, y with
  | .nan, _ => false
  | _, .nan => false
  | _, _ => !ltVal x y && !ltVal y x

/-- A NaN. -/
def Val.isNan : Val → Bool
  | .nan => true
  | _ => false

/-- Canonical NaN of f32. -/
def nan32 : W32 := 0x7FC00000#32

/-- Sign of a value. -/
def Val.sgn : Val → Bool
  | .nan => false
  | .inf a => a
  | .fin a _ _ => a

/-- The greater of two f32 codes, -0 below +0, NaN when either is NaN. -/
def f32max (a b : W32) : W32 :=
  let x := dec32 a
  let y := dec32 b
  if x.isNan || y.isNan then nan32
  else if ltVal x y then b
  else if ltVal y x then a
  else if x.sgn then b else a

/-- The lesser of two f32 codes, -0 below +0, NaN when either is NaN. -/
def f32min (a b : W32) : W32 :=
  let x := dec32 a
  let y := dec32 b
  if x.isNan || y.isNan then nan32
  else if ltVal x y then a
  else if ltVal y x then b
  else if x.sgn then a else b

/-! ## Format records and block scales (R163, R164, R170, R171) -/

/-- Fields of a format record. -/
def fmElem (r : W32) : Nat := field r 5 0
def fmBlock (r : W32) : Nat := field r 8 8
def fmScale (r : W32) : Nat := field r 11 10
def fmInf (r : W32) : Nat := field r 12 12
def fmRound (r : W32) : Nat := field r 18 16
def fmSat (r : W32) : Bool := bitAt r 19

/-- The format of a record's elements, its variant in force. -/
def fmFmt? (r : W32) : Option Fmt := fmtOf? (fmElem r + 8 * fmInf r)

/-- Ill-formed by R164. -/
def fmIll (r : W32) : Bool :=
  let e := fmElem r
  let b8 := decide (0x01 ≤ e ∧ e ≤ 0x07) || decide (0x11 ≤ e ∧ e ≤ 0x17)
  decide (field r 31 20 ≠ 0 ∨ field r 15 13 ≠ 0 ∨ field r 9 9 ≠ 0 ∨ field r 7 6 ≠ 0)
    || decide (5 ≤ fmRound r) || decide (fmScale r = 3)
    || !(b8 || decide (0x21 ≤ e ∧ e ≤ 0x23) || decide (e = 0x28 ∨ e = 0x29))
    || (decide (fmInf r = 1) && !b8)

/-- Elements of a block. -/
def fmBlockLen (r : W32) : Nat := if fmBlock r = 1 then 32 else 16

/-- Value of a scale code: format 0 E8, 1 b8p4n, 2 none (R170). -/
def scaleVal (sf code : Nat) : Val :=
  match sf with
  | 0 => if code % 256 = 0xFF then .nan else powVal ((code % 256 : Int) - 127)
  | 1 => decodeVal (.b8 4 true false) code
  | _ => powVal 0

/-- Largest finite value of a format as magnitude and exponent. -/
def maxFin (f : Fmt) : Nat × Int :=
  match decodeVal f f.maxMag with
  | .fin _ m e => (m, e)
  | _ => (0, 0)

/-- A finite magnitude as a quotient. -/
def quotOf (m : Nat) (e : Int) : Nat × Nat := if 0 ≤ e then (m * 2 ^ e.toNat, 1) else (m, 2 ^ (-e).toNat)

/-- Emax(F) = floor(log2 MaxFinite(F)). -/
def emaxOf (f : Fmt) : Int :=
  let (n, d) := quotOf (maxFin f).1 (maxFin f).2
  floorLog2 n d

/-- The larger of two magnitudes. -/
def maxMagOf (a b : Nat × Int) : Nat × Int :=
  if ltVal (.fin false a.1 a.2) (.fin false b.1 b.2) then b else a

/-- M = max |v| of a block, none when some value is NaN or ±Inf. DESIGN CHOICE (log entry 14): M of a block in which a mask selects no lane
is 0, so that the scale is that of a block of zeros; 09_number_formats.md R171 and 10 R187 state none. -/
def blockMax : List Val → Option (Nat × Int)
  | [] => some (0, 0)
  | .fin _ m e :: r => (blockMax r).map fun x => maxMagOf x (m, e)
  | _ :: _ => none

/-- ScaleFor(v, F, scale format) of R171. -/
def scaleFor (v : List Val) (f : Fmt) (sf : Nat) : Nat :=
  match blockMax v with
  | none => 0xFF
  | some (m, e) =>
    if m = 0 then (if sf = 0 then 127 else 0x80)
    else
      let (n, d) := quotOf m e
      if sf = 0 then
        let z := floorLog2 n d - emaxOf f + 127
        if z < 0 then 0 else if 254 < z then 254 else z.toNat
      else
        let (a, b) := quotOf (maxFin f).1 (maxFin f).2
        roundQuot (.b8 4 true false) 3 true 0 false (n * b) (d * a)

/-- RoundTo(v / scale, F, mode, sat): the quotient is exact and is rounded once (R171). A NaN scale makes it NaN; 0/0 is NaN
and a finite value over 0 is ±Inf. -/
def roundScaled (f : Fmt) (mode : Nat) (sat : Bool) (word : W32) (v scale : Val) : Nat :=
  match v, scale with
  | .nan, _ => f.nanCode
  | _, .nan => f.nanCode
  | .inf a, .fin b _ _ => roundTo f mode sat word (.inf (Bool.xor a b))
  | .inf _, .inf _ => f.nanCode
  | .fin a _ _, .inf b => roundTo f mode sat word (.fin (Bool.xor a b) 0 0)
  | .fin a m e, .fin b n g =>
    if n = 0 then (if m = 0 then f.nanCode else roundTo f mode sat word (.inf (Bool.xor a b)))
    else
      let (p, q) := quotOf m e
      let (r, t) := quotOf n g
      roundRat f mode sat word (Bool.xor a b) (p * t) (q * r)

end Machine
end Sys2Proof
end

