-- ==== Sys2Proof/Machine/Trap.lean ====
section
/-! DEFINITION. Taking a trap, as one shared operation, and the replies that return from it; KILL and the fault storm
(22_interruption.md R314 to R322, 24_protection.md R337). -/

namespace Sys2Proof
namespace Machine

/-! ## What a message's end releases -/

/-- CPDN of a channel advances over every retired id (12 R213), at most `fuel` of them. -/
def advanceCpdn : Nat → Core → Nat → Core
  | 0, k, _ => k
  | fuel + 1, k, chan =>
    let id := Tbl.find 0 k.cpdn chan
    if k.retired.contains (chan, id) then
      advanceCpdn fuel { k with
        cpdn := Tbl.put 0 k.cpdn chan ((id + 1) % 2 ^ 32)
        retired := k.retired.filter (· != (chan, id)) } chan
    else k

/-- A transfer id is retired (R213). -/
def Core.retire (k : Core) (chan id : Nat) : Core :=
  let k := { k with retired := (chan, id) :: k.retired }
  advanceCpdn k.retired.length k chan

/-- What taking a record or consuming a message retires (12 R223 case 3). -/
def Core.retireTie (k : Core) : MsgTie → Core
  | .none => k
  | .transfer chan id => k.retire chan id

/-- The hold of a ring's member is to be released once the task's writes are performed (17 R262 case 2, R273 case 2): an
entry of the task on its way. -/
def State.passToken (s : State) (c n task ring mem round : Nat) (l : Option LaunchId) : State :=
  let (id, s) := s.nextReq c
  s.modCore c fun k => { k with flight := k.flight ++
    [⟨{ id := id, slot := n, task := task, launch := l, act := .tkps ring mem round }, .waiting⟩] }

/-- A message has ended: what it ties is retired, and the token that its task holds is passed (R262 case 2); the copy of a mirror
does neither. -/
def State.endMsg (s : State) (c n task : Nat) (m : Msg) : State :=
  if (s.primaryOf? c).isSome then s else
  let s := s.modCore c fun k => k.retireTie m.tie
  match m.comp with
  | some ⟨.grant ring mem, _, round⟩ => s.passToken c n task ring mem round m.launch
  | _ => s

/-! ## Aborting a task (R314 step 1, R109) -/

/-- The tile entries of a buffer, in entry order. -/
def tileEntries (buf : List Entry) : List (Nat × Nat × Nat) :=
  buf.filterMap fun e => match e.act with | .tile k w idx => some (k, w, idx) | _ => none

/-- Unreleased matrix and copy commands of a task are discarded, transfer ids retired (11 R195 case 1, 12 R213). -/
def Core.dropUnreleased (k : Core) (n task : Nat) : Core :=
  let mine (slot tsk : Nat) (rel : Bool) : Bool := slot == n && tsk == task && !rel
  let gone := k.cpq.filter fun e => mine e.slot e.task e.released
  let k := { k with
    mxq := k.mxq.filter fun e => !(mine e.slot e.task e.released)
    cpq := k.cpq.filter fun e => !(mine e.slot e.task e.released) }
  gone.foldl (fun k e => k.retire e.chan e.xid) k

/-- The records that the task has taken since its last commit point return, unbound, to the head of the completion inbox
in the order in which they were taken (06 R104 case 2). -/
def Core.giveBack (k : Core) (t : Slot) : Core :=
  { k with cinbox := t.taken ++ k.cinbox }

/-- Followers of a slot's stream leave it (05 R91 case 2). -/
def State.dropFollowers (s : State) (c n : Nat) : State :=
  (coresOf (clusterOf c)).foldl (fun s j =>
    if (s.slot j n).follow = some c then s.modSlot j n fun t => { t with follow := none, stream := [] } else s) s

/-- What every abort does to the slot and the core: entries, tiles, commands, records, registers, results, loop, signature
and staged writes. The slot is left without a task. -/
def State.abortTask (s : State) (c n : Nat) : State :=
  let t := s.slot c n
  let s := (tileEntries t.buf).foldl (fun s e => s.returnTile e.1 e.2.1 e.2.2) s
  let s := s.modCore c fun k => (k.dropUnreleased n t.task).giveBack t
  let s := s.dropFollowers c n
  s.setSlot c n { t with
    running := false, buf := [], regs := t.saved, qpos := 0, qbld := [], bound := none, taken := [], pend := [],
    armed := false, lact := false, lc := 0, ls := 0, le := 0, wait := .none, staged := [], asked := [], pairs := [],
    taint := false, eaten := [], follow := none, stream := [], repl := false, hash := none, checked := false, handed := false, opnds := [], pairTrap := none,
    fillFailed := false, upset := [] }

/-- ENDD discards as an abort does, but its tiles count as done (04 R65), and the registers that the task wrote stay (06 R105
rule 2 restores them on an abort alone). -/
def State.discardTask (s : State) (c n : Nat) : State :=
  let r := (s.slot c n).regs
  ((s.modSlot c n fun t => { t with buf := [] }).abortTask c n).modSlot c n fun t => { t with regs := r }

/-! ## Records (R315, R316) -/

/-- The routine address as a number (05 R77). -/
def pcWord (pc : Pc) : Nat := (ofBool pc.carried * 32768 + pc.off) % 65536

/-- TCAUSE of R106. -/
def tcauseWord (nr : Bool) (code slot cause : Nat) : W64 :=
  w64 (ofBool nr * 2 ^ 32 + code % 65536 * 2 ^ 16 + slot % 256 * 256 + cause % 256)

/-- A record of R315. -/
def mkRec (type fatal nr slot cause code : Nat) (msgid : W32) (pc : Nat) (place addr detail : W64) : TRec where
  w0 := w64 (type * 2 ^ 62 + fatal * 2 ^ 61 + nr * 2 ^ 59 + slot % 8 * 2 ^ 56 + cause % 256 * 2 ^ 48
    + code % 65536 * 2 ^ 32 + msgid.toNat)
  w1 := w64 (pc % 65536 * 2 ^ 48 + place.toNat % 2 ^ 38)
  w2 := addr
  w3 := detail
  payload := []
  call := none
  core := 0
  slot := 0
  launch := none
  msgid := msgid

/-- A TYPE 2 report about a core. -/
def reportRec (cause code : Nat) (msgid : W32) (place addr detail : W64) : TRec :=
  mkRec 2 0 0 0 cause code msgid 0 place addr detail

/-- FATAL of a record; its TYPE and CAUSE. The words of a call record are its arguments. -/
def TRec.fatal (r : TRec) : Bool := r.call.isNone && bitAt r.w0 61
def TRec.type (r : TRec) : Nat := if r.call.isSome then 0 else field r.w0 63 62
def TRec.cause (r : TRec) : Nat := field r.w0 55 48

/-- Ordinary entries in use, reserve entries in use (R317). -/
def Partition.ordinary (p : Partition) : Nat := (p.trapq.filter fun r => !r.reserve).length + ofBool (p.handled == some false)
def Partition.reserved (p : Partition) : Nat := (p.trapq.filter fun r => r.reserve).length + ofBool (p.handled == some true)

/-! ## KILL (R320) -/

/-- Member bit of a slot of a core in its cluster's courses (17 R263). -/
def memberBit (c n : Nat) : Nat := 8 * indexOf c + n

def setBit72 (w : BitVec 72) (b : Nat) (v : Bool) : BitVec 72 :=
  if v then w ||| (1#72 <<< b) else w &&& ~~~(1#72 <<< b)

/-- A member leaves a course: MEM, ARR, HELD and its continuations (17 R278, CQUIT). -/
def Course.leave (k : Course) (b : Nat) : Course :=
  { k with
    mem := setBit72 k.mem b false, shadow := setBit72 k.shadow b false, arrived := setBit72 k.arrived b false,
    f := { k.f with arr := setBit72 k.f.arr b false, held := setBit72 k.f.held b false,
                    cont := Tbl.del k.f.cont b, contHeld := Tbl.del k.f.contHeld b } }

/-- The course memberships of a launch's slots in its clusters are cleared (R278). -/
def State.clearMembers (s : State) (cores : List Nat) : State :=
  cores.foldl (fun s c => s.modCluster (clusterOf c) fun k =>
    { k with courses := k.courses.map fun e => (e.1, taskSlots.foldl (fun k n => k.leave (memberBit c n)) e.2) }) s

/-- The walkers of a launch are freed (04 R58). -/
def State.freeWalkers (s : State) (l : LaunchId) : State :=
  { s with clusters := s.clusters.map fun e => (e.1, { e.2 with walkers := e.2.walkers.filter fun w => w.2.launch != some l }) }

/-- The inbox entry of a task's message is freed. -/
def State.freeMsg (s : State) (c : Nat) (t : Slot) : State :=
  match t.msg with
  | some m =>
    match (s.core c).inbox.find? fun e => e.msg == some m && !e.freed with
    | some e => s.modCore c fun k => k.inFree e.off
    | none => s
  | none => s

/-- A trap of the same cycle posts no record beside a KILL of its task (R321 case 1). -/
def State.dropTrapRec (s : State) (c n task : Nat) : State :=
  let same (r : TRec) : Bool :=
    r.call.isNone && decide (r.type = 1) && r.core == c && r.slot == n && r.task == task && r.at_ == s.time
  match s.corePart? c with
  | some p => s.modPart p fun k => { k with trapq := k.trapq.filter fun r => !same r, heldRecs := k.heldRecs.filter fun r => !same r }
  | none => s

/-- The tasks and queued messages of a launch on one core end. -/
def State.killOnCore (s : State) (l : LaunchId) (c : Nat) : State :=
  let s := taskSlots.foldl (fun s n =>
    let t := s.slot c n
    if t.launch = some l then
      if t.running then
        let s := (s.abortTask c n).freeMsg c t
        match t.msg with
        | some m => (s.endMsg c n t.task m).modSlot c n fun t => { t with msg := none }
        | none => s
      else if t.parked then
        let s := s.dropTrapRec c n t.task
        let s := match t.msg with | some m => if t.repl then s else s.endMsg c n t.task m | none => s
        s.modSlot c n fun t => { t with parked := false, msg := none }
      else s
    else s) s
  let gone := (s.core c).runq.filter fun q => q.msg.launch == some l
  let s := s.modCore c fun k =>
    gone.foldl (fun k q => k.inFree q.off) { k with runq := k.runq.filter fun q => q.msg.launch != some l }
  gone.foldl (fun s q => s.endMsg c 0 (s.core c).tasks q.msg) s

/-- The messages of a launch that CNIs hold are consumed. -/
def State.dropHeld (s : State) (l : LaunchId) : State :=
  let gone := s.clusters.flatMap fun e => e.2.tasks.filter fun x => x.2.launch == some l
  let s : State := { s with clusters := s.clusters.map fun e =>
    (e.1, { e.2 with tasks := e.2.tasks.filter fun x => x.2.launch != some l }) }
  gone.foldl (fun s x => s.endMsg x.1 0 (s.core x.1).tasks x.2) s

/-- What a launch of another device has on this one ends. -/
def State.killHere (s : State) (l : LaunchId) : State := (s.cores.foldl (fun s e => s.killOnCore l e.1) s).dropHeld l

/-- KILL tears down a launch (R320). One of another device ends here, and its home device is told. -/
def State.killLaunch (s : State) (l : LaunchId) : State :=
  if l.dev.isSome then (s.killHere l).modGuest l fun g => { g with killed := true, upward := g.upward || !g.killed }
  else
  match s.launch? l, s.residentIn? l.ctx with
  | some k, some p =>
    if k.stage = .done then s
    else
      let pt := s.part p
      let s := (pt.cores.foldl (fun s c => s.killOnCore l c) s).dropHeld l
      let s := (s.freeWalkers l).clearMembers ((occupied pt k.rcd).filter fun c => (s.core c).image == some l)
      s.modLaunch l fun k => { k with killed := true, final := 1 }
  | _, _ => s

/-- Every core of a partition stops, or goes on (22_interruption.md R330). -/
def State.haltCores (s : State) (p : Nat) (b : Bool) : State :=
  (s.part p).cores.foldl (fun s c => s.modCore c fun k => { k with halted := b }) s

/-- A fault storm of a partition (R322): the cores halt, the hypervisor is alerted, every launch is torn down, released
commands that have not begun are discarded, and a transfer's chunk that is under way is its last. -/
def State.faultStorm (s : State) (p : Nat) (held : Option TRec) : State :=
  let s := s.modPart p fun k => { k with
    halt := (if k.halt = .running then .pending else k.halt), haltTime := s.time, storm := true, onlySup := true,
    fatalHeld := (match held with | some r => some r | none => k.fatalHeld) }
  let s : State := { s with alerts := s.alerts ++ [.storm p] }
  let ctx := (s.part p).ctx
  let live := ((s.ctx ctx).launches.filter fun e => e.2.stage != .done).map (·.1)
  let torn (l : Option LaunchId) : Bool := live.any fun lid => l == some { ctx := ctx, lid := lid }
  let s := live.foldl (fun s lid => s.killLaunch { ctx := ctx, lid := lid }) s
  let s := (s.part p).cores.foldl (fun s c => s.modCore c fun k =>
    let gone := k.cpq.filter fun e => !e.finished && torn e.launch
    gone.foldl (fun k e => k.retire e.chan e.xid)
      { k with
        mxq := k.mxq.filter (fun e => e.finished || e.zeroing || !torn e.launch)
        cpq := (k.cpq.filter fun e => e.finished || e.under.isSome || !torn e.launch).map fun e =>
          if torn e.launch then { e with doomed := !e.finished } else e }) s
  (s.haltCores p true).modPart p fun k => { k with halt := .halted }

/-- A record enters a queue behind those before it; of the records that slots of one core post in one cycle the lower slot's goes first
(R317 case 4). -/
def enterRec (r : TRec) : List TRec → List TRec
  | [] => [r]
  | x :: l =>
    if r.call.isNone && x.call.isNone && decide (r.type = 1 ∧ x.type = 1) && x.core == r.core && x.at_ == r.at_ && decide (r.slot < x.slot) then
      r :: x :: l
    else x :: enterRec r l

/-- A record is posted to a partition's trap queue (R317): an ordinary entry, for a fatal record the reserve when none is
free, a fault storm when that is full as well; a record that is not fatal waits at its source. -/
def State.postRec (s : State) (p : Nat) (r : TRec) : State :=
  let k := s.part p
  let r := { r with at_ := s.time }
  if k.debugger ∧ r.type = 1 ∧ r.cause = Cause.breakpoint then
    s.modPart p fun k => { k with debugRecs := k.debugRecs ++ [r], halt := (if k.halt = .running then .pending else k.halt),
                                  haltTime := s.time }
  else if k.ordinary < 252 then s.setPart p { k with trapq := enterRec { r with reserve := false } k.trapq }
  else if r.fatal then
    if k.reserved < 4 then s.setPart p { k with trapq := enterRec { r with reserve := true } k.trapq }
    else s.faultStorm p (some r)
  else s.setPart p { k with heldRecs := enterRec r k.heldRecs }

/-- An engine of a core has a record that waits for room: it holds its next completion report (R317 case 1). -/
def State.engineHeld (s : State) (c unit : Nat) : Bool :=
  match s.corePart? c with
  | some p => (s.part p).heldRecs.any fun r => r.core == c && r.engine == unit
  | none => false

/-- A record about a core, to the supervisor of the core's partition. -/
def State.report (s : State) (c : Nat) (r : TRec) : State :=
  match s.corePart? c with
  | some p => s.postRec p { r with core := c }
  | none => s

/-! ## Taking a trap (R314) -/

/-- A trap of the supervisor slot: no record; its record returns to the head of the queue, the hypervisor is alerted, and
the third abort in a row on one record starts a fault storm (R319). -/
def State.supervisorTrap (s : State) (p c n : Nat) : State :=
  let t := s.slot c n
  let s := (s.abortTask c n).modSlot c n fun t => { t with record := none, msg := none }
  let s := s.modPart p fun k => { k with
    handled := none
    trapq := (match t.record with | some r => { r with aborts := r.aborts + 1 } :: k.trapq | none => k.trapq) }
  let s : State := { s with alerts := s.alerts ++ [.supervisorTrap p] }
  if t.record.elim false fun r => decide (2 ≤ r.aborts) then s.faultStorm p none else s

/-- The message of a replayable task returns to the head of its level; `held` unless the message is to run again at once
(R98 case 3, R270, R337). DESIGN CHOICE (log entry 12): where 56 messages are queued it waits for an entry in the queue's list, and
counts in it, for R314 returns it without a condition. -/
def State.returnMsg (s : State) (c : Nat) (t : Slot) (f : Msg → Msg) : State :=
  match t.msg with
  | some m =>
    let off := ((s.core c).inbox.find? fun e => e.msg == some m && !e.freed).elim 0 (·.off)
    s.modCore c fun k => { k with
      runq := enqueueHead k.runq { msg := f m, off := off }
      inbox := k.inbox.map fun e => if e.off == off && !e.pad then { e with msg := some (f m) } else e }
  | none => s

/-- Steps 1, 2 and 4 of R314: the task aborts; its message returns, held, or is already consumed; the slot is parked. TCAUSE
and TADDR hold the cause and its value. -/
def State.trapPark (s : State) (c n cause code : Nat) (addr : W64) : State :=
  let t := s.slot c n
  let nr := !t.repl
  let tc := tcauseWord nr code n cause
  let s := s.abortTask c n
  let s := if nr then s.freeMsg c t
           else s.returnMsg c t fun m => { m with held := true, tcause := tc, taddr := addr }
  let s := if nr && (s.primaryOf? c).isNone then (match t.msg with | some m => s.modCore c fun k => k.retireTie m.tie | none => s) else s
  let msg := if nr then t.msg.map fun m => { m with tie := .none } else t.msg
  s.modSlot c n fun u => { u with parked := true, tcause := tc, taddr := addr, msg := msg, repl := !nr }

/-- R314, in its four steps: a trap parks its slot and posts its record. -/
def State.trapNow (s : State) (c n cause code : Nat) (addr : W64) (pc : Pc) (fatal : Bool) : State :=
  let t := s.slot c n
  let nr := !t.repl
  let s := s.trapPark c n cause code addr
  let r := mkRec 1 (ofBool fatal) (ofBool nr) n cause code t.msgid (pcWord pc) (s.placeWord c) addr 0
  s.report c { r with slot := n, launch := t.launch, task := t.task }

/-- A trap in a task slot. A task of a pair keeps its trap until the plumb check has seen the other task's (R337); a trap of
the supervisor slot posts no record. -/
def State.takeTrap (s : State) (c n cause code : Nat) (addr : W64) : State :=
  let t := s.slot c n
  if s.privileged c n then
    match s.corePart? c with
    | some p => s.supervisorTrap p c n
    | none => s
  else if (s.primaryOf? c).isSome || (s.mirrorOf? c).isSome then
    s.setSlot c n { t with pairTrap := some (cause, code, addr, t.pc), wait := .plumb true,
                           hashTime := (if t.pairTrap.isSome then t.hashTime else s.time) }
  else s.trapNow c n cause code addr t.pc false

/-! ## The early point of a launch (03_launching.md R49) -/

/-- The launch is at its early point: every gang cluster has triggered or exited, and the drained writes of those that exited are
performed (R49 case 2). It raises its signal. -/
def Launch.reach (x : Launch) (gang : List Nat) : Launch :=
  if gang.all x.trig.contains && x.cover.isEmpty then
    { x with early := true, raised := if x.raised.isNone then some true else x.raised }
  else x

/-- A launch may have come to its early point. -/
def State.reachEarly (s : State) (l : LaunchId) : State :=
  match s.launch? l, s.residentIn? l.ctx with
  | some x, some p =>
    if Rec.trigger x.rcd = 1 ∧ x.stage ≠ .done ∧ x.killed = false ∧ x.early = false then
      s.setLaunch l (x.reach (gangClusters (s.part p) x.rcd))
    else s
  | _, _ => s

/-- A drained write that a launch's early point waits for is performed. -/
def State.covered (s : State) (c id : Nat) (l : Option LaunchId) : State :=
  match l with
  | none => s
  | some l =>
    match s.launch? l with
    | some x =>
      if x.cover.contains (c, id) then (s.setLaunch l { x with cover := x.cover.filter (· != (c, id)) }).reachEarly l else s
    | none => s

/-- Writes of a launch to this device that the cores of a cluster have drained and that are not performed. -/
def State.uncovered (s : State) (l : LaunchId) (k : Nat) : List (Nat × Nat) :=
  (coresOf k).flatMap fun c => ((s.core c).flight.filter fun f =>
    f.e.launch == some l && f.e.writes && (match f.e.loc with | .peer _ _ _ _ => false | _ => true)).map fun f => (c, f.e.id)

/-- No task of a launch runs, is parked or is queued on the cores of a cluster. -/
def State.exited (s : State) (l : LaunchId) (k : Nat) : Bool :=
  ((coresOf k).all fun c =>
    (taskSlots.all fun n => !(((s.slot c n).running || (s.slot c n).parked) && (s.slot c n).launch == some l))
      && (s.core c).runq.all fun q => q.msg.launch != some l)
    && (s.cluster k).tasks.all fun x => x.2.launch != some l

/-- A gang cluster has triggered or exited; `cover` are the drained writes that its exit covers. -/
def State.triggerAt (s : State) (l : LaunchId) (k : Nat) (cover : List (Nat × Nat)) : State :=
  match s.launch? l, s.residentIn? l.ctx with
  | some x, some p =>
    if Rec.trigger x.rcd = 1 ∧ x.stage ≠ .done ∧ x.killed = false ∧ (gangClusters (s.part p) x.rcd).contains k = true
        ∧ x.trig.contains k = false then
      (s.setLaunch l { x with trig := k :: x.trig, cover := x.cover ++ cover }).reachEarly l
    else s
  | _, _ => s

/-- A task of a launch has ended on a core: its cluster may have exited. -/
def State.noteExit (s : State) (c : Nat) (l : Option LaunchId) : State :=
  match l with
  | none => s
  | some l =>
    match s.launch? l with
    | some x =>
      let k := clusterOf c
      if x.started.contains k && s.exited l k then s.triggerAt l k (s.uncovered l k) else s
    | none => s

/-! ## Replies (R319) -/

/-- A slot's park ends. -/
def State.unpark (s : State) (c n : Nat) : State :=
  (s.modSlot c n fun t => { t with parked := false, msg := none }).noteExit c (s.slot c n).launch

/-- The message that a parked slot's trap returned is still held in the run queue. -/
def Core.heldMsg? (k : Core) (t : Slot) : Option QMsg :=
  t.msg.bind fun m => k.runq.find? fun q => q.msg.held && q.msg.msgid == m.msgid && q.msg.source == m.source

/-- RESUME: the held mark is removed, and the slot is unparked (R319). After a commit point the rest of the task is lost,
and a token that it held is passed (17 R262 case 2). -/
def State.replyResume (s : State) (c n : Nat) : State :=
  let t := s.slot c n
  if t.parked then
    if t.repl then
      match (s.core c).heldMsg? t with
      | some q => (s.modCore c fun k => { k with runq := k.runq.map fun x =>
          if x.off == q.off then { x with msg := { x.msg with held := false } } else x }).unpark c n
      | none => s.unpark c n
    else (match t.msg with | some m => s.endMsg c n t.task m | none => s).unpark c n
  else s

/-- SKIP: the message is consumed and its inbox entry freed, and the slot is unparked (R319). -/
def State.replySkip (s : State) (c n : Nat) : State :=
  let t := s.slot c n
  if t.parked then
    if t.repl then
      match (s.core c).heldMsg? t with
      | some q =>
        ((s.modCore c fun k => { (k.inFree q.off) with runq := k.runq.filter fun x => x.off != q.off }).endMsg c n t.task q.msg).unpark c n
      | none => s.unpark c n
    else (match t.msg with | some m => s.endMsg c n t.task m | none => s).unpark c n
  else s

/-- KILL of the trapping task's launch (R320); a task without a launch is skipped. -/
def State.replyKill (s : State) (c n : Nat) : State :=
  let t := s.slot c n
  if t.parked then
    match t.launch with
    | some l => s.killLaunch l
    | none => s.replySkip c n
  else s

/-- A reply to the record of a task: 1 RESUME, 2 SKIP, 0 and 3 KILL. A slot that a KILL has freed since is left alone (R320). A
reply to a pair acts on both slots (24 R336 case 4). -/
def State.reply (s : State) (c n task code : Nat) : State :=
  let act (s : State) (c : Nat) : State :=
    if code = 1 then s.replyResume c n else if code = 2 then s.replySkip c n else s.replyKill c n
  if (s.slot c n).parked = true ∧ (s.slot c n).task = task then
    match s.mirrorOf? c with
    | some m => act (act s c) m
    | none => act s c
  else s

end Machine
end Sys2Proof
end

