-- ==== Sys2Proof/Machine/Home.lean ====
section
/-! DEFINITION. What happens at the home of a line: reads, writes, partial sums and their merge, migration, snapshots'
copy on write; and the L1 portions (13_memory_hierarchy.md R229 to R234, 24_protection.md R339, R340). -/

namespace Sys2Proof
namespace Machine

/-! ## Atomic operations (08 R140, R142) -/

/-- The low `n` bytes of a word as a signed number. -/
def sgnOf (w : W64) (n : Nat) : Int := sext w.toNat (8 * n)

/-- The low `n` bytes of a word. -/
def lowOf (w : W64) (n : Nat) : Nat := w.toNat % 2 ^ (8 * n)

/-- The low 32 bits as an f32 code. -/
def asF32 (w : W64) : W32 := BitVec.ofNat 32 w.toNat

/-- Op(old, P) of R140, with the operand Q that cas writes; none where cas does not write. -/
def atomicOp (op n : Nat) (old p q : W64) : Option W64 :=
  match op with
  | 0 => some (w64 ((old.toNat + p.toNat) % 2 ^ (8 * n)))
  | 1 => some (w64 (lowOf (old &&& p) n))
  | 2 => some (w64 (lowOf (old ||| p) n))
  | 3 => some (w64 (lowOf (old ^^^ p) n))
  | 4 => some (if sgnOf p n < sgnOf old n then w64 (lowOf p n) else old)
  | 5 => some (if sgnOf old n < sgnOf p n then w64 (lowOf p n) else old)
  | 6 => some (if lowOf p n < lowOf old n then w64 (lowOf p n) else old)
  | 7 => some (if lowOf old n < lowOf p n then w64 (lowOf p n) else old)
  | 8 => some (w64 (lowOf p n))
  | 9 => if lowOf old n = lowOf p n then some (w64 (lowOf q n)) else none
  | 10 => some (w64 (f32add (asF32 old) (asF32 p)).toNat)
  | 11 => some (w64 (f32max (asF32 old) (asF32 p)).toNat)
  | _ => none

/-- The identity of a commutative update (R234 case 1). -/
def redIdentity (op n : Nat) : W64 :=
  match op with
  | 0 => 0
  | 1 => 0x80000000#64
  | 2 => w64 (2 ^ (8 * n - 1))
  | _ => w64 (2 ^ (8 * n) - 1)

/-- One pairwise step of a merge; an identity element leaves its partner unchanged (R234 case 2). -/
def redCombine (op n : Nat) (a b : W64) : W64 :=
  if lowOf a n = (redIdentity op n).toNat then b
  else if lowOf b n = (redIdentity op n).toNat then a
  else
    match op with
    | 0 => w64 ((a.toNat + b.toNat) % 2 ^ (8 * n))
    | 1 => w64 (f32add (asF32 a) (asF32 b)).toNat
    | 2 => if sgnOf a n < sgnOf b n then b else a
    | _ => if lowOf b n < lowOf a n then b else a

/-- The merge of a base and partial values in the order that the free value `f` picks. -/
def mergeVals (op n f : Nat) : Nat → List W64 → W64
  | 0, l => l.headD 0
  | fuel + 1, l =>
    match l with
    | [] => 0
    | [x] => x
    | _ =>
      let (i, j) := Config.mergePick f l.length
      let i := i % l.length
      let j := j % (l.length - 1)
      let j := if i ≤ j then j + 1 else j
      let v := redCombine op n (l.getD i 0) (l.getD j 0)
      let rest := if i < j then removeAt i (removeAt j l) else removeAt j (removeAt i l)
      mergeVals op n f fuel (v :: rest)

/-! ## Lines (R231 to R234) -/

/-- The directory slice of a line. -/
def State.dirSlice (s : State) (p ln : Nat) : Nat :=
  let k := s.part p
  let ks := k.clusters
  ks.getD (Config.directorySlice ln k.px k.py k.pw k.ph % ks.length) 0

/-- The home of a line: a partition's lines never have one outside its rectangle (R231). -/
def State.homeOf (s : State) (p ln : Nat) : Nat :=
  match (s.line ln).home with
  | some k => if (s.part p).holds k then k else s.dirSlice p ln
  | none => s.dirSlice p ln

/-- The lines of a range of memory: line number and guest physical address of the first byte in it. -/
def linesOf (phys gpa n : Nat) : List (Nat × Nat) :=
  (upto ((phys + n - 1) / 128 - phys / 128 + 1)).map fun i =>
    (phys / 128 + i, if i = 0 then gpa else gpa - phys % 128 + 128 * i)

/-- The memory key of a partition: that of its resident context (24_protection.md R342). -/
def State.keyOf (s : State) (p : Nat) : Option Nat := (s.ctx (s.part p).ctx).key

/-- A line's tag does not match for a partition: it was written under another key or for another partition, or has an uncorrectable error
(24_protection.md R342). The tag binds the line's address by being kept with the line. -/
def State.foreign (s : State) (p phys : Nat) : Bool :=
  let l := s.line (phys / 128)
  l.bad || match l.key, s.keyOf p with
    | some a, some b => a != (b, p)
    | _, _ => false

/-- The lines of a range, written for a partition, bear its tag. A line that does not verify is made good by a write of all of it; a
write of a part leaves it with its error, for the rest of it cannot be read (R342). -/
def State.tagLines (s : State) (p phys n : Nat) : State :=
  (linesOf phys 0 n).foldl (fun s l =>
    let whole := decide (phys ≤ 128 * l.1 ∧ 128 * l.1 + 128 ≤ phys + n)
    let k := s.line l.1
    let new : Line := if !whole && s.foreign p (128 * l.1) then { k with bad := true }
      else { k with key := (s.keyOf p).map fun x => (x, p), bad := false }
    if new = k then s else s.setLine l.1 new) s

/-- The merge of a line's partial lines into its base. -/
def State.mergeLine (s : State) (ln : Nat) : State :=
  let l := s.line ln
  if l.partials.isEmpty then s
  else
    let (f, s) := s.nextFree
    let elems := (l.partials.flatMap fun c => c.2.map (·.1)).dedup
    let s := elems.foldl (fun s e =>
      let a := 128 * ln + e * l.size
      let vs := w64 (leVal (s.rdBytes a l.size)) :: l.partials.filterMap fun c => Tbl.get? c.2 e
      (s.wrBytes a (leBytes l.size (mergeVals l.op l.size (128 * f + e) vs.length vs).toNat)).tagLines l.owner a l.size) s
    s.setLine ln { s.line ln with partials := [], op := 0, size := 0 }

/-- One partial line is merged into the base (R234 case 3). -/
def State.evictPartial (s : State) (ln src : Nat) : State :=
  let l := s.line ln
  match l.partials.find? fun c => c.1 == src with
  | none => s
  | some c =>
    let s := c.2.foldl (fun s e =>
      let a := 128 * ln + e.1 * l.size
      let v := redCombine l.op l.size (w64 (leVal (s.rdBytes a l.size))) e.2
      (s.wrBytes a (leBytes l.size v.toNat)).tagLines l.owner a l.size) s
    s.setLine ln { s.line ln with partials := l.partials.filter fun c => c.1 != src }

/-- The guest physical address lies in a page that is marked migrating (R241). -/
def Partition.moves (k : Partition) (gpa : Nat) : Bool :=
  k.migrating.any fun e => decide (e.1 ≤ gpa ∧ gpa < e.1 + e.2.2)

/-- The tile fetch unit of a core pins the line (11_matrix_unit.md R209). -/
def State.linePinned (s : State) (ln : Nat) : Bool := s.cores.any fun e => e.2.pins.any fun q => q.line == some ln

/-- A request of a cluster counts at the line, and may start its migration (R232). A RED is a request and no ordinary read, store or atomic:
one of the home's own cluster leaves the count. -/
def State.touchLine (s : State) (p ln gpa : Nat) (src : Option Nat) (red : Bool := false) : State :=
  match src with
  | none => s
  | some k =>
    let l := s.line ln
    if k = s.homeOf p ln then (if l.count = 0 || red then s else s.setLine ln { l with count := 0 })
    else
      let n := if l.count ≠ 0 ∧ l.cand = k then Nat.min 3 (l.count + 1) else 1
      let go := decide (n = 3) && l.partials.isEmpty && l.moving.isNone && !(s.part p).moves gpa && !s.linePinned ln
      s.setLine ln { l with cand := k, count := n, moving := if go then some k else l.moving }

/-- The ordinary access of a cluster to the lines of a range: partial sums are merged, the access counts. -/
def State.openLines (s : State) (src : Option Nat) (p phys gpa n : Nat) : State :=
  (linesOf phys gpa n).foldl (fun s l => (s.mergeLine l.1).touchLine p l.1 l.2 src) s

/-- Bytes read at their home. -/
def State.homeRead (s : State) (src : Option Nat) (p phys gpa n : Nat) : State × List Byte :=
  let s := s.openLines src p phys gpa n
  (s, s.rdBytes phys n)

/-- A doubleword read at its home, without a count for any cluster: a page walk, the front end. -/
def State.homeWord (s : State) (phys : Nat) : State × W64 :=
  let s := s.mergeLine (phys / 128)
  (s, w64 (leVal (s.rdBytes phys 8)))

/-- Nibble-masked bytes written where they lie. -/
def State.wrNibs (s : State) (phys : Nat) (bs : List NibByte) : State :=
  bs.foldl (fun s b => s.wrByte (phys + b.pos) (mergeNib b (s.rdByte (phys + b.pos)))) s

/-- Bytes written at their home. -/
def State.homeWrite (s : State) (src : Option Nat) (p phys gpa : Nat) (bs : List NibByte) : State :=
  let n := bs.foldl (fun m b => Nat.max m (b.pos + 1)) 1
  ((s.openLines src p phys gpa n).wrNibs phys bs).tagLines p phys n

/-- A commutative update for a partition enters the partial line of a contributor: a cluster, or 256 and a device (R142, R234). The request
counts at its line, which then holds a partial sum and does not migrate. -/
def State.redEnter (s : State) (p gpa contrib phys op n : Nat) (v : W64) : State :=
  let ln := phys / 128
  let l := s.line ln
  let s := if !l.partials.isEmpty && (l.op != op || l.size != n) then s.mergeLine ln else s
  let l := s.line ln
  let e := phys % 128 / n
  let mine := ((l.partials.find? fun c => c.1 == contrib).map (·.2)).getD []
  let cur := (Tbl.get? mine e).getD (redIdentity op n)
  let s := s.setLine ln { l with
    owner := p, op := op, size := n,
    partials := (l.partials.filter fun c => c.1 != contrib) ++ [(contrib, Tbl.set mine e (redCombine op n cur (w64 (lowOf v n))))] }
  s.touchLine p ln gpa (if contrib < 256 then some contrib else none) true

/-! ## Snapshots (24 R339, R340) -/

/-- Bytes of HBM (R240). -/
def hbmBytes : Nat := 576 * 2 ^ 30

/-- The entry's address of a guest physical address in the partition's snapshot range. -/
def Partition.snapEntry? (k : Partition) (gpa : Nat) : Option Nat :=
  if k.snapEn && decide (k.snapBase ≤ gpa) && decide (gpa < k.snapBase + 65536 * k.snapPages) then
    some (k.snapTable + 16 * ((gpa - k.snapBase) / 65536))
  else none

/-- A snapshot entry as it stands in memory. -/
def State.snapEntry (s : State) (a : Nat) : BitVec 128 := BitVec.ofNat 128 (leVal (s.rdBytes a 16))

/-- Frame 1 or frame 0 of a snapshot entry. -/
def snapFrame (e : BitVec 128) (one : Bool) : Nat := 65536 * (if one then field e 71 48 else field e 23 0)

/-- The frame that holds a page's sealed data: F[LIVE] when WE ≤ EPOCH, the other otherwise (R341). -/
def sealedFrame (e : BitVec 128) (epoch : Nat) : Nat :=
  snapFrame e (if field e 127 96 ≤ epoch then bitAt e 24 else !bitAt e 24)

/-- A write to the page must copy it first: WE < EPOCH + 1. DESIGN CHOICE (log entry 4): an entry beyond HBM is none. -/
def State.needsCow (s : State) (p gpa : Nat) : Bool :=
  match (s.part p).snapEntry? gpa with
  | none => false
  | some a => decide (a + 16 ≤ hbmBytes) && decide (field (s.snapEntry a) 127 96 < (s.part p).snapEpoch + 1)

/-! ## What parks at a home (R233, R241, 22 R323) -/

/-- A line on the move, being scrubbed, or of a page that migrates. -/
def State.lineHeld (s : State) (p : Nat) (l : Nat × Nat) : Bool :=
  (s.line l.1).moving.isSome || (s.line l.1).scrub || (s.part p).moves l.2

/-- A request that reaches the lines of a range is parked there. -/
def State.busy (s : State) (p phys gpa n : Nat) (write : Bool) : Bool :=
  ((linesOf phys gpa n).any fun l => s.lineHeld p l) || (write && s.needsCow p gpa)

/-- Bytes from the range's start to the first of its lines that parks a request: that line's home is where it parks. -/
def State.heldOff (s : State) (p phys gpa n : Nat) : Nat :=
  match (linesOf phys gpa n).find? fun l => s.lineHeld p l with
  | some l => 128 * l.1 - phys
  | none => 0

/-- Some entry that is performed for the cluster alone touches a line of `n` bytes of a place (14_ordering.md R244): of any core of the
cluster, but not of the task that `own` names by its core and number. -/
def State.nearOpen (s : State) (k : Nat) (own : Option (Nat × Nat)) (loc : Loc) (n : Nat) : Bool :=
  (coresOf k).any fun c => (s.core c).flight.any fun f => f.e.near && own != some (c, f.e.task) && f.e.onLines loc n

/-- The earlier writes that a release does not wait for are performed for the cluster as it goes. -/
def State.nearNow (s : State) (c : Nat) (e : Entry) : State :=
  if ((s.core c).nears e).isEmpty then s else s.modCore c fun k => k.nearAll e

/-- A release may go before the writes that it does not wait for: no other task's entry is performed for the cluster alone on their lines. -/
def State.mayNear (s : State) (c : Nat) (e : Entry) : Bool :=
  ((s.core c).nears e).all fun f => !s.nearOpen (clusterOf c) (some (c, e.task)) f.loc f.span

/-- A copy on write begins for the page of an address, if one is due and none runs. -/
def State.startCow (s : State) (p gpa : Nat) : State :=
  if s.needsCow p gpa && !(s.part p).cow.contains (gpa / 65536) then
    s.modPart p fun k => { k with cow := k.cow ++ [gpa / 65536] }
  else s

/-- The cluster whose park queue takes a request for a place: its line's home. DESIGN CHOICE (log entry 7): a request whose
translation waits parks at the directory slice of the line with the number of the guest physical address that stage 2 does not map. -/
def State.parkHome (s : State) : Loc → Nat
  | .hbm p phys _ _ => s.homeOf p (phys / 128)
  | .unmapped p _ gpa => s.dirSlice p (gpa / 128)
  | _ => 0

/-- A place in the park queue of a cluster: 64 requests (R323). -/
def State.parkRoom (s : State) (k : Nat) : Bool := decide ((s.cluster k).park.length < 64)

/-- The home at which a request parks. -/
def State.homeFor (s : State) (r : Parked) : Nat := s.parkHome (r.loc.add r.off)

/-- A request parks at the home of the line that it waits for, behind every one that is parked. -/
def State.parkAt (s : State) (r : Parked) : State :=
  let next := s.clusters.foldl (fun m e => e.2.park.foldl (fun m x => Nat.max m (x.seq + 1)) m) 0
  s.modCluster (s.homeFor r) fun k => { k with park := k.park ++ [{ r with seq := next }] }

/-- The parked read of a core: at the home of the line that it waits for. -/
def State.loadPark (s : State) (c req : Nat) (loc : Loc) (n : Nat) : Parked where
  who := .load n
  src := c
  req := req
  loc := loc
  off := match loc with | .hbm p phys _ gpa => s.heldOff p phys gpa n | _ => 0

/-- A request of the core was refused by the full park queue of a home; later ones to that home wait (22 R323). -/
def State.refusedAt (s : State) (c h : Nat) : Bool :=
  let k := s.core c
  (k.flight.any fun f => f.st == .refused && decide (s.parkHome f.e.loc = h))
    || (k.slots.any fun e => e.2.wait == .refused h)
    || (k.mxq.any fun e => e.refused == some h) || (k.cpq.any fun e => e.refused == some h) || k.rdxRefused.any fun e => e.2 == h

/-- An access that is made again parks a mark at the home of the line of a guest physical address; none where the park queue is full. -/
def State.parkAgain (s : State) (src req p gpa : Nat) : Option State :=
  let r : Parked := { who := .again, src := src, req := req, loc := .unmapped p 0 gpa }
  if s.parkRoom (s.homeFor r) then some (s.parkAt r) else none

/-- What is under way on the message plane, the requests parked at homes with it. -/
def State.underway (s : State) : List NetItem :=
  s.net ++ s.clusters.flatMap fun e => e.2.park.filterMap fun r => match r.who with | .item x => some x | _ => none

/-! ## L1 (R229, R230) -/

/-- The portion that holds a line for a core: its own, or the owner by bits [9:7] of the address when fused. -/
def State.portion (s : State) (c ln : Nat) : Nat :=
  if (s.core c).fused then 16 * clusterOf c + ln % 8 else c

/-- A load of the core hits the line. -/
def State.l1Hit (s : State) (c ln : Nat) : Bool :=
  match Tbl.get? (s.core (s.portion c ln)).l1 ln with
  | some l => !(s.core c).fused || l.valid.contains c
  | none => false

/-- A line leaves a portion. -/
def State.l1Drop (s : State) (c ln : Nat) : State := s.modCore c fun k => { k with l1 := Tbl.del k.l1 ln }

/-- A line enters the portion that holds it for a core, or its bit is set there; a full portion gives up a line. -/
def State.l1Install (s : State) (c ln : Nat) (bs : List Byte) : State :=
  let o := s.portion c ln
  let old := Tbl.get? (s.core o).l1 ln
  let s :=
    if old.isSome || decide ((s.core o).l1.length < s.l1Lines o) then s
    else
      let (f, s) := s.nextFree
      let n := (s.core o).l1.length
      match (s.core o).l1[Config.evictPick f n % n]? with
      | some e => s.l1Drop o e.1
      | none => s
  let valid := match old with | some l => c :: l.valid.filter (· != c) | none => [c]
  s.modCore o fun k => { k with l1 := Tbl.set k.l1 ln ⟨bs, valid⟩ }

/-- An acquire at group scope or wider invalidates the core's L1 (R229 case 3, R230 case 2). -/
def State.l1Invalidate (s : State) (c : Nat) : State :=
  if (s.core c).fused then
    ((upto 8).map fun j => 16 * clusterOf c + j).foldl (fun s o =>
      s.modCore o fun k => { k with l1 := k.l1.map fun e => (e.1, { e.2 with valid := e.2.valid.filter (· != c) }) }) s
  else s.modCore c fun k => { k with l1 := [] }

/-- The acquire of a core at a scope (14 R246). -/
def State.acquire (s : State) (c : Nat) (sc : Scope) : State :=
  if sc = .core then s else s.l1Invalidate c

/-- Stored bytes in an L1 line. -/
def patchLine (ln phys : Nat) (bs : List NibByte) (data : List Byte) : List Byte :=
  data.zipIdx.map fun d =>
    bs.foldl (fun v b => if phys + b.pos = 128 * ln + d.2 then mergeNib b v else v) d.1

/-- A drained store updates the line in the issuing core's L1, if it is there (R229 case 1). -/
def State.l1Store (s : State) (c phys : Nat) (bs : List NibByte) : State :=
  ((bs.map fun b => (phys + b.pos) / 128).dedup).foldl (fun s ln =>
    s.modCore (s.portion c ln) fun k =>
      match Tbl.get? k.l1 ln with
      | some l => { k with l1 := Tbl.set k.l1 ln { l with data := patchLine ln phys bs l.data } }
      | none => k) s

/-- The line is in the L1 of the core, fetched at its home when a load misses. -/
def State.l1Fetch (s : State) (c p ln gpa : Nat) : State :=
  if s.l1Hit c ln then s
  else
    let (s, bs) := s.homeRead (some (clusterOf c)) p (128 * ln) (gpa - gpa % 128) 128
    s.l1Install c ln bs

/-- A weak load of partition memory needs the home: some line of it misses. -/
def State.weakMisses (s : State) (c phys gpa n : Nat) : Bool :=
  decide (s.l1Lines c = 0) || (linesOf phys gpa n).any fun l => !s.l1Hit c l.1

/-- A weak load of partition memory (R229): from the L1, filled as it misses; at the home when the core has no L1. -/
def State.weakRead (s : State) (c p phys gpa n : Nat) : State × List Byte :=
  if s.l1Lines c = 0 then s.homeRead (some (clusterOf c)) p phys gpa n
  else
    let s := (linesOf phys gpa n).foldl (fun s l => s.l1Fetch c p l.1 l.2) s
    (s, (upto n).map fun i =>
      let a := phys + i
      match Tbl.get? (s.core (s.portion c (a / 128))).l1 (a / 128) with
      | some l => l.data.getD (a % 128) 0
      | none => s.rdByte a)

end Machine
end Sys2Proof
end

