-- ==== Sys2Proof/Machine/Translate.lean ====
section
/-! DEFINITION. From an effective address to the place of its bytes: the four spaces, the peer table, the two stages of
translation and their caches (13_memory_hierarchy.md R226, R227, R236 to R239; 20_fabric.md R297, R298, R307; 08 R133). -/

namespace Sys2Proof
namespace Machine

/-- What an access does, as far as rights go (R236 case 2). -/
inductive Access where
  /-- Vector and pair loads, TMAD. -/
  | read
  /-- Engine and RDX sources: no loads. -/
  | fetch
  /-- LD or LDS: the one access that reaches a status word. -/
  | scalarRead
  | write
  | red
  | atomic
  | clean
  | inval
deriving DecidableEq, Repr

def Access.isRead : Access → Bool
  | .read => true
  | .fetch => true
  | .scalarRead => true
  | _ => false

/-- The page rights that an access needs: read, write, atomic. -/
def Access.needs : Access → Bool × Bool × Bool
  | .read => (true, false, false)
  | .fetch => (true, false, false)
  | .scalarRead => (true, false, false)
  | .write => (false, true, false)
  | .red => (false, true, true)
  | .atomic => (true, true, true)
  | .clean => (true, false, false)
  | .inval => (false, false, false)

/-- A needed right is not given. -/
def lacks (need : Bool × Bool × Bool) (r w a : Bool) : Bool :=
  (need.1 && !r) || (need.2.1 && !w) || (need.2.2 && !a)

/-- What translation finds: a place, a fault with its cause, a stage-2 fault that the hypervisor answers, a walk that waits at the home of
an entry's line (22 R323; the entry's guest physical address), or one that waits for a slot of the memory plane (20 R289). -/
inductive Xl where
  | at_ (l : Loc)
  | bad (cause : Nat)
  | wait (gpa : Nat)
  | later (gpa : Nat)
  | shut
deriving DecidableEq, Repr

/-! ## Tables (R236) -/

/-- Levels: number, place of the index, entries. -/
def levels : List (Nat × Nat × Nat) := [(0, 39, 512), (1, 30, 512), (2, 21, 512), (3, 16, 32)]

/-- Fields of an entry. -/
def pteAddr (e : W64) : Nat := field e 47 8 * 256
def pteT (e : W64) : Bool := bitAt e 1
def pteR (e : W64) : Bool := bitAt e 2
def pteW (e : W64) : Bool := bitAt e 3
def pteA (e : W64) : Bool := bitAt e 4

/-- A valid and well-formed entry of a level (R236 case 1). -/
def pteGood (lvl shift : Nat) (e : W64) : Bool :=
  bitAt e 0 && decide (field e 63 48 = 0) && decide (field e 7 5 = 0) && !(decide (lvl = 0) && !pteT e)
    && !(decide (lvl = 3) && pteT e) && !((pteW e || pteA e) && !pteR e)
    && (if pteT e then decide (lvl = 2 ∨ pteAddr e % 4096 = 0) else decide (pteAddr e % 2 ^ shift = 0))

/-- The walk of stage 2 from a table: the leaf and its page size. -/
def walk2 (gpa : Nat) : State → Nat → List (Nat × Nat × Nat) → State × Option (W64 × Nat)
  | s, _, [] => (s, none)
  | s, table, (lvl, shift, n) :: r =>
    let (s, e) := s.homeWord (table + 8 * (gpa / 2 ^ shift % n))
    if !pteGood lvl shift e then (s, none)
    else if pteT e then walk2 gpa s (pteAddr e) r
    else (s, some (e, 2 ^ shift))

/-- Stage 2 of a guest physical address: device physical address, page size, leaf. A leaf beyond HBM, or one that maps into
the snapshot range with another page size, is ill-formed; in that range the frame is the live one (R339). DESIGN CHOICE (log entry 4): a
live frame beyond HBM, and an entry of the snapshot table beyond HBM, are taken as an ill-formed leaf is, for R339 states no outcome for
one. -/
def State.stage2 (s : State) (p gpa : Nat) : State × Option (Nat × Nat × W64) :=
  let k := s.part p
  match walk2 gpa s (s.ctx k.ctx).s2root levels with
  | (s, none) => (s, none)
  | (s, some (e, size)) =>
    let base := gpa / size * size
    let inSnap := k.snapEn && decide (base < k.snapBase + 65536 * k.snapPages) && decide (k.snapBase < base + size)
    if hbmBytes < pteAddr e + size then (s, none)
    else if inSnap then
      if size ≠ 65536 then (s, none)
      else
        match k.snapEntry? gpa with
        | some a =>
          if hbmBytes < a + 16 then (s, none)
          else
          let f := snapFrame (s.snapEntry a) (bitAt (s.snapEntry a) 24)
          if hbmBytes < f + 65536 then (s, none) else (s, some (f + gpa % 65536, size, e))
        | none => (s, some (pteAddr e + gpa % size, size, e))
    else (s, some (pteAddr e + gpa % size, size, e))

/-- The addresses of the stage-2 entries that a walk reads. -/
def path2 (gpa : Nat) : State → Nat → List (Nat × Nat × Nat) → List Nat
  | _, _, [] => []
  | s, table, (lvl, shift, n) :: r =>
    let a := table + 8 * (gpa / 2 ^ shift % n)
    let e := (s.homeWord a).2
    a :: if pteGood lvl shift e && pteT e then path2 gpa s (pteAddr e) r else []

/-- The lines of stage-2 entries that a walk of an address reads: one of them is on the move or being scrubbed; one of them has an
uncorrectable error. -/
def State.held2 (s : State) (p gpa : Nat) : Bool :=
  (path2 gpa s (s.ctx (s.part p).ctx).s2root levels).any fun a => (s.line (a / 128)).moving.isSome || (s.line (a / 128)).scrub
def State.bad2 (s : State) (p gpa : Nat) : Bool :=
  (path2 gpa s (s.ctx (s.part p).ctx).s2root levels).any fun a => (s.line (a / 128)).bad

/-- What the walk of stage 1 finds: the leaf, its page size, and the entries read on the way. -/
inductive Walk1 where
  | leaf (e : W64) (size : Nat) (via : List (Nat × Nat))
  | bad
  | wait (gpa : Nat)
  /-- A table's line is on the move or being scrubbed. -/
  | later (gpa : Nat)
  /-- A table's line bears another partition's tag: an uncorrectable error (24_protection.md R342). -/
  | ecc
deriving DecidableEq, Repr

/-- The walk of stage 1; its tables are read through stage 2 (R236 case 4). -/
def walk1 (p gva : Nat) : State → Nat → List (Nat × Nat) → List (Nat × Nat × Nat) → State × Walk1
  | s, _, _, [] => (s, .bad)
  | s, table, via, (lvl, shift, n) :: r =>
    let a := table + 8 * (gva / 2 ^ shift % n)
    if s.held2 p a then (s, .later a)
    else if s.bad2 p a then (s, .ecc)
    else
    match s.stage2 p a with
    | (s, none) => (s, .wait a)
    | (s, some (pa, size, e2)) =>
      if !pteR e2 then (s, .wait a)
      else if s.busy p pa a 8 false then (s, .later a)
      else if s.foreign p pa then (s, .ecc)
      else
        let (s, e) := s.homeWord pa
        if !pteGood lvl shift e then (s, .bad)
        else if pteT e then walk1 p gva s (pteAddr e) (via ++ [(a, size)]) r
        else (s, .leaf e (2 ^ shift) (via ++ [(a, size)]))

/-- The stage-1 root keeps the rules of R237. -/
def rootGood (w : W64) : Bool := bitAt w 0 && decide (field w 63 48 = 0) && decide (field w 11 1 = 0)

/-- A cached translation that covers an address. -/
def tlbFind (l : List TlbEnt) (p gva : Nat) : Option TlbEnt :=
  l.find? fun e => e.part == p && decide (e.va ≤ gva ∧ gva < e.va + e.size)

/-- An entry in front of a cache of `n`; one for the same address gives way. -/
def tlbAdd (n : Nat) (l : List TlbEnt) (e : TlbEnt) : List TlbEnt :=
  (e :: l.filter fun x => !(x.part == e.part && decide (x.va < e.va + e.size ∧ e.va < x.va + x.size))).take n

/-- The cluster whose cache a request uses: its core's. DESIGN CHOICE (log entry 7): the partition's cluster (0,0) for a request of no core
here, one of another device, of an RDX or of the front end. -/
def State.tlbCluster (s : State) (c : Option Nat) (p : Nat) : Nat := clusterOf (c.getD (s.part p).supCore)

/-- The caches of a core and of its cluster take an entry (R239). -/
def State.cacheTlb (s : State) (c : Option Nat) (e : TlbEnt) : State :=
  let s := match c with | none => s | some c => s.modCore c fun k => { k with tlb := tlbAdd 64 k.tlb e }
  s.modCluster (s.tlbCluster c e.part) fun k => { k with tlb := tlbAdd 1024 k.tlb e }

/-- A walk of both stages, over the memory plane (20 R289); a home replays a walk that has been sent already. -/
def State.walkBoth (s : State) (c : Option Nat) (p gva : Nat) (again : Bool := false) : State × Except Xl TlbEnt :=
  let root := (s.ctx (s.part p).ctx).root1
  if !rootGood root then (s, .error (.bad Cause.translate))
  else if !again && !s.planeOpen p then (s, .error .shut)
  else
    match walk1 p gva s (field root 47 12 * 4096) [] levels with
    | (s, .bad) => (s, .error (.bad Cause.translate))
    | (s, .ecc) => (s, .error (.bad Cause.ecc))
    | (s, .wait a) => (s, .error (.wait a))
    | (s, .later a) => (s, .error (.later a))
    | (s, .leaf e size1 via) =>
      let gpa := pteAddr e + gva % size1
      if s.held2 p gpa then (s, .error (.later gpa))
      else if s.bad2 p gpa then (s, .error (.bad Cause.ecc))
      else
      match s.stage2 p gpa with
      | (s, none) => (s, .error (.wait gpa))
      | (s, some (pa, size2, e2)) =>
        let size := Nat.min size1 size2
        let t : TlbEnt := { part := p, va := gva / size * size, size := size, pa := pa - gva % size, gpa := gpa - gva % size,
                            s2size := size2, r := pteR e, w := pteW e, a := pteA e, r2 := pteR e2, w2 := pteW e2, a2 := pteA e2, via := via }
        (s.cacheTlb c t, .ok t)

/-- The place that a translation gives, with its rights checked: stage 1 first (R238). -/
def placeBy (p gva : Nat) (acc : Access) (t : TlbEnt) : Xl :=
  if lacks acc.needs t.r t.w t.a then .bad Cause.permission
  else if lacks acc.needs t.r2 t.w2 t.a2 then .wait (t.gpa + (gva - t.va))
  else .at_ (.hbm p (t.pa + (gva - t.va)) gva (t.gpa + (gva - t.va)))


/-- The offset in a range of its first byte that lies in a foreign line. -/
def State.foreignIn (s : State) (p phys n : Nat) : Option Nat :=
  ((upto ((phys % 128 + n + 127) / 128)).find? fun k => s.foreign p (phys / 128 * 128 + 128 * k)).map fun k => 128 * k - phys % 128

/-- A read of a line whose tag does not match is an uncorrectable error (R342). -/
def checkTag (acc : Access) : State × Xl → State × Xl
  | (s, .at_ (.hbm p phys gva gpa)) =>
    if acc.isRead && s.foreign p phys then (s, .bad Cause.ecc) else (s, .at_ (.hbm p phys gva gpa))
  | x => x

/-- Translation of a guest virtual address of a partition, through the caches of a core when one is given, and of its cluster. -/
def State.xlateMem (s : State) (c : Option Nat) (p gva : Nat) (acc : Access) (again : Bool := false) : State × Xl :=
  let hit := (c.bind fun c => tlbFind (s.core c).tlb p gva).orElse fun _ => tlbFind (s.cluster (s.tlbCluster c p)).tlb p gva
  let walk : State × Xl :=
    match s.walkBoth c p gva again with
    | (s, .ok t) => (s, placeBy p gva acc t)
    | (s, .error x) => (s, x)
  checkTag acc <|
    match hit with
    | some t =>
      match placeBy p gva acc t with
      | .wait _ => walk
      | x => (s.cacheTlb c t, x)
    | none => walk

/-- The device physical address of a guest physical address now, as stage 2 has it. -/
def State.physNow (s : State) (p gpa : Nat) : State × Option Nat :=
  match s.stage2 p gpa with
  | (s, some (pa, _, _)) => (s, some pa)
  | (s, none) => (s, none)

/-- A stage-2 fault: a record for the hypervisor, once for an address (R238 case 3). -/
def State.noteFill (s : State) (p gpa : Nat) : State :=
  if (s.part p).faults.contains gpa then s
  else { s.modPart p fun k => { k with faults := k.faults ++ [gpa] } with alerts := s.alerts ++ [.stage2Fault p gpa] }

/-! ## The peer table (20 R297, R298) -/

/-- The device holds a fabric key of the domain. -/
def State.hasKey (s : State) (dom : Nat) : Bool := (Tbl.get? s.fabric.keys dom).isSome

/-- The entry gives rights: valid, well-formed, of the partition's own domain, whose key the device holds. -/
def State.peerGood (s : State) (p : Nat) (w : BitVec 128) : Bool :=
  bitAt w 0 && decide (field w 127 80 = 0) && decide (field w 27 9 = 0) && decide (field w 2 1 = 0)
    && decide (field w 67 52 = (s.ctx (s.part p).ctx).domain) && s.hasKey (field w 67 52)

/-- The entry of a handle, if it gives any right. -/
def State.peer? (s : State) (p h : Nat) : Option (BitVec 128) :=
  if h < (s.part p).peerLen then
    match Tbl.get? (s.part p).peers h with
    | some w => if s.peerGood p w then some w else none
    | none => none
  else none

/-- Access through a handle. -/
def State.xlatePeer (s : State) (p h a n : Nat) (acc : Access) : Xl :=
  match s.peer? p h with
  | none => .bad Cause.permission
  | some w =>
    if bitAt w 8 then
      if acc = .write && bitAt w 4 && decide (a + n ≤ 2 ^ 20) then .at_ (.stream (field w 79 68) a) else .bad Cause.permission
    else
      let right :=
        match acc with
        | .read => bitAt w 3
        | .fetch => bitAt w 3
        | .scalarRead => bitAt w 3
        | .clean => bitAt w 3
        | .write => bitAt w 4
        | .red => bitAt w 4
        | .atomic => bitAt w 5
        | .inval => true
      if right then .at_ (.peer (field w 45 28) (field w 51 46) a (field w 67 52)) else .bad Cause.permission

/-! ## The own space and the core window (R226, R227) -/

/-- The own space of a core. -/
def State.xlateOwn (s : State) (c off n : Nat) (acc : Access) : Xl :=
  if off + n ≤ s.spadSize c then .at_ (.spad c off)
  else if 0x80000 ≤ off ∧ off < 0x80020 then
    if acc = .scalarRead ∧ n = 8 then .at_ (.status c ((off - 0x80000) / 8)) else .bad Cause.permission
  else .bad Cause.translate

/-- The core window of a partition; `sup` says that the access comes from the supervisor slot. DESIGN CHOICE (log entry 13): an atomic on
an IMEM, and a store there of another size than 2, 4 or 8 bytes, has the cause PERMISSION; and an engine or an RDX may read an IMEM, for the
row of R227 speaks of loads and stores only. -/
def State.xlateWindow (s : State) (p : Nat) (sup : Bool) (off n : Nat) (acc : Access) : Xl :=
  let k := s.part p
  let y := off / 2 ^ 44 % 16
  let x := off / 2 ^ 40 % 16
  let i := off / 2 ^ 36 % 16
  let o := off % 2 ^ 32
  if k.ph < y ∨ k.pw < x then .bad Cause.permission
  else if 9 ≤ i ∨ off / 2 ^ 32 % 16 ≠ 0 then .bad Cause.translate
  else
    let c := coreAt (k.px + x) (k.py + y) i
    if o + n ≤ s.spadSize c then .at_ (.spad c o)
    else if 0x100000 ≤ o ∧ o + n ≤ 0x110000 then
      if acc.isRead || (acc = .write && decide (n = 2 ∨ n = 4 ∨ n = 8)) then .at_ (.imem c (o - 0x100000))
      else .bad Cause.permission
    else if 0x200000 ≤ o ∧ o + n ≤ 0x208000 then
      if acc.isRead && acc != .fetch && sup then .at_ (.inbox c (o - 0x200000)) else .bad Cause.permission
    else .bad Cause.translate

/-! ## All spaces (R133 case 1) -/

/-- The place of an access of a core. -/
def State.xlateAny (s : State) (c : Nat) (sup : Bool) (ea : W64) (n : Nat) (acc : Access) : State × Xl :=
  let place := field ea 63 48
  let off := field ea 47 0
  match s.corePart? c with
  | none => if place = 0xFFFE then (s, s.xlateOwn c off n acc) else (s, .bad Cause.translate)
  | some p =>
    if place = 0 then s.xlateMem (some c) p off acc
    else if place = 0xFFFE then (s, s.xlateOwn c off n acc)
    else if place = 0xFFFF then (s, s.xlateWindow p sup off n acc)
    else (s, s.xlatePeer p place off n acc)

/-- Translate of R21 for the current task: a trap with TADDR = ea, or the wait for a stage-2 fill, which ends in TRANSLATE
when the hypervisor fails it (R238). -/
def State.xlate (s : State) (ea : W64) (n : Nat) (acc : Access) : Except Stop (State × Loc) :=
  let c := s.curCore
  match s.xlateAny c (s.privileged c s.curSlot) ea n acc with
  | (s', .at_ l) => .ok (s', l)
  | (_, .bad cause) => trapAt cause ea
  | (_, .wait gpa) =>
    if s.cur.fillFailed then trapAt Cause.translate ea else .error (.hold (.fill gpa))
  | (_, .later gpa) => .error (.hold (.walk gpa))
  | (_, .shut) => .error (.hold .order)

/-- Translate for a load or a returning atomic: one that waits for a stage-2 fill does not hold its task; its request is parked, and a
failed fill returns with its result (R133 case 5, 22 R324). -/
def State.xlateLoad (s : State) (ea : W64) (n : Nat) (acc : Access) : Except Stop (State × Loc) :=
  let c := s.curCore
  match s.xlateAny c (s.privileged c s.curSlot) ea n acc with
  | (s, .at_ l) => .ok (s, l)
  | (_, .bad cause) => trapAt cause ea
  | (s, .wait gpa) =>
    let p := (s.corePart? c).getD 0
    .ok (s.noteFill p gpa, .unmapped p (field ea 47 0) gpa)
  | (s, .later gpa) => .ok (s, .unmapped ((s.corePart? c).getD 0) (field ea 47 0) gpa)
  | (_, .shut) => .error (.hold .order)

end Machine
end Sys2Proof
end

