-- ==== Sys2Proof/Machine/Operands.lean ====
section
/-! DEFINITION. Operands: general registers and the queue ports, vector registers and lanes, mask registers
(01_notation.md R9, R21; 06_issuing.md R80, R103, R104; 10_isa_vector.md R177). -/

namespace Sys2Proof
namespace Machine

/-! ## General registers and ports -/

/-- The next 8 bytes of the message's payload; an exhausted payload reads 0 and sets QPE (R103). -/
def State.qpay (s : State) : State × W64 :=
  let t := s.cur
  let bs := (t.msg.map (·.payload)).getD []
  if bs.length ≤ t.qpos then (s.modCur fun t => { t with qpe := true }, 0)
  else (s.modCur fun t => { t with qpos := t.qpos + 8 }, w64 (leVal ((bs.drop t.qpos).take 8)))

/-- Word `k` of a record. -/
def CRec.word (r : CRec) (k : Nat) : W64 :=
  match k with
  | 0 => r.w0
  | 1 => r.w1
  | 2 => r.w2
  | _ => r.w3

/-- The next unbound record is taken from the completion inbox by the current task (R104). -/
def State.takeRecord (s : State) : Option (CRec × State) :=
  match (s.core s.curCore).cinbox with
  | [] => none
  | r :: q => some (r, (s.modCore s.curCore fun k => { k with cinbox := q }).modCur fun t => { t with taken := t.taken ++ [r] })

/-- A read of `qcmp`: binds a record, then its words; the last one acquires (R104). -/
def State.qcmp (s : State) : State × W64 :=
  match s.cur.bound with
  | some (r, k) =>
    let s := s.modCur fun t => { t with bound := if k = 3 then none else some (r, k + 1), qce := false }
    (if k = 3 then s.l1Invalidate s.curCore else s, r.word k)
  | none =>
    match s.takeRecord with
    | none => (s.modCur fun t => { t with qce := true }, 0)
    | some (r, s) => (s.modCur fun t => { t with bound := some (r, 1), qce := false }, r.w0)

/-- G(n) (R21): g0 is 0, a port pops. -/
def readG (s : State) (n : Reg) : Except Stop (State × W64) :=
  match n.toNat with
  | 0 => .ok (s, 0)
  | 28 => .ok s.qpay
  | 29 => .ok (s, w64 s.cur.qbld.length)
  | 30 => .ok s.qcmp
  | 31 => s.wknx false
  | k => .ok (s, Tbl.find 0 s.cur.g k)

/-- SetG(n, x) (R21): g0 discards, a port takes its write rule. -/
def writeG (s : State) (n : Reg) (x : W64) : Except Stop State :=
  match n.toNat with
  | 0 => .ok s
  | 28 => trapBits Cause.illegal
  | 29 => if 256 ≤ s.cur.qbld.length then trapBits Cause.ringlen else .ok (s.modCur fun t => { t with qbld := t.qbld ++ [x] })
  | 30 => trapBits Cause.illegal
  | 31 => trapBits Cause.illegal
  | k => .ok (s.modCur fun t => { t with g := Tbl.put 0 t.g k x })

/-- The four registers of a quad, the first field's port rule applying to it alone. -/
def readQuad (s : State) (a : Reg) : Except Stop (State × Quad) := do
  let (s, x) ← readG s a
  let (s, y) ← readG s (a + 1)
  let (s, z) ← readG s (a + 2)
  let (s, w) ← readG s (a + 3)
  .ok (s, ⟨x, y, z, w⟩)

/-- The operands of an AMO: address, P, and Q that cas writes. -/
def amoOperands (a b : Reg) (op : BitVec 4) (s : State) : Except Stop (State × List W64) := do
  let (s, ea) ← readG s a
  let (s, p) ← readG s b
  let (s, q) ← if op = 9 then readG s (b + 1) else .ok (s, 0)
  .ok (s, [ea, p, q])

/-- A quad and a control word. -/
def quadOperands (a b : Reg) (s : State) : Except Stop (State × List W64) := do
  let (s, q) ← readQuad s a
  let (s, x) ← readG s b
  .ok (s, [q.a, q.b, q.c, q.d, x])

/-- The quad of such a list. -/
def quadOf (l : List W64) : Quad := ⟨l.getD 0 0, l.getD 1 0, l.getD 2 0, l.getD 3 0⟩

/-- The operands that a commit point reads or, while its drain waits, has read: nothing pops. -/
def peekOperands (s : State) (read : State → Except Stop (State × List W64)) : List W64 :=
  if s.cur.handed then s.cur.opnds else match read s with | .ok (_, l) => l | .error _ => []

/-! ## Vector registers and lanes -/

/-- V(n). -/
def readV (s : State) (n : Reg) : Vec := Tbl.find 0 s.cur.v n.toNat

/-- Vector register `n` written whole. -/
def writeV (s : State) (n : Reg) (x : Vec) : State := s.modCur fun t => { t with v := Tbl.put 0 t.v n.toNat x }

/-- Width of a lane code: 0 four bits, 1 a byte, 2 a halfword, 3 a word (R84). -/
def laneBits (lane : Nat) : Nat := 4 * 2 ^ lane

/-- Lanes of a width in a register. -/
def laneCount (w : Nat) : Nat := 512 / w

/-- Lane(x, i, w). -/
def laneOf (x : Vec) (i w : Nat) : Nat := x.toNat / 2 ^ (i * w) % 2 ^ w

/-- A register from its lanes of width `w`, the first lowest. -/
def joinLanes (w : Nat) : List Nat → Nat
  | [] => 0
  | x :: r => x % 2 ^ w + 2 ^ w * joinLanes w r

/-- The register whose lane `i` is `f i`. -/
def mkVec (w : Nat) (f : Nat → Nat) : Vec := BitVec.ofNat 512 (joinLanes w ((upto (laneCount w)).map f))

/-! ## Masks (10_isa_vector.md R177) -/

/-- Mask register `n`; m0 reads all ones. -/
def readM (s : State) (n : Nat) : W64 := if n = 0 then 0xFFFFFFFFFFFFFFFF#64 else Tbl.find 0 s.cur.m n

/-- Mask register `n` written; m0 discards. -/
def writeM (s : State) (n : Nat) (x : W64) : State :=
  if n = 0 then s else s.modCur fun t => { t with m := Tbl.put 0 t.m n x }

/-- Current rounding mode of the slot. -/
def State.roundMode (s : State) : Nat := field s.cur.regs.rndm 2 0

end Machine
end Sys2Proof
end

