-- ==== Sys2Proof/Machine/Flags.lean ====
section
/-! DEFINITION. Status words that are computed from the state when they are read, the control registers by number, and the
conditions of the integer compares (06_issuing.md R105, R106; 07 R113, R119). -/

namespace Sys2Proof
namespace Machine

/-! ## Conditions -/

/-- Signed and unsigned order of two words. -/
def slt64 (a b : W64) : Bool := decide (a.toInt < b.toInt)
def ult64 (a b : W64) : Bool := decide (a.toNat < b.toNat)

/-! ## EQST and CBUF (R106) -/

/-- Commands in the matrix queue, without the accumulator zeroing that a release puts there. -/
def Core.mxOcc (k : Core) : Nat := (k.mxq.filter fun e => !e.zeroing).length

/-- Unreleased matrix commands and copy requests of a slot's task. -/
def Core.mxUnrel (k : Core) (n task : Nat) : Nat :=
  (k.mxq.filter fun e => !e.released && !e.zeroing && e.slot == n && e.task == task).length
def Core.cpUnrel (k : Core) (n task : Nat) : Nat :=
  (k.cpq.filter fun e => !e.released && e.slot == n && e.task == task).length

/-- Records that have not left the completion inbox for good (R104 case 4). -/
def Core.records (k : Core) : Nat := k.cinbox.length + (k.slots.map fun e => e.2.taken.length).sum

/-- EQST of a slot. -/
def eqstWord (k : Core) (n : Nat) (t : Slot) : W64 :=
  w64 (ofBool t.qce * 2 ^ 63 + ofBool t.qpe * 2 ^ 62 + k.records % 128 * 2 ^ 16 + k.cpUnrel n t.task % 16 * 2 ^ 12
    + k.cpq.length % 16 * 2 ^ 8 + k.mxUnrel n t.task % 16 * 2 ^ 4 + k.mxOcc % 16)

/-- CBUF of a slot. -/
def cbufWord (k : Core) (t : Slot) : W64 :=
  w64 (ofBool t.taint * 2 ^ 33 + ofBool t.repl * 2 ^ 32 + tiles t.buf % 16 * 2 ^ 21 + coreSectors k % 2048 * 2 ^ 10
    + sectors t.buf % 512)

/-! ## Control registers (R105) -/

/-- CR(number) as the current slot reads it; none for a number that is not listed. -/
def State.readCR (s : State) (num : Nat) : Option W64 :=
  let t := s.cur
  let c := s.curCore
  let k := s.core c
  match num with
  | 0x000 => some t.regs.fmta
  | 0x001 => some t.regs.fmtb
  | 0x002 => some t.regs.fmtc
  | 0x003 => some t.regs.scla
  | 0x004 => some t.regs.sclb
  | 0x008 => if indexOf c = 8 then none else some k.skip
  | 0x009 => some t.regs.rndm
  | 0x00A => some (w64 t.regs.lfsr.toNat)
  | 0x010 => some (s.selfOf c t.launch)
  | 0x011 => some (w64 (((s.corePart? c).getD 0) % 64))
  | 0x012 => some (w64 t.msgid.toNat)
  | 0x013 => some t.msrc
  | 0x014 => some (w64 (t.budg % 2 ^ 24))
  | 0x015 => some (w64 s.time)
  | 0x018 => some t.tcause
  | 0x019 => some t.taddr
  | 0x020 => some (w64 (Tbl.find 0 k.cpdn 0))
  | 0x021 => some (w64 (Tbl.find 0 k.cpdn 1))
  | 0x022 => some (w64 (Tbl.find 0 k.cpdn 2))
  | 0x023 => some (w64 (Tbl.find 0 k.cpdn 3))
  | 0x024 => some (eqstWord k s.curSlot t)
  | 0x025 => some (cbufWord k t)
  | _ => none

/-- A WRC of a value to a control register of the slot; none where it traps ILLEGAL. -/
def State.writeCR (s : State) (num : Nat) (x : W64) : Option State :=
  match num with
  | 0x000 => some (s.modCur fun t => { t with regs := { t.regs with fmta := x } })
  | 0x001 => some (s.modCur fun t => { t with regs := { t.regs with fmtb := x } })
  | 0x002 => some (s.modCur fun t => { t with regs := { t.regs with fmtc := x } })
  | 0x003 => some (s.modCur fun t => { t with regs := { t.regs with scla := x } })
  | 0x004 => some (s.modCur fun t => { t with regs := { t.regs with sclb := x } })
  | 0x008 =>
    if indexOf s.curCore = 8 ∨ 2 ^ 27 ≤ x.toNat ∨ x.toNat % 2 = 1 then none else some (s.modCore s.curCore fun k => { k with skip := x })
  | 0x009 => if 5 ≤ x.toNat then none else some (s.modCur fun t => { t with regs := { t.regs with rndm := x } })
  | 0x00A =>
    let w := BitVec.ofNat 32 x.toNat
    some (s.modCur fun t => { t with regs := { t.regs with lfsr := if w = 0 then 1 else w } })
  | _ => none

end Machine
end Sys2Proof
end

