-- ==== Sys2Proof/Machine/Net.lean ====
section
/-! DEFINITION. Sending over the fabric: flows, routes, links (20_fabric.md R293 to R302). -/

namespace Sys2Proof
namespace Machine

/-! ## Flows -/

/-- The sending side of a flow. -/
def Fabric.outOf (f : Fabric) (w : FlowId) : FlowOut := ((f.out.find? fun e => e.1 == w).map (·.2)).getD {}
def Fabric.setOut (f : Fabric) (w : FlowId) (o : FlowOut) : Fabric :=
  { f with out := (f.out.filter fun e => e.1 != w) ++ [(w, o)] }

/-- The receiving side of a flow. -/
def Fabric.inOf (f : Fabric) (w : FlowId) : FlowIn := ((f.inn.find? fun e => e.1 == w).map (·.2)).getD {}
def Fabric.setIn (f : Fabric) (w : FlowId) (o : FlowIn) : Fabric :=
  { f with inn := (f.inn.filter fun e => e.1 != w) ++ [(w, o)] }

/-- Bytes of a message of the fabric: the descriptor, the carried code and the payload (R296). -/
def payloadBytes : Payload → Nat
  | .empty => 0
  | .message _ m => 64 + 2 * m.code.length + m.payload.length
  | .service _ _ v =>
    64 + (match v with
      | .store _ _ bs => bs.length
      | .amop _ _ _ n _ => n
      | .red _ _ _ n _ => n
      | .load _ _ _ => 0
      | .amo _ _ _ n _ _ => 2 * n
      | .rdx _ _ => 0
      | .rdxData _ bs _ => bs.length
      | .rdxPiece _ bs => bs.length
      | .ack _ _ => 0
      | .acks l => 8 * l.length
      | .data bs => bs.length
      | .failed _ => 0
      | .rdxDone _ _ _ => 0
      | .settled _ _ _ _ _ => 0
      | .kill _ => 0
      | .rdxFault _ _ _ _ => 0
      | .rdxRefused _ _ _ => 0)
  | .mortar _ _ => 64
  | .stream items => 16 * items.length
  | .link _ _ => 0

/-- Opcode of a payload (R294). -/
def payloadOpcode : Payload → Nat
  | .empty => 0x02
  | .message _ _ => 0x01
  | .service _ _ _ => 0x01
  | .mortar _ _ => 0x04
  | .stream _ => 0x03
  | .link _ _ => 0x0F

/-- Number of the key that senders of a domain use (24 R346). -/
def DomKeys.sendKey (k : DomKeys) : Nat := if k.switched then k.next.getD k.current else k.current

/-- The flow from this device to another in a traffic class. -/
def State.flowTo (s : State) (dev tc : Nat) : FlowId := ⟨s.fabric.devId, dev, tc⟩

/-- Number of the key that frames of a domain are sealed under. -/
def State.sealKey (s : State) (dom : Nat) : Nat := ((Tbl.get? s.fabric.keys dom).getD {}).sendKey

/-- What a flow had counted when it first used a domain's key. -/
def keySince (l : List (Nat × Nat × Nat)) (dom key : Nat) : Option Nat := (l.find? fun e => e.1 == dom && e.2.1 == key).map (·.2.2)

/-- A flow has used a domain's key from now on, if it has not yet. -/
def keyUsed (l : List (Nat × Nat × Nat)) (dom key now : Nat) : List (Nat × Nat × Nat) :=
  if (keySince l dom key).isSome then l else (dom, key, now) :: l.filter fun e => e.1 != dom

/-- A frame of the flow's next SEQ and EPOCH would use an IV again under the key: EPOCH has come round since the key's first use (R304). -/
def FlowOut.reuses (o : FlowOut) (dom key : Nat) : Bool := (keySince o.keys dom key).any fun e => decide (e + 2 ^ 20 ≤ o.epoch)

/-- The flow's next ack frame would: the ack counter has come round. -/
def FlowOut.ackReuses (o : FlowOut) (dom key : Nat) : Bool := (keySince o.ackKeys dom key).any fun e => decide (e + 2 ^ 44 ≤ o.ackCount)

/-- The window of a flow has room for a frame: 4,096 unacknowledged, and the flow is not broken (R300, R302). -/
def FlowOut.room (o : FlowOut) : Bool := decide (o.unacked.length < 4096) && !o.broken

/-- A frame of a flow can go out at once: nothing of the flow waits. -/
def State.flowRoom (s : State) (w : FlowId) : Bool := (s.fabric.outOf w).room && (s.fabric.outOf w).queue.isEmpty

/-! ## Links (R299, R301; 24_protection.md R345) -/

/-- A link of the fabric. -/
def Fabric.link (f : Fabric) (port : Nat) : Link := (Tbl.get? f.links port).getD {}
def Fabric.setLink (f : Fabric) (port : Nat) (l : Link) : Fabric := { f with links := Tbl.set f.links port l }

/-- The class of frames that are forwarded for other devices. -/
def transitClass : Nat := 64

/-- A class's weight at a port: FW or SW of a partition, TW for frames in transit. -/
def State.weight (s : State) (port cls : Nat) : Nat :=
  if cls = transitClass then s.fabric.transitWeight
  else if 24 ≤ port then field (s.part cls).qos 23 16 else field (s.part cls).qos 15 8

/-- A service message that a core of this device asks with. -/
def serviceAsks : Service → Bool
  | .store _ _ _ => true
  | .amop _ _ _ _ _ => true
  | .red _ _ _ _ _ => true
  | .load _ _ _ => true
  | .amo _ _ _ _ _ _ => true
  | .rdx _ _ => true
  | _ => false

/-- The class that a payload of this device travels in: the partition of a message, and of the core that asks; else the first of the domain's
partitions. DESIGN CHOICE (log entry 20): R345 names the partitions' frames and says not whose a reply or an acknowledgement is. -/
def State.classOf (s : State) (dom : Nat) (pl : Payload) : Nat :=
  let first := ((s.parts.find? fun e => e.2.en && (s.ctx e.2.ctx).domain == dom).map (·.1)).getD transitClass
  match pl with
  | .message _ m => m.spart
  | .service core _ v => if serviceAsks v then (s.corePart? core).getD first else first
  | _ => first

/-- Frames that wait in a port's egress queue. -/
def Fabric.queued (f : Fabric) (port : Nat) : List (Nat × Frame) := (f.egress.filter fun e => e.1 == port).map (·.2)

/-- The frame of a class that a port sends next: the first, but a service reply goes ahead of TC 0. -/
def State.classFrame? (s : State) (port k : Nat) : Option (Nat × Frame) :=
  let l := (s.fabric.queued port).filter fun e => e.1 == k
  match l.head? with
  | some (_, f) => if f.tc = 0 then (l.find? fun e => e.2.tc == 1).orElse fun _ => l.head? else l.head?
  | none => none

/-- The classes of a port that have frames queued and a weight. -/
def State.busyClasses (s : State) (port : Nat) : List Nat := (((s.fabric.queued port).map (·.1)).dedup).filter fun k => s.weight port k != 0

/-- The count of a port's schedule that has been reached: of the bytes over weights that went out, or the least at which a queued frame is due
to start. -/
def State.portClock (s : State) (port : Nat) : Nat :=
  let l := s.fabric.link port
  match (s.busyClasses port).map (Tbl.find 0 l.start) with
  | [] => l.clock
  | x :: r => Nat.max l.clock (r.foldl Nat.min x)

/-- The count at which the next frame of a class is due to end. -/
def State.dueEnd (s : State) (port k : Nat) : Nat :=
  Tbl.find 0 (s.fabric.link port).start k + ((s.classFrame? port k).map fun e => e.2.wire * 65536 / s.weight port k).getD 0

/-- The class of a port whose turn it is: of those with a weight whose next frame is due to have started, the one whose frame is due to end
first; without any, the first that waits. A class that keeps frames queued so has its share of the port's bytes, less one frame, from when its
queue began (R345). DEDUCED (log entry 20): no schedule of whole frames keeps that bound in every interval within, as for the weights 1, 50 and
255 with frames of 9,216 bytes. -/
def State.nextClass? (s : State) (port : Nat) : Option Nat :=
  match s.busyClasses port with
  | [] => ((s.fabric.queued port).head?).map (·.1)
  | l =>
    (l.filter fun k => decide (Tbl.find 0 (s.fabric.link port).start k ≤ s.portClock port)).foldl (fun b k => match b with
      | none => some k
      | some j => if s.dueEnd port k < s.dueEnd port j then some k else some j) none

/-- The next frame of a port's queue: of the class whose turn it is. -/
def State.nextFrame? (s : State) (port : Nat) : Option (Nat × Frame) :=
  match s.nextClass? port with
  | none => none
  | some k => s.classFrame? port k

/-- A frame goes onto the link, counted, with a copy in the replay buffer. -/
def Link.put (l : Link) (f : Frame) : Link :=
  let f := { f with count := l.sent + 1 }
  { l with replay := l.replay ++ [f], sent := l.sent + 1, wire := l.wire ++ [f] }

/-- The weights of a port's classes together. -/
def State.weights (s : State) (port : Nat) : Nat := s.fabric.transitWeight + (s.parts.map fun e => s.weight port e.1).sum

/-- A port's schedule after a frame of a class. -/
def Link.charge (l : Link) (k bytes w all : Nat) : Link :=
  if w = 0 then l
  else { l with start := Tbl.put 0 l.start k (Tbl.find 0 l.start k + bytes * 65536 / w), clock := l.clock + bytes * 65536 / all }

/-- The frames of a port's queue go out in turn while the 64 KiB replay buffer has room, at most `fuel` of them; the ports carry
traffic while the fabric manager runs (25_bring_up.md R347). -/
def State.pumpPort (port : Nat) : Nat → State → State
  | 0, s => s
  | fuel + 1, s =>
    match s.nextFrame? port with
    | none => s
    | some (k, f) =>
      let l := s.fabric.link port
      if s.managed = true ∧ l.up = true ∧ (l.replay.map (·.wire)).sum + f.wire ≤ 65536 then
        let l := ({ l.put f with clock := s.portClock port }).charge k f.wire (s.weight port k) (s.weights port)
        let t : State := { s with fabric := { s.fabric.setLink port l with
          egress := removeFirst (fun e => e == (port, k, f)) s.fabric.egress } }
        t.pumpPort port fuel
      else s
def State.pump (s : State) (port : Nat) : State := s.pumpPort port s.fabric.egress.length

/-- The first frame of a class in a port's queue is due to start at once: the class saves nothing up. -/
def State.joinQueue (s : State) (port k : Nat) : Link :=
  let l := s.fabric.link port
  if (s.fabric.queued port).any fun e => e.1 == k then l
  else { l with start := Tbl.put 0 l.start k (Nat.max (Tbl.find 0 l.start k) (s.portClock port)) }

/-- A frame is handed to a port. -/
def State.enqueueFrame (s : State) (port k : Nat) (f : Frame) : State :=
  let t : State := { s with fabric := { s.fabric.setLink port (s.joinQueue port k) with egress := s.fabric.egress ++ [(port, k, f)] } }
  t.pump port

/-- A frame is dropped and counted. -/
def State.dropFrame (s : State) : State := { s with fabric := { s.fabric with dropped := s.fabric.dropped + 1 } }

/-- One port goes before another (R299): more free receive slots at its link's other end; then the shorter egress queue; then the
lower number. -/
def State.portBefore (s : State) (n p q : Nat) : Bool :=
  let a := Config.portSlots n p
  let b := Config.portSlots n q
  let x := (s.fabric.queued p).length
  let y := (s.fabric.queued q).length
  decide (b < a ∨ (a = b ∧ (x < y ∨ (x = y ∧ p < q))))

/-- The best of some ports. -/
def State.bestPort (s : State) (n : Nat) : List Nat → Option Nat
  | [] => none
  | p :: r => some (r.foldl (fun b q => if s.portBefore n q b then q else b) p)

/-- A frame goes to one of its minimal ports that are up, or by its own port; with none it is dropped and counted (R299). A front-end
port takes no frame with a LENGTH above 9,108 (R292). -/
def State.forwardFrame (s : State) (k : Nat) (fr : Frame) : State :=
  let all := match fr.out with | some p => [p] | none => (Tbl.get? s.fabric.routes fr.ddev).getD []
  let ports := all.filter fun p => (s.fabric.link p).up && (decide (p < 24) || decide (fr.length ≤ 9108))
  if ports.isEmpty then s.dropFrame
  else
    let (n, s) := s.nextFree
    match s.bestPort n ports with
    | some p => s.enqueueFrame p k fr
    | none => s

/-- A frame of this device on its way to a port: the memory plane takes it in a slot of its partition, behind what of the partition waits
(R289, 24 R344). -/
def State.inject (s : State) (k : Nat) (f : Frame) : State :=
  if k = transitClass ∨ (s.planeOpen k = true ∧ (s.fabric.inject.all fun e => e.1 != k) = true) then s.forwardFrame k f
  else { s with fabric := { s.fabric with inject := s.fabric.inject ++ [(k, f)] } }

/-! ## Frames of a flow -/

/-- A frame of a flow goes out: sequenced, kept until it is acknowledged, and sent. -/
def State.emit (s : State) (w : FlowId) (dom strm : Nat) (out : Option Nat) (pl : Payload) : State :=
  let o := s.fabric.outOf w
  let (n, s) := s.nextFree
  let len := payloadBytes pl
  let key := s.sealKey dom
  let fr : Frame := {
    ddev := w.ddev, sdev := s.fabric.devId, tc := w.tc, ent := (Config.entropy n).toNat, opcode := payloadOpcode pl,
    ackv := false, resend := false, seq := o.seq, ack := 0, domain := dom, length := len, stream := strm, epoch := o.epoch % 2 ^ 20,
    payload := pl, key := key, tagGood := true, fcsGood := true, reservedZero := true, wire := Nat.max 64 (42 + Nat.max 22 len),
    supported := true, udp := s.fabric.udpPort, out := out }
  let o := { o with
    keys := keyUsed o.keys dom key o.epoch
    seq := (o.seq + 1) % 2 ^ 24
    epoch := if o.seq + 1 = 2 ^ 24 then o.epoch + 1 else o.epoch
    unacked := o.unacked ++ [fr]
    sentAt := o.sentAt ++ [s.time] }
  ({ s with fabric := s.fabric.setOut w o }).inject (s.classOf dom pl) fr

/-- What waits in a flow goes out while the window has room and no IV is used twice, at most `fuel` frames. -/
def State.flowOn (w : FlowId) : Nat → State → State
  | 0, s => s
  | fuel + 1, s =>
    let o := s.fabric.outOf w
    match o.queue with
    | [] => s
    | (dom, strm, out, pl) :: rest =>
      if o.room && !o.reuses dom (s.sealKey dom) then
        State.flowOn w fuel (({ s with fabric := s.fabric.setOut w { o with queue := rest } }).emit w dom strm out pl)
      else s
def State.flowGoes (s : State) (w : FlowId) : State := State.flowOn w (s.fabric.outOf w).queue.length s

/-- A payload for another device joins its flow; it goes out at once when the flow lets it. -/
def State.sendVia (s : State) (dev tc dom strm : Nat) (out : Option Nat) (pl : Payload) : State :=
  let w := s.flowTo dev tc
  let o := s.fabric.outOf w
  if o.queue.isEmpty && o.room && !o.reuses dom (s.sealKey dom) then s.emit w dom strm out pl
  else { s with fabric := s.fabric.setOut w { o with queue := o.queue ++ [(dom, strm, out, pl)] } }

/-- A payload by any minimal port. -/
def State.sendFrame (s : State) (dev tc dom strm : Nat) (pl : Payload) : State := s.sendVia dev tc dom strm none pl

/-- The receiver of a link reports its count to the other end (R301); the last report stands for those before it. -/
def State.reportCount (s : State) (port : Nat) (gap : Bool) : State :=
  let l := s.fabric.link port
  let fr : Frame := {
    ddev := 0x3FFFF, sdev := s.fabric.devId, tc := 0, ent := 0, opcode := 0x0F, ackv := false, resend := false, seq := 0, ack := 0,
    domain := 0, length := 0, stream := 0, epoch := 0, payload := .link l.received gap, key := 0, tagGood := true, fcsGood := true,
    reservedZero := true, wire := 64, supported := true, udp := s.fabric.udpPort }
  { s with fabric := s.fabric.setLink port { l with wire := (l.wire.filter fun f => f.opcode != 0x0F) ++ [fr] } }

/-- A service request of a core, or a reply to one. -/
def State.sendService (s : State) (dev tc dom core req : Nat) (v : Service) : State :=
  s.sendFrame dev tc dom 0 (.service core req v)

/-! ## Write acknowledgements (21_program_three_chip_chain.md R311) -/

/-- A posted write of another device is performed, or has failed: its acknowledgement goes with those of the same core that become due
in the same count of TIME. -/
def State.ackWrite (s : State) (dev dom core req : Nat) (ok : Bool) (cause : Nat) : State :=
  { s with fabric := { s.fabric with acks := s.fabric.acks ++ [(dev, dom, core, req, ok, cause)] } }

/-- The acknowledgements that one frame to a core carries: at most 512 of those that are due. -/
def ackFor (dev dom core : Nat) (l : List (Nat × Nat × Nat × Nat × Bool × Nat)) : List (Nat × Bool × Nat) :=
  ((l.filter fun a => a.1 == dev && a.2.1 == dom && a.2.2.1 == core).take 512).map (·.2.2.2)

/-- The acknowledgements that are due leave, one frame for each core, at most `fuel` frames. -/
def State.acksOut : Nat → State → State
  | 0, s => s
  | fuel + 1, s =>
    match s.fabric.acks with
    | [] => s
    | (dev, dom, core, _) :: _ =>
      let mine := ackFor dev dom core s.fabric.acks
      let left := s.fabric.acks.filter fun a => !(a.1 == dev && a.2.1 == dom && a.2.2.1 == core && mine.contains a.2.2.2)
      let t : State := { s with fabric := { s.fabric with acks := left } }
      State.acksOut fuel (match mine with
        | [(req, ok, cause)] => t.sendService dev 1 dom core req (.ack ok cause)
        | _ => t.sendService dev 1 dom core 0 (.acks mine))
def State.sendAcks (s : State) : State := State.acksOut s.fabric.acks.length s

end Machine
end Sys2Proof
end

