-- ==== Sys2Proof/Machine/Issue.lean ====
section
/-! DEFINITION. The issue of one instruction by the current slot: the checks in their order, the lookahead rule, the
instruction's own effect, and what follows it: signature, counted loop, program counter, followers (05_encoding.md R85,
R90 to R93; 06_issuing.md R99, R100, R102; 07 R121). -/

namespace Sys2Proof
namespace Machine

/-! ## Lookahead (R100) -/

/-- The instruction names or implies a destination of the long-latency result (case 3); g0 is none. -/
def touches (u : Uses) (p : Pending) : Bool :=
  p.gd.any (fun r => r != 0 && (u.gsrc ++ u.gimp ++ u.gdst).contains r) || p.vd.any (fun r => (u.vsrc ++ u.vdst).contains r)

/-- An instruction inside a window touches its destination. -/
def lookaheadTrap (t : Slot) (j : Instr) : Bool := t.pend.any fun p => decide (0 < p.left) && touches (uses j) p

/-- The instruction waits for the results that `need` selects: a fault that one of them brought is taken here (08 R133
case 5); until they arrive the slot is not ready. -/
def awaitResults (s : State) (need : Pending → Bool) : Except Stop Unit :=
  match s.cur.pend.find? fun p => need p && p.arrived && p.bad.isSome with
  | some p => match p.bad with | some (cause, a) => trapAt cause a | none => .ok ()
  | none => if s.cur.pend.any fun p => need p && !p.arrived then .error (.hold .results) else .ok ()

/-- A commit point, and each task end, waits for every result (case 6). -/
def awaitAll (s : State) : Except Stop Unit := awaitResults s fun _ => true

/-- A new long-latency result of the current slot: destinations, window, and the result itself when it is known. -/
def addPending (s : State) (p : Pending) : State :=
  let (id, s) := s.nextReq s.curCore
  s.modCur fun t => { t with pend := t.pend ++ [{ p with uid := id }] }

/-- A result that is known at issue and arrives later: general registers and their values. -/
def laterG (s : State) (la : Nat) (gd : List Nat) (gval : List W64) : State :=
  addPending s { gd := gd, left := la, ready := true, gval := gval }

/-! ## Signature (R93) -/

/-- SIG, long or short. -/
def isSig : Instr → Bool
  | .sig _ => true
  | .sigShort _ => true
  | .cSig _ => true
  | _ => false

/-- The slot feeds its signature unit: armed, and not following. -/
def feeds (t : Slot) : Bool := t.armed && t.follow.isNone

/-- The CRC after the instruction's halfwords. -/
def crcAfter (t : Slot) (j : Instr) : Half :=
  if isSig j then t.crc else (instrHalves j).foldl crc16Step t.crc

/-- A check of a CRC against EXP fails. -/
def sigBad (t : Slot) (crc : Half) : Bool :=
  if t.short then crc &&& 0x7FF#16 != t.exp &&& 0x7FF#16 else crc != t.exp

/-- SigCheck of R122, of a running block that the instruction's halfwords end. -/
def sigCheck (s : State) (j : Instr) : Except Stop State :=
  let t := s.cur
  if feeds t then
    let c := crcAfter t j
    if sigBad t c then trapAt Cause.signature (w64 c.toNat) else .ok (s.modCur fun t => { t with crc := c, armed := false })
  else .ok s

/-! ## The counted loop (07 R121) -/

/-- Case 1: the instruction begins in the body and ends beyond it. -/
def loopMisfit (t : Slot) (j : Instr) : Bool :=
  t.lact && decide (t.ls ≤ t.pc.off ∧ t.pc.off ≤ t.le ∧ t.le < t.pc.off + instrLen j - 1)

/-- The instruction's last halfword is LE. -/
def atLoopEnd (t : Slot) (j : Instr) : Bool := t.lact && decide (t.pc.off + instrLen j - 1 = t.le)

/-- A back-edge follows an instruction that is no taken transfer (case 3). -/
def backEdge (t : Slot) (j : Instr) : Bool := atLoopEnd t j && decide (t.lc ≠ 1)

/-! ## Program counter -/

/-- The next program counter and the loop state after an instruction of the slot as it stood. -/
def advancePc (t : Slot) (j : Instr) (nx : Next) (u : Slot) : Slot :=
  match nx with
  | .ended => u
  | .over off => { u with pc := { t.pc with off := off } }
  | .jump pc =>
    let inside := decide (pc.carried = t.pc.carried) && decide (t.ls ≤ pc.off ∧ pc.off ≤ t.le)
    { u with pc := pc, lact := if t.lact && !inside then false else u.lact }
  | .seq =>
    if backEdge t j then { u with pc := { t.pc with off := t.ls }, lc := (t.lc + 2 ^ 64 - 1) % 2 ^ 64 }
    else
      let u := { u with pc := { t.pc with off := t.pc.off + instrLen j } }
      if atLoopEnd t j then { u with lc := 0, lact := false } else u

/-- The windows of the results that were in flight move on by one instruction; a result that has arrived leaves at the end of
its window. -/
def stepWindows (old : List Pending) (l : List Pending) : List Pending :=
  (l.map fun p => if old.any (fun q => q.uid == p.uid) then { p with left := p.left - 1 } else p).filter fun p =>
    !(p.arrived && decide (p.left = 0) && p.bad.isNone)

/-! ## Follow mode (R90, R91) -/

/-- The leader of a slot of a core: the lowest core of the cluster whose slot runs a task of the same launch. -/
def State.leaderOf? (s : State) (c n : Nat) : Option Nat :=
  let l := (s.slot c n).launch
  if l.isNone then none
  else (coresOf (clusterOf c)).find? fun j => (s.slot j n).running && (s.slot j n).launch == l

/-- What the issue of a leader's instruction does to the slot of its number in core `k`, which may follow it or wait to join it within 64
cycles of its FOLW (R90 case 4). A core that joins is a leader no more: its own followers leave it (R91). A follower leaves as well where its
own fetch would not give the leader's instruction: in carried code, and once either core's IMEM has been written (R90 cases 2 and 3). -/
def State.leadTo (s : State) (c n : Nat) (j : Instr) (at_ next : Pc) (k : Nat) : State :=
  if k = c then s
  else
    let u := s.slot k n
    let own := at_.carried || (s.core c).imemDirty || (s.core k).imemDirty
    if u.follow = some c then
      if own then s.modSlot k n fun u => { u with follow := none, stream := [] }
      else s.modSlot k n fun u => { u with stream := u.stream ++ [(j, at_, next)] }
    else if own then s
    else
      match u.wait with
      | .follow d =>
        if u.running && decide (u.pc = at_) && decide (s.time ≤ d) && s.leaderOf? k n == some c then
          (s.dropFollowers k n).modSlot k n fun u =>
            { u with wait := .none, follow := some c, stream := [(j, at_, next)], armed := false }
        else s
      | _ => s

/-- What the issue of an instruction does to the followers of its core. -/
def State.lead (s : State) (c n : Nat) (j : Instr) (at_ next : Pc) : State :=
  (coresOf (clusterOf c)).foldl (fun s k => s.leadTo c n j at_ next k) s

/-- A follower's own next address is compared with the leader's; another one ends follow mode. -/
def State.keepFollowing (s : State) (c n : Nat) : State :=
  let u := s.slot c n
  match u.follow, u.stream with
  | some _, (_, _, next) :: r =>
    if u.pc = next then s.modSlot c n fun u => { u with stream := r }
    else s.modSlot c n fun u => { u with follow := none, stream := [] }
  | some _, [] => s.modSlot c n fun u => { u with follow := none }
  | none, _ => s

/-! ## The hash of a drain (24 R335 case 4) -/

/-- Numbers of a quad, of a message. -/
def quadNums (q : Quad) : List Nat := [q.a.toNat, q.b.toNat, q.c.toNat, q.d.toNat]
def msgNums (m : Msg) : List Nat :=
  [m.target.toNat, m.source.toNat, m.handler, m.bclass, m.defer, m.prio, kindCode m.kind] ++ quadNums m.args
    ++ m.payload.map (·.toNat) ++ m.code.map (·.toNat)

/-- Kind, address, size and data of an entry as numbers, and a message's descriptor, code and payload. -/
def entryNums (e : Entry) : List Nat :=
  e.ea.toNat ::
  match e.act with
  | .store bs => 1 :: bs.flatMap fun b => [b.pos, b.val.toNat, ofBool b.lo, ofBool b.hi]
  | .amop op n p => [2, op, n, p.toNat]
  | .red op n p => [3, op, n, p.toNat]
  | .amo op n p q _ => [4, op, n, p.toNat, q.toNat]
  | .fence => [5]
  | .clean => [6]
  | .send m _ => 7 :: msgNums m
  | .rdx r _ _ => 8 :: quadNums r.quad
  | .spawn m _ _ => 9 :: msgNums m
  | .launch a q ar dr _ => [10, a.toNat, q, ofBool ar, ofBool dr]
  | .trig => [11]
  | .mxRelease _ => [12]
  | .cpRelease _ => [13]
  | .tile _ _ idx => [14, idx]
  | .arrive c k b q => 15 :: c :: k :: ofBool b :: quadNums q
  | .cexp c b t m => [16, c, b, t, ofBool m]
  | .cjoin c => [17, c]
  | .cquit c => [18, c]
  | .tkrq r sc k tag => [19, r, sc, k, tag.toNat]
  | .tkps r m k => [20, r, m, k]
  | .trmc k q => 21 :: k :: quadNums q
  | .trrd g v op k => [22, g, v.toNat, op, k]

/-- What a released command holds, as numbers: not the transfer id nor the working phase of its course, which each core of a pair counts for
itself. -/
def mxNums (m : MxEntry) : List Nat :=
  [m.cmd.toNat, m.recA.toNat, m.recB.toNat, m.recC.toNat, m.scla.toNat, m.sclb.toNat, m.mapX.toNat, m.mapY.toNat]
    ++ m.words.map (·.toNat)
def cpNums (m : CpEntry) : List Nat := [m.map.toNat, m.chan] ++ quadNums m.q

/-- An entry of a drain with the command that it releases. -/
def fullNums (k : Core) (e : Entry) : List Nat :=
  entryNums e ++
  match e.act with
  | .mxRelease uid => (k.mxq.filter fun m => m.uid == uid).flatMap mxNums
  | .cpRelease uid => (k.cpq.filter fun m => m.uid == uid).flatMap cpNums
  | _ => []

/-- The entry that a commit point of its own adds behind the buffer: AMO, SPWN, CARV with its immediate flag. -/
def lastNums (s : State) (j : Instr) : List Nat :=
  let nums (l : List W64) : List Nat := l.map (·.toNat)
  match j with
  | .amo _ a b _ op sz => [4, op.toNat, sz.toNat] ++ nums (peekOperands s (amoOperands a b op))
  | .spwn _ a b _ => 9 :: nums (peekOperands s (quadOperands a b))
  | .carv a b => 15 :: nums (peekOperands s (quadOperands a b))
  | _ => []

/-- The hash of a drain: its entries, the commands that they release, and the entry of the commit point itself. -/
def drainHashOf (k : Core) (t : Slot) (last : List Nat) : W64 := Config.drainHash (t.buf.flatMap (fullNums k) ++ last)

/-! ## Issue -/

/-- The read that a slot's instruction waits for is sent to another device, or parked at its home, once; a full park queue refuses it. -/
def State.askRemote (s : State) (c n : Nat) : State :=
  let t := s.slot c n
  match t.wait with
  | .remote ea m =>
    let ask (s : State) : Nat × State :=
      let (req, s) := s.nextReq c
      (req, s.modSlot c n fun t => { t with asked := t.asked ++ [{ ea := ea, n := m, req := req }] })
    let park (s : State) (loc : Loc) : State :=
      let (req, u) := ask s
      let r := s.loadPark c req loc m
      if s.refusedAt c (s.homeFor r) then s.modSlot c n fun t => { t with wait := .order }
      else if s.parkRoom (s.homeFor r) then u.parkAt r
      else s.modSlot c n fun t => { t with wait := .refused (s.homeFor r) }
    let p := (s.corePart? c).getD 0
    if t.asked.any fun a => a.ea == ea && a.n == m then s
    else
      match s.xlateAny c (s.privileged c n) ea m .read with
      | (s, .at_ (.peer dev part a dom)) =>
        if s.flowRoom (s.flowTo dev 0) && s.coreOpen c then
          let (req, s) := ask s
          s.sendService dev 0 dom c req (.load part a m)
        else s
      | (s, .at_ (.hbm p phys gva gpa)) => park s (.hbm p phys gva gpa)
      | (s, .wait gpa) => park (s.noteFill p gpa) (.unmapped p (field ea 47 0) gpa)
      | (s, .later gpa) => park s (.unmapped p (field ea 47 0) gpa)
      | (s, _) => s
  | _ => s

/-- A stop of the current instruction: a trap from the state before it, or a wait. DESIGN CHOICE (log entry 12): a trap of an instruction
that has popped qtile undoes its take, where 04_placing.md R68 returns the indices of a trapping task's tile entries and says nothing of a take
of the trapping instruction itself. -/
def State.stopAt (s : State) (j : Instr) : Stop → State
  | .trap cause addr => s.takeTrap s.curCore s.curSlot cause 0 (addr.getD (instrBits j))
  | .trapCode code => s.takeTrap s.curCore s.curSlot Cause.trap code (w64 (pcWord s.cur.pc))
  | .hold w =>
    let s := s.modCur fun t => { t with wait := w }
    match w with
    | .fill gpa =>
      match s.corePart? s.curCore with
      | some p => s.noteFill p gpa
      | none => s
    | .remote _ _ => s.askRemote s.curCore s.curSlot
    | .walk gpa =>
      let p := (s.corePart? s.curCore).getD 0
      (s.parkAgain s.curCore s.curSlot p gpa).getD (s.modCur fun t => { t with wait := .refused (s.dirSlice p (gpa / 128)) })
    | .plumb _ => s.modCur fun t => { t with
        hash := some (drainHashOf (s.core s.curCore) t (lastNums s j)), hashTime := if t.hash.isSome then t.hashTime else s.time }
    | _ => s
  | .handed s' w => s'.modCur fun t => { t with wait := w }

/-- The instruction is a taken transfer, or a back-edge follows it (05 R93). -/
def takenBy (t : Slot) (j : Instr) : Next → Bool
  | .jump _ => true
  | .seq => backEdge t j
  | .over _ => false
  | .ended => false

/-- The slot `t` of an instruction after it took its effect, which left `u`, and retires; but for what it follows. -/
def slotAfter (t : Slot) (j : Instr) (nx : Next) (u : Slot) : Slot :=
  let u := if feeds t && !isSig j then { u with crc := crcAfter t j, armed := u.armed && !takenBy t j nx } else u
  { advancePc t j nx u with pend := stepWindows t.pend u.pend, fillFailed := false, asked := [], handed := false, opnds := [], upset := [] }

/-- After the instruction took its effect: the check of a taken transfer, the signature state, the program counter, the
windows, the followers. -/
def State.retireIns (s : State) (j : Instr) (s' : State) (nx : Next) : State :=
  let t := s.cur
  let c := s.curCore
  let n := s.curSlot
  if nx = .ended then s'
  else
    if feeds t && takenBy t j nx && sigBad t (crcAfter t j) then
      s.stopAt j (.trap Cause.signature (some (w64 (crcAfter t j).toNat)))
    else
      let s' := s'.modSlot c n (slotAfter t j nx)
      let next := (s'.slot c n).pc
      (s'.lead c n j t.pc next).keepFollowing c n

/-- The commit points and the task ends, which wait for every result and never trap LOOKAHEAD (R100 case 6). CARV is one with its
immediate flag, in its control word. -/
def isCommit (s : State) : Instr → Bool
  | .endOp => true
  | .endd => true
  | .cmt => true
  | .cEnd => true
  | .cCmt => true
  | .amo _ _ _ _ _ _ => true
  | .spwn _ _ _ _ => true
  | .carv a b => bitAt ((peekOperands s (quadOperands a b)).getD 4 0) 11
  | _ => false

/-- A fifth long-latency instruction waits, with four in flight, until the oldest result arrives (R100 case 5). -/
def awaitOldest (t : Slot) (j : Instr) : Except Stop Unit :=
  match t.pend.filter fun p => !p.arrived with
  | p :: r => if (lookahead j).isSome && decide (3 ≤ r.length) then .error (.hold (.oldest p.uid)) else .ok ()
  | [] => .ok ()

/-- The checks that come before the instruction's own: BUDGET, but for a drain that has begun; the decode
checks; LOOKAHEAD; the loop body's end; the results that the instruction waits for; a fifth long-latency instruction. -/
def preIssue (s : State) (j : Instr) : Except Stop Unit := do
  let t := s.cur
  require (decide (t.budg ≠ 0) || t.checked || t.handed) (trapAt Cause.budget 0)
  require (forbidden j).isNone (trapBits Cause.illegal)
  require (isCommit s j || !lookaheadTrap t j) (trapBits Cause.lookahead)
  require (!loopMisfit t j) (trapBits Cause.illegal)
  awaitResults s fun p => isCommit s j || decide (p.left = 0)
  awaitOldest t j
  require (!(feeds t && backEdge t j && !isSig j && sigBad t (crcAfter t j) && !isTransfer j))
    (trapAt Cause.signature (w64 (crcAfter t j).toNat))
where
  /-- Instructions that may be taken transfers; their check follows once that is known. -/
  isTransfer : Instr → Bool
    | .beq _ _ _ => true
    | .bne _ _ _ => true
    | .blt _ _ _ => true
    | .bge _ _ _ => true
    | .bltn _ _ _ => true
    | .bgen _ _ _ => true
    | .jmp _ => true
    | .jal _ => true
    | .jalr _ _ _ => true
    | .cBeqz _ _ => true
    | .cBnez _ _ => true
    | .cJ _ => true
    | .endOp => true
    | .endd => true
    | .cEnd => true
    | _ => false

/-- One instruction of the current slot. -/
def State.issueRun (j : Instr) (body : State → Effect) (s : State) : State :=
  match preIssue s j with
  | .error e => s.stopAt j e
  | .ok () =>
    match body s with
    | .error e => s.stopAt j e
    | .ok (s', nx) => s.retireIns j s' nx

/-- The meaning of an instruction by its effect: one step, in a slot that runs a task. -/
def issue (j : Instr) (body : State → Effect) (s : State) : Host.Outcome State Fault Refusal :=
  if s.cur.running then .next (s.perform (State.issueRun j body)) else .fault .noTask

/-- An operation or event of the machine: one step. -/
def event (f : State → State) (s : State) : Host.Outcome State Fault Refusal := .next (s.perform f)

/-- The effect of an instruction that writes one general register. -/
def setG (s : State) (d : Reg) (x : W64) : Effect := do
  let s ← writeG s d x
  .ok (s, .seq)

end Machine
end Sys2Proof
end

