-- ==== Sys2Proof/Machine/Alu.lean ====
section
/-! DEFINITION. Integer instructions: ALU, multiply and divide, bit fields, immediates, and their compact forms
(07_isa_scalar_control_system.md R112 to R117; 05_encoding.md R81). -/

namespace Sys2Proof
namespace Machine

/-! ## Operations (R113) -/

/-- The shifts take the whole of B as amount. -/
def shlW (a b : W64) : W64 := if b.toNat < 64 then a <<< b.toNat else 0
def shrW (a b : W64) : W64 := if b.toNat < 64 then a >>> b.toNat else 0
def shaW (a b : W64) : W64 := a.sshiftRight (Nat.min b.toNat 63)
def rolW (a b : W64) : W64 := a.rotateLeft (b.toNat % 64)

/-- The four extremes. -/
def minW (a b : W64) : W64 := if slt64 b a then b else a
def maxW (a b : W64) : W64 := if slt64 a b then b else a
def minnW (a b : W64) : W64 := if ult64 b a then b else a
def maxnW (a b : W64) : W64 := if ult64 a b then b else a

/-- A truth value as a word. -/
def flagW (b : Bool) : W64 := if b then 1 else 0

/-- Leading zeros, trailing zeros and set bits of a word. -/
def clzW (a : W64) : W64 := if a = 0 then 64 else w64 (63 - Nat.log2 a.toNat)
def ctzW (a : W64) : W64 := w64 (((upto 64).find? fun i => a.getLsbD i).getD 64)
def popcW (a : W64) : W64 := w64 (Machine.popc 64 a.toNat)

/-! ## Multiply and divide (R114) -/

def mulhW (a b : W64) : W64 := wrap (a.toInt * b.toInt / 2 ^ 64)
def mulhnW (a b : W64) : W64 := w64 (a.toNat * b.toNat / 2 ^ 64)
def divW (a b : W64) : W64 := if b = 0 then 0xFFFFFFFFFFFFFFFF#64 else wrap (a.toInt.tdiv b.toInt)
def divnW (a b : W64) : W64 := if b = 0 then 0xFFFFFFFFFFFFFFFF#64 else w64 (a.toNat / b.toNat)
def remW (a b : W64) : W64 := if b = 0 then a else wrap (a.toInt.tmod b.toInt)
def remnW (a b : W64) : W64 := if b = 0 then a else w64 (a.toNat % b.toNat)

/-! ## Bit fields (R115) -/

/-- Bits [p+w-1:p] of a word. -/
def bfxW (p w : Nat) (a : W64) : W64 := w64 (a.toNat / 2 ^ p % 2 ^ w)
def bfxsW (p w : Nat) (a : W64) : W64 := wrap (sext (a.toNat / 2 ^ p % 2 ^ w) w)

/-- The word `d` with bits [p+w-1:p] replaced by the low bits of `a`. -/
def bfiW (p w : Nat) (d a : W64) : W64 :=
  let mask := w64 ((2 ^ w - 1) * 2 ^ p)
  (d &&& ~~~mask) ||| (w64 (a.toNat % 2 ^ w * 2 ^ p) &&& mask)

/-! ## Effects -/

/-- gd := f(G(a), G(b)). -/
def bodyAB (d a b : Reg) (f : W64 → W64 → W64) (s : State) : Effect := do
  let (s, x) ← readG s a
  let (s, y) ← readG s b
  setG s d (f x y)

/-- gd := f(G(a)). -/
def bodyA (d a : Reg) (f : W64 → W64) (s : State) : Effect := do
  let (s, x) ← readG s a
  setG s d (f x)

/-- The result of gd := f(G(a), G(b)) arrives under the lookahead rule. -/
def bodyLate (d a b : Reg) (la : Nat) (f : W64 → W64 → W64) (s : State) : Effect := do
  let (s, x) ← readG s a
  let (s, y) ← readG s b
  .ok (laterG s la [d.toNat] [f x y], .seq)

/-- SEL: A when G(d) is not 0, else B. -/
def bodySel (d a b : Reg) (s : State) : Effect := do
  let (s, x) ← readG s a
  let (s, y) ← readG s b
  let (s, z) ← readG s d
  setG s d (if z ≠ 0 then x else y)

/-- BFI reads gd before it writes it. -/
def bodyBfi (d a : Reg) (p w : Nat) (s : State) : Effect := do
  let (s, x) ← readG s a
  let (s, y) ← readG s d
  setG s d (bfiW p w y x)

/-- NOP changes nothing except the pc (R124). -/
def bodyNop (s : State) : Effect := .ok (s, .seq)

/-- LIH replaces bits [63:45] of gd. -/
def bodyLih (d : Reg) (imm : BitVec 19) (s : State) : Effect := do
  let (s, y) ← readG s d
  setG s d ((imm.zeroExtend 64 <<< 45) ||| (y &&& 0x1FFFFFFFFFFF#64))

/-- ADR: the routine address of a label, in the space of the ADR. -/
def bodyAdr (d : Reg) (imm : BitVec 19) (s : State) : Effect :=
  let t := (s.cur.pc.off : Int) + imm.toInt
  if t < 0 ∨ 32767 < t then trapBits Cause.illegal
  else setG s d (w64 (ofBool s.cur.pc.carried * 32768 + t.toNat))

/-! ## Meanings -/

/-- ADD (R113). -/
def execAdd (d a b : Reg) (s : State) : Host.Outcome State Fault Refusal :=
  issue (.add d a b) (bodyAB d a b (· + ·)) s

/-- SUB (R113). -/
def execSub (d a b : Reg) (s : State) : Host.Outcome State Fault Refusal :=
  issue (.sub d a b) (bodyAB d a b (· - ·)) s

/-- AND (R113). -/
def execAnd (d a b : Reg) (s : State) : Host.Outcome State Fault Refusal :=
  issue (.andOp d a b) (bodyAB d a b (· &&& ·)) s

/-- OR (R113). -/
def execOr (d a b : Reg) (s : State) : Host.Outcome State Fault Refusal :=
  issue (.orOp d a b) (bodyAB d a b (· ||| ·)) s

/-- XOR (R113). -/
def execXor (d a b : Reg) (s : State) : Host.Outcome State Fault Refusal :=
  issue (.xorOp d a b) (bodyAB d a b (· ^^^ ·)) s

/-- ANDN (R113). -/
def execAndn (d a b : Reg) (s : State) : Host.Outcome State Fault Refusal :=
  issue (.andn d a b) (bodyAB d a b (fun x y => x &&& ~~~y)) s

/-- SHL (R113). -/
def execShl (d a b : Reg) (s : State) : Host.Outcome State Fault Refusal :=
  issue (.shl d a b) (bodyAB d a b shlW) s

/-- SHR (R113). -/
def execShr (d a b : Reg) (s : State) : Host.Outcome State Fault Refusal :=
  issue (.shr d a b) (bodyAB d a b shrW) s

/-- SHA (R113). -/
def execSha (d a b : Reg) (s : State) : Host.Outcome State Fault Refusal :=
  issue (.sha d a b) (bodyAB d a b shaW) s

/-- ROL (R113). -/
def execRol (d a b : Reg) (s : State) : Host.Outcome State Fault Refusal :=
  issue (.rol d a b) (bodyAB d a b rolW) s

/-- MIN (R113). -/
def execMin (d a b : Reg) (s : State) : Host.Outcome State Fault Refusal :=
  issue (.min d a b) (bodyAB d a b minW) s

/-- MAX (R113). -/
def execMax (d a b : Reg) (s : State) : Host.Outcome State Fault Refusal :=
  issue (.max d a b) (bodyAB d a b maxW) s

/-- MINN (R113). -/
def execMinn (d a b : Reg) (s : State) : Host.Outcome State Fault Refusal :=
  issue (.minn d a b) (bodyAB d a b minnW) s

/-- MAXN (R113). -/
def execMaxn (d a b : Reg) (s : State) : Host.Outcome State Fault Refusal :=
  issue (.maxn d a b) (bodyAB d a b maxnW) s

/-- SLT (R113). -/
def execSlt (d a b : Reg) (s : State) : Host.Outcome State Fault Refusal :=
  issue (.slt d a b) (bodyAB d a b (fun x y => flagW (slt64 x y))) s

/-- SLTN (R113). -/
def execSltn (d a b : Reg) (s : State) : Host.Outcome State Fault Refusal :=
  issue (.sltn d a b) (bodyAB d a b (fun x y => flagW (ult64 x y))) s

/-- SEQ (R113). -/
def execSeq (d a b : Reg) (s : State) : Host.Outcome State Fault Refusal :=
  issue (.seq d a b) (bodyAB d a b (fun x y => flagW (x == y))) s

/-- CLZ (R113). -/
def execClz (d a : Reg) (s : State) : Host.Outcome State Fault Refusal :=
  issue (.clz d a) (bodyA d a clzW) s

/-- CTZ (R113). -/
def execCtz (d a : Reg) (s : State) : Host.Outcome State Fault Refusal :=
  issue (.ctz d a) (bodyA d a ctzW) s

/-- POPC (R113). -/
def execPopc (d a : Reg) (s : State) : Host.Outcome State Fault Refusal :=
  issue (.popc d a) (bodyA d a popcW) s

/-- SEL (R113). -/
def execSel (d a b : Reg) (s : State) : Host.Outcome State Fault Refusal :=
  issue (.sel d a b) (bodySel d a b) s

/-- NOP (R82, R124). -/
def execNop (s : State) : Host.Outcome State Fault Refusal :=
  issue (.nop) (bodyNop) s

/-- MUL (R114). -/
def execMul (d a b : Reg) (la : BitVec 4) (s : State) : Host.Outcome State Fault Refusal :=
  issue (.mul d a b la) (bodyLate d a b la.toNat (· * ·)) s

/-- MULH (R114). -/
def execMulh (d a b : Reg) (la : BitVec 4) (s : State) : Host.Outcome State Fault Refusal :=
  issue (.mulh d a b la) (bodyLate d a b la.toNat mulhW) s

/-- MULHN (R114). -/
def execMulhn (d a b : Reg) (la : BitVec 4) (s : State) : Host.Outcome State Fault Refusal :=
  issue (.mulhn d a b la) (bodyLate d a b la.toNat mulhnW) s

/-- DIV (R114). -/
def execDiv (d a b : Reg) (la : BitVec 4) (s : State) : Host.Outcome State Fault Refusal :=
  issue (.div d a b la) (bodyLate d a b la.toNat divW) s

/-- DIVN (R114). -/
def execDivn (d a b : Reg) (la : BitVec 4) (s : State) : Host.Outcome State Fault Refusal :=
  issue (.divn d a b la) (bodyLate d a b la.toNat divnW) s

/-- REM (R114). -/
def execRem (d a b : Reg) (la : BitVec 4) (s : State) : Host.Outcome State Fault Refusal :=
  issue (.rem d a b la) (bodyLate d a b la.toNat remW) s

/-- REMN (R114). -/
def execRemn (d a b : Reg) (la : BitVec 4) (s : State) : Host.Outcome State Fault Refusal :=
  issue (.remn d a b la) (bodyLate d a b la.toNat remnW) s

/-- BFX (R115). -/
def execBfx (d a : Reg) (pos wid : BitVec 6) (s : State) : Host.Outcome State Fault Refusal :=
  issue (.bfx d a pos wid) (bodyA d a (bfxW pos.toNat (wid.toNat + 1))) s

/-- BFXS (R115). -/
def execBfxs (d a : Reg) (pos wid : BitVec 6) (s : State) : Host.Outcome State Fault Refusal :=
  issue (.bfxs d a pos wid) (bodyA d a (bfxsW pos.toNat (wid.toNat + 1))) s

/-- BFI (R115). -/
def execBfi (d a : Reg) (pos wid : BitVec 6) (s : State) : Host.Outcome State Fault Refusal :=
  issue (.bfi d a pos wid) (bodyBfi d a pos.toNat (wid.toNat + 1)) s

/-- ADDI (R116). -/
def execAddi (d a : Reg) (imm : BitVec 14) (s : State) : Host.Outcome State Fault Refusal :=
  issue (.addi d a imm) (bodyA d a (· + imm.signExtend 64)) s

/-- ANDI (R116). -/
def execAndi (d a : Reg) (imm : BitVec 14) (s : State) : Host.Outcome State Fault Refusal :=
  issue (.andi d a imm) (bodyA d a (· &&& imm.signExtend 64)) s

/-- ORI (R116). -/
def execOri (d a : Reg) (imm : BitVec 14) (s : State) : Host.Outcome State Fault Refusal :=
  issue (.ori d a imm) (bodyA d a (· ||| imm.signExtend 64)) s

/-- XORI (R116). -/
def execXori (d a : Reg) (imm : BitVec 14) (s : State) : Host.Outcome State Fault Refusal :=
  issue (.xori d a imm) (bodyA d a (· ^^^ imm.signExtend 64)) s

/-- SHLI (R116). -/
def execShli (d a : Reg) (imm : BitVec 6) (s : State) : Host.Outcome State Fault Refusal :=
  issue (.shli d a imm) (bodyA d a (· <<< imm.toNat)) s

/-- SHRI (R116). -/
def execShri (d a : Reg) (imm : BitVec 6) (s : State) : Host.Outcome State Fault Refusal :=
  issue (.shri d a imm) (bodyA d a (· >>> imm.toNat)) s

/-- SHAI (R116). -/
def execShai (d a : Reg) (imm : BitVec 6) (s : State) : Host.Outcome State Fault Refusal :=
  issue (.shai d a imm) (bodyA d a fun x => x.sshiftRight imm.toNat) s

/-- SLTI (R116). -/
def execSlti (d a : Reg) (imm : BitVec 14) (s : State) : Host.Outcome State Fault Refusal :=
  issue (.slti d a imm) (bodyA d a fun x => flagW (slt64 x (imm.signExtend 64))) s

/-- LI (R117). -/
def execLi (d : Reg) (imm : BitVec 19) (s : State) : Host.Outcome State Fault Refusal :=
  issue (.li d imm) (fun s => setG s d (imm.signExtend 64)) s

/-- LIH (R117). -/
def execLih (d : Reg) (imm : BitVec 19) (s : State) : Host.Outcome State Fault Refusal :=
  issue (.lih d imm) (bodyLih d imm) s

/-- ADR (R117). -/
def execAdr (d : Reg) (imm : BitVec 19) (s : State) : Host.Outcome State Fault Refusal :=
  issue (.adr d imm) (bodyAdr d imm) s

/-! ## Compact forms (05_encoding.md R81) -/

/-- C.MV is ADD gd, ga, g0. -/
def execCMv (d a : Reg) (s : State) : Host.Outcome State Fault Refusal :=
  issue (.cMv d a) (bodyAB d a 0 (· + ·)) s

/-- C.ADD is ADD gd, gd, gb. -/
def execCAdd (d b : Reg) (s : State) : Host.Outcome State Fault Refusal :=
  issue (.cAdd d b) (bodyAB d d b (· + ·)) s

/-- C.SUB is SUB gd, gd, gb. -/
def execCSub (d b : Reg) (s : State) : Host.Outcome State Fault Refusal :=
  issue (.cSub d b) (bodyAB d d b (· - ·)) s

/-- C.AND is AND gd, gd, gb. -/
def execCAnd (d b : Reg) (s : State) : Host.Outcome State Fault Refusal :=
  issue (.cAnd d b) (bodyAB d d b (· &&& ·)) s

/-- C.ADDI is ADDI gd, gd, imm. -/
def execCAddi (d : Reg) (imm : BitVec 6) (s : State) : Host.Outcome State Fault Refusal :=
  issue (.cAddi d imm) (bodyA d d (· + imm.signExtend 64)) s

/-- C.SHLI is SHLI gd, gd, shift. -/
def execCShli (d : Reg) (imm : BitVec 6) (s : State) : Host.Outcome State Fault Refusal :=
  issue (.cShli d imm) (bodyA d d (· <<< imm.toNat)) s

/-- C.LI is LI gd, imm. -/
def execCLi (d : Reg) (imm : BitVec 6) (s : State) : Host.Outcome State Fault Refusal :=
  issue (.cLi d imm) (fun s => setG s d (imm.signExtend 64)) s

/-- C.NOP (R124). -/
def execCNop (s : State) : Host.Outcome State Fault Refusal :=
  issue (.cNop) (bodyNop) s

end Machine
end Sys2Proof
end

