-- ==== Sys2Proof/Machine/Drain.lean ====
section
/-! DEFINITION. Commit points: what a drain does with each entry, and how a task ends (06_issuing.md R109; 14_ordering.md
R245; 17_mortar_plane.md R269 to R272; 22_interruption.md R319; 24_protection.md R335, R337). -/

namespace Sys2Proof
namespace Machine

/-! ## Scope instances and their detectors (17 R257) -/

/-- The detector of a scope instance. -/
def State.detector (s : State) (i : Inst) : Detector :=
  match i with
  | .group k => (s.cluster k).det
  | .device p => (s.part p).det
  | .system d => ((Tbl.get? s.fabric.sysTrellis d).getD {}).det

/-- The detector of a scope instance changed. -/
def State.modDetector (s : State) (i : Inst) (f : Detector → Detector) : State :=
  match i with
  | .group k => s.modCluster k fun c => { c with det := f c.det }
  | .device p => s.modPart p fun c => { c with det := f c.det }
  | .system d =>
    let n := (Tbl.get? s.fabric.sysTrellis d).getD {}
    { s with fabric := { s.fabric with sysTrellis := Tbl.set s.fabric.sysTrellis d { n with det := f n.det } } }

/-- The verdict of a round is not delivered yet: it is the current round, or it waits (R259). -/
def Detector.open_ (d : Detector) (r : Nat) : Bool := r == d.round || d.waiting.any fun w => w.1 == r

/-- The task belongs to a launch with eager containment (02 R23). -/
def State.eager (s : State) (l : Option LaunchId) : Bool :=
  match s.rcdAny? l with
  | some r => Rec.eager r
  | none => false

/-- The message is the completion of an instance and a round, of a launch with confirm containment. -/
def State.refutedMsg (s : State) (i : Inst) (round : Nat) (m : Msg) : Bool :=
  (match m.comp with | some x => decide (x.inst = i) && x.round == round | none => false) && !s.eager m.launch

/-- A taint abort (R270): the message returns, not held, or is withdrawn when it is the refuted completion itself. -/
def State.taintAbort (s : State) (c n : Nat) (i : Inst) (round : Nat) : State :=
  let t := s.slot c n
  let s := s.modCore c fun k => { k with taintAborts := (k.taintAborts + 1) % 2 ^ 32 }
  if s.privileged c n then
    match s.corePart? c with
    | some p => s.supervisorTrap p c n
    | none => s
  else
    let gone := match t.msg with | some m => s.refutedMsg i round m | none => false
    let s := s.abortTask c n
    let s := if gone then s.freeMsg c t else s.returnMsg c t id
    let s := s.modSlot c n fun t => { t with msg := none }
    if gone then s.noteExit c t.launch else s

/-- A slot that holds a refuted pair: an eager task keeps it for its next commit; a replayable task is taint-aborted, and with a
primary's the mirror's task; one that has passed a commit point traps CONTAINMENT. -/
def State.refuteSlot (s : State) (i : Inst) (round c n : Nat) : State :=
  let t := s.slot c n
  let hit (x : Completion) : Bool := decide (x.inst = i) && x.round == round
  if !t.pairs.any hit then s
  else
    let left := t.pairs.filter fun x => !hit x
    let u := { t with pairs := left, taint := !left.isEmpty }
    if s.eager t.launch then
      let listed := (s.detector i).eaters.contains (round, t.msgid, c)
      s.setSlot c n { u with eaten := if listed then u.eaten else u.eaten ++ t.pairs.filter hit }
    else if t.repl then
      let s := s.taintAbort c n i round
      match s.partnerOf? c with
      | some m => if (s.slot m n).running then s.taintAbort m n i round else s
      | none => s
    else (s.setSlot c n u).takeTrap c n Cause.containment 0 (w64 round)

/-- A task consumes a completion: TAINT and the pair (R269). A pair that is confirmed already is none; one that is refuted already is
refuted at once. -/
def State.consume (s : State) (c n : Nat) (x : Completion) : State :=
  let d := s.detector x.inst
  if d.open_ x.round then s.modSlot c n fun t => { t with pairs := t.pairs ++ [x], taint := true }
  else if d.refuted.contains x.round then
    (s.modSlot c n fun t => { t with pairs := t.pairs ++ [x], taint := true }).refuteSlot x.inst x.round c n
  else s

/-- The commits of an eager task are kept for the records of its pairs (R272). -/
def State.noteEager (s : State) (c n : Nat) : State :=
  let t := s.slot c n
  let add (l : List (Nat × W32 × Nat)) (x : Completion) : List (Nat × W32 × Nat) :=
    if l.contains (x.round, t.msgid, c) then l else l ++ [(x.round, t.msgid, c)]
  if s.eager t.launch then
    let s := t.pairs.foldl (fun s x => s.modDetector x.inst fun d => { d with eaters := add d.eaters x }) s
    let s := t.eaten.foldl (fun s x => s.modDetector x.inst fun d => { d with late := add d.late x }) s
    s.modSlot c n fun t => { t with eaten := [] }
  else s

/-! ## The drain (R109, R245) -/

/-- A store to the issuing core's own scratchpad or IMEM, performed before the commit point completes (R245 case 4). -/
def Entry.own (e : Entry) (c : Nat) : Bool :=
  match e.act, e.loc with
  | .store _, .spad k _ => decide (k = c)
  | .store _, .imem k _ => decide (k = c)
  | _, _ => false

/-- Bytes of IMEM written by a store; what each slot may still have fetched ahead is kept (07 R127), and a slot that follows goes on with its own
fetch (05 R91). -/
def Core.imemWrite (k : Core) (a : Nat) (bs : List NibByte) : Core :=
  bs.foldl (fun k b =>
    let o := a + b.pos
    let old := Tbl.find 0 k.imem o
    { k with imem := Tbl.put 0 k.imem o (mergeNib b old), imemDirty := true, badImem := k.badImem.filter (· != o / 2),
             stale := k.stale ++ taskSlots.map (fun n => (n, o, old)),
             slots := k.slots.map fun e => (e.1, { e.2 with follow := none, stream := [] }) }) k

/-- A store performed in a core's local memory. -/
def State.localStore (s : State) (loc : Loc) (bs : List NibByte) : State :=
  match loc with
  | .spad c a => s.modCore c fun k => k.spadMerge a bs
  | .imem c a => s.modCore c fun k => k.imemWrite a bs
  | _ => s

/-- A matrix command is released: behind those released before it, with the next number of the core (11_matrix_unit.md R195,
R210). -/
def Core.releaseMx (k : Core) (uid after : Nat) : Core :=
  match k.mxq.find? fun m => m.uid == uid with
  | none => k
  | some m =>
    let n := (k.mxCount + 1) % 2 ^ 32
    { k with
      mxCount := n
      mxq := (k.mxq.filter fun e => e.released && e.uid != uid) ++ { m with released := true, after := after, num := n }
        :: k.mxq.filter fun e => !e.released && e.uid != uid }

/-- A copy request is released, behind those released before it (12_copy_engine.md R213). -/
def Core.releaseCp (k : Core) (uid after : Nat) : Core :=
  match k.cpq.find? fun m => m.uid == uid with
  | none => k
  | some m => { k with
      cpq := (k.cpq.filter fun e => e.released && e.uid != uid) ++ { m with released := true, after := after }
        :: k.cpq.filter fun e => !e.released && e.uid != uid }

/-- The number under which a core counts its contributions for a launch: one for each launch of each context and device. -/
def trrdKey (l : LaunchId) : Nat := l.lid + 2 ^ 32 * l.ctx + 2 ^ 64 * (match l.dev with | none => 0 | some d => d + 1)

/-- Contributions that a core has committed for a launch (17_mortar_plane.md R283). -/
def Core.countTrrd (k : Core) (l : Option LaunchId) : Core :=
  match l with
  | none => k
  | some l => { k with trrdCount := Tbl.put 0 k.trrdCount (trrdKey l) (Tbl.find 0 k.trrdCount (trrdKey l) + 1) }

/-- LNCH instructions that a core has committed (03_launching.md R52). -/
def Core.countLaunch (k : Core) : Core := { k with launchCount := (k.launchCount + 1) % 2 ^ 32 }

/-- One entry of a drain: performed at once, or handed on. A store to the core's own memory is performed at once when what was drained
before it allows it; the commit point waits for it otherwise. The mark of an FNC with neither .ss nor .sl orders nothing, nor does one with
.sl alone that no unperformed store precedes. -/
def State.drainEntry (s : State) (c : Nat) (e : Entry) : State :=
  match e.act with
  | .tile _ _ _ => s
  | .mxRelease uid => s.modCore c fun k => k.releaseMx uid e.id
  | .cpRelease uid => s.modCore c fun k => k.releaseCp uid e.id
  | .trrd _ _ _ _ => s.modCore c fun k => { k.countTrrd e.launch with flight := k.flight ++ [⟨e, .waiting⟩] }
  | .launch _ _ _ _ _ => s.modCore c fun k => { k.countLaunch with flight := k.flight ++ [⟨e, .waiting⟩] }
  | .store bs =>
    if e.own c && (s.core c).mayArrive e && ((s.core c).nears e).isEmpty then s.localStore e.loc bs
    else s.modCore c fun k => { k with flight := k.flight ++ [⟨e, .waiting⟩] }
  | .fence =>
    if e.order = .weak ∨ (e.order = .acq ∧ (s.core c).mayPass e = true) then s
    else s.modCore c fun k => { k with flight := k.flight ++ [⟨e, .waiting⟩] }
  | _ => s.modCore c fun k => { k with flight := k.flight ++ [⟨e, .waiting⟩] }

/-- Entries of a mirror's drain: what stays on its core is performed, everything else is discarded (24 R335 case 3). -/
def State.drainMirror (s : State) (c n : Nat) : State :=
  let t := s.slot c n
  let s := t.buf.foldl (fun s e =>
    match e.act with
    | .store bs => if e.own c then s.localStore e.loc bs else s
    | .trrd _ _ _ _ => s.modCore c fun k => k.countTrrd e.launch
    | .launch _ _ _ _ _ => s.modCore c Core.countLaunch
    | _ => s) s
  s.modCore c fun k => k.dropUnreleased n t.task

/-- The records that a task took leave for good, with what that retires (R104 case 4). -/
def Core.takeForGood (k : Core) (l : List CRec) : Core := l.foldl (fun k r => k.retireTie r.tie) k

/-- Drain(): every entry of the slot's buffer is handed on; the records that the task took leave for good (R104 case 4). One that it
has read in part is not taken for good before its last word (12_copy_engine.md R223 case 3). -/
def State.drain (s : State) (c n : Nat) : State :=
  let t := s.slot c n
  let mirror := (s.primaryOf? c).isSome
  let s := if mirror then s.drainMirror c n else t.buf.foldl (fun s e => s.drainEntry c e) s
  let part := if t.bound.isSome then t.taken.length - 1 else t.taken.length
  let s := s.modCore c fun k => k.takeForGood (t.taken.take part)
  let s := if mirror then s else s.noteEager c n
  s.modSlot c n fun t => { t with buf := [], taken := t.taken.drop part, checked := false, hash := none, drains := t.drains + 1 }

/-- The task is one of a pair (R335). -/
def State.paired (s : State) (c n : Nat) : Bool :=
  (s.slot c n).record.isNone && ((s.primaryOf? c).isSome || (s.mirrorOf? c).isSome)

/-- What a commit point or END waits for before it drains: every result; confirmation of the task's pairs (R270); the plumb
check (R337). -/
def commitWaits (s : State) (fin : Bool) : Except Stop Unit := do
  let t := s.cur
  awaitAll s
  require (!(t.taint && !s.eager t.launch)) (.error (.hold (.confirm fin)))
  require (!(s.paired s.curCore s.curSlot && !t.checked)) (.error (.hold (.plumb fin)))

/-- Some store of the task to its core's own memory is drained and not performed. -/
def State.ownOpen (s : State) (c n : Nat) : Bool :=
  (s.core c).flight.any fun f => f.e.task == (s.slot c n).task && f.e.own c

/-- The drain of the waiting commit point hands its entries on; the instruction completes later (R245 case 4). -/
def State.handOn (s : State) (c n : Nat) : State :=
  (s.drain c n).modSlot c n fun t => { t with handed := true, repl := false }

/-- The drain of a commit point or END: its waits, and the entries handed on; it waits until the stores to the core's own memory are
performed. -/
def drained (s : State) (fin : Bool) : Except Stop State := do
  let c := s.curCore
  let n := s.curSlot
  if s.cur.handed then
    require (!s.ownOpen c n) (.error (.hold (.handing fin)))
    .ok s
  else
    commitWaits s fin
    let t := s.handOn c n
    require (!t.ownOpen c n) (.error (.handed t (.handing fin)))
    .ok t

/-- The operands of a commit point: read, and popped, once, when it issues (01_notation.md R9, 05_encoding.md R80); a drain that waits
keeps them. -/
def operandsOnce (s : State) (read : State → Except Stop (State × List W64)) : Except Stop (State × List W64) :=
  if s.cur.handed then .ok (s, s.cur.opnds)
  else do
    let (s, l) ← read s
    .ok (s.modCur fun t => { t with opnds := l }, l)

/-- CommitPoint(): the waits, the drain, and REPL := 0. -/
def commitPoint (s : State) : Except Stop State := do
  let s ← drained s false
  .ok (s.modCur fun t => { t with repl := false, handed := false, opnds := [] })

/-! ## Task ends (07 R122) -/

/-- The slot is free. -/
def State.freeSlot (s : State) (c n : Nat) : State :=
  ((s.dropFollowers c n).modSlot c n fun t => { t with
    running := false, msg := none, record := none, pend := [], armed := false, lact := false, lc := 0, ls := 0, le := 0,
    wait := .none, staged := [],
    asked := [], pairs := [], taint := false, eaten := [], follow := none, stream := [], qbld := [], bound := none,
    passed := false, handed := false, opnds := [], upset := [] }).noteExit c (s.slot c n).launch

/-- The message of a task is consumed: its inbox entry is freed, and what its end releases is released. -/
def State.consumeMsg (s : State) (c n : Nat) : State :=
  let t := s.slot c n
  match t.msg with
  | some m => (s.freeMsg c t).endMsg c n t.task m
  | none => s

/-- The end of a supervisor task: its record is consumed, a TYPE 1 record is replied to with g23[1:0] (R319). -/
def State.endRecord (s : State) (c n : Nat) : State :=
  let t := s.slot c n
  match t.record, s.corePart? c with
  | some r, some p =>
    s.modPart p fun k => { k with
      handled := none
      replies := if r.call.isNone && decide (r.type = 1) then
          k.replies ++ [⟨r.core, r.slot, field (Tbl.find 0 t.g 23) 1 0, r.task, some t.task⟩]
        else k.replies }
  | _, _ => s

/-- END after its drain: what is left of a record that was read in part is discarded (R104 case 3); the slot and the inbox entry are
free. -/
def State.endTask (s : State) (c n : Nat) : State :=
  let s := (s.modCore c fun k => k.takeForGood (s.slot c n).taken).modSlot c n fun t => { t with taken := [] }
  let s := if (s.slot c n).record.isSome then s.endRecord c n else s.consumeMsg c n
  s.freeSlot c n

/-- The walker reads and the owners' results of a pair's primary are left to its mirror, whose task may still come to them
(04_placing.md R60, 24 R335 case 3). -/
def State.leaveReads (s : State) (c n : Nat) : State :=
  match s.mirrorOf? c with
  | some m =>
    let t := s.slot c n
    if (s.slot m n).running then s.modSlot m n fun u => { u with walks := t.walks, owned := t.owned } else s
  | none => s

/-- ENDD: everything since the last commit point is discarded and the message consumed; a supervisor's record returns to the
tail of its group (R319). -/
def State.dropTask (s : State) (c n : Nat) : State :=
  let t := s.slot c n
  let s := (s.leaveReads c n).discardTask c n
  let s :=
    match t.record, s.corePart? c with
    | some r, some p => s.modPart p fun k => { k with trapq := k.trapq ++ [{ r with aborts := 0 }], handled := none }
    | _, _ => s.consumeMsg c n
  s.freeSlot c n

end Machine
end Sys2Proof
end

