-- ==== Sys2Proof/Machine/Start.lean ====
section
/-! DEFINITION. How a message becomes a task: the class table and the image header, the start state, dispatch, the mirror's
part in it, and the acceptance of task messages at a core (05_encoding.md R86 to R88; 06_issuing.md R97, R98, R101, R110;
03_launching.md R57; 22_interruption.md R318; 24_protection.md R335, R336). -/

namespace Sys2Proof
namespace Machine

/-! ## Class tables and routine addresses (R86 to R88) -/

/-- A little-endian number of `n` bytes of an image. -/
def imgWord (im : Tbl Byte) (a n : Nat) : Nat := leVal ((upto n).map fun i => Tbl.find 0 im (a + i))

/-- DEFBUDGET and LENGTH of an image header. -/
def imgBudget (im : Tbl Byte) : Nat := imgWord im 4 2
def imgLength (im : Tbl Byte) : Nat := imgWord im 8 4

/-- Entry of a class: its word, and whether it is absent (R87). -/
def classEntry (im : Tbl Byte) (cls : Nat) : Nat := imgWord im (64 + 4 * cls) 4
def classAbsent (im : Tbl Byte) (cls : Nat) : Bool :=
  let w := classEntry im cls
  decide (w / 65536 = 0) || decide (w / 32768 % 2 = 1) || decide (w % 32768 < 160) || decide (imgLength im / 2 ≤ w % 32768)

/-- The message names its routine by a class. -/
def byClassKind : MsgKind → Bool
  | .byClass => true
  | .bounce => true
  | .rdxData => true
  | .faultRecord => true
  | _ => false

/-- The routine address that a message selects. -/
def routineOf (im : Tbl Byte) (m : Msg) : Pc :=
  if byClassKind m.kind then { carried := false, off := classEntry im (m.handler % 64) % 32768 }
  else { carried := decide (32768 ≤ m.handler % 65536), off := m.handler % 32768 }

/-- The routine cannot start: an absent class entry, an address outside its space (R77, R88). -/
def routineBad (im : Tbl Byte) (m : Msg) : Bool :=
  if byClassKind m.kind then classAbsent im (m.handler % 64)
  else
    let pc := routineOf im m
    if pc.carried then decide (m.code.length ≤ pc.off) else decide (pc.off < 160)

/-- The budget that a message's task is given, in units of 256 cycles. -/
def budgetOf (im : Tbl Byte) (launchBudget : Nat) (m : Msg) : Nat :=
  if launchBudget ≠ 0 then launchBudget
  else if byClassKind m.kind then classEntry im (m.handler % 64) / 65536
  else imgBudget im

/-! ## The start of a task (R101) -/

/-- The start state of a slot for a message. -/
def startSlot (t : Slot) (m : Msg) (pc : Pc) (budget task : Nat) : Slot :=
  { t with
    running := true
    g := Tbl.put 0 (Tbl.put 0 (Tbl.put 0 (Tbl.put 0 [] 24 m.args.a) 25 m.args.b) 26 m.args.c) 27 m.args.d
    v := [], m := [], pc := pc, saved := t.regs, msgid := m.msgid, msrc := m.source, budg := 256 * budget
    tcause := m.tcause, taddr := m.taddr, qce := false, qpe := false, qpos := 0, qbld := [], bound := none, taken := []
    pend := [], armed := false, lact := false, lc := 0, ls := 0, le := 0, buf := [], repl := true, pairs := [], taint := false, eaten := []
    follow := none, stream := [], msg := some m, wait := .none, staged := [], asked := [], task := task
    passed := false, drains := 0, hash := none, checked := false, walks := [], walkPos := 0, owned := [], ownedPos := 0
    pairTrap := none, record := none, fillFailed := false, handed := false, opnds := [], upset := [] }

/-- BUDGET of the launch of a message's task (R88): for a routine in IMEM, of the launch whose image the core holds, whichever launch
started the task (02 R28; log entry 12). -/
def State.launchBudget (s : State) (c : Nat) (m : Msg) : Nat :=
  let inImage := byClassKind m.kind || decide (m.handler % 65536 < 32768)
  match (if inImage then s.rcd? (s.core c).image else none).orElse fun _ => s.rcd? m.launch with
  | some r => Rec.budget r
  | none => 0

/-- A task starts in a slot. Its start acquires for the core, and it consumes the completion that its message is. A routine
that cannot start traps ILLEGAL before its first instruction. -/
def State.startTask (s : State) (c n : Nat) (m : Msg) : State :=
  let k := s.core c
  let pc := routineOf k.imem m
  let s := s.setCore c { (k.setSlot n (startSlot (k.slot n) m pc (budgetOf k.imem (s.launchBudget c m) m) k.tasks)) with
    tasks := k.tasks + 1, stale := k.stale.filter fun e => e.1 != n }
  let s := s.l1Invalidate c
  let s := match m.comp with | some x => s.consume c n x | none => s
  if routineBad k.imem m then s.takeTrap c n Cause.illegal 0 (w64 (pcWord pc)) else s

/-- Task slots of a core that dispatch may use: the supervisor slot takes no messages (R96). -/
def State.openSlots (s : State) (c : Nat) : List Nat := taskSlots.filter fun n => !s.privileged c n

/-- A slot is free and not parked. -/
def State.slotFree (s : State) (c n : Nat) : Bool := !(s.slot c n).running && !(s.slot c n).parked

/-- The lowest slot that is free and not parked; on a primary, with the mirror's slot free as well (24 R336 case 3). -/
def State.freeSlot? (s : State) (c : Nat) : Option Nat :=
  (s.openSlots c).find? fun n => s.slotFree c n && (s.mirrorOf? c).all fun j => s.slotFree j n

/-- The partition dispatches ordinary tasks: no context switch is stopping it (22 R325), it is not halted (R330), and no
fault storm restricts it (R322). -/
def Partition.dispatches (p : Partition) : Bool :=
  p.resident && decide (p.switch = .none) && decide (p.halt = .running) && !p.onlySup

/-- A core dispatches. -/
def State.dispatches (s : State) (c : Nat) : Bool :=
  !(s.core c).halted && (match s.corePart? c with | some p => (s.part p).dispatches | none => false)

/-- The same message in the run queue of a core. -/
def sameMsg (a b : Msg) : Bool := a.msgid == b.msgid && a.source == b.source && a.kind == b.kind && a.args == b.args

/-- The mirror dispatches what its primary dispatches, into the same slot (24 R335 case 1). -/
def State.mirrorDispatch (s : State) (c n : Nat) (m : Msg) : State :=
  match s.mirrorOf? c with
  | none => s
  | some j =>
    match (s.core j).runq.find? fun q => sameMsg q.msg m with
    | none => s
    | some q => (s.modCore j fun k => { k with runq := k.runq.filter fun x => x.off != q.off }).startTask j n q.msg

/-- The release of a message's launch is not complete for the cluster of a core: no task of the gang starts there (03 R54). -/
def State.releasePending (s : State) (c : Nat) (m : Msg) : Bool :=
  match m.launch.bind s.launch?, s.corePart? c with
  | some x, some p =>
    x.stage == .releasing && (gangClusters (s.part p) x.rcd).contains (clusterOf c) && !x.started.contains (clusterOf c)
  | _, _ => false

/-- A queued message may be dispatched now: it is not held, it did not arrive in this count of TIME (R98 case 4), and its launch's
release has reached the cluster. -/
def State.dispatchable (s : State) (c : Nat) (q : QMsg) : Bool :=
  !q.msg.held && q.at_ != some s.time && !s.releasePending c q.msg

/-- TASK_DISPATCH (R98): the first message that may be dispatched goes to the lowest free slot. -/
def State.dispatchTask (s : State) (c : Nat) : State :=
  if s.dispatches c && (s.primaryOf? c).isNone then
    match s.freeSlot? c, (s.core c).runq.find? (s.dispatchable c) with
    | some n, some q =>
      let s := s.modCore c fun k => { k with runq := k.runq.filter fun x => x.off != q.off }
      (s.startTask c n q.msg).mirrorDispatch c n q.msg
    | _, _ => s
  else s

/-! ## Acceptance of a task message (R97, R110; 03 R57 case 4; 22 R320 step 2; 24 R335, R336) -/

/-- A message of a launch that another launch has displaced on the core. -/
def State.staleAt (s : State) (c : Nat) (m : Msg) : Bool :=
  match m.launch with
  | some l => (s.core c).earlier.contains l && (s.core c).image != some l
  | none => false

/-- A message of a launch that was torn down, or is done. -/
def State.deadLaunch (s : State) (m : Msg) : Bool :=
  match m.launch with
  | some l =>
    if l.dev.isSome then (match s.guest? l with | some g => g.killed | none => false)
    else match s.launch? l with | some k => k.killed || k.stage == .done | none => true
  | none => false

/-- A message that is consumed when it arrives: what its end retires and releases follows. -/
def State.consumeAt (s : State) (c : Nat) (m : Msg) : State := s.endMsg c 0 (s.core c).tasks m

/-- The report of a message of an earlier launch (22 R316). -/
def staleRec (s : State) (c : Nat) (m : Msg) : TRec :=
  reportRec Cause.illegal 1 m.msgid (s.placeWord c) 0 (w64 (kindCode m.kind * 65536 + m.handler % 65536))

/-- A task message reaches the CNI of a core: accepted, its copy for the mirror with it; consumed; or refused with a code. -/
def State.acceptTask (s : State) (c : Nat) (m : Msg) : Except Nat State :=
  if (s.primaryOf? c).isSome then .error 4
  else if s.deadLaunch m then .ok (s.consumeAt c m)
  else if s.staleAt c m then .ok ((s.consumeAt c m).report c (staleRec s c m))
  else
    match (s.core c).accept m s.time with
    | .error r => .error r
    | .ok k =>
      let s := s.setCore c k
      match s.mirrorOf? c with
      | none => .ok s
      | some j =>
        match (s.core j).accept m s.time with
        | .ok kj => .ok (s.setCore j kj)
        | .error r => .error r

/-- A message that the device itself starts on a core (06_issuing.md R358): it takes the next message id of the core when it
enters the run queue, and is never refused: `none` means that its source keeps it. -/
def State.acceptOwn (s : State) (c : Nat) (m : Msg) : Option State :=
  if s.deadLaunch m then some (s.consumeAt c m)
  else if s.staleAt c m then some ((s.consumeAt c m).report c (staleRec s c m))
  else
    let (id, k) := (s.core c).nextMsgId
    match (s.setCore c k).acceptTask c { m with msgid := id } with
    | .ok s => some s
    | .error _ => none

/-! ## The supervisor slot (22 R317, R318) -/

/-- The record that the supervisor slot takes next: a fatal one first, then the oldest. -/
def nextRec (q : List TRec) : Option TRec :=
  match q.find? fun r => r.fatal with
  | some r => some r
  | none => q.head?

/-- The message form of a record: its words are the arguments, its payload the payload. -/
def recMsg (r : TRec) : Msg where
  kind := if r.call.isSome then .byAddress else .faultRecord
  target := 0
  source := w64 (field r.w1 37 0)
  spart := 0
  msgid := r.msgid
  handler := r.call.getD r.cause
  bclass := 0
  defer := 0
  prio := 0
  refuse := 0
  args := ⟨r.w0, r.w1, r.w2, r.w3⟩
  payload := r.payload
  code := []
  launch := none
  comp := none
  held := false
  retried := false
  tcause := 0
  taddr := 0
  tie := .none

/-- Records that waited for room enter the queue, the oldest first (R317 case 1). -/
def fillQueue : Nat → Partition → Partition
  | 0, p => p
  | fuel + 1, p =>
    match p.heldRecs with
    | r :: q => if p.ordinary < 252 then fillQueue fuel { p with trapq := p.trapq ++ [r], heldRecs := q } else p
    | [] => p

/-- SUPERVISOR_DISPATCH (R318): a record whose class entry is absent is answered by the device. -/
def State.dispatchSup (s : State) (p : Nat) : State :=
  let k := s.part p
  let c := k.supCore
  let t := s.slot c 7
  if k.en && k.resident && !t.running && !(s.core c).halted && decide (k.switch = .none) && decide (k.halt = .running) then
    match nextRec k.trapq with
    | none => s
    | some r =>
      let k : Partition := { k with trapq := removeFirst (fun x => x == r) k.trapq }
      let m := recMsg r
      if r.call.isNone && classAbsent k.supImem r.cause then
        let s := s.setPart p { k with counted := k.counted + 1 }
        if r.type = 1 then s.reply r.core r.slot r.task 0 else s
      else
        let s := s.setPart p { k with handled := some r.reserve }
        let task := (s.core c).tasks
        let s := s.modCore c fun x => { x with tasks := x.tasks + 1 }
        let s := s.setSlot c 7 { startSlot t m (routineOf k.supImem m) (budgetOf k.supImem 0 m) task with record := some r }
        s.l1Invalidate c
  else s

end Machine
end Sys2Proof
end

