-- ==== Sys2Proof/Machine/Courses.lean ====
section
/-! DEFINITION. Courses: arrival, byte counts, completion and its undoing, membership, and the fault records they send
(17_mortar_plane.md R263 to R266, R271, R278). -/

namespace Sys2Proof
namespace Machine

/-! ## Fields (R263) -/

/-- The members' bits. -/
def memberBits : List Nat := upto 72

/-- Phase of a member. -/
def CourseF.pmOf (f : CourseF) (b : Nat) : Nat := Tbl.find 0 f.pm b

/-- Working phase of a member slot: its phase copy and its arrival copy. -/
def Course.working (k : Course) (b : Nat) : Nat := (Tbl.find 0 k.phase b + ofBool (k.arrived.getLsbD b)) % 3

/-- The slot copies take the course's own values. -/
def Course.writeCopies (k : Course) : Course :=
  { k with
    phase := memberBits.foldl (fun p b => if k.mem.getLsbD b then Tbl.put 0 p b (k.f.pmOf b) else p) k.phase
    arrived := k.f.arr &&& k.mem }

/-- MEM ⊆ ARR: every member has arrived. -/
def Course.all (k : Course) : Bool := k.mem &&& k.f.arr == k.mem

/-! ## The rules at the start of a round (R264) -/

/-- Rule 1: Q = 3 becomes 0. -/
def CourseF.rule1 (f : CourseF) : CourseF := if f.q = 3 then { f with q := 0 } else f

/-- Rule 2: arrivals of non-members are cleared, with their continuations. -/
def CourseF.rule2 (mem : BitVec 72) (f : CourseF) : CourseF :=
  { f with
    arr := f.arr &&& mem, held := f.held &&& mem
    cont := f.cont.filter fun e => mem.getLsbD e.1
    contHeld := f.contHeld.filter fun e => mem.getLsbD e.1 }

/-- Rule 3: a held arrival without an arrival moves to ARR. -/
def CourseF.rule3 (f : CourseF) : CourseF :=
  let up := f.held &&& ~~~f.arr
  { f with
    arr := f.arr ||| up, held := f.held &&& ~~~up
    cont := memberBits.foldl (fun c b =>
      if up.getLsbD b then match Tbl.get? f.contHeld b with | some x => Tbl.set c b x | none => c else c) f.cont
    contHeld := f.contHeld.filter fun e => !up.getLsbD e.1 }

/-- Rule 4, the adoption: a member one phase behind is raised. -/
def CourseF.adopt (mem : BitVec 72) (f : CourseF) : CourseF :=
  { f with pm := memberBits.foldl (fun p b =>
      if mem.getLsbD b && decide (f.pmOf b < 3) && decide ((f.pmOf b + 1) % 3 = f.q) then Tbl.put 0 p b f.q else p) f.pm }

/-- Rule 4, the rest: any other phase is reset. -/
def CourseF.rule4 (mem : BitVec 72) (f : CourseF) : CourseF :=
  { f with pm := memberBits.foldl (fun p b => if mem.getLsbD b && f.pmOf b != f.q then Tbl.put 0 p b f.q else p) f.pm }

/-- Rule 5: an arrival bit takes the value of its slot's copy. -/
def CourseF.rule5 (mem arrived : BitVec 72) (f : CourseF) : CourseF :=
  { f with arr := (f.arr &&& ~~~mem) ||| (arrived &&& mem) }

/-- The rules in their order, and whether one other than the adoption changed a field. -/
def Course.start (k : Course) : Course × Bool :=
  let mem := k.shadow
  let f3 := (k.f.rule1.rule2 mem).rule3
  let f4 := f3.adopt mem
  let f5 := (f4.rule4 mem).rule5 mem k.arrived
  ({ k with mem := mem, f := f5 }, k.f != f3 || f4 != f5)

/-! ## Fault records (R266, 22_interruption.md R316) -/

/-- A course fault: cause, cluster, course, Q, tag, bytes, source core. -/
def State.courseFault (s : State) (cause k idx q tag bytes src : Nat) : State :=
  match s.partOf? k with
  | none => s
  | some p =>
    let x := clX k - (s.part p).px
    let y := clY k - (s.part p).py
    let code := idx % 16 * 4096 + q % 4 * 1024 + tag % 4 * 256 + y % 16 * 16 + x % 16
    s.postRec p { reportRec cause code 0 (s.placeWord src) 0 (w64 bytes) with core := src }

/-- The course of a cluster changed. -/
def State.modCourse (s : State) (k idx : Nat) (f : Course → Course) : State :=
  s.modCluster k fun c => c.setCourse idx (f (c.course idx))

/-- Case 4: every member has arrived and more bytes came than were expected; a record once, until a SYNLD clears the mark. DESIGN CHOICE (log
entry 8): where no delivery brings the mark about, the record names Q as its tag and 0 bytes, and as its source the core that arrives or
quits, or else the cluster's core 8; R266 lists these fields and does not say what they hold then. -/
def State.checkOver (s : State) (k idx tag bytes src : Nat) : State :=
  let c := (s.cluster k).course idx
  if c.all && decide (c.f.ecur < c.f.dcur) && !c.overSent then
    (s.modCourse k idx fun c => { c with overMark := true, overSent := true }).courseFault Cause.overdelivery k idx c.f.q tag bytes src
  else s

/-! ## Arrivals and byte counts (R265, R266) -/

/-- A counter and the overdelivery mark after an addition: it holds at 2^32 − 1 (case 5). -/
def addCount (v n : Nat) : Nat × Bool := if 2 ^ 32 ≤ v + n then (2 ^ 32 - 1, true) else (v + n, false)

/-- An arrival of member `b` at a course of a cluster. A slot that is no member keeps no copy: its arrival is cleared at the
start of the next round. DESIGN CHOICE (log entry 8): the record of an arrival that is discarded names the slot's working phase as its tag and
0 bytes. -/
def State.arriveAt (s : State) (k idx b : Nat) (x : Option Cont) (src : Nat) : State :=
  let c := (s.cluster k).course idx
  if !c.f.arr.getLsbD b then
    let s := s.modCourse k idx fun c => { c with
      arrived := if c.mem.getLsbD b then setBit72 c.arrived b true else c.arrived
      f := { c.f with arr := setBit72 c.f.arr b true
                      cont := match x with | some y => Tbl.set c.f.cont b y | none => Tbl.del c.f.cont b } }
    s.checkOver k idx c.f.q 0 src
  else if !c.f.held.getLsbD b then
    s.modCourse k idx fun c => { c with
      f := { c.f with held := setBit72 c.f.held b true
                      contHeld := match x with | some y => Tbl.set c.f.contHeld b y | none => Tbl.del c.f.contHeld b } }
  else s.courseFault Cause.coursephase k idx c.f.q (c.working b) 0 src

/-- A delivery of bytes with a tag at a course (case 1). -/
def State.deliverCourse (s : State) (k idx tag bytes src : Nat) : State :=
  let c := (s.cluster k).course idx
  if tag % 4 = c.f.q then
    let (v, o) := addCount c.f.dcur bytes
    (s.modCourse k idx fun c => { c with f := { c.f with dcur := v }, overMark := c.overMark || o }).checkOver k idx tag bytes src
  else if tag % 4 = (c.f.q + 1) % 3 then
    let (v, o) := addCount c.f.dnxt bytes
    s.modCourse k idx fun c => { c with f := { c.f with dnxt := v }, overMark := c.overMark || o }
  else s.courseFault Cause.coursephase k idx c.f.q tag bytes src

/-- An expected count (case 2). -/
def State.expectCourse (s : State) (k idx tag bytes : Nat) (isMem : Bool) (src : Nat) : State :=
  let c := (s.cluster k).course idx
  if !isMem || decide (tag % 4 = c.f.q) then
    let (v, o) := addCount c.f.ecur bytes
    s.modCourse k idx fun c => { c with f := { c.f with ecur := v }, overMark := c.overMark || o }
  else if tag % 4 = (c.f.q + 1) % 3 then
    let (v, o) := addCount c.f.enxt bytes
    s.modCourse k idx fun c => { c with f := { c.f with enxt := v }, overMark := c.overMark || o }
  else s.courseFault Cause.coursephase k idx c.f.q tag bytes src

/-! ## Membership (R278) -/

/-- CJOIN at the CNI. -/
def Course.join (k : Course) (b : Nat) : Course :=
  if k.mem.getLsbD b then k
  else { k with
    mem := setBit72 k.mem b true, shadow := setBit72 k.shadow b true
    f := { k.f with pm := Tbl.put 0 k.f.pm b k.f.q }
    phase := Tbl.put 0 k.phase b k.f.q
    arrived := setBit72 k.arrived b false }

/-! ## Completion (R265) and its undoing (R271) -/

/-- The core of a member bit. -/
def memberCore (k b : Nat) : Nat := 16 * k + b / 8

/-- A task that a completion starts on a core waits in its CNI (R276 case 5). -/
def State.startBy (s : State) (core cls prio : Nat) (q : Quad) (payload : List Byte) (l : Option LaunchId)
    (x : Option Completion) : State :=
  let p := (s.corePart? core).getD 0
  s.modCluster (clusterOf core) fun c => { c with
    tasks := c.tasks ++ [(core, classMsg (s.placeWord core) p cls prio q payload l x)] }

/-- The payload word of a continuation (R277). -/
def contPayload (round idx phase : Nat) : List Byte := leBytes 8 (round % 2 ^ 32 + idx % 16 * 2 ^ 32 + phase % 4 * 2 ^ 36)

/-- The course may complete. -/
def Course.ready (k : Course) : Bool :=
  k.mem != 0 && k.all && decide (k.f.dcur = k.f.ecur) && !k.overMark && !k.unconfirmed

/-- Steps 1, 3, 4 and 5 of a completion at the end of a round. -/
def Course.complete (k : Course) (round : Nat) : Course :=
  let q := (k.f.q + 1) % 3
  { k with
    last := some (k.f, round), unconfirmed := true
    f := { arr := k.f.held, held := 0, q := q
           pm := memberBits.foldl (fun p b => if k.mem.getLsbD b then Tbl.put 0 p b q else p) k.f.pm
           dcur := k.f.dnxt, ecur := k.f.enxt, dnxt := 0, enxt := 0, cont := k.f.contHeld, contHeld := [] } }.writeCopies

/-- A completion, with the start of its continuations. -/
def State.completeCourse (s : State) (k idx round : Nat) : State :=
  let c := (s.cluster k).course idx
  let s := c.f.cont.foldl (fun s e =>
    if e.2.start && c.f.arr.getLsbD e.1 && c.mem.getLsbD e.1 then
      s.startBy (memberCore k e.1) e.2.cls e.2.prio e.2.q (contPayload round idx c.f.q) e.2.launch
        (some ⟨.course idx, .group k, round⟩)
    else s) s
  (s.modCourse k idx fun c => c.complete round).checkOver k idx ((c.f.q + 1) % 3) 0 (16 * k + 8)

/-- Some continuation that the last completion started belongs to a launch with confirm containment. -/
def State.confirmsCourse (s : State) (c : Course) : Bool :=
  match c.last with
  | some (f, _) => f.cont.any fun e => e.2.start && !s.eager e.2.launch
  | none => false

/-- The verdict of the round of the last completion: a refuted one is undone for launches with confirm containment. The slot
copies are restored with the fields they copy; rule 5 of R264 would otherwise clear the restored arrivals. -/
def State.judgeCourse (s : State) (k idx round : Nat) (v : Bool) : State :=
  let c := (s.cluster k).course idx
  match c.last with
  | some (f, r) =>
    if c.unconfirmed && r == round then
      if !v && s.confirmsCourse c then
        s.modCourse k idx fun c => { c with f := f, unconfirmed := false }.writeCopies
      else s.modCourse k idx fun c => { c with unconfirmed := false }
    else s
  | none => s

end Machine
end Sys2Proof
end

