-- ==== Sys2Proof/Machine/Flight.lean ====
section
/-! DEFINITION. Drained entries on their way: which of them may be performed now, and the results that they return
(14_ordering.md R243, R245, R246, R248; 08 R136, R140; 22_interruption.md R323). -/

namespace Sys2Proof
namespace Machine

/-- The entry leaves the core's flight. -/
def State.land (s : State) (c id : Nat) : State :=
  let l := ((s.core c).flight.find? fun f => f.e.id == id).bind (·.e.launch)
  (s.modCore c fun k => { k with flight := k.flight.filter fun f => f.e.id != id }).covered c id l

/-- The entry's state changes. -/
def State.mark (s : State) (c id : Nat) (st : FlightSt) : State :=
  s.modCore c fun k => { k with flight := k.flight.map fun f => if f.e.id == id then { f with st := st } else f }

/-- The `k`-th entry of a core's flight, if it waits to be performed. -/
def State.flying? (s : State) (c k : Nat) : Option Entry :=
  match (s.core c).flight[k]? with
  | some f => if f.st = .waiting ∨ f.st = .refused then some f.e else none
  | none => none

/-- What an owner returns to the result that asked: the value, or a fault. The mirror of a pair's primary is given the same. -/
def State.returnResult (s : State) (c uid : Nat) (v : W64) (bad : Option (Nat × W64)) : State :=
  let k := s.core c
  let acq := k.slots.any fun e => e.2.pend.any fun p => p.uid == uid && decide (2 ≤ p.acq)
  let s := s.setCore c { k with slots := k.slots.map fun e =>
    (e.1, if e.2.pend.any (fun p => p.uid == uid) then
      { e.2 with
        pend := e.2.pend.map fun p => if p.uid == uid then { p with gval := [v], bad := bad, ready := true } else p
        owned := if (s.mirrorOf? c).isSome then e.2.owned ++ [(v, bad)] else e.2.owned }
      else e.2) }
  if acq then s.l1Invalidate c else s

/-- A report about a drained write that failed: TRANSLATE or PERMISSION, the task's message id, its core and address
(08 R133 case 6, 22 R316). -/
def State.writeFailed (s : State) (c : Nat) (e : Entry) (cause dev : Nat) : State :=
  s.report c (reportRec cause 0 e.msgid (s.placeWord c) e.ea (w64 dev))

end Machine
end Sys2Proof
end

