-- ==== Sys2Proof/Machine/Maps.lean ====
section
/-! DEFINITION. Tensor maps: fields, ill-formed maps, element locations and edge policies (02_describing_work.md R31 to
R33). -/

namespace Sys2Proof
namespace Machine

def tmBase (m : Vec) : Nat := field m 63 0
def tmExt (m : Vec) (d : Nat) : Nat := field m (95 + 32 * d) (64 + 32 * d)
def tmStr (m : Vec) (d : Nat) : Nat := field m (239 + 48 * d) (192 + 48 * d)
def tmBrick (m : Vec) (d : Nat) : Nat := field m (399 + 16 * d) (384 + 16 * d)
def tmFmt (m : Vec) : Nat := field m 453 448
def tmRank (m : Vec) : Nat := field m 455 454
def tmEdge (m : Vec) (d : Nat) : Nat := field m (457 + 2 * d) (456 + 2 * d)

/-- Bits of an element of the map; 8 for a reserved code, which is ill-formed. -/
def tmBits (m : Vec) : Nat := ((fmtOf? (tmFmt m)).map Fmt.bits).getD 8

/-- The format has 4-bit elements. -/
def tmFour (m : Vec) : Bool := decide (tmBits m = 4)

/-- Ill-formed by R32. -/
def tmIll (m : Vec) : Bool :=
  let size := tmBits m / 8
  (fmtOf? (tmFmt m)).isNone
    || decide (field m 511 464 ≠ 0)
    || [0, 1, 2, 3].any (fun d =>
        if d ≤ tmRank m then decide (tmExt m d = 0 ∨ tmBrick m d = 0) || decide (tmEdge m d = 3)
        else decide (tmExt m d ≠ 0 ∨ tmBrick m d ≠ 0 ∨ tmStr m d ≠ 0 ∨ tmEdge m d ≠ 0))
    || (if tmFour m then decide (tmStr m 0 ≠ 0)
        else decide (tmStr m 0 = 0 ∨ tmStr m 0 % size ≠ 0) || decide (tmBase m % size ≠ 0))

/-- The place of an element: its first byte's address, and its nibble when it has 4 bits. -/
structure Spot where
  addr : W64
  nib : Nat
deriving DecidableEq, Repr

/-- Locate(x). -/
def locate (m : Vec) (x : Nat → Nat) : Spot :=
  let off := (([1, 2, 3].filter fun d => decide (d ≤ tmRank m)).map fun d => x d * tmStr m d).sum
  if tmFour m then ⟨w64 (tmBase m + off + x 0 / 2), x 0 % 2⟩ else ⟨w64 (tmBase m + off + x 0 * tmStr m 0), 0⟩

/-- A raw coordinate. -/
def rawCoord (m : Vec) (c e : Nat → Nat) (d : Nat) : Nat := c d * tmBrick m d + e d

/-- Raw(c, e): no edge policy. -/
def rawSpot (m : Vec) (c e : Nat → Nat) : Spot := locate m (rawCoord m c e)

/-- The coordinate that a dimension's edge policy gives; none where there is no access. -/
def edgeCoord (m : Vec) (write : Bool) (d x : Nat) : Option Nat :=
  if x < tmExt m d then some x
  else
    match tmEdge m d with
    | 0 => none
    | 1 => if write then none else some (tmExt m d - 1)
    | _ => some (x % tmExt m d)

/-- Elem(c, e, access). -/
def elemSpot (m : Vec) (c e : Nat → Nat) (write : Bool) : Option Spot :=
  let x (d : Nat) : Option Nat := if d ≤ tmRank m then edgeCoord m write d (rawCoord m c e d) else some 0
  match x 0, x 1, x 2, x 3 with
  | some a, some b, some c, some d =>
    some (locate m fun k => match k with | 0 => a | 1 => b | 2 => c | _ => d)
  | _, _, _, _ => none

/-- The result of TMAD on a map that has arrived: the address, or the cause of its fault (08 R138). -/
def tmadResult (m : Vec) (c : List Nat) : Except Nat W64 :=
  if tmIll m then .error 3
  else if tmFour m && decide (c.getD 0 0 * tmBrick m 0 % 2 = 1) then .error 7
  else .ok (rawSpot m (fun d => c.getD d 0) (fun _ => 0)).addr

end Machine
end Sys2Proof
end

