-- ==== Sys2Proof/Machine/Load.lean ====
section
/-! DEFINITION. The loads and stores of a task: where the bytes of a load come from, how they become its result, and what a
store puts into the commit buffer (08_isa_memory_messages.md R133 to R135; 06_issuing.md R108; 13_memory_hierarchy.md R226
to R229; 14_ordering.md R243, R246, R248). -/

namespace Sys2Proof
namespace Machine

/-! ## Bytes of a vector register -/

/-- The 64 bytes of a register, and the register of 64 bytes. -/
def vecBytes (v : Vec) : List Byte := leBytes 64 v.toNat
def vecOf (bs : List Byte) : Vec := BitVec.ofNat 512 (leVal bs)

/-- A register with some bytes, or nibbles of them, taken from a reply. -/
def patchVec (v : Vec) (bs : List Byte) (at_ : List VByte) : Vec :=
  vecOf (at_.foldl (fun l b => modifyAt (fun old => mergeNib ⟨0, bs.getD b.src 0, b.lo, b.hi⟩ old) b.dst l) (vecBytes v))

/-! ## From bytes to a result -/

/-- An integer of a reply's bytes. -/
def intOf (n : Nat) (sgn : Bool) (bs : List Byte) : W64 :=
  let x := leVal (bs.take n)
  if sgn then wrap (sext x (8 * n)) else w64 x

/-- The bytes of a read become its part of the pending result. -/
def Pending.fill (p : Pending) (shape : Shape) (bs : List Byte) : Pending :=
  match shape with
  | .int n sgn => { p with gval := [intOf n sgn bs] }
  | .pair => { p with gval := [w64 (leVal (bs.take 8)), w64 (leVal ((bs.drop 8).take 8))] }
  | .dword k => { p with gval := modifyAt (fun _ => w64 (leVal (bs.take 8))) k p.gval }
  | .vec at_ => { p with vval := patchVec p.vval bs at_ }
  | .tmad c ea =>
    match tmadResult (BitVec.ofNat 512 (leVal bs)) c with
    | .ok a => { p with gval := [a] }
    | .error cause => { p with gval := [0], bad := some (cause, ea) }

/-- The result is there once every read that is left of it has failed, or none is left; the fault is that of the first of them. -/
def Pending.settle (p : Pending) : Pending :=
  if p.want.all fun w => w.bad.isSome then
    { p with want := [], ready := true, bad := match p.want.head? with | some w => some (w.bad.getD 0, w.ea) | none => p.bad }
  else p

/-- A reply to one of the reads that a result waits for. -/
def Pending.answer (p : Pending) (req : Nat) (r : Except Nat (List Byte)) : Pending :=
  match p.want.find? fun w => w.req == req with
  | none => p
  | some w =>
    match r with
    | .ok bs =>
      let q := p.fill w.shape (w.fwd.foldl (fun l b => modifyAt (fun old => mergeNib b old) b.pos l) bs)
      ({ q with want := p.want.filter fun x => x.req != req } : Pending).settle
    | .error cause =>
      ({ p with want := p.want.map fun x => if x.req = req then { x with bad := some cause } else x } : Pending).settle

/-- A reply to a read that an instruction under way waits for: the instruction issues again. -/
def Slot.hear (t : Slot) (req : Nat) (r : Except Nat (List Byte)) : Slot :=
  if t.asked.any fun a => a.req == req then
    { t with
      wait := .none
      asked := t.asked.map fun a =>
        if a.req == req then (match r with | .ok bs => { a with got := some bs } | .error cause => { a with bad := some cause })
        else a }
  else t

/-- A reply for a core: the result that asked takes it, and an acquire invalidates. -/
def State.answer (s : State) (c req : Nat) (r : Except Nat (List Byte)) : State :=
  let k := s.core c
  let acq := k.slots.any fun e => e.2.pend.any fun p => decide (2 ≤ p.acq) && p.want.any fun w => w.req == req
  let s := s.setCore c { k with slots := k.slots.map fun e =>
    (e.1, ({ e.2 with pend := e.2.pend.map fun (p : Pending) => p.answer req r }).hear req r) }
  if acq then s.l1Invalidate c else s

/-! ## Reading at issue -/

/-- The bytes and nibbles of a range that the task has buffered, at offsets from its start (R108). -/
def bufferedOver (buf : List Entry) (loc : Loc) (n : Nat) : List NibByte :=
  (upto n).filterMap fun i =>
    buf.foldl (fun a e =>
      match storeByte? (e.beside loc) (locKey loc + i) with
      | none => a
      | some b =>
        match a with
        | none => some { b with pos := i }
        | some x => some ⟨i, mergeNib b x.val, x.lo || b.lo, x.hi || b.hi⟩) none

/-- A status word of a copy channel (12 R224). -/
def statusWord (k : Core) (chan : Nat) : W64 := w64 (Tbl.find 0 k.cpdn chan % 2 ^ 32)

/-- The task has drained a write to some byte of the range that is not performed yet: a load of it waits (14 R243). So does every load while
a mark of FNC.sl that the task drained waits for a store (08 R136), and one of a line that an entry of the core has performed for the
cluster alone. -/
def mustWait (s : State) (loc : Loc) (n : Nat) : Bool :=
  let k := s.core s.curCore
  drainedIn k s.cur.task loc n || slOpen k s.cur.task || k.flight.any fun f => f.e.near && f.e.onLines loc n

/-- An earlier acquire of the task has not read yet (14 R246). -/
def acquirePending (t : Slot) : Bool := t.pend.any fun p => decide (0 < p.acq) && !p.ready

/-- A read of the current core is parked, or refused there (22 R323). -/
def parkLoad (s : State) (req : Nat) (loc : Loc) (n : Nat) : Except Stop (State × Option (List Byte)) :=
  let r := s.loadPark s.curCore req loc n
  if s.refusedAt s.curCore (s.homeFor r) then .error (.hold .order)
  else if s.parkRoom (s.homeFor r) then .ok (s.parkAt r, none)
  else .error (.hold (.refused (s.homeFor r)))

/-- One read of a load, at issue: its bytes; or none, when the reply comes later under the request's number. -/
def readLoc (s : State) (req : Nat) (loc : Loc) (n : Nat) (strong : Bool) : Except Stop (State × Option (List Byte)) :=
  let c := s.curCore
  match loc with
  | .spad k off => .ok (s, some ((s.core k).spadBytes off n))
  | .imem k off => .ok (s, some ((upto n).map fun i => Tbl.find 0 (s.core k).imem (off + i)))
  | .inbox k off => .ok (s, some ((upto n).map fun i => (s.core k).inByte (off + i)))
  | .status k chan => .ok (s, some (leBytes 8 (statusWord (s.core k) chan).toNat))
  | .hbm p phys _ gpa =>
    if strong || s.weakMisses c phys gpa n then
      if s.refusedAt c (s.parkHome loc) || s.planeShut loc || s.nearOpen (clusterOf c) none loc n then .error (.hold .order)
      else if s.busy p phys gpa n false then parkLoad s req loc n
      else
        let (s, bs) := if strong then s.homeRead (some (clusterOf c)) p phys gpa n else s.weakRead c p phys gpa n
        .ok (s, some bs)
    else
      let (s, bs) := s.weakRead c p phys gpa n
      .ok (s, some bs)
  | .peer dev part a dom =>
    if s.flowRoom (s.flowTo dev 0) && s.coreOpen c then .ok (s.sendService dev 0 dom c req (.load part a n), none)
    else .error (.hold .order)
  | .stream _ _ => .ok (s, some (leBytes n 0))
  | .unmapped _ _ _ => if s.refusedAt c (s.parkHome loc) || s.planeShut loc then .error (.hold .order) else parkLoad s req loc n

/-- One read of a load, with the task's own buffered bytes over it, into a pending result. -/
def readPiece (strong : Bool) (sp : State × Pending) (x : W64 × Loc × Nat × Shape) : Except Stop (State × Pending) := do
  let (s, p) := sp
  let (ea, loc, n, shape) := x
  require (!mustWait s loc n) (.error (.hold .order))
  let ovl := bufferedOver s.cur.buf loc n
  let (req, s) := s.nextReq s.curCore
  let (s, got) ← readLoc s req loc n strong
  match got with
  | some bs => .ok (s, p.fill shape (ovl.foldl (fun l b => modifyAt (fun old => mergeNib b old) b.pos l) bs))
  | none => .ok (s, { p with want := p.want ++ [{ req := req, ea := ea, n := n, shape := shape, fwd := ovl }] })

/-- The reads of a load, in order. -/
def readPieces (strong : Bool) : State × Pending → List (W64 × Loc × Nat × Shape) → Except Stop (State × Pending)
  | sp, [] => .ok sp
  | sp, x :: r => do
    let sp ← readPiece strong sp x
    readPieces strong sp r

/-- A load: the reads are made now, the result arrives later. An acquire invalidates once its value is read. -/
def loadInto (s : State) (p : Pending) (xs : List (W64 × Loc × Nat × Shape)) (strong : Bool) : Except Stop State := do
  require (!acquirePending s.cur) (.error (.hold .order))
  let (s, p) ← readPieces strong (s, p) xs
  let p := { p with ready := p.want.isEmpty }
  let s := if p.ready && decide (2 ≤ p.acq) then s.l1Invalidate s.curCore else s
  .ok (addPending s p)

/-! ## Reads that an instruction makes before it takes effect -/

/-- Load(ea, n, weak, core) of R21 within an instruction, with the task's buffered bytes over it. A read of another device, and one that its
home parks, is asked for, and the instruction waits for its answer. -/
def syncRead (s : State) (ea : W64) (n : Nat) : Except Stop (State × List Byte) := do
  let (s, loc) ← s.xlateLoad ea n .read
  require (!mustWait s loc n && !acquirePending s.cur) (.error (.hold .order))
  let over_ (bs : List Byte) : List Byte :=
    (bufferedOver s.cur.buf loc n).foldl (fun l b => modifyAt (fun old => mergeNib b old) b.pos l) bs
  match s.cur.asked.find? fun a => a.ea == ea && a.n == n with
  | some a =>
    match a.got, a.bad with
    | some bs, _ => .ok (s, over_ bs)
    | none, some cause => trapAt cause ea
    | none, none => .error (.hold (.remote ea n))
  | none =>
  match loc with
  | .peer _ _ _ _ => .error (.hold (.remote ea n))
  | .unmapped _ _ _ => .error (.hold (.remote ea n))
  | .hbm p phys _ gpa =>
    let miss := s.weakMisses s.curCore phys gpa n
    if miss && (s.planeShut loc || s.refusedAt s.curCore (s.parkHome loc) || s.nearOpen (clusterOf s.curCore) none loc n) then
      .error (.hold .order)
    else if miss && s.busy p phys gpa n false then .error (.hold (.remote ea n))
    else
      let (s, bs) := s.weakRead s.curCore p phys gpa n
      .ok (s, over_ bs)
  | .spad k off => .ok (s, over_ ((s.core k).spadBytes off n))
  | .imem k off => .ok (s, over_ ((upto n).map fun i => Tbl.find 0 (s.core k).imem (off + i)))
  | .inbox k off => .ok (s, over_ ((upto n).map fun i => (s.core k).inByte (off + i)))
  | _ => .ok (s, over_ (leBytes n 0))

/-! ## Addresses and alignment -/

/-- Aligned(a, n), else ALIGN at the address. -/
def aligned (ea : W64) (n : Nat) : Except Stop Unit := require (decide (ea.toNat % n = 0)) (trapAt Cause.align ea)

/-- G(a) plus a signed offset of 10 bits in units of `n` bytes. -/
def effAddr (base : W64) (off : BitVec 10) (n : Nat) : W64 := wrap ((base.toNat : Int) + off.toInt * n)

/-- Places of a scope field (05 R84 case 1). -/
def scopeOf (sc : BitVec 2) : Scope :=
  match sc.toNat with
  | 0 => .core
  | 1 => .grp
  | 2 => .dev
  | _ => .sys

/-- Number of a scope. -/
def scopeNum : Scope → Nat
  | .core => 0
  | .grp => 1
  | .dev => 2
  | .sys => 3

/-! ## Stores -/

/-- Buffer(ea, n, x, order, scope) of R21, after translation. A later access waits for an earlier acquire. -/
def bufferStore (s : State) (ea : W64) (loc : Loc) (bs : List NibByte) (order : Order) (sc : Scope) : Except Stop State := do
  require (!acquirePending s.cur) (.error (.hold .order))
  addEntry s ea loc order sc (.store bs)

/-- The bytes of a store by the aligned 16-byte sectors that they lie in: each is single-copy atomic, the store is not (10 R189). -/
def bySector (loc : Loc) (bs : List NibByte) : List (List NibByte) :=
  let sec (b : NibByte) : Nat := (locKey loc + b.pos) / 16
  (bs.map sec).dedup.map fun k => bs.filter fun b => sec b == k

/-- A store whose sectors may be performed at different times: an entry for each. One to another device travels as one request. -/
def bufferSectors (s : State) (ea : W64) (loc : Loc) (bs : List NibByte) : Except Stop State :=
  match loc with
  | .peer _ _ _ _ => bufferStore s ea loc bs .weak .core
  | .stream _ _ => bufferStore s ea loc bs .weak .core
  | _ => (bySector loc bs).foldlM (fun s l => bufferStore s ea loc l .weak .core) s

/-- A store of the low `n` bytes of a value. -/
def storeAt (s : State) (ea : W64) (n : Nat) (x : Nat) (order : Order) (sc : Scope) : Effect := do
  let (s, loc) ← s.xlate ea n .write
  let s ← bufferStore s ea loc (fullBytes (leBytes n x)) order sc
  .ok (s, .seq)

end Machine
end Sys2Proof
end

