-- ==== Sys2Proof/Machine/Place.lean ====
section
/-! DEFINITION. Place words of messages: their check and the cores they name; messages of the device and bounces
(08_isa_memory_messages.md R144, R145, R149; 20_fabric.md R298). -/

namespace Sys2Proof
namespace Machine

/-- The device of a place word is this one. -/
def State.ownDevice (s : State) (w : W64) : Bool := decide (plDev w = 0) || decide (plDev w = s.fabric.devId)

/-- The peer entry that a place word's device goes by: the lowest-numbered device entry with that device and SEND. -/
def State.sendPeer? (s : State) (p dev : Nat) : Option (BitVec 128) :=
  ((s.part p).peers.find? fun e =>
    decide (e.1 < (s.part p).peerLen) && s.peerGood p e.2 && !bitAt e.2 8 && bitAt e.2 6 && decide (field e.2 45 28 = dev)).map (·.2)

/-- The gang cores of a stage of a launch (R145, kind 2). -/
def stageCores (p : Partition) (r : BitVec 1024) (stage : Nat) : List Nat :=
  ((gangClusters p r).filter fun k => decide (Rec.stageOf r (clX k - (p.px + Rec.gx r)) = stage)).flatMap (maskCores r)

/-- The targets that a well-formed place word of this device names. -/
def localTargets (p : Partition) (r : Option (BitVec 1024)) (w : W64) : List Target :=
  let k := clusterAt (p.px + plX w) (p.py + plY w)
  match plKind w with
  | 0 => [.core (16 * k + plCore w)]
  | 1 => (coresOf k).map .core
  | 2 => match r with | some r => (stageCores p r (plStage w)).map .core | none => []
  | _ => [.anyOf k]

/-- The device on which the launch of a task was accepted, when that is another one, or another context's. -/
def Slot.launchDev (t : Slot) : Option Nat := t.launch.bind (·.dev)

/-- The place word check of R145: ILLEGAL first, then PERMISSION with the place word as TADDR. A stage of a launch that was accepted
elsewhere is on that device: DESIGN CHOICE (log entry 9), the message goes there by the partition's peer entry for it, as one whose word names
that device does. -/
def placeTargets (s : State) (w : W64) : Except Stop (List Target) := do
  let r := s.rcdAny? s.cur.launch
  require (decide (field w 63 38 = 0) && decide (plKind w ≤ 3) && !(decide (plKind w = 0) && decide (8 < plCore w)))
    (trapBits Cause.illegal)
  require (!(decide (plKind w = 2) && (match r with | some r => decide (Rec.stages r ≤ plStage w) | none => true)))
    (trapBits Cause.illegal)
  match s.corePart? s.curCore with
  | none => trapAt Cause.permission w
  | some pn =>
    let p := s.part pn
    let away (dev : Nat) : Except Stop (List Target) :=
      match s.sendPeer? pn dev with
      | none => trapAt Cause.permission w
      | some e => .ok [.device dev (field e 51 46) (field e 67 52)]
    if s.ownDevice w then
      if p.pw < plX w ∨ p.ph < plY w then trapAt Cause.permission w
      else
        match (if plKind w = 2 then s.cur.launchDev else none) with
        | some d => away d
        | none => .ok (localTargets p r w)
    else away (plDev w)

/-- A message of the current task, before its id is assigned. -/
def taskMsg (s : State) (kind : MsgKind) (target : W64) (handler bclass defer : Nat) (q : Quad) (payload : List Byte)
    (code : List Half) : Msg where
  kind := kind
  target := target
  source := s.placeWord ((s.primaryOf? s.curCore).getD s.curCore)
  spart := (s.corePart? s.curCore).getD 0
  msgid := 0
  handler := handler
  bclass := bclass
  defer := defer
  prio := (s.cur.msg.map (·.prio)).getD 0
  refuse := 0
  args := q
  payload := payload
  code := code
  launch := s.cur.launch
  comp := none
  held := false
  retried := false
  tcause := 0
  taddr := 0
  tie := .none

/-- The bounce of a refused message (R149): its payload is the original TARGET, the descriptor word with the refusal's code,
and the payload; carried code does not return. -/
def bounceOf (m : Msg) (code : Nat) (place : W64) : Msg :=
  { m with
    kind := .bounce, target := m.source, source := place, handler := m.bclass, defer := 0, refuse := code,
    payload := leBytes 8 m.target.toNat ++ leBytes 8 (descWord m code).toNat ++ m.payload, code := [], comp := none, tie := .none }

/-- Bytes of the current core's scratchpad for a message, or TRANSLATE at the first byte beyond it (R147, R357). -/
def spadRegion (s : State) (off n : Nat) : Except Stop (List Byte) :=
  let size := s.spadSize s.curCore
  if size < off + n then trapAt Cause.translate (w64 (0xFFFE * 2 ^ 48 + Nat.max off size))
  else .ok ((s.core s.curCore).spadBytes off n)

/-- Bytes as halfwords of code. -/
def halvesOf : List Byte → List Half
  | a :: b :: r => BitVec.ofNat 16 (a.toNat + 256 * b.toNat) :: halvesOf r
  | _ => []

end Machine
end Sys2Proof
end

