-- ==== Sys2Proof/Machine/Messages.lean ====
section
/-! DEFINITION. Messages, spawns, third-party reads and completions: SEND, SENDK, SENDX, SPWN, RDX, DEQ, and the events that
carry what they hand over (08_isa_memory_messages.md R144 to R155). -/

namespace Sys2Proof
namespace Machine

/-! ## SEND, SENDK, SENDX (R146, R147) -/

/-- The words of the builder as payload. -/
def builtBytes (t : Slot) : List Byte := t.qbld.flatMap fun w => leBytes 8 w.toNat

/-- A message enters the buffer, and the builder is emptied. Its padded entry always fits the ring: at most 64 bytes of
descriptor, 256 of code and 2,048 of payload (R111 case 4). -/
def bufferMsg (s : State) (m : Msg) (tg : List Target) : Effect := do
  require (decide (m.payload.length ≤ 2048)) (trapBits Cause.ringlen)
  require (!acquirePending s.cur) (.error (.hold .order))
  let s ← addEntry s m.target (.spad 0 0) .rel .sys (.send m tg)
  .ok (s.modCur fun t => { t with qbld := [] }, .seq)

/-- SENDK. -/
def bodySendk (d a : Reg) (cls bnc : BitVec 6) (s : State) : Effect := do
  let (s, w) ← readG s d
  let tg ← placeTargets s w
  let (s, q) ← readQuad s a
  bufferMsg s (taskMsg s .byClass w cls.toNat bnc.toNat 0 q (builtBytes s.cur) []) tg

/-- SEND. -/
def bodySend (d a b : Reg) (s : State) : Effect := do
  let (s, w) ← readG s d
  let tg ← placeTargets s w
  let (s, q) ← readQuad s a
  let (s, x) ← readG s b
  require (!bitAt x 15) (trapBits Cause.illegal)
  let len := field x 49 38
  let built := builtBytes s.cur
  require (!(decide (built ≠ []) && decide (0 < len))) (trapBits Cause.ringlen)
  require (decide (len ≤ 2048)) (trapBits Cause.ringlen)
  let region ← if len = 0 then .ok [] else spadRegion s (16 * field x 63 50) len
  bufferMsg s (taskMsg s .byAddress w (field x 15 0) (field x 37 32) (field x 31 16) q (built ++ region) []) tg

/-- SENDX. -/
def bodySendx (d a b : Reg) (s : State) : Effect := do
  let (s, w) ← readG s d
  let tg ← placeTargets s w
  let (s, q) ← readQuad s a
  let (s, x) ← readG s b
  let len := field x 49 38
  require (bitAt x 15 && decide (field x 14 0 < len / 2)) (trapBits Cause.illegal)
  require (decide (len ≤ 256) && decide (len % 2 = 0)) (trapBits Cause.ringlen)
  let region ← spadRegion s (16 * field x 63 50) len
  bufferMsg s (taskMsg s .carried w (field x 15 0) (field x 37 32) (field x 31 16) q (builtBytes s.cur) (halvesOf region)) tg

/-! ## SPWN (R150) -/

/-- SPWN: the commit point, then the child's message. -/
def bodySpwn (d a b : Reg) (la : BitVec 4) (s : State) : Effect := do
  let c := s.curCore
  let (s, l) ← operandsOnce s (quadOperands a b)
  let q := quadOf l
  let x := l.getD 4 0
  let w := w64 (field x 37 0)
  require (!bitAt x 63 && decide (field x 47 38 = 0)) (trapBits Cause.illegal)
  require (!(decide (plKind w = 1) || decide (plKind w = 2))) (trapBits Cause.illegal)
  require (s.ownDevice w) (trapAt Cause.permission w)
  let tg ← placeTargets s w
  let s ← commitPoint s
  let mirror := (s.primaryOf? c).isSome
  let (id, s) := s.nextReq c
  let m := taskMsg s .spawn w (field x 63 48) 0 0 q [] []
  let e := newEntry s id w (.spad 0 0) .rel .dev (.spawn m (tg.headD (.core c)) (s.core c).reqs)
  let s := addPending s { gd := [d.toNat], left := la.toNat }
  .ok (if mirror then s else s.modCore c fun k => { k with flight := k.flight ++ [⟨e, .waiting⟩] }, .seq)

/-! ## DEQ (R152) -/

/-- DEQ: a whole record, which acquires for the core; zeros without one. -/
def bodyDeq (d : Reg) (la : BitVec 4) (s : State) : Effect := do
  require s.cur.bound.isNone (trapBits Cause.illegal)
  let gd := (upto 4).map fun k => d.toNat + k
  match s.takeRecord with
  | none => .ok (laterG s la.toNat gd [0, 0, 0, 0], .seq)
  | some (r, s) => .ok (laterG (s.l1Invalidate s.curCore) la.toNat gd [r.w0, r.w1, r.w2, r.w3], .seq)

/-! ## RDX (R153, R154) -/

/-- Fields of the completion word. -/
def rdxDoff (w : W64) : Nat := field w 63 46
def rdxTag (w : W64) : Nat := field w 31 16
def rdxBounce (w : W64) : Nat := field w 15 10
def rdxMode (w : W64) : Nat := field w 9 8
def rdxNotify (w : W64) : Bool := bitAt w 7
def rdxClass (w : W64) : Nat := field w 5 0

/-- Device and tenant fabric domain of a place that is read, none for this device. -/
def locDomain : Loc → Option Nat
  | .peer _ _ _ dom => some dom
  | _ => none

/-- Every page of the source is translated and has read right, in rising order: the first place, or the first fault. -/
def xlateRange (ea : W64) (n : Nat) : Nat → State → Except Stop (State × Loc)
  | 0, s => s.xlate ea 1 .fetch
  | fuel + 1, s => do
    if field ea 63 48 ≠ 0 then s.xlate ea n .fetch
    else
      let (s, l) ← s.xlate ea 1 .fetch
      let m := 65536 - ea.toNat % 65536
      if n ≤ m then .ok (s, l)
      else
        let (s, _) ← xlateRange (ea + w64 m) (n - m) fuel s
        .ok (s, l)

/-- Request that an RDX of the current task makes of its words and consumers: as the requester its core, or the core it mirrors
(R154, R335). -/
def rdxRequest (s : State) (q : Quad) (tg : List Target) : RdxReq :=
  let pn := (s.corePart? s.curCore).getD 0
  let cons := match tg.head? with | some (.device dev part _) => (dev, part) | _ => (s.fabric.devId, pn)
  { cdev := cons.1, cpart := cons.2, dom := (s.ctx (s.part pn).ctx).domain, quad := q,
    requester := s.placeWord ((s.primaryOf? s.curCore).getD s.curCore), rpart := pn, rdev := s.fabric.devId, msgid := 0,
    prio := (s.cur.msg.map (·.prio)).getD 0, launch := s.cur.launch }

/-- RDX: the requester's checks, and the request in the buffer. Peer entries give rights only in the partition's own tenant
fabric domain (20_fabric.md R298 case 3), so devices that pass their checks are all in it. -/
def bodyRdx (a : Reg) (s : State) : Effect := do
  let (s, q) ← readQuad s a
  let n := q.b.toNat
  let w := q.d
  require (decide (1 ≤ n) && decide (n ≤ 65536) && decide (rdxMode w ≠ 3) && decide (field w 45 32 = 0) && !bitAt w 6
    && decide (rdxDoff w % 16 = 0) && decide (plKind q.c ≠ 2)) (trapBits Cause.illegal)
  require (!(decide (rdxMode w = 0) && decide (2048 < n))) (trapBits Cause.ringlen)
  let (s, loc) ← xlateRange q.a n 2 s
  let tg ← placeTargets s q.c
  require (tg.all fun t => match t, locDomain loc with | .device _ _ d, some e => d == e | _, _ => true)
    (trapAt Cause.permission q.c)
  require (!acquirePending s.cur) (.error (.hold .order))
  let s ← addEntry s q.a loc .rel .sys (.rdx (rdxRequest s q tg) loc tg)
  .ok (s, .seq)

/-! ## Hand-over and arrival of messages (R148, R149) -/

/-- The item leaves the message plane. -/
def State.takeNet (s : State) (k : Nat) : State := { s with net := removeAt k s.net }

/-- A launch that a device names, as this one names it for tasks of a context (R47). -/
def State.launchHere (s : State) (dev ctx : Nat) (l : Option LaunchId) : Option LaunchId :=
  l.map fun l =>
    let d := l.dev.getD dev
    { l with dev := if d = s.fabric.devId ∧ l.ctx = ctx then none else some d }

/-- The messages of a launch that are at other devices change. -/
def State.modAbroads (s : State) (l : LaunchId) (f : List Abroad → List Abroad) : State :=
  if l.dev.isSome then s.modGuest l fun g => { g with abroad := f g.abroad }
  else s.modLaunch l fun k => { k with abroad := f k.abroad }

/-- A message of a launch is at another device. -/
def State.goAbroad (s : State) (l : Option LaunchId) (x : Abroad) : State :=
  match l with
  | some l => s.modAbroads l fun k => k ++ [x]
  | none => s

/-- What is known of a launch's message at another device changes; once all its bounces have come, nothing of it is there. -/
def State.modAbroad (s : State) (l : Option LaunchId) (c : Nat) (id : W32) (f : Abroad → Abroad) : State :=
  match l with
  | some l => s.modAbroads l fun k =>
      (k.map fun x => if x.core = c ∧ x.msgid = id then f x else x).filter fun x =>
        match x.due with | some n => decide (x.back < n) | none => true
  | none => s

/-- Nothing of the message is there any more. -/
def Abroad.over (x : Abroad) : Abroad := { x with due := some 0 }

/-- A message leaves the CNI for one target. -/
def State.sendTo (s : State) (c : Nat) (m : Msg) (t : Target) : State :=
  match t with
  | .core k => { s with net := s.net ++ [.task c k m] }
  | .anyOf k => { s with net := s.net ++ [.anyOf c k m] }
  | .device dev part dom =>
    (s.goAbroad m.launch { core := c, msgid := m.msgid, dev := dev }).sendFrame dev 0 dom 0
      (.message part { m with source := m.source ||| w64 (s.fabric.devId % 2 ^ 18 * 2 ^ 20), rcd := s.rcdAny? m.launch })

/-- A target can take a message of a core from the CNI now: a flow to another device has room, and the memory plane a slot. -/
def State.canSend (s : State) (c : Nat) (t : Target) : Bool :=
  match t with
  | .device dev _ _ => s.flowRoom (s.flowTo dev 0) && s.coreOpen c
  | _ => true

/-- Two targets may be one core: a message of kind 3 may reach every core of its cluster. -/
def Target.meets : Target → Target → Bool
  | .core a, .core b => a == b
  | .core a, .anyOf k => clusterOf a == k
  | .anyOf k, .core b => clusterOf b == k
  | .anyOf j, .anyOf k => j == k
  | .device a b c, .device x y z => a == x && b == y && c == z
  | _, _ => false

/-- No deferred message of the core to one of some targets whose deferral has ended waits still: it goes first (R148). -/
def Core.deferredFirst (k : Core) (time : Nat) (tg : List Target) : Bool :=
  k.deferred.all fun d => decide (time < d.due) || tg.all fun t => !d.tgt.meets t

/-- MESSAGE_HANDOVER: the `k`-th entry of a core's flight, a send or a spawn, takes its id and leaves; a deferred message is
held by the CNI. -/
def State.handover (s : State) (c k : Nat) : State :=
  match s.flying? c k with
  | none => s
  | some e =>
    if !(s.core c).mayRelease e then s
    else
      match e.act with
      | .send m tg =>
        if m.defer = 0 && !(tg.all (s.canSend c) && (s.core c).deferredFirst s.time tg) then s
        else
          let (id, kc) := (s.core c).nextMsgId
          let s := (s.setCore c kc).land c e.id
          let m := { m with msgid := id }
          if m.defer = 0 then tg.foldl (fun s t => s.sendTo c m t) s
          else s.modCore c fun kc => { kc with deferred := kc.deferred ++ tg.map fun t => ⟨s.time + 64 * m.defer, m, t⟩ }
      | .spawn m tg uid =>
        if !(s.core c).deferredFirst s.time [tg] then s
        else
        let (id, kc) := (s.core c).nextMsgId
        let s := (s.setCore c kc).land c e.id
        { s with net := s.net ++ [.spawn c e.slot uid tg { m with msgid := id }] }
      | _ => s

/-- DEFER_EXPIRY: the `k`-th deferred message, once its deferral is over and none ends before it. -/
def State.deferOver (s : State) (c k : Nat) : State :=
  let l := (s.core c).deferred
  match l[k]? with
  | none => s
  | some d =>
    let first := l.zipIdx.all fun e => decide (d.due < e.1.due) || (decide (d.due = e.1.due) && decide (k ≤ e.2))
    if d.due ≤ s.time ∧ first = true ∧ s.canSend c d.tgt = true then
      (s.modCore c fun kc => { kc with deferred := removeAt k kc.deferred }).sendTo c d.m d.tgt
    else s

/-- Source and target of a message under way. -/
def NetItem.way? : NetItem → Option (Nat × Target)
  | .task a b _ => some (a, .core b)
  | .anyOf a k _ => some (a, .anyOf k)
  | .spawn a _ _ t _ => some (a, t)
  | _ => none

/-- Two messages of one source may reach one core. -/
def NetItem.sameWay (x y : NetItem) : Bool :=
  match x.way?, y.way? with
  | some (a, t), some (b, u) => a == b && t.meets u
  | _, _ => false

/-- No earlier message of one source to one target is under way (R148). -/
def State.inOrder (s : State) (k : Nat) : Bool :=
  match s.net[k]? with
  | none => false
  | some x => (s.net.take k).all fun y => !y.sameWay x


/-- The cores of a cluster that can take a message of kind 3: a free slot and an empty run queue (R145). -/
def State.idleCores (s : State) (k : Nat) : List Nat :=
  (coresOf k).filter fun c => (s.freeSlot? c).isSome && (s.core c).runq.isEmpty && (s.primaryOf? c).isNone

/-- The core that the CNI chooses among several. -/
def State.pickIdle (s : State) (k : Nat) : Option Nat × State :=
  let l := s.idleCores k
  if l.isEmpty then (none, s)
  else
    let (f, s) := s.nextFree
    (l[Config.kind3Pick f % l.length]?, s)

/-- TASK_MESSAGE_ARRIVAL: the `k`-th item reaches its target's CNI; a refused message turns back. -/
def State.arriveTask (s : State) (k : Nat) : State :=
  if !s.inOrder k then s
  else
    match s.net[k]? with
    | some (.task src dst m) =>
      let s := s.takeNet k
      match s.acceptTask dst m with
      | .ok s => s
      | .error r => { s with net := s.net ++ [.bounce src (bounceOf m r (s.placeWord dst))] }
    | some (.anyOf src cl m) =>
      let s := s.takeNet k
      match s.pickIdle cl with
      | (none, s) => { s with net := s.net ++ [.bounce src (bounceOf m 4 m.target)] }
      | (some dst, s) =>
        match s.acceptTask dst m with
        | .ok s => s
        | .error r => { s with net := s.net ++ [.bounce src (bounceOf m r (s.placeWord dst))] }
    | _ => s

/-- BOUNCE_ARRIVAL: a bounce is accepted by its source core, or held by its CNI (R149). -/
def State.arriveBounce (s : State) (k : Nat) : State :=
  match s.net[k]? with
  | some (.bounce dst m) =>
    let s := s.takeNet k
    match s.acceptTask dst m with
    | .ok s => s
    | .error _ => s.modCore dst fun c => { c with bounces := c.bounces ++ [m] }
  | _ => s

/-- BOUNCE_RETRY: the oldest bounce that a CNI holds. -/
def State.retryBounce (s : State) (c : Nat) : State :=
  match (s.core c).bounces with
  | [] => s
  | m :: r =>
    match s.acceptTask c m with
    | .ok s => s.modCore c fun k => { k with bounces := r }
    | .error _ => s

/-! ## Spawns (R150) -/

/-- A child starts on a core, or there is no room for it: none starts in a cluster of its launch's gang that the release has not reached (03
R54). -/
def State.startChild (s : State) (c : Nat) (m : Msg) : Option State :=
  if !(s.dispatches c) || (s.primaryOf? c).isSome || s.deadLaunch m || s.staleAt c m || s.releasePending c m then none
  else
    match s.freeSlot? c, (s.core c).inPlace 64 (some m) with
    | some n, some (k, _) =>
      let s := (s.setCore c k).startTask c n m
      match s.mirrorOf? c with
      | none => some s
      | some j =>
        match (s.core j).inPlace 64 (some m) with
        | some (kj, _) => some ((s.setCore j kj).startTask j n m)
        | none => some s
    | _, _ => none

/-- SPAWN_AT_TARGET: the `k`-th item, a spawn: the child starts and the reply is 1, or the reply is 0. -/
def State.spawnArrive (s : State) (k : Nat) : State :=
  match s.net[k]? with
  | some (.spawn src _ uid tgt m) =>
    if !s.inOrder k then s
    else
    let s := s.takeNet k
    let (dst, s) : Option Nat × State :=
      match tgt with
      | .core c => (some c, s)
      | .anyOf cl => s.pickIdle cl
      | .device _ _ _ => (none, s)
    match dst.bind fun c => s.startChild c m with
    | some s => s.returnResult src uid 1 none
    | none =>
      -- a spawn of an earlier launch is consumed and reported (03_launching.md R57 case 4)
      let s := match dst with
        | some c => if !s.deadLaunch m && s.staleAt c m then (s.consumeAt c m).report c (staleRec s c m) else s
        | none => s
      s.returnResult src uid 0 none
  | _ => s

/-! ## Third-party reads (R155) -/

/-- RDX_REQUEST_SEND: the `k`-th entry of a core's flight, a request, takes its message id and goes to its owner. -/
def State.sendRdx (s : State) (c k : Nat) : State :=
  match s.flying? c k with
  | none => s
  | some e =>
    if !(s.core c).mayRelease e then s
    else
      match e.act with
      | .rdx r owner tg =>
        let room := match owner with | .peer dev _ _ _ => s.flowRoom (s.flowTo dev 0) && s.coreOpen c | _ => true
        if !room then s
        else
          let (id, kc) := (s.core c).nextMsgId
          let s := (s.setCore c kc).land c e.id
          let r := { r with msgid := id }
          match owner with
          | .peer dev part _ dom =>
            let r := { r with rcd := s.rcdAny? r.launch }
            (s.goAbroad r.launch { core := c, msgid := id, dev := dev }).sendService dev 0 dom c e.id (.rdx part r)
          | _ => { s with net := s.net ++ [.rdx r owner tg] }
      | _ => s

/-- The core of a kind-0 place word of a partition. -/
def coreOfPlace (p : Partition) (w : W64) : Nat := coreAt (p.px + plX w) (p.py + plY w) (plCore w)

/-- The source core of a request, on its own device. -/
def State.rdxSource (s : State) (r : RdxReq) : Nat := coreOfPlace (s.part r.rpart) r.requester

/-- An RDX request of a core here is at its owner's home no more, or a full park queue of that home has refused it (22 R323). -/
def State.rdxRefuses (s : State) (x : NetItem) (h : Option Nat) : State :=
  match x with
  | .rdx r _ _ =>
    let c := s.rdxSource r
    let l := ((s.core c).rdxRefused.filter fun e => e.1 != r.msgid) ++ (match h with | some h => [(r.msgid, h)] | none => [])
    if r.rdev ≠ s.fabric.devId ∨ (s.core c).rdxRefused = l then s else s.modCore c fun k => { k with rdxRefused := l }
  | _ => s

/-- The `k`-th item parks at the home of the line that it waits for, `off` bytes from a place, when its park queue has room (22 R323); its
source retries it otherwise. -/
def State.parkItem (s : State) (k : Nat) (loc : Loc) (off : Nat) : State :=
  match s.net[k]? with
  | some x =>
    let r : Parked := { who := .item x, src := x.tag.1, req := x.tag.2, loc := loc, off := off }
    if s.parkRoom (s.homeFor r) then ((s.takeNet k).parkAt r).rdxRefuses x none else s.rdxRefuses x (some (s.homeFor r))
  | none => s

/-- The delivery to every core that the recipient names. -/
def deliverTo (r : RdxReq) (bs : List Byte) (status : Nat) : Target → List NetItem
  | .core c => [.delivery r c bs status true]
  | _ => []

/-- The core that a kind-3 recipient is delivered to: the CNI chooses; a core that cannot take it refuses. -/
def State.resolve (s : State) (t : Target) : Option Target × State :=
  match t with
  | .anyOf k => match s.pickIdle k with | (some c, s) => (some (.core c), s) | (none, s) => (none, s)
  | t => (some t, s)

/-- The bounce of a refused delivery: the arguments are the request quad (R155 case 4). -/
def rdxBounceMsg (r : RdxReq) (code : Nat) (place : W64) : Msg where
  kind := .bounce
  target := r.requester
  source := place
  spart := r.rpart
  msgid := r.msgid
  handler := rdxBounce r.quad.d
  bclass := 0
  defer := 0
  prio := r.prio
  refuse := code
  args := r.quad
  payload := leBytes 8 r.quad.c.toNat ++ leBytes 8 (2 ^ 48 * rdxClass r.quad.d + 2 ^ 26 * rdxBounce r.quad.d
    + 2 ^ 24 * (r.prio % 4) + 2 ^ 20 * 6 + 2 ^ 16 * code + r.rpart % 64)
  code := []
  launch := r.launch
  comp := none
  held := false
  retried := false
  tcause := 0
  taddr := 0
  tie := .none

/-- A refused delivery bounces to the requester. -/
def State.refuseRdx (s : State) (r : RdxReq) (code : Nat) (place : W64) : State :=
  if r.rdev = s.fabric.devId then
    { s with net := s.net ++ [.bounce (coreOfPlace (s.part r.rpart) r.requester) (rdxBounceMsg r code place)] }
  else s.sendService r.rdev 1 r.dom 0 0 (.rdxRefused r code place)

/-- The launch of a request, as this device names it. -/
def State.rdxLaunch (s : State) (r : RdxReq) : Option LaunchId :=
  if r.rdev = s.fabric.devId then r.launch else s.launchHere r.rdev (s.part r.cpart).ctx r.launch

/-- The end of what a request starts on this device is told to its requester's device. -/
def rdxTell (r : RdxReq) : Tell where
  dev := r.rdev
  dom := r.dom
  launch := r.launch.getD { ctx := 0, lid := 0 }
  part := r.rpart
  source := r.requester
  msgid := r.msgid
  bounces := 0

/-- A message of another device's launch has reached a context here. The first of a launch says whom its end is told to: the
answer says whether this one is the first. -/
def State.engage (s : State) (l : LaunchId) (ctx dom : Nat) (t : Tell) (rcd : Option (BitVec 1024)) : State × Bool :=
  match s.guest? l with
  | some _ => (s.modGuest l fun g => { g with ctxs := if g.ctxs.contains ctx then g.ctxs else g.ctxs ++ [ctx] }, false)
  | none =>
    ({ s with fabric := { s.fabric with guests := s.fabric.guests ++ [{ launch := l, dom := dom, ctxs := [ctx], tell := some t, rcd := rcd }] } }, true)

/-- A request has ended at every recipient: its requester has the notice that it asked for, or is told that it has ended. -/
def State.rdxEnds (s : State) (r : RdxReq) (good : Bool) : State :=
  let notify := good && rdxNotify r.quad.d
  if r.rdev = s.fabric.devId then
    if notify then { s with net := s.net ++ [.notice r (s.rdxSource r)] } else s
  else s.sendService r.rdev 1 r.dom 0 0 (.rdxDone r notify (s.fabric.guests.any fun g => g.tell == some (rdxTell r)))

/-- Step 3 of a context switch has begun: dispatch has stopped and every task has ended (22_interruption.md R325). -/
def State.saving (s : State) (p : Nat) : Bool :=
  match (s.part p).switch with
  | .stopping _ => (s.part p).cores.all fun c => taskSlots.all fun n => !(s.slot c n).running
  | _ => false

/-- The partition exists and belongs to the tenant fabric domain; frames for one that is being saved are refused. -/
def State.partIn (s : State) (part dom : Nat) : Bool :=
  (s.part part).en && (s.part part).resident && !s.saving part && decide ((s.ctx (s.part part).ctx).domain = dom)

/-- Bytes of RDX data that one frame carries; R292 lets a front-end port take 9,108 with the descriptor. DESIGN CHOICE (log entry 20). -/
def rdxFrameBytes : Nat := 8192

/-- The data of a request leaves for its recipient's device, in TC 1 (20 R296): in as many frames as it takes, at most `fuel` of them
ahead of the last. -/
def State.rdxAhead (dev dom : Nat) (r : RdxReq) : Nat → State → List Byte → State × List Byte
  | 0, s, bs => (s, bs)
  | fuel + 1, s, bs =>
    if bs.length ≤ rdxFrameBytes then (s, bs)
    else State.rdxAhead dev dom r fuel (s.sendService dev 1 dom 0 0 (.rdxPiece r (bs.take rdxFrameBytes))) (bs.drop rdxFrameBytes)
def State.sendRdxData (s : State) (dev dom : Nat) (r : RdxReq) (bs : List Byte) (status : Nat) : State :=
  match State.rdxAhead dev dom r (bs.length / rdxFrameBytes) s bs with
  | (s, bs) => s.sendService dev 1 dom 0 0 (.rdxData r bs status)

/-- Data, or the failure, goes from the owner to the recipients; a kind-3 place with no core that can take it refuses with
code 4. -/
def State.deliverAll (s : State) (r : RdxReq) (bs : List Byte) (status : Nat) (tg : List Target) : State :=
  if tg.isEmpty then (s.refuseRdx r (if s.partIn r.cpart r.dom then 4 else 3) r.quad.c).rdxEnds r false
  else
    tg.foldl (fun s t =>
      match s.resolve t with
      | (none, s) => (s.refuseRdx r 4 r.quad.c).rdxEnds r false
      | (some (.device dev _ dom), s) =>
        let r := { r with rcd := if r.rdev = s.fabric.devId then s.rcdAny? r.launch else r.rcd }
        let s := if r.rdev = s.fabric.devId then s.goAbroad r.launch { core := s.rdxSource r, msgid := r.msgid, dev := dev } else s
        s.sendRdxData dev dom r bs status
      | (some t, s) => { s with net := s.net ++ deliverTo r bs status t }) s

/-- The bytes of a source on this device, page by page as stage 2 has them now: the bytes, or the status and the first failing
address; or a page whose lines are moving; or one that waits for a stage-2 fill. -/
inductive RdxRead where
  | bytes (bs : List Byte)
  | bad (status cause : Nat) (addr : W64)
  | parked (loc : Loc) (off : Nat)
  /-- It is tried again: no slot of the memory plane, or an entry there is performed for the requester's cluster alone. -/
  | later
deriving DecidableEq, Repr

/-- The pages of a source of partition memory, at most `fuel` of them, read for a cluster of this device. -/
def rdxPages (p : Nat) (src : Option Nat) : Nat → State → Nat → Nat → List Byte → State × RdxRead
  | 0, s, _, _, acc => (s, .bytes acc)
  | fuel + 1, s, gva, n, acc =>
    if n = 0 then (s, .bytes acc)
    else
      let m := Nat.min n (65536 - gva % 65536)
      match s.xlateMem none p gva .fetch with
      | (s, .at_ (.hbm _ phys _ gpa)) =>
        if (match src with | some k => s.nearOpen k none (.hbm p phys gva gpa) m | none => false) then (s, .later)
        else if s.busy p phys gpa m false then (s, .parked (.hbm p phys gva gpa) (s.heldOff p phys gpa m))
        else
        match s.foreignIn p phys m with
        | some k => (s, .bad 3 Cause.ecc (w64 (gva + k)))
        | none =>
          let (s, bs) := s.homeRead src p phys gpa m
          rdxPages p src fuel s (gva + m) (n - m) (acc ++ bs)
      | (s, .wait gpa) => (s.noteFill p gpa, .parked (.unmapped p gva gpa) 0)
      | (s, .later gpa) => (s, .parked (.unmapped p gva gpa) 0)
      | (s, .shut) => (s, .later)
      | (s, .bad cause) => (s, .bad (if cause = Cause.permission then 2 else if cause = Cause.ecc then 3 else 1) cause (w64 gva))
      | (s, _) => (s, .bad 1 Cause.translate (w64 gva))

/-- The read of a request at its owner on this device: at the home, never from an L1. -/
def State.rdxRead (s : State) (r : RdxReq) (owner : Loc) : State × RdxRead :=
  let n := r.quad.b.toNat
  match owner with
  | .hbm p _ gva _ =>
    rdxPages p (if r.rdev = s.fabric.devId then some (clusterOf (s.rdxSource r)) else none) 3 s gva n []
  | .spad c off => (s, .bytes ((s.core c).spadBytes off n))
  | .imem c off => (s, .bytes ((upto n).map fun i => Tbl.find 0 (s.core c).imem (off + i)))
  | .inbox c off => (s, .bytes ((upto n).map fun i => (s.core c).inByte (off + i)))
  | _ => (s, .bad 1 Cause.translate r.quad.a)

/-- The fault record of a request at its owner (22 R316). -/
def rdxFaultRec (r : RdxReq) (cause : Nat) (addr : W64) (owner : Nat) : TRec :=
  reportRec cause 0 r.msgid (w64 (field r.requester 19 0)) addr (w64 owner)

/-- A fault of a request at its owner: the recipients are told, and the requester's supervisor has a record, with the failing
address as the requester named it (R133 case 7). -/
def State.rdxFails (s : State) (r : RdxReq) (tg : List Target) (status cause : Nat) (at_ : W64) : State :=
  let addr := w64 (field r.quad.a 63 48 * 2 ^ 48 + field at_ 47 0)
  let s := s.deliverAll r [] status tg
  if r.rdev = s.fabric.devId then
    s.postRec r.rpart { rdxFaultRec r cause addr s.fabric.devId with core := coreOfPlace (s.part r.rpart) r.requester }
  else s.sendService r.rdev 1 r.dom 0 0 (.rdxFault r cause addr s.fabric.devId)

/-- The item is an RDX request of the same core: one that its home has refused is not passed (22 R323). -/
def sameRdxSource (r : RdxReq) : NetItem → Bool
  | .rdx q _ _ => q.rdev == r.rdev && q.rpart == r.rpart && q.requester == r.requester
  | _ => false

/-- RDX_READ_AT_OWNER: the `k`-th item, a request that has reached its owner on this device. -/
def State.rdxOwner (s : State) (k : Nat) : State :=
  match s.net[k]? with
  | some (.rdx r owner tg) =>
    if s.planeShut owner || (s.net.take k).any (sameRdxSource r) then s
    else
    let gone (s : State) : State := (s.takeNet k).rdxRefuses (.rdx r owner tg) none
    match s.rdxRead r owner with
    | (s', .parked loc off) => ({ s with parts := s'.parts, alerts := s'.alerts } : State).parkItem k loc off
    | (_, .later) => s
    | (s, .bytes bs) => (gone s).deliverAll r bs 0 tg
    | (s, .bad status cause addr) => (gone s).rdxFails r tg status cause addr
  | _ => s

/-- The requester's place as a core of this device names it: with the device field, where the requester is at another. -/
def State.rdxPlace (s : State) (r : RdxReq) : W64 :=
  if r.rdev = s.fabric.devId then r.requester else r.requester ||| w64 (r.rdev % 2 ^ 18 * 2 ^ 20)

/-- The record of a delivery (R151): kinds 3, 4 and 5; `place` names the requester. -/
def rdxRecord (kind : Nat) (r : RdxReq) (place : W64) (status : Nat) : CRec where
  w0 := w64 (kind * 2 ^ 56 + status * 2 ^ 48 + rdxTag r.quad.d * 2 ^ 32 + r.msgid.toNat)
  w1 := r.quad.a
  w2 := r.quad.b
  w3 := place

/-- A record enters a core's completion inbox, when there is room (06_issuing.md R104). -/
def State.postCompletion (s : State) (c : Nat) (x : CRec) : Option State :=
  if 64 ≤ (s.core c).records then none else some (s.modCore c fun k => { k with cinbox := k.cinbox ++ [x] })

/-- The task that a delivery starts (R155 case 6). Its arguments are the same with and without payload. -/
def rdxTask (r : RdxReq) (dst place : W64) (bs : List Byte) (l : Option LaunchId) : Msg where
  kind := .rdxData
  target := dst
  source := place
  spart := r.rpart
  msgid := r.msgid
  handler := rdxClass r.quad.d
  bclass := rdxBounce r.quad.d
  defer := 0
  prio := r.prio
  refuse := 0
  args := ⟨r.quad.a, r.quad.b, w64 (rdxTag r.quad.d), place⟩
  payload := bs
  code := []
  launch := l
  comp := none
  held := false
  retried := false
  tcause := 0
  taddr := 0
  tie := .none

/-- The recipient's partition accepts deliveries of the requester (R155 case 3). -/
def State.acceptsFrom (s : State) (p : Nat) (r : RdxReq) : Bool :=
  (decide (r.rdev = s.fabric.devId) && decide (r.rpart = p)) ||
    (s.part p).peers.any fun e =>
      decide (e.1 < (s.part p).peerLen) && s.peerGood p e.2 && !bitAt e.2 8 && bitAt e.2 7
        && decide (field e.2 45 28 = r.rdev) && decide (field e.2 51 46 = r.rpart)

/-- What a delivery comes to at its recipient: taken, refused with a code, or still waiting for room. -/
inductive Delivered where
  | taken (s : State)
  | refused (code : Nat)
  | wait
deriving DecidableEq, Repr

/-- A delivery at a core: a kind-5 record for a failure; the data otherwise, as MODE says. A MODE-2 task waits for room, for
its data is in place already. -/
def State.deliver (s : State) (r : RdxReq) (c : Nat) (bs : List Byte) (status : Nat) : Delivered :=
  match s.corePart? c with
  | none => .refused 3
  | some p =>
    if !s.acceptsFrom p r then .refused 3
    else if status ≠ 0 then
      match s.postCompletion c (rdxRecord 5 r (s.rdxPlace r) status) with
      | some s => .taken s
      | none => .wait
    else
      let off := rdxDoff r.quad.d
      match rdxMode r.quad.d with
      | 0 =>
        match s.acceptTask c (rdxTask r (s.placeWord c) (s.rdxPlace r) bs (s.rdxLaunch r)) with
        | .ok s => .taken s
        | .error e => .refused e
      | 1 =>
        if s.spadSize c < off + bs.length then .refused 5
        else
          match s.postCompletion c (rdxRecord 3 r (s.rdxPlace r) 0) with
          | some s => .taken (s.modCore c fun k => k.spadWrite off bs)
          | none => .wait
      | _ =>
        if s.spadSize c < off + bs.length then .refused 5
        else
          match s.acceptTask c (rdxTask r (s.placeWord c) (s.rdxPlace r) [] (s.rdxLaunch r)) with
          | .ok s => .taken (s.modCore c fun k => k.spadWrite off bs)
          | .error 4 => .refused 4
          | .error _ => .wait

/-- Deliveries of one request. -/
def sameRdx (r : RdxReq) : NetItem → Bool
  | .delivery q _ _ _ _ => q == r
  | _ => false

/-- What follows the last delivery of a request here: the notice only when each was taken. -/
def State.afterDelivery (s : State) (r : RdxReq) (good : Bool) : State := if s.net.any (sameRdx r) then s else s.rdxEnds r good

/-- A recipient refuses: the request's notice does not follow, and the refusal bounces. -/
def State.refuseDelivery (s : State) (r : RdxReq) (c code : Nat) : State :=
  let s : State := { s with net := s.net.map fun x => match x with
    | .delivery q d b st _ => if q = r then .delivery q d b st false else x
    | _ => x }
  s.refuseRdx r code (if r.rdev = s.fabric.devId then s.placeWord c else s.placeWord c ||| w64 (s.fabric.devId % 2 ^ 18 * 2 ^ 20))

/-- A delivery that starts a task brings its requester's launch here. -/
def State.engageRdx (s : State) (r : RdxReq) (status : Nat) : State :=
  match s.rdxLaunch r with
  | some l =>
    if l.dev.isSome ∧ r.rdev ≠ s.fabric.devId ∧ status = 0 ∧ rdxMode r.quad.d ≠ 1 then
      (s.engage l (s.part r.cpart).ctx r.dom (rdxTell r) r.rcd).1
    else s
  | none => s

/-- RDX_DELIVERY: the `k`-th item, a delivery at its recipient, or a notice at the requester. -/
def State.rdxArrive (s : State) (k : Nat) : State :=
  match s.net[k]? with
  | some (.delivery r c bs status clean) =>
    match s.deliver r c bs status with
    | .taken t => ((t.takeNet k).engageRdx r status).afterDelivery r (clean && decide (status = 0))
    | .refused code => ((s.takeNet k).refuseDelivery r c code).afterDelivery r false
    | .wait => s
  | some (.notice r c) =>
    match s.postCompletion c (rdxRecord 4 r r.requester 0) with
    | some t => t.takeNet k
    | none => s
  | _ => s

/-! ## Meanings -/

/-- SEND (R147). -/
def execSend (d a b : Reg) (s : State) : Host.Outcome State Fault Refusal := issue (.send d a b) (bodySend d a b) s

/-- SENDK (R147). -/
def execSendk (d a : Reg) (cls bnc : BitVec 6) (s : State) : Host.Outcome State Fault Refusal :=
  issue (.sendk d a cls bnc) (bodySendk d a cls bnc) s

/-- SENDX (R147). -/
def execSendx (d a b : Reg) (s : State) : Host.Outcome State Fault Refusal := issue (.sendx d a b) (bodySendx d a b) s

/-- SPWN (R150). -/
def execSpwn (d a b : Reg) (la : BitVec 4) (s : State) : Host.Outcome State Fault Refusal :=
  issue (.spwn d a b la) (bodySpwn d a b la) s

/-- RDX (R154). -/
def execRdx (a : Reg) (s : State) : Host.Outcome State Fault Refusal := issue (.rdx a) (bodyRdx a) s

/-- DEQ (R152). -/
def execDeq (d : Reg) (la : BitVec 4) (s : State) : Host.Outcome State Fault Refusal := issue (.deq d la) (bodyDeq d la) s

/-- MESSAGE_HANDOVER (R147, R148). -/
def execMessageHandover (core k : Nat) (s : State) : Host.Outcome State Fault Refusal := event (fun s => s.handover core k) s

/-- DEFER_EXPIRY (R148). -/
def execDeferExpiry (core k : Nat) (s : State) : Host.Outcome State Fault Refusal := event (fun s => s.deferOver core k) s

/-- TASK_MESSAGE_ARRIVAL (R97, R110, R145). -/
def execTaskMessageArrival (k : Nat) (s : State) : Host.Outcome State Fault Refusal := event (fun s => s.arriveTask k) s

/-- BOUNCE_ARRIVAL (R149). -/
def execBounceArrival (k : Nat) (s : State) : Host.Outcome State Fault Refusal := event (fun s => s.arriveBounce k) s

/-- BOUNCE_RETRY (R149). -/
def execBounceRetry (core : Nat) (s : State) : Host.Outcome State Fault Refusal := event (fun s => s.retryBounce core) s

/-- SPAWN_AT_TARGET (R150). -/
def execSpawnAtTarget (k : Nat) (s : State) : Host.Outcome State Fault Refusal := event (fun s => s.spawnArrive k) s

/-- RDX_REQUEST_SEND (R154). -/
def execRdxRequestSend (core k : Nat) (s : State) : Host.Outcome State Fault Refusal := event (fun s => s.sendRdx core k) s

/-- RDX_READ_AT_OWNER (R155). -/
def execRdxReadAtOwner (k : Nat) (s : State) : Host.Outcome State Fault Refusal := event (fun s => s.rdxOwner k) s

/-- RDX_DELIVERY (R155). -/
def execRdxDelivery (k : Nat) (s : State) : Host.Outcome State Fault Refusal := event (fun s => s.rdxArrive k) s

/-- TASK_DISPATCH (R98, R101). -/
def execTaskDispatch (core : Nat) (s : State) : Host.Outcome State Fault Refusal := event (fun s => s.dispatchTask core) s

end Machine
end Sys2Proof
end

