-- ==== Sys2Proof/Machine/Engine.lean ====
section
/-! DEFINITION. What the matrix unit and the copy engine of a core share: how they reach partition memory, and how they report
(11_matrix_unit.md R202, R209, R210; 12_copy_engine.md R221, R222; 06_issuing.md R104). -/

namespace Sys2Proof
namespace Machine

/-! ## Reaching memory -/

/-- A request of an engine that its home parks: the place; whether it waits for a stage-2 fill; the lines that its command has fetched, and
those of them that it has not consumed, with their pins (11 R209). -/
structure EngWait where
  loc : Loc
  fill : Bool := false
  got : Tbl (List Byte) := []
  held : List Pin := []
deriving DecidableEq, Repr

/-- Why an engine's access does not take place: a fault with its cause and address, or a request that its home parks. -/
inductive EngErr where
  | bad (cause : Nat) (addr : W64)
  | parked (w : EngWait)
  /-- It is tried again: the memory plane takes no request of the partition in this cycle (24_protection.md R344), or the line has an entry
  that is performed for its cluster alone, or eight ways of its set are pinned. -/
  | shut
deriving DecidableEq, Repr

/-- Translation of an address of partition memory for an engine of a core. A fill that the hypervisor failed is a translation
fault (13_memory_hierarchy.md R238 case 3). -/
def engXlate (c p : Nat) (failed : Bool) (acc : Access) (s : State) (ea : W64) : Except EngErr (State × Nat × Nat) :=
  if field ea 63 48 ≠ 0 then .error (.bad Cause.permission ea)
  else
    match s.xlateMem (some c) p (field ea 47 0) acc with
    | (s, .at_ (.hbm _ phys _ gpa)) => .ok (s, phys, gpa)
    | (_, .bad cause) => .error (.bad cause ea)
    | (_, .wait gpa) =>
      if failed then .error (.bad Cause.translate ea) else .error (.parked { loc := .unmapped p (field ea 47 0) gpa, fill := true })
    | (_, .later gpa) => .error (.parked { loc := .unmapped p (field ea 47 0) gpa })
    | (_, .shut) => .error .shut
    | (_, _) => .error (.bad Cause.translate ea)

/-- The pin of a request on the translation of a place: the page of partition memory with the stage-1 entries that led to it, as the core's
cache holds them. -/
def State.pinOf (s : State) (c uid p gva gpa : Nat) : Pin :=
  match tlbFind (s.core c).tlb p gva with
  | some t => { part := p, gva := gva, gpa := gpa, s2size := t.s2size, via := t.via, uid := uid }
  | none => { part := p, gva := gva, gpa := gpa, uid := uid }

/-- Lines that a command has fetched, by line of its addresses, with the state; and the pins of those that it has not consumed (11 R209). -/
structure Lines where
  s : State
  got : Tbl (List Byte)
  held : List Pin := []
deriving DecidableEq, Repr

/-- The set of a line's slice: the slice, and the set in it. -/
def State.setOf (s : State) (p ln : Nat) : Nat × Nat := (s.homeOf p ln, Config.l2Set ln)

/-- Lines of the set that commands pin while they wait at the memory side. -/
def State.setPins (s : State) (p ln uid : Nat) : Nat :=
  ((s.cores.flatMap fun e => e.2.pins.filterMap fun q =>
    match q.line with
    | some m => if q.uid != uid && decide (s.setOf q.part m = s.setOf p ln) then some m else none
    | none => none).dedup).length

/-- A line fetched by a command is pinned; of nine in one set the command has consumed the first (11 R209 items 1 and 4). -/
def Lines.hold (f : Lines) (q : Pin) : Lines :=
  let same (x : Pin) : Bool := match x.line, q.line with
    | some a, some b => decide (f.s.setOf x.part a = f.s.setOf q.part b)
    | _, _ => false
  let mine := f.held.filter same
  { f with held := (if mine.length < 8 then f.held else removeFirst same f.held) ++ [q] }

/-- A command waits at the memory side with what it has fetched. -/
def Lines.waits (f : Lines) (w : EngWait) : EngErr := .parked { w with got := f.got, held := f.held }

/-- The line of an address, fetched at its home once for a command (11 R209). -/
def fetchLine (c p uid : Nat) (failed : Bool) (f : Lines) (ea : W64) : Except EngErr (Lines × List Byte) :=
  let ln := ea.toNat / 128
  match Tbl.get? f.got ln with
  | some bs =>
    match (f.s.core c).pins.find? fun q => q.uid == uid && q.gva == 128 * ln && !f.held.contains q with
    | some q => .ok (f.hold q, bs)
    | none => .ok (f, bs)
  | none =>
    match engXlate c p failed .fetch f.s (w64 (128 * ln)) with
    | .error (.bad cause _) => .error (.bad cause ea)
    | .error (.parked w) => .error (f.waits w)
    | .error .shut => .error .shut
    | .ok (s, phys, gpa) =>
      let loc : Loc := .hbm p phys (128 * ln) gpa
      if !s.planeOpen p || s.nearOpen (clusterOf c) none loc 128 || decide (8 ≤ s.setPins p (phys / 128) uid) then .error .shut
      else if s.busy p phys gpa 128 false then .error (f.waits { loc := loc })
      else
        let (s, bs) := s.homeRead (some (clusterOf c)) p phys gpa 128
        let f : Lines := { f with s := s, got := Tbl.set f.got ln bs }
        .ok (f.hold { s.pinOf c uid p (128 * ln) gpa with line := some (phys / 128) }, bs)

/-- A byte of partition memory. -/
def fetchByte (c p uid : Nat) (failed : Bool) (f : Lines) (ea : W64) : Except EngErr (Lines × Nat) :=
  match fetchLine c p uid failed f ea with
  | .ok (f, bs) => .ok (f, (bs.getD (ea.toNat % 128) 0).toNat)
  | .error e => .error e

/-- A little-endian number of `n` bytes. -/
def fetchNum (c p uid : Nat) (failed : Bool) : Nat → Lines → W64 → Except EngErr (Lines × Nat)
  | 0, f, _ => .ok (f, 0)
  | n + 1, f, ea => do
    let (f, b) ← fetchByte c p uid failed f ea
    let (f, r) ← fetchNum c p uid failed n f (ea + 1)
    .ok (f, b + 256 * r)

/-- A place that an engine of a core writes: the core's own scratchpad, or partition memory. -/
inductive EngSpot where
  | spad (off : Nat)
  | mem (ea : W64)
deriving DecidableEq, Repr

/-- Writes to partition memory, grouped by line and performed at their homes: all are translated first, and each line takes
its bytes in order. -/
def writeLines (c p : Nat) (failed : Bool) (s : State) (l : List (W64 × NibByte)) : Except EngErr State :=
  ((l.map fun e => e.1.toNat / 128).dedup).foldl (fun r ln =>
    match r with
    | .error e => .error e
    | .ok s =>
      let mine := l.filter fun e => e.1.toNat / 128 == ln
      let first := (mine.head?.map (·.1)).getD 0
      match engXlate c p failed .write s (w64 (128 * ln)) with
      | .error (.bad cause _) => .error (.bad cause first)
      | .error e => .error e
      | .ok (s, phys, gpa) =>
        let loc : Loc := .hbm p phys (128 * ln) gpa
        if !s.planeOpen p || s.nearOpen (clusterOf c) none loc 128 then .error .shut
        else if s.busy p phys gpa 128 true then .error (.parked { loc := loc })
        else .ok (s.homeWrite (some (clusterOf c)) p phys gpa (mine.map fun e => { e.2 with pos := e.1.toNat % 128 }))) (.ok s)

/-- A request of an engine over `n` bytes is taken by the park queue of its line's home, or refused there; behind a request of its core that
the home has refused it waits (22 R323). `mark` is what its command then says: parked, or refused by a home. -/
def State.parkEngine (s : State) (c : Nat) (who : Asker) (uid n : Nat) (w : EngWait) (mark : State → Bool → Option Nat → State) : State :=
  let s := match w.loc with | .unmapped p _ gpa => if w.fill then s.noteFill p gpa else s | _ => s
  let r : Parked := { who := who, src := c, req := uid, loc := w.loc,
                      off := match w.loc with | .hbm p phys _ gpa => s.heldOff p phys gpa n | _ => 0 }
  let h := s.homeFor r
  let s' := mark s false none
  if s'.refusedAt c h then s
  else if s'.parkRoom h then mark (s'.parkAt r) true none
  else mark s' false (some h)

/-- A copy on write that a write of an engine waits for begins (24_protection.md R340). -/
def State.cowFor (s : State) (c p : Nat) (l : List W64) : State :=
  l.foldl (fun s ea =>
    match engXlate c p false .write s ea with
    | .ok (_, _, gpa) => s.startCow p gpa
    | .error _ => s) s

/-! ## Reports -/

/-- A report takes place: a record in the completion inbox, or a handler task on the engine's core; none while it has to be
held. The handler of a launch that another has displaced on the core is a record instead (03_launching.md R57 case 4). -/
def State.giveReport (s : State) (c : Nat) (r : Report) : Option State :=
  let m := classMsg (s.placeWord c) ((s.corePart? c).getD 0) r.cls r.prio ⟨r.crec.w0, r.crec.w1, r.crec.w2, r.crec.w3⟩ []
    r.launch none
  if r.handler && !s.staleAt c m then
    s.acceptOwn c { m with tie := r.crec.tie }
  else s.postCompletion c r.crec

/-- The first word of a completion record (08_isa_memory_messages.md R151). -/
def recWord0 (kind status tag id : Nat) : W64 :=
  w64 (kind * 2 ^ 56 + status % 256 * 2 ^ 48 + tag % 65536 * 2 ^ 32 + id % 2 ^ 32)

/-- The working phase of a slot in a course; of a slot that is no member, the course's own phase (11 R203, 12 R222). -/
def State.courseParity (s : State) (c n idx : Nat) : Nat :=
  let k := (s.cluster (clusterOf c)).course idx
  let b := memberBit c n
  if k.mem.getLsbD b then k.working b else k.f.q

end Machine
end Sys2Proof
end

