-- ==== Sys2Proof/Machine/Fetch.lean ====
section
/-! DEFINITION. Fetching an instruction: the spaces of code, halfwords that a slot fetched ahead, and the refusal of a fetch
(05_encoding.md R76, R77, R89; 07_isa_scalar_control_system.md R127; 22_interruption.md R318). -/

namespace Sys2Proof
namespace Machine

/-- A byte of the code space that the slot's program counter is in; none outside the space (R77 case 2, R89). -/
def State.codeByte? (s : State) (c n : Nat) (carried : Bool) (a : Nat) : Option Byte :=
  let t := s.slot c n
  if carried then
    (((t.msg.map (·.code)).getD [])[a / 2]?).map fun h => BitVec.ofNat 8 (h.toNat / 256 ^ (a % 2))
  else if t.record.isSome then
    match s.corePart? c with
    | some p => if 320 ≤ a ∧ a < 32768 then some (Tbl.find 0 (s.part p).supImem a) else none
    | none => none
  else if 320 ≤ a ∧ a < 65536 then some (Tbl.find 0 (s.core c).imem a)
  else none

/-- The byte that the slot fetched ahead, if it is still held (R127). -/
def Core.staleByte? (k : Core) (n a : Nat) : Option Byte :=
  (k.stale.find? fun e => e.1 == n && e.2.1 == a).map (·.2.2)

/-- A halfword's bytes as the slot fetches them: old or new, as a free value chooses, where the slot still holds old ones. -/
def State.fetchHalf (s : State) (c n : Nat) (pc : Pc) (off : Nat) : State × List Byte :=
  match s.codeByte? c n pc.carried (2 * off), s.codeByte? c n pc.carried (2 * off + 1) with
  | some b0, some b1 =>
    let k := s.core c
    let own := !pc.carried && (s.slot c n).record.isNone
    if own && ((k.staleByte? n (2 * off)).isSome || (k.staleByte? n (2 * off + 1)).isSome) then
      let (f, s) := s.nextFree
      if Config.stalePick f then (s, [b0, b1])
      else (s, [(k.staleByte? n (2 * off)).getD b0, (k.staleByte? n (2 * off + 1)).getD b1])
    else (s, [b0, b1])
  | _, _ => (s, [])

/-- A halfword of the slot's IMEM, or of the supervisor IMEM for a supervisor task, has an uncorrectable error (24_protection.md R338). -/
def State.badHalf (s : State) (c n : Nat) (pc : Pc) (off : Nat) : Bool :=
  !pc.carried &&
    if (s.slot c n).record.isSome then ((s.corePart? c).map fun p => (s.part p).badSup.contains off).getD false
    else (s.core c).badImem.contains off

/-- The fetch at the program counter meets an uncorrectable error. -/
def State.fetchBad (s : State) (c n : Nat) : Bool :=
  let pc := (s.slot c n).pc
  s.badHalf c n pc pc.off
    || (match s.codeByte? c n pc.carried (2 * pc.off) with
        | some b => decide (b.toNat % 2 = 1) && s.badHalf c n pc (pc.off + 1)
        | none => false)

/-- Bits of an instruction that an upset changed on the way from IMEM (R338). -/
def upsetBytes (l : List Nat) (bs : List Byte) : List Byte :=
  l.foldl (fun bs b => modifyAt (fun x => x ^^^ (1#8 <<< (b % 8))) (b / 8) bs) bs

/-- The bytes at the program counter: two halfwords, as far as the space goes. -/
def State.fetchBytes (s : State) (c n : Nat) : State × List Byte :=
  let pc := (s.slot c n).pc
  match s.fetchHalf c n pc pc.off with
  | (s, []) => (s, [])
  | (s, bs) =>
    if (bs.headD 0).toNat % 2 = 0 then (s, bs)
    else
      match s.fetchHalf c n pc (pc.off + 1) with
      | (s, cs) => (s, bs ++ cs)

/-- The instruction at the program counter; or the TADDR of the trap ILLEGAL: the bits that are no instruction, or the
routine address where nothing could be fetched (R357). -/
def State.fetch (s : State) (c n : Nat) : State × Except W64 Instr :=
  match s.fetchBytes c n with
  | (s, bs) =>
    if s.fetchBad c n then (s, .error (w64 (pcWord (s.slot c n).pc)))
    else
    match decode (upsetBytes (s.slot c n).upset bs) with
    | .ok (j, _) => (s, .ok j)
    | .error (.tooShort, _) => (s, .error (w64 (pcWord (s.slot c n).pc)))
    | .error (_, bits) => (s, .error (w64 bits))

/-- The slot's wait is over when it waits for what `w` selects; its instruction issues again. -/
def State.wake (s : State) (c n : Nat) (w : Wait → Bool) : State :=
  if w (s.slot c n).wait then s.modSlot c n fun t => { t with wait := .none } else s

/-- The slot's instruction was found to wait; FOLW, TLBI, SNAP and SYNLD have issued when their slot waits (R90, R129, R130, R132). -/
def Slot.held (t : Slot) : Bool :=
  t.running && match t.wait with
    | .none => false
    | .follow _ => false
    | .tlbi _ => false
    | .snap _ => false
    | .synld _ => false
    | _ => true

/-- A slot's instruction has issued, or it was found to wait; the core's turn goes on accordingly (06 R99). -/
def State.afterIssue (s : State) (c n : Nat) : State :=
  s.modCore c fun k => if (k.slot n).held then k.notReady n else k.issued n

/-- A waiting instruction of a slot takes its effect: the slot's instruction, if `body` knows it, runs as one step, and what follows an
issue is done where it issues now. One that waits on keeps its wait. -/
def State.runWaiting (s : State) (c n : Nat) (w : Wait → Bool) (body : Instr → Option (State → Effect)) (after : State → State) : State :=
  let t := s.slot c n
  if t.running && w t.wait then
    match s.fetch c n with
    | (s1, .ok j) =>
      match body j with
      | some f =>
        let s2 := State.issueRun j f { s1.modSlot c n (fun t => { t with wait := .none }) with curCore := c, curSlot := n }
        if (s2.slot c n).running && w (s2.slot c n).wait then s.modSlot c n fun t => { t with wait := (s2.slot c n).wait }
        else { after s2 with curCore := s.curCore, curSlot := s.curSlot }
      | none => s.wake c n w
    | _ => s.wake c n w
  else s

/-- A waiting instruction of a slot takes its effect at the slot's turn (06 R99). -/
def State.reissue (s : State) (c n : Nat) (w : Wait → Bool) (body : Instr → Option (State → Effect)) : State :=
  if !s.islandStopped c && (s.core c).turnOf n then s.runWaiting c n w body fun t => t.afterIssue c n else s

/-- An instruction that has issued and waits completes: that is no issue (TLBI, SNAP, SYNLD). -/
def State.finish (s : State) (c n : Nat) (w : Wait → Bool) (body : Instr → Option (State → Effect)) : State :=
  s.runWaiting c n w body id

end Machine
end Sys2Proof
end

