-- ==== Sys2Proof/Machine/System.lean ====
section
/-! DEFINITION. Control registers, TRAP, BKPT, FNCI and TLBI (07_isa_scalar_control_system.md R125 to R129; 06_issuing.md
R105, R106; 11_matrix_unit.md R206 case 2). -/

namespace Sys2Proof
namespace Machine

/-- RDC: ILLEGAL for a number that is not listed. -/
def bodyRdc (d : Reg) (num : BitVec 12) (s : State) : Effect :=
  match s.readCR num.toNat with
  | none => trapBits Cause.illegal
  | some x => setG s d x

/-- A released MMAS of the core has not completed (R206 case 2). -/
def Core.mmasPending (k : Core) : Bool :=
  k.mxq.any fun e => e.released && !e.finished && !e.zeroing && decide (field e.cmd 3 0 = 1)

/-- WRC: ILLEGAL for a read-only or unlisted register and for a reserved value; a write of SKIP waits until no released MMAS
of the core is pending. -/
def bodyWrc (a : Reg) (num : BitVec 12) (s : State) : Effect := do
  let (s, x) ← readG s a
  match s.writeCR num.toNat x with
  | none => trapBits Cause.illegal
  | some s' =>
    if num = 0x008 ∧ (s.core s.curCore).mmasPending = true then .error (.hold .skip) else .ok (s', .seq)

/-- The waiting write of SKIP (R206 case 2). -/
def State.skipWrite (s : State) (c n : Nat) : State :=
  if (s.core c).mmasPending then s
  else s.reissue c n (fun w => w == .skip) fun j => match j with | .wrc a num => some (bodyWrc a num) | _ => none

/-- FNCI: the slot holds no halfword fetched ahead any more (R127). -/
def bodyFnci (s : State) : Effect :=
  .ok (s.modCore s.curCore fun k => { k with stale := k.stale.filter fun e => e.1 != s.curSlot }, .seq)

/-- The check of a privileged instruction (R128). -/
def privileged (s : State) : Except Stop Unit :=
  require (s.privileged s.curCore s.curSlot) (trapBits Cause.permission)

/-- The root of stage 1 is taken from the translation control block (13_memory_hierarchy.md R237). DESIGN CHOICE (log entry 10): where
stage 2 does not map the block, or its line does not verify (24_protection.md R342), the root is 0, so that every place-0 access traps
TRANSLATE; R237 states no outcome. -/
def State.sampleRoot (s : State) (ctx : Nat) : State :=
  match s.residentIn? ctx with
  | none => s
  | some p =>
    let set (s : State) (w : W64) : State := s.modCtx ctx fun x => { x with root1 := w }
    match s.stage2 p (s.ctx ctx).tcb with
    | (s, some (pa, _, _)) =>
      if s.foreign p pa then set s 0
      else
        let (s, w) := s.homeWord pa
        set s w
    | (s, none) => set s 0

/-- Every cached translation of a partition that `drop` selects leaves the caches of its cores and clusters. -/
def State.dropTlb (s : State) (drop : TlbEnt → Bool) : State :=
  { s with
    cores := s.cores.map fun e => (e.1, { e.2 with tlb := e.2.tlb.filter fun t => !drop t })
    clusters := s.clusters.map fun e => (e.1, { e.2 with tlb := e.2.tlb.filter fun t => !drop t }) }

/-- A pin that an engine of the partition holds on a translation that is selected (R129). -/
def State.pinned (s : State) (p : Nat) (sel : Pin → Bool) : Bool :=
  s.cores.any fun c => c.2.pins.any fun q => q.part == p && sel q

/-- Two guest virtual addresses of a partition lie in one page of the smallest size, or under one cached translation. -/
def State.oneTranslation (s : State) (p a b : Nat) : Bool :=
  let both (t : TlbEnt) : Bool := t.part == p && decide (t.va ≤ a ∧ a < t.va + t.size) && decide (t.va ≤ b ∧ b < t.va + t.size)
  decide (a / 65536 = b / 65536) || (s.cores.any fun e => e.2.tlb.any both) || s.clusters.any fun e => e.2.tlb.any both

/-- The slot's instruction waits in a walk, or is to walk again. -/
def Slot.walking (t : Slot) : Bool := t.running && match t.wait with | .fill _ => true | .walk _ => true | .order => true | _ => false

/-- A parked request waits for its translation. -/
def Parked.walking (r : Parked) (p : Nat) : Bool := match r.loc with | .unmapped q _ _ => q == p | _ => false

/-- The walks of a partition that have begun and not completed (R129): of the slots' instructions, by slot and address; of parked requests,
by their source and number; of the front end. -/
def State.walksOpen (s : State) (p : Nat) : List (Nat × Nat × Nat) :=
  ((s.part p).cores.flatMap fun c => ((s.core c).slots.filter fun e => e.2.walking).map fun e => (0, 8 * c + e.1, e.2.pc.off))
    ++ (s.clusters.flatMap fun e => (e.2.park.filter fun r => r.walking p).map fun r => (1, r.src, r.req))
    ++ if (s.part p).feAsked.isEmpty then [] else [(2, p, 0)]

/-- A walk that had begun has not completed: what it was for waits in it still, or is on its way to walk again. -/
def State.walkOpen (s : State) (p : Nat) (w : Nat × Nat × Nat) : Bool :=
  (s.walksOpen p).contains w || (w.1 == 1 &&
    (((s.core w.2.1).flight.any fun f => f.e.id == w.2.2 && match f.e.loc with | .unmapped _ _ _ => true | _ => false)
      || s.net.any fun x => x.tag == w.2))

/-- TLBI (R129): begins once the writes of the task's earlier drains are performed; completes once no pin is held under a
dropped translation and every walk that had begun before it issued has completed: `begun` are those that had not then, none at the
issue itself. DESIGN CHOICE (log entry 12): where G(b)[1:0] is 0 and G(a)[63:48] is not, TLBI traps ILLEGAL, for the
rule says that these bits must be 0 and names no outcome. -/
def bodyTlbi (begun : Option (List (Nat × Nat × Nat))) (a b : Reg) (s : State) : Effect := do
  privileged s
  let (s, x) ← readG s a
  let (s, y) ← readG s b
  let sel := field y 1 0
  require (decide (sel ≤ 1) && !(decide (sel = 0) && decide (field x 63 48 ≠ 0))) (trapBits Cause.illegal)
  match s.corePart? s.curCore with
  | none => trapBits Cause.permission
  | some p =>
    let gva := field x 47 0
    let hit (t : TlbEnt) : Bool := t.part == p && (decide (sel = 1) || decide (t.va ≤ gva ∧ gva < t.va + t.size))
    let walks := (begun.getD ((s.walksOpen p).filter fun w => w.1 != 0 || w.2.1 != 8 * s.curCore + s.curSlot)).filter (s.walkOpen p)
    require (!(s.core s.curCore).flight.any (fun f => f.e.task == s.cur.task && f.e.writes)
      && walks.isEmpty
      && !s.pinned p fun q => decide (sel = 1) || s.oneTranslation p gva q.gva) (.error (.hold (.tlbi walks)))
    let s := s.dropTlb hit
    .ok (if sel = 1 then s.sampleRoot (s.part p).ctx else s, .seq)

/-- TLBI_COMPLETE (R129): a TLBI that waits completes, once it may. -/
def State.tlbiComplete (s : State) (c n : Nat) : State :=
  match (s.slot c n).wait with
  | .tlbi walks =>
    s.finish c n (fun w => match w with | .tlbi _ => true | _ => false) fun j => match j with | .tlbi a b => some (bodyTlbi (some walks) a b) | _ => none
  | _ => s

/-! ## Meanings -/

/-- RDC (R125). -/
def execRdc (d : Reg) (num : BitVec 12) (s : State) : Host.Outcome State Fault Refusal := issue (.rdc d num) (bodyRdc d num) s

/-- WRC (R125). -/
def execWrc (a : Reg) (num : BitVec 12) (s : State) : Host.Outcome State Fault Refusal := issue (.wrc a num) (bodyWrc a num) s

/-- SKIP_WRITE (R206 case 2). -/
def execSkipWrite (core slot : Nat) (s : State) : Host.Outcome State Fault Refusal := event (fun s => s.skipWrite core slot) s

/-- LFSR_WRITE (R105): the write of the current slot's LFSR; low 32 bits of 0 write 1. -/
def execLfsrWrite (v : W64) (s : State) : Host.Outcome State Fault Refusal :=
  event (fun s => (s.writeCR 0x00A v).getD s) s

/-- TRAP (R126). -/
def execTrap (code : BitVec 14) (s : State) : Host.Outcome State Fault Refusal :=
  issue (.trap code) (fun _ => .error (.trapCode code.toNat)) s

/-- BKPT (R126). -/
def execBkpt (s : State) : Host.Outcome State Fault Refusal :=
  issue .bkpt (fun s => trapAt Cause.breakpoint (w64 (pcWord s.cur.pc))) s

/-- FNCI (R127). -/
def execFnci (s : State) : Host.Outcome State Fault Refusal := issue .fnci bodyFnci s

/-- TLBI (R129). -/
def execTlbi (a b : Reg) (s : State) : Host.Outcome State Fault Refusal := issue (.tlbi a b) (bodyTlbi none a b) s

/-- TLBI_COMPLETE (R129). -/
def execTlbiComplete (core slot : Nat) (s : State) : Host.Outcome State Fault Refusal :=
  event (fun s => s.tlbiComplete core slot) s

end Machine
end Sys2Proof
end

