-- ==== Sys2Proof/Machine/Streams.lean ====
section
/-! DEFINITION. What tasks and copies put into a virtual stream (20_fabric.md R307). -/

namespace Sys2Proof
namespace Machine

/-- The stream items of bytes stored at an offset: one word for each 8 bytes touched, and the marker at index 2^17 − 1. Bytes of a
word that are not stored have no stated value. -/
def State.streamItems (s : State) (off : Nat) (bs : List NibByte) : List StreamItem × State :=
  let idxs := (bs.map fun b => (off + b.pos) / 8).dedup
  (idxs.zipIdx.map fun e =>
    let i := e.1
    if i = 2 ^ 17 - 1 then .marker
    else
      let base := leBytes 8 (Config.freeWord (s.free + e.2)).toNat
      .word i (w64 (leVal (bs.foldl (fun l b =>
        if (off + b.pos) / 8 = i then modifyAt (fun old => mergeNib b old) ((off + b.pos) % 8) l else l) base))), { s with free := s.free + idxs.length })

/-- A contribution enters the fabric through the local port (port 24) of the stream's router entry. DESIGN CHOICE (log entry 20): a
device without an entry takes none of its words, and notes that one has entered (R309: a later configure is ACTIVE). -/
def State.streamPut (s : State) (num off : Nat) (bs : List NibByte) : State :=
  match Tbl.get? s.fabric.streams num with
  | none => if s.fabric.early.contains num then s else { s with fabric := { s.fabric with early := num :: s.fabric.early } }
  | some e =>
    let (items, s) := s.streamItems off bs
    let e := { e with entered := true, queues := Tbl.put [] e.queues 24 (Tbl.find [] e.queues 24 ++ items.map fun x => (x, false)) }
    { s with fabric := { s.fabric with streams := Tbl.set s.fabric.streams num e } }

/-- Nibbles of two lists of bytes do not overlap. -/
def apart (l r : List NibByte) : Bool :=
  l.all fun a => r.all fun b => a.pos != b.pos || (!(a.lo && b.lo) && !(a.hi && b.hi))

/-- All 8 bytes of a word are there. -/
def wholeWord (l : List NibByte) : Bool := (upto 8).all fun k => (l.any fun b => b.pos == k && b.lo) && l.any fun b => b.pos == k && b.hi

/-- Bytes that a transfer writes into a stream at an offset join those of the same word that it has written and not contributed yet; a word
goes when it is whole, or when the transfer goes on to another (R307). -/
def State.streamJoin (s : State) (num off : Nat) (bs : List NibByte) (word : Option (Nat × Nat × List NibByte)) :
    State × Option (Nat × Nat × List NibByte) :=
  ((bs.map fun b => (off + b.pos) / 8).dedup).foldl (fun x i =>
    let new := (bs.filter fun b => (off + b.pos) / 8 == i).map fun b => { b with pos := (off + b.pos) % 8 }
    let (s, cur) : State × List NibByte :=
      match x.2 with
      | some (n, j, old) => if n = num ∧ j = i ∧ apart old new = true then (x.1, old ++ new) else (x.1.streamPut n (8 * j) old, new)
      | none => (x.1, new)
    if wholeWord cur then (s.streamPut num (8 * i) cur, none) else (s, some (num, i, cur))) (s, word)

/-- Chunks of one instruction that lie in one word of a stream make one word (R307). -/
def joinChunks : List (W64 × Loc × List NibByte) → List (W64 × Loc × List NibByte)
  | [] => []
  | (ea, .stream num o, bs) :: r =>
    let rest := joinChunks r
    let at8 (o : Nat) (bs : List NibByte) : List NibByte := bs.map fun b => { b with pos := o % 8 + b.pos }
    let other : (W64 × Loc × List NibByte) → Option (List NibByte) := fun x =>
      match x.2.1 with
      | .stream n q => if n = num ∧ q / 8 = o / 8 ∧ apart (at8 o bs) (at8 q x.2.2) = true then some (at8 q x.2.2) else none
      | _ => none
    match rest.findIdx? fun x => (other x).isSome with
    | some i =>
      let more := ((rest[i]?).bind other).getD []
      (w64 (ea.toNat - o % 8), .stream num (8 * (o / 8)), at8 o bs ++ more) :: removeAt i rest
    | none => (ea, .stream num o, bs) :: rest
  | x :: r => x :: joinChunks r

end Machine
end Sys2Proof
end

