-- ==== Sys2Proof/Machine/Vector.lean ====
section
/-! DEFINITION. Vector and mask instructions (10_isa_vector.md R176 to R191). -/

namespace Sys2Proof
namespace Machine

/-! ## Lanes and results (R176, R177) -/

/-- LaneSel(k, i). -/
def laneSel (m : W64) (i : Nat) : Bool := m.getLsbD (i % 64)

/-- SetV: selected lanes from `f`; the others keep the old value, or become 0 under z. -/
def lanesOf (old : Vec) (w : Nat) (m : W64) (zr : Bool) (f : Nat → Nat) : Vec :=
  mkVec w fun i => if laneSel m i then f i else if zr then 0 else laneOf old i w

/-- The lanes of `vd` written. -/
def setLanes (s : State) (d : Reg) (w : Nat) (mk : BitVec 3) (zr : BitVec 1) (f : Nat → Nat) : State :=
  writeV s d (lanesOf (readV s d) w (readM s mk.toNat) (decide (zr = 1)) f)

/-- The words that `n` roundings draw under stochastic rounding, and the LFSR after them (R168). -/
def drawWords (s : State) (mode n : Nat) : List W32 × State :=
  if mode = 4 then
    let ws := nextWords n s.cur.regs.lfsr
    (ws, s.modCur fun t => { t with regs := { t.regs with lfsr := ws.getLastD t.regs.lfsr } })
  else ([], s)

/-- The place of a lane among the selected ones. -/
def selRank (m : W64) (i : Nat) : Nat := ((upto i).filter fun j => laneSel m j).length

/-- Lanes of f32 values, each selected one rounded once, one word drawn for each in lane order (R178 case 4, R181). -/
def roundLanes (s : State) (d : Reg) (mk : BitVec 3) (zr : BitVec 1) (f : Nat → Val) : State :=
  let m := readM s mk.toNat
  let mode := s.roundMode
  let (ws, s') := drawWords s mode (selRank m 16)
  setLanes s' d 32 mk zr fun i => (enc32 mode (ws.getD (selRank m i) 0) (f i)).toNat

/-- A lane of 32 bits as f32 value. -/
def f32Lane (x : Vec) (i : Nat) : Val := decodeVal f32 (laneOf x i 32)

/-- A lane as signed number. -/
def sLane (x : Vec) (i w : Nat) : Int := sext (laneOf x i w) w

/-- A number as lane of width `w`. -/
def toLane (w : Nat) (z : Int) : Nat := (z % 2 ^ w).toNat

/-! ## Floating point (R178 to R180) -/

/-- The operations of R178 that round: add, subtract, multiply, and the three fused ones. -/
def vfOp (op mode : Nat) (a b c : Val) : Val :=
  match op with
  | 0 => addVal mode a b
  | 1 => addVal mode a (negVal b)
  | 2 => mulVal a b
  | 3 => addVal mode (mulVal a b) c
  | 4 => addVal mode (mulVal a b) (negVal c)
  | _ => addVal mode c (negVal (mulVal a b))

/-- VFADD to VFNMA. -/
def bodyVfOp (op : Nat) (d a b : Reg) (mk : BitVec 3) (zr : BitVec 1) (s : State) : Effect :=
  let x := readV s a
  let y := readV s b
  let z := readV s d
  .ok (roundLanes s d mk zr fun i => vfOp op s.roundMode (f32Lane x i) (f32Lane y i) (f32Lane z i), .seq)

/-- A lane's f32 code. -/
def code32 (x : Vec) (i : Nat) : W32 := BitVec.ofNat 32 (laneOf x i 32)

/-- VFMIN, VFMAX: not rounded. -/
def bodyVfPick (f : W32 → W32 → W32) (d a b : Reg) (mk : BitVec 3) (zr : BitVec 1) (s : State) : Effect :=
  let x := readV s a
  let y := readV s b
  .ok (setLanes s d 32 mk zr fun i => (f (code32 x i) (code32 y i)).toNat, .seq)

/-- VFABS, VFNEG, VFCPY: the sign bit alone; a NaN of va gives the canonical one. -/
def signOp (op : Nat) (a b : W32) : W32 :=
  if (dec32 a).isNan then nan32
  else
    match op with
    | 0 => a &&& 0x7FFFFFFF#32
    | 1 => a ^^^ 0x80000000#32
    | _ => (a &&& 0x7FFFFFFF#32) ||| (b &&& 0x80000000#32)

/-- The conditions of VFCMP: eq, ne, lt, le, gt, ge. -/
def vfCond (cond : Nat) (a b : Val) : Bool :=
  match cond with
  | 0 => eqVal a b
  | 1 => !eqVal a b
  | 2 => ltVal a b
  | 3 => ltVal a b || eqVal a b
  | 4 => ltVal b a
  | _ => ltVal b a || eqVal b a

/-- A mask register from the first `n` bits; unselected bits keep the old value, or are 0 under z; higher bits are 0. -/
def maskOf (old m : W64) (zr : Bool) (n : Nat) (f : Nat → Bool) : W64 :=
  (upto n).foldl (fun w i =>
    if (if laneSel m i then f i else if zr then false else old.getLsbD i) then w ||| (1#64 <<< i) else w) 0

/-- VFCMP. -/
def bodyVfcmp (d : BitVec 3) (a b : Reg) (mk : BitVec 3) (zr : BitVec 1) (cond : Nat) (s : State) : Effect :=
  let x := readV s a
  let y := readV s b
  .ok (writeM s d.toNat (maskOf (readM s d.toNat) (readM s mk.toNat) (decide (zr = 1)) 16 fun i =>
    vfCond cond (f32Lane x i) (f32Lane y i)), .seq)

/-! ## VRCP, VRSQ, VEXP2 (R181) -/

/-- The integer nearest a quotient. -/
def nearestQuot (a b : Nat) : Nat := (2 * a + b) / (2 * b)

/-- The refined reciprocal. -/
def rcpVal : Val → Val
  | .nan => .nan
  | .inf neg => .fin neg 0 0
  | .fin neg m e =>
    if m = 0 then .inf neg
    else
      let lg := Nat.log2 m
      let ex := e + lg
      if m = 2 ^ lg then .fin neg 1 (-ex)
      else
        let j := (m - 2 ^ lg) * 128 / 2 ^ lg
        let t := nearestQuot 131072 (257 + 2 * j)
        .fin neg (t * (2 ^ (lg + 10) - m * t)) (-18 - (lg : Int) - ex)

/-- The refined reciprocal square root. -/
def rsqVal : Val → Val
  | .nan => .nan
  | .inf neg => if neg then .nan else .fin false 0 0
  | .fin neg m e =>
    if m = 0 then .inf neg
    else if neg then .nan
    else
      let lg := Nat.log2 m
      let ex := e + lg
      let odd := (ex % 2).toNat
      if m = 2 ^ lg ∧ odd = 0 then .fin false 1 (-(ex / 2))
      else
        let j := (m - 2 ^ lg) * 64 / 2 ^ lg
        let t := (Nat.sqrt (4 * 512 * 512 * 128 / (2 ^ odd * (129 + 2 * j))) + 1) / 2
        .fin false (t * (3 * 2 ^ (18 + lg) - m * 2 ^ odd * t * t)) (-28 - (lg : Int) - (ex - odd) / 2)

/-- The largest n with n^128 ≤ 2^(1280 + q), for n from 1,024 on: twice 512 * 2^(q/128), rounded down. -/
def exp2Root (q : Nat) : Nat :=
  [512, 256, 128, 64, 32, 16, 8, 4, 2, 1].foldl (fun n k => if (n + k) ^ 128 ≤ 2 ^ (1280 + q) then n + k else n) 1024

/-- An exponent far beyond the range of f32 is cut, for the rounded result is the same. -/
def cutExp (z : Int) : Int := if z < -1000 then -1000 else if 1000 < z then 1000 else z

/-- The refined power of two. -/
def exp2Val : Val → Val
  | .nan => .nan
  | .inf neg => if neg then .fin false 0 0 else .inf false
  | .fin neg m e =>
    if 0 ≤ e then .fin false 1 (cutExp (signedMag neg (m * 2 ^ e.toNat)))
    else
      let k := (-e).toNat
      let den : Nat := 2 ^ k
      let z := signedMag neg m
      let n : Int := z / (den : Int)
      let r : Nat := (z % (den : Int)).toNat
      if r = 0 then .fin false 1 (cutExp n)
      else
        let q : Nat := 2 * (64 * r / den) + 1
        let t := (exp2Root q + 1) / 2
        let y : Int := ((2 ^ 31 * den : Nat) : Int) + (((128 * r : Nat) : Int) - ((q * den : Nat) : Int)) * 0xB17218
        .fin false (t * y.toNat) (cutExp n - 40 - k)

/-- VRCP, VRSQ, VEXP2. -/
def bodyVf1 (f : Val → Val) (d a : Reg) (mk : BitVec 3) (zr : BitVec 1) (s : State) : Effect :=
  let x := readV s a
  .ok (roundLanes s d mk zr fun i => f (f32Lane x i), .seq)

/-! ## Integer lanes (R182, R183) -/

/-- Operations on two lanes of width `w`, as numbers below 2^w. -/
def vAdd (w a b : Nat) : Nat := (a + b) % 2 ^ w
def vSub (w a b : Nat) : Nat := (a + (2 ^ w - b)) % 2 ^ w
def vMul (w a b : Nat) : Nat := a * b % 2 ^ w
def vMulh (w a b : Nat) : Nat := toLane w (sext a w * sext b w / 2 ^ w)
def vMin (w a b : Nat) : Nat := if sext b w < sext a w then b else a
def vMax (w a b : Nat) : Nat := if sext a w < sext b w then b else a
def vAnd (_w a b : Nat) : Nat := a &&& b
def vOr (_w a b : Nat) : Nat := a ||| b
def vXor (_w a b : Nat) : Nat := a ^^^ b
def vShl (w a b : Nat) : Nat := if b < w then a * 2 ^ b % 2 ^ w else 0
def vShr (w a b : Nat) : Nat := if b < w then a / 2 ^ b else 0
def vSha (w a b : Nat) : Nat := toLane w (sext a w / 2 ^ (Nat.min b (w - 1)))

/-- An operation on the selected lanes. -/
def bodyVInt (op : Nat → Nat → Nat → Nat) (d a b : Reg) (mk : BitVec 3) (zr : BitVec 1) (w : Nat) (s : State) : Effect :=
  let x := readV s a
  let y := readV s b
  .ok (setLanes s d w mk zr fun i => op w (laneOf x i w) (laneOf y i w), .seq)

/-- The conditions of VCMP. -/
def vCond (cond : Nat) (a b : Int) : Bool :=
  match cond with
  | 0 => decide (a = b)
  | 1 => decide (a ≠ b)
  | 2 => decide (a < b)
  | 3 => decide (a ≤ b)
  | 4 => decide (b < a)
  | _ => decide (b ≤ a)

/-- VCMP. With 4-bit lanes a bit covers two lanes, which one mask bit selects. -/
def bodyVcmp (d : BitVec 3) (a b : Reg) (mk : BitVec 3) (zr : BitVec 1) (w cond : Nat) (s : State) : Effect :=
  let x := readV s a
  let y := readV s b
  let hold (i : Nat) : Bool := vCond cond (sLane x i w) (sLane y i w)
  .ok (writeM s d.toNat (maskOf (readM s d.toNat) (readM s mk.toNat) (decide (zr = 1)) (Nat.min 64 (laneCount w)) fun i =>
    hold i && (decide (w ≠ 4) || hold (i + 64))), .seq)

/-- VSEL: every lane is written. -/
def bodyVsel (d a b : Reg) (mk : BitVec 3) (w : Nat) (s : State) : Effect :=
  let x := readV s a
  let y := readV s b
  let m := readM s mk.toNat
  .ok (writeV s d (mkVec w fun i => if laneSel m i then laneOf x i w else laneOf y i w), .seq)

/-! ## Horizontal operations (R184) -/

/-- The identity of an operation at a lane width. -/
def redUnit (op w : Nat) : Nat :=
  match op with
  | 0 => 0x80000000
  | 1 => 0xFF800000
  | 2 => 0x7F800000
  | 4 => 2 ^ (w - 1)
  | 5 => 2 ^ (w - 1) - 1
  | _ => 0

/-- One step; fadd rounds with the word given. -/
def redStep (op w mode : Nat) (word : W32) (a b : Nat) : Nat :=
  match op with
  | 0 => (enc32 mode word (addVal mode (decodeVal f32 a) (decodeVal f32 b))).toNat
  | 1 => (f32max (BitVec.ofNat 32 a) (BitVec.ofNat 32 b)).toNat
  | 2 => (f32min (BitVec.ofNat 32 a) (BitVec.ofNat 32 b)).toNat
  | 3 => vAdd w a b
  | 4 => vMax w a b
  | 5 => vMin w a b
  | 6 => a ||| b
  | _ => a ^^^ b

/-- One level of VRED: neighbours are combined, the lower index first. -/
def redLevel (step : W32 → Nat → Nat → Nat) : List Nat → List W32 → List Nat × List W32
  | a :: b :: r, ws =>
    let (r', ws') := redLevel step r ws.tail
    (step (ws.headD 0) a b :: r', ws')
  | l, ws => (l, ws)

/-- The levels of VRED. -/
def redTree (step : W32 → Nat → Nat → Nat) : Nat → List Nat → List W32 → Nat
  | 0, l, _ => l.headD 0
  | n + 1, l, ws =>
    let (l, ws) := redLevel step l ws
    redTree step n l ws

/-- The running values of VSCAN. -/
def scanList (step : W32 → Nat → Nat → Nat) (acc : Nat) : List Nat → List W32 → List Nat
  | [], _ => []
  | x :: r, ws =>
    let y := step (ws.headD 0) acc x
    y :: scanList step y r ws.tail

/-- The lanes that enter: the value, or the identity. -/
def redLanes (s : State) (a : Reg) (mk : BitVec 3) (w op : Nat) : List Nat :=
  let x := readV s a
  let m := readM s mk.toNat
  (upto (laneCount w)).map fun i => if laneSel m i then laneOf x i w else redUnit op w

/-- VRED. -/
def bodyVred (d a : Reg) (mk : BitVec 3) (w op : Nat) (s : State) : Effect :=
  let l := redLanes s a mk w op
  let mode := s.roundMode
  let (ws, s) := if op = 0 then drawWords s mode (l.length - 1) else ([], s)
  .ok (writeV s d (BitVec.ofNat 512 (redTree (redStep op w mode) (Nat.log2 l.length) l ws)), .seq)

/-- Lane 0 of VSCAN, which passes no step. DEDUCED (log entry 14): a NaN there is one that the instruction produces, so it is the
canonical one (10 R176 case 6, 09 R161); R184 writes s := x[0]. -/
def scanHead (op x : Nat) : Nat := if op ≤ 2 ∧ (decodeVal f32 x).isNan = true then nan32.toNat else x

/-- VSCAN. -/
def bodyVscan (d a : Reg) (mk : BitVec 3) (w op : Nat) (s : State) : Effect :=
  let l := redLanes s a mk w op
  let mode := s.roundMode
  let (ws, s) := if op = 0 then drawWords s mode (l.length - 1) else ([], s)
  let out := scanHead op (l.headD 0) :: scanList (redStep op w mode) (scanHead op (l.headD 0)) l.tail ws
  .ok (writeV s d (BitVec.ofNat 512 (joinLanes w out)), .seq)

/-! ## Permutes (R185) -/

/-- VPERM. -/
def bodyVperm (d a b : Reg) (mk : BitVec 3) (zr : BitVec 1) (w : Nat) (s : State) : Effect :=
  let x := readV s a
  let y := readV s b
  .ok (setLanes s d w mk zr fun i => laneOf x (laneOf y i w % laneCount w) w, .seq)

/-- VSLD. -/
def bodyVsld (d a b : Reg) (mk : BitVec 3) (zr : BitVec 1) (w : Nat) (s : State) : Effect := do
  let (s, g) ← readG s b
  let x := readV s a
  .ok (setLanes s d w mk zr fun i =>
    let j : Int := (i : Int) + g.toInt
    if 0 ≤ j ∧ j < laneCount w then laneOf x j.toNat w else 0, .seq)

/-- VINS. -/
def bodyVins (d a b : Reg) (w : Nat) (s : State) : Effect := do
  let (s, x) ← readG s a
  let (s, y) ← readG s b
  let old := readV s d
  .ok (writeV s d (mkVec w fun i => if i = y.toNat % laneCount w then x.toNat else laneOf old i w), .seq)

/-- VEXT. -/
def bodyVext (d a b : Reg) (w : Nat) (s : State) : Effect := do
  let (s, y) ← readG s b
  setG s d (w64 (laneOf (readV s a) (y.toNat % laneCount w) w))

/-- VBCAST. -/
def bodyVbcast (d a : Reg) (mk : BitVec 3) (zr : BitVec 1) (w : Nat) (s : State) : Effect := do
  let (s, x) ← readG s a
  .ok (setLanes s d w mk zr fun _ => x.toNat % 2 ^ w, .seq)

/-! ## Conversion and block scales (R186, R187) -/

/-- The rounding mode of VCVT's round field. -/
def cvtMode (s : State) (rnd : BitVec 2) : Nat :=
  match rnd.toNat with
  | 0 => s.roundMode
  | 1 => 0
  | 2 => 1
  | _ => 4

/-- VCVT. -/
def bodyVcvt (d a : Reg) (dst src : BitVec 6) (rnd : BitVec 2) (sat : Bool) (s : State) : Effect :=
  match fmtOf? dst.toNat, fmtOf? src.toNat with
  | some ft, some fs =>
    let n := 512 / Nat.max ft.bits fs.bits
    let mode := cvtMode s rnd
    let x := readV s a
    let (ws, s) := drawWords s mode n
    .ok (writeV s d (BitVec.ofNat 512 (joinLanes ft.bits ((upto n).map fun i =>
      roundTo ft mode sat (ws.getD i 0) (decodeVal fs (laneOf x i fs.bits))))), .seq)
  | _, _ => trapBits Cause.format

/-- The element formats that VBSC takes: every binary8 code and the three 4-bit ones. -/
def bscFmt? (code : Nat) : Option Fmt :=
  match fmtOf? code with
  | some (.b8 p u e) => some (.b8 p u e)
  | some (.b4 p) => some (.b4 p)
  | _ => none

/-- VBSC: kinds e16, e32, s16, s32. -/
def bodyVbsc (d a b : Reg) (mk : BitVec 3) (knd : BitVec 2) (s : State) : Effect := do
  let (s, g) ← readG s b
  match bscFmt? (field g 5 0) with
  | none => trapBits Cause.format
  | some f =>
    let m := readM s mk.toNat
    let n := if knd.toNat % 2 = 1 then 32 else 16
    let sf := if knd.toNat < 2 then 0 else 1
    let vals := ((upto n).filter fun i => m.getLsbD i).map fun i =>
      if i < 16 then f32Lane (readV s a) i else f32Lane (readV s (a + 1)) (i - 16)
    let code := scaleFor vals f sf
    let v := if code = 0xFF then nan32 else enc32 0 0 (scaleVal sf code)
    .ok (writeV s d (BitVec.ofNat 512 (code + 2 ^ 32 * v.toNat)), .seq)

/-! ## Vector memory (R188, R190) -/

/-- Bytes of a register, all of both nibbles: byte `src i` of the reply to byte `i`. -/
def allBytes (src : Nat → Nat) : List VByte := (upto 64).map fun i => ⟨src i, i, true, true⟩

/-- VLD and VLDB: `n` bytes, repeated over the register. -/
def bodyVld (d a : Reg) (la : BitVec 4) (off : BitVec 10) (n : Nat) (s : State) : Effect := do
  let (s, x) ← readG s a
  let ea := effAddr x off 64
  aligned ea n
  let (s, loc) ← s.xlateLoad ea n .read
  let s ← loadInto s { vd := [d.toNat], left := la.toNat } [(ea, loc, n, .vec (allBytes fun i => i % n))] false
  .ok (s, .seq)

/-- VST. -/
def bodyVst (d a : Reg) (off : BitVec 10) (s : State) : Effect := do
  let (s, x) ← readG s a
  let ea := effAddr x off 64
  aligned ea 64
  let (s, loc) ← s.xlate ea 64 .write
  let s ← bufferSectors s ea loc (fullBytes (leBytes 64 (readV s d).toNat))
  .ok (s, .seq)

/-- The nibbles of byte `b` of a register that a mask selects, by the lane width. -/
def byteSel (m : W64) (w b : Nat) : Bool × Bool :=
  if w = 4 then (laneSel m (2 * b), laneSel m (2 * b + 1)) else (laneSel m (b / (w / 8)), laneSel m (b / (w / 8)))

/-- The selected bytes of chunk `j`. -/
def chunkBytes (m : W64) (w j : Nat) : List VByte :=
  (upto 4).filterMap fun i =>
    let (lo, hi) := byteSel m w (4 * j + i)
    if lo || hi then some ⟨i, 4 * j + i, lo, hi⟩ else none

/-- The active chunks with their addresses and bytes. -/
def chunksOf (s : State) (base : W64) (b : Reg) (m : W64) (w : Nat) : List (W64 × List VByte) :=
  let y := readV s b
  (upto 16).filterMap fun j =>
    let bs := chunkBytes m w j
    if bs.isEmpty then none else some (wrap ((base.toNat : Int) + sLane y j 32), bs)

/-- The places of the active chunks, in order; the first that fails traps. -/
def xlateChunks (acc : Access) : State → List (W64 × List VByte) → Except Stop (State × List (W64 × Loc × List VByte))
  | s, [] => .ok (s, [])
  | s, (ea, bs) :: r => do
    aligned ea 4
    let (s, loc) ← if acc.isRead then s.xlateLoad ea 4 acc else s.xlate ea 4 acc
    let (s, l) ← xlateChunks acc s r
    .ok (s, (ea, loc, bs) :: l)

/-- VLDX. Its reads are made when it issues (08 R133 case 3), all in the one step of its issue: DESIGN CHOICE (log entry 6), for R189 only
says that its chunks, and the sectors of a VLD, are not atomic together. -/
def bodyVldx (d a b : Reg) (la : BitVec 4) (mk : BitVec 3) (w : Nat) (s : State) : Effect := do
  let (s, x) ← readG s a
  let (s, l) ← xlateChunks .read s (chunksOf s x b (readM s mk.toNat) w)
  let s ← loadInto s { vd := [d.toNat], left := la.toNat, vval := readV s d }
    (l.map fun e => (e.1, e.2.1, 4, .vec e.2.2)) false
  .ok (s, .seq)

/-- The entries of a scatter, in order. -/
def bufferAll : State → List (W64 × Loc × List NibByte) → Except Stop State
  | s, [] => .ok s
  | s, (ea, loc, bs) :: r => do
    let s ← bufferStore s ea loc bs .weak .core
    bufferAll s r
def bufferChunks (v : List Byte) (s : State) (l : List (W64 × Loc × List VByte)) : Except Stop State :=
  bufferAll s (joinChunks (l.map fun e => (e.1, e.2.1, e.2.2.map fun b => ⟨b.src, v.getD b.dst 0, b.lo, b.hi⟩)))

/-- VSTX. -/
def bodyVstx (d a b : Reg) (mk : BitVec 3) (w : Nat) (s : State) : Effect := do
  let (s, x) ← readG s a
  let (s, l) ← xlateChunks .write s (chunksOf s x b (readM s mk.toNat) w)
  let s ← bufferChunks (vecBytes (readV s d)) s l
  .ok (s, .seq)

/-! ## Masks (R191) -/

/-- MAND, MOR, MXOR. -/
def bodyMask2 (f : W64 → W64 → W64) (d a b : Reg) (s : State) : Effect :=
  .ok (writeM s d.toNat (f (readM s a.toNat) (readM s b.toNat)), .seq)

/-- MPOP. -/
def bodyMpop (d a : Reg) (s : State) : Effect := setG s d (w64 (Machine.popc 64 (readM s a.toNat).toNat))

/-- MSET. -/
def bodyMset (d a : Reg) (s : State) : Effect := do
  let (s, x) ← readG s a
  .ok (writeM s d.toNat x, .seq)

/-! ## Meanings -/

/-- VFADD (R178). -/
def execVfadd (d a b : Reg) (mk : BitVec 3) (zr : BitVec 1) (s : State) : Host.Outcome State Fault Refusal :=
  issue (.vfadd d a b mk zr) (bodyVfOp 0 d a b mk zr) s

/-- VFSUB (R178). -/
def execVfsub (d a b : Reg) (mk : BitVec 3) (zr : BitVec 1) (s : State) : Host.Outcome State Fault Refusal :=
  issue (.vfsub d a b mk zr) (bodyVfOp 1 d a b mk zr) s

/-- VFMUL (R178). -/
def execVfmul (d a b : Reg) (mk : BitVec 3) (zr : BitVec 1) (s : State) : Host.Outcome State Fault Refusal :=
  issue (.vfmul d a b mk zr) (bodyVfOp 2 d a b mk zr) s

/-- VFMA (R178). -/
def execVfma (d a b : Reg) (mk : BitVec 3) (zr : BitVec 1) (s : State) : Host.Outcome State Fault Refusal :=
  issue (.vfma d a b mk zr) (bodyVfOp 3 d a b mk zr) s

/-- VFMS (R178). -/
def execVfms (d a b : Reg) (mk : BitVec 3) (zr : BitVec 1) (s : State) : Host.Outcome State Fault Refusal :=
  issue (.vfms d a b mk zr) (bodyVfOp 4 d a b mk zr) s

/-- VFNMA (R178). -/
def execVfnma (d a b : Reg) (mk : BitVec 3) (zr : BitVec 1) (s : State) : Host.Outcome State Fault Refusal :=
  issue (.vfnma d a b mk zr) (bodyVfOp 5 d a b mk zr) s

/-- VFMIN (R178). -/
def execVfmin (d a b : Reg) (mk : BitVec 3) (zr : BitVec 1) (s : State) : Host.Outcome State Fault Refusal :=
  issue (.vfmin d a b mk zr) (bodyVfPick f32min d a b mk zr) s

/-- VFMAX (R178). -/
def execVfmax (d a b : Reg) (mk : BitVec 3) (zr : BitVec 1) (s : State) : Host.Outcome State Fault Refusal :=
  issue (.vfmax d a b mk zr) (bodyVfPick f32max d a b mk zr) s

/-- VFABS (R179). -/
def execVfabs (d a : Reg) (mk : BitVec 3) (zr : BitVec 1) (s : State) : Host.Outcome State Fault Refusal :=
  issue (.vfabs d a mk zr) (bodyVfPick (signOp 0) d a a mk zr) s

/-- VFNEG (R179). -/
def execVfneg (d a : Reg) (mk : BitVec 3) (zr : BitVec 1) (s : State) : Host.Outcome State Fault Refusal :=
  issue (.vfneg d a mk zr) (bodyVfPick (signOp 1) d a a mk zr) s

/-- VFCPY (R179). -/
def execVfcpy (d a b : Reg) (mk : BitVec 3) (zr : BitVec 1) (s : State) : Host.Outcome State Fault Refusal :=
  issue (.vfcpy d a b mk zr) (bodyVfPick (signOp 2) d a b mk zr) s

/-- VFCMP (R180). -/
def execVfcmp (d : BitVec 3) (a b : Reg) (mk : BitVec 3) (zr : BitVec 1) (cond : BitVec 5) (s : State) : Host.Outcome State Fault Refusal :=
  issue (.vfcmp d a b mk zr cond) (bodyVfcmp d a b mk zr cond.toNat) s

/-- VRCP (R181). -/
def execVrcp (d a : Reg) (mk : BitVec 3) (zr : BitVec 1) (s : State) : Host.Outcome State Fault Refusal :=
  issue (.vrcp d a mk zr) (bodyVf1 rcpVal d a mk zr) s

/-- VRSQ (R181). -/
def execVrsq (d a : Reg) (mk : BitVec 3) (zr : BitVec 1) (s : State) : Host.Outcome State Fault Refusal :=
  issue (.vrsq d a mk zr) (bodyVf1 rsqVal d a mk zr) s

/-- VEXP2 (R181). -/
def execVexp2 (d a : Reg) (mk : BitVec 3) (zr : BitVec 1) (s : State) : Host.Outcome State Fault Refusal :=
  issue (.vexp2 d a mk zr) (bodyVf1 exp2Val d a mk zr) s

/-- VADD (R182). -/
def execVadd (d a b : Reg) (mk : BitVec 3) (zr : BitVec 1) (lane : BitVec 2) (s : State) : Host.Outcome State Fault Refusal :=
  issue (.vadd d a b mk zr lane) (bodyVInt vAdd d a b mk zr (laneBits lane.toNat)) s

/-- VSUB (R182). -/
def execVsub (d a b : Reg) (mk : BitVec 3) (zr : BitVec 1) (lane : BitVec 2) (s : State) : Host.Outcome State Fault Refusal :=
  issue (.vsub d a b mk zr lane) (bodyVInt vSub d a b mk zr (laneBits lane.toNat)) s

/-- VMUL (R182). -/
def execVmul (d a b : Reg) (mk : BitVec 3) (zr : BitVec 1) (lane : BitVec 2) (s : State) : Host.Outcome State Fault Refusal :=
  issue (.vmul d a b mk zr lane) (bodyVInt vMul d a b mk zr (laneBits lane.toNat)) s

/-- VMULH (R182). -/
def execVmulh (d a b : Reg) (mk : BitVec 3) (zr : BitVec 1) (lane : BitVec 2) (s : State) : Host.Outcome State Fault Refusal :=
  issue (.vmulh d a b mk zr lane) (bodyVInt vMulh d a b mk zr (laneBits lane.toNat)) s

/-- VMIN (R182). -/
def execVmin (d a b : Reg) (mk : BitVec 3) (zr : BitVec 1) (lane : BitVec 2) (s : State) : Host.Outcome State Fault Refusal :=
  issue (.vmin d a b mk zr lane) (bodyVInt vMin d a b mk zr (laneBits lane.toNat)) s

/-- VMAX (R182). -/
def execVmax (d a b : Reg) (mk : BitVec 3) (zr : BitVec 1) (lane : BitVec 2) (s : State) : Host.Outcome State Fault Refusal :=
  issue (.vmax d a b mk zr lane) (bodyVInt vMax d a b mk zr (laneBits lane.toNat)) s

/-- VSHL (R182). -/
def execVshl (d a b : Reg) (mk : BitVec 3) (zr : BitVec 1) (lane : BitVec 2) (s : State) : Host.Outcome State Fault Refusal :=
  issue (.vshl d a b mk zr lane) (bodyVInt vShl d a b mk zr (laneBits lane.toNat)) s

/-- VSHR (R182). -/
def execVshr (d a b : Reg) (mk : BitVec 3) (zr : BitVec 1) (lane : BitVec 2) (s : State) : Host.Outcome State Fault Refusal :=
  issue (.vshr d a b mk zr lane) (bodyVInt vShr d a b mk zr (laneBits lane.toNat)) s

/-- VSHA (R182). -/
def execVsha (d a b : Reg) (mk : BitVec 3) (zr : BitVec 1) (lane : BitVec 2) (s : State) : Host.Outcome State Fault Refusal :=
  issue (.vsha d a b mk zr lane) (bodyVInt vSha d a b mk zr (laneBits lane.toNat)) s

/-- VAND (R182). -/
def execVand (d a b : Reg) (mk : BitVec 3) (zr : BitVec 1) (s : State) : Host.Outcome State Fault Refusal :=
  issue (.vand d a b mk zr) (bodyVInt vAnd d a b mk zr 32) s

/-- VOR (R182). -/
def execVor (d a b : Reg) (mk : BitVec 3) (zr : BitVec 1) (s : State) : Host.Outcome State Fault Refusal :=
  issue (.vor d a b mk zr) (bodyVInt vOr d a b mk zr 32) s

/-- VXOR (R182). -/
def execVxor (d a b : Reg) (mk : BitVec 3) (zr : BitVec 1) (s : State) : Host.Outcome State Fault Refusal :=
  issue (.vxor d a b mk zr) (bodyVInt vXor d a b mk zr 32) s

/-- VCMP (R183). -/
def execVcmp (d : BitVec 3) (a b : Reg) (mk : BitVec 3) (zr : BitVec 1) (lane : BitVec 2) (cond : BitVec 3) (s : State) : Host.Outcome State Fault Refusal :=
  issue (.vcmp d a b mk zr lane cond) (bodyVcmp d a b mk zr (laneBits lane.toNat) cond.toNat) s

/-- VSEL (R183). -/
def execVsel (d a b : Reg) (mk : BitVec 3) (lane : BitVec 2) (s : State) : Host.Outcome State Fault Refusal :=
  issue (.vsel d a b mk lane) (bodyVsel d a b mk (laneBits lane.toNat)) s

/-- VLD (R188). -/
def execVld (d a : Reg) (la : BitVec 4) (off : BitVec 10) (s : State) : Host.Outcome State Fault Refusal :=
  issue (.vld d a la off) (bodyVld d a la off 64) s

/-- VST (R188). -/
def execVst (d a : Reg) (off : BitVec 10) (s : State) : Host.Outcome State Fault Refusal :=
  issue (.vst d a off) (bodyVst d a off) s

/-- VLDB (R188). -/
def execVldb (d a : Reg) (la : BitVec 4) (off : BitVec 10) (s : State) : Host.Outcome State Fault Refusal :=
  issue (.vldb d a la off) (bodyVld d a la off 16) s

/-- VLDX (R190). -/
def execVldx (d a b : Reg) (la : BitVec 4) (mk : BitVec 3) (lane : BitVec 2) (s : State) : Host.Outcome State Fault Refusal :=
  issue (.vldx d a b la mk lane) (bodyVldx d a b la mk (laneBits lane.toNat)) s

/-- VSTX (R190). -/
def execVstx (d a b : Reg) (mk : BitVec 3) (lane : BitVec 2) (s : State) : Host.Outcome State Fault Refusal :=
  issue (.vstx d a b mk lane) (bodyVstx d a b mk (laneBits lane.toNat)) s

/-- VPERM (R185). -/
def execVperm (d a b : Reg) (mk : BitVec 3) (zr : BitVec 1) (lane : BitVec 2) (s : State) : Host.Outcome State Fault Refusal :=
  issue (.vperm d a b mk zr lane) (bodyVperm d a b mk zr (laneBits lane.toNat)) s

/-- VSLD (R185). -/
def execVsld (d a b : Reg) (mk : BitVec 3) (zr : BitVec 1) (lane : BitVec 2) (s : State) : Host.Outcome State Fault Refusal :=
  issue (.vsld d a b mk zr lane) (bodyVsld d a b mk zr (laneBits lane.toNat)) s

/-- VINS (R185). -/
def execVins (d a b : Reg) (lane : BitVec 2) (s : State) : Host.Outcome State Fault Refusal :=
  issue (.vins d a b lane) (bodyVins d a b (laneBits lane.toNat)) s

/-- VEXT (R185). -/
def execVext (d a b : Reg) (lane : BitVec 2) (s : State) : Host.Outcome State Fault Refusal :=
  issue (.vext d a b lane) (bodyVext d a b (laneBits lane.toNat)) s

/-- VBCAST (R185). -/
def execVbcast (d a : Reg) (mk : BitVec 3) (zr : BitVec 1) (lane : BitVec 2) (s : State) : Host.Outcome State Fault Refusal :=
  issue (.vbcast d a mk zr lane) (bodyVbcast d a mk zr (laneBits lane.toNat)) s

/-- VRED (R184). -/
def execVred (d a : Reg) (mk : BitVec 3) (lane : BitVec 2) (op : BitVec 3) (s : State) : Host.Outcome State Fault Refusal :=
  issue (.vred d a mk lane op) (bodyVred d a mk (laneBits lane.toNat) op.toNat) s

/-- VSCAN (R184). -/
def execVscan (d a : Reg) (mk : BitVec 3) (lane : BitVec 2) (op : BitVec 3) (s : State) : Host.Outcome State Fault Refusal :=
  issue (.vscan d a mk lane op) (bodyVscan d a mk (laneBits lane.toNat) op.toNat) s

/-- VCVT without saturation (R186). -/
def execVcvt (d a : Reg) (dst src : BitVec 6) (rnd : BitVec 2) (s : State) : Host.Outcome State Fault Refusal :=
  issue (.vcvt d a dst src rnd) (bodyVcvt d a dst src rnd false) s

/-- VCVT with saturation (R186). -/
def execVcvtSat (d a : Reg) (dst src : BitVec 6) (rnd : BitVec 2) (s : State) : Host.Outcome State Fault Refusal :=
  issue (.vcvtSat d a dst src rnd) (bodyVcvt d a dst src rnd true) s

/-- VBSC (R187). -/
def execVbsc (d a b : Reg) (mk : BitVec 3) (knd : BitVec 2) (s : State) : Host.Outcome State Fault Refusal :=
  issue (.vbsc d a b mk knd) (bodyVbsc d a b mk knd) s

/-- MAND (R191). -/
def execMand (d a b : Reg) (s : State) : Host.Outcome State Fault Refusal :=
  issue (.mand d a b) (bodyMask2 (fun x y => x &&& y) d a b) s

/-- MOR (R191). -/
def execMor (d a b : Reg) (s : State) : Host.Outcome State Fault Refusal :=
  issue (.mor d a b) (bodyMask2 (fun x y => x ||| y) d a b) s

/-- MXOR (R191). -/
def execMxor (d a b : Reg) (s : State) : Host.Outcome State Fault Refusal :=
  issue (.mxor d a b) (bodyMask2 (fun x y => x ^^^ y) d a b) s

/-- MNOT (R191). -/
def execMnot (d a : Reg) (s : State) : Host.Outcome State Fault Refusal :=
  issue (.mnot d a) (bodyMask2 (fun x _ => ~~~x) d a a) s

/-- MPOP (R191). -/
def execMpop (d a : Reg) (s : State) : Host.Outcome State Fault Refusal :=
  issue (.mpop d a) (bodyMpop d a) s

/-- MSET (R191). -/
def execMset (d a : Reg) (s : State) : Host.Outcome State Fault Refusal :=
  issue (.mset d a) (bodyMset d a) s

end Machine
end Sys2Proof
end

