-- ==== Sys2Proof/Machine/Matrix.lean ====
section
/-! DEFINITION. The matrix unit: MXQ and MXQT, the kinds of command, completion and faults (11_matrix_unit.md R193 to R211). -/

namespace Sys2Proof
namespace Machine

/-! ## The command (R198 to R203) -/

namespace Cmd

/-- Word `k` of a command. -/
def word (c : Vec) (k : Nat) : W64 := w64 (c.toNat / 2 ^ (64 * k) % 2 ^ 64)

def kind (c : Vec) : Nat := field c 3 0
def acc (c : Vec) : Nat := field c 5 4
def acc2 (c : Vec) : Nat := field c 7 6
def zmask (c : Vec) : Nat := field c 11 8
def zero (c : Vec) : Bool := bitAt c 12
def kb (c : Vec) : Nat := field c 23 16
def opt (c : Vec) : Nat := field c 25 24
def raw (c : Vec) : Bool := bitAt c 24
def dscale (c : Vec) : Bool := bitAt c 25
def soffa (c : Vec) : Nat := field c 47 32
def soffb (c : Vec) : Nat := field c 63 48
def sdest (c : Vec) : W64 := word c 5
def cmpl (c : Vec) : W64 := word c 6
def course (c : Vec) : W64 := word c 7

/-- Operand words: X is operand 0, Y operand 1. -/
def ctl (c : Vec) (o : Nat) : W64 := word c (1 + 2 * o)
def addr (c : Vec) (o : Nat) : W64 := word c (2 + 2 * o)

/-- Completion word. -/
def mode (c : Vec) : Nat := field (cmpl c) 1 0
def cls (c : Vec) : Nat := field (cmpl c) 7 2
def tag (c : Vec) : Nat := field (cmpl c) 31 16

/-- Course delivery word. -/
def courseEn (c : Vec) : Bool := bitAt (course c) 4
def courseIdx (c : Vec) : Nat := field (course c) 3 0
def courseBytes (c : Vec) : Nat := field (course c) 55 32

/-- The command has operand X, operand Y. -/
def hasX (c : Vec) : Bool := decide (kind c ≤ 1 ∨ kind c = 3 ∨ kind c = 4)
def hasY (c : Vec) : Bool := decide (kind c ≤ 1)

/-- An operand's words break R199 or R200. -/
def operandBad (c : Vec) (o : Nat) (has : Bool) : Bool :=
  let w := ctl c o
  if !has then decide (w ≠ 0 ∨ addr c o ≠ 0)
  else
    decide (field w 3 2 ≠ 0 ∨ 2 ≤ field w 1 0)
      || (decide (field w 1 0 = 0) && decide (field w 63 19 ≠ 0 ∨ field (addr c o) 63 18 ≠ 0))

/-- The command breaks R199 or R200, or a reserved field or code is not zero. -/
def bad (c : Vec) : Bool :=
  let k := kind c
  decide (6 ≤ k) || decide (field c 31 26 ≠ 0 ∨ field c 15 13 ≠ 0)
    || decide (field (cmpl c) 63 32 ≠ 0 ∨ field (cmpl c) 15 8 ≠ 0 ∨ mode c = 3)
    || decide (field (course c) 63 56 ≠ 0 ∨ field (course c) 31 5 ≠ 0)
    || (decide (k = 2) && decide (acc c ≠ 0))
    || (decide (k ≠ 5) && decide (acc2 c ≠ 0))
    || (if k = 2 then decide (zmask c = 0) else decide (zmask c ≠ 0))
    || (decide (2 ≤ k) && (zero c || decide (kb c ≠ 0 ∨ soffa c ≠ 0 ∨ soffb c ≠ 0)))
    || (match k with
        | 3 => dscale c
        | 4 => raw c && dscale c
        | 5 => decide (opt c = 3)
        | _ => decide (opt c ≠ 0))
    || operandBad c 0 (hasX c) || operandBad c 1 (hasY c)
    || (!(decide (k = 4) && dscale c) && decide (sdest c ≠ 0))

end Cmd

/-- An operand as it is located (R200). -/
structure Opnd where
  src : Nat
  stride : Nat
  off : Nat
  map : Vec
  cs : List Nat
  bits : Nat
deriving DecidableEq, Repr

/-- Operand `o` of a command with its map and its element size. -/
def opndOf (c : Vec) (o : Nat) (map : Vec) (bits : Nat) : Opnd :=
  let w := Cmd.ctl c o
  { src := field w 1 0, stride := field w 18 4, off := field (Cmd.addr c o) 17 0, map := map
    cs := [field w 18 4, field w 33 19, field w 48 34, field w 63 49], bits := bits }

/-- Place and nibble of element `e` of row `r`; none where the map's edges leave it without a location. -/
def Opnd.spot (o : Opnd) (write : Bool) (r e : Nat) : Option (EngSpot × Nat) :=
  if o.src = 0 then some (.spad (o.off + 16 * o.stride * r + e * o.bits / 8), if o.bits = 4 then e % 2 else 0)
  else
    (elemSpot o.map (fun d => o.cs.getD d 0) (fun d => match d with | 0 => e | 1 => r | _ => 0) write).map fun x =>
      (.mem x.addr, x.nib)

/-! ## MXQ and MXQT (R195 to R197) -/

/-- A format record at a pointer. -/
def readRecord (s : State) (ptr : W64) : Except Stop (State × W32) := do
  aligned ptr 4
  let (s, bs) ← syncRead s ptr 4
  let r : W32 := BitVec.ofNat 32 (leVal bs)
  require (!fmIll r) (trapAt Cause.format ptr)
  .ok (s, r)

/-- A record that a command names, or zero. -/
def readNamed (s : State) (named : Bool) (ptr : W64) : Except Stop (State × W32) :=
  if named then readRecord s ptr else .ok (s, 0)

/-- The first byte of a scratchpad operand at or beyond the scratchpad's size. -/
def firstBeyond (o : Opnd) (n size : Nat) : Nat :=
  let last (r : Nat) : Nat := o.off + 16 * o.stride * r + n * o.bits / 8 - 1
  match (upto 32).find? fun r => decide (size ≤ last r) with
  | some r => Nat.max size (o.off + 16 * o.stride * r)
  | none => size

/-- The check of an operand with `n` elements a row of a format: its map is read where it has one. -/
def checkOperand (s : State) (c : Vec) (o n code : Nat) : Except Stop (State × Vec) := do
  let bits := ((fmtOf? code).map Fmt.bits).getD 32
  let x := opndOf c o 0 bits
  let a := Cmd.addr c o
  if x.src = 0 then
    let size := s.spadSize s.curCore
    require (decide (x.off % 16 = 0 ∧ x.stride ≠ 0)) (trapAt Cause.align (w64 (0xFFFE * 2 ^ 48 + x.off)))
    require (decide (x.off + 16 * x.stride * 31 + n * bits / 8 ≤ size))
      (trapAt Cause.translate (w64 (0xFFFE * 2 ^ 48 + firstBeyond x n size)))
    .ok (s, 0)
  else
    aligned a 64
    let (s, bs) ← syncRead s a 64
    let m := vecOf bs
    require (!tmIll m && decide (tmRank m ≠ 0 ∧ tmBrick m 1 = 32 ∧ tmFmt m = code)) (trapAt Cause.format a)
    require (decide (tmBase m / 2 ^ 48 = 0)) (trapAt Cause.permission a)
    .ok (s, m)

/-- The place field of a scale pointer is the own space or partition memory. -/
def checkScale (read : Bool) (a : W64) : Except Stop Unit :=
  require (!read || decide (field a 63 48 = 0 ∨ field a 63 48 = 0xFFFE)) (trapAt Cause.permission a)

/-- The task that owns a queue entry waits in an MXQ, or issues one now. -/
def ownerWaits (s : State) (e : MxEntry) : Bool :=
  e.slot == s.curSlot || (s.slot s.curCore e.slot).wait == .mxq

/-- The slot whose MXQ traps ENGQ in a queue that can never empty (R196 case 2). -/
def mxVictim (s : State) : Option Nat :=
  let own := ((s.core s.curCore).mxq.filter fun e => !e.zeroing).map (·.slot)
  let live := own.filter fun n => (s.slot s.curCore n).repl
  let pool := if live.isEmpty then own else live
  pool.foldl (fun best n =>
    match best with
    | none => some n
    | some b => if (s.slot s.curCore b).task < (s.slot s.curCore n).task then some n else some b) none

/-- R196: a full queue traps ENGQ or makes MXQ wait. An entry that this cycle freed is there in the next (R195). -/
def mxFull (s : State) : Except Stop Unit :=
  let q := (s.core s.curCore).mxq.filter fun e => !e.zeroing
  if (s.core s.curCore).mxFreed ≠ 0 then .error (.hold .mxq)
  else if q.all fun e => !e.released && e.slot == s.curSlot && e.task == s.cur.task then trapBits Cause.engq
  else if (q.all fun e => !e.released && ownerWaits s e) && mxVictim s == some s.curSlot then trapBits Cause.engq
  else .error (.hold .mxq)

/-- Effective element code of a record. -/
def recCode (r : W32) : Nat := fmElem r + 8 * fmInf r

/-- MXQ and MXQT: the checks, and the command queued (true) or busy (false). -/
def queueMatrix (s : State) (c : Vec) (tryOnly : Bool) : Except Stop (State × Bool) := do
  let k := Cmd.kind c
  let t := s.cur
  let mm := decide (k ≤ 1)
  let needC := decide (k = 3 ∨ k = 4) && !Cmd.raw c
  require (decide (indexOf s.curCore ≠ 8) && !Cmd.bad c) (trapBits Cause.illegal)
  let (s, ra) ← readNamed s mm t.regs.fmta
  let (s, rb) ← readNamed s mm t.regs.fmtb
  let (s, rc) ← readNamed s needC t.regs.fmtc
  require (!mm || fmBlock ra == fmBlock rb) (trapAt Cause.format t.regs.fmtb)
  require (!(Cmd.dscale c && decide (k = 4) && decide (fmScale rc = 2))) (trapAt Cause.format t.regs.fmtc)
  let n := if mm then (Cmd.kb c + 1) * fmBlockLen ra else 32
  let codeX := if mm then recCode ra else if needC then recCode rc else 0x2A
  let (s, mx) ← if Cmd.hasX c then checkOperand s c 0 n codeX else .ok (s, 0)
  let (s, my) ← if Cmd.hasY c then checkOperand s c 1 n (recCode rb) else .ok (s, 0)
  checkScale (mm && decide (fmScale ra ≠ 2)) t.regs.scla
  checkScale (mm && decide (fmScale rb ≠ 2)) t.regs.sclb
  checkScale (decide (k = 4) && Cmd.dscale c) (Cmd.sdest c)
  if 8 ≤ (s.core s.curCore).mxOcc + (s.core s.curCore).mxFreed then
    if tryOnly then .ok (s, false)
    else
      mxFull s
      .ok (s, false)
  else
    let (uid, s) := s.nextReq s.curCore
    let s ← addEntry s 0 (.spad 0 0) .weak .core (.mxRelease uid)
    let (words, s) := if k = 4 ∧ needC = true then drawWords s (fmRound rc) 1024 else ([], s)
    let e : MxEntry := {
      uid := uid, slot := s.curSlot, task := t.task, launch := t.launch, prio := (t.msg.map (·.prio)).getD 0, cmd := c
      recA := ra, recB := rb, recC := rc, scla := t.regs.scla, sclb := t.regs.sclb, mapX := mx, mapY := my, words := words
      start := if t.launch == (s.core s.curCore).image then (s.core s.curCore).mxStart else 0
      parity := if Cmd.courseEn c then s.courseParity s.curCore s.curSlot (Cmd.courseIdx c) else 0 }
    .ok (s.modCore s.curCore fun k => { k with mxq := k.mxq ++ [e] }, true)

/-- MXQ. -/
def bodyMxq (a : Reg) (s : State) : Effect := do
  let (s, _) ← queueMatrix s (readV s a) false
  .ok (s, .seq)

/-- MXQT. -/
def bodyMxqt (d a : Reg) (la : BitVec 4) (s : State) : Effect := do
  let (s, ok) ← queueMatrix s (readV s a) true
  .ok (laterG s la.toNat [d.toNat] [if ok then 0 else 1], .seq)

/-- MATRIX_QUEUE_WAIT_END (R196): a waiting MXQ issues again, as an entry has freed, or traps where its queue can never empty. -/
def State.mxWaitEnd (s : State) (c n : Nat) : State :=
  s.reissue c n (fun w => w == .mxq) fun j => match j with | .mxq a => some (bodyMxq a) | _ => none

/-! ## Accumulators (R193) -/

/-- Element (i, j) of an accumulator. -/
def accKey (a i j : Nat) : Nat := 1024 * a + 32 * i + j
def Core.accAt (k : Core) (a i j : Nat) : W32 := Tbl.find 0 k.acc (accKey a i j)

/-- The places of a tile. -/
def tilePlaces : List (Nat × Nat) := (upto 32).flatMap fun i => (upto 32).map fun j => (i, j)

/-- An accumulator with every element computed. -/
def Core.setAcc (k : Core) (a : Nat) (f : Nat → Nat → W32) : Core :=
  { k with acc := tilePlaces.foldl (fun m e => Tbl.put 0 m (accKey a e.1 e.2) (f e.1 e.2)) k.acc }

/-! ## Operands (R200, R201) -/

/-- What a command uses to reach memory: core, partition, its number, whether its fill was failed. -/
structure Via where
  c : Nat
  p : Nat
  uid : Nat
  failed : Bool
deriving DecidableEq, Repr

/-- The code of an element of an operand. -/
def readElem (v : Via) (f : Lines) (o : Opnd) (r e : Nat) : Except EngErr (Lines × Nat) :=
  match o.spot false r e with
  | none => .ok (f, 0)
  | some (.spad off, nib) =>
    let x := leVal ((f.s.core v.c).spadBytes off (Nat.max 1 (o.bits / 8)))
    .ok (f, x / 16 ^ nib % 2 ^ o.bits)
  | some (.mem ea, nib) => do
    let (f, x) ← fetchNum v.c v.p v.uid v.failed (Nat.max 1 (o.bits / 8)) f ea
    .ok (f, x / 16 ^ nib % 2 ^ o.bits)

/-- Elements of a row from one on. -/
def readRow (v : Via) (o : Opnd) (fmt : Fmt) (r : Nat) : List Nat → Lines → Except EngErr (Lines × List Val)
  | [], f => .ok (f, [])
  | e :: es, f => do
    let (f, x) ← readElem v f o r e
    let (f, l) ← readRow v o fmt r es f
    .ok (f, decodeVal fmt x :: l)

/-- Rows of an operand over a range of elements. -/
def readRows (v : Via) (o : Opnd) (fmt : Fmt) (es : List Nat) : List Nat → Lines → Except EngErr (Lines × List (List Val))
  | [], f => .ok (f, [])
  | r :: rs, f => do
    let (f, x) ← readRow v o fmt r es f
    let (f, l) ← readRows v o fmt es rs f
    .ok (f, x :: l)

/-- A scale byte: from the own scratchpad, or from partition memory. -/
def readScale (v : Via) (f : Lines) (ea : W64) : Except EngErr (Lines × Nat) :=
  if field ea 63 48 = 0xFFFE then
    let off := field ea 47 0
    if off < f.s.spadSize v.c then .ok (f, (Tbl.find 0 (f.s.core v.c).spad off).toNat) else .error (.bad Cause.translate ea)
  else fetchByte v.c v.p v.uid v.failed f ea

/-- The 32 scales of a block. -/
def readScales (v : Via) (sf : Nat) (base : W64) : List Nat → Lines → Except EngErr (Lines × List Val)
  | [], f => .ok (f, [])
  | i :: r, f => do
    let (f, x) ← if sf = 2 then .ok (f, 0) else readScale v f (base + w64 i)
    let (f, l) ← readScales v sf base r f
    .ok (f, scaleVal sf x :: l)

/-! ## MMA and MMAS (R172, R173, R204, R205) -/

/-- The sum of one block for one element, rounded to f32: an exact zero gives +0. -/
def blockSum (a b : List Val) (sa sb : Val) : W32 :=
  let z := (a.zip b).foldl (fun (t : Val) e => addVal 0 t (mulVal e.1 e.2)) (.fin false 0 0)
  match mulVal (mulVal z sa) sb with
  | .fin _ 0 _ => 0
  | x => enc32 0 0 x

/-- One block added into an accumulator. -/
def addBlock (k : Core) (acc : Nat) (a b : List (List Val)) (sa sb : List Val) : Core :=
  k.setAcc acc fun i j =>
    f32add (k.accAt acc i j) (blockSum (a.getD i []) (b.getD j []) (sa.getD i .nan) (sb.getD j .nan))

/-- Block `pa` of A and block `pb` of B are fetched and added; the lines of the blocks before are consumed (R209 item 1). -/
def doBlock (v : Via) (e : MxEntry) (pa pb : Nat) (f : Lines) : Except EngErr Lines := do
  let n := fmBlockLen e.recA
  let fa := (fmFmt? e.recA).getD f32
  let fb := (fmFmt? e.recB).getD f32
  let es (b : Nat) : List Nat := (upto n).map (n * b + ·)
  let f : Lines := { f with held := [] }
  let (f, a) ← readRows v (opndOf e.cmd 0 e.mapX fa.bits) fa (es pa) (upto 32) f
  let (f, b) ← readRows v (opndOf e.cmd 1 e.mapY fb.bits) fb (es pb) (upto 32) f
  let (f, sa) ← readScales v (fmScale e.recA) (e.scla + w64 (32 * (Cmd.soffa e.cmd + pa))) (upto 32) f
  let (f, sb) ← readScales v (fmScale e.recB) (e.sclb + w64 (32 * (Cmd.soffb e.cmd + pb))) (upto 32) f
  .ok { f with s := f.s.modCore v.c fun k => addBlock k (Cmd.acc e.cmd) a b sa sb }

/-- What a command came to: the state, its status, the failed address and the blocks completed; or a request of it is parked. -/
inductive MxEnd where
  | done (s : State) (status : Nat) (bad : W64) (blocks : Nat)
  | parked (w : EngWait)
  | shut
deriving DecidableEq, Repr

/-- STATUS of a cause (R210). -/
def statusOf (cause : Nat) : Nat := if cause = Cause.permission then 2 else if cause = Cause.ecc then 3 else 1

/-- Blocks `b` on of MMA, `n` of them. -/
def mmaBlocks (v : Via) (e : MxEntry) : Nat → Nat → Lines → MxEnd
  | 0, b, f => .done f.s 0 0 b
  | n + 1, b, f =>
    match doBlock v e b b f with
    | .ok f => mmaBlocks v e n (b + 1) f
    | .error (.bad cause a) => .done f.s (statusOf cause) a b
    | .error (.parked w) => .parked w
    | .error .shut => .shut

/-- Fields of SKIP (R206). -/
def skAddr (w : W64) : Nat := field w 17 0
def skPart (w : W64) : Nat := field w 18 18
def skDone (w : W64) : Nat := field w 26 19
def skWord (addr part done : Nat) : W64 := w64 (addr % 2 ^ 18 + part % 2 * 2 ^ 18 + done % 256 * 2 ^ 19)

/-- NextDecision() over the list in the scratchpad (R205): skip (false) or keep (true), none where it stops with STATUS 4; and
SKIP after it. -/
def nextDecision (k : Core) (size : Nat) : Nat → Nat → Nat → Nat → Option Bool × W64
  | 0, addr, part, done => (none, skWord addr part done)
  | fuel + 1, addr, part, done =>
    if size ≤ addr + 1 then (none, skWord addr part done)
    else
      let sk := (Tbl.find 0 k.spad addr).toNat
      let kp := (Tbl.find 0 k.spad (addr + 1)).toNat
      if sk = 0 ∧ kp = 0 then (none, skWord addr part done)
      else if done < (if part = 0 then sk else kp) then (some (decide (part = 1)), skWord addr part (done + 1))
      else if part = 0 then nextDecision k size fuel addr 1 0
      else nextDecision k size fuel (addr + 2) 0 0

/-- The next decision of a core's stream. -/
def State.skipDecision (s : State) (c : Nat) : Option Bool × State :=
  let k := s.core c
  let size := s.spadSize c
  let (d, w) := nextDecision k size (size + 2) (skAddr k.skip) (skPart k.skip) (skDone k.skip)
  (d, s.setCore c { k with skip := w })

/-- Blocks of MMAS: `n` left, block `b` of B, packed block `p` of A. -/
def mmasBlocks (v : Via) (e : MxEntry) : Nat → Nat → Nat → Lines → MxEnd
  | 0, b, _, f => .done f.s 0 0 b
  | n + 1, b, p, f =>
    match f.s.skipDecision v.c with
    | (none, s) => .done s 4 0 b
    | (some false, s) => mmasBlocks v e n (b + 1) p { f with s := s }
    | (some true, s) =>
      match doBlock v e p b { f with s := s } with
      | .ok f => mmasBlocks v e n (b + 1) (p + 1) f
      | .error (.bad cause a) => .done s (statusOf cause) a b
      | .error (.parked w) => .parked w
      | .error .shut => .shut

/-- ZERO = 1 starts the sum from +0. -/
def State.zeroFirst (s : State) (c : Nat) (cmd : Vec) : State :=
  if Cmd.zero cmd then s.modCore c fun k => k.setAcc (Cmd.acc cmd) fun _ _ => 0 else s

/-- MMA (R204). -/
def runMma (v : Via) (e : MxEntry) (s : State) : MxEnd :=
  mmaBlocks v e (Cmd.kb e.cmd + 1) 0 ⟨s.zeroFirst v.c e.cmd, e.got, []⟩

/-- MMAS (R205). -/
def runMmas (v : Via) (e : MxEntry) (s : State) : MxEnd :=
  mmasBlocks v e (Cmd.kb e.cmd + 1) 0 0 ⟨s.zeroFirst v.c e.cmd, e.got, []⟩

/-! ## ACCZ, ACCL, ACCS, ACCM (R207, R208) -/

/-- ACCZ. -/
def runAccz (v : Via) (e : MxEntry) (s : State) : MxEnd :=
  .done (s.modCore v.c fun k => (upto 4).foldl (fun k a =>
    if Cmd.zmask e.cmd / 2 ^ a % 2 = 1 then k.setAcc a fun _ _ => 0 else k) k) 0 0 0

/-- The format of C. -/
def cFmt (e : MxEntry) : Fmt := if Cmd.raw e.cmd then f32 else (fmFmt? e.recC).getD f32

/-- ACCL. -/
def runAccl (v : Via) (e : MxEntry) (s : State) : MxEnd :=
  let fmt := cFmt e
  match readRows v (opndOf e.cmd 0 e.mapX fmt.bits) fmt (upto 32) (upto 32) ⟨s, e.got, []⟩ with
  | .ok (f, rows) =>
    .done (f.s.modCore v.c fun k => k.setAcc (Cmd.acc e.cmd) fun i j => enc32 0 0 ((rows.getD i []).getD j .nan)) 0 0 0
  | .error (.bad cause a) => .done s (statusOf cause) a 0
  | .error (.parked w) => .parked w
  | .error .shut => .shut

/-- The nibble-masked bytes of an element's code. -/
def elemBytes (bits nib x : Nat) : List NibByte :=
  if bits = 4 then [⟨0, BitVec.ofNat 8 (x % 16 * 16 ^ nib), decide (nib = 0), decide (nib = 1)⟩]
  else fullBytes (leBytes (bits / 8) x)

/-- A byte of an ACCS's writes: where it goes, and the byte. -/
abbrev AccWrite := EngSpot × NibByte

/-- Writes of some bytes at a place. -/
def spotWrites : EngSpot → List NibByte → List AccWrite
  | .spad off, bs => bs.map fun b => (.spad (off + b.pos), { b with pos := 0 })
  | .mem ea, bs => bs.map fun b => (.mem (ea + w64 b.pos), { b with pos := 0 })

/-- The scale code of a block of a row and its value; no scale is 1. -/
def accScale (k : Core) (e : MxEntry) (i b : Nat) : Nat × Val :=
  if Cmd.dscale e.cmd then
    let n := fmBlockLen e.recC
    let code := scaleFor ((upto n).map fun j => dec32 (k.accAt (Cmd.acc e.cmd) i (n * b + j))) (cFmt e) (fmScale e.recC)
    (code, scaleVal (fmScale e.recC) code)
  else (0, powVal 0)

/-- The code of C(i, j). -/
def accCode (k : Core) (e : MxEntry) (i j : Nat) : Nat :=
  let x := k.accAt (Cmd.acc e.cmd) i j
  if Cmd.raw e.cmd then x.toNat
  else
    let sc := (accScale k e i (j / fmBlockLen e.recC)).2
    let word := e.words.getD (32 * i + j) 0
    if Cmd.dscale e.cmd then roundScaled (cFmt e) (fmRound e.recC) (fmSat e.recC) word (dec32 x) sc
    else roundTo (cFmt e) (fmRound e.recC) (fmSat e.recC) word (dec32 x)

/-- A byte address that scales are written to, as a place of the unit. -/
def scaleSpot (ea : W64) : EngSpot := if field ea 63 48 = 0xFFFE then .spad (field ea 47 0) else .mem ea

/-- Every write of an ACCS in the order of R208: row by row and block by block, the block's derived scale and then its elements. -/
def accsWrites (k : Core) (e : MxEntry) : List AccWrite :=
  let o := opndOf e.cmd 0 e.mapX (cFmt e).bits
  let n := if Cmd.raw e.cmd then 32 else fmBlockLen e.recC
  (upto 32).flatMap fun i => (upto (32 / n)).flatMap fun b =>
    (if Cmd.dscale e.cmd then
        spotWrites (scaleSpot (Cmd.sdest e.cmd + w64 (32 * b + i))) (fullBytes [BitVec.ofNat 8 (accScale k e i b).1])
      else [])
    ++ (upto n).flatMap fun j =>
      match o.spot true i (n * b + j) with
      | none => []
      | some (p, nib) => spotWrites p (elemBytes o.bits nib (accCode k e i (n * b + j)))

/-- The writes of an ACCS are made: first translated, then performed; a fault leaves a subset of them made. -/
def State.accWriteAll (s : State) (v : Via) (l : List AccWrite) : Except EngErr State :=
  match l.find? fun w => match w.1 with | .spad off => decide (s.spadSize v.c ≤ off) | .mem _ => false with
  | some (.spad off, _) => .error (.bad Cause.translate (w64 (0xFFFE * 2 ^ 48 + off)))
  | _ =>
    let mem := l.filterMap fun w => match w.1 with | .mem ea => some (ea, w.2) | .spad _ => none
    match writeLines v.c v.p v.failed s mem with
    | .error e => .error e
    | .ok s => .ok (l.foldl (fun s w => match w.1 with
        | .spad off => s.modCore v.c fun k => k.spadMerge off [w.2]
        | .mem _ => s) s)

/-- A single write of a failed ACCS, where it is possible. -/
def State.tryWrite (s : State) (v : Via) (w : AccWrite) : State :=
  match s.accWriteAll v [w] with
  | .ok s => s
  | .error _ => s

/-- ACCS. -/
def runAccs (v : Via) (e : MxEntry) (s : State) : MxEnd :=
  let l := accsWrites (s.core v.c) e
  match s.accWriteAll v l with
  | .ok s => .done s 0 0 0
  | .error (.bad cause a) =>
    let (f, s) := s.nextFree
    let some_ := (l.zipIdx.filter fun w => Config.subsetPick f w.2).map (·.1)
    .done (some_.foldl (fun s w => s.tryWrite v w) s) (statusOf cause) a 0
  | .error (.parked w) => .parked w
  | .error .shut => .shut

/-- ACCM: copy, add, transpose. -/
def runAccm (f : Core → Nat → Nat → Nat → Nat → W32) (v : Via) (e : MxEntry) (s : State) : MxEnd :=
  .done (s.modCore v.c fun k => k.setAcc (Cmd.acc e.cmd) fun i j => f k (Cmd.acc e.cmd) (Cmd.acc2 e.cmd) i j) 0 0 0

/-! ## Execution (R195, R211) -/

/-- The command that the unit executes next: released, behind its task's writes and what an FNC.ss that was drained before it waits for (08
R136), past the stagger of its launch (03 R55), on a unit that runs; one that has begun is completed under a debug halt (R194 case 5). -/
def State.mxNext? (s : State) (c : Nat) : Option MxEntry :=
  let k := s.core c
  match k.mxq.head? with
  | none => none
  | some e =>
    let waits := k.flight.any fun f => f.e.task == e.task && (f.e.writes || f.e.fenceSs) && decide (f.e.id < e.after)
    if e.released && !e.finished && !e.parked && (e.begun || !k.halted) && k.mxHeld.isNone && !waits
        && decide (e.start ≤ s.time) then some e
    else none

/-- The head of the queue changed. -/
def State.modMxHead (s : State) (c : Nat) (f : MxEntry → MxEntry) : State :=
  s.modCore c fun k => { k with mxq := match k.mxq with | e :: r => f e :: r | [] => [] }

/-- A copy on write that the writes of the head command wait for begins. -/
def State.mxCow (s : State) (v : Via) (e : MxEntry) : State :=
  if Cmd.kind e.cmd = 4 then
    s.cowFor v.c v.p ((accsWrites (s.core v.c) e).filterMap fun w => match w.1 with | .mem ea => some ea | .spad _ => none)
  else s

/-- The lines of a command that waits at the memory side are pinned until it has consumed them (R209 items 1 to 3). DESIGN CHOICE (log entry
15): of one that waits for a page to move, they count as consumed, so that a pin wait always ends. -/
def State.mxPins (s : State) (c uid : Nat) (w : EngWait) : State :=
  let moves := match w.loc with | .hbm p _ _ gpa => (s.part p).moves gpa | _ => false
  s.modCore c fun k => { k with pins := (k.pins.filter fun q => q.uid != uid) ++ if moves then [] else w.held }

/-- A command of a kind executes, when it is the next; while it waits at the memory side nothing of it is done but the fetch of the lines
before. -/
def State.runMatrix (s : State) (c : Nat) (sel : Vec → Bool) (run : Via → MxEntry → State → MxEnd) : State :=
  match s.mxNext? c, s.corePart? c with
  | some e, some p =>
    if e.zeroing || !sel e.cmd then s
    else
      let v : Via := ⟨c, p, e.uid, e.fillFailed⟩
      match run v e s with
      | .done t status bad blocks =>
        (t.modMxHead c fun e => { e with
          finished := true, status := status, bad := bad, blocks := blocks, refused := none, got := [] }).mxPins c e.uid { loc := .spad c 0 }
      | .shut => s
      | .parked w =>
        (s.mxCow v e).parkEngine c .matrix e.uid 128 w fun s b r => (s.modMxHead c fun e => { e with
          parked := b, refused := r, begun := true, got := w.got }).mxPins c e.uid w
  | _, _ => s

/-- The next command of a core's unit executes, of whatever kind it is. -/
def State.runAnyMatrix (s : State) (c : Nat) : State :=
  match s.mxNext? c with
  | none => s
  | some e =>
    match Cmd.kind e.cmd with
    | 0 => s.runMatrix c (fun _ => true) runMma
    | 1 => s.runMatrix c (fun _ => true) runMmas
    | 3 => s.runMatrix c (fun _ => true) runAccl
    | 4 => s.runMatrix c (fun _ => true) runAccs
    | _ => s

/-- ACCUMULATOR_ZEROING (R194): the zeroing of a release, behind the commands released before it. -/
def State.zeroAccs (s : State) (c : Nat) : State :=
  match (s.core c).mxq with
  | e :: r => if e.zeroing && e.released then s.modCore c fun k => { k with acc := [], mxq := r } else s
  | [] => s

/-! ## Completion (R202, R203, R210) -/

/-- Completion record of a command. -/
def mxRecord (e : MxEntry) : CRec where
  w0 := recWord0 2 e.status (Cmd.tag e.cmd) e.num
  w1 := Cmd.word e.cmd 0
  w2 := w64 e.blocks
  w3 := e.bad

/-- MATRIX_COMPLETION: the finished command at the head reports, delivers its course bytes and frees its entry; a failed one
sends its record to the supervisor. -/
def State.mxComplete (s : State) (c : Nat) : State :=
  match (s.core c).mxq with
  | e :: r =>
    if !e.finished || s.engineHeld c 1 then s
    else
      let s := s.modCore c fun k => { k with mxq := r, mxFreed := k.mxFreed + 1 }
      let cause := if e.status = 2 then Cause.permission else if e.status = 3 then Cause.ecc else Cause.translate
      let s := if e.status = 1 ∨ e.status = 2 ∨ e.status = 3 then
          s.report c { reportRec cause 0 0 (s.placeWord c) e.bad (w64 e.num) with engine := 1 } else s
      let s := if e.status = 0 && Cmd.courseEn e.cmd then
          s.deliverCourse (clusterOf c) (Cmd.courseIdx e.cmd) e.parity (Cmd.courseBytes e.cmd) c else s
      let rep : Report := ⟨decide (Cmd.mode e.cmd = 2), Cmd.cls e.cmd, mxRecord e, e.launch, e.prio⟩
      if Cmd.mode e.cmd = 0 then s
      else
        match s.giveReport c rep with
        | some s => s
        | none => s.modCore c fun k => { k with mxHeld := some rep }
  | [] => s

/-- ENGINE_REPORT_UNBLOCK: reports that an engine holds are given once there is room, the matrix unit's and then the copy
engine's oldest. -/
def State.unblockReports (s : State) (c : Nat) : State :=
  let s :=
    match (s.core c).mxHeld with
    | none => s
    | some r =>
      match s.giveReport c r with
      | some s => s.modCore c fun k => { k with mxHeld := none }
      | none => s
  match (if s.engineHeld c 2 then [] else (s.core c).cpHeld) with
  | [] => s
  | r :: rest =>
    match s.giveReport c r with
    | some s => s.modCore c fun k => { k with cpHeld := rest }
    | none => s

/-! ## Meanings -/

/-- MXQ (R197). -/
def execMxq (a : Reg) (s : State) : Host.Outcome State Fault Refusal := issue (.mxq a) (bodyMxq a) s

/-- MXQT (R197). -/
def execMxqt (d a : Reg) (la : BitVec 4) (s : State) : Host.Outcome State Fault Refusal :=
  issue (.mxqt d a la) (bodyMxqt d a la) s

/-- MMA (R204). -/
def execMma (core : Nat) (s : State) : Host.Outcome State Fault Refusal :=
  event (fun s => s.runMatrix core (fun c => Cmd.kind c == 0) runMma) s

/-- MMAS (R205). -/
def execMmas (core : Nat) (s : State) : Host.Outcome State Fault Refusal :=
  event (fun s => s.runMatrix core (fun c => Cmd.kind c == 1) runMmas) s

/-- ACCZ (R207). -/
def execAccz (core : Nat) (s : State) : Host.Outcome State Fault Refusal :=
  event (fun s => s.runMatrix core (fun c => Cmd.kind c == 2) runAccz) s

/-- ACCL (R207). -/
def execAccl (core : Nat) (s : State) : Host.Outcome State Fault Refusal :=
  event (fun s => s.runMatrix core (fun c => Cmd.kind c == 3) runAccl) s

/-- ACCS (R208). -/
def execAccs (core : Nat) (s : State) : Host.Outcome State Fault Refusal :=
  event (fun s => s.runMatrix core (fun c => Cmd.kind c == 4) runAccs) s

/-- ACCM_COPY (R207). -/
def execAccmCopy (core : Nat) (s : State) : Host.Outcome State Fault Refusal :=
  event (fun s => s.runMatrix core (fun c => Cmd.kind c == 5 && Cmd.opt c == 0) (runAccm fun k _ b i j => k.accAt b i j)) s

/-- ACCM_ADD (R207). -/
def execAccmAdd (core : Nat) (s : State) : Host.Outcome State Fault Refusal :=
  event (fun s => s.runMatrix core (fun c => Cmd.kind c == 5 && Cmd.opt c == 1)
    (runAccm fun k a b i j => f32add (k.accAt a i j) (k.accAt b i j))) s

/-- ACCM_TRANSPOSE (R207). -/
def execAccmTranspose (core : Nat) (s : State) : Host.Outcome State Fault Refusal :=
  event (fun s => s.runMatrix core (fun c => Cmd.kind c == 5 && Cmd.opt c == 2) (runAccm fun k _ b i j => k.accAt b j i)) s

/-- MATRIX_COMPLETION (R210). -/
def execMatrixCompletion (core : Nat) (s : State) : Host.Outcome State Fault Refusal := event (fun s => s.mxComplete core) s

/-- MATRIX_QUEUE_WAIT_END (R196). -/
def execMatrixQueueWaitEnd (core slot : Nat) (s : State) : Host.Outcome State Fault Refusal :=
  event (fun s => s.mxWaitEnd core slot) s

/-- ENGINE_REPORT_UNBLOCK (R202, 12_copy_engine.md R222). -/
def execEngineReportUnblock (core : Nat) (s : State) : Host.Outcome State Fault Refusal :=
  event (fun s => s.unblockReports core) s

/-- ACCUMULATOR_ZEROING (R194). -/
def execAccumulatorZeroing (core : Nat) (s : State) : Host.Outcome State Fault Refusal := event (fun s => s.zeroAccs core) s

end Machine
end Sys2Proof
end

