-- ==== Sys2Proof/Machine/Boot.lean ====
section
/-! DEFINITION. Bring-up, recovery, attestation and frequency (25_bring_up.md R347 to R355). -/

namespace Sys2Proof
namespace Machine

/-! ## The image set (R348, R349) -/

/-- The bytes of a manifest entry, little-endian. -/
def ManifestEntry.toBytes (e : ManifestEntry) : List Byte :=
  [e.id, e.version] ++ leBytes 6 e.reservedLo.toNat ++ leBytes 4 e.offset.toNat ++ leBytes 4 e.length.toNat ++ leBytes 16 e.reservedHi.toNat
    ++ leBytes 32 e.digest.toNat

/-- The manifest entry that 64 bytes are. -/
def entryOf (bs : List Byte) : ManifestEntry where
  id := bs.headD 0
  version := (bs.drop 1).headD 0
  reservedLo := BitVec.ofNat 48 (leVal ((bs.drop 2).take 6))
  offset := BitVec.ofNat 32 (leVal ((bs.drop 8).take 4))
  length := BitVec.ofNat 32 (leVal ((bs.drop 12).take 4))
  reservedHi := BitVec.ofNat 128 (leVal ((bs.drop 16).take 16))
  digest := BitVec.ofNat 256 (leVal ((bs.drop 32).take 32))

/-- The entries at the start of a flash, up to the one whose ID of 0 ends the manifest, at most `fuel` of them; and the manifest's size in
entries, the last one among them. DESIGN CHOICE (log entry 20): the entry that ends the manifest is part of it, and the signature follows it;
16 entries need none. -/
def readEntries : Nat → List Byte → List ManifestEntry × Nat
  | 0, _ => ([], 0)
  | fuel + 1, bs =>
    let e := entryOf (bs.take 64)
    if e.id = 0 then ([], 1)
    else
      let (l, n) := readEntries fuel (bs.drop 64)
      (e :: l, n + 1)

/-- Bytes of an XMSS signature: index, randomiser, chains, authentication path (R348). -/
def signatureSize : Nat := 4 + 32 + 67 * 32 + 20 * 32

/-- The parts of a set as they follow one another in the flash: entries, the bytes of the manifest, the signature. -/
def setManifest (k : ImageSet) : List ManifestEntry := (readEntries 16 k.bytes).1
def setManifestBytes (k : ImageSet) : List Byte := k.bytes.take (64 * (readEntries 16 k.bytes).2)
def setSignature (k : ImageSet) : List Byte := (k.bytes.drop (64 * (readEntries 16 k.bytes).2)).take signatureSize

/-- The image of an entry. -/
def setImage (k : ImageSet) (e : ManifestEntry) : List Byte := (k.bytes.drop e.offset.toNat).take e.length.toNat

/-- The entry that ends the manifest, where there is one, has its reserved fields zero (R349 case 2). -/
def endGood (k : ImageSet) : Bool :=
  let n := (setManifest k).length
  decide ((readEntries 16 k.bytes).2 = n)
    || decide ((entryOf ((k.bytes.drop (64 * n)).take 64)).reservedHi = 0 ∧ (entryOf ((k.bytes.drop (64 * n)).take 64)).reservedLo = 0)

/-- The IDs of the management cores' images. -/
def imageIds : List Nat := [1, 2, 3, 4]

/-- The manifest passes R349: signature, IDs, reserved fields (those of the entry that ends it among them), lengths, minimum versions. -/
def manifestGood (fuses : Tbl Nat) (set : ImageSet) : Bool :=
  Config.xmssVerify Config.romKeyDigest (setManifestBytes set) (setSignature set)
    && endGood set
    && ((setManifest set).all fun e => imageIds.contains e.id.toNat && decide (e.reservedHi = 0 ∧ e.reservedLo = 0)
      && decide (1 ≤ e.length.toNat ∧ e.length.toNat ≤ 2 ^ 24))
    && (imageIds.all fun i => decide (((setManifest set).filter fun e => e.id.toNat == i).length = 1))
    && ((setManifest set).all fun e => decide (Tbl.find 0 fuses e.id.toNat ≤ e.version.toNat))

/-- Every image's digest is that of its entry (R349 case 3). -/
def imagesGood (set : ImageSet) : Bool :=
  (setManifest set).all fun e =>
    decide (e.offset.toNat + e.length.toNat ≤ set.bytes.length) && Config.shake256 (setImage set e) == e.digest

/-- The keystone core accepts the set. -/
def setGood (fuses : Tbl Nat) (set : ImageSet) : Bool := manifestGood fuses set && imagesGood set

/-! ## Quotes (R352, R353) -/

/-- One-time indices of the identity key, and of a block. -/
def quoteLimit : Nat := 2 ^ 20
def quoteBlock : Nat := 256

/-- The body of a quote. -/
def quoteBody (k : Platform) (devId index : Nat) (nonce : BitVec 256) : List Byte :=
  leBytes 32 nonce.toNat ++ leBytes 32 k.manifestDigest.toNat ++ imageIds.flatMap (fun i => leBytes 1 (Tbl.find 0 k.fuses i))
    ++ leBytes 3 (devId % 2 ^ 18) ++ leBytes 1 (if k.stage = .recovery then 2 else 1) ++ leBytes 4 index

/-- A new block of indices is reserved when the current one is used up. -/
def Platform.reserve (k : Platform) : Platform :=
  if k.quoteNext < k.quoteEnd then k
  else { k with quoteCounter := k.quoteCounter + quoteBlock, quoteNext := k.quoteCounter, quoteEnd := k.quoteCounter + quoteBlock }

/-- A quote, or the refusal once the counter has reached its limit. -/
def Platform.giveQuote (k : Platform) (devId : Nat) (nonce : BitVec 256) : Platform :=
  if quoteLimit ≤ k.quoteCounter then { k with quote := none, exhausted := true }
  else
    let k := k.reserve
    let body := quoteBody k devId k.quoteNext nonce
    { k with quote := some (body, Config.xmssSign k.quoteNext body), quoteNext := k.quoteNext + 1 }

/-- ATTESTATION_REQUEST: answered while the keystone core runs and its set has been judged. -/
def Platform.attest (k : Platform) (devId : Nat) (nonce : BitVec 256) : Platform :=
  if k.stage = .off ∨ k.stage = .verifying then k else k.giveQuote devId nonce

/-! ## Stages (R347, R350, R351) -/

/-- A recovery request is sent: the digest of the identity's public key, and an attestation of the failed state (R351). -/
def Platform.askRecovery (k : Platform) (devId time : Nat) : Platform :=
  let k := k.giveQuote devId (Config.recoveryNonce k.recoveryRequests)
  { k with recoveryRequests := k.recoveryRequests + 1, askedAt := time, answered := false
           request := some (Config.identityDigest, (k.quote.map (·.1)).getD [], (k.quote.map (·.2)).getD []) }

/-- The device enters recovery, by front-end port 0; the management cores are held in reset. -/
def Platform.recover (k : Platform) (time : Nat) : Platform :=
  { k with stage := .recovery, versions := [], loaded := [], recoveryPort := some 0, portAt := time, request := none, answered := false }

/-- A port's link has come up: by the recovery port the first request goes out. -/
def Platform.portTrained (k : Platform) (port time devId : Nat) : Platform :=
  if k.stage = .recovery ∧ k.recoveryPort.map (· + 24) = some port ∧ k.request = none then k.askRecovery devId time else k

/-- The recovery port has a link. -/
def State.recoveryLink (s : State) : Bool :=
  match s.plat.recoveryPort with | some p => (s.fabric.link (24 + p)).up | none => false

/-- Cycles of the reference clock in a second. -/
def cyclesPerSec : Nat := 2700000000

/-- The unused indices of the current block are abandoned (R353). -/
def Platform.abandon (k : Platform) : Platform := { k with quoteNext := k.quoteCounter, quoteEnd := k.quoteCounter }

/-- The keystone core judges the set in the flash: the images that it measured are loaded into the management cores' memories, and the
first stage is released; or the device enters recovery. Islands run at 2.7 GHz. -/
def Platform.boot (k : Platform) (time : Nat) : Platform :=
  let k := { k.abandon with
    manifestDigest := Config.shake256 (setManifestBytes k.flash), quote := none, exhausted := false, recoveryPort := none,
    recoveryRequests := 0, request := none, versions := [], loaded := [], islandCur := [], islandTgt := [], islandStep := [],
    islandStop := [], stage := .verifying }
  if setGood k.fuses k.flash then
    { k with
      stage := .stage1, watchAt := time
      versions := (setManifest k.flash).foldl (fun m e => Tbl.put 0 m e.id.toNat e.version.toNat) []
      loaded := (setManifest k.flash).foldl (fun m e => Tbl.set m e.id.toNat (setImage k.flash e)) [] }
  else k.recover time

/-- The minimum versions rise once every management core runs a version above its own. -/
def Platform.raiseFuses (k : Platform) : Platform :=
  if imageIds.all fun i => decide (Tbl.find 0 k.fuses i < Tbl.find 0 k.versions i) then
    { k with fuses := imageIds.foldl (fun m i => Tbl.put 0 m i (Tbl.find 0 k.versions i)) k.fuses }
  else k

/-- READY_REPORT: a stage reports ready, and the next is released. -/
def Platform.ready (k : Platform) (stage : Nat) : Platform :=
  match k.stage, stage with
  | .stage1, 1 => { k.raiseFuses with stage := .stage2 }
  | .stage2, 2 => { k with stage := .stage3 }
  | .stage3, 3 => { k with stage := .running }
  | _, _ => k

/-- Everything but a platform is as after reset; the model's own fields go on. -/
def State.after (s : State) (k : Platform) : State :=
  { State.reset with plat := k, free := s.free, agenda := s.agenda, ticks := s.ticks }

/-- The device starts again from R347. -/
def State.restart (s : State) (k : Platform) : State := s.after (k.boot 0)

/-- An answer to the recovery request may be taken: none with a good manifest has been taken to it, and the recovery port has a link. -/
def State.mayAnswer (s : State) : Bool :=
  decide (s.plat.stage = .recovery) && s.recoveryLink && s.plat.request.isSome && !s.plat.answered

/-- RECOVERY_ANSWER, by the recovery port's link: the first answer to a request whose manifest passes is taken, and no other after it
(R351 case 2); with images that pass, its set is written into the flash and the device restarts; a set that fails is discarded. DEDUCED
(log entry 20): a repeated request may again be answered (R351 case 3). -/
def State.recoveryAnswer (s : State) (set : ImageSet) : State :=
  if s.mayAnswer = true ∧ manifestGood s.plat.fuses set = true then
    if imagesGood set = true then s.restart { s.plat with flash := set } else s.performPlat fun k => { k with answered := true }
  else s

/-! ## Frequency (R354, R355) -/

/-- A frequency of an island: 0.9 to 2.7 GHz in steps of 100 MHz. -/
def mhzGood (f : Nat) : Bool := decide (900 ≤ f ∧ f ≤ 2700 ∧ f % 100 = 0)

/-- Current and target frequency. -/
def Platform.cur (k : Platform) (i : Nat) : Nat := Tbl.find 2700 k.islandCur i
def Platform.tgt (k : Platform) (i : Nat) : Nat := Tbl.find 2700 k.islandTgt i

/-- A matrix command is executing or may start in an island. -/
def State.islandBusy (s : State) (i : Nat) : Bool :=
  s.cores.any fun e => islandOf (clusterOf e.1) == i && e.2.mxq.any fun m => m.released && !m.finished

/-- Cycles of the reference clock between two steps up of an island with matrix work under way: 20 microseconds. -/
def stepWait : Nat := 54000

/-- An island's frequency changes: its cores stop issuing for at most 10 microseconds, as long as a free value says (R354). -/
def Platform.change (k : Platform) (i f time : Nat) : Platform :=
  if k.cur i = f then k
  else { k with
    islandCur := Tbl.put 2700 k.islandCur i f, islandStop := Tbl.set k.islandStop i (time + Config.islandPause i time % 27001) }

/-- FREQUENCY_STEP: straight to the target; while matrix work runs, up by at most 300 MHz, and not again for 20 microseconds. -/
def Platform.step (k : Platform) (i : Nat) (busy : Bool) (time : Nat) : Platform :=
  if 64 ≤ i then k
  else if busy && decide (k.cur i < k.tgt i) then
    match Tbl.get? k.islandStep i with
    | some t =>
      if time < t + stepWait then k
      else { k.change i (Nat.min (k.tgt i) (k.cur i + 300)) time with islandStep := Tbl.set k.islandStep i time }
    | none => { k.change i (Nat.min (k.tgt i) (k.cur i + 300)) time with islandStep := Tbl.set k.islandStep i time }
  else k.change i (k.tgt i) time

/-- ISLAND_FREQUENCY_WRITE. -/
def Platform.target (k : Platform) (i f : Nat) : Platform :=
  if i < 64 ∧ mhzGood f = true then { k with islandTgt := Tbl.put 2700 k.islandTgt i f } else k

/-- POWER_LIMIT_THROTTLE: below the target. -/
def Platform.throttle (k : Platform) (i f time : Nat) : Platform :=
  if i < 64 ∧ mhzGood f = true ∧ f < k.tgt i ∧ f < k.cur i then k.change i f time else k

/-! ## Meanings -/

/-- An operation of the keystone core or of power management. -/
def platform (f : Platform → Platform) (s : State) : Host.Outcome State Fault Refusal := .next (s.performPlat f)

/-- POWER_ON (R347): from off, or right after reset. -/
def execPowerOn (s : State) : Host.Outcome State Fault Refusal :=
  .next (if s.plat.stage = .off ∨ s.plat.stage = .verifying then s.restart s.plat else s)

/-- READY_REPORT (R350). -/
def execReadyReport (stage : Nat) (s : State) : Host.Outcome State Fault Refusal := platform (fun k => k.ready stage) s

/-- Cycles of the reference clock in a watchdog interval of 100 ms. -/
def watchCycles : Nat := 270000000

/-- WATCHDOG_EXPIRY (R350): none expires before the first interval since the management cores' release has passed. -/
def execWatchdogExpiry (s : State) : Host.Outcome State Fault Refusal :=
  platform (fun k => if k.stage.up && decide (k.watchAt + watchCycles ≤ s.time) then k.recover s.time else k) s

/-- RECOVERY_PORT_TIMEOUT (R351): port 0 has no link within 1 s. -/
def execRecoveryPortTimeout (s : State) : Host.Outcome State Fault Refusal :=
  platform (fun k =>
    if k.stage = .recovery ∧ k.recoveryPort = some 0 ∧ (s.fabric.link 24).up = false ∧ k.portAt + cyclesPerSec ≤ s.time then
      { k with recoveryPort := some 1, portAt := s.time }
    else k) s

/-- RECOVERY_ANSWER (R351). -/
def execRecoveryAnswer (set : ImageSet) (s : State) : Host.Outcome State Fault Refusal := .next (s.recoveryAnswer set)

/-- RECOVERY_RETRY (R351): the request goes out by a port with a link, every 10 s. -/
def execRecoveryRetry (s : State) : Host.Outcome State Fault Refusal :=
  platform (fun k =>
    if k.stage = .recovery ∧ s.recoveryLink = true ∧ (k.request = none ∨ k.askedAt + 10 * cyclesPerSec ≤ s.time) then
      k.askRecovery s.fabric.devId s.time
    else k) s

/-- ATTESTATION_REQUEST (R352). -/
def execAttestationRequest (nonce : BitVec 256) (s : State) : Host.Outcome State Fault Refusal :=
  platform (fun k => k.attest s.fabric.devId nonce) s

/-- POWER_OFF (R353): what is not in the flash or the fuses is lost. -/
def execPowerOff (s : State) : Host.Outcome State Fault Refusal :=
  .next (s.after { s.plat.abandon with stage := .off, quote := none })

/-- An operation of a management core on the platform: none takes place while the management cores are held (R347, R350). -/
def managedPlat (f : Platform → Platform) (s : State) : Host.Outcome State Fault Refusal :=
  .next (if s.managed then s.performPlat f else s)

/-- ISLAND_FREQUENCY_WRITE, through the management interface (R354). -/
def execIslandFrequencyWrite (island mhz : Nat) (s : State) : Host.Outcome State Fault Refusal :=
  managedPlat (fun k => k.target island mhz) s

/-- FREQUENCY_STEP (R355). -/
def execFrequencyStep (island : Nat) (s : State) : Host.Outcome State Fault Refusal :=
  platform (fun k => k.step island (s.islandBusy island) s.time) s

/-- POWER_LIMIT_THROTTLE, by telemetry (R354). -/
def execPowerLimitThrottle (island mhz : Nat) (s : State) : Host.Outcome State Fault Refusal :=
  managedPlat (fun k => k.throttle island mhz s.time) s

end Machine
end Sys2Proof
end

