-- ==== Sys2Proof/Machine/Copy.lean ====
section
/-! DEFINITION. The copy engine: CPQ and CPQT, the kinds of transfer, chunks, completion and failure (12_copy_engine.md R212
to R225). -/

namespace Sys2Proof
namespace Machine

/-! ## The request (R216, R217) -/

namespace Cp

def kind (w : W64) : Nat := field w 3 0
def chan (w : W64) : Nat := field w 5 4
def map (w : W64) : Bool := bitAt w 8
def mside (w : W64) : Bool := bitAt w 9
def cen (w : W64) : Bool := bitAt w 35
def cindex (w : W64) : Nat := field w 39 36
def mode (w : W64) : Nat := field w 41 40
def cls (w : W64) : Nat := field w 47 42
def tag (w : W64) : Nat := field w 63 48

/-- The control word or the shape word breaks R216 or R217. -/
def bad (q : Quad) : Bool :=
  let w := q.d
  let x := q.c
  decide (5 ≤ kind w ∨ mode w = 3 ∨ field w 34 10 ≠ 0 ∨ field w 7 6 ≠ 0)
    || (map w && decide (kind w ≠ 1))
    || (match kind w with
        | 0 => decide (field x 63 32 ≠ 0 ∨ field x 31 0 = 0)
        | 4 => decide (field x 63 32 ≠ 0 ∨ field x 31 0 = 0)
        | 1 => if map w then decide (field x 3 0 ≠ 0) else decide (field x 63 48 = 0 ∨ field x 47 32 = 0)
        | 3 => decide (field x 45 44 ≠ 0 ∨ field x 31 16 ≠ 0 ∨ field x 15 0 = 0)
        | _ => decide (field x 39 32 ≠ 0 ∨ field x 53 40 = 0 ∨ field x 31 0 = 0))

/-- Element size and number of elements of a slab; width and height of its rectangle; elements of a block. -/
def slabEs (x : W64) : Nat := 2 ^ field x 55 54
def slabN (x : W64) : Nat := field x 31 0
def slabW (x : W64) : Nat := field x 63 60 + 1
def slabH (x : W64) : Nat := field x 59 56 + 1
def slabB (x : W64) : Nat := field x 53 40

/-- Brick coordinates of a request with a map. -/
def corner (q : Quad) (d : Nat) : Nat :=
  match d with | 0 => field q.c 18 4 | 1 => field q.c 33 19 | 2 => field q.c 48 34 | _ => field q.c 63 49

/-- Elements of a map's brick in a dimension. -/
def brick (m : Vec) (d : Nat) : Nat := if d ≤ tmRank m then tmBrick m d else 1

/-- Elements of a brick. -/
def brickAll (m : Vec) : Nat := brick m 0 * brick m 1 * brick m 2 * brick m 3

/-- Bytes of an element of a map, or 1 where its elements have 4 bits. -/
def elemSize (m : Vec) : Nat := Nat.max 1 (tmBits m / 8)

/-- The elements of a request's map have 4 bits. -/
def nibbles (q : Quad) (m : Vec) : Bool := map q.d && tmFour m

/-- Units of a transfer's byte order: bytes, or the elements of a brick of 4-bit elements. -/
def total (q : Quad) (m : Vec) : Nat :=
  match kind q.d with
  | 1 => if map q.d then brickAll m * elemSize m else field q.c 63 48 * field q.c 47 32
  | 2 => slabN q.c * slabEs q.c
  | 3 => field q.c 15 0 * (field q.c 43 32 + 1)
  | _ => field q.c 31 0

/-- Units as bytes of the byte order. -/
def bytesOf (q : Quad) (m : Vec) (units : Nat) : Nat := if nibbles q m then ceilDiv units 2 else units

end Cp

/-! ## CPQ and CPQT (R214, R215) -/

/-- The address of byte `o` of the place of an address. -/
def sameSpace (ea : W64) (o : Nat) : W64 := w64 (ea.toNat / 2 ^ 36 * 2 ^ 36 + o)

/-- The check of an address that a transfer names, over the bytes that it may reach from there. -/
def checkCp (s : State) (ea : W64) (n : Nat) (acc : Access) : Except Stop Unit :=
  let c := s.curCore
  let place := field ea 63 48
  let off := field ea 47 0
  let pn := (s.corePart? c).getD 0
  let own (size o : Nat) (base : Nat) : W64 := w64 (base + Nat.max o size)
  if place = 0 then .ok ()
  else if place = 0xFFFE then
    match s.xlateOwn c off n acc with
    | .bad cause => trapAt cause (if cause = Cause.translate then own (s.spadSize c) off (0xFFFE * 2 ^ 48) else ea)
    | _ => .ok ()
  else if place = 0xFFFF then
    match s.xlateWindow pn (s.privileged c s.curSlot) off n acc with
    | .bad cause =>
      let k := s.part pn
      let t := coreAt (k.px + off / 2 ^ 40 % 16) (k.py + off / 2 ^ 44) (off / 2 ^ 36 % 16)
      let o := off % 2 ^ 32
      trapAt cause (if cause = Cause.translate ∧ o < 0x100000 then sameSpace ea (Nat.max o (s.spadSize t)) else ea)
    | .at_ (.imem _ _) => if acc = .write then trapAt Cause.permission ea else .ok ()
    | _ => .ok ()
  else
    match s.xlatePeer pn place off n acc with
    | .bad cause => trapAt cause ea
    | _ => .ok ()

/-- The core-window address of a slab's place in a cluster of its rectangle. -/
def slabAddr (q : Quad) (qi o : Nat) : W64 :=
  let w := Cp.slabW q.c
  w64 (q.b.toNat / 2 ^ 36 % 16 * 2 ^ 36 + 0xFFFF * 2 ^ 48 + (field q.b 47 44 + qi / w) % 16 * 2 ^ 44
    + (field q.b 43 40 + qi % w) % 16 * 2 ^ 40 + o % 2 ^ 32)

/-- The checks of a slab (R220): its rectangle, its core, the end of its last block in every cluster. -/
def checkSlab (s : State) (q : Quad) : Except Stop Unit := do
  let x := q.c
  let k := s.part ((s.corePart? s.curCore).getD 0)
  let w := Cp.slabW x
  let p := w * Cp.slabH x
  let b := Cp.slabB x
  let nb := ceilDiv (Cp.slabN x) b
  let off := field q.b 31 0
  require (decide (field q.b 63 48 = 0xFFFF) && decide (field q.b 43 40 + w - 1 ≤ k.pw)
    && decide (field q.b 47 44 + Cp.slabH x - 1 ≤ k.ph)) (trapAt Cause.permission q.b)
  require (decide (field q.b 39 36 ≤ 8) && decide (field q.b 35 32 = 0)) (trapAt Cause.translate q.b)
  let size := if field q.b 39 36 = 8 then 98304 else s.spadSize s.curCore
  let bad (i : Nat) : Bool :=
    let kmax := i + (nb - 1 - i) / p * p
    let last := Nat.min b (Cp.slabN x - kmax * b)
    let c := coreAt (k.px + field q.b 43 40 + i % w) (k.py + field q.b 47 44 + i / w) (field q.b 39 36)
    decide (i < nb) && decide (s.spadSize c < off + (kmax / p * b + last) * Cp.slabEs x)
  match (upto p).find? bad with
  | some i =>
    let c := coreAt (k.px + field q.b 43 40 + i % w) (k.py + field q.b 47 44 + i / w) (field q.b 39 36)
    trapAt Cause.translate (slabAddr q i (Nat.max off (if size = 98304 then size else s.spadSize c)))
  | none => .ok ()

/-- The elements of a brick whose places are in a scratchpad lie within it (R215). -/
def checkBrick (s : State) (q : Quad) (m : Vec) (acc : Access) : Except Stop Unit :=
  let base := w64 (tmBase m)
  if field base 63 48 < 0xFFFE then checkCp s base 1 acc
  else
    (upto (Cp.brickAll m)).foldlM (fun _ k =>
      let b0 := Cp.brick m 0
      let b1 := Cp.brick m 1
      let b2 := Cp.brick m 2
      let e (d : Nat) : Nat := match d with | 0 => k % b0 | 1 => k / b0 % b1 | 2 => k / (b0 * b1) % b2 | _ => k / (b0 * b1 * b2)
      match elemSpot m (Cp.corner q) e (acc = .write) with
      | some x => checkCp s x.addr (Cp.elemSize m) acc
      | none => .ok ()) ()

/-- The checks of every address that a transfer names. -/
def checkPlaces (s : State) (q : Quad) (m : Vec) : Except Stop Unit := do
  let x := q.c
  match Cp.kind q.d with
  | 0 =>
    checkCp s q.a (field x 31 0) .fetch
    checkCp s q.b (field x 31 0) .write
  | 1 =>
    if Cp.map q.d then
      let n := Cp.bytesOf q m (Cp.total q m)
      if Cp.mside q.d then
        checkCp s q.a n .fetch
        checkBrick s q m .write
      else
        checkBrick s q m .fetch
        checkCp s q.b n .write
    else
      let rows := field x 63 48 - 1
      checkCp s q.a (16 * field x 31 16 * rows + field x 47 32) .fetch
      checkCp s q.b (16 * field x 15 0 * rows + field x 47 32) .write
  | 2 =>
    checkCp s q.a (Cp.slabN x * Cp.slabEs x) .fetch
    checkSlab s q
  | 3 =>
    let loff := field x 63 46
    let size := s.spadSize s.curCore
    require (decide (loff + 8 * field x 15 0 ≤ size)) (trapAt Cause.translate (w64 (0xFFFE * 2 ^ 48 + Nat.max loff size)))
    checkCp s q.a 1 .fetch
    checkCp s q.b (field x 15 0 * (field x 43 32 + 1)) .write
  | _ => checkCp s q.b (field x 31 0) .write

/-- The map of a request, where it has one. -/
def readMap (s : State) (q : Quad) : Except Stop (State × Vec) := do
  if Cp.map q.d then
    let p := if Cp.mside q.d then q.b else q.a
    aligned p 64
    let (s, bs) ← syncRead s p 64
    let m := vecOf bs
    require (!tmIll m) (trapAt Cause.format p)
    require (!(tmFour m && decide (field q.c 18 4 * tmBrick m 0 % 2 = 1 ∨ tmBrick m 0 % 2 = 1))) (trapAt Cause.align p)
    .ok (s, m)
  else .ok (s, 0)

/-- The task that owns a FIFO entry waits in a CPQ, or issues one now. -/
def cpOwnerWaits (s : State) (e : CpEntry) : Bool :=
  e.slot == s.curSlot || (s.slot s.curCore e.slot).wait == .cpq

/-- The slot whose CPQ traps ENGQ in a FIFO that can never empty. -/
def cpVictim (s : State) : Option Nat :=
  let own := (s.core s.curCore).cpq.map (·.slot)
  let live := own.filter fun n => (s.slot s.curCore n).repl
  let pool := if live.isEmpty then own else live
  pool.foldl (fun best n =>
    match best with
    | none => some n
    | some b => if (s.slot s.curCore b).task < (s.slot s.curCore n).task then some n else some b) none

/-- R214: a full FIFO traps ENGQ or makes CPQ wait. -/
def cpFull (s : State) : Except Stop Unit :=
  let q := (s.core s.curCore).cpq
  if q.all fun e => !e.released && e.slot == s.curSlot && e.task == s.cur.task then trapBits Cause.engq
  else if (q.all fun e => !e.released && cpOwnerWaits s e) && cpVictim s == some s.curSlot then trapBits Cause.engq
  else .error (.hold .cpq)

/-- CPQ and CPQT: the checks, and the request queued with its id, or none when busy. -/
def queueCopy (s : State) (a : Reg) (tryOnly : Bool) : Except Stop (State × Option Nat) := do
  let (s, q) ← readQuad s a
  let c := s.curCore
  require (!Cp.bad q) (trapBits Cause.illegal)
  let (s, m) ← readMap s q
  require (decide (Cp.kind q.d ≠ 3 ∨ field q.c 63 46 % 8 = 0)) (trapAt Cause.align (w64 (0xFFFE * 2 ^ 48 + field q.c 63 46)))
  checkPlaces s q m
  if 8 ≤ (s.core c).cpq.length then
    if tryOnly then .ok (s, none)
    else
      cpFull s
      .ok (s, none)
  else
    let (uid, s) := s.nextReq c
    let s ← addEntry s 0 (.spad 0 0) .weak .core (.cpRelease uid)
    let chan := Cp.chan q.d
    let id := Tbl.find 0 (s.core c).cpIds chan
    let e : CpEntry := {
      uid := uid, slot := s.curSlot, task := s.cur.task, launch := s.cur.launch, prio := (s.cur.msg.map (·.prio)).getD 0
      q := q, map := m, parity := if Cp.cen q.d then s.courseParity c s.curSlot (Cp.cindex q.d) else 0, chan := chan, xid := id }
    .ok (s.modCore c fun k => { k with cpq := k.cpq ++ [e], cpIds := Tbl.put 0 k.cpIds chan ((id + 1) % 2 ^ 32) }, some id)

/-- CPQ. -/
def bodyCpq (d a : Reg) (la : BitVec 4) (s : State) : Effect := do
  let (s, id) ← queueCopy s a false
  .ok (laterG s la.toNat [d.toNat] [w64 (id.getD 0)], .seq)

/-- CPQT. -/
def bodyCpqt (d a : Reg) (la : BitVec 4) (s : State) : Effect := do
  let (s, id) ← queueCopy s a true
  .ok (laterG s la.toNat [d.toNat] [match id with | some i => w64 i | none => 0xFFFFFFFFFFFFFFFF#64], .seq)

/-- COPY_QUEUE_WAIT_END (R214). -/
def State.cpWaitEnd (s : State) (c n : Nat) : State :=
  s.reissue c n (fun w => w == .cpq) fun j => match j with | .cpq d a la => some (bodyCpq d a la) | _ => none

/-! ## Chunks (R218 to R221) -/

/-- Where a chunk's bytes come from. -/
inductive ChSrc where
  | pattern (w : W64) (i : Nat)
  | zero
  | mem (ea : W64) (nib : Option Nat)
deriving DecidableEq, Repr

/-- A chunk: source, destination (none where the map's edges leave no place), its nibble, bytes, units of progress. -/
structure Chunk where
  src : ChSrc
  dst : Option W64
  nib : Option Nat
  n : Nat
  step : Nat
deriving DecidableEq, Repr

/-- Bytes up to the next 4 KiB boundary. -/
def toBoundary (ea : W64) : Nat := 4096 - ea.toNat % 4096

/-- A chunk of plain bytes, cut at boundaries of both sides. -/
def plainChunk (sa da : W64) (n : Nat) : Chunk :=
  let m := Nat.min n (Nat.min (toBoundary sa) (toBoundary da))
  ⟨.mem sa none, some da, none, m, m⟩

/-- The chunk of an element of a brick, or of the part of it that lies in one page on each side (R218, RECT with MAP = 1). -/
def mapChunk (q : Quad) (m : Vec) (o : Nat) : Chunk :=
  let c := Cp.corner q
  let b0 := Cp.brick m 0
  let b1 := Cp.brick m 1
  let b2 := Cp.brick m 2
  let size := Cp.elemSize m
  let k := o / size
  let r := o % size
  let e (d : Nat) : Nat := match d with | 0 => k % b0 | 1 => k / b0 % b1 | 2 => k / (b0 * b1) % b2 | _ => k / (b0 * b1 * b2)
  let four := tmFour m
  let packed (base : W64) : W64 := if four then base + w64 (k / 2) else base + w64 o
  let nibOf (x : Nat) : Option Nat := if four then some x else none
  let upTo (ea : W64) (n : Nat) : Nat := Nat.min n (toBoundary ea)
  if Cp.mside q.d then
    match elemSpot m c e true with
    | none => ⟨.zero, none, none, size - r, size - r⟩
    | some x =>
      let da := x.addr + w64 r
      let n := upTo da (upTo (packed q.a) (size - r))
      ⟨.mem (packed q.a) (nibOf (k % 2)), some da, nibOf x.nib, n, n⟩
  else
    match elemSpot m c e false with
    | none =>
      let n := upTo (packed q.b) (size - r)
      ⟨.zero, some (packed q.b), nibOf (k % 2), n, n⟩
    | some x =>
      let sa := x.addr + w64 r
      let n := upTo sa (upTo (packed q.b) (size - r))
      ⟨.mem sa (nibOf x.nib), some (packed q.b), nibOf (k % 2), n, n⟩

/-- The offset of the GATH element that a transfer has come to, as its list holds it. -/
def State.gathOffset (s : State) (c : Nat) (e : CpEntry) : W64 :=
  w64 (leVal ((s.core c).spadBytes (field e.q.c 63 46 + 8 * (e.off / (field e.q.c 43 32 + 1))) 8))

/-- The next chunk of a transfer; none when it is complete. -/
def State.nextChunk (s : State) (c : Nat) (e : CpEntry) : Option Chunk :=
  let q := e.q
  let x := q.c
  let o := e.off
  if Cp.total q e.map ≤ o then none
  else
    let left := Cp.total q e.map - o
    some (match Cp.kind q.d with
      | 0 => plainChunk (q.a + w64 o) (q.b + w64 o) left
      | 1 =>
        if Cp.map q.d then mapChunk q e.map o
        else
          let rowb := field x 47 32
          let r := o / rowb
          plainChunk (q.a + w64 (16 * field x 31 16 * r + o % rowb)) (q.b + w64 (16 * field x 15 0 * r + o % rowb)) (rowb - o % rowb)
      | 2 =>
        let bb := Cp.slabB x * Cp.slabEs x
        let p := Cp.slabW x * Cp.slabH x
        let k := o / bb
        plainChunk (q.a + w64 o) (slabAddr q (k % p) (field q.b 31 0 + k / p * bb + o % bb)) (Nat.min left (bb - o % bb))
      | 3 =>
        let esz := field x 43 32 + 1
        let off := e.gath.getD (s.gathOffset c e)
        plainChunk (q.a + off + w64 (o % esz)) (q.b + w64 o) (esz - o % esz)
      | _ =>
        let d := q.b + w64 o
        let m := Nat.min left (toBoundary d)
        ⟨.pattern q.a o, some d, none, m, m⟩)

/-! ## Performing a chunk -/

/-- The entry that a channel works on: the first released one, behind its task's writes, on an engine that may start chunks. -/
def State.cpNext? (s : State) (c chan : Nat) : Option CpEntry :=
  let k := s.core c
  match k.cpq.find? fun e => e.chan == chan && e.released with
  | none => none
  | some e =>
    let waits := k.flight.any fun f => f.e.task == e.task && (f.e.writes || f.e.fenceSs) && decide (f.e.id < e.after)
    if !e.finished && !e.parked && !waits then some e else none

/-- An entry of the FIFO changed. -/
def State.modCp (s : State) (c uid : Nat) (f : CpEntry → CpEntry) : State :=
  s.modCore c fun k => { k with cpq := k.cpq.map fun e => if e.uid == uid then f e else e }

/-- A transfer that a fault storm discarded in the middle of a chunk goes when that chunk ends (22_interruption.md R322 case 3). -/
def State.dropDoomed (s : State) (c uid : Nat) : State :=
  s.modCore c fun k => { k with cpq := k.cpq.filter fun e => !(e.uid == uid && e.doomed) }

/-- The translation that a request's chunk uses is pinned. -/
def State.pin (s : State) (c uid : Nat) (l : Loc) : State :=
  match l with
  | .hbm p _ gva gpa => s.modCore c fun k => { k with pins := k.pins ++ [s.pinOf c uid p gva gpa] }
  | _ => s

/-- The pins of a request's chunk end. -/
def State.unpin (s : State) (c uid : Nat) : State := s.modCore c fun k => { k with pins := k.pins.filter fun q => q.uid != uid }

/-- A transfer stops at a chunk (R223). -/
def State.stopCp (s : State) (c uid cause : Nat) (ea : W64) : State :=
  (((s.unpin c uid).modCp c uid fun e => { e with
    finished := true, status := if cause = Cause.permission then 2 else if cause = Cause.ecc then 3 else 1, bad := ea
    under := none, fetched := none, acking := false, gath := none, refused := none })).dropDoomed c uid

/-- A chunk that is under way starts again: its pins end, and it translates its pages anew (R221). -/
def State.restartCp (s : State) (c uid : Nat) : State :=
  (s.unpin c uid).modCp c uid fun e => { e with under := none, fetched := none }

/-- A chunk of `n` bytes of a transfer is parked at the home of the line that it waits for, or refused there. -/
def State.parkCp (s : State) (c : Nat) (e : CpEntry) (n : Nat) (w : EngWait) : State :=
  s.parkEngine c (.copy e.chan) e.uid n w fun s b r => s.modCp c e.uid fun e => { e with parked := b, refused := r }

/-- Translation of one side of a chunk for a task's engine. A line of it that bears a foreign tag fails at the line's first byte of the
chunk. -/
def State.cpXlate (s : State) (c : Nat) (e : CpEntry) (ea : W64) (n : Nat) (acc : Access) : State × Xl × W64 :=
  match s.xlateAny c (s.privileged c e.slot) ea n acc with
  | (s, .at_ (.imem k o)) => if acc = .write then (s, .bad Cause.permission, ea) else (s, .at_ (.imem k o), ea)
  | (s, .at_ (.hbm p phys gva gpa)) =>
    match if acc = .write then none else s.foreignIn p phys n with
    | some k => (s, .bad Cause.ecc, ea + w64 k)
    | none => (s, .at_ (.hbm p phys gva gpa), ea)
  | (s, .wait gpa) => (s, if e.fillFailed then .bad Cause.translate else .wait gpa, ea)
  | (s, x) => (s, x, ea)

/-- A place that a side of a chunk has an entry at which is performed for its cluster alone: the chunk waits (14_ordering.md R244). -/
def State.cpNear (s : State) (c n : Nat) (loc : Loc) : Bool := s.nearOpen (clusterOf c) none loc n

/-- Bytes of a source on this device. -/
def State.cpRead (s : State) (c : Nat) (loc : Loc) (n : Nat) : State × List Byte :=
  match loc with
  | .hbm p phys _ gpa => s.homeRead (some (clusterOf c)) p phys gpa n
  | .spad k o => (s, (s.core k).spadBytes o n)
  | .imem k o => (s, (upto n).map fun i => Tbl.find 0 (s.core k).imem (o + i))
  | .inbox k o => (s, (upto n).map fun i => (s.core k).inByte (o + i))
  | _ => (s, leBytes n 0)

/-- A place on this device waits at its home. -/
def State.cpBusy (s : State) (loc : Loc) (n : Nat) (write : Bool) : Bool :=
  match loc with
  | .hbm p phys _ gpa => s.busy p phys gpa n write
  | _ => false

/-- A copy on write that a destination waits for begins. -/
def State.cpCow (s : State) : Loc → State
  | .hbm p _ _ gpa => s.startCow p gpa
  | _ => s

/-- What a transfer that overlaps itself writes (R218): of a source byte that the transfer has written, the byte before or the
byte after, as a free value picks. DESIGN CHOICE (log entry 15): of a source byte that the transfer writes later it takes the byte
before, and of one at another device that it wrote in an earlier chunk the byte after, for R218 leaves open which. -/
def overlapBytes (f : Nat) (olds : Tbl Byte) (src dst : Nat) (bs : List Byte) : List Byte :=
  bs.zipIdx.foldl (fun out e =>
    let k := src + e.2
    let v :=
      match Tbl.get? olds k with
      | some old => if Config.overlapPick (4096 * f + e.2) then old else e.1
      | none =>
        if dst ≤ k ∧ k < dst + e.2 then (if Config.overlapPick (4096 * f + e.2) then e.1 else out.getD (k - dst) e.1)
        else e.1
    out ++ [v]) []

/-- The bytes of a destination as they stand before a chunk writes them, kept once. -/
def State.keepOlds (s : State) (loc : Loc) (n : Nat) (olds : Tbl Byte) : Tbl Byte :=
  let now (i : Nat) : Option Byte :=
    match loc with
    | .hbm _ phys _ _ => some (s.rdByte (phys + i))
    | .spad k o => some (Tbl.find 0 (s.core k).spad (o + i))
    | _ => none
  (upto n).foldl (fun m i =>
    match now i, Tbl.get? m (locKey loc + i) with
    | some v, none => Tbl.set m (locKey loc + i) v
    | _, _ => m) olds

/-- The nibble-masked bytes of a chunk. -/
def chunkNibs (ch : Chunk) (bs : List Byte) : List NibByte :=
  match ch.nib with
  | none => fullBytes bs
  | some nib =>
    let from_ := match ch.src with | .mem _ (some k) => k | _ => 0
    let x := (bs.headD 0).toNat / 16 ^ from_ % 16
    [⟨0, BitVec.ofNat 8 (x * 16 ^ nib), decide (nib = 0), decide (nib = 1)⟩]

/-- Half-bytes that a chunk counts, by where they went. -/
def countKey : Loc → Nat
  | .spad k _ => clusterOf k
  | _ => 256

/-- A chunk is written: its transfer goes on behind it. -/
def State.passChunk (s : State) (c uid : Nat) (ch : Chunk) (dst : Option Loc) (olds : Tbl Byte) : State :=
  ((s.unpin c uid).modCp c uid fun e => { e with
    off := e.off + ch.step, under := none, fetched := none, acking := false, refused := none, fillFailed := false, olds := olds
    gath := if (e.off + ch.step) % (field e.q.c 43 32 + 1) = 0 then none else e.gath
    counts := match dst with
      | some l => Tbl.put 0 e.counts (countKey l) (Tbl.find 0 e.counts (countKey l) + (if ch.nib.isSome then 1 else 2 * ch.n))
      | none => e.counts }).dropDoomed c uid

/-- What a transfer has written of a stream's word is contributed. -/
def State.contribute (s : State) (word : Option (Nat × Nat × List NibByte)) : State :=
  match word with
  | some (num, i, bs) => s.streamPut num (8 * i) bs
  | none => s

/-- The bytes of a chunk are at hand: they are written at their destination on this device, or sent. -/
def State.putChunk (s : State) (c : Nat) (e : CpEntry) (ch : Chunk) (src : Option Loc) (dst : Loc) (bs : List Byte) : State :=
  if s.cpBusy dst ch.n true then (s.cpCow dst).parkCp c e ch.n { loc := dst }
  else
    let (f, s) := s.nextFree
    let bs := match src with | some l => overlapBytes f e.olds (locKey l) (locKey dst) bs | none => bs
    let nibs := chunkNibs ch bs
    let olds := s.keepOlds dst ch.n e.olds
    match dst with
    | .hbm p phys _ gpa =>
      (s.homeWrite (some (clusterOf c)) p phys gpa nibs).passChunk c e.uid ch (some dst) olds
    | .spad k o => (s.modCore k fun x => x.spadMerge o nibs).passChunk c e.uid ch (some dst) olds
    | .stream num o =>
      let (s, word) := s.streamJoin num o nibs e.word
      if e.doomed then (s.contribute word).passChunk c e.uid ch (some dst) olds
      else (s.modCp c e.uid fun x => { x with word := word }).passChunk c e.uid ch (some dst) olds
    | .peer dev part a dom =>
      if s.flowRoom (s.flowTo dev 0) && s.coreOpen c then
        let (req, s) := s.nextReq c
        let s := s.modCp c e.uid fun e => { e with under := some (src.getD dst, dst, req), acking := true, fetched := none }
        let s := if e.under.isNone then (match src with | some l => s.pin c e.uid l | none => s) else s
        s.sendService dev 0 dom c req (.store part a nibs)
      else s
    | _ => s.stopCp c e.uid Cause.permission (ch.dst.getD 0)

/-- The home of a place holds a write back until a pin of its page has ended: its page is being copied. -/
def State.pinHolds (s : State) : Loc → Bool
  | .hbm p _ _ gpa => (s.part p).moves gpa || s.needsCow p gpa
  | _ => false

/-- A chunk of a transfer starts, or goes on, under the mapping that it pinned, with the bytes that another device returned (R221). One
whose destination is being copied meanwhile starts again, for the copy waits for its pin (log entry 15). -/
def State.copyChunk (s : State) (c : Nat) (e : CpEntry) (ch : Chunk) : State :=
  match ch.dst with
  | none => s.passChunk c e.uid ch none e.olds
  | some da =>
    let side (s : State) (ea : W64) (acc : Access) : State × Xl × W64 := s.cpXlate c e ea ch.n acc
    let fault (s : State) (ea : W64) (x : Xl) : State :=
      match x with
      | .bad cause => s.stopCp c e.uid cause ea
      | .wait gpa => s.parkCp c e ch.n { loc := .unmapped ((s.corePart? c).getD 0) (field ea 47 0) gpa, fill := true }
      | .later gpa => s.parkCp c e ch.n { loc := .unmapped ((s.corePart? c).getD 0) (field ea 47 0) gpa }
      | .shut => s
      | .at_ _ => s
    match e.under, e.fetched with
    | some _, none => s
    | some (src, dst, _), some bs =>
      if s.planeShut dst || s.cpNear c ch.n dst then s
      else if s.pinHolds dst then (s.cpCow dst).restartCp c e.uid else s.putChunk c e ch (some src) dst bs
    | none, _ =>
      match ch.src with
      | .mem sa _ =>
        match side s sa .fetch with
        | (s, .at_ src, _) =>
          match side s da .write with
          | (s, .at_ dst, _) =>
            if s.planeShut src || s.planeShut dst || s.cpNear c ch.n src || s.cpNear c ch.n dst then s
            else
            match src with
            | .peer dev part a dom =>
              if s.cpBusy dst ch.n true then (s.cpCow dst).parkCp c e ch.n { loc := dst }
              else if s.flowRoom (s.flowTo dev 0) && s.coreOpen c then
                let (req, s) := s.nextReq c
                ((s.modCp c e.uid fun e => { e with under := some (src, dst, req) }).pin c e.uid dst).sendService dev 0 dom c req
                  (.load part a ch.n)
              else s
            | _ =>
              if s.cpBusy src ch.n false then s.parkCp c e ch.n { loc := src }
              else
                let (s, bs) := s.cpRead c src ch.n
                s.putChunk c e ch (some src) dst bs
          | (s, x, a) => fault s a x
        | (s, x, a) => fault s a x
      | src =>
        let bs := match src with
          | .pattern w i => (upto ch.n).map fun j => (leBytes 8 w.toNat).getD ((i + j) % 8) 0
          | _ => leBytes ch.n 0
        match side s da .write with
        | (s, .at_ dst, _) => if s.planeShut dst || s.cpNear c ch.n dst then s else s.putChunk c e ch none dst bs
        | (s, x, a) => fault s a x

/-- The offset of the GATH element that a chunk starts is read once for the element (R219). -/
def State.sampleGath (s : State) (c : Nat) (e : CpEntry) : State × CpEntry :=
  if Cp.kind e.q.d = 3 ∧ e.gath.isNone = true ∧ e.off < Cp.total e.q e.map then
    let g := some (s.gathOffset c e)
    (s.modCp c e.uid fun e => { e with gath := g }, { e with gath := g })
  else (s, e)

/-- One step of a channel's transfer: its next chunk, or its end. A chunk that is under way goes on under a debug halt; none
starts (22_interruption.md R330). -/
def State.cpStep (s : State) (c : Nat) (e : CpEntry) : State :=
  if (s.core c).halted && e.under.isNone && decide (e.off < Cp.total e.q e.map) then s
  else
    let (s, e) := s.sampleGath c e
    match s.nextChunk c e with
    | none => s.modCp c e.uid fun e => { e with finished := true }
    | some ch => s.copyChunk c e ch

/-- COPY_CHUNK. -/
def State.cpChunk (s : State) (c chan : Nat) : State :=
  match s.cpNext? c chan with
  | some e => s.cpStep c e
  | none => s

/-- The chunks of a channel's transfer while they can be performed, when it is of a kind. -/
def State.cpRun (s : State) (c chan : Nat) (sel : CpEntry → Bool) : Nat → State
  | 0 => s
  | fuel + 1 =>
    match s.cpNext? c chan with
    | none => s
    | some e =>
      if sel e then
        let t := s.cpStep c e
        match (t.core c).cpq.find? fun x => x.uid == e.uid with
        | some x => if x.off = e.off then t else t.cpRun c chan sel fuel
        | none => t
      else s

/-- A whole transfer of a kind. -/
def State.cpTransfer (s : State) (c chan : Nat) (sel : Quad → Bool) : State :=
  match s.cpNext? c chan with
  | some e => s.cpRun c chan (fun x => x.uid == e.uid && sel x.q) (Cp.total e.q e.map + 1)
  | none => s

/-! ## Answers of other devices -/

/-- The bytes that a chunk read from another device, or the fault that its read met there. -/
def State.cpAnswer (s : State) (c req : Nat) (r : Except Nat (List Byte)) : State :=
  match (s.core c).cpq.find? fun e => !e.acking && (match e.under with | some (_, _, q) => q == req | none => false) with
  | none => s
  | some e =>
    match r with
    | .ok bs => s.modCp c e.uid fun e => { e with fetched := some bs }
    | .error cause =>
      let ea := match (s.nextChunk c e).map (·.src) with | some (.mem ea _) => ea | _ => 0
      s.stopCp c e.uid cause ea

/-- The acknowledgement of a chunk's store at another device. -/
def State.cpAck (s : State) (c req : Nat) (ok : Bool) (cause : Nat) : State :=
  match (s.core c).cpq.find? fun e => e.acking && (match e.under with | some (_, _, q) => q == req | none => false) with
  | none => s
  | some e =>
    match e.under, s.nextChunk c e with
    | some (_, dst, _), some ch =>
      if ok then s.passChunk c e.uid ch (some dst) e.olds else s.stopCp c e.uid cause (ch.dst.getD 0)
    | _, _ => s

/-! ## Completion (R222, R223) -/

/-- Completion record of a transfer. -/
def cpRecord (e : CpEntry) : CRec where
  w0 := recWord0 1 e.status (Cp.tag e.q.d) e.xid
  w1 := e.q.d
  w2 := w64 (Cp.bytesOf e.q e.map e.off)
  w3 := e.bad
  tie := if e.status = 0 then .none else .transfer e.chan e.xid

/-- The deliveries of a transfer to courses. -/
def State.cpDeliver (s : State) (c : Nat) (e : CpEntry) : State :=
  if Cp.cen e.q.d then
    e.counts.foldl (fun s n =>
      s.deliverCourse (if n.1 = 256 then clusterOf c else n.1) (Cp.cindex e.q.d) e.parity (ceilDiv n.2 2) c) s
  else s

/-- COPY_COMPLETION: the finished transfer of a channel. -/
def State.cpComplete (s : State) (c chan : Nat) : State :=
  match (s.core c).cpq.find? fun e => e.chan == chan && e.released with
  | none => s
  | some e =>
    if !e.finished then s
    else
      let s := (s.contribute e.word).modCore c fun k => { k with cpq := k.cpq.filter fun x => x.uid != e.uid }
      let rep : Report := ⟨decide (Cp.mode e.q.d = 2), Cp.cls e.q.d, cpRecord e, e.launch, e.prio⟩
      let give (s : State) : State :=
        if (s.core c).cpHeld.isEmpty && !s.engineHeld c 2 then
          match s.giveReport c rep with
          | some s => s
          | none => s.modCore c fun k => { k with cpHeld := [rep] }
        else s.modCore c fun k => { k with cpHeld := k.cpHeld ++ [rep] }
      if e.status = 0 then
        let s := (s.modCore c fun k => k.retire e.chan e.xid).cpDeliver c e
        if Cp.mode e.q.d = 0 then s else give s
      else
        let cause := if e.status = 2 then Cause.permission else if e.status = 3 then Cause.ecc else Cause.translate
        let off := Cp.bytesOf e.q e.map e.off
        (give s).report c { reportRec cause e.chan 0 (s.placeWord c) e.bad (w64 (off % 2 ^ 32 * 2 ^ 32 + e.xid)) with engine := 2 }

/-! ## Meanings -/

/-- CPQ (R215). -/
def execCpq (d a : Reg) (la : BitVec 4) (s : State) : Host.Outcome State Fault Refusal :=
  issue (.cpq d a la) (bodyCpq d a la) s

/-- CPQT (R215). -/
def execCpqt (d a : Reg) (la : BitVec 4) (s : State) : Host.Outcome State Fault Refusal :=
  issue (.cpqt d a la) (bodyCpqt d a la) s

/-- LIN (R218). -/
def execLin (core chan : Nat) (s : State) : Host.Outcome State Fault Refusal :=
  event (fun s => s.cpTransfer core chan fun q => Cp.kind q.d == 0) s

/-- RECT (R218). -/
def execRect (core chan : Nat) (s : State) : Host.Outcome State Fault Refusal :=
  event (fun s => s.cpTransfer core chan fun q => Cp.kind q.d == 1 && !Cp.map q.d) s

/-- RECT with a map (R218). -/
def execRectMap (core chan : Nat) (s : State) : Host.Outcome State Fault Refusal :=
  event (fun s => s.cpTransfer core chan fun q => Cp.kind q.d == 1 && Cp.map q.d) s

/-- SLAB (R220). -/
def execSlab (core chan : Nat) (s : State) : Host.Outcome State Fault Refusal :=
  event (fun s => s.cpTransfer core chan fun q => Cp.kind q.d == 2) s

/-- GATH (R219). -/
def execGath (core chan : Nat) (s : State) : Host.Outcome State Fault Refusal :=
  event (fun s => s.cpTransfer core chan fun q => Cp.kind q.d == 3) s

/-- FILL (R218). -/
def execFill (core chan : Nat) (s : State) : Host.Outcome State Fault Refusal :=
  event (fun s => s.cpTransfer core chan fun q => Cp.kind q.d == 4) s

/-- COPY_CHUNK (R221). -/
def execCopyChunk (core chan : Nat) (s : State) : Host.Outcome State Fault Refusal := event (fun s => s.cpChunk core chan) s

/-- COPY_COMPLETION (R222). -/
def execCopyCompletion (core chan : Nat) (s : State) : Host.Outcome State Fault Refusal :=
  event (fun s => s.cpComplete core chan) s

/-- COPY_QUEUE_WAIT_END (R214). -/
def execCopyQueueWaitEnd (core slot : Nat) (s : State) : Host.Outcome State Fault Refusal :=
  event (fun s => s.cpWaitEnd core slot) s

end Machine
end Sys2Proof
end

