-- ==== Sys2Proof/Machine/Control.lean ====
section
/-! DEFINITION. Control instructions: branches, jumps, the counted loop, task ends and commit points, follow mode, signatures
(07_isa_scalar_control_system.md R118 to R124; 05_encoding.md R90 to R94). -/

namespace Sys2Proof
namespace Machine

/-! ## Effects -/

/-- Transfer(t) of R118, in the space of the current instruction. -/
def transfer (s : State) (t : Int) : Effect :=
  if t < 0 ∨ 32767 < t then trapBits Cause.illegal
  else .ok (s, .jump { s.cur.pc with off := t.toNat })

/-- A conditional branch on D = G(d) and A = G(a) (R119). -/
def bodyBranch (d a : Reg) (off : Int) (cond : W64 → W64 → Bool) (s : State) : Effect := do
  let (s, x) ← readG s d
  let (s, y) ← readG s a
  if cond x y then transfer s ((s.cur.pc.off : Int) + off) else .ok (s, .seq)

/-- The routine address of the next instruction. -/
def linkOf (s : State) : W64 := w64 (ofBool s.cur.pc.carried * 32768 + s.cur.pc.off + 2)

/-- JAL: a trap at the target check leaves the link unwritten (R120). -/
def bodyJal (off : Int) (s : State) : Effect := do
  let t := (s.cur.pc.off : Int) + off
  let (s', nx) ← transfer s t
  let s' ← writeG s' 1 (linkOf s)
  .ok (s', nx)

/-- JALR (R120). -/
def bodyJalr (d a : Reg) (imm : BitVec 14) (s : State) : Effect := do
  let (s', x) ← readG s a
  let t := (x.toNat : Int) + imm.toInt
  if t < 0 ∨ 0xFFFF < t then trapBits Cause.illegal
  else
    let s' ← writeG s' d (linkOf s)
    .ok (s', .jump { carried := decide (32768 ≤ t.toNat), off := t.toNat % 32768 })

/-- LOOP (R121). -/
def bodyLoop (a : Reg) (len : BitVec 8) (s : State) : Effect := do
  let t := s.cur
  if t.lact then trapBits Cause.illegal
  else
    let (s, x) ← readG s a
    let b := t.pc.off + 2
    if x = 0 then .ok (s, .over (b + len.toNat))
    else .ok (s.modCur fun t => { t with lact := true, lc := x.toNat, ls := b, le := b + len.toNat - 1 }, .seq)

/-- END (R122): every result, the signature check, the waits of the drain, the drain, and the slot is free. -/
def bodyEnd (j : Instr) (s : State) : Effect := do
  awaitAll s
  let s ← sigCheck s j
  let s ← drained s true
  .ok (s.endTask s.curCore s.curSlot, .ended)

/-- ENDD (R122). -/
def bodyEndd (j : Instr) (s : State) : Effect := do
  awaitAll s
  let s ← sigCheck s j
  .ok (s.dropTask s.curCore s.curSlot, .ended)

/-- CMT (R122). -/
def bodyCmt (s : State) : Effect := do
  let s ← commitPoint s
  .ok (s, .seq)

/-- FOLW (R90, R123): a no-op, or the wait for the leader's next instruction. DESIGN CHOICE (log entry 12): its 64 cycles are counts of
TIME, for R90 and R123 name no clock. -/
def bodyFolw (s : State) : Effect :=
  let c := s.curCore
  match s.leaderOf? c s.curSlot with
  | none => .ok (s, .seq)
  | some l =>
    if l = c ∨ s.cur.pc.carried = true ∨ (s.core c).imemDirty = true ∨ (s.core l).imemDirty = true ∨ s.cur.follow.isSome then
      .ok (s, .seq)
    else .ok (s.modCur fun t => { t with wait := .follow (s.time + 64) }, .seq)

/-- SIG (R93 rule 1, R124): the check of the running block, then a new one is armed. A following slot does neither. -/
def bodySig (exp : Half) (short : Bool) (s : State) : Effect :=
  let t := s.cur
  if feeds t && sigBad t t.crc then trapAt Cause.signature (w64 t.crc.toNat)
  else if t.follow.isSome then .ok (s, .seq)
  else .ok (s.modCur fun t => { t with armed := true, exp := exp, short := short, crc := 0xFFFF#16 }, .seq)

/-! ## Meanings -/

/-- BEQ (R119). -/
def execBeq (d a : Reg) (off : BitVec 14) (s : State) : Host.Outcome State Fault Refusal :=
  issue (.beq d a off) (bodyBranch d a off.toInt (fun x y => x == y)) s

/-- BNE (R119). -/
def execBne (d a : Reg) (off : BitVec 14) (s : State) : Host.Outcome State Fault Refusal :=
  issue (.bne d a off) (bodyBranch d a off.toInt (fun x y => x != y)) s

/-- BLT (R119). -/
def execBlt (d a : Reg) (off : BitVec 14) (s : State) : Host.Outcome State Fault Refusal :=
  issue (.blt d a off) (bodyBranch d a off.toInt slt64) s

/-- BGE (R119). -/
def execBge (d a : Reg) (off : BitVec 14) (s : State) : Host.Outcome State Fault Refusal :=
  issue (.bge d a off) (bodyBranch d a off.toInt (fun x y => !slt64 x y)) s

/-- BLTN (R119). -/
def execBltn (d a : Reg) (off : BitVec 14) (s : State) : Host.Outcome State Fault Refusal :=
  issue (.bltn d a off) (bodyBranch d a off.toInt ult64) s

/-- BGEN (R119). -/
def execBgen (d a : Reg) (off : BitVec 14) (s : State) : Host.Outcome State Fault Refusal :=
  issue (.bgen d a off) (bodyBranch d a off.toInt (fun x y => !ult64 x y)) s

/-- JMP (R120). -/
def execJmp (off : BitVec 24) (s : State) : Host.Outcome State Fault Refusal :=
  issue (.jmp off) (fun s => transfer s ((s.cur.pc.off : Int) + off.toInt)) s

/-- JAL (R120). -/
def execJal (off : BitVec 24) (s : State) : Host.Outcome State Fault Refusal :=
  issue (.jal off) (bodyJal off.toInt) s

/-- JALR (R120). -/
def execJalr (d a : Reg) (imm : BitVec 14) (s : State) : Host.Outcome State Fault Refusal :=
  issue (.jalr d a imm) (bodyJalr d a imm) s

/-- LOOP (R121). -/
def execLoop (a : Reg) (len : BitVec 8) (s : State) : Host.Outcome State Fault Refusal :=
  issue (.loop a len) (bodyLoop a len) s

/-- END (R122). -/
def execEnd (s : State) : Host.Outcome State Fault Refusal :=
  issue (.endOp) (bodyEnd .endOp) s

/-- ENDD (R122). -/
def execEndd (s : State) : Host.Outcome State Fault Refusal :=
  issue (.endd) (bodyEndd .endd) s

/-- CMT (R122). -/
def execCmt (s : State) : Host.Outcome State Fault Refusal :=
  issue (.cmt) (bodyCmt) s

/-- FOLW (R123). -/
def execFolw (s : State) : Host.Outcome State Fault Refusal :=
  issue (.folw) (bodyFolw) s

/-- FOLLOW_WAIT_EXPIRY (R90 case 4): the slot continues on its own fetch. -/
def execFollowWaitExpiry (core slot : Nat) (s : State) : Host.Outcome State Fault Refusal :=
  event (fun s =>
    match (s.slot core slot).wait with
    | .follow d => if d < s.time then s.modSlot core slot fun t => { t with wait := .none } else s
    | _ => s) s

/-- SIG, full form (R124). -/
def execSig (sig : BitVec 16) (s : State) : Host.Outcome State Fault Refusal :=
  issue (.sig sig) (bodySig sig false) s

/-- SIG, short form (R124). -/
def execSigShort (sig : BitVec 11) (s : State) : Host.Outcome State Fault Refusal :=
  issue (.sigShort sig) (bodySig (sig.zeroExtend 16) true) s

/-- C.BEQZ is BEQ gd, g0, offset (05_encoding.md R81). -/
def execCBeqz (d : BitVec 3) (off : BitVec 8) (s : State) : Host.Outcome State Fault Refusal :=
  issue (.cBeqz d off) (bodyBranch (8 + d.zeroExtend 5) 0 off.toInt fun x y => x == y) s

/-- C.BNEZ is BNE gd, g0, offset. -/
def execCBnez (d : BitVec 3) (off : BitVec 8) (s : State) : Host.Outcome State Fault Refusal :=
  issue (.cBnez d off) (bodyBranch (8 + d.zeroExtend 5) 0 off.toInt fun x y => x != y) s

/-- C.J is JMP offset. -/
def execCJ (off : BitVec 11) (s : State) : Host.Outcome State Fault Refusal :=
  issue (.cJ off) (fun s => transfer s ((s.cur.pc.off : Int) + off.toInt)) s

/-- C.END is END. -/
def execCEnd (s : State) : Host.Outcome State Fault Refusal :=
  issue (.cEnd) (bodyEnd .cEnd) s

/-- C.CMT is CMT. -/
def execCCmt (s : State) : Host.Outcome State Fault Refusal :=
  issue (.cCmt) (bodyCmt) s

/-- C.SIG is the short SIG (R94). -/
def execCSig (sig : BitVec 11) (s : State) : Host.Outcome State Fault Refusal :=
  issue (.cSig sig) (bodySig (sig.zeroExtend 16) true) s

end Machine
end Sys2Proof
end

