-- ==== Sys2Proof/Machine/Mem.lean ====
section
/-! DEFINITION. Memory instructions: loads, stores, strong accesses, fences, prefetch, clean, invalidate, TMAD, atomics and
reductions (08_isa_memory_messages.md R133 to R143). -/

namespace Sys2Proof
namespace Machine

/-! ## LD, ST, LDP, STP (R134) -/

/-- LD of `n` bytes. -/
def bodyLd (d a : Reg) (la : BitVec 4) (off : BitVec 10) (n : Nat) (sgn : Bool) (s : State) : Effect := do
  let (s, x) ← readG s a
  let ea := effAddr x off n
  aligned ea n
  let (s, loc) ← s.xlateLoad ea n .scalarRead
  let s ← loadInto s { gd := [d.toNat], left := la.toNat } [(ea, loc, n, .int n sgn)] false
  .ok (s, .seq)

/-- ST of `n` bytes. -/
def bodySt (d a : Reg) (off : BitVec 10) (n : Nat) (s : State) : Effect := do
  let (s, x) ← readG s a
  let (s, v) ← readG s d
  let ea := effAddr x off n
  aligned ea n
  storeAt s ea n v.toNat .weak .core

/-- A pair at an address of memory, here or at another device, that is 8 mod 16 is two accesses of a doubleword (case 3; R133 case
7). -/
def splitPair (ea : W64) : Bool := decide (ea.toNat % 16 ≠ 0) && decide (field ea 63 48 < 0xFFFE)

/-- LDP. -/
def bodyLdp (d a : Reg) (la : BitVec 4) (off : BitVec 10) (s : State) : Effect := do
  let (s, x) ← readG s a
  let ea := effAddr x off 16
  aligned ea 8
  let p : Pending := { gd := [d.toNat, d.toNat + 1], left := la.toNat, gval := [0, 0] }
  if splitPair ea then
    let (s, l0) ← s.xlateLoad ea 8 .read
    let (s, l1) ← s.xlateLoad (ea + 8) 8 .read
    let s ← loadInto s p [(ea, l0, 8, .dword 0), (ea + 8, l1, 8, .dword 1)] false
    .ok (s, .seq)
  else
    let (s, loc) ← s.xlateLoad ea 16 .read
    let s ← loadInto s p [(ea, loc, 16, .pair)] false
    .ok (s, .seq)

/-- STP. -/
def bodyStp (d a : Reg) (off : BitVec 10) (s : State) : Effect := do
  let (s, x) ← readG s a
  let (s, v) ← readG s d
  let (s, w) ← readG s (d + 1)
  let ea := effAddr x off 16
  aligned ea 8
  if splitPair ea then
    let (s, l0) ← s.xlate ea 8 .write
    let (s, l1) ← s.xlate (ea + 8) 8 .write
    let s ← bufferStore s ea l0 (fullBytes (leBytes 8 v.toNat)) .weak .core
    let s ← bufferStore s (ea + 8) l1 (fullBytes (leBytes 8 w.toNat)) .weak .core
    .ok (s, .seq)
  else storeAt s ea 16 (v.toNat + 2 ^ 64 * w.toNat) .weak .core

/-! ## LDS and STS (R135) -/

/-- Size of a size code. -/
def sizeOf (sz : BitVec 2) : Nat := 2 ^ sz.toNat

/-- The task has drained an entry that is not performed yet. -/
def drainedOpen (s : State) : Bool := (s.core s.curCore).flight.any fun f => f.e.task == s.cur.task && !f.e.cleans

/-- LDS. One of a status word acquires for the core at every scope (12_copy_engine.md R224). LDS.sc waits for the entries of
the task's earlier commit points (14_ordering.md R248 case 2). -/
def bodyLds (d a : Reg) (sc : BitVec 2) (la : BitVec 4) (sz : BitVec 2) (sgn ord : BitVec 1) (s : State) : Effect := do
  let n := sizeOf sz
  let (s, ea) ← readG s a
  aligned ea n
  let (s, loc) ← s.xlateLoad ea n .scalarRead
  require (!(decide (ord = 1) && drainedOpen s)) (.error (.hold .order))
  let acq := match loc with | .status _ _ => Nat.max 2 (sc.toNat + 1) | _ => sc.toNat + 1
  let s ← loadInto s { gd := [d.toNat], left := la.toNat, acq := acq } [(ea, loc, n, .int n (decide (sgn = 1)))]
    (decide (1 ≤ sc.toNat))
  .ok (s, .seq)

/-- STS. -/
def bodySts (d a : Reg) (sc sz : BitVec 2) (ord : BitVec 1) (s : State) : Effect := do
  let n := sizeOf sz
  let (s, ea) ← readG s a
  let (s, v) ← readG s d
  aligned ea n
  storeAt s ea n v.toNat (if ord = 1 then .sc else .rel) (scopeOf sc)

/-! ## FNC, PFX, CLN, INVL (R136, R137) -/

/-- A store that the task drained is not performed yet. -/
def storesOpen (s : State) : Bool :=
  (s.core s.curCore).flight.any fun f => f.e.task == s.cur.task && match f.e.act with | .store _ => true | _ => false

/-- The order of an FNC's mark: rel with .ss, acq with .sl, sc with both. -/
def fenceOrder (kinds : BitVec 4) : Order :=
  if bitAt kinds 3 then (if bitAt kinds 2 then .sc else .rel) else if bitAt kinds 2 then .acq else .weak

/-- FNC: kinds .ll, .ls, .sl, .ss from bit 0 up. With .sl it waits for the stores of the task's earlier commit points, so that the later
loads follow them; for the stores before it that a later commit point drains, its mark makes the loads after that wait. -/
def bodyFnc (kinds : BitVec 4) (sc : BitVec 2) (s : State) : Effect := do
  awaitAll s
  require (!(bitAt kinds 2 && storesOpen s)) (.error (.hold .order))
  let s ← addEntry s 0 (.spad 0 0) (fenceOrder kinds) (scopeOf sc) .fence
  .ok (if bitAt kinds 0 || bitAt kinds 2 then s.acquire s.curCore (scopeOf sc) else s, .seq)

/-- PFX: no fault, and nothing when it cannot translate or lacks the right; a line that moves is left. -/
def bodyPfx (a : Reg) (sc : BitVec 2) (s : State) : Effect := do
  let (s, ea) ← readG s a
  let c := s.curCore
  match s.xlateAny c (s.privileged c s.curSlot) ea 1 .read with
  | (s', .at_ (.hbm p phys _ gpa)) =>
    if s'.busy p phys gpa 1 false || !s'.planeOpen p || s'.nearOpen (clusterOf c) none (.hbm p phys 0 gpa) 1 then .ok (s', .seq)
    else if sc.toNat < 2 then
      .ok (if s'.l1Lines c = 0 then s' else s'.l1Fetch c p (phys / 128) gpa, .seq)
    else .ok (s'.openLines (some (clusterOf c)) p phys gpa 1, .seq)
  | _ => .ok (s, .seq)

/-- CLN: the line's partial sums are merged at its home at once. Which sectors of HBM a line has written is no state here:
memory holds what the home holds. A line of another device is merged at its home there by a read of it, for no request of 20 R296 is a
clean: it is complete with the reply, which an FNC.ss at its scope waits for (R137). -/
def bodyCln (a : Reg) (sc : BitVec 2) (s : State) : Effect := do
  let (s, ea) ← readG s a
  let (s, loc) ← s.xlate ea 1 .clean
  match loc with
  | .hbm p phys _ _ =>
    require (s.planeOpen p) (.error (.hold .order))
    .ok (s.mergeLine (phys / 128), .seq)
  | .peer dev part a dom =>
    require (s.flowRoom (s.flowTo dev 0) && s.coreOpen s.curCore) (.error (.hold .order))
    let (req, s) := s.nextReq s.curCore
    let e := newEntry s req ea loc .weak (scopeOf sc) .clean
    .ok ((s.modCore s.curCore fun k => { k with flight := k.flight ++ [⟨e, .sent⟩] }).sendService dev 0 dom s.curCore req (.load part a 1),
      .seq)
  | _ => .ok (s, .seq)

/-- No right is asked of an address: an INVL of one that gives none drops nothing, for TRANSLATE is its only fault (R137). -/
def noRight (s : State) (ea : W64) : Bool :=
  match (s.xlateAny s.curCore (s.privileged s.curCore s.curSlot) ea 1 .inval).2 with
  | .bad cause => cause == Cause.permission
  | _ => false

/-- INVL: .core drops the line from the core's L1, of a fused L1 for this core alone; .grp from every portion of the
cluster. -/
def bodyInvl (a : Reg) (sc : BitVec 2) (s : State) : Effect := do
  let (s, ea) ← readG s a
  if noRight s ea then .ok (s, .seq)
  else
  let (s, loc) ← s.xlate ea 1 .inval
  let c := s.curCore
  match loc with
  | .hbm _ phys _ _ =>
    let ln := phys / 128
    if sc = 0 then
      if (s.core c).fused then
        .ok (s.modCore (s.portion c ln) fun k =>
          match Tbl.get? k.l1 ln with
          | some l => { k with l1 := Tbl.set k.l1 ln { l with valid := l.valid.filter (· != c) } }
          | none => k, .seq)
      else .ok (s.l1Drop c ln, .seq)
    else .ok ((coresOf (clusterOf c)).foldl (fun s k => s.l1Drop k ln) s, .seq)
  | _ => .ok (s, .seq)

/-! ## TMAD (R138) -/

/-- The coordinates that G(b) asks for. -/
def tmadCoords (s : State) (w : W64) : Except Stop (List Nat) :=
  if bitAt w 63 then
    if field w 62 60 ≠ 0 then trapBits Cause.illegal else .ok ((upto 4).map fun k => field w (15 * k + 14) (15 * k))
  else
    match s.rcdAny? s.cur.launch with
    | none => trapBits Cause.illegal
    | some r => if field w 62 28 ≠ 0 then trapBits Cause.illegal else .ok ((upto 4).map (Rec.coord r (field w 27 0)))

/-- TMAD: the checks on G(a) and G(b) at issue; those on the map when it arrives. -/
def bodyTmad (d a b : Reg) (la : BitVec 4) (s : State) : Effect := do
  let (s, ea) ← readG s a
  let (s, w) ← readG s b
  aligned ea 64
  let (s, loc) ← s.xlateLoad ea 64 .read
  let c ← tmadCoords s w
  let s ← loadInto s { gd := [d.toNat], left := la.toNat } [(ea, loc, 64, .tmad c ea)] false
  .ok (s, .seq)

/-! ## AMO, AMOP, RED (R139 to R142) -/

/-- The scope that covers the issuing core and the owner of a place (R139; 14_ordering.md R242). -/
def coveringScope (c : Nat) : Loc → Scope
  | .spad k _ => if k = c then .core else if clusterOf k = clusterOf c then .grp else .dev
  | .peer _ _ _ _ => .sys
  | _ => .dev

/-- Size of an atomic. -/
def atomicSize (sz : BitVec 1) : Nat := if sz = 1 then 8 else 4

/-- AMO: the commit point, then the request. On a mirror core nothing is sent: the result is the other task's
(24_protection.md R335). -/
def bodyAmo (d a b : Reg) (la op : BitVec 4) (sz : BitVec 1) (s : State) : Effect := do
  let n := atomicSize sz
  let c := s.curCore
  let (s, l) ← operandsOnce s (amoOperands a b op)
  let ea := l.getD 0 0
  let p := l.getD 1 0
  let q := l.getD 2 0
  aligned ea n
  let (s, loc) ← s.xlateLoad ea n .atomic
  let s ← commitPoint s
  let mirror := (s.primaryOf? c).isSome
  let (id, s) := s.nextReq c
  let sc := coveringScope c loc
  let e := newEntry s id ea loc .sc sc (.amo op.toNat n p q (s.core c).reqs)
  let s := addPending s { gd := [d.toNat], left := la.toNat, acq := scopeNum sc + 1 }
  .ok (if mirror then s else s.modCore c fun k => { k with flight := k.flight ++ [⟨e, .waiting⟩] }, .seq)

/-- AMOP. -/
def bodyAmop (a b : Reg) (op : BitVec 4) (sz : BitVec 1) (s : State) : Effect := do
  let n := atomicSize sz
  let (s, ea) ← readG s a
  let (s, p) ← readG s b
  aligned ea n
  let (s, loc) ← s.xlate ea n .atomic
  require (!acquirePending s.cur) (.error (.hold .order))
  let s ← addEntry s ea loc .weak .core (.amop op.toNat n p)
  .ok (s, .seq)

/-- A RED operation (0 add, 1 fadd, 2 max, 3 minn) is the one that the REDUCE of the task's launch declares, on whichever device the
launch was accepted (02 R27, 03 R47). DESIGN CHOICE (log entry 9): a task of no launch declares none, so its RED traps ILLEGAL. -/
def redAdmitted (s : State) (op : BitVec 2) : Bool :=
  s.reduceOf s.cur.launch == (match op.toNat with | 0 => 1 | 1 => 5 | 2 => 4 | _ => 3)

/-- RED. -/
def bodyRed (a b : Reg) (op : BitVec 2) (sz : BitVec 1) (s : State) : Effect := do
  let n := atomicSize sz
  require (redAdmitted s op) (trapBits Cause.illegal)
  let (s, ea) ← readG s a
  let (s, p) ← readG s b
  require (decide (field ea 63 48 < 0xFFFE)) (trapBits Cause.illegal)
  aligned ea n
  let (s, loc) ← s.xlate ea n .red
  require (!acquirePending s.cur) (.error (.hold .order))
  let s ← addEntry s ea loc .weak .core (.red op.toNat n p)
  .ok (s, .seq)

/-! ## Meanings -/

/-- LD.b (R134). -/
def execLdB (d a : Reg) (la : BitVec 4) (off : BitVec 10) (s : State) : Host.Outcome State Fault Refusal :=
  issue (.ldB d a la off) (bodyLd d a la off 1 false) s

/-- LD.h (R134). -/
def execLdH (d a : Reg) (la : BitVec 4) (off : BitVec 10) (s : State) : Host.Outcome State Fault Refusal :=
  issue (.ldH d a la off) (bodyLd d a la off 2 false) s

/-- LD.w (R134). -/
def execLdW (d a : Reg) (la : BitVec 4) (off : BitVec 10) (s : State) : Host.Outcome State Fault Refusal :=
  issue (.ldW d a la off) (bodyLd d a la off 4 false) s

/-- LD.d (R134). -/
def execLdD (d a : Reg) (la : BitVec 4) (off : BitVec 10) (s : State) : Host.Outcome State Fault Refusal :=
  issue (.ldD d a la off) (bodyLd d a la off 8 false) s

/-- LD.b.s (R134). -/
def execLdBS (d a : Reg) (la : BitVec 4) (off : BitVec 10) (s : State) : Host.Outcome State Fault Refusal :=
  issue (.ldBS d a la off) (bodyLd d a la off 1 true) s

/-- LD.h.s (R134). -/
def execLdHS (d a : Reg) (la : BitVec 4) (off : BitVec 10) (s : State) : Host.Outcome State Fault Refusal :=
  issue (.ldHS d a la off) (bodyLd d a la off 2 true) s

/-- LD.w.s (R134). -/
def execLdWS (d a : Reg) (la : BitVec 4) (off : BitVec 10) (s : State) : Host.Outcome State Fault Refusal :=
  issue (.ldWS d a la off) (bodyLd d a la off 4 true) s

/-- ST.b (R134). -/
def execStB (d a : Reg) (off : BitVec 10) (s : State) : Host.Outcome State Fault Refusal :=
  issue (.stB d a off) (bodySt d a off 1) s

/-- ST.h (R134). -/
def execStH (d a : Reg) (off : BitVec 10) (s : State) : Host.Outcome State Fault Refusal :=
  issue (.stH d a off) (bodySt d a off 2) s

/-- ST.w (R134). -/
def execStW (d a : Reg) (off : BitVec 10) (s : State) : Host.Outcome State Fault Refusal :=
  issue (.stW d a off) (bodySt d a off 4) s

/-- ST.d (R134). -/
def execStD (d a : Reg) (off : BitVec 10) (s : State) : Host.Outcome State Fault Refusal :=
  issue (.stD d a off) (bodySt d a off 8) s

/-- LDP (R134). -/
def execLdp (d a : Reg) (la : BitVec 4) (off : BitVec 10) (s : State) : Host.Outcome State Fault Refusal :=
  issue (.ldp d a la off) (bodyLdp d a la off) s

/-- STP (R134). -/
def execStp (d a : Reg) (off : BitVec 10) (s : State) : Host.Outcome State Fault Refusal :=
  issue (.stp d a off) (bodyStp d a off) s

/-- LDS (R135). -/
def execLds (d a : Reg) (sc : BitVec 2) (la : BitVec 4) (sz : BitVec 2) (sgn ord : BitVec 1) (s : State) : Host.Outcome State Fault Refusal :=
  issue (.lds d a sc la sz sgn ord) (bodyLds d a sc la sz sgn ord) s

/-- STS (R135). -/
def execSts (d a : Reg) (sc sz : BitVec 2) (ord : BitVec 1) (s : State) : Host.Outcome State Fault Refusal :=
  issue (.sts d a sc sz ord) (bodySts d a sc sz ord) s

/-- FNC (R136). -/
def execFnc (kinds : BitVec 4) (sc : BitVec 2) (s : State) : Host.Outcome State Fault Refusal :=
  issue (.fnc kinds sc) (bodyFnc kinds sc) s

/-- PFX (R137). -/
def execPfx (a : Reg) (sc : BitVec 2) (s : State) : Host.Outcome State Fault Refusal :=
  issue (.pfx a sc) (bodyPfx a sc) s

/-- CLN (R137). -/
def execCln (a : Reg) (sc : BitVec 2) (s : State) : Host.Outcome State Fault Refusal :=
  issue (.cln a sc) (bodyCln a sc) s

/-- INVL (R137). -/
def execInvl (a : Reg) (sc : BitVec 2) (s : State) : Host.Outcome State Fault Refusal :=
  issue (.invl a sc) (bodyInvl a sc) s

/-- TMAD (R138). -/
def execTmad (d a b : Reg) (la : BitVec 4) (s : State) : Host.Outcome State Fault Refusal :=
  issue (.tmad d a b la) (bodyTmad d a b la) s

/-- AMO (R140). -/
def execAmo (d a b : Reg) (la op : BitVec 4) (sz : BitVec 1) (s : State) : Host.Outcome State Fault Refusal :=
  issue (.amo d a b la op sz) (bodyAmo d a b la op sz) s

/-- AMOP (R141). -/
def execAmop (a b : Reg) (op : BitVec 4) (sz : BitVec 1) (s : State) : Host.Outcome State Fault Refusal :=
  issue (.amop a b op sz) (bodyAmop a b op sz) s

/-- RED (R142). -/
def execRed (a b : Reg) (op : BitVec 2) (sz : BitVec 1) (s : State) : Host.Outcome State Fault Refusal :=
  issue (.red a b op sz) (bodyRed a b op sz) s

/-- C.LD is LD.d with lookahead 0 (05_encoding.md R81). -/
def execCLd (d a : BitVec 3) (off : BitVec 5) (s : State) : Host.Outcome State Fault Refusal :=
  issue (.cLd d a off) (bodyLd (8 + d.zeroExtend 5) (8 + a.zeroExtend 5) 0 (off.zeroExtend 10) 8 false) s

/-- C.ST is ST.d (05_encoding.md R81). -/
def execCSt (b a : BitVec 3) (off : BitVec 5) (s : State) : Host.Outcome State Fault Refusal :=
  issue (.cSt b a off) (bodySt (8 + b.zeroExtend 5) (8 + a.zeroExtend 5) (off.zeroExtend 10) 8) s

end Machine
end Sys2Proof
end

