-- ==== Sys2Proof/Machine/Rings.lean ====
section
/-! DEFINITION. Token rings, trellises and step clocks: one round of each, requests and grants, reductions over a trellis
(17_mortar_plane.md R261, R262, R267, R268, R280, R282, R283). -/

namespace Sys2Proof
namespace Machine

/-! ## Token rings (R261, R262) -/

/-- Counter of a member. -/
def Ring.val (r : Ring) (m : Nat) : Nat := Tbl.find 0 r.x m

/-- The member is privileged. -/
def Ring.privileged (r : Ring) (m : Nat) : Bool :=
  if m = 0 then r.val 0 == r.val (r.n - 1) else r.val m != r.val (m - 1)

/-- The member was held at the start of the round. -/
def Ring.heldAtStart (r : Ring) (m : Nat) : Bool := (Tbl.get? r.held m).isSome || r.rel.contains m

/-- Every privileged member that was not held fires, on the values at the start of the round. -/
def Ring.fire (r : Ring) : Ring :=
  { r with
    x := (upto r.n).foldl (fun x m =>
      if r.privileged m && !r.heldAtStart m then
        Tbl.put 0 x m (if m = 0 then (r.val 0 + 1) % r.k else r.val (m - 1))
      else x) r.x
    rel := [] }

/-- The ring shows evidence at the end of a round: the number of privileged members is not 1 (R260). -/
def Ring.evidence (r : Ring) : Bool := decide (((upto r.n).filter r.privileged).length ≠ 1)

/-- The working configuration is reloaded from its shadow (R258). -/
def Ring.reload (r : Ring) : Ring := { r with n := r.shadowN, k := r.shadowK, place := r.shadowPlace }

/-- The start of a round: the configuration is reloaded from its shadow, and counters of K or more are reduced, which is
evidence. -/
def Ring.start (r : Ring) : Ring × Bool :=
  let r := r.reload
  let bad := (upto r.n).any fun m => decide (r.k ≤ r.val m)
  ({ r with x := (upto r.n).foldl (fun x m => Tbl.put 0 x m (r.val m % r.k)) r.x }, bad)

/-- Instance of a configured ring of a partition. -/
def Ring.inst (r : Ring) (p : Nat) : Inst := if r.scope = 1 then .group r.cluster else .device p

/-- Core of a member. -/
def Ring.memberCore (r : Ring) (p : Partition) (m : Nat) : Nat := coreOfPlace p (Tbl.find 0 r.place m)

/-- The member that a core is. -/
def Ring.memberOf? (r : Ring) (p : Partition) (c : Nat) : Option Nat := (upto r.n).find? fun m => r.memberCore p m == c

/-- The configured rings of an instance, by the working n or by its shadow, from which a round's start reloads it: partition and
number. -/
def State.ringsOf (s : State) (i : Inst) : List (Nat × Nat) :=
  s.parts.flatMap fun e =>
    (e.2.tokens.filter fun t => (t.2.n != 0 || t.2.shadowN != 0) && decide (t.2.inst e.1 = i)).map fun t => (e.1, t.1)

/-- A ring of a partition changed. -/
def State.modRing (s : State) (p n : Nat) (f : Ring → Ring) : State := s.modPart p fun k => k.setRing n (f (k.ring n))

/-- A grant task: ring, round, status, tag (R280). One that grants is a completion (R269). -/
def State.startGrant (s : State) (core ring mem : Nat) (i : Inst) (round status : Nat) (q : TokReq) : State :=
  s.startBy core q.cls q.prio ⟨w64 ring, w64 round, w64 status, q.tag⟩ [] q.launch
    (if status = 0 then some ⟨.grant ring mem, i, round⟩ else none)

/-- The end of a round of a ring: members that are privileged, have a request and no grant outstanding grant the oldest. -/
def State.grantRing (s : State) (i : Inst) (round p n : Nat) : State :=
  let r0 := (s.part p).ring n
  (upto r0.n).foldl (fun s m =>
    let r := (s.part p).ring n
    match Tbl.find [] r.fifo m with
    | q :: rest =>
      if r.privileged m && (Tbl.get? r.held m).isNone then
        let s := s.modRing p n fun r => { r with held := Tbl.set r.held m (q, round), fifo := Tbl.put [] r.fifo m rest }
        s.startGrant (r.memberCore (s.part p) m) n m i round 0 q
      else s
    | [] => s) s

/-- A request reaches the CNI (R262 case 3, R280): it enters the FIFO of the member that the core is, or its task starts
with status 1. -/
def State.requestToken (s : State) (c ring scope : Nat) (q : TokReq) : State :=
  match s.corePart? c with
  | none => s
  | some p =>
    let r := (s.part p).ring ring
    let inst : Inst := if scope = 1 then .group (clusterOf c) else .device p
    let refuse := s.startGrant c ring 0 inst (s.detector inst).round 1 q
    match (if r.n ≠ 0 ∧ r.scope = scope then r.memberOf? (s.part p) c else none) with
    | none => refuse
    | some m =>
      let l := Tbl.find [] r.fifo m
      if 8 ≤ l.length then refuse else s.modRing p ring fun r => { r with fifo := Tbl.put [] r.fifo m (l ++ [q]) }

/-- A hold is released: the grant of that round, if it still holds the member. -/
def State.releaseHold (s : State) (c ring mem round : Nat) : State :=
  match s.corePart? c with
  | none => s
  | some p =>
    match Tbl.get? ((s.part p).ring ring).held mem with
    | some (_, r) =>
      if r = round then s.modRing p ring fun r => { r with held := Tbl.del r.held mem, rel := r.rel ++ [mem] } else s
    | none => s

/-! ## Trellises and step clocks (R267, R268) -/

/-- Neighbour of a cluster at a port of the partition's torus. -/
def Partition.neighbour (p : Partition) (k port : Nat) : Nat :=
  let w := p.pw + 1
  let h := p.ph + 1
  let x := clX k - p.px
  let y := clY k - p.py
  match port with
  | 0 => clusterAt (p.px + (x + 1) % w) (p.py + y)
  | 1 => clusterAt (p.px + (x + w - 1) % w) (p.py + y)
  | 2 => clusterAt (p.px + x) (p.py + (y + 1) % h)
  | _ => clusterAt (p.px + x) (p.py + (y + h - 1) % h)

/-- Distance cap of a partition's trellises. -/
def Partition.cap (p : Partition) : Nat := (p.pw + 1) / 2 + (p.ph + 1) / 2

/-- The root of a launch's trellis. -/
def trellisRoot (p : Partition) (r : BitVec 1024) : Nat := clusterAt (p.px + Rec.gx r) (p.py + Rec.gy r)

/-- Distance and parent that the rule of R267 gives a node, from the distances of its neighbours. -/
def nodeRule (cap : Nat) (ds : List (Nat × Nat)) : Nat × Nat :=
  let least := ds.foldl (fun m e => Nat.min m e.2) (ds.headD (0, 0)).2
  (Nat.min cap (1 + least), ((ds.find? fun e => e.2 == least).map (·.1)).getD 31)

/-- The rule for a node of a launch's trellis. -/
def Trellis.rule (t : Trellis) (p : Partition) (root k : Nat) : Nat × Nat :=
  if k = root then (0, 31)
  else nodeRule p.cap ([0, 1, 2, 3].map fun port => (port, Tbl.find 0 t.dist (p.neighbour k port)))

/-- One round of a trellis and its clock. -/
def Trellis.step (t : Trellis) (p : Partition) (root : Nat) : Trellis :=
  let ks := p.clusters
  { dist := ks.foldl (fun d k => Tbl.put 0 d k (t.rule p root k).1) t.dist
    parent := ks.foldl (fun d k => Tbl.put 31 d k (t.rule p root k).2) t.parent
    clock := ks.foldl (fun d k =>
      let own := Tbl.find 0 t.clock k
      let port := Tbl.find 31 t.parent k
      Tbl.put 0 d k (if k = root then (own + 1) % 2 ^ 32
        else if 4 ≤ port then own else Tbl.find 0 t.clock (p.neighbour k port))) t.clock
    was := t.was }

/-- Evidence at the end of a round: a node breaks the rule, or differs from its parent's value at the end of the previous
round (R260). -/
def Trellis.evidence (t : Trellis) (p : Partition) (root : Nat) : Bool :=
  p.clusters.any fun k =>
    decide ((Tbl.find 0 t.dist k, Tbl.find 31 t.parent k) ≠ t.rule p root k)
      || (k != root && Tbl.find 0 t.clock k != Tbl.find 0 t.was (p.neighbour k (Tbl.find 31 t.parent k)))

/-- The values at the end of this round are kept for the next one's evidence. -/
def Trellis.keep (t : Trellis) : Trellis := { t with was := t.clock }

/-- The launch holds walkers (R58). -/
def State.holdsWalkers (s : State) (l : LaunchId) : Bool :=
  s.clusters.any fun e => e.2.walkers.any fun w => w.2.launch == some l

/-- The launches of a partition that have a trellis. -/
def State.trellises (s : State) (p : Nat) : List LaunchId :=
  let ctx := (s.part p).ctx
  ((s.ctx ctx).launches.map fun e => ({ ctx := ctx, lid := e.1 } : LaunchId)).filter s.holdsWalkers

/-! ## Reductions and multicasts (R282, R283) -/

/-- One step of a reduction. -/
def trrdCombine (op : Nat) (a b : W64) : W64 :=
  match op with
  | 0 => a + b
  | 1 => a &&& b
  | 2 => a ||| b
  | 3 => a ^^^ b
  | 4 => if a.toInt < b.toInt then a else b
  | 5 => if a.toInt < b.toInt then b else a
  | 6 => if a.toNat < b.toNat then a else b
  | 7 => if a.toNat < b.toNat then b else a
  | _ => w64 (f32add (asF32 a) (asF32 b)).toNat

/-- Values combined in order. -/
def trrdFold (op : Nat) : List W64 → Option W64
  | [] => none
  | x :: r => some (r.foldl (trrdCombine op) x)

/-- The children of a node, in increasing port order of the node. -/
def Trellis.children (t : Trellis) (p : Partition) (root k : Nat) : List Nat :=
  ([0, 1, 2, 3].map fun port => (port, p.neighbour k port)).filterMap fun e =>
    let back := Tbl.find 31 t.parent e.2
    if e.2 ≠ root ∧ e.2 ≠ k ∧ back < 4 ∧ p.neighbour e.2 back = k ∧ back / 2 = e.1 / 2 ∧ back ≠ e.1 then some e.2 else none

/-- The result of a node: its cluster's contributions in core order, then its children's results in port order. -/
def trrdNode (op : Nat) (t : Trellis) (p : Partition) (root : Nat) (cs : List Contribution) : Nat → Nat → Option W64
  | 0, _ => none
  | fuel + 1, k =>
    let mine := (coresOf k).filterMap fun c => (cs.find? fun x => x.core == c).map (·.v)
    let below := (t.children p root k).filterMap fun j => trrdNode op t p root cs fuel j
    trrdFold op (mine ++ below)

/-- The result of a generation; cores that name different operations have no stated result. -/
def State.trrdResult (s : State) (t : Trellis) (p : Partition) (root : Nat) (cs : List Contribution) : W64 × State :=
  let op := (cs.head?.map (·.op)).getD 0
  if cs.all fun c => c.op == op then
    let v := (trrdNode op t p root cs (p.cap + 1) root).getD 0
    (if op = 8 then w64 (v.toNat % 2 ^ 32) else v, s)
  else
    let (f, s) := s.nextFree
    (Config.freeWord f, s)

/-- TRRD_GENERATION_CLOSE: the lowest open generation to which every gang core has contributed closes; each gang core
receives its result task. -/
def State.closeTrrd (s : State) (l : LaunchId) : State :=
  match s.launch? l, s.residentIn? l.ctx with
  | some k, some pn =>
    let p := s.part pn
    let gang := gangCores p k.rcd
    match k.gens.find? fun g => gang.all fun c => g.2.any fun x => x.core == c with
    | none => s
    | some (g, cs) =>
      let round := (s.part pn).det.round
      let (v, s) := s.trrdResult k.trellis p (trellisRoot p k.rcd) cs
      let s := s.setLaunch l { k with gens := Tbl.del k.gens g, closed := k.closed ++ [(g, round, cs)] }
      gang.foldl (fun s c =>
        match cs.find? fun x => x.core == c with
        | some x => s.startBy c x.cls x.prio ⟨v, w64 g, w64 cs.length, w64 round⟩ [] (some l)
            (some ⟨.reduction g, .device pn, round⟩)
        | none => s) s
  | _, _ => s

/-- A contribution may be performed: its generation is open, or fewer than four are (R283). -/
def Launch.trrdRoom (k : Launch) (g : Nat) : Bool := (Tbl.get? k.gens g).isSome || decide (k.gens.length < 4)

/-- TRMC_DELIVERY: the multicast in flight reaches every gang core. -/
def State.deliverTrmc (s : State) (l : LaunchId) : State :=
  match s.launch? l, s.residentIn? l.ctx with
  | some k, some pn =>
    match k.trmc with
    | [] => s
    | (cls, q, prio) :: rest =>
      let round := (s.part pn).det.round
      let s := s.setLaunch l { k with trmc := rest, trmcSent := k.trmcSent ++ [(round, (cls, q, prio))] }
      (gangCores (s.part pn) k.rcd).foldl (fun s c =>
        s.startBy c cls prio q (leBytes 8 round) (some l) (some ⟨.multicast, .device pn, round⟩)) s
  | _, _ => s

end Machine
end Sys2Proof
end

