-- ==== Sys2Proof/Machine/Rounds.lean ====
section
/-! DEFINITION. Rounds of the mortar plane: verdicts and legitimacy, containment, mortar-state addresses and SYNLD, and the
event of a round (17_mortar_plane.md R257 to R260, R269 to R275; 07 R132; 18_program_token_ring.md R284). -/

namespace Sys2Proof
namespace Machine

/-! ## The word of an instance (R259, R260) -/

/-- Detector latency in rounds. -/
def instLatency : Inst → Nat
  | .group _ => 1
  | .device _ => 2
  | .system _ => 2

/-- The convergence bound of an instance. -/
def State.bound (s : State) (i : Inst) : Nat :=
  let rings := (s.ringsOf i).map fun e => 2 * ((s.part e.1).ring e.2).n - 1
  let others :=
    match i with
    | .group k => ((s.cluster k).courses.filter fun c => c.2.mem != 0).map fun _ => 2
    | .device p => (s.trellises p).flatMap fun _ => [(s.part p).cap + 2, 2 * (s.part p).cap + 2]
    | .system d => match Tbl.get? s.fabric.sysTrellis d with | some n => if n.conf then [2 * n.cap + 2] else [] | none => []
  (rings ++ others).foldl Nat.max 0

/-- The word that LGRD returns. -/
def State.legitWord (s : State) (i : Inst) : W64 :=
  let d := s.detector i
  w64 (d.round % 2 ^ 32 * 2 ^ 32 + s.bound i % 65536 * 65536 + Nat.min 255 d.since * 256 + ofBool d.legit)

/-- The instance of a scope that holds a core. -/
def State.instOf (s : State) (c scope : Nat) : Inst :=
  let p := (s.corePart? c).getD 0
  match scope with
  | 1 => .group (clusterOf c)
  | 2 => .device p
  | _ => .system (s.ctx (s.part p).ctx).domain

/-! ## Containment (R269 to R272) -/

/-- Queued completions of a refuted round are withdrawn (R271), and the clusters of their launches may have exited by that (03
R49). -/
def State.withdraw (s : State) (i : Inst) (round : Nat) : State :=
  let gone := (s.clusters.flatMap fun e => e.2.tasks.filter fun t => s.refutedMsg i round t.2)
    ++ s.cores.flatMap fun e => (e.2.runq.filter fun q => s.refutedMsg i round q.msg).map fun q => (e.1, q.msg)
  let t : State := { s with
    clusters := s.clusters.map fun e => (e.1, { e.2 with tasks := e.2.tasks.filter fun t => !s.refutedMsg i round t.2 })
    cores := s.cores.map fun e =>
      let gone := e.2.runq.filter fun q => s.refutedMsg i round q.msg
      (e.1, gone.foldl (fun k q => k.inFree q.off)
        { e.2 with runq := e.2.runq.filter fun q => !s.refutedMsg i round q.msg }) }
  gone.foldl (fun s e => s.noteExit e.1 e.2.launch) t

/-- A slot whose pair is confirmed. -/
def confirmSlot (i : Inst) (round : Nat) (t : Slot) : Slot :=
  let left := t.pairs.filter fun x => !(decide (x.inst = i) && x.round == round)
  { t with pairs := left, taint := !left.isEmpty }

/-- All slots that run a task. -/
def State.runningSlots (s : State) : List (Nat × Nat) :=
  s.cores.flatMap fun e => (e.2.slots.filter fun t => t.2.running).map fun t => (e.1, t.1)

/-- Scope number of an instance. -/
def instScope : Inst → Nat
  | .group _ => 1
  | .device _ => 2
  | .system _ => 3

/-- The record of R272 about some tasks, for a partition. -/
def State.containRec (s : State) (i : Inst) (round p : Nat) (l : List (Nat × W32 × Nat)) : State :=
  let k := s.part p
  let place := match i with
    | .group c => w64 (256 * (clX c - k.px) + 4096 * (clY c - k.py))
    | _ => 0
  let r := reportRec Cause.containment (instScope i * 16384 + Nat.min 16 l.length) 0 place 0 (w64 round)
  let pay := (l.take 16).flatMap fun e =>
    leBytes 8 (e.2.1.toNat + indexOf e.2.2 * 2 ^ 32 + (clX (clusterOf e.2.2) - k.px) * 2 ^ 36 + (clY (clusterOf e.2.2) - k.py) * 2 ^ 40)
  s.postRec p { r with w0 := if 16 < l.length then r.w0 ||| w64 (2 ^ 60) else r.w0, payload := pay, core := k.supCore }

/-- One record of R272 for each partition that has tasks in a list, or eager tasks among some cores. -/
def State.containRecs (s : State) (i : Inst) (round : Nat) (l : List (Nat × W32 × Nat)) (cores : List Nat) : State :=
  (((l.map fun e => e.2.2) ++ cores).filterMap s.corePart?).dedup.foldl (fun s p =>
    s.containRec i round p (l.filter fun e => s.corePart? e.2.2 == some p)) s

/-- Cores on which an eager task holds a pair of an instance and a round. -/
def State.eagerHolders (s : State) (i : Inst) (round : Nat) : List Nat :=
  (s.runningSlots.filter fun e =>
    let t := s.slot e.1 e.2
    s.eager t.launch && t.pairs.any fun x => decide (x.inst = i) && x.round == round).map (·.1)

/-- What a verdict undoes or settles in the rings of an instance (R271). -/
def State.judgeRings (s : State) (i : Inst) (round : Nat) (v : Bool) : State :=
  if v then s
  else
    (s.ringsOf i).foldl (fun s e =>
      ((s.part e.1).ring e.2).held.foldl (fun s h =>
        if h.2.2 = round ∧ s.eager h.2.1.launch = false then
          s.modRing e.1 e.2 fun r => { r with
            held := Tbl.del r.held h.1, rel := r.rel ++ [h.1]
            fifo := Tbl.put [] r.fifo h.1 (h.2.1 :: Tbl.find [] r.fifo h.1) }
        else s) s) s

/-- Reductions and multicasts of a launch: a refuted generation reopens, a refuted multicast is repeated (R271). -/
def judgeLaunch (round : Nat) (undo : Bool) (k : Launch) : Launch :=
  let back := if undo then k.closed.filter fun g => g.2.1 == round else []
  let again := if undo then k.trmcSent.filter fun x => x.1 == round else []
  { k with
    gens := back.foldl (fun m g => Tbl.set m g.1 g.2.2) k.gens
    closed := k.closed.filter fun g => g.2.1 != round
    trmc := again.map (·.2) ++ k.trmc
    trmcSent := k.trmcSent.filter fun x => x.1 != round }

/-- The structures of an instance hear the verdict of a round. -/
def State.judgeStructures (s : State) (i : Inst) (round : Nat) (v : Bool) : State :=
  let s := s.judgeRings i round v
  match i with
  | .group k => (s.cluster k).courses.foldl (fun s c => s.judgeCourse k c.1 round v) s
  | .device p =>
    let ctx := (s.part p).ctx
    s.modCtx ctx fun x => { x with launches := x.launches.map fun e =>
      (e.1, judgeLaunch round (!v && !s.eager (some { ctx := ctx, lid := e.1 })) e.2) }
  | .system _ => s

/-- A verdict is delivered (R259, R270 to R272). A refuted round that some eager task has consumed a completion of has a record, also
where none of these tasks has committed by then. -/
def State.judge (s : State) (i : Inst) (round : Nat) (v : Bool) : State :=
  let s := s.modDetector i fun d => { d with
    legit := v, since := if d.legit && !v then 0 else Nat.min 255 (d.since + 1) }
  let ate := (s.detector i).eaters.filter fun e => e.1 == round
  let slots := s.runningSlots
  if v then
    let s := slots.foldl (fun s e => s.modSlot e.1 e.2 (confirmSlot i round)) s
    (s.judgeStructures i round true).modDetector i fun d => { d with eaters := d.eaters.filter fun e => e.1 != round }
  else
    let s := s.containRecs i round ate (s.eagerHolders i round)
    let s := (s.judgeStructures i round false).withdraw i round
    let s := slots.foldl (fun s e => s.refuteSlot i round e.1 e.2) s
    s.modDetector i fun d => { d with
      eaters := d.eaters.filter fun e => e.1 != round, refuted := d.refuted ++ [round] }

/-- Tasks that committed in this round what was refuted before (R272). -/
def State.lateRecords (s : State) (i : Inst) : State :=
  let late := (s.detector i).late
  let s := ((late.map (·.1)).dedup).foldl (fun s r => s.containRecs i r (late.filter fun e => e.1 == r) []) s
  s.modDetector i fun d => { d with late := [] }

/-! ## Mortar-state addresses (R274, R275, R284) -/

/-- What a mortar-state address names. -/
inductive MField where
  | course (cluster idx fld mem : Nat)
  | ringX (ring mem : Nat)
  | ringN (ring : Nat)
  | ringK (ring : Nat)
  | ringPlace (ring mem : Nat)
  | dist (l : LaunchId) (cluster : Nat)
  | parent (l : LaunchId) (cluster : Nat)
  | clock (l : LaunchId) (cluster : Nat)
  | sysDist (dom : Nat)
  | sysParent (dom : Nat)
  | sysClock (dom : Nat)
deriving DecidableEq, Repr

/-- The field that an address names in a partition, or the cause of the trap. -/
def State.mfield (s : State) (p : Nat) (a : W64) : Except Nat MField :=
  let k := s.part p
  let type := field a 62 60
  let scope := field a 59 58
  let y := field a 57 54
  let x := field a 53 50
  let idx := field a 49 44
  let mem := field a 43 36
  let fld := field a 35 32
  let inside := decide (x ≤ k.pw) && decide (y ≤ k.ph)
  let cl := clusterAt (k.px + x) (k.py + y)
  let dom := (s.ctx k.ctx).domain
  let ringOk := decide (x = 0 ∧ y = 0 ∧ idx ≤ 15 ∧ mem ≤ 63) && decide (scope = 1 ∨ scope = 2)
    && (decide ((k.ring idx).shadowN = 0) || decide ((k.ring idx).scope = scope))
  let sysOk := decide (scope = 3 ∧ x = 0 ∧ y = 0 ∧ idx = 0 ∧ mem = 0) && ((Tbl.get? s.fabric.sysTrellis dom).any (·.conf))
  if field a 31 0 ≠ 0 then .error Cause.illegal
  else
    match type with
    | 0 =>
      if scope = 1 ∧ idx ≤ 15 ∧ mem ≤ 71 ∧ fld ≤ 11 ∧ (fld = 5 ∨ mem = 0) then
        if inside then .ok (.course cl idx fld mem) else .error Cause.permission
      else .error Cause.illegal
    | 1 => if ringOk && decide (fld = 0) then .ok (.ringX idx mem) else .error Cause.illegal
    | 2 =>
      if ringOk && decide (fld = 0 ∧ mem = 0) then .ok (.ringN idx)
      else if ringOk && decide (fld = 1 ∧ mem = 0) then .ok (.ringK idx)
      else if ringOk && decide (fld = 2) then .ok (.ringPlace idx mem)
      else .error Cause.illegal
    | 3 =>
      if sysOk && decide (fld = 0) then .ok (.sysDist dom)
      else if sysOk && decide (fld = 1) then .ok (.sysParent dom)
      else if scope = 2 ∧ idx ≤ 3 ∧ mem = 0 ∧ fld ≤ 1 then
        if !inside then .error Cause.permission
        else
          match Tbl.get? (s.cluster cl).walkers idx with
          | some { launch := some l, .. } => .ok (if fld = 0 then .dist l cl else .parent l cl)
          | _ => .error Cause.illegal
      else .error Cause.illegal
    | 4 =>
      if sysOk && decide (fld = 0) then .ok (.sysClock dom)
      else if scope = 2 ∧ idx ≤ 3 ∧ mem = 0 ∧ fld = 0 then
        if !inside then .error Cause.permission
        else
          match Tbl.get? (s.cluster cl).walkers idx with
          | some { launch := some l, .. } => .ok (.clock l cl)
          | _ => .error Cause.illegal
      else .error Cause.illegal
    | _ => .error Cause.illegal

/-- Bits 63 to 0, or 71 to 64, of a 72-bit field replaced; bits of slot 0 stay 0. -/
def put72 (w : BitVec 72) (high : Bool) (v : W64) : BitVec 72 :=
  let mask : BitVec 72 := 0xFEFEFEFEFEFEFEFEFE#72
  (if high then BitVec.ofNat 72 (w.toNat % 2 ^ 64 + v.toNat % 256 * 2 ^ 64)
    else BitVec.ofNat 72 (w.toNat / 2 ^ 64 * 2 ^ 64 + v.toNat)) &&& mask

/-- A course with a field written; `cfg` says that the shadow of a configuration field is written too. -/
def Course.poke (k : Course) (fld mem : Nat) (v : W64) (cfg : Bool) : Course :=
  let n32 := v.toNat % 2 ^ 32
  let setMem (high : Bool) : Course :=
    { k with mem := put72 k.mem high v, shadow := if cfg then put72 k.shadow high v else k.shadow }
  match fld with
  | 0 => { k with f := { k.f with q := v.toNat % 4 } }
  | 1 => { k with f := { k.f with arr := put72 k.f.arr false v } }
  | 2 => { k with f := { k.f with arr := put72 k.f.arr true v } }
  | 3 => { k with f := { k.f with held := put72 k.f.held false v } }
  | 4 => { k with f := { k.f with held := put72 k.f.held true v } }
  | 5 => { k with f := { k.f with pm := Tbl.put 0 k.f.pm mem (v.toNat % 4) } }
  | 6 => { k with f := { k.f with dcur := n32 }, overMark := k.overMark && !cfg, overSent := k.overSent && !cfg }
  | 7 => { k with f := { k.f with ecur := n32 }, overMark := k.overMark && !cfg, overSent := k.overSent && !cfg }
  | 8 => { k with f := { k.f with dnxt := n32 } }
  | 9 => { k with f := { k.f with enxt := n32 } }
  | 10 => setMem false
  | _ => setMem true

/-- The node of the system trellis of a domain changed. -/
def State.modSys (s : State) (d : Nat) (f : SysTrellis → SysTrellis) : State :=
  match Tbl.get? s.fabric.sysTrellis d with
  | some n => if n.conf then { s with fabric := { s.fabric with sysTrellis := Tbl.set s.fabric.sysTrellis d (f n) } } else s
  | none => s

/-- A field of mortar state written: by SYNLD, with the shadow of a configuration field, or by a soft error. -/
def State.poke (s : State) (p : Nat) (fd : MField) (v : W64) (cfg : Bool) : State :=
  let onTrellis (l : LaunchId) (f : Trellis → Trellis) : State := s.modLaunch l fun k => { k with trellis := f k.trellis }
  match fd with
  | .course k idx fld mem => s.modCourse k idx fun c => c.poke fld mem v cfg
  | .ringX r m => s.modRing p r fun k => { k with x := Tbl.put 0 k.x m (v.toNat % 128) }
  | .ringN r => s.modRing p r fun k => { k with n := v.toNat % 128, shadowN := if cfg then v.toNat % 128 else k.shadowN }
  | .ringK r => s.modRing p r fun k => { k with k := v.toNat % 256, shadowK := if cfg then v.toNat % 256 else k.shadowK }
  | .ringPlace r m =>
    let w := w64 (v.toNat % 2 ^ 38)
    s.modRing p r fun k => { k with place := Tbl.set k.place m w
                                    shadowPlace := if cfg then Tbl.set k.shadowPlace m w else k.shadowPlace }
  | .dist l k => onTrellis l fun t => { t with dist := Tbl.put 0 t.dist k (v.toNat % 32) }
  | .parent l k => onTrellis l fun t => { t with parent := Tbl.put 31 t.parent k (v.toNat % 32) }
  | .clock l k => onTrellis l fun t => { t with clock := Tbl.put 0 t.clock k (v.toNat % 2 ^ 32) }
  | .sysDist d => s.modSys d fun n => { n with dist := v.toNat % 32 }
  | .sysParent d => s.modSys d fun n => { n with parent := v.toNat % 32 }
  | .sysClock d => s.modSys d fun n => { n with clock := v.toNat % 2 ^ 32 }

/-- Ring of a field. -/
def MField.ring? : MField → Option Nat
  | .ringX r _ => some r
  | .ringN r => some r
  | .ringK r => some r
  | .ringPlace r _ => some r
  | _ => none

/-- A member place is a core of the partition; the stage of a kind-0 place is ignored (08 R145). -/
def State.goodPlace (s : State) (k : Partition) (w : W64) : Bool :=
  decide (plKind w = 0) && decide (plCore w ≤ 8) && decide (plX w ≤ k.pw) && decide (plY w ≤ k.ph) && s.ownDevice w

/-- A ring as a set would leave it keeps the rules of R275 case 3 for a scope. -/
def State.ringGood (s : State) (k : Partition) (r : Ring) (scope : Nat) : Bool :=
  let places := (upto r.n).map fun m => Tbl.get? r.place m
  let cores := (places.filterMap id).map (coreOfPlace k)
  let one := decide ((cores.map clusterOf).dedup.length = 1)
  decide (2 ≤ r.n) && decide (r.n ≤ 64) && decide (r.n ≤ r.k) && decide (r.k ≤ 128) && decide (2 ^ Nat.log2 r.k = r.k)
    && places.all Option.isSome && (places.filterMap id).all (s.goodPlace k) && decide (cores.dedup.length = r.n)
    && (if scope = 1 then one else !one)

/-- A ring whose set configures it takes its scope and cluster; one that a set unconfigures has none. -/
def settleRing (k : Partition) (scope : Nat) (r : Ring) : Ring :=
  if r.n = 0 then { r with scope := 0, cluster := 0 }
  else { r with scope := scope, cluster := if scope = 1 then clusterOf (r.memberCore k 0) else 0 }

/-- The rings that a set names. -/
def setRings (l : List (MField × W64)) : List Nat := (l.filterMap fun e => e.1.ring?).dedup

/-- The state as a set would leave it: the configuration of the rings that it names stands as the round's start reloads it (R258). -/
def State.pokeSet (s : State) (p : Nat) (l : List (MField × W64)) : State :=
  l.foldl (fun s e => s.poke p e.1 e.2 true) ((setRings l).foldl (fun s n => s.modRing p n Ring.reload) s)

/-- A set applied as a whole, or not at all. -/
def State.applySet (s : State) (p scope : Nat) (l : List (MField × W64)) : Option State :=
  let t := s.pokeSet p l
  let rings := setRings l
  if rings.all fun n => decide (((t.part p).ring n).n = 0) || t.ringGood (t.part p) ((t.part p).ring n) scope then
    some (rings.foldl (fun s n => s.modRing p n (settleRing (s.part p) scope)) t)
  else none

/-- The clusters of a ring's member places that are cores of the partition. -/
def State.ringClusters (s : State) (k : Partition) (r : Ring) : List Nat :=
  (((upto r.n).filterMap fun m => Tbl.get? r.place m).map fun w =>
    if s.goodPlace k w then clusterOf (coreOfPlace k w) else 256).dedup

/-- The instance at whose round a ring of group scope is written: the cluster of its member places; of one that the set unconfigures, the
cluster that held it. DESIGN CHOICE (log entry 8): where the places that a set would leave lie in no one cluster of the partition, so that
R275 case 3 refuses it, the boundary is that of the issuing core's cluster. -/
def State.ringHome (s : State) (t : State) (p n : Nat) : Nat :=
  let old := (s.part p).ring n
  let new := (t.part p).ring n
  match s.ringClusters (s.part p) new with
  | [k] => if k < 256 then k else clusterOf s.curCore
  | [] => if new.n = 0 ∧ old.shadowN ≠ 0 then old.cluster else clusterOf s.curCore
  | _ => clusterOf s.curCore

/-- The instances at whose round a set applies: those that will hold its rings; where it names no ring, those of its other structures. DESIGN
CHOICE (log entry 8): a set whose structures lie in several instances applies at the first round that one of them starts. -/
def State.setInsts (s : State) (p scope : Nat) (l : List (MField × W64)) : List Inst :=
  let t := s.pokeSet p l
  if scope = 2 then [.device p]
  else if scope = 3 then [.system (s.ctx (s.part p).ctx).domain]
  else
    match setRings l with
    | [] => l.filterMap fun e => match e.1 with | .course k _ _ _ => some (.group k) | _ => none
    | rings => rings.map fun n => .group (s.ringHome t p n)

/-- The fields and values of staged writes. DESIGN CHOICE (log entry 8): a staged write whose address names no mortar state any more
when its set applies, as the trellis of a launch that has ended since, is left out of the set, for R132 says nothing of it. -/
def State.stagedFields (s : State) (p : Nat) (l : List (W64 × W64)) : List (MField × W64) :=
  l.filterMap fun e => match s.mfield p e.1 with | .ok f => some (f, e.2) | .error _ => none

/-- The turn of an applying SYNLD that issues now: after every one that waits (07 R132 case 3). -/
def State.synldTurn (s : State) : Nat :=
  1 + s.parts.foldl (fun m e => match (s.slot e.2.supCore 7).wait with | .synld t => Nat.max m t | _ => m) 0

/-- SYNLD (07 R132). An applying one waits for the round of the instance that applies it; `now` is the instance whose round starts, and the
turn that the waiting SYNLD has. -/
def bodySynld (a b : Reg) (now : Option (Inst × Nat)) (s : State) : Effect := do
  privileged s
  let (s, x) ← readG s a
  let (s, v) ← readG s b
  let p := (s.corePart? s.curCore).getD 0
  let addr := x &&& 0x7FFFFFFFFFFFFFFF#64
  match s.mfield p addr with
  | .error cause => trapBits cause
  | .ok f =>
    let staged := s.cur.staged
    if bitAt x 63 then
      if 16 ≤ staged.length then trapBits Cause.illegal
      else .ok (s.modCur fun t => { t with staged := t.staged ++ [(addr, v)] }, .seq)
    else
      require (staged.all fun e => field e.1 59 58 == field addr 59 58) (trapBits Cause.illegal)
      let l := s.stagedFields p staged ++ [(f, v)]
      let scope := field addr 59 58
      if now.any fun i => (s.setInsts p scope l).contains i.1 then
        match s.applySet p scope l with
        | some t => .ok (t.modCur fun t => { t with staged := [] }, .seq)
        | none => trapBits Cause.illegal
      else .error (.hold (.synld ((now.map (·.2)).getD s.synldTurn)))

/-! ## A round (R257) -/

/-- The turn of the waiting SYNLD of a partition's supervisor slot. -/
def State.synldOf (s : State) (p : Nat) : Nat := match (s.slot (s.part p).supCore 7).wait with | .synld t => t | _ => 0

/-- The sets that wait for the start of a round of an instance apply, in the order in which their SYNLDs issued (07 R132 case 3). -/
def State.applySynlds (s : State) (i : Inst) : State :=
  (sortBy s.synldOf (s.parts.map (·.1))).foldl (fun s p =>
    let c := (s.part p).supCore
    if (s.part p).en && !(s.core c).halted then
      s.finish c 7 (fun w => match w with | .synld _ => true | _ => false) fun j => match j with
        | .synld a b => some (bodySynld a b (some (i, s.synldOf p)))
        | _ => none
    else s) s

/-- Counts of TIME in a round of an instance: 8, 64, and 4 microseconds of the 2.7 GHz reference (R257). -/
def roundLength : Inst → Nat
  | .group _ => 8
  | .device _ => 64
  | .system _ => 10800

/-- The current round of an instance is at its end. -/
def State.roundDue (s : State) (i : Inst) : Bool := decide ((s.detector i).began + roundLength i ≤ s.time)

/-- The start of a round: sets apply, configuration is reloaded, and what R261 and R264 do first; changes are evidence. The rule of
overdelivery is looked at again, for a SYNLD, a member that left or one of these rules may have met it (R266 case 4). -/
def State.roundStart (s : State) (i : Inst) : State :=
  let s := s.applySynlds i
  let see (s : State) (b : Bool) : State := s.modDetector i fun d => { d with evid := d.evid || b }
  let s := (s.ringsOf i).foldl (fun s e =>
    let (r, b) := ((s.part e.1).ring e.2).start
    see (s.setPart e.1 ((s.part e.1).setRing e.2 r)) b) s
  match i with
  | .group k => (s.cluster k).courses.foldl (fun s c =>
      let (x, b) := ((s.cluster k).course c.1).start
      (see (s.modCourse k c.1 fun _ => x) b).checkOver k c.1 x.f.q 0 (16 * k + 8)) s
  | _ => s

/-- One round of the system trellis at this device's node (R267, R268). -/
def SysTrellis.step (t : SysTrellis) (dev : Nat) : SysTrellis :=
  if dev = t.root then { t with dist := 0, parent := 31, clock := (t.clock + 1) % 2 ^ 32 }
  else
    let (d, q) := nodeRule t.cap (t.heard.map fun e => (e.1, e.2.1))
    { t with dist := d, parent := q, clock := ((Tbl.get? t.heard t.parent).map (·.2)).getD t.clock }

/-- Evidence of this device's node at the end of a round. -/
def SysTrellis.evidence (t : SysTrellis) (dev : Nat) : Bool :=
  dev != t.root &&
    (decide ((t.dist, t.parent) ≠ nodeRule t.cap (t.heard.map fun e => (e.1, e.2.1)))
      || (match Tbl.get? t.heard t.parent with | some h => h.2 != t.clock | none => true))

/-- The node's state goes to the devices at the other ends of the scale-up links, in their TC 2 flows (20_fabric.md R295, R296); where a
flow is full the next round's state does. -/
def State.tellNeighbours (s : State) (d : Nat) : State :=
  match Tbl.get? s.fabric.sysTrellis d with
  | none => s
  | some t =>
    if t.conf then
      (upto 24).foldl (fun s p =>
        let dev := Config.linkPeer p % 2 ^ 18
        if (s.fabric.link p).up && s.flowRoom (s.flowTo dev 2) then s.sendVia dev 2 d 0 (some p) (.mortar t.dist t.clock) else s) s
    else s

/-- The structures of an instance take their step of the round and what its end brings. -/
def State.stepStructures (s : State) (i : Inst) (round : Nat) : State :=
  let s := (s.ringsOf i).foldl (fun s e => (s.modRing e.1 e.2 Ring.fire).grantRing i round e.1 e.2) s
  match i with
  | .group k => (s.cluster k).courses.foldl (fun s c =>
      if ((s.cluster k).course c.1).ready then s.completeCourse k c.1 round else s) s
  | .device p => (s.trellises p).foldl (fun s l => s.modLaunch l fun k =>
      { k with trellis := k.trellis.step (s.part p) (trellisRoot (s.part p) k.rcd) }) s
  | .system d => (s.modSys d fun t => t.step s.fabric.devId).tellNeighbours d

/-- The end of a round shows evidence (R260). What the nodes of other devices show is not in this device's state. -/
def State.roundEvidence (s : State) (i : Inst) : Bool × State :=
  let own := (s.detector i).evid || (s.ringsOf i).any fun e => ((s.part e.1).ring e.2).evidence
  match i with
  | .group _ => (own, s)
  | .device p => (own || (s.trellises p).any fun l =>
      match s.launch? l with
      | some k => k.trellis.evidence (s.part p) (trellisRoot (s.part p) k.rcd)
      | none => false, s)
  | .system d =>
    match Tbl.get? s.fabric.sysTrellis d with
    | none => (own, s)
    | some t =>
      if !t.conf then (own, s)
      else if t.heard.isEmpty then (own || t.evidence s.fabric.devId, s)
      else
        let (f, s) := s.nextFree
        (own || t.evidence s.fabric.devId || Config.otherNodes f, s)

/-- Clock values are kept at the end of a round. -/
def State.keepClocks (s : State) (i : Inst) : State :=
  match i with
  | .device p => (s.trellises p).foldl (fun s l => s.modLaunch l fun k => { k with trellis := k.trellis.keep }) s
  | _ => s

/-- The current round of an instance ends and the next begins. DESIGN CHOICE (log entry 8): the structures take their step before the
round's verdict is delivered, so a course whose last completion that verdict confirms completes at the end of the next round at the earliest;
R265 and R270 do not say which of the two comes first at a round's end. -/
def State.mortarRound (s : State) (i : Inst) : State :=
  let r := (s.detector i).round
  let s := s.stepStructures i r
  let (bad, s) := s.roundEvidence i
  let s := s.keepClocks i
  let s := s.modDetector i fun d => { d with waiting := d.waiting ++ [(r, !bad)], evid := false }
  let s :=
    match (s.detector i).waiting with
    | (r0, v) :: rest =>
      if instLatency i < (s.detector i).waiting.length then
        (s.modDetector i fun d => { d with waiting := rest }).judge i r0 v
      else s.modDetector i fun d => { d with since := Nat.min 255 (d.since + 1) }
    | [] => s
  let s := s.lateRecords i
  (s.modDetector i fun d => { d with round := (d.round + 1) % 2 ^ 32, began := s.time }).roundStart i

/-- MORTAR_ROUND: a round ends when its time has passed. -/
def State.mortarRoundEnd (s : State) (i : Inst) : State := if s.roundDue i then s.mortarRound i else s

end Machine
end Sys2Proof
end

