-- ==== Sys2Proof/Machine/Mortar.lean ====
section
/-! DEFINITION. The instructions of the mortar plane, SYNLD's meaning among them, what their drained entries do at the CNI, and
the plane's events (17_mortar_plane.md R257, R258, R269, R270, R276 to R283; 07 R132; 06_issuing.md R358). -/

namespace Sys2Proof
namespace Machine

/-! ## Instructions that buffer an entry -/

/-- CARV (R277). -/
def bodyCarv (a b : Reg) (s : State) : Effect := do
  let c := s.curCore
  let bit := memberBit c s.curSlot
  let (s, l) ← operandsOnce s (quadOperands a b)
  let q := quadOf l
  let x := l.getD 4 0
  let idx := field x 3 0
  require (decide (field x 63 12 = 0)) (trapBits Cause.illegal)
  require (((s.cluster (clusterOf c)).course idx).mem.getLsbD bit) (trapBits Cause.illegal)
  let act : Act := .arrive idx (field x 9 4) (!bitAt x 10) q
  if bitAt x 11 then
    let s ← commitPoint s
    let (id, s) := s.nextReq c
    let e := newEntry s id 0 (.spad 0 0) .rel .grp act
    .ok (if (s.primaryOf? c).isSome then s else s.modCore c fun k => { k with flight := k.flight ++ [⟨e, .waiting⟩] }, .seq)
  else
    let s ← addEntry s 0 (.spad 0 0) .rel .grp act
    .ok (s, .seq)

/-- The course or ring number of an operand whose other bits must be zero. -/
def smallIndex (s : State) (a : Reg) : Except Stop (State × Nat) := do
  let (s, x) ← readG s a
  require (decide (x.toNat ≤ 15)) (trapBits Cause.illegal)
  .ok (s, x.toNat)

/-- CEXP: the working phase is sampled now (R278). -/
def bodyCexp (a b : Reg) (s : State) : Effect := do
  let (s, idx) ← smallIndex s a
  let (s, y) ← readG s b
  require (decide (y.toNat < 2 ^ 32)) (trapBits Cause.illegal)
  let k := (s.cluster (clusterOf s.curCore)).course idx
  let bit := memberBit s.curCore s.curSlot
  let s ← addEntry s 0 (.spad 0 0) .weak .grp (.cexp idx y.toNat (k.working bit) (k.mem.getLsbD bit))
  .ok (s, .seq)

/-- CJOIN (R278). -/
def bodyCjoin (a : Reg) (s : State) : Effect := do
  let (s, idx) ← smallIndex s a
  let s ← addEntry s 0 (.spad 0 0) .weak .grp (.cjoin idx)
  .ok (s, .seq)

/-- CQUIT (R278). -/
def bodyCquit (a : Reg) (s : State) : Effect := do
  let (s, idx) ← smallIndex s a
  let s ← addEntry s 0 (.spad 0 0) .weak .grp (.cquit idx)
  .ok (s, .seq)

/-- The member that the issuing core is of a ring configured at a scope, else ILLEGAL (R280). A mirror stands for the core
that it mirrors. -/
def ringMember (s : State) (ring scope : Nat) : Except Stop Unit := do
  let me := (s.primaryOf? s.curCore).getD s.curCore
  match s.corePart? me with
  | none => trapBits Cause.illegal
  | some p =>
    let r := (s.part p).ring ring
    require (decide (r.n ≠ 0 ∧ r.scope = scope) && (r.memberOf? (s.part p) me).isSome) (trapBits Cause.illegal)

/-- TKRQ (R280). -/
def bodyTkrq (a b : Reg) (sc : BitVec 2) (s : State) : Effect := do
  let (s, ring) ← smallIndex s a
  let (s, y) ← readG s b
  require (decide (field y 31 6 = 0)) (trapBits Cause.illegal)
  ringMember s ring sc.toNat
  let s ← addEntry s 0 (.spad 0 0) .weak (scopeOf sc) (.tkrq ring sc.toNat (field y 5 0) (w64 (field y 63 32)))
  .ok (s, .seq)

/-- TKPS: a second one in a task is ignored (R280). -/
def bodyTkps (a : Reg) (sc : BitVec 2) (s : State) : Effect := do
  let (s, ring) ← smallIndex s a
  ringMember s ring sc.toNat
  match s.cur.msg.bind (·.comp) with
  | some ⟨.grant r m, _, round⟩ =>
    if r ≠ ring then trapBits Cause.illegal
    else if s.cur.passed then .ok (s, .seq)
    else
      let s ← addEntry s 0 (.spad 0 0) .rel (scopeOf sc) (.tkps r m round)
      .ok (s.modCur fun t => { t with passed := true }, .seq)
  | _ => trapBits Cause.illegal

/-- TRMC (R282). -/
def bodyTrmc (a b : Reg) (s : State) : Effect := do
  let (s, q) ← readQuad s a
  let (s, x) ← readG s b
  require (decide (x.toNat < 64) && (s.rcd? s.cur.launch).isSome) (trapBits Cause.illegal)
  let s ← addEntry s 0 (.spad 0 0) .rel .dev (.trmc x.toNat q)
  .ok (s, .seq)

/-- REDUCE admits an operation (02_describing_work.md R27). -/
def admits (reduce op : Nat) : Bool :=
  match reduce with
  | 1 => op == 0
  | 2 => op == 1 || op == 2 || op == 3
  | 3 => op == 4 || op == 6
  | 4 => op == 5 || op == 7
  | 5 => op == 8
  | _ => false

/-- Contributions that the current task has buffered. -/
def bufferedTrrd (buf : List Entry) : Nat :=
  (buf.filter fun e => match e.act with | .trrd _ _ _ _ => true | _ => false).length

/-- TRRD (R283): an operation that the REDUCE of the task's launch admits, on whichever device the launch was accepted. DESIGN CHOICE
(log entry 9): the contribution of a task whose launch was accepted by another device is counted and joins no generation, for the gang
cores are that device's. -/
def bodyTrrd (d a b : Reg) (la : BitVec 4) (s : State) : Effect := do
  let (s, v) ← readG s a
  let (s, x) ← readG s b
  require (decide (field x 63 10 = 0)) (trapBits Cause.illegal)
  match s.cur.launch with
  | some l =>
    require (admits (s.reduceOf s.cur.launch) (field x 3 0)) (trapBits Cause.illegal)
    let k := (Tbl.find 0 (s.core s.curCore).trrdCount (trrdKey l) + bufferedTrrd s.cur.buf + 1) % 2 ^ 32
    let s ← addEntry s 0 (.spad 0 0) .rel .dev (.trrd k v (field x 3 0) (field x 9 4))
    .ok (laterG s la.toNat [d.toNat] [w64 k], .seq)
  | none => trapBits Cause.illegal

/-! ## Instructions that read -/

/-- CMIS (R279): the course as it stands at issue. -/
def bodyCmis (d a b : Reg) (la : BitVec 4) (s : State) : Effect := do
  let (s, idx) ← smallIndex s a
  let (s, y) ← readG s b
  require (decide (y.toNat ≤ 1)) (trapBits Cause.illegal)
  let k := (s.cluster (clusterOf s.curCore)).course idx
  let miss := (k.mem &&& ~~~k.f.arr).toNat
  let v := if y = 0 then w64 (miss % 2 ^ 64) else w64 (miss / 2 ^ 64 + k.f.q % 4 * 256)
  .ok (laterG s la.toNat [d.toNat] [v], .seq)

/-- Completions that a task has consumed and not confirmed, or will consume when their SCRD results arrive (R269). -/
def Slot.pairCount (t : Slot) : Nat := t.pairs.length + (t.pend.filter fun p => p.comp.isSome && !p.arrived).length

/-- The step clock's value at the issuing core's node. -/
def State.clockOf (s : State) (c scope : Nat) (l : Option LaunchId) : Nat :=
  match s.instOf c scope with
  | .system d => ((Tbl.get? s.fabric.sysTrellis d).getD {}).clock
  | _ =>
    match l.bind s.launch? with
    | some k => Tbl.find 0 k.trellis.clock (clusterOf c)
    | none => 0

/-- SCRD (R281). -/
def bodyScrd (d : Reg) (la : BitVec 4) (sc : BitVec 2) (s : State) : Effect := do
  let c := s.curCore
  require (decide (sc.toNat ≠ 2) || (s.rcd? s.cur.launch).isSome) (trapBits Cause.illegal)
  require (decide (s.cur.pairCount < 8)) (.error (.hold .pair))
  let i := s.instOf c sc.toNat
  let round := (s.detector i).round
  let v := w64 (round % 2 ^ 32 * 2 ^ 32 + s.clockOf c sc.toNat s.cur.launch % 2 ^ 32)
  .ok (addPending s { gd := [d.toNat], left := la.toNat, ready := true, gval := [v], comp := some ⟨.clock, i, round⟩ }, .seq)

/-- LGRD (R281). -/
def bodyLgrd (d a : Reg) (la : BitVec 4) (sc : BitVec 2) (s : State) : Effect := do
  let (s, x) ← readG s a
  require (decide (x.toNat ≤ 1)) (trapBits Cause.illegal)
  let v := if x = 0 then s.legitWord (s.instOf s.curCore sc.toNat) else w64 ((s.core s.curCore).taintAborts % 2 ^ 32)
  .ok (laterG s la.toNat [d.toNat] [v], .seq)

/-! ## Drained entries at the CNI (R273, R276 case 4) -/


/-- It releases the task's earlier writes (R273). -/
def Entry.mortarReleases (e : Entry) : Bool :=
  match e.act with
  | .arrive _ _ _ _ => true
  | .tkps _ _ _ => true
  | .trmc _ _ => true
  | .trrd _ _ _ _ => true
  | _ => false

/-- A mortar entry may be performed: after the task's earlier ones, and after its earlier writes where it releases. -/
def Core.mayMortar (k : Core) (e : Entry) : Bool :=
  (if e.mortarReleases then k.mayRelease e else k.mayPerform e) && (k.before e).all fun f => !f.e.mortar

/-- The core is a gang core of a launch: only these contribute to its reductions (R267, R283). -/
def State.inGang (s : State) (c : Nat) (k : Launch) : Bool :=
  match s.corePart? c with
  | some p => (gangCores (s.part p) k.rcd).contains c
  | none => false

/-- Its effect, or none while its drain waits (R282, R283). What belongs to a launch that is gone has none, nor has a contribution of a core
outside the gang. -/
def State.mortarEffect (s : State) (c : Nat) (e : Entry) : Option State :=
  let k := clusterOf c
  let b := memberBit c e.slot
  match e.act with
  | .arrive idx cls cont q =>
    some (s.arriveAt k idx b (if cont then some ⟨true, cls, q, e.prio, e.launch⟩ else none) c)
  | .cexp idx bytes tag mem => some (s.expectCourse k idx tag bytes mem c)
  | .cjoin idx => some (s.modCourse k idx fun x => x.join b)
  | .cquit idx => some ((s.modCourse k idx fun x => x.leave b).checkOver k idx ((s.cluster k).course idx).f.q 0 c)
  | .tkrq ring scope cls tag => some (s.requestToken c ring scope ⟨cls, tag, e.prio, e.launch⟩)
  | .tkps ring mem round => some (s.releaseHold c ring mem round)
  | .trmc cls q =>
    match e.launch.bind s.launch? with
    | none => some s
    | some l =>
      if l.trmc.isEmpty then some (match e.launch with
        | some i => s.setLaunch i { l with trmc := [(cls, q, e.prio)] }
        | none => s)
      else none
  | .trrd g v op cls =>
    match e.launch, e.launch.bind s.launch? with
    | some i, some l =>
      if !s.inGang c l then some s
      else if l.trrdRoom g then
        some (s.setLaunch i { l with gens := Tbl.set l.gens g (Tbl.find [] l.gens g ++ [⟨c, v, op, cls, e.prio⟩]) })
      else none
    | _, _ => some s
  | _ => some s

/-- A drained mortar entry is performed, once it may. -/
def State.mortarPerform (s : State) (c : Nat) (e : Entry) : State :=
  if (s.core c).mayMortar e && s.mayNear c e then
    match (s.nearNow c e).mortarEffect c e with
    | some t => t.land c e.id
    | none => s
  else s

/-- TRMC_DRAIN_WAIT_END and TRRD_DRAIN_WAIT_END: the `k`-th entry of a core's flight, if it is one of that instruction. -/
def State.mortarWaitEnd (s : State) (sel : Act → Bool) (c k : Nat) : State :=
  match s.flying? c k with
  | some e => if sel e.act then s.mortarPerform c e else s
  | none => s

/-! ## Events -/

/-- COMPLETION_TASK_ACCEPT (R276 case 5): the `k`-th task that the CNI of a cluster holds. -/
def State.completionTask (s : State) (cl k : Nat) : State :=
  match (s.cluster cl).tasks[k]? with
  | none => s
  | some (c, m) =>
    match s.acceptOwn c m with
    | some s => s.modCluster cl fun x => { x with tasks := removeAt k x.tasks }
    | none => s

/-- CONFIRMED_DRAIN (R270): a waiting commit point or END issues once all its pairs are confirmed. -/
def State.confirmedDrain (s : State) (c n : Nat) : State :=
  if (s.slot c n).taint then s
  else
    s.reissue c n (fun w => match w with | .confirm _ => true | _ => false) fun j =>
      match j with
      | .endOp => some (bodyEnd j)
      | .cEnd => some (bodyEnd j)
      | .cmt => some bodyCmt
      | .cCmt => some bodyCmt
      | .amo d a b la op sz => some (bodyAmo d a b la op sz)
      | .spwn d a b la => some (bodySpwn d a b la)
      | .carv a b => some (bodyCarv a b)
      | _ => none

/-- SCRD_PAIR_WAIT_END (R269). -/
def State.scrdWaitEnd (s : State) (c n : Nat) : State :=
  if (s.slot c n).pairCount < 8 then
    s.reissue c n (fun w => w == .pair) fun j => match j with | .scrd d la sc => some (bodyScrd d la sc) | _ => none
  else s

/-- SOFT_ERROR: a protocol or configuration field of the mortar plane, or a register bit, changes; a halfword of IMEM or a line of HBM has
an uncorrectable error from now on; an instruction is upset on its way from IMEM (24_protection.md R338, R342). -/
def State.softError (s : State) (t : SoftTarget) : State :=
  match t with
  | .mortar p f v => match s.mfield p f with | .ok fd => s.poke p fd v false | .error _ => s
  | .greg c n r b => if r = 0 then s else s.modSlot c n fun t => { t with g := Tbl.put 0 t.g r.toNat (Tbl.find 0 t.g r.toNat ^^^ (1#64 <<< b)) }
  | .imem c h => s.modCore c fun k => { k with badImem := h :: k.badImem.filter (· != h) }
  | .supImem p h => s.modPart p fun k => { k with badSup := h :: k.badSup.filter (· != h) }
  | .upset c n b => if (s.slot c n).running then s.modSlot c n fun t => { t with upset := b :: t.upset } else s
  | .hbm ln => s.setLine ln { s.line ln with bad := true }
  | .vreg c n r b => s.modSlot c n fun t => { t with v := Tbl.put 0 t.v r.toNat (Tbl.find 0 t.v r.toNat ^^^ (1#512 <<< b)) }

/-! ## Meanings -/

/-- CARV (R277). -/
def execCarv (a b : Reg) (s : State) : Host.Outcome State Fault Refusal := issue (.carv a b) (bodyCarv a b) s

/-- CEXP (R278). -/
def execCexp (a b : Reg) (s : State) : Host.Outcome State Fault Refusal := issue (.cexp a b) (bodyCexp a b) s

/-- CMIS (R279). -/
def execCmis (d a b : Reg) (la : BitVec 4) (s : State) : Host.Outcome State Fault Refusal :=
  issue (.cmis d a b la) (bodyCmis d a b la) s

/-- CJOIN (R278). -/
def execCjoin (a : Reg) (s : State) : Host.Outcome State Fault Refusal := issue (.cjoin a) (bodyCjoin a) s

/-- CQUIT (R278). -/
def execCquit (a : Reg) (s : State) : Host.Outcome State Fault Refusal := issue (.cquit a) (bodyCquit a) s

/-- TKRQ (R280). -/
def execTkrq (a b : Reg) (sc : BitVec 2) (s : State) : Host.Outcome State Fault Refusal :=
  issue (.tkrq a b sc) (bodyTkrq a b sc) s

/-- TKPS (R280). -/
def execTkps (a : Reg) (sc : BitVec 2) (s : State) : Host.Outcome State Fault Refusal := issue (.tkps a sc) (bodyTkps a sc) s

/-- SCRD (R281). -/
def execScrd (d : Reg) (la : BitVec 4) (sc : BitVec 2) (s : State) : Host.Outcome State Fault Refusal :=
  issue (.scrd d la sc) (bodyScrd d la sc) s

/-- LGRD (R281). -/
def execLgrd (d a : Reg) (la : BitVec 4) (sc : BitVec 2) (s : State) : Host.Outcome State Fault Refusal :=
  issue (.lgrd d a la sc) (bodyLgrd d a la sc) s

/-- TRMC (R282). -/
def execTrmc (a b : Reg) (s : State) : Host.Outcome State Fault Refusal := issue (.trmc a b) (bodyTrmc a b) s

/-- TRRD (R283). -/
def execTrrd (d a b : Reg) (la : BitVec 4) (s : State) : Host.Outcome State Fault Refusal :=
  issue (.trrd d a b la) (bodyTrrd d a b la) s

/-- SYNLD (07 R132, R284). -/
def execSynld (a b : Reg) (s : State) : Host.Outcome State Fault Refusal := issue (.synld a b) (bodySynld a b none) s

/-- COMPLETION_TASK_ACCEPT (R276 case 5). -/
def execCompletionTaskAccept (cluster k : Nat) (s : State) : Host.Outcome State Fault Refusal :=
  event (fun s => s.completionTask cluster k) s

/-- MORTAR_ROUND (R257). -/
def execMortarRound (inst : Inst) (s : State) : Host.Outcome State Fault Refusal := event (fun s => s.mortarRoundEnd inst) s

/-- CONFIRMED_DRAIN (R270). -/
def execConfirmedDrain (core slot : Nat) (s : State) : Host.Outcome State Fault Refusal :=
  event (fun s => s.confirmedDrain core slot) s

/-- SCRD_PAIR_WAIT_END (R269). -/
def execScrdPairWaitEnd (core slot : Nat) (s : State) : Host.Outcome State Fault Refusal :=
  event (fun s => s.scrdWaitEnd core slot) s

/-- TRRD_GENERATION_CLOSE (R283). -/
def execTrrdGenerationClose (ctx lid : Nat) (s : State) : Host.Outcome State Fault Refusal :=
  event (fun s => s.closeTrrd { ctx := ctx, lid := lid }) s

/-- TRRD_DRAIN_WAIT_END (R283). -/
def execTrrdDrainWaitEnd (core k : Nat) (s : State) : Host.Outcome State Fault Refusal :=
  event (fun s => s.mortarWaitEnd (fun a => match a with | .trrd _ _ _ _ => true | _ => false) core k) s

/-- TRMC_DELIVERY (R282). -/
def execTrmcDelivery (ctx lid : Nat) (s : State) : Host.Outcome State Fault Refusal :=
  event (fun s => s.deliverTrmc { ctx := ctx, lid := lid }) s

/-- TRMC_DRAIN_WAIT_END (R282). -/
def execTrmcDrainWaitEnd (core k : Nat) (s : State) : Host.Outcome State Fault Refusal :=
  event (fun s => s.mortarWaitEnd (fun a => match a with | .trmc _ _ => true | _ => false) core k) s

/-- SOFT_ERROR (R258, 24_protection.md R337). -/
def execSoftError (t : SoftTarget) (s : State) : Host.Outcome State Fault Refusal := event (fun s => s.softError t) s

end Machine
end Sys2Proof
end

