-- ==== Sys2Proof/Machine/Requests.lean ====
section
/-! DEFINITION. What becomes of drained entries and of requests of other devices: at the homes of lines, at the service slots of
owners, at other devices; the park queues and their replay (08_isa_memory_messages.md R133, R139 to R143; 06_issuing.md R97,
R98; 13_memory_hierarchy.md R227, R231 to R234; 14_ordering.md R243 to R251; 20_fabric.md R296, R359; 22_interruption.md R323,
R324). -/

namespace Sys2Proof
namespace Machine

/-! ## Where an entry goes -/

/-- How an entry is performed: at its home or core, by an owner's service slot, into a partial line, by another kind of event. -/
inductive Route where
  | home
  | service
  | reduction
  | other
deriving DecidableEq, Repr

/-- The way of an entry. -/
def routeOf (e : Entry) : Route :=
  match e.act, e.loc with
  | .store _, .imem _ _ => .service
  | .store _, .peer _ _ _ _ => .home
  | .store _, .stream _ _ => .home
  | .store bs, _ => if hasNibble bs then .service else .home
  | .amop _ _ _, _ => .service
  | .amo _ _ _ _ _, _ => .service
  | .red _ _ _, _ => .reduction
  | _, _ => .other

/-- The rights that performing an entry needs. -/
def Entry.access (e : Entry) : Access :=
  match e.act with
  | .red _ _ _ => .red
  | .amop _ _ _ => .atomic
  | .amo _ _ _ _ _ => .atomic
  | _ => .write

/-- What a posted entry carries to another device. -/
def Entry.service? (e : Entry) : Option (Nat × Nat × Service) :=
  match e.act, e.loc with
  | .store bs, .peer dev part a dom => some (dev, dom, .store part a bs)
  | .amop op n p, .peer dev part a dom => some (dev, dom, .amop part a op n p)
  | .red op n p, .peer dev part a dom => some (dev, dom, .red part a op n p)
  | .amo op n p q _, .peer dev part a dom => some (dev, dom, .amo part a op n p q)
  | _, _ => none

/-- The entry leaves for another device, when the flow has room. -/
def State.sendAway (s : State) (c : Nat) (e : Entry) : State :=
  match e.service? with
  | some (dev, dom, v) =>
    if s.flowRoom (s.flowTo dev 0) && s.coreOpen c then (s.sendService dev 0 dom c e.id v).mark c e.id .sent else s
  | none => s

/-! ## At a home (R231 to R234, R323) -/

/-- The entry's place changes. -/
def State.reloc (s : State) (c id : Nat) (l : Loc) : State :=
  s.modCore c fun k => { k with flight := k.flight.map fun f => if f.e.id == id then { f with e := { f.e with loc := l } } else f }

/-- An entry parks at the home of its place; a full park queue refuses it. -/
def State.parkEntry (s : State) (c : Nat) (e : Entry) : State :=
  if s.parkRoom (s.parkHome e.loc) then (s.parkAt { who := .entry, src := c, req := e.id, loc := e.loc }).mark c e.id .parked
  else s.mark c e.id .refused

/-- An entry whose translation fails at its home: an AMO returns the fault, another is dropped and reported (08 R133 cases 5 and 6). -/
def State.entryFails (s : State) (c : Nat) (e : Entry) (cause : Nat) : State :=
  match e.act with
  | .amo _ _ _ _ uid => (s.returnResult c uid 0 (some (cause, e.ea))).land c e.id
  | _ => (s.land c e.id).writeFailed c e cause 0

/-- While a SNAP of the partition waits, a write that was drained after it issued waits for the flip: the sealed image shows no store
whose drain had not begun when SNAP issued (24_protection.md R341). -/
def State.snapHolds (s : State) (p c : Nat) (e : Entry) : Bool :=
  match (s.slot (s.part p).supCore 7).wait with
  | .snap begun => !begun.contains (c, e.id)
  | _ => false

/-- An entry's write is held back by a waiting SNAP of the partition that it goes to. -/
def State.sealHolds (s : State) (c : Nat) (e : Entry) : Bool :=
  match e.loc with
  | .hbm p _ _ _ => s.snapHolds p c e
  | .unmapped p _ _ => s.snapHolds p c e
  | _ => false

/-- An entry for partition memory reaches the home of its line: it goes on at its device physical address, or is parked, or refused;
behind a request that the home has refused, its core sends nothing there. One whose translation waited is translated now. `again` says
that the home replays it: it has been sent already, ahead of what has been refused or performed for the cluster alone since (22 R324). -/
def State.atHome (s : State) (c : Nat) (e : Entry) (again : Bool) (go : State → Nat → Nat → Nat → Nat → State) : State :=
  let here (s : State) (p phys gva gpa : Nat) : State :=
    let l : Loc := .hbm p phys gva gpa
    if !again && s.nearOpen (clusterOf c) (some (c, e.task)) l e.span then s
    else if s.busy p phys gpa e.span true then (s.startCow p gpa).parkEntry c { e with loc := l }
    else go s p phys gva gpa
  if s.sealHolds c e || (!again && (s.refusedAt c (s.parkHome e.loc) || s.planeShut e.loc)) then s
  else
    match e.loc with
    | .hbm p phys gva gpa => here s p phys gva gpa
    | .unmapped p gva _ =>
      match s.xlateMem (some c) p gva e.access again with
      | (s, .at_ (.hbm p phys gva gpa)) => here (s.reloc c e.id (.hbm p phys gva gpa)) p phys gva gpa
      | (s, .wait gpa) => ((s.noteFill p gpa).reloc c e.id (.unmapped p gva gpa)).parkEntry c { e with loc := .unmapped p gva gpa }
      | (s, .later gpa) => (s.reloc c e.id (.unmapped p gva gpa)).parkEntry c { e with loc := .unmapped p gva gpa }
      | (s, .shut) => s
      | (s, .bad cause) => s.entryFails c e cause
      | (s, _) => s.entryFails c e Cause.translate
    | _ => s

/-- The lines of a range leave the issuing core's L1: what the home did to them is not known there. -/
def State.l1Forget (s : State) (c phys gpa n : Nat) : State :=
  (linesOf phys gpa n).foldl (fun s l => s.l1Drop (s.portion c l.1) l.1) s

/-- A store is performed where its bytes lie (13 R229 case 1). -/
def State.storePerform (s : State) (c : Nat) (e : Entry) (bs : List NibByte) (p pa gpa : Nat) : State :=
  ((s.homeWrite (some (clusterOf c)) p pa gpa bs).l1Store c pa bs).land c e.id

/-- A store's bytes arrive. -/
def State.storeArrive (s : State) (c : Nat) (e : Entry) (bs : List NibByte) (again : Bool) : State :=
  match e.loc with
  | .spad _ _ => (s.localStore e.loc bs).land c e.id
  | .stream num off => (s.streamPut num off bs).land c e.id
  | .peer _ _ _ _ => s.sendAway c e
  | _ => s.atHome c e again fun s p phys _ gpa => s.storePerform c e bs p phys gpa

/-- An update enters the partial line of the issuing cluster (R234). -/
def State.redArrive (s : State) (c : Nat) (e : Entry) (op n : Nat) (v : W64) (again : Bool) : State :=
  match e.loc with
  | .peer _ _ _ _ => s.sendAway c e
  | _ => s.atHome c e again fun s p phys _ gpa => ((s.redEnter p gpa (clusterOf c) phys op n v).l1Forget c phys gpa n).land c e.id

/-! ## Service slots (06 R97, R98; 08 R139, R143) -/

/-- The core that executes an entry's service message: the named core, or the home core of the line's home. -/
def State.ownerOf (s : State) (l : Loc) : Nat :=
  match l with
  | .spad k _ => k
  | .imem k _ => k
  | .hbm p phys _ _ => 16 * s.homeOf p (phys / 128) + 8
  | _ => 0

/-- A service message takes one of the eight reserved entries of its owner. -/
def State.enqueueSvc (s : State) (k : Nat) (r : SvcReq) : Option State :=
  if (s.core k).svcq.length < 8 then some (s.modCore k fun c => { c with svcq := c.svcq ++ [r] }) else none

/-- The service request of an entry. -/
def Entry.svc (e : Entry) (c : Nat) : SvcReq := { src := c, req := e.id, ea := e.ea, loc := e.loc, act := e.act }

/-- An entry's service message is taken, or its CNI retries it; a later one of the core to that owner does not overtake it. -/
def State.takeSvc (s : State) (c : Nat) (e : Entry) (owner : Nat) : State :=
  if (s.core c).flight.any fun f => f.st == .refused && routeOf f.e == .service && decide (s.ownerOf f.e.loc = owner) then s
  else
    match s.enqueueSvc owner (e.svc c) with
    | some s => s.mark c e.id .sent
    | none => s.mark c e.id .refused

/-- The entry's service message arrives at its owner. -/
def State.svcArrive (s : State) (c : Nat) (e : Entry) (again : Bool) : State :=
  match e.loc with
  | .hbm _ _ _ _ => s.atHome c e again fun s p phys gva gpa =>
      s.takeSvc c { e with loc := .hbm p phys gva gpa } (s.ownerOf (.hbm p phys gva gpa))
  | .unmapped _ _ _ => s.atHome c e again fun s p phys gva gpa =>
      s.takeSvc c { e with loc := .hbm p phys gva gpa } (s.ownerOf (.hbm p phys gva gpa))
  | .peer _ _ _ _ => s.sendAway c e
  | l => s.takeSvc c e (s.ownerOf l)

/-- An entry arrives by its way; `again` at the replay of a park queue. -/
def State.arrive (s : State) (c : Nat) (e : Entry) (again : Bool := false) : State :=
  match routeOf e with
  | .home => match e.act with | .store bs => s.storeArrive c e bs again | _ => s
  | .service => s.svcArrive c e again
  | .reduction => match e.act with | .red op n v => s.redArrive c e op n v again | _ => s
  | .other => s


/-! ## Requests of other devices (20 R296, R359) -/

/-- The number that names the message plane where an event's operands name a core: the event takes the `k`-th item of it, a
request of another device. -/
def planeCore : Nat := 4096

/-- Two requests of one core of one device. -/
def sameAsker (dev core : Nat) : NetItem → Bool
  | .remote d c _ _ _ => d == dev && c == core
  | _ => false

/-- The `k`-th item, when it is a request of another device and no earlier one of the same core is under way; its reply must
find room in its flow. -/
def State.remote? (s : State) (k : Nat) : Option (Nat × Nat × Nat × Nat × Service) :=
  match s.net[k]? with
  | some (.remote dev core req dom v) =>
    if (s.net.take k).any (sameAsker dev core) || !s.flowRoom (s.flowTo dev 1) then none else some (dev, core, req, dom, v)
  | _ => none

/-- The reply to a request of another device travels in TC 1. -/
def State.replyTo (s : State) (dev core req dom : Nat) (v : Service) : State :=
  match v with
  | .ack ok cause => s.ackWrite dev dom core req ok cause
  | v => s.sendService dev 1 dom core req v

/-- The answer that a failed request is given. -/
def failReply (v : Service) (cause : Nat) : Service :=
  match v with
  | .load _ _ _ => .failed cause
  | .amo _ _ _ _ _ _ => .failed cause
  | _ => .ack false cause

/-- The `k`-th item fails. -/
def State.remoteFail (s : State) (k cause : Nat) : State :=
  match s.net[k]? with
  | some (.remote dev core req dom v) => (s.takeNet k).replyTo dev core req dom (failReply v cause)
  | _ => s


/-- Partition, address, bytes and right of a request of another device. -/
def Service.place? : Service → Option (Nat × Nat × Nat × Access)
  | .store part a bs => some (part, a, bs.foldl (fun m b => Nat.max m (b.pos + 1)) 1, .write)
  | .amop part a _ n _ => some (part, a, n, .atomic)
  | .red part a _ n _ => some (part, a, n, .red)
  | .load part a n => some (part, a, n, .read)
  | .amo part a _ n _ _ => some (part, a, n, .atomic)
  | _ => none

/-- A request of another device reaches the home of its line: it goes on at an address, parks there, or fails. -/
def State.remoteHome (s : State) (k : Nat) (dom : Nat) (v : Service) (go : State → Nat → Nat → Nat → Nat → State) : State :=
  match Service.place? v with
  | none => s
  | some (part, a, n, acc) =>
    if !s.partIn part dom then s.remoteFail k Cause.permission
    else if !s.planeOpen part then s
    else
      match s.xlateMem none part a acc with
      | (s, .at_ (.hbm p phys gva gpa)) =>
        if s.busy p phys gpa n (acc != .read) then
          (if acc = .read then s else s.startCow p gpa).parkItem k (.hbm p phys gva gpa) (s.heldOff p phys gpa n)
        else if acc = .read ∧ (s.foreignIn p phys n).isSome = true then s.remoteFail k Cause.ecc
        else go s p phys gva gpa
      | (s, .bad cause) => s.remoteFail k cause
      | (s, .wait gpa) => (s.noteFill part gpa).parkItem k (.unmapped part a gpa) 0
      | (s, .later gpa) => s.parkItem k (.unmapped part a gpa) 0
      | (s, .shut) => s
      | (s, _) => s.remoteFail k Cause.translate

/-- A read or a store of another device. -/
def State.remoteAccess (s : State) (k : Nat) : State :=
  match s.remote? k with
  | some (dev, core, req, dom, .load part a n) =>
    s.remoteHome k dom (.load part a n) fun s p phys _ gpa =>
      let (s, bs) := s.homeRead none p phys gpa n
      (s.takeNet k).replyTo dev core req dom (.data bs)
  | some (dev, core, req, dom, .store part a bs) =>
    if hasNibble bs then s
    else
      s.remoteHome k dom (.store part a bs) fun s p phys _ gpa =>
        ((s.homeWrite none p phys gpa bs).takeNet k).replyTo dev core req dom (.ack true 0)
  | _ => s

/-- An update of another device enters the partial line of that device (R234 case 1). -/
def State.remoteRed (s : State) (k : Nat) : State :=
  match s.remote? k with
  | some (dev, core, req, dom, .red part a op n v) =>
    s.remoteHome k dom (.red part a op n v) fun s p phys _ gpa =>
      ((s.redEnter p gpa (256 + dev) phys op n v).takeNet k).replyTo dev core req dom (.ack true 0)
  | _ => s

/-- An atomic or a nibble-masked sector of another device goes to its owner's service slot. -/
def State.remoteSvc (s : State) (k : Nat) : State :=
  let take (dev core req dom : Nat) (v : Service) (act : Act) : State :=
    s.remoteHome k dom v fun s p phys gva gpa =>
      let l : Loc := .hbm p phys gva gpa
      match s.enqueueSvc (s.ownerOf l) { src := core, dev := some dev, dom := dom, req := req, ea := w64 gva, loc := l, act := act } with
      | some s => s.takeNet k
      | none => s
  match s.remote? k with
  | some (dev, core, req, dom, .amop part a op n p) => take dev core req dom (.amop part a op n p) (.amop op n p)
  | some (dev, core, req, dom, .amo part a op n p q) => take dev core req dom (.amo part a op n p q) (.amo op n p q 0)
  | some (dev, core, req, dom, .store part a bs) =>
    if hasNibble bs then take dev core req dom (.store part a bs) (.store bs) else s
  | _ => s

/-- A request of another device goes on by its kind. -/
def State.remoteArrive (s : State) (k : Nat) : State :=
  match s.net[k]? with
  | some (.remote _ _ _ _ (.red _ _ _ _ _)) => s.remoteRed k
  | some (.remote _ _ _ _ (.load _ _ _)) => s.remoteAccess k
  | some (.remote _ _ _ _ (.store _ _ bs)) => if hasNibble bs then s.remoteSvc k else s.remoteAccess k
  | some (.remote _ _ _ _ _) => s.remoteSvc k
  | _ => s

/-! ## Service handlers -/

/-- SERVICE_DISPATCH: the oldest service message goes to slot 0. -/
def State.dispatchSvc (s : State) (c : Nat) : State :=
  let k := s.core c
  match k.serving, k.svcq with
  | none, r :: q => if s.stopped c then s else s.setCore c { k with serving := some r, svcq := q }
  | _, _ => s

/-- The handler of slot 0 has ended. -/
def State.served (s : State) (c : Nat) : State := s.modCore c fun k => { k with serving := none }

/-- A request of another device that a service slot gives up, on the message plane again. -/
def SvcReq.again (r : SvcReq) : Option NetItem :=
  let place : Option (Nat × Nat) := match r.loc with | .hbm p _ gva _ => some (p, gva) | .unmapped p gva _ => some (p, gva) | _ => none
  match r.dev, place, r.act with
  | some dev, some (p, gva), .store bs => some (.remote dev r.src r.req r.dom (.store p gva bs))
  | some dev, some (p, gva), .amop op n v => some (.remote dev r.src r.req r.dom (.amop p gva op n v))
  | some dev, some (p, gva), .amo op n v w _ => some (.remote dev r.src r.req r.dom (.amo p gva op n v w))
  | _, _, _ => none

/-- A request of the message plane for the home of a line arrives, put in the `k`-th place among the items: the place of the next. -/
def State.itemArrive (s : State) (k : Nat) (x : NetItem) : State × Nat :=
  let s : State := { s with net := s.net.take k ++ x :: s.net.drop k }
  let t := match x with | .rdx _ _ _ => s.rdxOwner k | _ => s.remoteArrive k
  (t, if t.net.take (k + 1) = s.net.take (k + 1) then k + 1 else k)

/-- A request whose line has moved, or waits, goes on to the line's home, and parks there where it must: with those of the same core of
another device that queue behind it, in their order (R233 case 2). -/
def State.giveUp (s : State) (c : Nat) (r : SvcReq) : State :=
  match r.dev with
  | none =>
    match (s.core r.src).flight.find? fun f => f.e.id == r.req with
    | some f => ((s.served c).mark r.src r.req .waiting).arrive r.src f.e
    | none => s.served c
  | some _ =>
    let mine (x : SvcReq) : Bool := x.dev == r.dev && x.src == r.src && x.again.isSome
    let out := r :: (s.core c).svcq.filter mine
    let s := s.modCore c fun k => { k with serving := none, svcq := k.svcq.filter fun x => !mine x }
    ((out.filterMap SvcReq.again).foldl (fun (x : State × Nat) i => x.1.itemArrive x.2 i) (s, 0)).1

/-- Bytes that a service request touches. -/
def SvcReq.span (r : SvcReq) : Nat := Entry.span { act := r.act }
def SvcReq.access (r : SvcReq) : Access := Entry.access { act := r.act }

/-- The cluster of a request of this device. -/
def SvcReq.cluster? (r : SvcReq) : Option Nat := match r.dev with | none => some (clusterOf r.src) | some _ => none

/-- A request is performed at a place that its owner holds now, or is given up. -/
def State.serveAt (s : State) (c : Nat) (r : SvcReq) (go : State → Loc → State) : State :=
  match r.loc with
  | .hbm p phys _ gpa =>
    if s.planeShut r.loc then s
    else if s.busy p phys gpa r.span true || decide (16 * s.homeOf p (phys / 128) + 8 ≠ c) then s.giveUp c r else go s r.loc
  | .unmapped _ _ _ => s.giveUp c r
  | l => go s l

/-- The word at a place, and the same place with a word written. -/
def State.wordAt (s : State) (src : Option Nat) (l : Loc) (n : Nat) : State × W64 :=
  match l with
  | .hbm p phys _ gpa =>
    let (s, bs) := s.homeRead src p phys gpa n
    (s, w64 (leVal bs))
  | .spad k a => (s, w64 (leVal ((s.core k).spadBytes a n)))
  | _ => (s, 0)
def State.putWord (s : State) (l : Loc) (n : Nat) (v : W64) : State :=
  match l with
  | .hbm p phys _ _ => (s.wrBytes phys (leBytes n v.toNat)).tagLines p phys n
  | .spad k a => s.modCore k fun x => x.spadWrite a (leBytes n v.toNat)
  | _ => s

/-- An atomic operation on a place (R140): the old value, and the place changed. -/
def State.atomicAt (s : State) (src : Option Nat) (l : Loc) (op n : Nat) (p q : W64) : State × W64 :=
  match s.wordAt src l n with
  | (s, old) =>
    match atomicOp op n old p q with
    | some v => (s.putWord l n v, old)
    | none => (s, old)

/-- What the issuing core's L1 holds of a place that its atomic changed is forgotten. -/
def State.forgetAt (s : State) (r : SvcReq) (l : Loc) (n : Nat) : State :=
  match r.dev, l with
  | none, .hbm _ phys _ gpa => s.l1Forget r.src phys gpa n
  | _, _ => s

/-- A place whose line does not verify: an atomic does not return what it holds (24_protection.md R342). -/
def State.badAt (s : State) : Loc → Bool
  | .hbm p phys _ _ => s.foreign p phys
  | _ => false

/-- ATOMIC_AT_OWNER: the service slot performs its atomic and answers. -/
def State.atomicServe (s : State) (c : Nat) : State :=
  match (s.core c).serving with
  | none => s
  | some r =>
    match r.act with
    | .amop op n p => s.serveAt c r fun s l =>
        let (s, _) := s.atomicAt r.cluster? l op n p 0
        let s := (s.forgetAt r l n).served c
        match r.dev with
        | none => s.land r.src r.req
        | some dev => s.replyTo dev r.src r.req r.dom (.ack true 0)
    | .amo op n p q uid => s.serveAt c r fun s l =>
        if s.badAt l then
          match r.dev with
          | none => ((s.served c).returnResult r.src uid 0 (some (Cause.ecc, r.ea))).land r.src r.req
          | some dev => (s.served c).replyTo dev r.src r.req r.dom (.failed Cause.ecc)
        else
        let (s, old) := s.atomicAt r.cluster? l op n p q
        let s := (s.forgetAt r l n).served c
        match r.dev with
        | none => (s.returnResult r.src uid old none).land r.src r.req
        | some dev => s.replyTo dev r.src r.req r.dom (.data (leBytes n old.toNat))
    | _ => s

/-- SUB_BYTE_MERGE: the service slot reads, merges and writes a nibble-masked sector. -/
def State.subByteServe (s : State) (c : Nat) : State :=
  match (s.core c).serving with
  | none => s
  | some r =>
    match r.act, r.loc with
    | .store _, .imem _ _ => s
    | .store bs, _ => s.serveAt c r fun s l =>
        let s :=
          match l with
          | .hbm p phys _ gpa =>
            let s := s.homeWrite r.cluster? p phys gpa bs
            match r.dev with | none => s.l1Store r.src phys bs | some _ => s
          | l => s.localStore l bs
        let s := s.served c
        match r.dev with
        | none => s.land r.src r.req
        | some dev => s.replyTo dev r.src r.req r.dom (.ack true 0)
    | _, _ => s

/-- IMEM_WINDOW_STORE: the named core's service slot writes its IMEM (13 R227 case 3). -/
def State.imemServe (s : State) (c : Nat) : State :=
  match (s.core c).serving with
  | none => s
  | some r =>
    match r.act, r.loc with
    | .store bs, .imem _ a => ((s.modCore c fun k => k.imemWrite a bs).served c).land r.src r.req
    | _, _ => s

/-- Slot 0 may run its handler: at its turn; on a core that a fault storm halts, whose drained entries are performed (22_interruption.md
R322), at any time. -/
def State.serviceTurn (s : State) (c : Nat) : Bool :=
  if (s.core c).halted then !s.stopped c else !s.islandStopped c && (s.core c).turnOf 0

/-- The handler of slot 0 runs as its instruction of this cycle. -/
def State.serviceRun (s : State) (c : Nat) (f : State → State) : State :=
  if s.serviceTurn c then
    let t := f s
    if t = s then s else if (s.core c).halted then t else t.modCore c fun k => k.issued 0
  else s

/-- PARK_RETRY: the `k`-th entry of a core's flight, refused before, is sent again. -/
def State.parkRetry (s : State) (c k : Nat) : State :=
  match (s.core c).flight[k]? with
  | some f => if f.st = .refused then (s.mark c f.e.id .waiting).arrive c f.e else s
  | none => s

/-! ## Events on the entries of a core's flight -/

/-- The `k`-th entry arrives, when its way and order are those of the event. -/
def State.flightArrive (s : State) (c k : Nat) (sel : Entry → Bool) : State :=
  match (s.core c).flight[k]? with
  | some f =>
    if f.st = .waiting ∧ sel f.e = true ∧ (s.core c).mayArrive f.e = true ∧ s.mayNear c f.e = true then (s.nearNow c f.e).arrive c f.e else s
  | none => s

/-- MEMORY_REQUEST_AT_HOME: a weak store of a core, or a read or store of another device. -/
def State.memoryRequest (s : State) (c k : Nat) : State :=
  if c = planeCore then s.remoteAccess k
  else s.flightArrive c k fun e => decide (routeOf e = .home) && decide (e.order = .weak)

/-- REDUCTION_ENTRY. -/
def State.reductionEntry (s : State) (c k : Nat) : State :=
  if c = planeCore then s.remoteRed k else s.flightArrive c k fun e => decide (routeOf e = .reduction)

/-- SERVICE_MESSAGE_ARRIVAL. -/
def State.serviceMessage (s : State) (c k : Nat) : State :=
  if c = planeCore then s.remoteSvc k
  else s.flightArrive c k fun e => decide (routeOf e = .service) && !(decide (e.order = .rel) || (decide (e.order = .sc)
    && (match e.act with | .store _ => true | _ => false)))

/-- FENCE_MARK_PASS: the mark of an FNC.ss passes (08 R136). -/
def State.fencePass (s : State) (c k : Nat) : State :=
  match s.flying? c k with
  | some e =>
    match e.act with
    | .fence => if (s.core c).mayPass e && s.mayNear c e then (s.nearNow c e).land c e.id else s
    | _ => s
  | none => s

/-- RELEASE_PERFORM: a strong store, or an entry of the mortar plane (14 R246, 17 R273). -/
def State.releasePerform (s : State) (c k : Nat) : State :=
  match s.flying? c k with
  | some e =>
    if e.mortar then s.mortarPerform c e
    else
      match e.act with
      | .store _ => s.flightArrive c k fun e => decide (e.order = .rel) || decide (e.order = .sc)
      | _ => s
  | none => s

/-- An acknowledgement for a request of a core is on the message plane. -/
def isAck (c req : Nat) (ok : Bool) : NetItem → Bool
  | .ack d r b _ _ => d == c && r == req && b == ok
  | _ => false

/-- WRITE_ACK: the acknowledgement of the `k`-th entry of a core's flight reaches the core; one that says the write failed is
reported (08 R133 case 6). -/
def State.writeAcked (s : State) (c k : Nat) (ok : Bool) : State :=
  match (s.core c).flight[k]? with
  | none => s
  | some f =>
    if f.st ≠ .sent then s
    else
      match s.net.find? (isAck c f.e.id ok) with
      | some (.ack _ _ _ cause dev) =>
        let s : State := { s with net := removeFirst (isAck c f.e.id ok) s.net }
        let s := s.land c f.e.id
        if ok then s else s.writeFailed c f.e cause dev
      | _ => s

/-! ## Meanings -/

/-- SERVICE_MESSAGE_ARRIVAL (R97). -/
def execServiceMessageArrival (core k : Nat) (s : State) : Host.Outcome State Fault Refusal :=
  event (fun s => s.serviceMessage core k) s

/-- SERVICE_DISPATCH (R98). -/
def execServiceDispatch (core : Nat) (s : State) : Host.Outcome State Fault Refusal := event (fun s => s.dispatchSvc core) s

/-- ATOMIC_AT_OWNER (R139). -/
def execAtomicAtOwner (core : Nat) (s : State) : Host.Outcome State Fault Refusal := event (fun s => s.serviceRun core fun s => s.atomicServe core) s

/-- SUB_BYTE_MERGE (R143). -/
def execSubByteMerge (core : Nat) (s : State) : Host.Outcome State Fault Refusal := event (fun s => s.serviceRun core fun s => s.subByteServe core) s

/-- MEMORY_REQUEST_AT_HOME (R231). -/
def execMemoryRequestAtHome (core k : Nat) (s : State) : Host.Outcome State Fault Refusal :=
  event (fun s => s.memoryRequest core k) s

/-- IMEM_WINDOW_STORE (R227). -/
def execImemWindowStore (core : Nat) (s : State) : Host.Outcome State Fault Refusal := event (fun s => s.serviceRun core fun s => s.imemServe core) s

/-- REDUCTION_ENTRY (R234). -/
def execReductionEntry (core k : Nat) (s : State) : Host.Outcome State Fault Refusal :=
  event (fun s => s.reductionEntry core k) s


/-- PARK_RETRY (R323). -/
def execParkRetry (core k : Nat) (s : State) : Host.Outcome State Fault Refusal := event (fun s => s.parkRetry core k) s


/-- WRITE_ACK (R311). -/
def execWriteAck (core k : Nat) (ok : Bool) (s : State) : Host.Outcome State Fault Refusal :=
  event (fun s => s.writeAcked core k ok) s

/-- FENCE_MARK_PASS (R136). -/
def execFenceMarkPass (core k : Nat) (s : State) : Host.Outcome State Fault Refusal := event (fun s => s.fencePass core k) s

/-- RELEASE_PERFORM (R246). -/
def execReleasePerform (core k : Nat) (s : State) : Host.Outcome State Fault Refusal :=
  event (fun s => s.releasePerform core k) s

end Machine
end Sys2Proof
end

