-- ==== Sys2Proof/Machine/Fabric.lean ====
section
/-! DEFINITION. The fabric: frames that arrive, acknowledgements, links and timers, keys (20_fabric.md R291 to R305, R359;
24_protection.md R346; 22_interruption.md R325, R330, R332). -/

namespace Sys2Proof
namespace Machine

/-! ## Keys (R304, 24 R346) -/

/-- The tag of a frame verifies under one of the keys that the device holds for its domain. -/
def State.tagOk (s : State) (f : Frame) : Bool :=
  match Tbl.get? s.fabric.keys f.domain with
  | none => false
  | some k => f.tagGood && (f.key == k.current || (match k.next with | some n => f.key == n | none => false))

/-! ## Acknowledgements (R300) -/

/-- The distance from one sequence number to another, modulo 2^24. -/
def seqDist (a b : Nat) : Nat := (b + 2 ^ 24 - a % 2 ^ 24) % 2 ^ 24

/-- A sequence number comes before another (R294). -/
def seqBefore (a b : Nat) : Bool := decide (1 ≤ seqDist a b ∧ seqDist a b ≤ 2 ^ 23)

/-- An acknowledgement frees the frames before the number that it reports, and counts as progress; what waited for room goes out. -/
def State.acked (s : State) (w : FlowId) (next : Nat) : State :=
  let o := s.fabric.outOf w
  let left := o.unacked.filter fun f => !seqBefore f.seq next
  if left.length = o.unacked.length then s
  else
    let t : State := { s with fabric := s.fabric.setOut w { o with
      unacked := left, sentAt := o.sentAt.drop (o.unacked.length - left.length), expired := 0 } }
    t.flowGoes w

/-- The target reports NEXT of a frame's flow. Where its ack frame would use an IV again under the domain's key it is not sent before that key
is replaced (R304). -/
def State.sendAck (s : State) (f : Frame) : State :=
  let i := s.fabric.inOf ⟨f.sdev, f.ddev, f.tc⟩
  let back : FlowId := ⟨f.ddev, f.sdev, f.tc⟩
  let o := s.fabric.outOf back
  let key := s.sealKey f.domain
  if o.ackReuses f.domain key then s
  else
  let (n, s) := s.nextFree
  let s : State := { s with fabric := s.fabric.setOut back { o with
    ackCount := o.ackCount + 1, ackKeys := keyUsed o.ackKeys f.domain key o.ackCount } }
  s.inject (s.classOf f.domain .empty) {
    ddev := f.sdev, sdev := f.ddev, tc := f.tc, ent := (Config.entropy n).toNat, opcode := 0x02, ackv := true,
    resend := false, seq := o.ackCount % 2 ^ 24, ack := i.next, domain := f.domain, length := 0, stream := 0,
    epoch := o.ackCount / 2 ^ 24 % 2 ^ 20, payload := .empty, key := s.sealKey f.domain, tagGood := true, fcsGood := true,
    reservedZero := true, wire := 64, supported := true, udp := s.fabric.udpPort }

/-! ## What a frame carries is taken -/

/-- The place word of a core with this device's number (R296). -/
def State.devPlace (s : State) (c : Nat) : W64 := s.placeWord c ||| w64 (s.fabric.devId % 2 ^ 18 * 2 ^ 20)

/-- The cores of a partition that a place word of another device names, or the code of the refusal (R149): 3 for a partition
that the domain does not hold here, 4 for a place that the partition does not have. A stage is one of a launch of this device, whose record
is given. -/
def State.placedIn (s : State) (part dom : Nat) (r : Option (BitVec 1024)) (w : W64) : Except Nat (List Target) :=
  let p := s.part part
  if !s.partIn part dom then .error 3
  else if p.pw < plX w ∨ p.ph < plY w ∨ (plKind w = 2 ∧ r.isNone = true) then .error 4
  else .ok (localTargets p r w)

/-- The core to which a bounce returns: never refused, also while its context is being saved (R149, 22 R325). -/
def State.bounceIn (s : State) (part dom : Nat) (w : W64) : Except Nat (List Target) :=
  let p := s.part part
  if !(p.en && p.resident && decide ((s.ctx p.ctx).domain = dom)) ∨ p.pw < plX w ∨ p.ph < plY w then .error 3 else .ok (localTargets p none w)

/-- The source core of a message that this device sent. -/
def State.sourceCore (s : State) (m : Msg) : Nat := coreOfPlace (s.part m.spart) m.source

/-- A message that this device refuses bounces over the fabric. -/
def State.bounceAway (s : State) (f : Frame) (m : Msg) (code : Nat) (place : W64) : State :=
  s.sendFrame f.sdev 0 f.domain 0 (.message m.spart (bounceOf m code place))

/-- A copy of a message of another device at one of its targets: the state after it, and whether it bounced. -/
def State.takeCopy (s : State) (f : Frame) (m : Msg) (l : Option LaunchId) (t : Target) : State × Bool :=
  match s.resolve t with
  | (some (.core c), s) =>
    match s.acceptTask c { m with launch := l, tie := .none, comp := none, held := false } with
    | .ok s => (s, false)
    | .error r => (s.bounceAway f m r (s.devPlace c), true)
  | (_, s) => (s.bounceAway f m 4 m.target, true)

/-- The end of a message is told to its sender, with how many copies bounce. -/
def State.tell (s : State) (t : Tell) : State :=
  s.sendService t.dev 1 t.dom 0 0 (.settled t.launch t.part t.source t.msgid t.bounces)

/-- What a message's sender is told at its end. -/
def tellOf (f : Frame) (m : Msg) (l : LaunchId) (n : Nat) : Tell where
  dev := f.sdev
  dom := f.domain
  launch := l
  part := m.spart
  source := m.source
  msgid := m.msgid
  bounces := n

/-- A message has reached its targets. The first of another device's launch ends when nothing of the launch is left here; one
that no target took, a later one, and one of a launch of this device end at once. -/
def State.tellSettled (s : State) (f : Frame) (part : Nat) (m : Msg) (n all : Nat) : State :=
  let ctx := (s.part part).ctx
  match m.launch, s.launchHere f.sdev ctx m.launch with
  | some w, some l =>
    let t := tellOf f m w n
    if l.dev.isSome ∧ n < all then
      let (s, first) := s.engage l ctx f.domain t m.rcd
      if first then s else s.tell t
    else s.tell t
  | _, _ => s

/-- A message of another device at the CNIs of its targets; a bounce returns to its source core. Each keeps the launch of the
task that sent it. -/
def State.takeMessage (s : State) (f : Frame) (part : Nat) (m : Msg) : State :=
  let here := s.launchHere (if m.kind = .bounce then s.fabric.devId else f.sdev) (s.part part).ctx m.launch
  match (if m.kind = .bounce then s.bounceIn part f.domain m.target else s.placedIn part f.domain (s.rcd? here) m.target) with
  | .error e => if m.kind = .bounce then s else (s.bounceAway f m e m.target).tellSettled f part m 1 1
  | .ok tg =>
    if m.kind = .bounce then
      match tg.head? with
      | some (.core c) => { s.modAbroad here c m.msgid (fun x => { x with back := x.back + 1 }) with
          net := s.net ++ [.bounce c { m with launch := here }] }
      | _ => s
    else
      let (s, n) := tg.foldl (fun x t => let (s, b) := State.takeCopy x.1 f m here t; (s, x.2 + ofBool b)) (s, 0)
      s.tellSettled f part m n tg.length

/-- The entry of a core's flight that a reply answers. -/
def State.sentEntry? (s : State) (c req : Nat) : Option Entry :=
  ((s.core c).flight.find? fun f => f.e.id == req && f.st == .sent).map (·.e)

/-- A reply with bytes, or with the cause of a failure, for a core's AMO, load or chunk. -/
def State.takeReply (s : State) (c req : Nat) (r : Except Nat (List Byte)) : State :=
  match s.sentEntry? c req with
  | some e =>
    match e.act with
    | .clean => s.land c req
    | .amo _ _ _ _ uid =>
      (match r with
        | .ok bs => s.returnResult c uid (w64 (leVal bs)) none
        | .error cause => s.returnResult c uid 0 (some (cause, e.ea))).land c req
    | _ => s
  | none => (s.answer c req r).cpAnswer c req r

/-- An acknowledgement of a posted write: for the copy engine's chunk at once, for an entry by WRITE_ACK. -/
def State.takeAck (s : State) (dev c req : Nat) (ok : Bool) (cause : Nat) : State :=
  match s.sentEntry? c req with
  | some _ => { s with net := s.net ++ [.ack c req ok cause dev] }
  | none => s.cpAck c req ok cause

/-- An RDX request of another device at its owner. -/
def State.takeRdx (s : State) (f : Frame) (part : Nat) (r : RdxReq) : State :=
  let gva := field r.quad.a 47 0
  let tg := if r.cdev = s.fabric.devId then (match s.placedIn r.cpart f.domain none r.quad.c with | .ok l => l | .error _ => [])
    else [.device r.cdev r.cpart f.domain]
  if s.partIn part f.domain then { s with net := s.net ++ [.rdx r (.hbm part 0 gva 0) tg] }
  else s.rdxFails r tg 2 Cause.permission r.quad.a

/-- Another device tells that a launch is torn down: one of this device, or a guest. -/
def State.takeKill (s : State) (f : Frame) (l : LaunchId) : State :=
  let d := l.dev.getD f.sdev
  if d = s.fabric.devId then
    if (s.ctx l.ctx).domain = f.domain then s.killLaunch { l with dev := none } else s
  else
    match s.guest? { l with dev := some d } with
    | some g => if g.dom = f.domain then (s.killHere g.launch).modGuest g.launch fun g => { g with killed := true } else s
    | none => s

/-- The data of a request, with what came ahead of it (R292). -/
def State.wholeData (s : State) (r : RdxReq) (bs : List Byte) : State × List Byte :=
  let mine := s.fabric.pieces.filter fun x => x.1 == r
  ({ s with fabric := { s.fabric with pieces := s.fabric.pieces.filter fun x => x.1 != r } }, mine.flatMap (·.2) ++ bs)

/-- A service message of another device. -/
def State.takeService (s : State) (f : Frame) (core req : Nat) (v : Service) : State :=
  match v with
  | .rdx part r => s.takeRdx f part r
  | .rdxPiece r bs => { s with fabric := { s.fabric with pieces := s.fabric.pieces ++ [(r, bs)] } }
  | .rdxData r bs status =>
    let (s, bs) := s.wholeData r bs
    match s.placedIn r.cpart f.domain none r.quad.c with
    | .error e => (s.refuseRdx r e r.quad.c).rdxEnds r false
    | .ok tg => (s.modAbroad (s.rdxLaunch r) (s.rdxSource r) r.msgid Abroad.over).deliverAll r bs status tg
  | .ack ok cause => s.takeAck f.sdev core req ok cause
  | .acks l => l.foldl (fun s a => s.takeAck f.sdev core a.1 a.2.1 a.2.2) s
  | .data bs => s.takeReply core req (.ok bs)
  | .failed cause => s.takeReply core req (.error cause)
  | .rdxDone r notify stays =>
    let s := if stays then s else s.modAbroad (s.rdxLaunch r) (s.rdxSource r) r.msgid Abroad.over
    if notify then { s with net := s.net ++ [.notice r (s.rdxSource r)] } else s
  | .settled l p src id n =>
    s.modAbroad (s.launchHere s.fabric.devId (s.part p).ctx (some l)) (coreOfPlace (s.part p) src) id fun x => { x with due := some n }
  | .kill l => s.takeKill f l
  | .rdxFault r cause addr owner =>
    s.postRec r.rpart { rdxFaultRec r cause addr owner with core := coreOfPlace (s.part r.rpart) r.requester }
  | .rdxRefused r code place =>
    { s with net := s.net ++ [.bounce (coreOfPlace (s.part r.rpart) r.requester) (rdxBounceMsg r code place)] }
  | v => { s with net := s.net ++ [.remote f.sdev core req f.domain v] }

/-- Ports of a bitmap. -/
def portsOf (b : BitVec 25) : List Nat := (upto 25).filter fun k => b.getLsbD k

/-- The current set of a router entry. -/
def Stream.now (e : Stream) : StreamSet := e.sets.getD e.cur {}

/-- A frame that carries a marker. -/
def marksSet (f : Frame) : Bool := match f.payload with | .stream items => items.contains .marker | _ => false

/-- A frame of another device's flow ends at this entry: its current set has an OP, or several IN ports whose markers make one. DESIGN CHOICE (log
entry 20): such a marker is taken here and sent on anew, by R308 case 4; case 6 has frames forwarded unchanged where no entry has an OP. -/
def Stream.ends (e : Stream) (f : Frame) : Bool :=
  decide (e.now.op ≠ 0) || (marksSet f && decide (2 ≤ (portsOf e.now.inp).length))

/-- The frame has gone on unchanged when its items are taken (R308 case 6): one that the entry passes on to the device that the frame is for. -/
def State.passedOn (s : State) (e : Stream) (f : Frame) : Bool := decide (f.ddev ≠ s.fabric.devId) && !e.ends f

/-- The items of a stream enter the queue of the port by which they came. -/
def State.takeStream (s : State) (port : Nat) (f : Frame) (items : List StreamItem) : State :=
  match Tbl.get? s.fabric.streams f.stream with
  | none => s
  | some e =>
    let new := items.map fun x => (x, s.passedOn e f)
    let e := { e with entered := true, queues := Tbl.put [] e.queues port (Tbl.find [] e.queues port ++ new) }
    { s with fabric := { s.fabric with streams := Tbl.set s.fabric.streams f.stream e } }

/-- The payload of a frame is taken. -/
def State.takePayload (s : State) (port : Nat) (f : Frame) : State :=
  match f.payload with
  | .empty => s
  | .message part m => s.takeMessage f part m
  | .service core req v => s.takeService f core req v
  | .mortar dist clock =>
    match Tbl.get? s.fabric.sysTrellis f.domain with
    | none => s
    | some t => { s with fabric := { s.fabric with
        sysTrellis := Tbl.set s.fabric.sysTrellis f.domain { t with heard := Tbl.set t.heard port (dist, clock) } } }
  | .stream items => s.takeStream port f items
  | .link _ _ => s

/-- The partition that a frame is for. -/
def State.frameFor (s : State) (f : Frame) : Option Nat :=
  match f.payload with
  | .message part _ => some part
  | .service core _ v =>
    match v with
    | .store p _ _ => some p
    | .amop p _ _ _ _ => some p
    | .red p _ _ _ _ => some p
    | .load p _ _ => some p
    | .amo p _ _ _ _ _ => some p
    | .rdx p _ => some p
    | .rdxData r _ _ => some r.cpart
    | .rdxPiece r _ => some r.cpart
    | .rdxDone r _ _ => some r.rpart
    | .settled _ p _ _ _ => some p
    | .rdxFault r _ _ _ => some r.rpart
    | .rdxRefused r _ _ => some r.rpart
    | _ => s.corePart? core
  | _ => none

/-- Bytes that a halted context's holding buffer takes (22 R330 case 4). -/
def holdRoom : Nat := 262144

/-- A frame can be taken now: not one for a halted context whose holding buffer is full. -/
def State.takeable (s : State) (f : Frame) : Bool :=
  match s.frameFor f with
  | some p => decide ((s.part p).halt = .running) || decide ((s.part p).holdBytes + f.wire ≤ holdRoom)
  | none => true

/-- A frame is taken: its message goes to the CNI of its target, in a slot of the partition on the memory plane and behind what of the
partition waits for one (R289, 24 R344), or into the holding buffer of a halted context. -/
def State.takeFrame (s : State) (port : Nat) (f : Frame) : State :=
  match s.frameFor f with
  | some p =>
    if (s.part p).halt ≠ .running then s.modPart p fun k => { k with holding := k.holding ++ [(port, f)], holdBytes := k.holdBytes + f.wire }
    else if s.planeOpen p && s.fabric.arrived.all fun e => s.frameFor e.2 != some p then s.takePayload port f
    else { s with fabric := { s.fabric with arrived := s.fabric.arrived ++ [(port, f)] } }
  | none => s.takePayload port f

/-- Frames between the ports and the partitions go on in the slots of their partitions. -/
def State.crossPlane (s : State) : State :=
  let out := s.fabric.inject
  let s := out.foldl (fun s e => s.inject e.1 e.2) { s with fabric := { s.fabric with inject := [] } }
  let inn := s.fabric.arrived
  inn.foldl (fun s e => s.takeFrame e.1 e.2) { s with fabric := { s.fabric with arrived := [] } }

/-! ## Arrival (R299, R300) -/

/-- NEXT goes on by one, over into the next EPOCH; what was held under its number is held no more. -/
def FlowIn.pass (i : FlowIn) : FlowIn :=
  { next := (i.next + 1) % 2 ^ 24, epoch := if i.next + 1 = 2 ^ 24 then (i.epoch + 1) % 2 ^ 20 else i.epoch, held := Tbl.del i.held i.next }

/-- How far a frame's EPOCH and SEQ are ahead of NEXT, modulo 2^44. DEDUCED (log entry 20): R300 compares SEQ; with R302 case 3 and R303 a copy of
an earlier EPOCH, which another operation has taken its SEQ from, counts as one before NEXT. -/
def FlowIn.ahead (i : FlowIn) (f : Frame) : Nat :=
  (f.epoch % 2 ^ 20 * 2 ^ 24 + f.seq % 2 ^ 24 + 2 ^ 44 - (i.epoch % 2 ^ 20 * 2 ^ 24 + i.next % 2 ^ 24)) % 2 ^ 44

/-- Frames held for their turn are taken, at most `fuel` of them. -/
def State.takeHeld (s : State) (w : FlowId) : Nat → State
  | 0 => s
  | fuel + 1 =>
    let i := s.fabric.inOf w
    match Tbl.get? i.held i.next with
    | none => s
    | some (port, f) =>
      if s.takeable f then
        let s : State := { s with fabric := s.fabric.setIn w i.pass }
        (s.takeFrame port f).takeHeld w fuel
      else s

/-- The frame is acknowledged here: it ends here, for this device or at an entry that takes it in transit. -/
def State.ackHere (s : State) (f : Frame) : Bool :=
  f.ddev == s.fabric.devId || match Tbl.get? s.fabric.streams f.stream with | some e => e.ends f | none => false

/-- The acknowledgement of a frame that is acknowledged here. -/
def State.answerFrame (s : State) (f : Frame) : State := if s.ackHere f then s.sendAck f else s

/-- A frame of a flow that this device takes in its turn (R300). -/
def State.sequence (s : State) (port : Nat) (f : Frame) : State :=
  let w : FlowId := ⟨f.sdev, f.ddev, f.tc⟩
  let i := s.fabric.inOf w
  let d := i.ahead f
  if d = 0 then
    if s.takeable f then
      let s : State := { s with fabric := s.fabric.setIn w i.pass }
      ((s.takeFrame port f).takeHeld w (i.held.length + 1)).answerFrame f
    else s
  else if d < 4096 then
    if (Tbl.get? i.held f.seq).isSome then s.answerFrame f
    else { s with fabric := s.fabric.setIn w { i with held := Tbl.set i.held f.seq (port, f) } }
  else if 2 ^ 43 ≤ d then s.answerFrame f
  else s

/-- Link control stays on its link, and nothing else has its opcode (R295). -/
def linkFrame (f : Frame) : Bool := f.opcode == 0x0F && f.ddev == 0x3FFFF

/-- The frame is one that the device supports, with no reserved code or bit (R291, R292, R294, R295), at a front-end port for the UDP
port of the device. -/
def State.frameOk (s : State) (port : Nat) (f : Frame) : Bool :=
  f.supported && decide (64 ≤ f.wire ∧ f.wire ≤ 9216) && f.reservedZero && decide (f.tc ≤ 3) && ([1, 2, 3, 4].contains f.opcode || linkFrame f)
    && decide (f.length ≤ if 24 ≤ port then 9108 else 9174) && (decide (port < 24) || f.udp == s.fabric.udpPort)

/-- A transport acknowledgement for this device. -/
def State.takeAckFrame (s : State) (f : Frame) : State := s.acked ⟨s.fabric.devId, f.sdev, f.tc⟩ f.ack

/-- An entry without an OP sends a frame on unchanged by its OUT ports (R308 case 6), but one that it takes itself. -/
def State.streamPass (s : State) (e : Stream) (f : Frame) : State :=
  if e.ends f && s.tagOk f then s
  else ((upto 24).filter fun p => e.now.out.getLsbD p && (s.fabric.link p).up).foldl (fun s p => s.enqueueFrame p transitClass f) s

/-- A stream frame in transit (R308): an entry with an OP takes it; one without an OP sends it on from an IN port, and reads it when it
holds the key; a device without an entry forwards it as any other. -/
def State.streamTransit (s : State) (port : Nat) (f : Frame) : State :=
  match Tbl.get? s.fabric.streams f.stream with
  | none => s.forwardFrame transitClass { f with out := none }
  | some e =>
    if e.now.op ≠ 0 then (if s.tagOk f then s.sequence port f else s.dropFrame)
    else if e.now.inp.getLsbD port then
      let t := s.streamPass e f
      if t.tagOk f then t.sequence port f else t
    else s.forwardFrame transitClass { f with out := none }

/-- LINK_CONTROL_FRAME: the receiver at the other end reports how many frames it has received in order; those are freed, and after a
failure or a gap the rest are sent again, byte for byte (R301). A port whose link is down, or while the fabric manager does not run, carries no
such frame (25_bring_up.md R347). -/
def State.linkControl (s : State) (port count : Nat) (gap : Bool) : State :=
  let l := s.fabric.link port
  if l.up = true ∧ s.managed = true ∧ l.freed ≤ count ∧ count ≤ l.sent then
    let left := l.replay.drop (count - l.freed)
    let wire := if gap then (l.wire.filter fun f => f.opcode == 0x0F) ++ left else l.wire.filter fun f => f.opcode == 0x0F || decide (count < f.count)
    ({ s with fabric := s.fabric.setLink port { l with replay := left, freed := count, wire := wire } }).pump port
  else s

/-- A frame that the link has brought in order. -/
def State.receiveGood (s : State) (port : Nat) (f : Frame) : State :=
  if !s.frameOk port f then s.dropFrame
  else if f.ddev = 0x3FFFF then
    if s.tagOk f && (f.opcode == 3 || f.opcode == 4) then s.takePayload port f else s.dropFrame
  else if f.ddev ≠ s.fabric.devId then
    if f.opcode = 3 then s.streamTransit port f else s.forwardFrame transitClass { f with out := none }
  else if !s.tagOk f then s.dropFrame
  else
    let s := if f.ackv then s.takeAckFrame f else s
    if f.opcode = 2 then s else s.sequence port f

/-- FRAME_RECEIVE: the link takes frames in the order of their count; one that fails FCS, or that stands behind a missing one, makes the
receiver report its count, and one that comes again is left alone (R301). The ports carry no traffic before the fabric manager runs
(25_bring_up.md R347). -/
def State.receive (s : State) (port : Nat) (f : Frame) : State :=
  let l := s.fabric.link port
  if !(l.up && s.managed) then s
  else if f.fcsGood && linkFrame f then
    match f.payload with
    | .link count gap => if s.frameOk port f then s.linkControl port count gap else s.dropFrame
    | _ => s.dropFrame
  else if !f.fcsGood then s.dropFrame.reportCount port true
  else if f.count = l.received + 1 then
    let t : State := { s with fabric := s.fabric.setLink port { l with received := l.received + 1 } }
    (t.reportCount port false).receiveGood port f
  else if l.received + 1 < f.count then s.reportCount port true
  else s.reportCount port false

/-- ACK_RECEIVE: a frame that carries an acknowledgement and nothing else. -/
def State.receiveAck (s : State) (port : Nat) (f : Frame) : State := if f.opcode = 2 then s.receive port f else s

/-! ## Links (R301) -/

/-- LINK_DOWN: the link leaves every port set, and the frames in its buffer are lost; those that wait for it take another
port. -/
def State.linkDown (s : State) (port : Nat) : State :=
  let l := s.fabric.link port
  let waiting := s.fabric.queued port
  let s : State := { s with fabric := { s.fabric.setLink port { l with up := false, replay := [], wire := [] } with
    egress := s.fabric.egress.filter fun e => e.1 != port } }
  waiting.foldl (fun s e => s.forwardFrame e.1 e.2) s

/-- LINK_TRAINING: the port's link comes up, while the fabric manager runs; in recovery the front-end port that the keystone core brings
up, and no other (25_bring_up.md R347, R351). One that was up keeps its counts and its buffer. -/
def State.linkTrain (s : State) (port : Nat) : State :=
  if (s.fabric.link port).up then s
  else if 26 ≤ port ∨ !(s.managed || (decide (s.plat.stage = .recovery) && decide (s.plat.recoveryPort.map (· + 24) = some port))) then s
  else ({ s with fabric := s.fabric.setLink port { up := true } }).pump port

/-! ## End-to-end timers (R302) -/

/-- Cycles of the reference clock in a microsecond. -/
def cyclesPerUs : Nat := 2700

/-- What was outstanding in a frame of a broken flow fails (case 2). -/
def State.failFrame (s : State) (dev : Nat) (pl : Payload) : State :=
  match pl with
  | .message _ m =>
    if m.kind = .bounce then s
    else
      let here := s.launchHere s.fabric.devId (s.part m.spart).ctx m.launch
      { s.modAbroad here (s.sourceCore m) m.msgid Abroad.over with
        net := s.net ++ [.bounce (s.sourceCore m) (bounceOf { m with launch := here } 4 m.target)] }
  | .service core req v =>
    match v with
    | .store _ _ _ => s.takeAck dev core req false Cause.translate
    | .amop _ _ _ _ _ => s.takeAck dev core req false Cause.translate
    | .red _ _ _ _ _ => s.takeAck dev core req false Cause.translate
    | .load _ _ _ => s.takeReply core req (.error Cause.translate)
    | .amo _ _ _ _ _ _ => s.takeReply core req (.error Cause.translate)
    | .rdx _ r => (s.modAbroad (s.rdxLaunch r) (s.rdxSource r) r.msgid Abroad.over).refuseRdx r 4 r.quad.c
    | .rdxData r _ _ =>
      ((s.modAbroad (s.rdxLaunch r) (s.rdxSource r) r.msgid Abroad.over).refuseRdx r 4 r.quad.c).rdxEnds r false
    | _ => s
  | _ => s

/-- The flow is broken: its outstanding operations fail. -/
def State.breakFlow (s : State) (w : FlowId) : State :=
  let o := s.fabric.outOf w
  let s : State := { s with fabric := s.fabric.setOut w { o with broken := true, unacked := [], sentAt := [], queue := [], expired := 8 } }
  let s := o.unacked.foldl (fun s f => s.failFrame w.ddev f.payload) s
  o.queue.foldl (fun s e => s.failFrame w.ddev e.2.2.2) s

/-- E2E_TIMER_EXPIRY: when the oldest unacknowledged frame has waited E2ET, all are resent; the eighth expiration in a row breaks
the flow. -/
def State.timerExpiry (s : State) (w : FlowId) : State :=
  let o := s.fabric.outOf w
  if w.sdev ≠ s.fabric.devId ∨ o.unacked.isEmpty = true ∨ o.broken = true
      ∨ s.time < o.sentAt.headD 0 + s.fabric.e2et * cyclesPerUs then s
  else if 8 ≤ o.expired + 1 then s.breakFlow w
  else
    let again := o.unacked.map fun f => { f with resend := true }
    let s : State := { s with fabric := s.fabric.setOut w { o with
      unacked := again, sentAt := again.map fun _ => s.time, expired := o.expired + 1 } }
    again.foldl (fun s f => s.inject (s.classOf f.domain f.payload) f) s

/-- What a broken flow from a device could have told of the launches' messages there is not told any more. -/
def State.forgetAbroad (s : State) (dev : Nat) : State :=
  { s with
    ctxs := s.ctxs.map fun e => (e.1, { e.2 with
      launches := e.2.launches.map fun l => (l.1, { l.2 with abroad := l.2.abroad.filter fun x => x.dev != dev }) })
    fabric := { s.fabric with guests := s.fabric.guests.map fun g => { g with abroad := g.abroad.filter fun x => x.dev != dev } } }

/-- The EPOCH with which a flow starts again: another than its last, which the fabric manager names, a free value (log entry 9). -/
def newEpoch (n old : Nat) : Nat := old + 1 + Config.restartEpoch n % (2 ^ 20 - 1)

/-- NEXT of a flow to this device starts again at 0, in the new EPOCH. -/
def State.restartIn (s : State) (w : FlowId) : State :=
  let (n, s) := s.nextFree
  { s with fabric := s.fabric.setIn w { epoch := newEpoch n (s.fabric.inOf w).epoch % 2 ^ 20 } }

/-- FLOW_RESTART: a broken flow starts again, with a new EPOCH, which the fabric manager names, and SEQ 0; at its target with NEXT 0 (case
3). -/
def State.restartFlow (s : State) (w : FlowId) : State :=
  let s : State :=
    if w.sdev = s.fabric.devId then
      let o := s.fabric.outOf w
      if o.broken then
        let (n, s) := s.nextFree
        ({ s with fabric := s.fabric.setOut w { o with
          seq := 0, epoch := newEpoch n o.epoch, unacked := [], sentAt := [], expired := 0, broken := false } }).flowGoes w
      else s
    else s
  if w.ddev = s.fabric.devId then (s.forgetAbroad w.sdev).restartIn w else s

/-- E2ET_WRITE: 40 to 1,000 microseconds; any other value is refused. -/
def State.writeE2et (s : State) (v : Nat) : State :=
  if 40 ≤ v ∧ v ≤ 1000 then { s with fabric := { s.fabric with e2et := v } } else { s with alerts := s.alerts ++ [.e2etRefused v] }

/-! ## Fabric keys of a domain (24 R346) -/

/-- A domain's keys changed, when the device holds them. -/
def State.modKeys (s : State) (dom : Nat) (f : DomKeys → DomKeys) : State :=
  match Tbl.get? s.fabric.keys dom with
  | none => s
  | some k => { s with fabric := { s.fabric with keys := Tbl.set s.fabric.keys dom (f k) } }

/-- FABRIC_KEY_INSTALL: the next key stands beside the current one. -/
def DomKeys.install (k : DomKeys) : DomKeys :=
  if k.next.isSome then k else { k with next := some (k.made + 1), made := k.made + 1 }

/-- Every flow of this device goes on where it may: a new key lets flows go on whose IVs are used up (R304). -/
def State.flowsGo (s : State) : State := s.fabric.out.foldl (fun s e => if e.1.sdev = s.fabric.devId then s.flowGoes e.1 else s) s

/-- FABRIC_KEY_SWITCH: senders use the next key. -/
def DomKeys.switch (k : DomKeys) : DomKeys := if k.next.isSome then { k with switched := true } else k

/-- A frame under a domain's current key is still unacknowledged. -/
def State.keyInUse (s : State) (dom key : Nat) : Bool :=
  s.fabric.out.any fun o => o.2.unacked.any fun f => f.domain == dom && f.key == key

/-- FABRIC_KEY_DESTROY: the old key goes once senders have switched and no frame under it is unacknowledged. -/
def State.destroyKey (s : State) (dom : Nat) : State :=
  s.modKeys dom fun k =>
    match k.next with
    | some n => if k.switched && !s.keyInUse dom k.current then { k with current := n, next := none, switched := false } else k
    | none => k

/-- DOMAIN_CREATION: a domain's first key is made and loaded, one that no domain of the number has had. -/
def State.createDomain (s : State) (dom : Nat) : State :=
  if s.hasKey dom then s
  else
    let n := Tbl.find 0 s.fabric.keysMade dom
    { s with fabric := { s.fabric with
      keys := Tbl.set s.fabric.keys dom { current := n, made := n }, keysMade := Tbl.put 0 s.fabric.keysMade dom (n + 1) } }

/-- DOMAIN_DESTRUCTION: a domain's keys are destroyed, and no number of theirs is used again. -/
def State.destroyDomain (s : State) (dom : Nat) : State :=
  match Tbl.get? s.fabric.keys dom with
  | none => s
  | some k => { s with fabric := { s.fabric with
      keys := Tbl.del s.fabric.keys dom, keysMade := Tbl.put 0 s.fabric.keysMade dom (Nat.max (Tbl.find 0 s.fabric.keysMade dom) (k.made + 1)) } }

/-- An operation of the management cores and of the keystone core at their command: while they run (25_bring_up.md R347, R350). -/
def State.whenManaged (s : State) (f : State → State) : State := if s.managed then f s else s

/-! ## Meanings -/

/-- FRAME_RECEIVE (R299, R300). -/
def execFrameReceive (port : Nat) (f : Frame) (s : State) : Host.Outcome State Fault Refusal := event (fun s => s.receive port f) s

/-- ACK_RECEIVE (R300). -/
def execAckReceive (port : Nat) (f : Frame) (s : State) : Host.Outcome State Fault Refusal := event (fun s => s.receiveAck port f) s

/-- LINK_CONTROL_FRAME (R301). -/
def execLinkControlFrame (port count : Nat) (gap : Bool) (s : State) : Host.Outcome State Fault Refusal :=
  event (fun s => s.linkControl port count gap) s

/-- LINK_DOWN (R301). -/
def execLinkDown (port : Nat) (s : State) : Host.Outcome State Fault Refusal := event (fun s => s.linkDown port) s

/-- LINK_TRAINING (R301); in recovery the first request goes out (25_bring_up.md R351). -/
def execLinkTraining (port : Nat) (s : State) : Host.Outcome State Fault Refusal :=
  .next ((s.perform fun s => s.linkTrain port).performPlat fun k => k.portTrained port s.time s.fabric.devId)

/-- E2E_TIMER_EXPIRY (R302). -/
def execE2eTimerExpiry (flow : FlowId) (s : State) : Host.Outcome State Fault Refusal := event (fun s => s.timerExpiry flow) s

/-- FLOW_RESTART (R302). -/
def execFlowRestart (flow : FlowId) (s : State) : Host.Outcome State Fault Refusal :=
  event (fun s => s.whenManaged fun s => s.restartFlow flow) s

/-- E2ET_WRITE (R302). -/
def execE2etWrite (v : Nat) (s : State) : Host.Outcome State Fault Refusal := event (fun s => s.whenManaged fun s => s.writeE2et v) s

/-- FABRIC_KEY_INSTALL (R346). -/
def execFabricKeyInstall (dom : Nat) (s : State) : Host.Outcome State Fault Refusal := event (fun s => s.whenManaged fun s => s.modKeys dom DomKeys.install) s

/-- FABRIC_KEY_SWITCH (R346). -/
def execFabricKeySwitch (dom : Nat) (s : State) : Host.Outcome State Fault Refusal := event (fun s => s.whenManaged fun s => (s.modKeys dom DomKeys.switch).flowsGo) s

/-- FABRIC_KEY_DESTROY (R346). -/
def execFabricKeyDestroy (dom : Nat) (s : State) : Host.Outcome State Fault Refusal := event (fun s => s.whenManaged fun s => s.destroyKey dom) s

/-- DOMAIN_CREATION (R346). -/
def execDomainCreation (dom : Nat) (s : State) : Host.Outcome State Fault Refusal := event (fun s => s.whenManaged fun s => s.createDomain dom) s

/-- DOMAIN_DESTRUCTION (R346). -/
def execDomainDestruction (dom : Nat) (s : State) : Host.Outcome State Fault Refusal := event (fun s => s.whenManaged fun s => s.destroyDomain dom) s

end Machine
end Sys2Proof
end

