-- ==== Sys2Proof/Machine/Collectives.lean ====
section
/-! DEFINITION. Virtual streams: the stream ring's requests, router entries, words and markers (20_fabric.md R306 to R310). -/

namespace Sys2Proof
namespace Machine

/-! ## Tables of a guest as the device reads them -/

/-- The front end as a source of requests of a partition (22 R323), and the fabric manager for its stream ring. -/
def frontEndOf (p : Nat) : Nat := 4096 + p
def streamRingOf (p : Nat) : Nat := 8192 + p

/-- A read or write of the front end or of the fabric manager waits at the home of its line (22 R323): its request is parked there once, and made
again when it is replayed. One that finds the park queue full is retried: its source makes no other request before. -/
def State.guestHold (s : State) (src : Nat) (loc : Loc) (off : Nat) : State :=
  let r : Parked := { who := .again, src := src, req := 0, loc := loc, off := off }
  if (s.clusters.any fun e => e.2.park.any fun x => x.src == src && x.loc == loc) || !s.parkRoom (s.homeFor r) then s else s.parkAt r

/-- One for partition memory that waits for its line. -/
def State.guestBusy (s : State) (src p phys gva gpa n : Nat) : State :=
  if (linesOf phys gpa n).any fun l => s.lineHeld p l then s.guestHold src (.hbm p phys gva gpa) (s.heldOff p phys gpa n) else s

/-- Bytes of a partition's guest memory at their home, without a cache; none when they cannot be read now. -/
def State.guestRead (s : State) (p : Nat) (a : W64) (n : Nat) : State × Option (List Byte) :=
  if field a 63 48 ≠ 0 ∨ s.planeOpen p = false then (s, none)
  else
    match s.xlateMem none p (field a 47 0) .read with
    | (s, .at_ (.hbm q phys gva gpa)) =>
      if s.busy q phys gpa n false then (s.guestBusy (streamRingOf p) q phys gva gpa n, none)
      else
        let (s, bs) := s.homeRead none q phys gpa n
        (s, some bs)
    | (s, .wait gpa) => ((s.noteFill p gpa).guestHold (streamRingOf p) (.unmapped p (field a 47 0) gpa) 0, none)
    | (s, .later gpa) => (s.guestHold (streamRingOf p) (.unmapped p (field a 47 0) gpa) 0, none)
    | (s, _) => (s, none)

/-- Bytes written to a partition's guest memory at their home; none when they cannot be written now. -/
def State.guestWrite (s : State) (p : Nat) (a : W64) (bs : List Byte) : State × Bool :=
  if field a 63 48 ≠ 0 ∨ s.planeOpen p = false then (s, false)
  else
    match s.xlateMem none p (field a 47 0) .write with
    | (s, .at_ (.hbm q phys gva gpa)) =>
      if s.busy q phys gpa bs.length true then ((s.guestBusy (streamRingOf p) q phys gva gpa bs.length).startCow q gpa, false)
      else (s.homeWrite none q phys gpa (fullBytes bs), true)
    | (s, .wait gpa) => ((s.noteFill p gpa).guestHold (streamRingOf p) (.unmapped p (field a 47 0) gpa) 0, false)
    | (s, .later gpa) => (s.guestHold (streamRingOf p) (.unmapped p (field a 47 0) gpa) 0, false)
    | (s, _) => (s, false)

/-- The state before an operation that did not take place, with what its accesses began: fills, copies on write, parked requests. -/
def State.undone (s u : State) : State := { s with parts := u.parts, alerts := u.alerts, clusters := u.clusters }

/-! ## Requests (R306, R309) -/

/-- Fields of a request of 64 bytes. -/
def sqStream (q : BitVec 512) : Nat := field q 11 0
def sqAction (q : BitVec 512) : Nat := field q 15 12
def sqNsets (q : BitVec 512) : Nat := field q 21 20 + 1
def sqClass (q : BitVec 512) : Nat := field q 29 24
def sqBase (q : BitVec 512) : Nat := field q 383 320
def sqNotify (q : BitVec 512) : W64 := w64 (field q 447 384)

/-- The sets in use. -/
def sqSets (q : BitVec 512) : List StreamSet :=
  (upto (sqNsets q)).map fun k =>
    let w := w64 (field q (127 + 64 * k) (64 + 64 * k))
    { inp := BitVec.ofNat 25 (field w 24 0), out := BitVec.ofNat 25 (field w 49 25), op := field w 52 50 }

/-- A reserved field or code is used. -/
def sqReserved (q : BitVec 512) : Bool :=
  decide (field q 511 448 ≠ 0) || decide (field q 63 30 ≠ 0) || decide (field q 23 22 ≠ 0) || decide (field q 19 16 ≠ 0)
    || decide (1 < sqAction q) || decide (sqBase q % 8 ≠ 0)
    || (upto 4).any fun k => decide (field q (127 + 64 * k) (64 + 64 * k + 53) ≠ 0) || decide (5 ≤ field q (64 + 64 * k + 52) (64 + 64 * k + 50))

/-- NOTIFY is a kind-0 place word in the partition. -/
def notifyOk (p : Partition) (w : W64) : Bool :=
  decide (plKind w = 0) && decide (plCore w ≤ 8) && decide (plX w ≤ p.pw) && decide (plY w ≤ p.ph) && decide (field w 63 20 = 0)

/-- A set with an OP names a port that faces a switch (R309). DEDUCED (log entry 20): its request is ill-formed. -/
def switchOp (sets : List StreamSet) : Bool :=
  sets.any fun t => decide (t.op ≠ 0) && (upto 24).any fun p => (t.inp.getLsbD p || t.out.getLsbD p) && Config.facesSwitch p

/-- Reduction slots in use at a port, without those of one stream: one for each set with an OP that has the port in OUT. -/
def State.slotsUsed (s : State) (port num : Nat) : Nat :=
  (s.fabric.streams.map fun e =>
    if e.1 = num then 0 else (e.2.sets.filter fun t => decide (t.op ≠ 0) && t.out.getLsbD port).length).sum

/-- A port has the slots that some sets need. -/
def State.slotsFit (s : State) (num : Nat) (sets : List StreamSet) : Bool :=
  (upto 25).all fun port =>
    decide (s.slotsUsed port num + (sets.filter fun t => decide (t.op ≠ 0) && t.out.getLsbD port).length ≤ 32)

/-- A request's code, and the device with what it did. -/
def State.streamRequest (s : State) (p : Nat) (q : BitVec 512) : Nat × State :=
  let k := s.part p
  let dom := (s.ctx k.ctx).domain
  let num := sqStream q
  let sets := sqSets q
  let old := Tbl.get? s.fabric.streams num
  let held := match old with | some e => decide (e.part ≠ p) | none => false
  if sqReserved q || held || (sqAction q != 1 && (!notifyOk k (sqNotify q) || switchOp sets)) then (4, s)
  else if sqAction q = 1 then
    (0, { s with fabric := { s.fabric with streams := Tbl.del s.fabric.streams num, early := s.fabric.early.filter (· != num) } })
  else if (sets.any fun t => decide (t.op ≠ 0)) && !s.hasKey dom then (2, s)
  else if (match old with | some e => e.entered | none => s.fabric.early.contains num) then (3, s)
  else if !s.slotsFit num sets then (1, s)
  else
    let e : Stream := { part := p, dom := dom, sets := sets, base := sqBase q, notify := sqNotify q, cls := sqClass q }
    (0, { s with fabric := { s.fabric with streams := Tbl.set s.fabric.streams num e } })

/-- Fields of a ring descriptor (03_launching.md R39). -/
def rdBase (w : BitVec 256) : W64 := w64 (field w 63 0)
def rdStatus (w : BitVec 256) : W64 := w64 (field w 127 64)
def rdCtrl (w : BitVec 256) : W64 := w64 (field w 191 128)
def rdLog2n (w : BitVec 256) : Nat := field w 195 192
def rdPcap (w : BitVec 256) : Nat := field w 205 204
def rdEn (w : BitVec 256) : Bool := bitAt w 206
def rdErr (w : BitVec 256) : Bool := bitAt w 207
def rdCtx (w : BitVec 256) : Nat := field w 223 216

/-- A status entry (03_launching.md R42). -/
def statusBytes (time final_ : Nat) (done acc : Bool) (code lid : Nat) : List Byte :=
  leBytes 8 (lid % 2 ^ 32 + code % 256 * 2 ^ 32 + ofBool acc * 2 ^ 40 + ofBool done * 2 ^ 41 + final_ % 4 * 2 ^ 42)
    ++ leBytes 8 (time % 2 ^ 64)

/-- The next request of a partition's stream ring, when its ACTION is the event's: it is carried out, its status is written and
CONS advances. -/
def State.streamServe (s : State) (p : Nat) (sel : Nat → Bool) : State :=
  let k := s.part p
  let w := k.streamRing
  if !(s.managed && k.en && k.resident && rdEn w && decide (rdLog2n w ≠ 0)) then s
  else
    match s.guestRead p (rdCtrl w) 68 with
    | (s, none) => s
    | (s, some bs) =>
      let cons := leVal (bs.drop 64)
      if leVal (bs.take 4) = cons then s
      else
        let i := cons % 2 ^ rdLog2n w
        match s.guestRead p (rdBase w + w64 (128 * i)) 64 with
        | (s, none) => s
        | (s, some bs) =>
          let q := BitVec.ofNat 512 (leVal bs)
          if !sel (sqAction q) then s
          else
            let (code, t) := s.streamRequest p q
            match t.guestWrite p (rdStatus w + w64 (16 * i)) (statusBytes t.time 0 true true code 0) with
            | (u, false) => s.undone u
            | (t, true) =>
              let n := (cons + 1) % 2 ^ 32
              match t.guestWrite p (rdCtrl w + 64) (leBytes 4 n) with
              | (u, false) => s.undone u
              | (t, true) => t

/-- A request of a partition with a lower number that can be carried out now goes first (R309). -/
def State.streamAhead (s : State) (p : Nat) : Bool :=
  s.parts.any fun e => decide (e.1 < p) && decide ((s.streamServe e.1 fun a => a != 1).fabric.streams ≠ s.fabric.streams)

/-- A configure of a partition's stream ring, when it is its turn. -/
def State.streamConf (s : State) (p : Nat) : State := if s.streamAhead p then s else s.streamServe p fun a => a != 1

/-! ## Words and markers (R307, R308) -/

/-- One step of a combination: 64-bit add, f32 add of the low 32 bits, signed maximum, unsigned minimum. -/
def streamOp (op : Nat) (a b : W64) : W64 :=
  match op with
  | 1 => a + b
  | 2 => w64 (f32add (asF32 a) (asF32 b)).toNat
  | 3 => if a.toInt < b.toInt then b else a
  | _ => if b.toNat < a.toNat then b else a

/-- The combination of the words of the IN ports, in increasing port number. -/
def streamCombine (op : Nat) : List W64 → W64
  | [] => 0
  | v :: r => r.foldl (streamOp op) v

/-- A word or marker leaves by the ports of a set other than the local one, in the TC 3 flow to the device that a free value names (log
entry 20). -/
def State.streamOut (s : State) (num : Nat) (e : Stream) (t : StreamSet) (x : StreamItem) : State :=
  ((portsOf t.out).filter (· < 24)).foldl (fun s port =>
    s.sendVia (Config.streamDest num port % 2 ^ 18) 3 e.dom num (some port) (.stream [x])) s

/-- A word leaves by the local port: a posted store of the partition; false when its home is not ready for it. A word whose
address has no translation or right is dropped. -/
def State.streamLocal (s : State) (e : Stream) (t : StreamSet) (x : Nat) (v : W64) : State × Bool :=
  if !t.out.getLsbD 24 then (s, true)
  else
    let a := e.base + 8 * x
    match s.xlateMem none e.part (a % 2 ^ 48) .write with
    | (_, .bad _) => (s, true)
    | _ => s.guestWrite e.part (w64 a) (leBytes 8 v.toNat)

/-- STREAM_WORD: the word at the head of a port's queue, when the port is an IN port of the current set. -/
def State.streamWord (s : State) (num port : Nat) : State :=
  match Tbl.get? s.fabric.streams num with
  | none => s
  | some e =>
    let t := e.sets.getD e.cur {}
    match Tbl.find [] e.queues port with
    | (.word x v, gone) :: rest =>
      if !t.inp.getLsbD port then s
      else
        let e' : Stream := { e with queues := Tbl.put [] e.queues port rest }
        let put (s : State) (e : Stream) : State := { s with fabric := { s.fabric with streams := Tbl.set s.fabric.streams num e } }
        let send (e' : Stream) (v : W64) : State :=
          match s.streamLocal e t x v with
          | (s', false) => s.undone s'
          | (s', true) => if gone then put s' e' else (put s' e').streamOut num e t (.word x v)
        if t.op = 0 then send e' v
        else
          let got := Tbl.set (Tbl.find [] e.words x) port v
          let ins := portsOf t.inp
          if ins.all fun p => (Tbl.get? got p).isSome then
            send { e' with words := Tbl.del e.words x } (streamCombine t.op (ins.map fun p => Tbl.find 0 got p))
          else put s { e' with words := Tbl.set e.words x got }
    | _ => s

/-- STREAM_MARKER: every IN port has delivered the marker: it is sent on, where its frame has not gone on unchanged, CUR advances, and a marker
that leaves by the local port starts a task, which acquires as every task start does. A word of the set that some IN port has not delivered by
its marker is not combined any more. -/
def State.streamMark (s : State) (num : Nat) : State :=
  match Tbl.get? s.fabric.streams num with
  | none => s
  | some e =>
    let t := e.sets.getD e.cur {}
    let ins := portsOf t.inp
    if ins.isEmpty || !(ins.all fun p => ((Tbl.find [] e.queues p).head?.map (·.1)) == some .marker) then s
    else
      let e' : Stream := { e with
        queues := ins.foldl (fun m p => Tbl.put [] m p ((Tbl.find [] m p).drop 1)) e.queues
        cur := (e.cur + 1) % e.sets.length, words := [] }
      let s : State := { s with fabric := { s.fabric with streams := Tbl.set s.fabric.streams num e' } }
      let s := if ins.all fun p => (((Tbl.find [] e.queues p).head?.map (·.2)).getD false) then s else s.streamOut num e t .marker
      if t.out.getLsbD 24 then
        let c := coreOfPlace (s.part e.part) e.notify
        s.startBy c e.cls 0 ⟨w64 num, w64 e.cur, 0, 0⟩ [] none none
      else s

/-! ## Meanings -/

/-- STREAM_CONFIGURE (R309). -/
def execStreamConfigure (part : Nat) (s : State) : Host.Outcome State Fault Refusal :=
  event (fun s => s.streamConf part) s

/-- STREAM_RELEASE (R309). -/
def execStreamRelease (part : Nat) (s : State) : Host.Outcome State Fault Refusal :=
  event (fun s => s.streamServe part fun a => a == 1) s

/-- STREAM_WORD (R308). -/
def execStreamWord (stream port : Nat) (s : State) : Host.Outcome State Fault Refusal :=
  event (fun s => s.streamWord stream port) s

/-- STREAM_MARKER (R308). -/
def execStreamMarker (stream : Nat) (s : State) : Host.Outcome State Fault Refusal :=
  event (fun s => s.streamMark stream) s

end Machine
end Sys2Proof
end

