-- ==== Sys2Proof/Machine/Park.lean ====
section
/-! DEFINITION. The park queues of the homes: the replay of what is parked there, and its failure (22_interruption.md R323, R324;
13_memory_hierarchy.md R233, R238, R241). -/

namespace Sys2Proof
namespace Machine

/-! ## Replay (22 R324) -/

/-- A parked read is made at its home, or parks again while its line or its translation still waits. The reader's L1 keeps no older copy of
what it returns (14_ordering.md R243). -/
def State.loadArrive (s : State) (r : Parked) (n : Nat) : State :=
  let again (s : State) (loc : Loc) : State := s.parkAt (s.loadPark r.src r.req loc n)
  let here (s : State) (p phys gva gpa : Nat) : State :=
    if s.busy p phys gpa n false then again s (.hbm p phys gva gpa)
    else
      let (s, bs) := s.homeRead (some (clusterOf r.src)) p phys gpa n
      (s.l1Forget r.src phys gpa n).answer r.src r.req (.ok bs)
  match r.loc with
  | .hbm p phys gva gpa => here s p phys gva gpa
  | .unmapped p gva _ =>
    match s.xlateMem (some r.src) p gva .read true with
    | (s, .at_ (.hbm p phys gva gpa)) => here s p phys gva gpa
    | (s, .wait gpa) => again (s.noteFill p gpa) (.unmapped p gva gpa)
    | (s, .later gpa) => again s (.unmapped p gva gpa)
    | (s, .bad cause) => s.answer r.src r.req (.error cause)
    | (s, _) => s.answer r.src r.req (.error Cause.translate)
  | _ => s

/-- A parked request of a core tried again; what still waits parks again, behind what was parked before it. -/
def State.retryParked (s : State) (r : Parked) : State :=
  match r.who with
  | .entry =>
    match (s.core r.src).flight.find? fun f => f.e.id == r.req with
    | some f => (s.mark r.src r.req .waiting).arrive r.src f.e true
    | none => s
  | .load n => s.loadArrive r n
  | .copy ch => (s.modCp r.src r.req fun e => { e with parked := false }).cpChunk r.src ch
  | .matrix => (s.modMxHead r.src fun e => if e.uid = r.req then { e with parked := false } else e).runAnyMatrix r.src
  | .again => s.wake r.src r.req fun w => match w with | .walk _ => true | _ => false
  | .item _ => s

/-- A parked request tried again: one of the message plane ahead of what is under way there, behind those replayed before it. -/
def State.replayOne (x : State × Nat) (r : Parked) : State × Nat :=
  match r.who with
  | .item i => x.1.itemArrive x.2 i
  | _ => (x.1.retryParked r, x.2)

/-- A request among others in the order of their arrival. -/
def insertParked (r : Parked) : List Parked → List Parked
  | [] => [r]
  | x :: l => if r.seq < x.seq then r :: x :: l else x :: insertParked r l

/-- The homes of a partition replay their parked requests, in the order in which they came (R324). -/
def State.replayPart (s : State) (p : Nat) : State :=
  let ks := (s.part p).clusters
  let all := (ks.flatMap fun k => (s.cluster k).park).foldl (fun l r => insertParked r l) []
  let s := ks.foldl (fun s k => s.modCluster k fun c => { c with park := [] }) s
  (all.foldl State.replayOne (s, 0)).1

/-- FORWARDING_ENTRY_INSTALL: the line is at its new home, and what was parked for it is replayed (R233). -/
def State.installForward (s : State) (ln : Nat) : State :=
  let l := s.line ln
  match l.moving with
  | none => s
  | some k =>
    match s.partOf? k with
    | none => s
    | some p =>
      (s.setLine ln { l with home := if k = s.dirSlice p ln then none else some k, moving := none, cand := 0, count := 0 }).replayPart p

/-- SCRUB: a line begins to be rewritten after a corrected error; at the next such event it is rewritten, and the requests parked
at its home are replayed (R323, R324). -/
def State.scrubLine (s : State) (ln : Nat) : State :=
  let l := s.line ln
  if l.scrub then s.parts.foldl (fun s p => s.replayPart p.1) (s.setLine ln { l with scrub := false })
  else s.setLine ln { l with scrub := true }

/-! ## A fill that fails (13 R238 case 3) -/

/-- A request of the message plane whose fill fails. -/
def State.itemFails (s : State) (x : NetItem) (gva : Nat) : State :=
  match x with
  | .rdx r _ tg => s.rdxFails r tg 1 Cause.translate (w64 gva)
  | x => ({ s with net := x :: s.net } : State).remoteFail 0 Cause.translate

/-- A parked request whose fill fails: a load and an AMO report TRANSLATE to their task, another write is dropped and reported, an
engine's command fails with it (R324). -/
def State.failParked (s : State) (r : Parked) (gva : Nat) : State :=
  match r.who with
  | .entry =>
    match (s.core r.src).flight.find? fun f => f.e.id == r.req with
    | some f => s.entryFails r.src f.e Cause.translate
    | none => s
  | .load _ => s.answer r.src r.req (.error Cause.translate)
  | .copy _ => s.modCp r.src r.req fun e => { e with parked := false, fillFailed := true }
  | .matrix => s.modMxHead r.src fun e => if e.uid = r.req then { e with parked := false, fillFailed := true } else e
  | .again => s
  | .item x => s.itemFails x gva

/-- A parked request waits for the translation of a page. -/
def Parked.waitsFill (r : Parked) (p gpa : Nat) : Option Nat :=
  match r.loc with
  | .unmapped q gva g => if q = p ∧ g / 65536 = gpa / 65536 then some gva else none
  | _ => none

/-- Every request of a partition that is parked for a page fails. -/
def State.failParks (s : State) (p gpa : Nat) : State :=
  (s.part p).clusters.foldl (fun s k =>
    let l := (s.cluster k).park
    let s := s.modCluster k fun c => { c with park := c.park.filter fun r => (r.waitsFill p gpa).isNone }
    l.foldl (fun s r => match r.waitsFill p gpa with | some gva => s.failParked r gva | none => s) s) s

/-! ## Meanings -/

/-- FORWARDING_ENTRY_INSTALL (R233). -/
def execForwardingEntryInstall (line : Nat) (s : State) : Host.Outcome State Fault Refusal :=
  event (fun s => s.installForward line) s

/-- SCRUB (R323). -/
def execScrub (line : Nat) (s : State) : Host.Outcome State Fault Refusal := event (fun s => s.scrubLine line) s

end Machine
end Sys2Proof
end

