-- ==== Sys2Proof/Machine/Pages.lean ====
section
/-! DEFINITION. What the hypervisor does to pages, and snapshots: stage-2 fills and invalidations, page moves, copies on write,
SNAP (13_memory_hierarchy.md R238, R239, R241; 24_protection.md R339 to R341; 07 R130; 22_interruption.md R324). -/

namespace Sys2Proof
namespace Machine

/-- Two guest physical addresses lie in one page of the smallest size. -/
def samePage (a b : Nat) : Bool := decide (a / 65536 = b / 65536)

/-! ## Stage-2 fills (R238 case 3) -/

/-- The waits of a partition for a page are over: those of slots and of the front end. -/
def State.endFill (s : State) (p gpa : Nat) (failed : Bool) : State :=
  let s := s.modPart p fun k => { k with
    faults := k.faults.filter fun g => !samePage g gpa
    feAsked := if failed then k.feAsked.map fun e => if samePage e.1 gpa then (e.1, true) else e
               else k.feAsked.filter fun e => !samePage e.1 gpa }
  (s.part p).cores.foldl (fun s c => s.modCore c fun k => { k with
    slots := k.slots.map fun e => (e.1,
      match e.2.wait with
      | .fill g => if samePage g gpa then { e.2 with wait := .order, fillFailed := failed } else e.2
      | _ => e.2) }) s

/-- STAGE2_FILL_REPLY: the hypervisor fills an entry, which lies in HBM, and what was parked is replayed; or it fails the walk. -/
def State.fillReply (s : State) (p gpa : Nat) (r : FillReply) : State :=
  match r with
  | .fill addr w => if addr + 8 ≤ hbmBytes then ((s.wrBytes addr (leBytes 8 w.toNat)).endFill p gpa false).replayPart p else s
  | .fail => (s.failParks p gpa).endFill p gpa true

/-! ## Stage-2 invalidation (R239 case 2) -/

/-- A translation with a leaf at `a`, a stage-2 page size and stage-1 entries on the way used the stage-2 entry of an address. -/
def used2 (a size : Nat) (via : List (Nat × Nat)) (gpa : Nat) : Bool :=
  decide (a / size = gpa / size) || via.any fun v => decide (v.1 / v.2 = gpa / v.2)

/-- A cached translation used the stage-2 entry of an address: at its leaf, or at an entry of stage 1. -/
def TlbEnt.uses2 (t : TlbEnt) (p gpa : Nat) : Bool := t.part == p && used2 t.gpa t.s2size t.via gpa

/-- A pinned translation did. -/
def Pin.uses2 (q : Pin) (gpa : Nat) : Bool := used2 q.gpa q.s2size q.via gpa

/-- Size of the page that stage 2 maps an address by, the smallest size where it maps none. -/
def State.pageSize2 (s : State) (p gpa : Nat) : Nat :=
  match s.stage2 p gpa with
  | (_, some (_, size, _)) => size
  | (_, none) => 65536

/-- The place of a request as stage 2 has it now, when its guest physical address is selected. -/
def State.placeNow (s : State) (p : Nat) (sel : Nat → Bool) (acc : Access) (l : Loc) : Loc :=
  match l with
  | .hbm q phys gva gpa =>
    if q = p ∧ sel gpa = true then
      match (s.stage2 p gpa).2 with
      | some (pa, _, e) => if lacks acc.needs (pteR e) (pteW e) (pteA e) then .unmapped p gva gpa else .hbm p pa gva gpa
      | none => .unmapped p gva gpa
    else .hbm q phys gva gpa
  | l => l

/-- After an invalidation, what was translated before it and is not performed is translated anew: entries in buffers and on their way,
service messages, parked requests. -/
def State.relocate (s : State) (p : Nat) (sel : Nat → Bool) : State :=
  let at_ := s.placeNow p sel
  let entry (e : Entry) : Entry := { e with loc := at_ e.access e.loc }
  let svc (r : SvcReq) : SvcReq := { r with loc := at_ r.access r.loc }
  let core (k : Core) : Core := { k with
    slots := k.slots.map fun e => (e.1, { e.2 with buf := e.2.buf.map entry })
    flight := k.flight.map fun f => { f with e := entry f.e }
    svcq := k.svcq.map svc
    serving := k.serving.map svc }
  { s with
    cores := s.cores.map fun e => (e.1, core e.2)
    clusters := s.clusters.map fun e => (e.1, { e.2 with park := e.2.park.map fun r => { r with loc := at_ .read r.loc } }) }

/-- An entry for partition memory that is performed for its cluster alone; it is performed at its home before its page's translation goes. -/
def State.nearIn (s : State) (p : Nat) : Bool :=
  s.cores.any fun e => e.2.flight.any fun f => f.e.near && match f.e.loc with | .hbm q _ _ _ => q == p | _ => false

/-- STAGE2_INVALIDATION: one page, or the whole partition; it completes, as TLBI does, once no pin is held there and every walk that had
begun has completed. The page is the largest that a dropped translation, or the tables now, give the address. -/
def State.invalidate2 (s : State) (p : Nat) (gpa : Option Nat) : State :=
  if !(s.walksOpen p).isEmpty || s.nearIn p then s
  else
  match gpa with
  | some g =>
    if s.pinned p fun q => q.uses2 g then s
    else
      let used := (s.cores.flatMap fun e => e.2.tlb) ++ s.clusters.flatMap fun e => e.2.tlb
      let size := used.foldl (fun m t => if t.part == p && decide (t.gpa / t.s2size = g / t.s2size) then Nat.max m t.s2size else m) (s.pageSize2 p g)
      (s.dropTlb fun t => t.uses2 p g).relocate p fun a => decide (a / size = g / size)
  | none => if s.pinned p fun _ => true then s else (s.dropTlb fun t => t.part == p).relocate p fun _ => true

/-! ## Page moves (R241, 24 R341) -/

/-- The leaf of stage 2 for an address: where it stands, its page size, the leaf. -/
def leaf2 (gpa : Nat) : State → Nat → List (Nat × Nat × Nat) → Option (Nat × Nat × W64)
  | _, _, [] => none
  | s, table, (lvl, shift, n) :: r =>
    let a := table + 8 * (gpa / 2 ^ shift % n)
    let e := (s.homeWord a).2
    if !pteGood lvl shift e then none
    else if pteT e then leaf2 gpa s (pteAddr e) r
    else some (a, 2 ^ shift, e)

/-- Lines of a frame are merged. -/
def State.mergeFrame (s : State) (base n : Nat) : State :=
  s.lines.foldl (fun s l => if base / 128 ≤ l.1 ∧ l.1 < (base + n) / 128 then s.mergeLine l.1 else s) s

/-- The lines of a copied frame: tagged for the partition where those of the source are written; one with an uncorrectable error stays
one (24_protection.md R342). -/
def State.moveTags (s : State) (p src dst n : Nat) : State :=
  let known := (s.lines.map fun l => l.1)
  let offs := ((known.filter fun k => decide (src / 128 ≤ k ∧ k < (src + n) / 128)).map (· - src / 128)
    ++ (known.filter fun k => decide (dst / 128 ≤ k ∧ k < (dst + n) / 128)).map (· - dst / 128)).dedup
  offs.foldl (fun s i =>
    let a := s.line (src / 128 + i)
    let b := s.line (dst / 128 + i)
    let new : Line := { b with key := a.key.bind fun _ => (s.keyOf p).map fun x => (x, p), bad := s.foreign p (src + 128 * i) }
    if new = b then s else s.setLine (dst / 128 + i) new) s

/-- No L1 holds a line of a frame: one whose contents change, or that is given up (13 R229: nothing keeps a line there). -/
def State.l1Clear (s : State) (base n : Nat) : State :=
  { s with cores := s.cores.map fun e =>
      (e.1, { e.2 with l1 := e.2.l1.filter fun l => !decide (base / 128 ≤ l.1 ∧ l.1 < (base + n) / 128) }) }

/-- A frame's bytes copied to another frame. -/
def State.copyFrame (s : State) (p src dst n : Nat) : State :=
  let s := s.mergeFrame src n
  let known := s.mem.map (·.1) ++ s.wr.map (·.1)
  let offs := ((known.filter fun a => decide (src ≤ a ∧ a < src + n)).map (· - src)
    ++ (known.filter fun a => decide (dst ≤ a ∧ a < dst + n)).map (· - dst)).dedup
  let vals := offs.map fun o => (o, s.rdByte (src + o))
  (((vals.foldl (fun s e => s.wrByte (dst + e.1) e.2) s).moveTags p src dst n).l1Clear src n).l1Clear dst n

/-- PAGE_MIGRATION: the page is marked migrating at its lines' homes, and its frame is copied. -/
def State.movePage (s : State) (p gpa frame : Nat) : State :=
  match s.stage2 p gpa with
  | (_, none) => s
  | (s, some (pa, size, _)) =>
    let base := gpa / size * size
    if frame % size ≠ 0 ∨ hbmBytes < frame + size ∨ (s.part p).moves gpa = true ∨ (s.part p).cow.contains (gpa / 65536) = true then s
    else
      (s.modPart p fun k => { k with migrating := Tbl.set k.migrating base (frame, size) }).copyFrame p (pa - gpa % size) frame size

/-- The stage-2 entry of a moved page names its new frame; of a page with snapshots, the live frame's field does (24 R341). -/
def State.repoint (s : State) (p gpa frame : Nat) : State :=
  match (s.part p).snapEntry? gpa with
  | some a =>
    let x := s.snapEntry a
    let live := bitAt x 24
    let shift := if live then 48 else 0
    let old := field x (shift + 23) shift
    if hbmBytes < a + 16 then s
    else s.wrBytes a (leBytes 16 (x.toNat - old * 2 ^ shift + frame / 65536 % 2 ^ 24 * 2 ^ shift))
  | none =>
    match leaf2 gpa s (s.ctx (s.part p).ctx).s2root levels with
    | some (a, _, e) => s.wrBytes a (leBytes 8 (e.toNat - pteAddr e + frame))
    | none => s

/-- PAGE_MIGRATION_COMPLETE: once no pin is held, the entry is changed, cached translations are dropped, the mark is removed, and
what was parked is replayed to the new frame. -/
def State.movePageDone (s : State) (p gpa : Nat) : State :=
  match (s.part p).migrating.find? fun e => decide (e.1 ≤ gpa ∧ gpa < e.1 + e.2.2) with
  | none => s
  | some (base, frame, size) =>
    if s.pinned p fun q => q.uses2 base then s
    else
      let inPage (a : Nat) : Bool := decide (base ≤ a ∧ a < base + size)
      let s := ((s.repoint p base frame).dropTlb fun t => t.uses2 p base).relocate p inPage
      (s.modPart p fun k => { k with migrating := Tbl.del k.migrating base }).replayPart p

/-! ## Snapshots (24 R340, R341; 07 R130) -/

/-- COPY_ON_WRITE_COMPLETE: the page's live frame is copied into the other, LIVE and WE change, cached translations are dropped
once no pin is held, and what was parked is replayed. DESIGN CHOICE (log entry 4): into a frame beyond HBM nothing is copied, and what
is parked stays so, and an entry beyond HBM is not written; R339 states no outcome for either. -/
def State.cowDone (s : State) (p page : Nat) : State :=
  let gpa := 65536 * page
  let k := s.part p
  if !k.cow.contains page || k.moves gpa || s.pinned p fun q => q.uses2 gpa then s
  else
    match k.snapEntry? gpa with
    | none => s.modPart p fun k => { k with cow := k.cow.filter (· != page) }
    | some a =>
      let x := s.snapEntry a
      let live := bitAt x 24
      if hbmBytes < snapFrame x (!live) + 65536 ∨ hbmBytes < a + 16 then s
      else
      let s := s.copyFrame p (snapFrame x live) (snapFrame x !live) 65536
      let y := x.toNat % 2 ^ 96 + (k.snapEpoch + 1) % 2 ^ 32 * 2 ^ 96
      let y := if live then y - 2 ^ 24 else y + 2 ^ 24
      let s := ((s.wrBytes a (leBytes 16 y)).dropTlb fun t => t.uses2 p gpa).relocate p fun a => samePage a gpa
      (s.modPart p fun k => { k with cow := k.cow.filter (· != page) }).replayPart p

/-- The writes that the cores of a partition have drained and that are not performed: core and request number. -/
def State.openWrites (s : State) (p : Nat) : List (Nat × Nat) :=
  (s.part p).cores.flatMap fun c => ((s.core c).flight.filter fun f => f.e.writes).map fun f => (c, f.e.id)

/-- SNAP: the live epoch is sealed and raised, in a partition whose snapshot root has EN = 0 too (DESIGN CHOICE, log entry 4: R130 names no
EN), once the drains that began before it issued are performed and every copy on write has finished:
`begun` are the writes of these drains that were not performed then, none at the issue itself. -/
def bodySnap (begun : Option (List (Nat × Nat))) (d : Reg) (s : State) : Effect := do
  privileged s
  match s.corePart? s.curCore with
  | none => trapBits Cause.permission
  | some p =>
    let open_ := s.openWrites p
    let left := (begun.getD open_).filter open_.contains
    require (left.isEmpty && (s.part p).cow.isEmpty) (.error (.hold (.snap left)))
    let n := ((s.part p).snapEpoch + 1) % 2 ^ 32
    setG (s.modPart p fun k => { k with snapEpoch := n }) d (w64 n)

/-- SNAP_FLIP: a SNAP that waits takes effect, once it may. -/
def State.snapFlip (s : State) (c n : Nat) : State :=
  match (s.slot c n).wait with
  | .snap left =>
    s.finish c n (fun w => match w with | .snap _ => true | _ => false) fun j => match j with
      | .snap d => some (bodySnap (some left) d)
      | _ => none
  | _ => s

/-! ## Meanings -/

/-- STAGE2_FILL_REPLY (R238). -/
def execStage2FillReply (part gpa : Nat) (r : FillReply) (s : State) : Host.Outcome State Fault Refusal :=
  event (fun s => s.fillReply part gpa r) s

/-- STAGE2_INVALIDATION (R239). -/
def execStage2Invalidation (part : Nat) (gpa : Option Nat) (s : State) : Host.Outcome State Fault Refusal :=
  event (fun s => s.invalidate2 part gpa) s

/-- PAGE_MIGRATION (R241). -/
def execPageMigration (part gpa frame : Nat) (s : State) : Host.Outcome State Fault Refusal :=
  event (fun s => s.movePage part gpa frame) s

/-- PAGE_MIGRATION_COMPLETE (R241). -/
def execPageMigrationComplete (part gpa : Nat) (s : State) : Host.Outcome State Fault Refusal :=
  event (fun s => s.movePageDone part gpa) s

/-- COPY_ON_WRITE_COMPLETE (R340). -/
def execCopyOnWriteComplete (part page : Nat) (s : State) : Host.Outcome State Fault Refusal :=
  event (fun s => s.cowDone part page) s

/-- SNAP (R130). -/
def execSnap (d : Reg) (s : State) : Host.Outcome State Fault Refusal := issue (.snap d) (bodySnap none d) s

/-- SNAP_FLIP (R130). -/
def execSnapFlip (core slot : Nat) (s : State) : Host.Outcome State Fault Refusal := event (fun s => s.snapFlip core slot) s

end Machine
end Sys2Proof
end

