-- ==== Sys2Proof/Machine/Interrupt.lean ====
section
/-! DEFINITION. The events that interrupt tasks: BUDGET, the buffer pool, the trap queue and its replies, fault storms, debug
halts, the plumb check, errors (06_issuing.md R102, R107; 07 R131; 22_interruption.md R316 to R322, R330 to R332;
24_protection.md R337, R338). -/

namespace Sys2Proof
namespace Machine

/-! ## BUDGET and the buffer pool (R102, R107) -/

/-- A wait during which the slot's next instruction is not still to issue: an END that waits, and a drain that has begun. -/
def Wait.issued : Wait → Bool
  | .confirm fin => fin
  | .plumb _ => true
  | .handing _ => true
  | _ => false

/-- BUDGET_EXPIRY: the instruction that the slot would issue next traps. -/
def State.budgetExpiry (s : State) (c n : Nat) : State :=
  let t := s.slot c n
  if t.running && decide (t.budg = 0) && !t.wait.issued && t.pairTrap.isNone && !(s.core c).halted then
    s.takeTrap c n Cause.budget 0 0
  else s

/-- The pool has the sectors that a slot waits for. -/
def Core.poolReady (k : Core) : Wait → Bool
  | .pool need => decide (poolUsed k + need ≤ 576)
  | _ => false

/-- BUFFER_POOL_WAIT_END (R107 case 2). -/
def State.poolWaitEnd (s : State) (c n : Nat) : State := s.wake c n (s.core c).poolReady

/-- A slot waits for sectors of the pool. -/
def Slot.waitsPool (t : Slot) : Bool := match t.wait with | .pool _ => true | _ => false

/-- The task of a list that was dispatched last. -/
def lastTask (l : List (Nat × Slot)) : Option (Nat × Slot) :=
  l.foldl (fun b e => match b with
    | none => some e
    | some f => if f.2.task < e.2.task then some e else some f) none

/-- The slot whose task a pool deadlock aborts (R107 case 3): every task that holds sectors of the pool waits for more, and among all
that wait the last dispatched is taken, a replayable one where there is one. -/
def Core.poolVictim (k : Core) : Option Nat :=
  let waits (t : Slot) : Bool := t.waitsPool && !k.poolReady t.wait
  let all := k.slots.filter fun e => e.2.running && waits e.2
  if k.slots.all fun e => !(e.2.running && decide (0 < poolShare e.2.buf)) || waits e.2 then
    ((lastTask (all.filter fun e => e.2.repl)).orElse fun _ => lastTask all).map (·.1)
  else none

/-- The bits of the instruction that a slot would issue next: the head of the stream that it follows, or what it fetches. -/
def State.nextBits (s : State) (c n : Nat) : State × W64 :=
  match (s.slot c n).stream with
  | (j, _, _) :: _ => (s, instrBits j)
  | [] =>
    match s.fetch c n with
    | (s, .ok j) => (s, instrBits j)
    | (s, .error a) => (s, a)

/-- CBFULL_DEADLOCK_ABORT. -/
def State.poolAbort (s : State) (c : Nat) : State :=
  match (s.core c).poolVictim with
  | none => s
  | some n =>
    let (s, bits) := s.nextBits c n
    s.takeTrap c n Cause.cbfull 0 bits

/-! ## The trap queue (R317 to R319) and fault storms (R322) -/

/-- The fatal record of a storm enters the queue when it has room. -/
def Partition.fileFatal (k : Partition) : Partition :=
  match k.fatalHeld with
  | none => k
  | some r =>
    if k.ordinary < 252 then { k with trapq := k.trapq ++ [{ r with reserve := false }], fatalHeld := none }
    else if k.reserved < 4 then { k with trapq := k.trapq ++ [{ r with reserve := true }], fatalHeld := none }
    else k

/-- Ordinary dispatch resumes when the queue holds no fatal record. -/
def Partition.settle (k : Partition) : Partition :=
  let k := k.fileFatal
  if k.onlySup && !k.storm && k.fatalHeld.isNone && !k.trapq.any TRec.fatal then { k with onlySup := false } else k

/-- TRAP_QUEUE_WAIT_END: the oldest record that waits for room enters the queue. -/
def State.queueRoom (s : State) (p : Nat) : State := s.modPart p fun k => fillQueue 1 k.fileFatal

/-- SUPERVISOR_DISPATCH. -/
def State.supNext (s : State) (p : Nat) : State := (s.dispatchSup p).modPart p Partition.settle

/-- A call names a routine address of the supervisor image. -/
def Partition.callGood (k : Partition) (handler : Nat) : Bool :=
  decide (160 ≤ handler) && decide (handler < imgLength k.supImem / 2)

/-- A call record enters the trap queue. -/
def State.postCall (s : State) (p handler : Nat) (q : Quad) : State :=
  let k := s.part p
  if k.callGood handler then
    s.postRec p { w0 := q.a, w1 := q.b, w2 := q.c, w3 := q.d, payload := [], call := some handler, core := k.supCore, slot := 0,
                  launch := none, msgid := 0 }
  else s

/-- CALL_RECORD: a call to a context; it waits for one that is not resident. -/
def State.callContext (s : State) (ctx handler : Nat) (q : Quad) : State :=
  match s.residentIn? ctx with
  | some p => s.postCall p handler q
  | none => if (s.ctx ctx).alive then s.modCtx ctx fun x => { x with calls := x.calls ++ [(handler, q)] } else s

/-- The calls that waited for a context that is resident now. -/
def State.waitedCalls (s : State) (p ctx : Nat) : State :=
  let l := (s.ctx ctx).calls
  l.foldl (fun s e => s.postCall p e.1 e.2) (s.modCtx ctx fun x => { x with calls := [] })

/-! ## Replies (R319) -/

/-- Every write of the supervisor task that gave a reply is performed. -/
def State.replyReady (s : State) (p : Nat) (giver : Option Nat) : Bool :=
  match giver with
  | none => true
  | some task => (s.core (s.part p).supCore).flight.all fun f => !(f.e.task == task && f.e.writes)

/-- A reply of the kind that `sel` selects takes effect on a slot: one that a supervisor task gave, or the debugger's reply to
a record that it was given (R331). None takes effect during a halt: one that the debugger gives then waits
for the release (R321 case 4). -/
def State.replyTakes (s : State) (c n : Nat) (sel : Nat → Bool) (code : Nat) : State :=
  match s.corePart? c with
  | none => s
  | some p =>
    let k := s.part p
    if k.halt ≠ .running then
      match k.debugRecs.find? fun r => r.core == c && r.slot == n with
      | some r => s.modPart p fun k => { k with
          debugRecs := removeFirst (fun x => x == r) k.debugRecs, replies := k.replies ++ [⟨c, n, code, r.task, none⟩] }
      | none => s
    else
      match k.replies.find? fun r => r.core == c && r.slot == n && sel r.code with
      | some r =>
        if s.replyReady p r.giver then
          (s.modPart p fun k => { k with replies := removeFirst (fun x => x == r) k.replies }).reply c n r.task r.code
        else s
      | none =>
        match k.debugRecs.find? fun r => r.core == c && r.slot == n with
        | some r => (s.modPart p fun k => { k with debugRecs := removeFirst (fun x => x == r) k.debugRecs }).reply c n r.task code
        | none => s

/-! ## Debug halts (R330 to R332) -/

/-- A halt of the resident context of a partition begins; one that is pending or in force is joined. -/
def State.askHalt (s : State) (p : Nat) : State :=
  s.modPart p fun k => if k.halt = .running then { k with halt := .pending, haltTime := s.time } else k

/-- DBGH: the context's halt is requested, and the issuing core halts before its next instruction. -/
def bodyDbgh (s : State) : Effect := do
  privileged s
  match s.corePart? s.curCore with
  | none => trapBits Cause.permission
  | some p => .ok ((s.askHalt p).modCore s.curCore fun k => { k with halted := true }, .seq)

/-- The context that a management request names, when it is resident. -/
def State.onResident (s : State) (ctx : Nat) (f : State → Nat → State) : State :=
  match s.residentIn? ctx with
  | some p => f s p
  | none => s

/-- DEBUG_HALT: every core of the context has stopped. -/
def State.haltNow (s : State) (p : Nat) : State :=
  if (s.part p).halt = .pending then (s.haltCores p true).modPart p fun k => { k with halt := .halted } else s

/-- A pre-emption request is served (R325): with nothing to do when the context is resident already; else the outgoing context
stops dispatching. -/
def State.serveSwitch (s : State) (p ctx : Nat) : State :=
  let k := s.part p
  if k.resident && k.ctx == ctx then s else s.setPart p { k with switch := .stopping ctx }

/-- A release of the partition's context is under way: a request is examined after it only (03 R56). -/
def State.releasing (s : State) (p : Nat) : Bool :=
  let k := s.part p
  k.resident && (s.ctx k.ctx).launches.any fun e => e.2.stage == .releasing

/-- Requests that wait are served, at most `fuel` of them. -/
def State.nextSwitch (p : Nat) : Nat → State → State
  | 0, s => s
  | fuel + 1, s =>
    let k := s.part p
    match k.switchq with
    | ctx :: rest =>
      if k.switch = .none ∧ k.halt = .running ∧ s.releasing p = false then
        State.nextSwitch p fuel ((s.setPart p { k with switchq := rest }).serveSwitch p ctx)
      else s
    | [] => s

/-- Requests that wait are served until one starts a switch. -/
def State.resumeSwitch (s : State) (p : Nat) : State := State.nextSwitch p (s.part p).switchq.length s

/-- A halt ends (R332): the cores go on, the frames that were held reach their CNIs in order, and a pre-emption request that
waited is served. -/
def State.endHalt (s : State) (p : Nat) : State :=
  let held := (s.part p).holding
  let s := (s.haltCores p false).modPart p fun k => { k with halt := .running, storm := false, holding := [], holdBytes := 0 }
  let s := held.foldl (fun s e => s.takePayload e.1 e.2) s
  (s.modPart p Partition.settle).resumeSwitch p

/-- DEBUG_RELEASE: a storm's halt is released by the hypervisor alone. -/
def State.debugRelease (s : State) (p : Nat) : State :=
  if (s.part p).halt ≠ .running ∧ (s.part p).storm = false then s.endHalt p else s

/-- STORM_RELEASE. -/
def State.stormRelease (s : State) (p : Nat) : State := if (s.part p).storm then s.endHalt p else s

/-- DEBUGGER_ATTACH: to a context, resident or saved. -/
def State.attach (s : State) (ctx : Nat) : State :=
  match s.residentIn? ctx with
  | some p => s.modPart p fun k => { k with debugger := true }
  | none =>
    match Tbl.get? s.saves ctx with
    | some v => { s with saves := Tbl.set s.saves ctx { v with part := { v.part with debugger := true } } }
    | none => s

/-- DEBUGGER_STEP: the next move is the instruction of one slot of a halted context. -/
def State.debugStep (s : State) (c n : Nat) : State :=
  match s.corePart? c with
  | some p =>
    if (s.part p).debugger && decide ((s.part p).halt = .halted) && (s.slot c n).running then
      { s with agenda := .debug c n :: s.agenda }
    else s
  | none => s

/-! ## The plumb check (24 R337) -/

/-- What a task of a pair has come to: the hash of a drain and the drain's number, or a trap. -/
inductive PairEnd where
  | hash (h : W64) (drain : Nat)
  | trap (cause code : Nat) (addr : W64) (pc : Pc)
deriving DecidableEq, Repr

/-- What a slot of a pair has come to, if it waits for the check. -/
def Slot.pairEnd? (t : Slot) : Option PairEnd :=
  match t.pairTrap, t.hash, t.wait with
  | some (cause, code, addr, pc), _, _ => some (.trap cause code addr pc)
  | none, some h, .plumb _ => some (.hash h t.drains)
  | none, _, _ => none

/-- The drain of a slot proceeds. -/
def State.passPlumb (s : State) (c n : Nat) : State := s.modSlot c n fun t => { t with wait := .none, checked := true }

/-- A task of a pair aborts, and its message returns, marked retried. -/
def State.retryTask (s : State) (c n : Nat) : State :=
  let t := s.slot c n
  ((s.abortTask c n).returnMsg c t fun m => { m with retried := true }).modSlot c n fun t => { t with msg := none }

/-- The partition manager counts a first mismatch of a pair, by its primary core. -/
def State.countMismatch (s : State) (c : Nat) : State :=
  match s.corePart? c with
  | some p => s.modPart p fun k => { k with mismatches := Tbl.put 0 k.mismatches c (Tbl.find 0 k.mismatches c + 1) }
  | none => s

/-- The hashes of a pair differ. -/
def State.pairDiffers (s : State) (c m n : Nat) : State :=
  let t := s.slot c n
  let again := match t.msg with | some x => x.retried | none => true
  let s := if again then s else s.countMismatch c
  if t.repl && !again then (s.retryTask c n).retryTask m n
  else (s.trapPark m n Cause.pair 0 0).trapNow c n Cause.pair 0 0 t.pc true

/-- What the check finds when both tasks of a pair have come to it. -/
def State.comparePair (s : State) (c m n : Nat) (a b : PairEnd) : State :=
  match a, b with
  | .hash g i, .hash h j => if g = h ∧ i = j then (s.passPlumb c n).passPlumb m n else s.pairDiffers c m n
  | .trap cause code addr pc, .trap cause' code' addr' pc' =>
    if cause = cause' ∧ pc = pc' then (s.trapPark m n cause' code' addr').trapNow c n cause code addr pc false
    else s.pairDiffers c m n
  | _, _ => s.pairDiffers c m n

/-- The primary and the mirror of a core of a pair. -/
def State.pairCores? (s : State) (c : Nat) : Option (Nat × Nat) :=
  let p := (s.primaryOf? c).getD c
  (s.mirrorOf? p).map fun m => (p, m)

/-- PLUMB_CHECK. -/
def State.plumbCheck (s : State) (core n : Nat) : State :=
  match s.pairCores? core with
  | none => s
  | some (c, m) =>
    match (s.slot c n).pairEnd?, (s.slot m n).pairEnd? with
    | some a, some b => s.comparePair c m n a b
    | _, _ => s

/-- Cycles that the first hash waits for the second. -/
def plumbWait : Nat := 4096

/-- PLUMB_TIMEOUT: one task of a pair has waited for the other for too long. -/
def State.plumbTimeout (s : State) (core n : Nat) : State :=
  match s.pairCores? core with
  | none => s
  | some (c, m) =>
    match (s.slot c n).pairEnd?, (s.slot m n).pairEnd? with
    | some _, none => if plumbWait ≤ s.time - (s.slot c n).hashTime then s.pairDiffers c m n else s
    | none, some _ => if plumbWait ≤ s.time - (s.slot m n).hashTime then s.pairDiffers c m n else s
    | _, _ => s

/-! ## Errors (R316, 24 R338) -/

/-- ECC_UNCORRECTABLE: an error in a slot's registers or commit buffer. In a task of a pair it is a trap that the other task does
not take. -/
def State.eccTrap (s : State) (c n : Nat) : State :=
  let t := s.slot c n
  if !t.running then s
  else if s.privileged c n || (s.pairCores? c).isSome then s.takeTrap c n Cause.ecc 0 0
  else s.trapNow c n Cause.ecc 0 0 t.pc true

/-! ## Meanings -/

/-- BUDGET_EXPIRY (R102). -/
def execBudgetExpiry (core slot : Nat) (s : State) : Host.Outcome State Fault Refusal :=
  event (fun s => s.budgetExpiry core slot) s

/-- BUFFER_POOL_WAIT_END (R107). -/
def execBufferPoolWaitEnd (core slot : Nat) (s : State) : Host.Outcome State Fault Refusal :=
  event (fun s => s.poolWaitEnd core slot) s

/-- CBFULL_DEADLOCK_ABORT (R107). -/
def execCbfullDeadlockAbort (core : Nat) (s : State) : Host.Outcome State Fault Refusal := event (fun s => s.poolAbort core) s

/-- TRAP_QUEUE_WAIT_END (R317). -/
def execTrapQueueWaitEnd (part : Nat) (s : State) : Host.Outcome State Fault Refusal := event (fun s => s.queueRoom part) s

/-- STORM_RELEASE (R322). -/
def execStormRelease (part : Nat) (s : State) : Host.Outcome State Fault Refusal := event (fun s => s.stormRelease part) s

/-- SUPERVISOR_DISPATCH (R318). -/
def execSupervisorDispatch (part : Nat) (s : State) : Host.Outcome State Fault Refusal := event (fun s => s.supNext part) s

/-- CALL_RECORD (R318). -/
def execCallRecord (ctx handler : Nat) (q : Quad) (s : State) : Host.Outcome State Fault Refusal :=
  event (fun s => s.callContext ctx handler q) s

/-- RESUME (R319): reply 1. -/
def execResume (core slot : Nat) (s : State) : Host.Outcome State Fault Refusal :=
  event (fun s => s.replyTakes core slot (fun k => k == 1) 1) s

/-- SKIP (R319): reply 2. -/
def execSkip (core slot : Nat) (s : State) : Host.Outcome State Fault Refusal :=
  event (fun s => s.replyTakes core slot (fun k => k == 2) 2) s

/-- KILL (R320): replies 0 and 3. -/
def execKill (core slot : Nat) (s : State) : Host.Outcome State Fault Refusal :=
  event (fun s => s.replyTakes core slot (fun k => k == 0 || k == 3) 0) s

/-- PREEMPTION_REQUEST (R325): requests of one partition are served one at a time, in arrival order, and none during a halt. -/
def execPreemptionRequest (part ctx : Nat) (s : State) : Host.Outcome State Fault Refusal :=
  event (fun s =>
    if (s.part part).en && (s.ctx ctx).alive then
      (s.modPart part fun k => { k with switchq := k.switchq ++ [ctx] }).resumeSwitch part
    else s) s

/-- DEBUG_HALT_REQUEST (R330). -/
def execDebugHaltRequest (ctx : Nat) (s : State) : Host.Outcome State Fault Refusal :=
  event (fun s => s.onResident ctx State.askHalt) s

/-- DEBUG_HALT (R330). -/
def execDebugHalt (ctx : Nat) (s : State) : Host.Outcome State Fault Refusal := event (fun s => s.onResident ctx State.haltNow) s

/-- DEBUGGER_ATTACH (R331). -/
def execDebuggerAttach (ctx : Nat) (s : State) : Host.Outcome State Fault Refusal := event (fun s => s.attach ctx) s

/-- DEBUGGER_STEP (R331). -/
def execDebuggerStep (core slot : Nat) (s : State) : Host.Outcome State Fault Refusal := event (fun s => s.debugStep core slot) s

/-- DEBUG_RELEASE (R332). -/
def execDebugRelease (ctx : Nat) (s : State) : Host.Outcome State Fault Refusal :=
  event (fun s => s.onResident ctx State.debugRelease) s

/-- DBGH (R131). -/
def execDbgh (s : State) : Host.Outcome State Fault Refusal := issue .dbgh bodyDbgh s

/-- PLUMB_CHECK (R337). -/
def execPlumbCheck (core slot : Nat) (s : State) : Host.Outcome State Fault Refusal := event (fun s => s.plumbCheck core slot) s

/-- PLUMB_TIMEOUT (R337). -/
def execPlumbTimeout (core slot : Nat) (s : State) : Host.Outcome State Fault Refusal :=
  event (fun s => s.plumbTimeout core slot) s

/-- ECC_UNCORRECTABLE (R316). -/
def execEccUncorrectable (core slot : Nat) (s : State) : Host.Outcome State Fault Refusal := event (fun s => s.eccTrap core slot) s

/-- CORRECTED_ERROR (R338). -/
def execCorrectedError (s : State) : Host.Outcome State Fault Refusal :=
  event (fun s => { s with corrected := s.corrected + 1 }) s

end Machine
end Sys2Proof
end

