-- ==== Sys2Proof/Machine/FrontEnd.lean ====
section
/-! DEFINITION. The front end: rings and acceptance, device launches, TRIG and LNCH, the release of a gang, and the end of a
launch (02_describing_work.md R22 to R30; 03_launching.md R39 to R57; 04_placing.md R58, R59; 05_encoding.md R86, R87). -/

namespace Sys2Proof
namespace Machine

/-! ## How the front end reaches guest memory -/

/-- What an access of the front end comes to. -/
inductive FeGot where
  | got (bs : List Byte)
  | wait
  | bad
deriving DecidableEq, Repr

/-- The front end waits for a stage-2 fill, its request parked at its home (22 R323); one that the hypervisor failed makes its access fail (13 R238
case 3). -/
def State.feFill (s : State) (p gva gpa : Nat) : State × FeGot :=
  let hold (s : State) : State := (s.noteFill p gpa).guestHold (frontEndOf p) (.unmapped p gva gpa) 0
  match (s.part p).feAsked.find? fun e => samePage e.1 gpa with
  | some (_, true) => (s.modPart p fun k => { k with feAsked := k.feAsked.filter fun e => !samePage e.1 gpa }, .bad)
  | some (_, false) => (hold s, .wait)
  | none => ((hold s).modPart p fun k => { k with feAsked := k.feAsked ++ [(gpa, false)] }, .wait)

/-- Bytes read at their home, within a line or a record that a page holds whole. -/
def State.feRead (s : State) (p : Nat) (a : W64) (n : Nat) : State × FeGot :=
  if field a 63 48 ≠ 0 then (s, .bad)
  else
    if !s.planeOpen p then (s, .wait)
    else
    match s.xlateMem none p (field a 47 0) .read with
    | (s, .at_ (.hbm q phys gva gpa)) =>
      if s.busy q phys gpa n false then (s.guestBusy (frontEndOf p) q phys gva gpa n, .wait)
      else
        let (s, bs) := s.homeRead none q phys gpa n
        (s, .got bs)
    | (s, .wait gpa) => s.feFill p (field a 47 0) gpa
    | (s, .later gpa) => (s.guestHold (frontEndOf p) (.unmapped p (field a 47 0) gpa) 0, .wait)
    | (s, .shut) => (s, .wait)
    | (s, _) => (s, .bad)

/-- Bytes of any length, line by line, at most `fuel` lines. -/
def State.feReadAll (p : Nat) : Nat → State → W64 → Nat → List Byte → State × FeGot
  | 0, s, _, _, bs => (s, .got bs)
  | fuel + 1, s, a, n, bs =>
    if n = 0 then (s, .got bs)
    else
      let m := Nat.min n (128 - a.toNat % 128)
      match s.feRead p a m with
      | (s, .got xs) => State.feReadAll p fuel s (a + w64 m) (n - m) (bs ++ xs)
      | x => x

/-- Bytes written at their home. -/
def State.feWrite (s : State) (p : Nat) (a : W64) (bs : List Byte) : State × FeGot :=
  if field a 63 48 ≠ 0 then (s, .bad)
  else
    if !s.planeOpen p then (s, .wait)
    else
    match s.xlateMem none p (field a 47 0) .write with
    | (s, .at_ (.hbm q phys gva gpa)) =>
      if s.busy q phys gpa bs.length true then ((s.guestBusy (frontEndOf p) q phys gva gpa bs.length).startCow q gpa, .wait)
      else (s.homeWrite none q phys gpa (fullBytes bs), .got [])
    | (s, .wait gpa) => s.feFill p (field a 47 0) gpa
    | (s, .later gpa) => (s.guestHold (frontEndOf p) (.unmapped p (field a 47 0) gpa) 0, .wait)
    | (s, .shut) => (s, .wait)
    | (s, _) => (s, .bad)

/-! ## Acceptance (R30, R43) -/

/-- A reserved field or code of a launch record is used (R30 case 3). -/
def Rec.reserved (r : BitVec 1024) : Bool :=
  decide (field r 1023 992 ≠ 0) || decide (field r 959 768 ≠ 0) || decide (field r 751 738 ≠ 0) || decide (field r 319 310 ≠ 0)
    || decide (field r 303 291 ≠ 0) || decide (field r 287 281 ≠ 0) || decide (field r 63 23 ≠ 0) || decide (6 ≤ Rec.reduce r)
    || decide (2 ≤ Rec.trigger r) || decide (5 ≤ Rec.l1 r)

/-- The first failing case among 1 to 11 of R30. -/
def recordCase (p : Partition) (r : BitVec 1024) (bs : List Byte) : Option Nat :=
  if Rec.version r ≠ 1 then some 1
  else if Rec.check r ≠ (crc32c (bs.take 120)).toNat then some 2
  else if Rec.reserved r then some 3
  else if [0, 1, 2, 3].any (fun d =>
      if d ≤ Rec.rank r then decide (Rec.ext r d = 0 ∨ Rec.tile r d = 0) else decide (Rec.ext r d ≠ 0 ∨ Rec.tile r d ≠ 0)) then some 4
  else if 2 ^ 28 - 1 < Rec.total r then some 5
  else if p.pw < Rec.gx r + Rec.gw r ∨ p.ph < Rec.gy r + Rec.gh r then some 6
  else if Rec.cores r = 0 then some 7
  else if Rec.gw r + 1 < Rec.stages r then some 8
  else if Rec.pair r = true ∧ (8 < Rec.gw r + 1 ∨ p.pw < Rec.gx r + Rec.gw r + 8) then some 9
  else if Rec.l1 r < p.l1min ∨ p.l1max < Rec.l1 r then some 10
  else if Rec.image r % 128 ≠ 0 ∨ Rec.args r % 8 ≠ 0 ∨ Rec.fmt r % 4 ≠ 0 then some 11
  else none

/-- The header of an image is ill-formed (R86). -/
def headerBad (r : BitVec 1024) (im : Tbl Byte) : Bool :=
  let scratch := imgWord im 12 4
  decide (imgWord im 0 2 ≠ 0x01B5) || decide (imgWord im 2 2 ≠ 0) || decide (imgWord im 6 2 ≠ 0) || decide (imgWord im 16 48 ≠ 0)
    || decide (imgBudget im = 0) || decide (imgLength im < 320 ∨ 65536 < imgLength im ∨ imgLength im % 2 ≠ 0)
    || decide (262144 - 32768 * Rec.l1 r < scratch) || (decide (Rec.cores r / 256 % 2 = 1) && decide (98304 < scratch))

/-- Signals of a context that are still to be raised. -/
def Ctx.unraised (x : Ctx) : Nat := (x.launches.filter fun e => e.2.raised.isNone && decide (Rec.signal e.2.rcd ≠ 0)).length

/-- How long ago a launch was accepted, in launch ids. -/
def Ctx.age (x : Ctx) (lid : Nat) : Nat := (x.lastLid + 2 ^ 32 - lid) % 2 ^ 32

/-- The launch that a wait names (R45): the most recently accepted one with that signal. -/
def Ctx.holder? (x : Ctx) (signal : Nat) : Option Nat :=
  (x.launches.foldl (fun b e =>
    if Rec.signal e.2.rcd = signal then
      match b with
      | none => some e.1
      | some l => if x.age e.1 < x.age l then some e.1 else some l
    else b) none)

/-- The launch ids that a record's waits name. -/
def Ctx.waitsOf (x : Ctx) (r : BitVec 1024) : List Nat :=
  ([Rec.wait0 r, Rec.wait1 r].filter fun w => w != 0).filterMap x.holder?

/-- A launch is accepted: its id, and the context with it. -/
def Ctx.enrol (x : Ctx) (r : BitVec 1024) (ring idx : Nat) (dev : Option DevLaunch) : Nat × Ctx :=
  let lid := if x.lastLid + 1 < 2 ^ 32 then x.lastLid + 1 else 1
  let k : Launch := { rcd := r, prio := Nat.min (Rec.prio r) ((Tbl.get? x.rings ring).getD {}).pcap, waits := x.waitsOf r,
                      ring := ring, slotIdx := idx, device := dev }
  (lid, { x with lastLid := lid, launches := Tbl.set x.launches lid k })

/-- The start of an image, header and class table, and the reading of its last byte. -/
def State.readHead (s : State) (p : Nat) (a : W64) : State × FeGot :=
  match s.feReadAll p 4 a 320 [] with
  | (s, .got hd) =>
    let n := leVal ((hd.drop 8).take 4)
    if n = 0 ∨ 65536 < n then (s, .got hd)
    else
      match s.feReadAll p 2 (a + w64 (n - 1)) 1 [] with
      | (s, .got _) => (s, .got hd)
      | x => x
  | x => x

/-- Acceptance of the record at an address (R43): its code and launch id, or none while a read waits. -/
def State.accept (s : State) (p ctx : Nat) (a : W64) (ring idx : Nat) (dev : Option DevLaunch) : State × Option (Nat × Nat) :=
  match s.feReadAll p 3 a 128 [] with
  | (s, .wait) => (s, none)
  | (s, .bad) => (s, some (16, 0))
  | (s, .got bs) =>
    let r := BitVec.ofNat 1024 (leVal bs)
    match recordCase (s.part p) r bs with
    | some k => (s, some (k, 0))
    | none =>
      match s.readHead p (w64 (Rec.image r)) with
      | (s, .wait) => (s, none)
      | (s, .bad) => (s, some (17, 0))
      | (s, .got hd) =>
        let im : Tbl Byte := hd.zipIdx.map fun e => (e.2, e.1)
        if headerBad r im then (s, some (17, 0))
        else if classAbsent im (Rec.cls r) then (s, some (12, 0))
        else if Rec.signal r ≠ 0 ∧ 4096 ≤ (s.ctx ctx).unraised then (s, some (20, 0))
        else
          let (lid, x) := (s.ctx ctx).enrol r ring idx dev
          (s.setCtx ctx x, some (0, lid))

/-! ## Device launches (R50 to R52) -/

/-- The completion record of a device launch (08 R151 kind 6). -/
def launchRec (d : DevLaunch) (code : Nat) (st : List Byte) : CRec where
  w0 := recWord0 6 code d.qid d.ticket
  w1 := w64 (leVal (st.take 8))
  w2 := w64 (leVal (st.drop 8))

/-- A record for a core, held by the device while the completion inbox is full. -/
def State.postLaunch (s : State) (c : Nat) (x : CRec) : State :=
  match s.postCompletion c x with
  | some s => s
  | none => s.modCore c fun k => { k with cpHeld := k.cpHeld ++ [⟨false, 0, x, none, 0⟩] }

/-- The answer to a device launch: an acceptance record when it was asked for, a record of every refusal. -/
def State.answerLaunch (s : State) (d : DevLaunch) (code lid : Nat) : State :=
  if d.accRec || decide (code ≠ 0) then
    s.postLaunch d.core (launchRec d code (statusBytes s.time 0 (decide (code ≠ 0)) true code lid))
  else s

/-- A ring of a context, and the context with it changed. -/
def Ctx.ring (x : Ctx) (n : Nat) : RingD := (Tbl.get? x.rings n).getD {}
def State.modRingD (s : State) (ctx n : Nat) (f : RingD → RingD) : State :=
  s.modCtx ctx fun x => { x with rings := Tbl.set x.rings n (f (x.ring n)) }

/-- The front end has served a ring of a context: the others go before it is served again (R41). -/
def State.ringServed (s : State) (ctx n : Nat) : State := s.modCtx ctx fun x => { x with turn := n }

/-- Every device launch of a ring is taken, in order, until one waits. -/
def State.takeDevices (p ctx n : Nat) : List DevLaunch → State → State
  | [], s => s
  | d :: rest, s =>
    match s.accept p ctx d.addr n 0 (some d) with
    | (s, none) => s
    | (s, some (code, lid)) =>
      State.takeDevices p ctx n rest (((s.modRingD ctx n fun r => { r with devq := r.devq.drop 1 }).answerLaunch d code lid).ringServed ctx n)

/-- The guest queue id translates to a ring (R50). -/
def Ctx.route (x : Ctx) (qid : Nat) : Option Nat :=
  let e1 := (Tbl.find 0 x.q1 qid).toNat
  let e2 := (Tbl.find 0 x.q2 (e1 % 64)).toNat
  if 128 ≤ e1 ∧ 128 ≤ e2 then some (e2 % 64) else none

/-- LNCH_COMMIT: a drained LNCH, once its task's earlier stores are performed, enters the device queue of its ring. -/
def State.lnchCommit (s : State) (c k : Nat) : State :=
  match s.flying? c k with
  | some e =>
    match e.act with
    | .launch a qid accRec doneRec ticket =>
      if (s.core c).mayRelease e then
        let s := s.land c e.id
        let d : DevLaunch := ⟨a, c, qid, accRec, doneRec, ticket⟩
        match s.corePart? c with
        | none => s.answerLaunch d 18 0
        | some p =>
          let ctx := (s.part p).ctx
          match (s.ctx ctx).route qid with
          | none => s.answerLaunch d 18 0
          | some n =>
            if 16 ≤ ((s.ctx ctx).ring n).devq.length then s.answerLaunch d 19 0
            else s.modRingD ctx n fun r => { r with devq := r.devq ++ [d] }
      else s
    | _ => s
  | none => s

/-- LNCH: the ticket at once, the request into the buffer (R52). -/
def bodyLnch (d a b : Reg) (s : State) : Effect := do
  let (s, addr) ← readG s a
  let (s, q) ← readG s b
  aligned addr 128
  let mine := (s.cur.buf.filter fun e => match e.act with | .launch _ _ _ _ _ => true | _ => false).length
  let ticket := ((s.core s.curCore).launchCount + 1 + mine) % 2 ^ 32
  let s ← addEntry s addr (.spad s.curCore 0) .rel .dev (.launch addr (field q 5 0) (bitAt q 8) (bitAt q 9) ticket)
  setG s d (w64 ticket)

/-- TRIG: repeats in one task merge (R53). -/
def bodyTrig (s : State) : Effect := do
  if s.cur.buf.any fun e => match e.act with | .trig => true | _ => false then .ok (s, .seq)
  else
    let s ← addEntry s 0 (.spad s.curCore 0) .rel .dev .trig
    .ok (s, .seq)

/-- TRIG_COMMIT: the issuing core's cluster is triggered for the task's launch. -/
def State.trigCommit (s : State) (c k : Nat) : State :=
  match s.flying? c k with
  | some e =>
    match e.act with
    | .trig =>
      if (s.core c).mayRelease e then
        let s := s.land c e.id
        match e.launch with
        | some l => s.triggerAt l (clusterOf c) []
        | none => s
      else s
    | _ => s
  | none => s

/-! ## A visit to a ring (R41, R42) -/

/-- The front end stops serving a ring. -/
def State.stopRing (s : State) (ctx n : Nat) : State := s.modRingD ctx n fun r => { r with err := true, served := false }

/-- Records taken from a ring, at most `fuel` of them: acceptance, status, CONS. -/
def State.takeRecords (p ctx n : Nat) (r : RingD) : Nat → Nat → State → State
  | 0, _, s => s
  | fuel + 1, cons, s =>
    let i := cons % 2 ^ r.log2n
    match s.accept p ctx (w64 (r.base + 128 * i)) n i none with
    | (u, none) => u
    | (u, some (code, lid)) =>
      match u.feWrite p (w64 (r.status + 16 * i)) (statusBytes s.time 0 (decide (code ≠ 0)) true code lid) with
      | (u, .wait) => s.undone u
      | (_, .bad) => s.stopRing ctx n
      | (u, .got _) =>
        let next := (cons + 1) % 2 ^ 32
        match u.feWrite p (w64 (r.ctrl + 64)) (leBytes 4 next) with
        | (u, .wait) => s.undone u
        | (_, .bad) => s.stopRing ctx n
        | (u, .got _) => State.takeRecords p ctx n r fuel next (u.ringServed ctx n)

/-- RING_VISIT: device launches first; while one of them waits, no record is taken (R51). -/
def State.ringVisit (s : State) (ctx n : Nat) : State :=
  match s.residentIn? ctx with
  | none => s
  | some p =>
    let r := (s.ctx ctx).ring n
    if !(s.managed && r.en && r.served && decide (r.log2n ≠ 0) && r.ctx == ctx) then s
    else
      let s := State.takeDevices p ctx n r.devq s
      if !((s.ctx ctx).ring n).devq.isEmpty then s
      else
      match s.feRead p (w64 r.ctrl) 68 with
      | (s, .wait) => s
      | (s, .bad) => s.stopRing ctx n
      | (s, .got bs) =>
        let cons := leVal (bs.drop 64)
        let due := (leVal (bs.take 4) + 2 ^ 32 - cons) % 2 ^ 32
        if 2 ^ r.log2n < due then s.stopRing ctx n
        else State.takeRecords p ctx n r (Nat.min 4 due) cons s

/-! ## Release (R46, R54 to R59) -/

/-- A launch that holds its cores against others: released, and neither at its early point nor done (R46 case 2). -/
def Launch.occupies (k : Launch) : Bool := (k.stage == .releasing || k.stage == .running) && !k.early

/-- Clusters of a stage, in row-major order of relative coordinates (R25). -/
def stageClusters (p : Partition) (r : BitVec 1024) (stage : Nat) : List Nat :=
  (gangClusters p r).filter fun k => Rec.stageOf r (clX k - (p.px + Rec.gx r)) == stage

/-- The free walker of a cluster's CNI. -/
def Cluster.freeWalker? (k : Cluster) : Option Nat := (upto 4).find? fun n => (Tbl.get? k.walkers n).isNone

/-- The launch may be released (R46, R58). -/
def State.releasable (s : State) (p ctx lid : Nat) (k : Launch) : Bool :=
  let x := s.ctx ctx
  let pt := s.part p
  let mine := occupied pt k.rcd
  k.stage == .held && !k.killed
    && (k.waits.all fun w => match Tbl.get? x.launches w with | some j => j.raised == some true | none => true)
    && (x.launches.all fun e => e.1 == lid || !e.2.occupies || (occupied pt e.2.rcd).all fun c => !mine.contains c)
    && (gangClusters pt k.rcd).all fun c => (s.cluster c).freeWalker?.isSome

/-- No other launch that may be released goes first: a higher priority, or an earlier acceptance within one. -/
def State.releaseTurn (s : State) (p ctx lid : Nat) (k : Launch) : Bool :=
  let x := s.ctx ctx
  x.launches.all fun e =>
    e.1 == lid || !s.releasable p ctx e.1 e.2
      || decide (e.2.prio < k.prio) || (decide (e.2.prio = k.prio) && decide (x.age e.1 < x.age lid))

/-- The walker of a gang cluster is loaded (R59). -/
def State.loadWalker (s : State) (p : Partition) (l : LaunchId) (r : BitVec 1024) (k : Nat) : State :=
  match (s.cluster k).freeWalker? with
  | none => s
  | some n =>
    let stage := Rec.stageOf r (clX k - (p.px + Rec.gx r))
    let ks := stageClusters p r stage
    let w := ks.findIdx fun j => j == k
    let t := Rec.total r
    s.setWalker k n (loadWindow r { launch := some l, stage := stage, num := w, count := ks.length, lo := w * t / ks.length,
                                    hi := (w + 1) * t / ks.length, taken := 0, ret := [], gen := 0 })

/-- LAUNCH_RELEASE: the image is read, the walkers are loaded, and the release begins; none while a pre-emption request waits
(22 R325 step 1). -/
def State.releaseLaunch (s : State) (ctx lid : Nat) : State :=
  let l : LaunchId := { ctx := ctx, lid := lid }
  match s.residentIn? ctx, s.launch? l with
  | some p, some k =>
    let pt := s.part p
    if s.managed = true ∧ pt.switch = .none ∧ pt.switchq = [] ∧ s.releasable p ctx lid k = true ∧ s.releaseTurn p ctx lid k = true then
      let a := w64 (Rec.image k.rcd)
      match s.feRead p (a + 8) 4 with
      | (s, .got n) =>
        match s.feReadAll p 514 a (Nat.min 65536 (leVal n)) [] with
        | (s, .got bs) =>
          let s := s.setLaunch l { k with stage := .releasing, image := bs }
          (gangClusters pt k.rcd).foldl (fun s c => s.loadWalker pt l k.rcd c) s
        | (s, _) => s
      | (s, _) => s
    else s
  | _, _ => s

/-- No task of another launch runs, is parked or is queued on a core (R57 case 1). -/
def Core.freeFor (k : Core) (l : LaunchId) : Bool :=
  let other (x : Option LaunchId) : Bool := x.isSome && x != some l
  (taskSlots.all fun n => !(((k.slot n).running || (k.slot n).parked) && other (k.slot n).launch))
    && k.runq.all fun q => !other q.msg.launch

/-- No released command or transfer of another launch is still to complete on a core (R57 case 2). -/
def Core.enginesFree (k : Core) (l : LaunchId) : Bool :=
  (k.mxq.all fun e => !(e.released && !e.zeroing && e.launch != some l)) && k.cpq.all fun e => !(e.released && e.launch != some l)

/-- Registers of a slot that release loads (R26). -/
def releaseRegs (r : BitVec 1024) (t : Slot) : Slot :=
  { t with regs := { t.regs with fmta := w64 (Rec.fmt r), fmtb := w64 (Rec.fmt r), fmtc := w64 (Rec.fmt r),
                                 scla := w64 (Rec.scla r), sclb := w64 (Rec.sclb r) } }

/-- Bytes over those of a memory from its start on; the rest keeps its contents. -/
def overStart (bs : List Byte) (m : Tbl Byte) : Tbl Byte :=
  (bs.zipIdx.filterMap fun e => if e.1 = 0 then none else some (e.2, e.1)) ++ m.filter fun e => decide (bs.length ≤ e.1)

/-- Step 1 of R54 at a core: the image, zero halfwords beyond it (05 R77), an empty L1, the split, the fuse state and whether fusing
takes effect (13 R230), the accumulators' zeroing, the registers of every slot (02 R26), and DEV of SELF (04 R75). -/
def Core.loadImage (k : Core) (c : Nat) (l : LaunchId) (r : BitVec 1024) (bs : List Byte) (dev : Nat) : Core :=
  let size := 262144 - 32768 * Rec.l1 r
  let compute := decide (indexOf c < 8)
  { k with
    imem := overStart bs [], imemDirty := false, stale := [], badImem := [], l1 := [], selfDev := some dev,
    l1code := if compute then Rec.l1 r else k.l1code
    fuse := Rec.fuse r
    fused := Rec.fuse r && compute && decide (Rec.cores r % 256 = 255) && decide (1 ≤ Rec.l1 r)
    spad := if compute then k.spad.filter fun e => decide (e.1 < size) else k.spad
    image := some l
    earlier := (match k.image with
      | some i => if i = l ∨ k.earlier.contains i then k.earlier else k.earlier ++ [i]
      | none => k.earlier)
    mxq := if compute then k.mxq.filter (·.released) ++ [{ launch := some l, released := true, zeroing := true }]
             ++ k.mxq.filter (fun e => !e.released) else k.mxq
    slots := (0 :: taskSlots).foldl (fun m n => Tbl.set m n (releaseRegs r ((Tbl.get? m n).getD {}))) k.slots }

/-- RELEASE_IMAGE_LOAD: a core of the gang or of its mirrors, once it is free (R57). -/
def State.imageLoad (s : State) (ctx lid c : Nat) : State :=
  let l : LaunchId := { ctx := ctx, lid := lid }
  match s.residentIn? ctx, s.launch? l with
  | some p, some x =>
    let k := s.core c
    let same := decide (8 ≤ indexOf c ∨ k.l1code = Rec.l1 x.rcd) && k.fuse == Rec.fuse x.rcd
    if x.stage = .releasing ∧ x.killed = false ∧ (occupied (s.part p) x.rcd).contains c = true ∧ x.loaded.contains c = false
        ∧ k.freeFor l = true ∧ (same || k.enginesFree l) = true then
      (s.setCore c (k.loadImage c l x.rcd x.image s.fabric.devId)).setLaunch l { x with loaded := c :: x.loaded }
    else s
  | _, _ => s

/-- Course 0 of a cluster is given the launch's slots as members (R54 step 3). DESIGN CHOICE (log entry 16): the membership of another
launch's cores in that course, if any is left, is replaced with the phase and counters, for R54 resets the course and says nothing
of it. -/
def State.startCourse0 (s : State) (p : Partition) (r : BitVec 1024) (k : Nat) : State :=
  let bits := (maskCores r k).flatMap fun c =>
    (taskSlots.filter fun n => !(decide (c = p.supCore) && decide (n = 7))).map fun n => memberBit c n
  let m := bits.foldl (fun m b => setBit72 m b true) 0
  s.modCluster k fun x => x.setCourse 0 { mem := m, shadow := m }

/-- Compute die of a cluster; the place of a gang cluster among those of its die (R55). -/
def dieOf (k : Nat) : Nat := clX k / 8 + 2 * (clY k / 8)
def staggerOf (p : Partition) (r : BitVec 1024) (k : Nat) : Nat :=
  ((gangClusters p r).filter fun j => dieOf j == dieOf k).findIdx fun j => j == k

/-- The matrix units of a cluster may start the launch's commands from a time on. -/
def State.setMxStart (s : State) (cores : List Nat) (t : Nat) : State :=
  cores.foldl (fun s c => s.modCore c fun k => { k with mxStart := t }) s

/-- RELEASE_MESSAGE: a gang cluster whose cores, and whose mirrors' cores, hold the image starts its tasks. -/
def State.releaseMsg (s : State) (ctx lid k : Nat) : State :=
  let l : LaunchId := { ctx := ctx, lid := lid }
  match s.residentIn? ctx, s.launch? l with
  | some p, some x =>
    let pt := s.part p
    let r := x.rcd
    let ks := if Rec.pair r then [k, k + 8] else [k]
    let cs := ks.flatMap (maskCores r)
    if x.stage = .releasing ∧ x.killed = false ∧ (gangClusters pt r).contains k = true ∧ x.started.contains k = false
        ∧ (cs.all x.loaded.contains) = true then
      let s := ks.foldl (fun s k => s.startCourse0 pt r k) s
      let s := s.setMxStart cs (s.time + 32 * staggerOf pt r k)
      let s := (maskCores r k).foldl (fun s c =>
        s.startBy c (Rec.cls r) x.prio ⟨w64 (Rec.args r), w64 (rankOf pt r c), w64 (gangSize r), w64 (Rec.total r)⟩ [] (some l) none) s
      let started := k :: x.started
      let whole := (gangClusters pt r).all started.contains
      let s := s.setLaunch l { x with started := started, stage := if whole then .running else .releasing }
      if whole then s.resumeSwitch p else s
    else s
  | _, _ => s

/-! ## The end of a launch (R47, R48) -/

/-- A message under way belongs to a launch. -/
def State.itemLaunch (s : State) : NetItem → Option LaunchId
  | .task _ _ m => m.launch
  | .anyOf _ _ m => m.launch
  | .bounce _ m => m.launch
  | .spawn _ _ _ _ m => m.launch
  | .rdx r _ _ => s.rdxLaunch r
  | .delivery r _ _ _ _ => s.rdxLaunch r
  | .notice r _ => s.rdxLaunch r
  | .remote _ _ _ _ _ => none
  | .ack _ _ _ _ _ => none

/-- Nothing of a launch remains on a core: tasks, messages, commands, reports, drained entries. -/
def Core.quiet (k : Core) (l : LaunchId) : Bool :=
  (taskSlots.all fun n => !(((k.slot n).running || (k.slot n).parked) && (k.slot n).launch == some l))
    && (k.runq.all fun q => q.msg.launch != some l) && (k.deferred.all fun d => d.m.launch != some l)
    && (k.bounces.all fun m => m.launch != some l) && (k.mxq.all fun e => e.launch != some l)
    && (k.cpq.all fun e => e.launch != some l) && (k.flight.all fun f => f.e.launch != some l)
    && (k.cpHeld.all fun r => r.launch != some l) && (match k.mxHeld with | some r => r.launch != some l | none => true)

/-- A task of a launch is owed: its token request is queued, a course that bears a continuation of it is complete, or a
generation of its reductions has every contribution (18_program_token_ring.md R285, 17_mortar_plane.md R276 case 5). -/
def State.owesTask (s : State) (p : Nat) (l : LaunchId) (x : Launch) : Bool :=
  let pt := s.part p
  (pt.tokens.any fun t => t.2.n != 0 && t.2.fifo.any fun e => e.2.any fun q => q.launch == some l)
    || (pt.clusters.any fun k => (s.cluster k).courses.any fun c =>
        c.2.ready && c.2.f.cont.any fun e => e.2.start && e.2.launch == some l && c.2.f.arr.getLsbD e.1 && c.2.mem.getLsbD e.1)
    || (x.gens.any fun g => (gangCores pt x.rcd).all fun c => g.2.any fun y => y.core == c)

/-- None of a launch's tasks runs, is parked or is queued, no message of it is in flight, none is
owed, and every command of it has completed. -/
def State.launchQuiet (s : State) (p : Nat) (l : LaunchId) (x : Launch) : Bool :=
  let pt := s.part p
  (pt.cores.all fun c => (s.core c).quiet l) && (pt.clusters.all fun k => (s.cluster k).tasks.all fun t => t.2.launch != some l)
    && (s.underway.all fun i => s.itemLaunch i != some l) && x.trmc.isEmpty && x.trmcSent.isEmpty && x.closed.isEmpty && x.abroad.isEmpty
    && !s.owesTask p l x

/-- The final code and the raise with which a launch can end now. -/
def State.ending? (s : State) (p : Nat) (l : LaunchId) (x : Launch) : Option (Nat × Bool) :=
  let failed := x.waits.any fun w => match Tbl.get? (s.ctx l.ctx).launches w with | some j => j.raised == some false | none => false
  match x.stage with
  | .done => none
  | .held => if x.killed then some (x.final, false) else if failed then some (2, false) else none
  | .releasing => if x.killed && s.launchQuiet p l x then some (x.final, false) else none
  | .running => if s.launchQuiet p l x then some (x.final, !x.killed) else none

/-- The second status of a launch: into its slot's entry, or as a done record. None while the write waits. DESIGN CHOICE (log entry
16): the entry is that of the STATUS address which the ring's descriptor holds now, and a write whose address has no translation or
right is dropped, for R42 says nothing of either. -/
def State.finalStatus (s : State) (p : Nat) (l : LaunchId) (x : Launch) (final : Nat) : Option State :=
  let st := statusBytes s.time final true true 0 l.lid
  match x.device with
  | some d => some (if d.doneRec then s.postLaunch d.core (launchRec d 0 st) else s)
  | none =>
    match s.feWrite p (w64 (((s.ctx l.ctx).ring x.ring).status + 16 * x.slotIdx)) st with
    | (_, .wait) => none
    | (s, _) => some s

/-- LAUNCH_DONE: the signal is raised, DONE is written, walkers and course memberships are freed. -/
def State.launchDone (s : State) (ctx lid : Nat) : State :=
  let l : LaunchId := { ctx := ctx, lid := lid }
  match s.residentIn? ctx, s.launch? l with
  | some p, some x =>
    match (if s.managed then s.ending? p l x else none) with
    | none => s
    | some (final, ok) =>
      let t := s.setLaunch l { x with stage := .done, final := final, image := [],
                                      raised := (match x.raised with | some b => some b | none => some ok) }
      match t.finalStatus p l x final with
      | none =>
        match s.feWrite p (w64 (((s.ctx l.ctx).ring x.ring).status + 16 * x.slotIdx)) [] with
        | (u, _) => s.undone u
      | some t =>
        ((t.freeWalkers l).clearMembers ((occupied (s.part p) x.rcd).filter fun c => (s.core c).image == some l)).resumeSwitch p
  | _, _ => s

/-! ## Meanings -/

/-- LNCH (R52). -/
def execLnch (d a b : Reg) (s : State) : Host.Outcome State Fault Refusal := issue (.lnch d a b) (bodyLnch d a b) s

/-- TRIG (R53). -/
def execTrig (s : State) : Host.Outcome State Fault Refusal := issue .trig bodyTrig s

/-- RING_VISIT (R41). -/
def execRingVisit (ctx ring : Nat) (s : State) : Host.Outcome State Fault Refusal := event (fun s => s.ringVisit ctx ring) s

/-- LNCH_COMMIT (R52). -/
def execLnchCommit (core k : Nat) (s : State) : Host.Outcome State Fault Refusal := event (fun s => s.lnchCommit core k) s

/-- LAUNCH_RELEASE (R46). -/
def execLaunchRelease (ctx lid : Nat) (s : State) : Host.Outcome State Fault Refusal :=
  event (fun s => s.releaseLaunch ctx lid) s

/-- RELEASE_IMAGE_LOAD (R54, R57). -/
def execReleaseImageLoad (ctx lid core : Nat) (s : State) : Host.Outcome State Fault Refusal :=
  event (fun s => s.imageLoad ctx lid core) s

/-- RELEASE_MESSAGE (R54). -/
def execReleaseMessage (ctx lid cluster : Nat) (s : State) : Host.Outcome State Fault Refusal :=
  event (fun s => s.releaseMsg ctx lid cluster) s

/-- TRIG_COMMIT (R53). -/
def execTrigCommit (core k : Nat) (s : State) : Host.Outcome State Fault Refusal := event (fun s => s.trigCommit core k) s

/-- LAUNCH_DONE (R47, R48). -/
def execLaunchDone (ctx lid : Nat) (s : State) : Host.Outcome State Fault Refusal := event (fun s => s.launchDone ctx lid) s

end Machine
end Sys2Proof
end

