-- ==== Sys2Proof/Machine/Switch.lean ====
section
/-! DEFINITION. Context switches: save, test slice, restore; contexts created and destroyed (13_memory_hierarchy.md R228, R237;
22_interruption.md R318, R325 to R329; 24_protection.md R342, R346). -/

namespace Sys2Proof
namespace Machine

/-! ## The save (R325 step 3, R326) -/

/-- A completion that a message bears has its verdict. -/
def State.settled (s : State) (m : Msg) : Bool :=
  match m.comp with
  | some x => !(s.detector x.inst).open_ x.round
  | none => true

/-- Nothing of a context is under way at a core: no task runs, the engines have finished, every entry that can be performed
is performed, and the completions of its queued messages have their verdicts. -/
def State.coreDrained (s : State) (c : Nat) : Bool :=
  let k := s.core c
  (taskSlots.all fun n => !(k.slot n).running) && k.svcq.isEmpty && k.serving.isNone && k.deferred.isEmpty && k.pins.isEmpty
    && k.mxq.isEmpty && k.cpq.isEmpty
    && (k.flight.all fun f => match f.e.act with | .trrd _ _ _ _ => true | _ => false)
    && k.runq.all fun q => s.settled q.msg

/-- Nothing of a context is under way at a cluster. -/
def State.clusterDrained (s : State) (k : Nat) : Bool :=
  let x := s.cluster k
  x.park.isEmpty && (x.tasks.all fun t => s.settled t.2) && x.courses.all fun e => !e.2.unconfirmed

/-- Cores whose partitions a message of the message plane concerns. -/
def itemCores : NetItem → List Nat
  | .task a b _ => [a, b]
  | .anyOf a k _ => [a, 16 * k]
  | .bounce c _ => [c]
  | .spawn c _ _ t _ => c :: (match t with | .core b => [b] | .anyOf k => [16 * k] | .device _ _ _ => [])
  | .rdx _ _ _ => []
  | .delivery _ c _ _ _ => [c]
  | .notice _ c => [c]
  | .remote _ _ _ _ _ => []
  | .ack c _ _ _ _ => [c]

/-- The message concerns a partition. -/
def State.concerns (s : State) (p : Nat) (i : NetItem) : Bool :=
  (itemCores i).any (fun c => s.corePart? c == some p)
    || match i with
       | .rdx r owner _ => r.rpart == p || (match owner with | .hbm q _ _ _ => q == p | _ => false)
       | .remote _ _ _ _ v => (match Service.place? v with | some (q, _, _, _) => q == p | none => false)
       | _ => false

/-- Steps 1 to 3 of R325 let the save begin. -/
def State.drained (s : State) (p : Nat) : Bool :=
  let k := s.part p
  decide (k.halt = .running) && k.cow.isEmpty && (k.cores.all s.coreDrained) && (k.clusters.all s.clusterDrained)
    && (s.net.all fun i => !s.concerns p i)
    && (s.fabric.guests.all fun g => g.abroad.isEmpty || !g.ctxs.contains k.ctx)
    && (s.ctx k.ctx).launches.all fun e =>
      e.2.stage != .releasing && e.2.closed.isEmpty && e.2.trmc.isEmpty && e.2.trmcSent.isEmpty && e.2.abroad.isEmpty

/-- What a save holds of a slot: registers, and the parked task's message. -/
def savedSlot (t : Slot) : Slot :=
  { regs := t.regs, saved := t.saved, parked := t.parked, msg := if t.parked then t.msg else none, repl := t.repl,
    msgid := t.msgid, task := t.task, tcause := t.tcause, taddr := t.taddr }

/-- What a save holds of a core. -/
def savedCore (k : Core) : Core :=
  { k with slots := k.slots.map fun e => (e.1, savedSlot e.2), last := 7, l1 := [], tlb := [], stale := [], taintAborts := 0 }

/-- What a cluster keeps whatever context is resident, and what a save holds of it. -/
def Cluster.bare (k : Cluster) : Cluster := { det := k.det, failed := k.failed, testIndex := k.testIndex }
def savedCluster (k : Cluster) : Cluster := { walkers := k.walkers, courses := k.courses, tasks := k.tasks }

/-- What a partition keeps whatever context is resident. -/
def Partition.bare (k : Partition) : Partition :=
  { k with
    resident := false, trapq := [], heldRecs := [], fatalHeld := none, handled := none, supImem := [], badSup := [], halt := .running, storm := false,
    onlySup := false, debugger := false, debugRecs := [], replies := [], holding := [], holdBytes := 0, peerEdits := [],
    peerLenEdit := none, tokens := [], faults := [], feAsked := [] }

/-- The cores and clusters of a partition hold nothing of a context. -/
def State.clearPart (s : State) (p : Nat) : State :=
  let k := s.part p
  { s with
    cores := s.cores.filter fun e => !k.holds (clusterOf e.1)
    clusters := s.clusters.map fun e => (e.1, if k.holds e.1 then e.2.bare else e.2) }

/-- Every partial line is merged (R234), and lines whose homes are in a partition go back to their directory slices. -/
def State.writeBack (s : State) (p : Nat) : State :=
  let k := s.part p
  let s := s.lines.foldl (fun s l => s.mergeLine l.1) s
  let in_ (h : Option Nat) : Bool := h.elim false k.holds
  { s with lines := s.lines.map fun l =>
      (l.1, if in_ l.2.home || in_ l.2.moving then { l.2 with home := none, moving := none, cand := 0, count := 0 } else l.2) }

/-- The contents of a partition's save. -/
def State.saveOf (s : State) (p : Nat) : Saved :=
  let k := s.part p
  { pw := k.pw, ph := k.ph
    cores := (s.cores.filter fun e => k.holds (clusterOf e.1)).map fun e => (e.1, savedCore e.2)
    clusters := (s.clusters.filter fun e => k.holds e.1).map fun e => (e.1, savedCluster e.2)
    part := k
    seq := (s.ctx k.ctx).saveSeq + 1
    key := (s.ctx k.ctx).key
    addr := (s.ctx k.ctx).saveArea }

/-- CONTEXT_SAVE: once everything of the outgoing context has ended, it is saved, and the test slice begins. -/
def State.contextSave (s : State) (p : Nat) : State :=
  let k := s.part p
  match k.switch with
  | .stopping c =>
    if !k.resident then s.setPart p { k.bare with switch := .testing c, testFrom := s.time }
    else if s.drained p then
      let s := s.writeBack p
      let s : State := { s with saves := Tbl.set s.saves k.ctx (s.saveOf p) }
      let s := s.modCtx k.ctx fun x => { x with saveSeq := x.saveSeq + 1 }
      (s.clearPart p).setPart p { k.bare with switch := .testing c, testFrom := s.time }
    else s
  | _ => s

/-! ## The test slice (R329) -/

/-- A cluster of the partition is marked failed. -/
def State.hasFailed (s : State) (p : Nat) : Bool := (s.part p).clusters.any fun k => (s.cluster k).failed

/-- The test slice lasts 20 microseconds of the 2.7 GHz reference. -/
def testSlice : Nat := 54000

/-- TEST_SLICE_END, at the end of the slice: pattern indices advance; a failed cluster is marked, and no context becomes resident with one. -/
def State.testEnd (s : State) (p : Nat) (failed : List Nat) : State :=
  let pt := s.part p
  match pt.switch with
  | .testing c =>
    if s.time < pt.testFrom + testSlice then s
    else
    let s := pt.clusters.foldl (fun s k => s.modCluster k fun x =>
      { x with testIndex := x.testIndex + 1, failed := x.failed || failed.contains k }) s
    let s : State := { s with alerts := s.alerts ++ (pt.clusters.filter failed.contains).map .clusterFailed }
    if s.hasFailed p then (s.setPart p { pt with switch := .none }).resumeSwitch p
    else s.setPart p { pt with switch := .restoring c }
  | _ => s

/-! ## The restore (R328) -/

/-- Bytes of a device physical range, those of lines that do not verify for a partition as zeros: they never yield plaintext (24 R342). -/
def State.verified (s : State) (p phys : Nat) (bs : List Byte) : List Byte :=
  bs.zipIdx.map fun e => if s.foreign p (phys + e.2) then 0 else e.1

/-- Bytes of guest physical memory, line by line, at most `fuel` lines; bytes that stage 2 does not map are zero. -/
def State.gpaBytes (p : Nat) : Nat → State → Nat → Nat → List Byte → State × List Byte
  | 0, s, _, _, bs => (s, bs)
  | fuel + 1, s, gpa, n, bs =>
    if n = 0 then (s, bs)
    else
      let m := Nat.min n (128 - gpa % 128)
      let (s, xs) := match s.physNow p gpa with
        | (s, some pa) =>
          let (t, xs) := s.homeRead none p pa gpa m
          (t, s.verified p pa xs)
        | (s, none) => (s, leBytes m 0)
      State.gpaBytes p fuel s (gpa + m) (n - m) (bs ++ xs)

/-- Halfwords of a guest physical range of `n` bytes, counted from its start, whose lines do not verify for a partition. -/
def State.badHalves (s : State) (p gpa n : Nat) : List Nat :=
  (upto (n / 128 + 2)).flatMap fun k =>
    let at_ := gpa / 128 * 128 + 128 * k
    match (s.physNow p at_).2 with
    | some pa => if s.foreign p pa then (upto 64).filterMap fun h => if gpa ≤ at_ + 2 * h ∧ at_ + 2 * h < gpa + n then some ((at_ + 2 * h - gpa) / 2) else none
      else []
    | none => []

/-- The supervisor image is loaded from the address that the hypervisor set for the context (R318). DESIGN CHOICE (log entry 10): halfwords of
lines that do not verify (24 R342) stand in the supervisor IMEM with an uncorrectable error; the rules name no outcome of that load. -/
def State.loadSup (s : State) (p : Nat) : State :=
  let a := (s.ctx (s.part p).ctx).supImage
  let (s, n) := State.gpaBytes p 2 s (a + 8) 4 []
  let len := Nat.min 32768 (leVal n)
  let bad := s.badHalves p a len
  let (s, bs) := State.gpaBytes p 258 s a len []
  s.modPart p fun k => { k with supImem := overStart bs [], badSup := bad }

/-- A context becomes resident with empty queues, zeroed scratchpads and a reloaded supervisor image (R228 case 2). -/
def State.freshContext (s : State) (p ctx : Nat) : State :=
  let s := (s.clearPart p).modPart p fun k =>
    { k.bare with ctx := ctx, resident := true, switch := .none, selfDev := s.fabric.devId }
  ((s.modCtx ctx fun x => { x with ran := true }).loadSup p).sampleRoot ctx

/-- A lost context (R328): its launches fail with FINAL = 3, and the LOST record is the first of its queue. -/
def State.lostContext (s : State) (p ctx detail : Nat) : State :=
  let s := s.freshContext p ctx
  let s := s.modCtx ctx fun x => { x with
    lost := true
    rings := x.rings.map fun r => (r.1, { r.2 with devq := [] })
    launches := x.launches.map fun e => (e.1, if e.2.stage = .done then e.2 else { e.2 with killed := true, final := 3 }) }
  s.modPart p fun k => { k with trapq := [mkRec 2 1 0 0 Cause.lost 0 0 0 0 0 (w64 detail)] }

/-- Core and cluster numbers at a new origin. -/
def moved {α : Type} (f : Nat → Nat) (m : Tbl α) : Tbl α := m.map fun e => (f e.1, e.2)

/-- A launch's clusters and cores at a new origin. -/
def Launch.moveTo (f g : Nat → Nat) (x : Launch) : Launch :=
  let t := x.trellis
  let cs (l : List Contribution) : List Contribution := l.map fun c => { c with core := g c.core }
  { x with
    trig := x.trig.map f, cover := [], started := x.started.map f, loaded := x.loaded.map g
    trellis := { dist := moved f t.dist, parent := moved f t.parent, clock := moved f t.clock, was := moved f t.was }
    gens := x.gens.map fun e => (e.1, cs e.2)
    device := x.device.map fun d => { d with core := g d.core } }

/-- A core's entries at a new origin. -/
def Core.moveTo (g : Nat → Nat) (k : Core) : Core :=
  { k with flight := k.flight.map fun f =>
      { f with e := { f.e with loc := (match f.e.loc with | .spad c a => .spad (g c) a | x => x) } } }

/-- A partition with what a save holds of it. -/
def Partition.load (k : Partition) (v : Partition) (ctx : Nat) (f g : Nat → Nat) : Partition :=
  let rs (l : List TRec) : List TRec := l.map fun r => { r with core := g r.core }
  { k.bare with
    ctx := ctx, resident := true, switch := .none
    trapq := rs v.trapq, heldRecs := rs v.heldRecs, fatalHeld := v.fatalHeld.map fun r => { r with core := g r.core }
    supImem := v.supImem, badSup := v.badSup, onlySup := v.onlySup, debugger := v.debugger, debugRecs := rs v.debugRecs
    replies := v.replies.map fun r => { r with core := g r.core }, peerEdits := v.peerEdits, peerLenEdit := v.peerLenEdit
    tokens := v.tokens.map fun r => (r.1, { r.2 with cluster := f r.2.cluster }) }

/-- A saved context is loaded into a partition of its size. -/
def State.loadContext (s : State) (p ctx : Nat) (v : Saved) : State :=
  let k := s.part p
  let was := clusterAt v.part.px v.part.py
  let now := clusterAt k.px k.py
  let f (n : Nat) : Nat := n + now - was
  let g (n : Nat) : Nat := n + 16 * now - 16 * was
  let s := s.clearPart p
  let s := v.cores.foldl (fun s e => s.setCore (g e.1) { e.2.moveTo g with selfDev := none }) s
  let s := v.clusters.foldl (fun s e => s.modCluster (f e.1) fun x =>
    { x with walkers := e.2.walkers, courses := e.2.courses, tasks := e.2.tasks.map fun t => (g t.1, t.2) }) s
  let s := s.setPart p { k.load v.part ctx f g with selfDev := s.fabric.devId }
  let s := s.modCtx ctx fun x => { x with
    ran := true
    launches := x.launches.map fun e => (e.1, e.2.moveTo f g)
    rings := x.rings.map fun r => (r.1, { r.2 with devq := r.2.devq.map fun d => { d with core := g d.core } }) }
  s.sampleRoot ctx

/-- The partition admits every launch that a context holds. -/
def State.admits (s : State) (p ctx : Nat) : Bool :=
  let k := s.part p
  (s.ctx ctx).launches.all fun e => e.2.stage == .done || (decide (k.l1min ≤ Rec.l1 e.2.rcd) && decide (Rec.l1 e.2.rcd ≤ k.l1max))

/-- CONTEXT_RESTORE: `damage` is what the check of the save area finds: 0 nothing, 1 a tag or sequence mismatch, 2 an
uncorrectable error. The header's sequence number is held against the partition manager's, and what lies at the area's address now is
the save only where it was put (R327). -/
def State.contextRestore (s : State) (p damage : Nat) : State :=
  let k := s.part p
  match k.switch with
  | .restoring c =>
    let idle := s.setPart p { k with switch := .none }
    if !(s.ctx c).alive || (s.residentIn? c).isSome then idle.resumeSwitch p
    else
      match Tbl.get? s.saves c with
      | none => ((s.freshContext p c).waitedCalls p c).resumeSwitch p
      | some v =>
        if v.pw ≠ k.pw ∨ v.ph ≠ k.ph ∨ s.admits p c = false then
          let t : State := { idle with alerts := idle.alerts ++ [.restoreRefused p c] }
          t.resumeSwitch p
        else if damage ≠ 0 ∨ v.key ≠ (s.ctx c).key ∨ v.seq ≠ (s.ctx c).saveSeq ∨ v.addr ≠ (s.ctx c).saveArea then
          ((s.lostContext p c (if damage = 2 then 2 else 1)).waitedCalls p c).resumeSwitch p
        else ((s.loadContext p c v).waitedCalls p c).resumeSwitch p
  | _ => s

/-! ## Creation and destruction (R346) -/

/-- CONTEXT_CREATION: the keystone core makes the context's memory key pair and tag key. -/
def State.createContext (s : State) (ctx : Nat) : State :=
  if 256 ≤ ctx ∨ (s.ctx ctx).alive = true then s
  else { s.modCtx ctx fun x => { x with alive := true, key := some s.keysMade } with keysMade := s.keysMade + 1 }

/-- CONTEXT_DESTROY: the keys are destroyed; nothing of the context can be read any more. -/
def State.destroyContext (s : State) (ctx : Nat) : State :=
  let s := match s.residentIn? ctx with
    | some p => (s.clearPart p).modPart p fun k => { k.bare with switch := .none }
    | none => s
  { s.setCtx ctx {} with saves := Tbl.del s.saves ctx }

/-! ## Meanings -/

/-- CONTEXT_SAVE (R326). -/
def execContextSave (part : Nat) (s : State) : Host.Outcome State Fault Refusal := event (fun s => s.contextSave part) s

/-- TEST_SLICE_END (R329). -/
def execTestSliceEnd (part : Nat) (failed : List Nat) (s : State) : Host.Outcome State Fault Refusal :=
  event (fun s => s.testEnd part failed) s

/-- CONTEXT_RESTORE (R328). -/
def execContextRestore (part damage : Nat) (s : State) : Host.Outcome State Fault Refusal :=
  event (fun s => s.contextRestore part damage) s

/-- CONTEXT_CREATION (R346). -/
def execContextCreation (ctx : Nat) (s : State) : Host.Outcome State Fault Refusal := event (fun s => s.createContext ctx) s

/-- CONTEXT_DESTROY (R346). -/
def execContextDestroy (ctx : Nat) (s : State) : Host.Outcome State Fault Refusal := event (fun s => s.destroyContext ctx) s

end Machine
end Sys2Proof
end

