-- ==== Sys2Proof/Machine/Manage.lean ====
section
/-! DEFINITION. The management interface: partition descriptors, the registers and tables that a management write sets, peer
invalidation, the memory plane's frames (03_launching.md R37, R39, R50; 13_memory_hierarchy.md R237; 17_mortar_plane.md R267;
20_fabric.md R291, R297 to R299, R306; 22_interruption.md R318, R327; 24_protection.md R339, R344, R345). -/

namespace Sys2Proof
namespace Machine

/-! ## Partition descriptors (R37) -/

/-- Fields of a descriptor. -/
def descEn (v : W64) : Bool := bitAt v 49
def descOf (k : Partition) (v : W64) : Partition :=
  { k with en := descEn v, l1max := field v 48 46, l1min := field v 45 43, ctx := field v 39 32, ph := field v 15 12,
           pw := field v 11 8, py := field v 7 4, px := field v 3 0 }

/-- Two rectangles have a cluster in common. -/
def Partition.overlaps (a b : Partition) : Bool :=
  decide (a.px ≤ b.px + b.pw ∧ b.px ≤ a.px + a.pw ∧ a.py ≤ b.py + b.ph ∧ b.py ≤ a.py + a.ph)

/-- The partition manager refuses the descriptor. -/
def State.descBad (s : State) (p : Nat) (k : Partition) : Bool :=
  decide (15 < k.px + k.pw) || decide (15 < k.py + k.ph) || decide (5 ≤ k.l1max) || decide (k.l1max < k.l1min)
    || s.parts.any fun e => e.1 != p && e.2.en && k.overlaps e.2

/-- The peer table and the QoS word of a partition that is enabled hold their reset values (20 R297, 24 R345). -/
def Partition.enabled (k : Partition) : Partition := { k with peers := [], peerLen := 0, peerEdits := [], peerLenEdit := none, qos := 0 }

/-- PARTITION_DESCRIPTOR_WRITE: taken only while the partition has no resident context, and enabling one only once the bring-up
is complete (25_bring_up.md R350). The context that it names is made resident by a restore. -/
def State.writeDesc (s : State) (p : Nat) (v : W64) : State :=
  let old := s.part p
  let k := descOf old v
  if 64 ≤ p ∨ s.managed = false then s
  else if old.resident = true ∨ s.descBad p k = true ∨ (k.en = true ∧ s.plat.stage ≠ .running) then
    { s with alerts := s.alerts ++ [.descriptorRefused p] }
  else
    let k := if k.en && !old.en then k.enabled else k
    let s := s.setPart p { k with switch := .none }
    if k.en && (s.ctx k.ctx).alive && !s.hasFailed p then s.setPart p { k with switch := .restoring k.ctx } else s

/-! ## Other registers and tables -/

/-- MEMORY_PLANE_FRAME: the slot table's writes take effect at the end of the frame in which they were made (R344). -/
def Fabric.nextFrame (f : Fabric) (time : Nat) : Fabric :=
  if f.frames < time / 256 then { f with slotTable := f.slotsWritten, slotPending := [], frames := time / 256 } else f

/-- A ring with a descriptor written over it (R39): ERR is cleared by a 1; the front end takes EN anew. DESIGN CHOICE (log entry 16): a
ring that the front end has stopped serving is served again after a write of its descriptor with EN = 1, whether ERR is cleared or
not, and after ERR is cleared alone while EN stands; R41 names no way back. -/
def RingD.write (r : RingD) (w : BitVec 256) : RingD :=
  { r with ctx := rdCtx w, err := r.err && !rdErr w, en := rdEn w, served := rdEn w, pcap := rdPcap w, log2n := rdLog2n w,
           ctrl := (rdCtrl w).toNat, status := (rdStatus w).toNat, base := (rdBase w).toNat }

/-- A queue table entry: bit 6 reads 0 (R50). -/
def queueEntry (w : Byte) : Byte := w &&& 0xBF#8

/-- A write of the slot table; bit 6 reads 0. -/
def Fabric.writeSlot (f : Fabric) (time t : Nat) (w : Byte) : Fabric :=
  let f := f.nextFrame time
  { f with slotPending := f.slotPending ++ [(t, queueEntry w)] }

/-- A snapshot root written over a partition: EPOCH is the device's (R339). -/
def Partition.writeSnap (k : Partition) (w : BitVec 256) : Partition :=
  { k with snapPages := field w 223 192, snapBase := field w 191 128, snapTable := field w 127 64, snapEn := bitAt w 0 }

/-- Bytes of a save area (22_interruption.md R327): compute and home cores, clusters, the partition. -/
def areaBytes (pw ph : Nat) : Nat := (pw + 1) * (ph + 1) * (8 * 393216 + 229376 + 65536) + 1048576

/-- A write of the hypervisor into a save area breaks its tags (R327, 24_protection.md R342). -/
def State.spoilSaves (s : State) (a : Nat) : State :=
  { s with saves := s.saves.map fun e =>
      (e.1, if decide (e.2.addr < a + 8) && decide (a < e.2.addr + areaBytes e.2.pw e.2.ph) then { e.2 with key := none } else e.2) }

/-- The hypervisor reads a sealed snapshot through the lines' homes (24_protection.md R341): the bytes of a guest physical range within
one page. DESIGN CHOICE (log entry 4): bytes of lines that do not verify read as zeros (R342: they never yield plaintext), and an entry that
does not, or that lies beyond HBM, gives nothing; R341 names no outcome. -/
def State.readSealed (s : State) (p gpa n : Nat) : State :=
  match (s.part p).snapEntry? gpa with
  | none => s
  | some a =>
    if hbmBytes < a + 16 ∨ s.foreign p a = true then s
    else
    let m := Nat.min n (65536 - gpa % 65536)
    let from_ := sealedFrame (s.snapEntry a) (s.part p).snapEpoch + gpa % 65536
    match s.homeRead none p from_ gpa m with
    | (t, bs) => { t with readout := s.verified p from_ bs }

/-- A walker with the state and window words and the return list that a debugger writes (04_placing.md R61 to R63); RET of the window word is the
list's length. -/
def Walker.write (k : Walker) (st win : W64) (ret : List Nat) : Walker :=
  { k with gen := field st 63 56, hi := field st 55 28, lo := field st 27 0, num := field win 39 32, count := field win 31 24 + 1
           taken := BitVec.ofNat 8 (field win 7 0), ret := (ret.take 504).map (· % 2 ^ 28) }

/-- A record of the trap queue with one word written, of its four or of its payload. -/
def TRec.write (r : TRec) (w : Nat) (v : W64) : TRec :=
  if w = 0 then { r with w0 := v } else if w = 1 then { r with w1 := v } else if w = 2 then { r with w2 := v } else if w = 3 then { r with w3 := v }
  else if 8 * (w - 4) + 8 ≤ r.payload.length then
    { r with payload := r.payload.take (8 * (w - 4)) ++ leBytes 8 v.toNat ++ r.payload.drop (8 * (w - 4) + 8) }
  else r

/-- What a record names for its reply: slot and message of its first word, core of its second (R315, R319). A call record names none. -/
def State.renamed (s : State) (p : Nat) (r : TRec) : TRec :=
  if r.call.isSome || decide (field r.w0 63 62 ≠ 1) then r
  else
    let c := coreOfPlace (s.part p) (w64 (field r.w1 37 0))
    let n := field r.w0 58 56
    let id : W32 := BitVec.ofNat 32 (field r.w0 31 0)
    { r with core := c, slot := n, msgid := id, task := if (s.slot c n).msgid = id then (s.slot c n).task else r.task }

/-- A per-slot control register as a debugger writes it, those that programs only read with the others; a field of EQST or CBUF that counts what
other units hold keeps its value (06_issuing.md R105, R106). -/
def Slot.debugCR (t : Slot) (num : Nat) (v : W64) : Option Slot :=
  match num with
  | 0x012 => some { t with msgid := BitVec.ofNat 32 v.toNat }
  | 0x013 => some { t with msrc := v }
  | 0x014 => some { t with budg := v.toNat % 2 ^ 24 }
  | 0x018 => some { t with tcause := v }
  | 0x019 => some { t with taddr := v }
  | 0x024 => some { t with qce := bitAt v 63, qpe := bitAt v 62 }
  | 0x025 => some { t with taint := bitAt v 33, repl := bitAt v 32 }
  | _ => none

/-- A write of the debugger (22_interruption.md R331); to what is in its partition alone, while the context is halted. -/
def State.debugWrite (s : State) (p : Nat) (w : DebugWrite) : State :=
  let mine (c : Nat) : Bool := s.corePart? c == some p
  match w with
  | .g c n r v => if mine c && decide (n < 8) && decide (r ≠ 0) then s.modSlot c n fun t => { t with g := Tbl.put 0 t.g r.toNat v } else s
  | .v c n r v => if mine c && decide (n < 8) then s.modSlot c n fun t => { t with v := Tbl.put 0 t.v r.toNat v } else s
  | .m c n r v => if mine c && decide (n < 8 ∧ r < 8) then s.modSlot c n fun t => { t with m := Tbl.put 0 t.m r v } else s
  | .cr c n num v =>
    if mine c && decide (n < 8) then
      match (s.slot c n).debugCR num v with
      | some t => s.setSlot c n t
      | none =>
        match ({ s with curCore := c, curSlot := n }).writeCR num v with
        | some t => { t with curCore := s.curCore, curSlot := s.curSlot }
        | none => s
    else s
  | .pc c n a => if mine c && decide (n < 8) then s.modSlot c n fun t => { t with pc := ⟨decide (32768 ≤ a % 65536), a % 32768⟩ } else s
  | .spad c o b => if mine c && decide (o < s.spadSize c) then s.modCore c fun k => k.spadWrite o [b] else s
  | .imem c o b => if mine c && decide (o < 65536) then s.modCore c fun k => k.imemWrite o (fullBytes [b]) else s
  | .acc c i v => if mine c && decide (i < 4096) then s.modCore c fun k => { k with acc := Tbl.put 0 k.acc i v } else s
  | .walker k i st win ret =>
    if (s.part p).holds k then
      match Tbl.get? (s.cluster k).walkers i with
      | some x => s.modCluster k fun y => { y with walkers := Tbl.set y.walkers i (x.write st win ret) }
      | none => s
    else s
  | .record i w v => s.modPart p fun k => { k with trapq := modifyAt (fun r => if w < 2 then s.renamed p (r.write w v) else r.write w v) i k.trapq }

/-- A debugger is attached to the context, which is halted. -/
def State.debugs (s : State) (p : Nat) : Bool := (s.part p).debugger && decide ((s.part p).halt = .halted)

/-- MANAGEMENT_WRITE. -/
def State.manage (s : State) : Mgmt → State
  | .ring ctx n w => if n < 64 then s.modRingD ctx n fun r => r.write w else s
  | .ringWriteClear ctx n => if n < 64 then s.modRingD ctx n fun r => { r with err := false, served := r.en } else s
  | .queue1 ctx i w => if i < 64 then s.modCtx ctx fun x => { x with q1 := Tbl.put 0 x.q1 i (queueEntry w) } else s
  | .queue2 ctx i w => if i < 64 then s.modCtx ctx fun x => { x with q2 := Tbl.put 0 x.q2 i (queueEntry w) } else s
  | .stage2Root ctx a => s.modCtx ctx fun x => { x with s2root := a }
  | .controlBlock ctx a => s.modCtx ctx fun x => { x with tcb := a }
  | .supervisorImage ctx a => s.modCtx ctx fun x => { x with supImage := a }
  | .saveArea ctx a => if a % 2 ^ 30 = 0 then s.modCtx ctx fun x => { x with saveArea := a } else s
  | .domain ctx d => s.modCtx ctx fun x => { x with domain := d }
  | .peer p h w => s.modPart p fun k => { k with peerEdits := k.peerEdits ++ [(h, w)] }
  | .peerLength p n => s.modPart p fun k => { k with peerLenEdit := some n }
  | .snapshotRoot p w => s.modPart p fun k => if k.resident then k else k.writeSnap w
  | .slotEntry t w => if t < 256 then { s with fabric := s.fabric.writeSlot s.time t w } else s
  | .qos p w => s.modPart p fun k => { k with qos := w64 (field w 24 8 * 256) }
  | .transitWeight w =>
    if w = 0 then s else { s with fabric := { s.fabric with transitWeight := w.toNat } }
  | .streamRing p w => s.modPart p fun k => { k with streamRing := w }
  | .deviceId v => { s with fabric := { s.fabric with devId := v % 2 ^ 18 } }
  | .route d ports => { s with fabric := { s.fabric with routes := Tbl.set s.fabric.routes (d % 2 ^ 18) ports } }
  | .udpPort v => { s with fabric := { s.fabric with udpPort := v % 2 ^ 16 } }
  | .systemTrellis d root cap =>
    let t := (Tbl.get? s.fabric.sysTrellis d).getD {}
    { s with fabric := { s.fabric with sysTrellis := Tbl.set s.fabric.sysTrellis d { t with conf := true, root := root, cap := cap } } }
  | .memory a w => if a + 8 ≤ hbmBytes then ((s.mergeLine (a / 128)).wrBytes a (leBytes 8 w.toNat)).spoilSaves a else s
  | .sealedRead p gpa n => s.readSealed p gpa n
  | .debug ctx w => s.onResident ctx fun s p => if s.debugs p then s.debugWrite p w else s

/-- PEER_INVALIDATION: the edits of a partition's peer table take effect (R298 case 5). -/
def Partition.applyPeers (k : Partition) : Partition :=
  { k with
    peers := k.peerEdits.foldl (fun m e => Tbl.put 0 m e.1 e.2) k.peers
    peerLen := k.peerLenEdit.getD k.peerLen, peerEdits := [], peerLenEdit := none }


/-! ## Meanings -/

/-- PARTITION_DESCRIPTOR_WRITE (R37). -/
def execPartitionDescriptorWrite (part : Nat) (v : W64) (s : State) : Host.Outcome State Fault Refusal :=
  event (fun s => s.writeDesc part v) s

/-- MANAGEMENT_WRITE (R39), while the management cores run. -/
def execManagementWrite (t : Mgmt) (s : State) : Host.Outcome State Fault Refusal :=
  event (fun s => if s.managed then s.manage t else s) s

/-- PEER_INVALIDATION (R298). -/
def execPeerInvalidation (part : Nat) (s : State) : Host.Outcome State Fault Refusal :=
  event (fun s => if s.managed then s.modPart part Partition.applyPeers else s) s

/-- MEMORY_PLANE_FRAME (R344). -/
def execMemoryPlaneFrame (s : State) : Host.Outcome State Fault Refusal :=
  event (fun s => { s with fabric := s.fabric.nextFrame s.time }) s

end Machine
end Sys2Proof
end

