-- ==== Sys2Proof/Machine/Ports.lean ====
section
/-! DEFINITION. The queue ports as steps of their own, the copy channels' status words, and the arrival of long-latency
results (06_issuing.md R100, R103, R104; 04_placing.md R68; 12_copy_engine.md R224). -/

namespace Sys2Proof
namespace Machine

/-- An access to a port by the current slot: the part of an instruction `j` that it is, without the rest of its issue. -/
def portStep (j : Instr) (body : State → Except Stop State) (s : State) : Host.Outcome State Fault Refusal :=
  if s.cur.running then
    .next (s.perform fun s => match body s with | .ok t => t | .error e => s.stopAt j e)
  else .fault .noTask

/-- A read of a port into a register. -/
def bodyPortRead (port d : Reg) (s : State) : Except Stop State := do
  let (s, x) ← readG s port
  writeG s d x

/-- A load of a status word: CPDN of the channel; with acquire, an acquire of the retired transfers' writes. -/
def bodyStatusRead (chan : BitVec 2) (acq : Bool) (d : Reg) (s : State) : Except Stop State :=
  let ea := w64 (0xFFFE * 2 ^ 48 + 0x80000 + 8 * chan.toNat)
  loadInto s { gd := [d.toNat], acq := if acq then 2 else 0 } [(ea, .status s.curCore chan.toNat, 8, .int 8 false)] acq

/-- On a mirror core a result of an owner is the one that the primary's task was given (24_protection.md R335 case 3). -/
def State.mirrorResult (s : State) (c n : Nat) : State :=
  let t := s.slot c n
  match s.primaryOf? c with
  | none => s
  | some pc =>
    let owned := match s.pairSlot? t pc with | some m => (s.slot pc m).owned | none => t.owned
    match owned[t.ownedPos]?, indexOf? (fun p => !p.ready && p.want.isEmpty && p.comp.isNone) t.pend with
    | some (v, bad), some i => s.modSlot c n fun t => { t with
        pend := modifyAt (fun p => { p with gval := [v], bad := bad, ready := true }) i t.pend
        ownedPos := t.ownedPos + 1 }
    | _, _ => s

/-- The registers of a result are written. A long-latency destination is no port (R80 case 2). -/
def Slot.takeResult (t : Slot) (p : Pending) : Slot :=
  { t with
    g := (p.gd.zip p.gval).foldl (fun g e => if e.1 = 0 then g else Tbl.put 0 g e.1 e.2) t.g
    v := p.vd.foldl (fun v r => Tbl.put 0 v r p.vval) t.v }

/-- LONG_LATENCY_RESULT (R100): the slot's oldest result that is there arrives and is written; one that brings a fault is kept
for the instruction that waits on it. A synchronisation completion is consumed (17_mortar_plane.md R269). -/
def State.resultArrives (s : State) (c n : Nat) : State :=
  let s := s.mirrorResult c n
  let t := s.slot c n
  match indexOf? (fun p => p.ready && !p.arrived) t.pend with
  | none => s
  | some i =>
    match t.pend[i]? with
    | none => s
    | some p =>
      let t1 := if p.bad.isNone then t.takeResult p else t
      let done := p.bad.isNone && decide (p.left = 0)
      let t2 := { t1 with
        pend := if done then removeAt i t1.pend else modifyAt (fun p => { p with arrived := true }) i t1.pend
        wait := if t1.wait = .results ∨ t1.wait = .oldest p.uid then .none else t1.wait }
      let s := s.setSlot c n t2
      match p.comp with
      | some x => if p.bad.isNone then s.consume c n x else s
      | none => s

/-- QPAY_READ (R103). -/
def execQpayRead (d : Reg) (s : State) : Host.Outcome State Fault Refusal := portStep (.add d 28 0) (bodyPortRead 28 d) s

/-- QBLD_WRITE (R103). -/
def execQbldWrite (a : Reg) (s : State) : Host.Outcome State Fault Refusal := portStep (.add 29 a 0) (bodyPortRead a 29) s

/-- QCMP_READ (R104). -/
def execQcmpRead (d : Reg) (s : State) : Host.Outcome State Fault Refusal := portStep (.add d 30 0) (bodyPortRead 30 d) s

/-- QTILE_READ (R68). -/
def execQtileRead (d : Reg) (s : State) : Host.Outcome State Fault Refusal := portStep (.add d 31 0) (bodyPortRead 31 d) s

/-- CHANNEL_STATUS_READ (R224). -/
def execChannelStatusRead (chan : BitVec 2) (acq : Bool) (d : Reg) (s : State) : Host.Outcome State Fault Refusal :=
  portStep (.lds d 0 0 0 3 0 0) (bodyStatusRead chan acq d) s

/-- LONG_LATENCY_RESULT (R100). -/
def execLongLatencyResult (core slot : Nat) (s : State) : Host.Outcome State Fault Refusal :=
  event (fun s => s.resultArrives core slot) s

end Machine
end Sys2Proof
end

