-- ==== Sys2Proof/Machine/WalkerIns.lean ====
section
/-! DEFINITION. The walker instructions WKNX, CLV and WKRD (04_placing.md R67, R71, R72). -/

namespace Sys2Proof
namespace Machine

/-- WKNX: a tile of the task's walker, after a cleave when G(a)[0] asks for one. -/
def bodyWknx (d a : Reg) (la : BitVec 4) (s : State) : Effect := do
  let (s, x) ← readG s a
  let (s, v) ← s.wknx (bitAt x 0)
  .ok (laterG s la.toNat [d.toNat] [v], .seq)

/-- CLV: the result word of the cleave. -/
def bodyClv (d a : Reg) (la : BitVec 4) (s : State) : Effect := do
  let (s, x) ← readG s a
  let (s, v) ← s.clv x
  .ok (laterG s la.toNat [d.toNat] [v], .seq)

/-- WKRD: a word of a walker. -/
def bodyWkrd (d a b : Reg) (la : BitVec 4) (s : State) : Effect := do
  let (s, x) ← readG s a
  let (s, y) ← readG s b
  require (decide (y.toNat ≤ 1)) (trapBits Cause.illegal)
  let (s, v) ← s.wkrd x y
  .ok (laterG s la.toNat [d.toNat] [v], .seq)

/-- WKNX (R67). -/
def execWknx (d a : Reg) (la : BitVec 4) (s : State) : Host.Outcome State Fault Refusal :=
  issue (.wknx d a la) (bodyWknx d a la) s

/-- CLV (R71). -/
def execClv (d a : Reg) (la : BitVec 4) (s : State) : Host.Outcome State Fault Refusal :=
  issue (.clv d a la) (bodyClv d a la) s

/-- WKRD (R72). -/
def execWkrd (d a b : Reg) (la : BitVec 4) (s : State) : Host.Outcome State Fault Refusal :=
  issue (.wkrd d a b la) (bodyWkrd d a b la) s

end Machine
end Sys2Proof
end

