-- ==== Sys2Proof/Machine/Dispatch.lean ====
section
/-! DEFINITION. What each instruction and event does: one arm per constructor, one call of its meaning. -/

namespace Sys2Proof
namespace Machine

/-- The meaning of an instruction or event. -/
def exec (i : Instr) (s : State) : Host.Outcome State Fault Refusal :=
  match i with
  | .add d a b => Sys2Proof.Machine.execAdd d a b s
  | .sub d a b => Sys2Proof.Machine.execSub d a b s
  | .andOp d a b => Sys2Proof.Machine.execAnd d a b s
  | .orOp d a b => Sys2Proof.Machine.execOr d a b s
  | .xorOp d a b => Sys2Proof.Machine.execXor d a b s
  | .andn d a b => Sys2Proof.Machine.execAndn d a b s
  | .shl d a b => Sys2Proof.Machine.execShl d a b s
  | .shr d a b => Sys2Proof.Machine.execShr d a b s
  | .sha d a b => Sys2Proof.Machine.execSha d a b s
  | .rol d a b => Sys2Proof.Machine.execRol d a b s
  | .min d a b => Sys2Proof.Machine.execMin d a b s
  | .max d a b => Sys2Proof.Machine.execMax d a b s
  | .minn d a b => Sys2Proof.Machine.execMinn d a b s
  | .maxn d a b => Sys2Proof.Machine.execMaxn d a b s
  | .slt d a b => Sys2Proof.Machine.execSlt d a b s
  | .sltn d a b => Sys2Proof.Machine.execSltn d a b s
  | .seq d a b => Sys2Proof.Machine.execSeq d a b s
  | .clz d a => Sys2Proof.Machine.execClz d a s
  | .ctz d a => Sys2Proof.Machine.execCtz d a s
  | .popc d a => Sys2Proof.Machine.execPopc d a s
  | .sel d a b => Sys2Proof.Machine.execSel d a b s
  | .nop => Sys2Proof.Machine.execNop s
  | .mul d a b la => Sys2Proof.Machine.execMul d a b la s
  | .mulh d a b la => Sys2Proof.Machine.execMulh d a b la s
  | .mulhn d a b la => Sys2Proof.Machine.execMulhn d a b la s
  | .div d a b la => Sys2Proof.Machine.execDiv d a b la s
  | .divn d a b la => Sys2Proof.Machine.execDivn d a b la s
  | .rem d a b la => Sys2Proof.Machine.execRem d a b la s
  | .remn d a b la => Sys2Proof.Machine.execRemn d a b la s
  | .bfx d a pos wid => Sys2Proof.Machine.execBfx d a pos wid s
  | .bfxs d a pos wid => Sys2Proof.Machine.execBfxs d a pos wid s
  | .bfi d a pos wid => Sys2Proof.Machine.execBfi d a pos wid s
  | .addi d a imm => Sys2Proof.Machine.execAddi d a imm s
  | .andi d a imm => Sys2Proof.Machine.execAndi d a imm s
  | .ori d a imm => Sys2Proof.Machine.execOri d a imm s
  | .xori d a imm => Sys2Proof.Machine.execXori d a imm s
  | .shli d a imm => Sys2Proof.Machine.execShli d a imm s
  | .shri d a imm => Sys2Proof.Machine.execShri d a imm s
  | .shai d a imm => Sys2Proof.Machine.execShai d a imm s
  | .slti d a imm => Sys2Proof.Machine.execSlti d a imm s
  | .li d imm => Sys2Proof.Machine.execLi d imm s
  | .lih d imm => Sys2Proof.Machine.execLih d imm s
  | .adr d imm => Sys2Proof.Machine.execAdr d imm s
  | .beq d a off => Sys2Proof.Machine.execBeq d a off s
  | .bne d a off => Sys2Proof.Machine.execBne d a off s
  | .blt d a off => Sys2Proof.Machine.execBlt d a off s
  | .bge d a off => Sys2Proof.Machine.execBge d a off s
  | .bltn d a off => Sys2Proof.Machine.execBltn d a off s
  | .bgen d a off => Sys2Proof.Machine.execBgen d a off s
  | .jmp off => Sys2Proof.Machine.execJmp off s
  | .jal off => Sys2Proof.Machine.execJal off s
  | .jalr d a imm => Sys2Proof.Machine.execJalr d a imm s
  | .loop a len => Sys2Proof.Machine.execLoop a len s
  | .endOp => Sys2Proof.Machine.execEnd s
  | .endd => Sys2Proof.Machine.execEndd s
  | .cmt => Sys2Proof.Machine.execCmt s
  | .folw => Sys2Proof.Machine.execFolw s
  | .followWaitExpiry core slot => Sys2Proof.Machine.execFollowWaitExpiry core slot s
  | .sig sig => Sys2Proof.Machine.execSig sig s
  | .sigShort sig => Sys2Proof.Machine.execSigShort sig s
  | .rdc d num => Sys2Proof.Machine.execRdc d num s
  | .wrc a num => Sys2Proof.Machine.execWrc a num s
  | .skipWrite core slot => Sys2Proof.Machine.execSkipWrite core slot s
  | .lfsrWrite v => Sys2Proof.Machine.execLfsrWrite v s
  | .trap code => Sys2Proof.Machine.execTrap code s
  | .bkpt => Sys2Proof.Machine.execBkpt s
  | .fnci => Sys2Proof.Machine.execFnci s
  | .tlbi a b => Sys2Proof.Machine.execTlbi a b s
  | .tlbiComplete core slot => Sys2Proof.Machine.execTlbiComplete core slot s
  | .snap d => Sys2Proof.Machine.execSnap d s
  | .snapFlip core slot => Sys2Proof.Machine.execSnapFlip core slot s
  | .dbgh => Sys2Proof.Machine.execDbgh s
  | .synld a b => Sys2Proof.Machine.execSynld a b s
  | .ldB d a la off => Sys2Proof.Machine.execLdB d a la off s
  | .ldH d a la off => Sys2Proof.Machine.execLdH d a la off s
  | .ldW d a la off => Sys2Proof.Machine.execLdW d a la off s
  | .ldD d a la off => Sys2Proof.Machine.execLdD d a la off s
  | .ldBS d a la off => Sys2Proof.Machine.execLdBS d a la off s
  | .ldHS d a la off => Sys2Proof.Machine.execLdHS d a la off s
  | .ldWS d a la off => Sys2Proof.Machine.execLdWS d a la off s
  | .stB d a off => Sys2Proof.Machine.execStB d a off s
  | .stH d a off => Sys2Proof.Machine.execStH d a off s
  | .stW d a off => Sys2Proof.Machine.execStW d a off s
  | .stD d a off => Sys2Proof.Machine.execStD d a off s
  | .ldp d a la off => Sys2Proof.Machine.execLdp d a la off s
  | .stp d a off => Sys2Proof.Machine.execStp d a off s
  | .lds d a sc la sz sgn ord => Sys2Proof.Machine.execLds d a sc la sz sgn ord s
  | .sts d a sc sz ord => Sys2Proof.Machine.execSts d a sc sz ord s
  | .fnc kinds sc => Sys2Proof.Machine.execFnc kinds sc s
  | .pfx a sc => Sys2Proof.Machine.execPfx a sc s
  | .cln a sc => Sys2Proof.Machine.execCln a sc s
  | .invl a sc => Sys2Proof.Machine.execInvl a sc s
  | .tmad d a b la => Sys2Proof.Machine.execTmad d a b la s
  | .amo d a b la op sz => Sys2Proof.Machine.execAmo d a b la op sz s
  | .amop a b op sz => Sys2Proof.Machine.execAmop a b op sz s
  | .red a b op sz => Sys2Proof.Machine.execRed a b op sz s
  | .send d a b => Sys2Proof.Machine.execSend d a b s
  | .sendk d a cls bnc => Sys2Proof.Machine.execSendk d a cls bnc s
  | .sendx d a b => Sys2Proof.Machine.execSendx d a b s
  | .spwn d a b la => Sys2Proof.Machine.execSpwn d a b la s
  | .rdx a => Sys2Proof.Machine.execRdx a s
  | .deq d la => Sys2Proof.Machine.execDeq d la s
  | .mxq a => Sys2Proof.Machine.execMxq a s
  | .mxqt d a la => Sys2Proof.Machine.execMxqt d a la s
  | .cpq d a la => Sys2Proof.Machine.execCpq d a la s
  | .cpqt d a la => Sys2Proof.Machine.execCpqt d a la s
  | .wknx d a la => Sys2Proof.Machine.execWknx d a la s
  | .clv d a la => Sys2Proof.Machine.execClv d a la s
  | .wkrd d a b la => Sys2Proof.Machine.execWkrd d a b la s
  | .lnch d a b => Sys2Proof.Machine.execLnch d a b s
  | .trig => Sys2Proof.Machine.execTrig s
  | .vfadd d a b mk zr => Sys2Proof.Machine.execVfadd d a b mk zr s
  | .vfsub d a b mk zr => Sys2Proof.Machine.execVfsub d a b mk zr s
  | .vfmul d a b mk zr => Sys2Proof.Machine.execVfmul d a b mk zr s
  | .vfma d a b mk zr => Sys2Proof.Machine.execVfma d a b mk zr s
  | .vfms d a b mk zr => Sys2Proof.Machine.execVfms d a b mk zr s
  | .vfnma d a b mk zr => Sys2Proof.Machine.execVfnma d a b mk zr s
  | .vfmin d a b mk zr => Sys2Proof.Machine.execVfmin d a b mk zr s
  | .vfmax d a b mk zr => Sys2Proof.Machine.execVfmax d a b mk zr s
  | .vfabs d a mk zr => Sys2Proof.Machine.execVfabs d a mk zr s
  | .vfneg d a mk zr => Sys2Proof.Machine.execVfneg d a mk zr s
  | .vfcpy d a b mk zr => Sys2Proof.Machine.execVfcpy d a b mk zr s
  | .vfcmp d a b mk zr cond => Sys2Proof.Machine.execVfcmp d a b mk zr cond s
  | .vrcp d a mk zr => Sys2Proof.Machine.execVrcp d a mk zr s
  | .vrsq d a mk zr => Sys2Proof.Machine.execVrsq d a mk zr s
  | .vexp2 d a mk zr => Sys2Proof.Machine.execVexp2 d a mk zr s
  | .vadd d a b mk zr lane => Sys2Proof.Machine.execVadd d a b mk zr lane s
  | .vsub d a b mk zr lane => Sys2Proof.Machine.execVsub d a b mk zr lane s
  | .vmul d a b mk zr lane => Sys2Proof.Machine.execVmul d a b mk zr lane s
  | .vmulh d a b mk zr lane => Sys2Proof.Machine.execVmulh d a b mk zr lane s
  | .vmin d a b mk zr lane => Sys2Proof.Machine.execVmin d a b mk zr lane s
  | .vmax d a b mk zr lane => Sys2Proof.Machine.execVmax d a b mk zr lane s
  | .vand d a b mk zr => Sys2Proof.Machine.execVand d a b mk zr s
  | .vor d a b mk zr => Sys2Proof.Machine.execVor d a b mk zr s
  | .vxor d a b mk zr => Sys2Proof.Machine.execVxor d a b mk zr s
  | .vshl d a b mk zr lane => Sys2Proof.Machine.execVshl d a b mk zr lane s
  | .vshr d a b mk zr lane => Sys2Proof.Machine.execVshr d a b mk zr lane s
  | .vsha d a b mk zr lane => Sys2Proof.Machine.execVsha d a b mk zr lane s
  | .vcmp d a b mk zr lane cond => Sys2Proof.Machine.execVcmp d a b mk zr lane cond s
  | .vsel d a b mk lane => Sys2Proof.Machine.execVsel d a b mk lane s
  | .vld d a la off => Sys2Proof.Machine.execVld d a la off s
  | .vst d a off => Sys2Proof.Machine.execVst d a off s
  | .vldb d a la off => Sys2Proof.Machine.execVldb d a la off s
  | .vldx d a b la mk lane => Sys2Proof.Machine.execVldx d a b la mk lane s
  | .vstx d a b mk lane => Sys2Proof.Machine.execVstx d a b mk lane s
  | .vperm d a b mk zr lane => Sys2Proof.Machine.execVperm d a b mk zr lane s
  | .vsld d a b mk zr lane => Sys2Proof.Machine.execVsld d a b mk zr lane s
  | .vins d a b lane => Sys2Proof.Machine.execVins d a b lane s
  | .vext d a b lane => Sys2Proof.Machine.execVext d a b lane s
  | .vbcast d a mk zr lane => Sys2Proof.Machine.execVbcast d a mk zr lane s
  | .vred d a mk lane op => Sys2Proof.Machine.execVred d a mk lane op s
  | .vscan d a mk lane op => Sys2Proof.Machine.execVscan d a mk lane op s
  | .vcvt d a dst src rnd => Sys2Proof.Machine.execVcvt d a dst src rnd s
  | .vcvtSat d a dst src rnd => Sys2Proof.Machine.execVcvtSat d a dst src rnd s
  | .vbsc d a b mk knd => Sys2Proof.Machine.execVbsc d a b mk knd s
  | .mand d a b => Sys2Proof.Machine.execMand d a b s
  | .mor d a b => Sys2Proof.Machine.execMor d a b s
  | .mxor d a b => Sys2Proof.Machine.execMxor d a b s
  | .mnot d a => Sys2Proof.Machine.execMnot d a s
  | .mpop d a => Sys2Proof.Machine.execMpop d a s
  | .mset d a => Sys2Proof.Machine.execMset d a s
  | .carv a b => Sys2Proof.Machine.execCarv a b s
  | .cexp a b => Sys2Proof.Machine.execCexp a b s
  | .cmis d a b la => Sys2Proof.Machine.execCmis d a b la s
  | .cjoin a => Sys2Proof.Machine.execCjoin a s
  | .cquit a => Sys2Proof.Machine.execCquit a s
  | .tkrq a b sc => Sys2Proof.Machine.execTkrq a b sc s
  | .tkps a sc => Sys2Proof.Machine.execTkps a sc s
  | .scrd d la sc => Sys2Proof.Machine.execScrd d la sc s
  | .lgrd d a la sc => Sys2Proof.Machine.execLgrd d a la sc s
  | .trmc a b => Sys2Proof.Machine.execTrmc a b s
  | .trrd d a b la => Sys2Proof.Machine.execTrrd d a b la s
  | .cMv d a => Sys2Proof.Machine.execCMv d a s
  | .cAdd d b => Sys2Proof.Machine.execCAdd d b s
  | .cSub d b => Sys2Proof.Machine.execCSub d b s
  | .cAnd d b => Sys2Proof.Machine.execCAnd d b s
  | .cAddi d imm => Sys2Proof.Machine.execCAddi d imm s
  | .cShli d imm => Sys2Proof.Machine.execCShli d imm s
  | .cLi d imm => Sys2Proof.Machine.execCLi d imm s
  | .cLd d a off => Sys2Proof.Machine.execCLd d a off s
  | .cSt b a off => Sys2Proof.Machine.execCSt b a off s
  | .cBeqz d off => Sys2Proof.Machine.execCBeqz d off s
  | .cBnez d off => Sys2Proof.Machine.execCBnez d off s
  | .cJ off => Sys2Proof.Machine.execCJ off s
  | .cEnd => Sys2Proof.Machine.execCEnd s
  | .cCmt => Sys2Proof.Machine.execCCmt s
  | .cSig sig => Sys2Proof.Machine.execCSig sig s
  | .cNop => Sys2Proof.Machine.execCNop s
  | .qpayRead d => Sys2Proof.Machine.execQpayRead d s
  | .qbldWrite a => Sys2Proof.Machine.execQbldWrite a s
  | .qcmpRead d => Sys2Proof.Machine.execQcmpRead d s
  | .qtileRead d => Sys2Proof.Machine.execQtileRead d s
  | .channelStatusRead chan acq d => Sys2Proof.Machine.execChannelStatusRead chan acq d s
  | .longLatencyResult core slot => Sys2Proof.Machine.execLongLatencyResult core slot s
  | .taskDispatch core => Sys2Proof.Machine.execTaskDispatch core s
  | .serviceDispatch core => Sys2Proof.Machine.execServiceDispatch core s
  | .budgetExpiry core slot => Sys2Proof.Machine.execBudgetExpiry core slot s
  | .bufferPoolWaitEnd core slot => Sys2Proof.Machine.execBufferPoolWaitEnd core slot s
  | .cbfullDeadlockAbort core => Sys2Proof.Machine.execCbfullDeadlockAbort core s
  | .trapQueueWaitEnd part => Sys2Proof.Machine.execTrapQueueWaitEnd part s
  | .stormRelease part => Sys2Proof.Machine.execStormRelease part s
  | .supervisorDispatch part => Sys2Proof.Machine.execSupervisorDispatch part s
  | .callRecord ctx handler q => Sys2Proof.Machine.execCallRecord ctx handler q s
  | .resume core slot => Sys2Proof.Machine.execResume core slot s
  | .skip core slot => Sys2Proof.Machine.execSkip core slot s
  | .kill core slot => Sys2Proof.Machine.execKill core slot s
  | .taskMessageArrival k => Sys2Proof.Machine.execTaskMessageArrival k s
  | .serviceMessageArrival core k => Sys2Proof.Machine.execServiceMessageArrival core k s
  | .bounceArrival k => Sys2Proof.Machine.execBounceArrival k s
  | .bounceRetry core => Sys2Proof.Machine.execBounceRetry core s
  | .messageHandover core k => Sys2Proof.Machine.execMessageHandover core k s
  | .deferExpiry core k => Sys2Proof.Machine.execDeferExpiry core k s
  | .completionTaskAccept cluster k => Sys2Proof.Machine.execCompletionTaskAccept cluster k s
  | .spawnAtTarget k => Sys2Proof.Machine.execSpawnAtTarget k s
  | .atomicAtOwner core => Sys2Proof.Machine.execAtomicAtOwner core s
  | .subByteMerge core => Sys2Proof.Machine.execSubByteMerge core s
  | .memoryRequestAtHome core k => Sys2Proof.Machine.execMemoryRequestAtHome core k s
  | .imemWindowStore core => Sys2Proof.Machine.execImemWindowStore core s
  | .reductionEntry core k => Sys2Proof.Machine.execReductionEntry core k s
  | .forwardingEntryInstall line => Sys2Proof.Machine.execForwardingEntryInstall line s
  | .parkRetry core k => Sys2Proof.Machine.execParkRetry core k s
  | .scrub line => Sys2Proof.Machine.execScrub line s
  | .stage2FillReply part gpa r => Sys2Proof.Machine.execStage2FillReply part gpa r s
  | .stage2Invalidation part gpa => Sys2Proof.Machine.execStage2Invalidation part gpa s
  | .pageMigration part gpa frame => Sys2Proof.Machine.execPageMigration part gpa frame s
  | .pageMigrationComplete part gpa => Sys2Proof.Machine.execPageMigrationComplete part gpa s
  | .copyOnWriteComplete part page => Sys2Proof.Machine.execCopyOnWriteComplete part page s
  | .writeAck core k ok => Sys2Proof.Machine.execWriteAck core k ok s
  | .fenceMarkPass core k => Sys2Proof.Machine.execFenceMarkPass core k s
  | .releasePerform core k => Sys2Proof.Machine.execReleasePerform core k s
  | .rdxRequestSend core k => Sys2Proof.Machine.execRdxRequestSend core k s
  | .rdxReadAtOwner k => Sys2Proof.Machine.execRdxReadAtOwner k s
  | .rdxDelivery k => Sys2Proof.Machine.execRdxDelivery k s
  | .mma core => Sys2Proof.Machine.execMma core s
  | .mmas core => Sys2Proof.Machine.execMmas core s
  | .accz core => Sys2Proof.Machine.execAccz core s
  | .accl core => Sys2Proof.Machine.execAccl core s
  | .accs core => Sys2Proof.Machine.execAccs core s
  | .accmCopy core => Sys2Proof.Machine.execAccmCopy core s
  | .accmAdd core => Sys2Proof.Machine.execAccmAdd core s
  | .accmTranspose core => Sys2Proof.Machine.execAccmTranspose core s
  | .matrixCompletion core => Sys2Proof.Machine.execMatrixCompletion core s
  | .matrixQueueWaitEnd core slot => Sys2Proof.Machine.execMatrixQueueWaitEnd core slot s
  | .engineReportUnblock core => Sys2Proof.Machine.execEngineReportUnblock core s
  | .accumulatorZeroing core => Sys2Proof.Machine.execAccumulatorZeroing core s
  | .lin core chan => Sys2Proof.Machine.execLin core chan s
  | .rect core chan => Sys2Proof.Machine.execRect core chan s
  | .rectMap core chan => Sys2Proof.Machine.execRectMap core chan s
  | .slab core chan => Sys2Proof.Machine.execSlab core chan s
  | .gath core chan => Sys2Proof.Machine.execGath core chan s
  | .fill core chan => Sys2Proof.Machine.execFill core chan s
  | .copyChunk core chan => Sys2Proof.Machine.execCopyChunk core chan s
  | .copyCompletion core chan => Sys2Proof.Machine.execCopyCompletion core chan s
  | .copyQueueWaitEnd core slot => Sys2Proof.Machine.execCopyQueueWaitEnd core slot s
  | .ringVisit ctx ring => Sys2Proof.Machine.execRingVisit ctx ring s
  | .lnchCommit core k => Sys2Proof.Machine.execLnchCommit core k s
  | .launchRelease ctx lid => Sys2Proof.Machine.execLaunchRelease ctx lid s
  | .releaseImageLoad ctx lid core => Sys2Proof.Machine.execReleaseImageLoad ctx lid core s
  | .releaseMessage ctx lid cluster => Sys2Proof.Machine.execReleaseMessage ctx lid cluster s
  | .trigCommit core k => Sys2Proof.Machine.execTrigCommit core k s
  | .launchDone ctx lid => Sys2Proof.Machine.execLaunchDone ctx lid s
  | .partitionDescriptorWrite part v => Sys2Proof.Machine.execPartitionDescriptorWrite part v s
  | .managementWrite t => Sys2Proof.Machine.execManagementWrite t s
  | .peerInvalidation part => Sys2Proof.Machine.execPeerInvalidation part s
  | .e2etWrite v => Sys2Proof.Machine.execE2etWrite v s
  | .mortarRound inst => Sys2Proof.Machine.execMortarRound inst s
  | .confirmedDrain core slot => Sys2Proof.Machine.execConfirmedDrain core slot s
  | .scrdPairWaitEnd core slot => Sys2Proof.Machine.execScrdPairWaitEnd core slot s
  | .trrdGenerationClose ctx lid => Sys2Proof.Machine.execTrrdGenerationClose ctx lid s
  | .trrdDrainWaitEnd core k => Sys2Proof.Machine.execTrrdDrainWaitEnd core k s
  | .trmcDelivery ctx lid => Sys2Proof.Machine.execTrmcDelivery ctx lid s
  | .trmcDrainWaitEnd core k => Sys2Proof.Machine.execTrmcDrainWaitEnd core k s
  | .frameReceive port f => Sys2Proof.Machine.execFrameReceive port f s
  | .ackReceive port f => Sys2Proof.Machine.execAckReceive port f s
  | .linkControlFrame port count gap => Sys2Proof.Machine.execLinkControlFrame port count gap s
  | .linkDown port => Sys2Proof.Machine.execLinkDown port s
  | .e2eTimerExpiry flow => Sys2Proof.Machine.execE2eTimerExpiry flow s
  | .flowRestart flow => Sys2Proof.Machine.execFlowRestart flow s
  | .streamConfigure part => Sys2Proof.Machine.execStreamConfigure part s
  | .streamRelease part => Sys2Proof.Machine.execStreamRelease part s
  | .streamWord stream port => Sys2Proof.Machine.execStreamWord stream port s
  | .streamMarker stream => Sys2Proof.Machine.execStreamMarker stream s
  | .plumbCheck core slot => Sys2Proof.Machine.execPlumbCheck core slot s
  | .plumbTimeout core slot => Sys2Proof.Machine.execPlumbTimeout core slot s
  | .eccUncorrectable core slot => Sys2Proof.Machine.execEccUncorrectable core slot s
  | .correctedError => Sys2Proof.Machine.execCorrectedError s
  | .preemptionRequest part ctx => Sys2Proof.Machine.execPreemptionRequest part ctx s
  | .contextSave part => Sys2Proof.Machine.execContextSave part s
  | .testSliceEnd part failed => Sys2Proof.Machine.execTestSliceEnd part failed s
  | .contextRestore part damage => Sys2Proof.Machine.execContextRestore part damage s
  | .debugHaltRequest ctx => Sys2Proof.Machine.execDebugHaltRequest ctx s
  | .debugHalt ctx => Sys2Proof.Machine.execDebugHalt ctx s
  | .debuggerAttach ctx => Sys2Proof.Machine.execDebuggerAttach ctx s
  | .debuggerStep core slot => Sys2Proof.Machine.execDebuggerStep core slot s
  | .debugRelease ctx => Sys2Proof.Machine.execDebugRelease ctx s
  | .fabricKeyInstall dom => Sys2Proof.Machine.execFabricKeyInstall dom s
  | .fabricKeySwitch dom => Sys2Proof.Machine.execFabricKeySwitch dom s
  | .fabricKeyDestroy dom => Sys2Proof.Machine.execFabricKeyDestroy dom s
  | .contextDestroy ctx => Sys2Proof.Machine.execContextDestroy ctx s
  | .powerOn => Sys2Proof.Machine.execPowerOn s
  | .readyReport stage => Sys2Proof.Machine.execReadyReport stage s
  | .watchdogExpiry => Sys2Proof.Machine.execWatchdogExpiry s
  | .recoveryPortTimeout => Sys2Proof.Machine.execRecoveryPortTimeout s
  | .recoveryAnswer set => Sys2Proof.Machine.execRecoveryAnswer set s
  | .recoveryRetry => Sys2Proof.Machine.execRecoveryRetry s
  | .attestationRequest nonce => Sys2Proof.Machine.execAttestationRequest nonce s
  | .powerOff => Sys2Proof.Machine.execPowerOff s
  | .islandFrequencyWrite island mhz => Sys2Proof.Machine.execIslandFrequencyWrite island mhz s
  | .frequencyStep island => Sys2Proof.Machine.execFrequencyStep island s
  | .powerLimitThrottle island mhz => Sys2Proof.Machine.execPowerLimitThrottle island mhz s
  | .softError t => Sys2Proof.Machine.execSoftError t s
  | .linkTraining port => Sys2Proof.Machine.execLinkTraining port s
  | .memoryPlaneFrame => Sys2Proof.Machine.execMemoryPlaneFrame s
  | .contextCreation ctx => Sys2Proof.Machine.execContextCreation ctx s
  | .domainCreation dom => Sys2Proof.Machine.execDomainCreation dom s
  | .domainDestruction dom => Sys2Proof.Machine.execDomainDestruction dom s

end Machine
end Sys2Proof
end

