-- ==== Sys2Proof/Machine/Guests.lean ====
section
/-! DEFINITION. Launches of other devices with tasks here: when they have ended, and how a teardown reaches them and their homes
(03_launching.md R47, 22_interruption.md R320; log entry 9). -/

namespace Sys2Proof
namespace Machine

/-- Nothing of a guest is left here, nor at the devices that its tasks sent to. -/
def State.guestOver (s : State) (g : Guest) : Bool :=
  g.abroad.isEmpty && !g.upward && (g.ctxs.all fun c => (s.residentIn? c).isSome || !(s.ctx c).alive)
    && (s.cores.all fun e => e.2.quiet g.launch) && (s.clusters.all fun e => e.2.tasks.all fun t => t.2.launch != some g.launch)
    && (s.underway.all fun i => s.itemLaunch i != some g.launch)
    && (s.parts.all fun e => e.2.tokens.all fun t => t.2.fifo.all fun e => e.2.all fun q => q.launch != some g.launch)
    && s.clusters.all fun e => e.2.courses.all fun c => c.2.f.cont.all fun y => y.2.launch != some g.launch

/-- A guest's end is told. -/
def State.guestLeave (s : State) (g : Guest) : State :=
  let s : State := { s with fabric := { s.fabric with guests := s.fabric.guests.filter fun h => h.launch != g.launch } }
  match g.tell with
  | some t => s.tell t
  | none => s

/-- The devices that hold messages of a launch that is torn down are told. -/
def State.tellKill (s : State) (l : LaunchId) (dom : Nat) (abroad : List Abroad) : State :=
  let w : LaunchId := { l with dev := some (l.dev.getD s.fabric.devId) }
  let devs := ((abroad.filter fun x => !x.told).map (·.dev)).eraseDups
  if devs.isEmpty then s
  else (devs.foldl (fun s d => s.sendService d 1 dom 0 0 (.kill w)) s).modAbroads l fun k => k.map fun x => { x with told := true }

/-- A guest that is torn down: what it has here ends, and the devices that it concerns are told. -/
def State.guestKill (s : State) (g : Guest) : State :=
  let s := (s.killHere g.launch).tellKill g.launch g.dom g.abroad
  if g.upward then
    let d := g.launch.dev.getD 0
    let s := s.modGuest g.launch fun g => { g with upward := false }
    if d = s.fabric.devId then s.killLaunch { g.launch with dev := none } else s.sendService d 1 g.dom 0 0 (.kill g.launch)
  else s

/-- The launches of a context that are torn down while messages of theirs are at other devices. -/
def State.killedAbroad (s : State) : List (LaunchId × Nat × List Abroad) :=
  s.ctxs.flatMap fun x => (x.2.launches.filter fun e => e.2.killed && !e.2.abroad.isEmpty).map fun e =>
    ({ ctx := x.1, lid := e.1 }, x.2.domain, e.2.abroad)

/-- The device's part in the launches of several devices. -/
def State.guestRound (s : State) : State :=
  let s := s.killedAbroad.foldl (fun s e => s.tellKill e.1 e.2.1 e.2.2) s
  let s := (s.fabric.guests.filter (·.killed)).foldl (fun s g => s.guestKill g) s
  (s.fabric.guests.filter s.guestOver).foldl (fun s g => s.guestLeave g) s

end Machine
end Sys2Proof
end

