-- ==== Sys2Proof/Machine/Next.lean ====
section
/-! DEFINITION. What a step does around an instruction: time and budgets, which slot is ready, the fetch, the moves of the agenda
(06_issuing.md R99, R102; 13_memory_hierarchy.md R229, R232, R234; 22_interruption.md R331; 25_bring_up.md R354). -/

namespace Sys2Proof
namespace Machine

/-! ## Time (R102, R354) -/

/-- The slot's budget counts: it runs, and no END of it has issued. -/
def Slot.counts (t : Slot) : Bool :=
  t.running && match t.wait with
    | .confirm fin => !fin
    | .plumb fin => !fin
    | .handing fin => !fin
    | _ => true

/-- Cycles of an island's clock between two counts of TIME; none while a change of its frequency stops it (R354). -/
def islandCycles (mhz t0 t1 : Nat) : Nat := t1 * mhz / 2700 - t0 * mhz / 2700
def Platform.cycles (k : Platform) (i t0 t1 : Nat) : Nat :=
  islandCycles (k.cur i) (Nat.min t1 (Nat.max t0 (Tbl.find 0 k.islandStop i))) t1

/-- A core after some of its cycles: it may issue again, and budgets count down; none counts while the core is halted (R330 case
5). -/
def Core.spend (k : Core) (n : Nat) : Core :=
  let k := if n = 0 then k else { k with clock := k.clock + n, tried := [], mxFreed := 0 }
  if k.halted then k
  else { k with slots := k.slots.map fun e => (e.1, if e.2.counts then { e.2 with budg := e.2.budg - n } else e.2) }

/-- Cycles of TIME pass. -/
def State.advance (s : State) (n : Nat) : State :=
  { s with
    time := s.time + n
    cores := s.cores.map fun e => (e.1, e.2.spend (s.plat.cycles (islandOf (clusterOf e.1)) s.time (s.time + n))) }

/-- A count of TIME ends: the write acknowledgements that became due in it leave. -/
def State.pass (s : State) (n : Nat) : State := s.sendAcks.advance n

/-- The tenant domains of this device: of its contexts, and those that the fabric manager has set up. -/
def State.domains (s : State) : List Nat :=
  (s.ctxs.map (fun e => e.2.domain) ++ s.fabric.keys.map (·.1) ++ s.fabric.sysTrellis.map (·.1)).dedup

/-- The scope instances, each with its rounds: every cluster, every partition, and every tenant domain (R257). -/
def State.insts (s : State) : List Inst :=
  (upto 256).map Inst.group ++ (s.parts.map fun e => .device e.1) ++ s.domains.map Inst.system

/-- The counts of TIME that may pass before a round of an instance ends: no round is passed over (17 R257). -/
def State.slack (s : State) (n : Nat) : Nat :=
  s.insts.foldl (fun m i => Nat.min m ((s.detector i).began + roundLength i - s.time)) n

/-- The cycles that the oracle lets pass before a step, but no round's end (log entry 11). -/
def State.tick (s : State) : State :=
  match s.ticks with
  | [] => s
  | n :: rest => ({ s with ticks := rest }).pass (s.slack n)

/-! ## Which slot issues (R99) -/

/-- The core and slot that issue next: a core issues once in a cycle of its island (log entry 11). -/
def State.turn? (s : State) : Option (Nat × Nat) := s.cores.findSome? fun e => (s.turnAt? e.1).map fun n => (e.1, n)

/-- A core and slot become the ones that issue; what the slot waited for is looked at again. -/
def State.select (s : State) (c n : Nat) : State :=
  { (s.modSlot c n fun t => { t with wait := .none }) with curCore := c, curSlot := n }

/-- The service slot has its turn: the handler of its message runs (06 R96). -/
def State.serveTurn (s : State) (c : Nat) : State :=
  let t := ((s.atomicServe c).subByteServe c).imemServe c
  if t = s then s.modCore c fun k => k.notReady 0 else t.modCore c fun k => k.issued 0

/-- The instruction that the current slot issues: the head of the stream that it follows, or what it fetches. -/
def State.nextInstr (s : State) : State × Except W64 Instr :=
  match s.cur.stream with
  | (j, _, _) :: _ => (s, .ok j)
  | [] => s.fetch s.curCore s.curSlot

/-- Nothing could be fetched or decoded: BUDGET goes first, then ILLEGAL (R102, R85, R89), or ECC where IMEM has an uncorrectable error (24
R338). DEDUCED (log entry 20): TADDR of that ECC is the routine address. -/
def State.fetchTrap (a : W64) (s : State) : State :=
  let c := s.curCore
  let n := s.curSlot
  if s.cur.budg = 0 then s.takeTrap c n Cause.budget 0 0
  else s.takeTrap c n (if s.fetchBad c n then Cause.ecc else Cause.illegal) 0 a

/-! ## Moves that are no rows of the table -/

/-- A line leaves an L1 portion. -/
def State.evictL1 (s : State) (c ln : Nat) : State := s.l1Drop c ln

/-- A migrated line goes back to its directory slice, unless it is on the move (R232 case 4). -/
def State.evictHome (s : State) (ln : Nat) : State :=
  let l := s.line ln
  if l.home.isSome && l.moving.isNone then s.setLine ln { l with home := none } else s

/-- The row is an event of the machine: it has no word, and it is no part of an instruction of the current slot. -/
def isEvent : Instr → Bool
  | .lfsrWrite _ => false
  | .qpayRead _ => false
  | .qbldWrite _ => false
  | .qcmpRead _ => false
  | .qtileRead _ => false
  | .channelStatusRead _ _ _ => false
  | j => decide ((encode j).1 = 0)

/-- A slot that a debugger may step: it runs a task, and its core is halted under an attached debugger. -/
def State.stepped (s : State) (c n : Nat) : Bool :=
  match s.corePart? c with
  | some p => (s.part p).debugger && (s.core c).halted && (s.slot c n).ready
  | none => false

end Machine
end Sys2Proof
end

