-- ==== Sys2Proof/Machine/Auto.lean ====
section
/-! DEFINITION. What the machine does of itself when the agenda says nothing: an instruction of a slot, or the first of its own
events, in turn, that has an effect (log entry 11). Nothing here comes from outside the device: no frame, no request of the hypervisor, no
error. -/

namespace Sys2Proof
namespace Machine

/-- An event of the device: its meaning. -/
abbrev Event := State → Host.Outcome State Fault Refusal

/-- Events that end the waits of a slot. -/
def slotEvents (c n : Nat) (t : Slot) : List Event :=
  if t.running then
    [execLongLatencyResult c n, execSkipWrite c n, execTlbiComplete c n, execSnapFlip c n, execFollowWaitExpiry c n, execBufferPoolWaitEnd c n,
     execMatrixQueueWaitEnd c n, execCopyQueueWaitEnd c n, execConfirmedDrain c n, execScrdPairWaitEnd c n, execPlumbCheck c n, execPlumbTimeout c n,
     execBudgetExpiry c n]
  else []

/-- Events of one drained entry. -/
def flightEvents (c k : Nat) : List Event :=
  [execMemoryRequestAtHome c k, execReductionEntry c k, execServiceMessageArrival c k, execFenceMarkPass c k, execReleasePerform c k,
   execMessageHandover c k, execRdxRequestSend c k, execLnchCommit c k, execTrigCommit c k, execTrmcDrainWaitEnd c k, execTrrdDrainWaitEnd c k,
   execParkRetry c k, execWriteAck c k true, execWriteAck c k false]

/-- Events of a core's units. -/
def unitEvents (c : Nat) : List Event :=
  [execTaskDispatch c, execServiceDispatch c, execAtomicAtOwner c, execSubByteMerge c, execImemWindowStore c, execBounceRetry c, execAccumulatorZeroing c,
   execMma c, execMmas c, execAccz c, execAccl c, execAccs c, execAccmCopy c, execAccmAdd c, execAccmTranspose c, execMatrixCompletion c, execEngineReportUnblock c,
   execCbfullDeadlockAbort c]
  ++ [0, 1, 2, 3].flatMap fun ch => [execCopyChunk c ch, execCopyCompletion c ch]

/-- Events of a core. -/
def coreEvents (c : Nat) (k : Core) : List Event :=
  k.slots.flatMap (fun e => slotEvents c e.1 e.2) ++ (upto k.flight.length).flatMap (flightEvents c)
    ++ (upto k.deferred.length).map (fun j => execDeferExpiry c j) ++ unitEvents c

/-- Events of the message plane. -/
def netEvents (k : Nat) : List Event :=
  [execTaskMessageArrival k, execBounceArrival k, execSpawnAtTarget k, execRdxReadAtOwner k, execRdxDelivery k, execMemoryRequestAtHome planeCore k,
   execServiceMessageArrival planeCore k, execReductionEntry planeCore k]

/-- The reply that a supervisor task gave. -/
def replyEvent (r : Reply) : Event :=
  if r.code = 1 then execResume r.core r.slot else if r.code = 2 then execSkip r.core r.slot else execKill r.core r.slot

/-- Events of a partition. -/
def partEvents (p : Nat) (k : Partition) : List Event :=
  [execSupervisorDispatch p, execTrapQueueWaitEnd p, execDebugHalt k.ctx, execContextSave p, execTestSliceEnd p [], execContextRestore p 0,
   execStreamConfigure p, execStreamRelease p]
  ++ k.replies.map replyEvent ++ k.cow.map (fun g => execCopyOnWriteComplete p g)
  ++ k.migrating.map (fun e => execPageMigrationComplete p e.1)

/-- Events of a launch. -/
def launchEvents (ctx lid : Nat) (cores clusters : List Nat) (k : Launch) : List Event :=
  if k.stage = .done then []
  else [execLaunchRelease ctx lid, execLaunchDone ctx lid, execTrrdGenerationClose ctx lid, execTrmcDelivery ctx lid]
    ++ (if k.stage = .releasing then cores.map (fun c => execReleaseImageLoad ctx lid c) ++ clusters.map (fun c => execReleaseMessage ctx lid c)
        else [])

/-- The rings of a context in the order of the front end's visits: by number, from the one after the ring that was served last (03 R41). -/
def Ctx.ringOrder (x : Ctx) : List Nat :=
  let l := sortBy id (x.rings.map (·.1))
  l.filter (fun n => decide (x.turn < n)) ++ l.filter fun n => decide (n ≤ x.turn)

/-- Events of a context. -/
def State.ctxEvents (s : State) (ctx : Nat) (x : Ctx) : List Event :=
  match s.residentIn? ctx with
  | none => []
  | some p =>
    let k := s.part p
    x.ringOrder.map (fun r => execRingVisit ctx r) ++ x.launches.flatMap fun e => launchEvents ctx e.1 k.cores k.clusters e.2

/-- Events of the fabric. -/
def Fabric.events (f : Fabric) : List Event :=
  f.out.map (fun e => execE2eTimerExpiry e.1)
    ++ f.streams.flatMap (fun e => execStreamMarker e.1 :: (upto 25).map fun p => execStreamWord e.1 p)
    ++ (if f.slotPending.isEmpty then [] else [execMemoryPlaneFrame]) ++ [fun s => event State.guestRound s, fun s => event State.crossPlane s]


/-- All events of the device itself, but the rounds and the service slots' turns: those of each core, cluster, line, partition and context together. -/
def State.ownEvents (s : State) : List (List Event) :=
  s.cores.map (fun e => coreEvents e.1 e.2)
    ++ s.clusters.map (fun e => (upto e.2.tasks.length).map fun k => execCompletionTaskAccept e.1 k)
    ++ [(upto s.net.length).flatMap netEvents]
    ++ (s.lines.filter fun e => e.2.moving.isSome).map (fun e => [execForwardingEntryInstall e.1])
    ++ (s.lines.filter fun e => e.2.scrub).map (fun e => [execScrub e.1])
    ++ s.parts.map (fun e => partEvents e.1 e.2) ++ s.ctxs.map (fun e => s.ctxEvents e.1 e.2) ++ [s.fabric.events]

/-- A list from its `k`-th element round. -/
def turned {α : Type} (k : Nat) (l : List α) : List α :=
  let n := k % l.length
  l.drop n ++ l.take n

/-- The event changes the state. -/
def State.effective (s : State) (j : Event) : Bool :=
  match j s with
  | .next t => decide (t ≠ s)
  | _ => false

/-- The instruction of the current slot issues. -/
def State.issueNow (s : State) : Host.Outcome State Fault Refusal :=
  match s.nextInstr with
  | (s, .ok j) => exec j s
  | (s, .error a) => event (State.fetchTrap a) s

/-- A slot whose turn it is issues its instruction; slot 0 runs the handler of its service message. -/
def State.issueSlot (s : State) (c n : Nat) : Host.Outcome State Fault Refusal :=
  if n = 0 then event (fun s => s.serveTurn c) s
  else
    match (s.select c n).issueNow with
    | .next t => .next (t.afterIssue c n)
    | x => x

/-- A move of the agenda. -/
def State.move (s : State) : Move → Host.Outcome State Fault Refusal
  | .event j => if isEvent j then exec j s else .next s
  | .issue c n => if s.turnAt? c = some n then s.issueSlot c n else .next s
  | .debug c n => if s.stepped c n then (s.select c n).issueNow else .next s
  | .evict c ln => event (fun s => s.evictL1 c ln) s
  | .evictHome ln => event (fun s => s.evictHome ln) s
  | .evictPartial ln src => event (fun s => s.evictPartial ln src) s

/-- The first of the device's own events that has an effect; the units take turns, and the events of one keep their order. -/
def State.own? (s : State) : Option Event := ((turned (s.time + s.evs) s.ownEvents).flatMap id).find? s.effective

/-- An instance whose round is at its end. -/
def State.dueRound? (s : State) : Option Inst := s.insts.find? s.roundDue

/-- Each core that can issue does so; when none can, the count of TIME ends. -/
def State.issueTurn (s : State) : Host.Outcome State Fault Refusal :=
  match s.turn? with
  | some (c, n) => s.issueSlot c n
  | none => .next (({ s with evs := 0 }).pass 1)

/-- What the machine does with nothing on the agenda: rounds that are at their end go first; then, in each count of TIME, at most 32
of the device's own events take place and every core that can issue does so once, one a step (log entry 11). -/
def State.proceed (s : State) : Host.Outcome State Fault Refusal :=
  match s.dueRound? with
  | some i => execMortarRound i s
  | none =>
    if s.evs < 32 then
      match s.own? with
      | some j => j { s with evs := s.evs + 1 }
      | none => s.issueTurn
    else s.issueTurn

end Machine
end Sys2Proof
end

