-- ==== Sys2Proof/Machine/Step.lean ====
section
/-! DEFINITION. One step of the machine, and a state in which a given instruction is the next to issue. -/

namespace Sys2Proof
namespace Machine

/-- One step: the cycles that the oracle lets pass; then the first move of the agenda, or what the machine does of itself (log
entry 11). -/
def step (s : State) : Host.Outcome State Fault Refusal :=
  let s := s.tick
  match s.agenda with
  | m :: rest => State.move { s with agenda := rest } m
  | [] => s.proceed

/-- Bytes placed in an IMEM from an offset on. -/
def placeBytes (m : Tbl Byte) (a : Nat) (bs : List Byte) : Tbl Byte :=
  bs.zipIdx.foldl (fun m e => Tbl.put 0 m (a + e.2) e.1) m

/-- The state with an instruction at the program counter of slot 1 of core 0, which runs a task with no launch; the agenda
says that it issues next (log entry 11). -/
def State.withFetchWord (s : State) (nbits w : Nat) : State :=
  let k := s.core 0
  let t : Slot := { k.slot 1 with running := true, pc := { carried := false, off := 160 }, budg := 65536, wait := .none, follow := none, stream := [] }
  let k := { (k.setSlot 1 t) with imem := placeBytes k.imem 320 (leBytes (nbits / 8) w ++ leBytes 4 0), last := 0, next := 0, tried := [], halted := false }
  { s.setCore 0 k with agenda := [.issue 0 1], ticks := [] }

end Machine
end Sys2Proof
end

