-- ==== Sys2Proof/Safety.lean ====
section
/-! DEFINITION. What the statements about this machine are said in: when an instruction issues, what it does when it takes its
effect, what an event leaves alone, and the invariant of a step (06_issuing.md R99, R100, R102; 07 R118). -/

namespace Sys2Proof
namespace Safety

open Machine

/-! ## Outcomes -/

/-- A meaning answers a next state, and the property holds of it. -/
def Answers (o : Host.Outcome State Fault Refusal) (P : State → Prop) : Prop := ∃ t, o = .next t ∧ P t

/-! ## Instructions -/

/-- The current slot runs a task, no step is under way, and the checks before the instruction's own pass (06 R102, R100;
05 R85). -/
structure Ready (j : Instr) (s : State) : Prop where
  fresh : s.wr = []
  running : s.cur.running = true
  checks : preIssue s j = .ok ()

/-- The signature check that a taken transfer makes fails (05 R93 rule 3). -/
def sigStops (s : State) (j : Instr) (nx : Next) : Bool :=
  feeds s.cur && takenBy s.cur j nx && sigBad s.cur (crcAfter s.cur j)

/-- The trap of a failed check: TADDR is the CRC that was found (05 R93 rule 4; 22 R312). -/
def sigTrap (s : State) (j : Instr) : Stop := .trap Cause.signature (some (BitVec.ofNat 64 (crcAfter s.cur j).toNat))

/-- From a state `s` in which an instruction issues, and the state `u` that its own effect gives, what the step leaves: the
bytes written enter memory; the slot's program counter, counted loop, signature and windows move on; a slot of another core of
the cluster that follows this one hears of the instruction; nothing else changes. -/
structure Retires (s : State) (j : Instr) (u : State) (nx : Next) (t : State) : Prop where
  mem : t.mem = Memory.writeAll s.mem u.wr
  settled : t.wr = []
  platform : t.plat = s.plat
  rest : { t with mem := u.mem, wr := u.wr, plat := u.plat, cores := u.cores } = u
  core : ∀ c, { t.core c with slots := (u.core c).slots } = u.core c
  slot : ∃ f st, t.slot s.curCore s.curSlot =
    { slotAfter s.cur j nx (u.slot s.curCore s.curSlot) with follow := f, stream := st }
  alone : (u.slot s.curCore s.curSlot).follow = none →
    t.slot s.curCore s.curSlot = slotAfter s.cur j nx (u.slot s.curCore s.curSlot)
  others : ∀ c n, (c, n) ≠ (s.curCore, s.curSlot) → ∃ w f st a, t.slot c n =
    { u.slot c n with wait := w, follow := f, stream := st, armed := a }
  apart : ∀ c n, n ≠ s.curSlot ∨ clusterOf c ≠ clusterOf s.curCore → (c, n) ≠ (s.curCore, s.curSlot) → t.slot c n = u.slot c n

/-- The instruction answers the next state that its effect `u` and what follows it give. -/
def Does (j : Instr) (s u : State) (nx : Next) : Prop := Answers (exec j s) (Retires s j u nx)

/-- The instruction stops without its effect: it traps, or it waits and issues again. -/
def Halts (j : Instr) (s : State) (e : Stop) : Prop :=
  Answers (exec j s) fun t => t = State.settleMem { s.stopAt j e with mem := s.mem, plat := s.plat }

/-! ## Destinations (01 R21; 05 R80; 06 R103) -/

/-- A write of the register takes place: it is no port that cannot be written, and the outbound builder has room. -/
def settable (s : State) (d : Reg) : Bool :=
  d != 28 && d != 30 && d != 31 && (d != 29 || decide (s.cur.qbld.length < 256))

/-- SetG(d, x): g0 discards, g29 appends a word to the outbound builder, every other register takes the value. -/
def putG (s : State) (d : Reg) (x : W64) : State :=
  if d = 0 then s
  else if d = 29 then s.modCur fun t => { t with qbld := t.qbld ++ [x] }
  else s.modCur fun t => { t with g := Tbl.put 0 t.g d.toNat x }

/-! ## Values of the integer instructions, by the tables of 07 -/

/-- 1 when the condition holds, else 0. -/
def one (p : Prop) [Decidable p] : W64 := if p then 1 else 0

/-- Numbers below 64 with a property. -/
def count64 (p : Nat → Bool) : W64 := BitVec.ofNat 64 ((List.range 64).filter p).length

/-- x of R113 for A and B: destination, sources and function of the two-source operations, compact forms by R81. -/
def aluForm : Instr → Option (Reg × Reg × Reg × (W64 → W64 → W64))
  | .add d a b => some (d, a, b, fun x y => BitVec.ofNat 64 (x.toNat + y.toNat))
  | .sub d a b => some (d, a, b, fun x y => BitVec.ofInt 64 (x.toInt - y.toInt))
  | .andOp d a b => some (d, a, b, fun x y => x &&& y)
  | .orOp d a b => some (d, a, b, fun x y => x ||| y)
  | .xorOp d a b => some (d, a, b, fun x y => x ^^^ y)
  | .andn d a b => some (d, a, b, fun x y => x &&& ~~~y)
  | .shl d a b => some (d, a, b, fun x y => if y.toNat < 64 then BitVec.ofNat 64 (x.toNat * 2 ^ y.toNat) else 0)
  | .shr d a b => some (d, a, b, fun x y => if y.toNat < 64 then BitVec.ofNat 64 (x.toNat / 2 ^ y.toNat) else 0)
  | .sha d a b => some (d, a, b, fun x y => BitVec.ofInt 64 (x.toInt / 2 ^ Nat.min y.toNat 63))
  | .rol d a b => some (d, a, b, fun x y => (x <<< (y.toNat % 64)) ||| (x >>> (64 - y.toNat % 64)))
  | .min d a b => some (d, a, b, fun x y => if x.toInt ≤ y.toInt then x else y)
  | .max d a b => some (d, a, b, fun x y => if x.toInt ≤ y.toInt then y else x)
  | .minn d a b => some (d, a, b, fun x y => if x.toNat ≤ y.toNat then x else y)
  | .maxn d a b => some (d, a, b, fun x y => if x.toNat ≤ y.toNat then y else x)
  | .slt d a b => some (d, a, b, fun x y => one (x.toInt < y.toInt))
  | .sltn d a b => some (d, a, b, fun x y => one (x.toNat < y.toNat))
  | .seq d a b => some (d, a, b, fun x y => one (x = y))
  | .cMv d a => some (d, a, 0, fun x y => BitVec.ofNat 64 (x.toNat + y.toNat))
  | .cAdd d b => some (d, d, b, fun x y => BitVec.ofNat 64 (x.toNat + y.toNat))
  | .cSub d b => some (d, d, b, fun x y => BitVec.ofInt 64 (x.toInt - y.toInt))
  | .cAnd d b => some (d, d, b, fun x y => x &&& y)
  | _ => none

/-- x of R113, R115 and R116 for A: the operations with one source register, compact forms by R81. -/
def unaryForm : Instr → Option (Reg × Reg × (W64 → W64))
  | .clz d a => some (d, a, fun x => count64 fun i => decide (x.toNat < 2 ^ i))
  | .ctz d a => some (d, a, fun x => count64 fun i => decide (x.toNat % 2 ^ (i + 1) = 0))
  | .popc d a => some (d, a, fun x => count64 fun i => x.getLsbD i)
  | .bfx d a p w => some (d, a, fun x => (x.extractLsb' p.toNat (w.toNat + 1)).zeroExtend 64)
  | .bfxs d a p w => some (d, a, fun x => (x.extractLsb' p.toNat (w.toNat + 1)).signExtend 64)
  | .addi d a k => some (d, a, fun x => BitVec.ofInt 64 (x.toInt + k.toInt))
  | .andi d a k => some (d, a, fun x => x &&& BitVec.ofInt 64 k.toInt)
  | .ori d a k => some (d, a, fun x => x ||| BitVec.ofInt 64 k.toInt)
  | .xori d a k => some (d, a, fun x => x ^^^ BitVec.ofInt 64 k.toInt)
  | .shli d a k => some (d, a, fun x => BitVec.ofNat 64 (x.toNat * 2 ^ k.toNat))
  | .shri d a k => some (d, a, fun x => BitVec.ofNat 64 (x.toNat / 2 ^ k.toNat))
  | .shai d a k => some (d, a, fun x => BitVec.ofInt 64 (x.toInt / 2 ^ k.toNat))
  | .slti d a k => some (d, a, fun x => one (x.toInt < k.toInt))
  | .cAddi d k => some (d, d, fun x => BitVec.ofInt 64 (x.toInt + k.toInt))
  | .cShli d k => some (d, d, fun x => BitVec.ofNat 64 (x.toNat * 2 ^ k.toNat))
  | _ => none

/-- x of R114 for A and B, and the lookahead. -/
def mulForm : Instr → Option (Reg × Reg × Reg × BitVec 4 × (W64 → W64 → W64))
  | .mul d a b la => some (d, a, b, la, fun x y => BitVec.ofNat 64 (x.toNat * y.toNat))
  | .mulh d a b la => some (d, a, b, la, fun x y => BitVec.ofInt 64 (x.toInt * y.toInt / 2 ^ 64))
  | .mulhn d a b la => some (d, a, b, la, fun x y => BitVec.ofNat 64 (x.toNat * y.toNat / 2 ^ 64))
  | .div d a b la => some (d, a, b, la, fun x y =>
      if y = 0 then 0xFFFFFFFFFFFFFFFF#64
      else if x.toInt = -2 ^ 63 ∧ y.toInt = -1 then x else BitVec.ofInt 64 (x.toInt.tdiv y.toInt))
  | .divn d a b la => some (d, a, b, la, fun x y => if y = 0 then 0xFFFFFFFFFFFFFFFF#64 else BitVec.ofNat 64 (x.toNat / y.toNat))
  | .rem d a b la => some (d, a, b, la, fun x y =>
      if y = 0 then x else if x.toInt = -2 ^ 63 ∧ y.toInt = -1 then 0 else BitVec.ofInt 64 (x.toInt.tmod y.toInt))
  | .remn d a b la => some (d, a, b, la, fun x y => if y = 0 then x else BitVec.ofNat 64 (x.toNat % y.toNat))
  | _ => none

/-- Condition of R119 on D and A, with both sources and the offset; compact forms by R81. -/
def branchForm : Instr → Option (Reg × Reg × Int × (W64 → W64 → Prop))
  | .beq d a off => some (d, a, off.toInt, fun x y => x = y)
  | .bne d a off => some (d, a, off.toInt, fun x y => x ≠ y)
  | .blt d a off => some (d, a, off.toInt, fun x y => x.toInt < y.toInt)
  | .bge d a off => some (d, a, off.toInt, fun x y => y.toInt ≤ x.toInt)
  | .bltn d a off => some (d, a, off.toInt, fun x y => x.toNat < y.toNat)
  | .bgen d a off => some (d, a, off.toInt, fun x y => y.toNat ≤ x.toNat)
  | .cBeqz d off => some (BitVec.ofNat 5 (8 + d.toNat), 0, off.toInt, fun x y => x = y)
  | .cBnez d off => some (BitVec.ofNat 5 (8 + d.toNat), 0, off.toInt, fun x y => x ≠ y)
  | _ => none

/-! ## Control (05 R77, R93; 06 R100, R109; 07 R118 to R122) -/

/-- The routine address of a place of code: bit 15 says carried code. -/
def routine (pc : Pc) : Nat := (if pc.carried then 32768 else 0) + pc.off

/-- The instruction waits for the result: it comes after the result's window, or waits for every result (06 R100 cases 2 and 6). -/
def Due (s : State) (j : Instr) (p : Pending) : Prop := isCommit s j = true ∨ p.left = 0

/-- Every long-latency result of the slot has arrived and none brought a fault. -/
def ResultsIn (s : State) : Prop := ∀ p ∈ s.cur.pend, p.arrived = true ∧ p.bad = none

/-- A commit point of the slot need not wait before its drain: results, confirmation of its pairs under containment confirm, the
plumb check of a pair (07 R122; 17 R270; 24 R337). -/
structure MayHandOn (s : State) : Prop where
  results : ResultsIn s
  fresh : s.cur.handed = false
  confirmed : s.cur.taint = true → s.eager s.cur.launch = true
  plumbed : s.paired s.curCore s.curSlot = true → s.cur.checked = true

/-- The drain of the current slot. -/
def handsOn (s : State) : State := s.handOn s.curCore s.curSlot

/-- A commit point of the slot need not wait at all: its stores to the core's own memory are performed with the drain (14 R245 case
4). -/
structure MayDrain (s : State) : Prop extends MayHandOn s where
  performed : (handsOn s).ownOpen s.curCore s.curSlot = false

/-- CommitPoint() is complete: the task is no longer replayable, and the operands that the drain kept are gone. -/
def complete (s : State) : State := s.modCur fun t => { t with repl := false, handed := false, opnds := [] }

/-- CommitPoint(): the drain, and the task is no longer replayable. -/
def committed (s : State) : State := complete (handsOn s)

/-- The operands `l` of an instruction that is a commit point of its own, and the state after it has them: read, and popped, when it issues
(01 R9; 05 R80), and kept while its drain waits. -/
def Operands (s : State) (reads : State → List W64 → Prop) (l : List W64) (u : State) : Prop :=
  (s.cur.handed = false ∧ ∃ v, reads v l ∧ u = v.modCur fun t => { t with opnds := l }) ∨
    (s.cur.handed = true ∧ s.cur.opnds = l ∧ u = s)

/-- CommitPoint() of an instruction goes through, and leaves `u`: its drain needs no wait, or has waited and is done. -/
def Commits (s u : State) : Prop :=
  (MayDrain s ∧ u = committed s) ∨ (s.cur.handed = true ∧ s.ownOpen s.curCore s.curSlot = false ∧ u = complete s)

/-- CommitPoint() of an instruction waits: its drain has handed the entries on, and a store to the core's own memory is not performed
(14 R245 case 4). -/
def Commits.waits (s : State) : Prop := MayHandOn s ∧ (handsOn s).ownOpen s.curCore s.curSlot = true

/-- SigCheck passed: the running block ends. -/
def sigDone (s : State) (j : Instr) : State :=
  if feeds s.cur then s.modCur fun t => { t with crc := crcAfter s.cur j, armed := false } else s

/-- The mark of an FNC with .sl and without .ss: it waits only behind a store that is not performed (08 R136). -/
def loadMark (e : Entry) : Bool := e.fenceSl && !e.fenceSs

/-- The drain hands the entry on in any case; a store to the core's own memory, and the mark of an FNC.sl without .ss, is handed on only
while it must wait, and what else is not handed on says nothing outside the core (06 R109; 14 R245). -/
def handedOn (c : Nat) (e : Entry) : Bool :=
  match e.act with
  | .tile _ _ _ => false
  | .mxRelease _ => false
  | .cpRelease _ => false
  | .store _ => !e.own c
  | .fence => decide (e.order = .rel ∨ e.order = .sc)
  | _ => true

/-- SIG and its forms: the signature and whether the form is short (05 R94; 07 R124). -/
def sigForm : Instr → Option (Half × Bool)
  | .sig x => some (x, false)
  | .sigShort x => some (BitVec.ofNat 16 x.toNat, true)
  | .cSig x => some (BitVec.ofNat 16 x.toNat, true)
  | _ => none

/-- The task is an ordinary one: its slot is no supervisor slot, and it is no task of a pair (24 R335). -/
def plainTask (s : State) : Bool :=
  !s.privileged s.curCore s.curSlot && (s.primaryOf? s.curCore).isNone && (s.mirrorOf? s.curCore).isNone

/-! ## Taking a trap (22 R314, R315; 06 R106) -/

/-- Four steps of R314 for a trap in slot `n` of core `c`, from `s` to `t`: the task has aborted, its registers g, v and m as
they were and its control registers restored; a replayable task's message is back at the head of its level, held; the record
enters the partition's trap queue; the slot is parked. No byte of memory changes. -/
structure Trapped (s : State) (c n p cause code : Nat) (addr : W64) (t : State) : Prop where
  parked : (t.slot c n).parked = true ∧ (t.slot c n).running = false
  tcause : (t.slot c n).tcause = BitVec.ofNat 64
    ((if (s.slot c n).repl then 0 else 2 ^ 32) + code % 65536 * 2 ^ 16 + n % 256 * 256 + cause % 256)
  taddr : (t.slot c n).taddr = addr
  registers : (t.slot c n).g = (s.slot c n).g ∧ (t.slot c n).v = (s.slot c n).v ∧ (t.slot c n).m = (s.slot c n).m
  restored : (t.slot c n).regs = (s.slot c n).saved
  discarded : (t.slot c n).buf = [] ∧ (t.slot c n).pend = [] ∧ (t.slot c n).qbld = [] ∧ (t.slot c n).qpos = 0 ∧
    (t.slot c n).bound = none ∧ (t.slot c n).armed = false ∧ (t.slot c n).staged = [] ∧
    (t.slot c n).lact = false ∧ (t.slot c n).lc = 0 ∧ (t.slot c n).ls = 0 ∧ (t.slot c n).le = 0
  message : (s.slot c n).repl = true → ∀ m, (s.slot c n).msg = some m → ∃ off, (t.core c).runq =
    enqueueHead (s.core c).runq { msg := { m with held := true, tcause := (t.slot c n).tcause, taddr := addr }, off := off }
  consumed : (s.slot c n).repl = false → (t.core c).runq = (s.core c).runq
  posted : ∃ r, (t.part p).trapq = enterRec r (s.part p).trapq ∧ r.core = c ∧ r.slot = n ∧ r.launch = (s.slot c n).launch ∧
    r.at_ = s.time ∧
    r.w0 = BitVec.ofNat 64 (2 ^ 62 + (if (s.slot c n).repl then 0 else 2 ^ 59) + n % 8 * 2 ^ 56 + cause % 256 * 2 ^ 48
      + code % 65536 * 2 ^ 32 + (s.slot c n).msgid.toNat) ∧
    r.w1 = BitVec.ofNat 64 (routine (s.slot c n).pc % 65536 * 2 ^ 48 + (s.placeWord c).toNat % 2 ^ 38) ∧
    r.w2 = addr ∧ r.w3 = 0
  memory : t.mem = s.mem ∧ t.wr = s.wr
  others : ∀ d m, (d, m) ≠ (c, n) → clusterOf d ≠ clusterOf c ∨ m ≠ n → t.slot d m = s.slot d m

/-! ## Memory instructions (08 R134, R135, R140 to R142; 05 R81) -/

/-- A register of the compact forms: g8 to g15. -/
def compactReg (r : BitVec 3) : Reg := BitVec.ofNat 5 (8 + r.toNat)

/-- LD: destination, base, lookahead, offset in bytes, size, signed. -/
def loadForm : Instr → Option (Reg × Reg × Nat × Int × Nat × Bool)
  | .ldB d a la off => some (d, a, la.toNat, off.toInt, 1, false)
  | .ldH d a la off => some (d, a, la.toNat, off.toInt * 2, 2, false)
  | .ldW d a la off => some (d, a, la.toNat, off.toInt * 4, 4, false)
  | .ldD d a la off => some (d, a, la.toNat, off.toInt * 8, 8, false)
  | .ldBS d a la off => some (d, a, la.toNat, off.toInt, 1, true)
  | .ldHS d a la off => some (d, a, la.toNat, off.toInt * 2, 2, true)
  | .ldWS d a la off => some (d, a, la.toNat, off.toInt * 4, 4, true)
  | .cLd d a off => some (compactReg d, compactReg a, 0, off.toNat * 8, 8, false)
  | _ => none

/-- ST: data register, base, offset in bytes, size. -/
def storeForm : Instr → Option (Reg × Reg × Int × Nat)
  | .stB d a off => some (d, a, off.toInt, 1)
  | .stH d a off => some (d, a, off.toInt * 2, 2)
  | .stW d a off => some (d, a, off.toInt * 4, 4)
  | .stD d a off => some (d, a, off.toInt * 8, 8)
  | .cSt d a off => some (compactReg d, compactReg a, off.toNat * 8, 8)
  | _ => none

/-- G(a) plus an offset in bytes. -/
def address (x : W64) (off : Int) : W64 := BitVec.ofInt 64 (x.toNat + off)

/-- The number of `n` bytes of a reply, sign-extended or not. -/
def numberOf (n : Nat) (sgn : Bool) (bs : List Byte) : W64 :=
  let v := leVal (bs.take n)
  if sgn ∧ 2 ^ (8 * n - 1) ≤ v then BitVec.ofInt 64 ((v : Int) - 2 ^ (8 * n)) else BitVec.ofNat 64 v

/-- The task's own buffered bytes over what memory holds (06 R108). -/
def overlaid (s : State) (loc : Loc) (n : Nat) (bs : List Byte) : List Byte :=
  (bufferedOver s.cur.buf loc n).foldl (fun l b => modifyAt (fun old => mergeNib b old) b.pos l) bs

/-- A task may read a place now: none of its earlier acquires is pending, and no drained write that goes before is still to
be performed (14 R243, R245, R246). -/
def mayRead (s : State) (loc : Loc) (n : Nat) : Bool := !acquirePending s.cur && !mustWait s loc n

/-- What an LDS acquires: its scope's number + 1; of a channel's status word at every scope more than the core's own (12 R224). -/
def acquires (loc : Loc) (sc : BitVec 2) : Nat :=
  match loc with
  | .status _ _ => Nat.max 2 (sc.toNat + 1)
  | _ => sc.toNat + 1

/-- The state and number of a read that a load makes next. -/
def asks (s : State) : State := (s.nextReq s.curCore).2
def askNum (s : State) : Nat := (s.core s.curCore).reqs

/-- A result with one register that a read of `n` bytes gives, in the two ways a read can go: the bytes are there, or the reply
comes later under the number of the read (08 R134; 06 R100). -/
def readResult (s : State) (p : Pending) (ea : W64) (loc : Loc) (n : Nat) (shape : Shape) : Option (List Byte) → Pending
  | some bs => { p.fill shape (overlaid s loc n bs) with ready := true }
  | none => { p with want := [⟨askNum s, ea, n, shape, bufferedOver s.cur.buf loc n, none⟩], ready := false }

/-- The current task's store of `n` low bytes of a value enters the commit buffer. -/
def stores (s : State) (ea : W64) (loc : Loc) (n v : Nat) (order : Order) (sc : Scope) : Except Stop State :=
  addEntry s ea loc order sc (.store (fullBytes (leBytes n v)))

/-- The entry that an instruction of the current task buffers. -/
def theEntry (s : State) (ea : W64) (loc : Loc) (order : Order) (sc : Scope) (act : Act) : Entry :=
  newEntry (asks s) (askNum s) ea loc order sc act

/-- The buffer has room for an entry: 256 sectors and 8 tile entries of the task, and the pool beyond its guarantee (06 R107). -/
def Room (s : State) (e : Entry) : Prop :=
  sectors (s.cur.buf ++ [e]) ≤ 256 ∧ tiles (s.cur.buf ++ [e]) ≤ 8 ∧
    (poolShare s.cur.buf < poolShare (s.cur.buf ++ [e]) →
      poolUsed (s.core s.curCore) - poolShare s.cur.buf + poolShare (s.cur.buf ++ [e]) ≤ 576)

/-! ## The engines' queues (11 R196; 12 R214) -/

/-- The task of a slot is among owners of queue entries that a trap ENGQ may go to: replayable, where some owner is. -/
def mayYield (s : State) (own : List Nat) (n : Nat) : Prop :=
  n ∈ own ∧ ((∃ m ∈ own, (s.slot s.curCore m).repl = true) → (s.slot s.curCore n).repl = true)

/-- It is the one of them that was dispatched last. -/
def lastOwner (s : State) (own : List Nat) (n : Nat) : Prop :=
  mayYield s own n ∧ ∀ m, mayYield s own m → m ≠ n → (s.slot s.curCore m).task < (s.slot s.curCore n).task

/-- It is not: another was dispatched later, or is replayable where it is not. -/
def laterOwner (s : State) (own : List Nat) (n : Nat) : Prop :=
  ∃ m, mayYield s own m ∧ ((s.slot s.curCore n).task < (s.slot s.curCore m).task ∨
    ((s.slot s.curCore m).repl = true ∧ (s.slot s.curCore n).repl = false))

/-! ## Walkers (04 R58 to R74) -/

/-- The core of the current slot is none of a pair of gangs (04 R60). -/
def unpaired (s : State) : Prop := s.primaryOf? s.curCore = none ∧ s.mirrorOf? s.curCore = none

/-- The walker of the current task: cluster, place in the CNI, walker and launch record. -/
def HasWalker (s : State) (k n : Nat) (w : Walker) (r : BitVec 1024) : Prop :=
  s.myWalker? = some ((k, n, w), r) ∧ Tbl.get? (s.cluster k).walkers n = some w

/-- The value that says that there is no tile, or no walker. -/
def allOnes : W64 := 0xFFFFFFFFFFFFFFFF#64

/-- A result word of CLV: code, victim, number moved (04 R71). -/
def clvResult (code victim moved : Nat) : W64 := BitVec.ofNat 64 (code * 2 ^ 60 + victim % 256 * 2 ^ 32 + moved % 2 ^ 28)

/-- A word of a walker: word 0 its state, word 1 its window (04 R62, R63). -/
def walkerWord (w : Walker) (word : W64) : W64 :=
  if word = 0 then BitVec.ofNat 64 (w.gen % 256 * 2 ^ 56 + w.hi % 2 ^ 28 * 2 ^ 28 + w.lo % 2 ^ 28)
  else BitVec.ofNat 64 (w.num % 256 * 2 ^ 32 + (w.count - 1) % 256 * 2 ^ 24 + w.ret.length % 512 * 2 ^ 8 + w.taken.toNat)

/-- After a take of the place `j` of its window the walker `w` counts the index `i` as taken: it was marked taken, it is the one taken, or
behind the window it lies beyond the range or outside the launch's space (04 R61). -/
def passedOver (r : BitVec 1024) (w : Walker) (j i : Nat) : Prop :=
  if i < w.lo + 8 then w.taken.getLsbD (i - w.lo) = true ∨ i = w.lo + j else w.hi ≤ i ∨ Rec.inSpace r i = false

/-- The walker that a take of the place `j` of its window leaves: its range begins at the next index that is not taken, its window says
of each index there whether it is, and nothing else changes (04 R61, R64). -/
def Slid (r : BitVec 1024) (w : Walker) (j : Nat) (v : Walker) : Prop :=
  { v with lo := w.lo, taken := w.taken } = w ∧ w.lo ≤ v.lo ∧ v.lo ≤ w.hi ∧ (∀ i, w.lo ≤ i → i < v.lo → passedOver r w j i) ∧
    (v.lo = w.hi → v.taken = 0xFF#8) ∧
    (v.lo < w.hi → ¬ passedOver r w j v.lo ∧ ∀ b < 8, v.taken.getLsbD b = true ↔ passedOver r w j (v.lo + b))

/-- A take of the current task, of a launch with record `r`, gives `v` and leaves `u` (04 R64): the first returned index goes first; else an
untaken index of the window, from which the walker slides on; from an empty walker nothing. -/
def Takes (s : State) (k n : Nat) (w : Walker) (r : BitVec 1024) (u : State) (v : W64) : Prop :=
  match w.ret with
  | i :: q => v = BitVec.ofNat 64 (i % 2 ^ 28) ∧ Tbl.get? (u.cluster k).walkers n = some { w with ret := q } ∧
      ∃ e, u.cur.buf = s.cur.buf ++ [e] ∧ e.act = .tile k n (i % 2 ^ 28)
  | [] =>
    if w.lo = w.hi then v = allOnes ∧ u = (s.nextFree.2).setWalker k n w
    else ∃ j e w', j < 8 ∧ w.taken.getLsbD j = false ∧ v = BitVec.ofNat 64 ((w.lo + j) % 2 ^ 28) ∧
      u.cur.buf = s.cur.buf ++ [e] ∧ e.act = .tile k n ((w.lo + j) % 2 ^ 28) ∧
      Tbl.get? (u.cluster k).walkers n = some w' ∧ (w.lo < w.hi → Slid r w j w')

/-- The walker has something to take where its range is not empty: a returned index or an untaken one in its window (04 R61). -/
def windowOpen (w : Walker) : Prop := w.ret = [] → w.lo ≠ w.hi → ∃ j < 8, w.taken.getLsbD j = false

/-! ## Vector instructions (10 R176 to R183; 05 R84) -/

/-- Lane width of a lane code. -/
def laneWidth (lane : BitVec 2) : Nat := 4 * 2 ^ lane.toNat

/-- A lane of `w` bits as signed number. -/
def signedLane (w a : Nat) : Int := if 2 ^ (w - 1) ≤ a then (a : Int) - 2 ^ w else a

/-- A number modulo 2^w. -/
def wrapLane (w : Nat) (z : Int) : Nat := (z % 2 ^ w).toNat

/-- The integer operations of R182 and R183 on lanes `x` and `y` below 2^w: destination, sources, mask, zeroing, width, result. -/
def laneForm : Instr → Option (Reg × Reg × Reg × BitVec 3 × BitVec 1 × Nat × (Nat → Nat → Nat → Nat))
  | .vadd d a b mk zr ln => some (d, a, b, mk, zr, laneWidth ln, fun w x y => wrapLane w (x + y))
  | .vsub d a b mk zr ln => some (d, a, b, mk, zr, laneWidth ln, fun w x y => wrapLane w ((x : Int) - y))
  | .vmul d a b mk zr ln => some (d, a, b, mk, zr, laneWidth ln, fun w x y => wrapLane w (x * y))
  | .vmulh d a b mk zr ln => some (d, a, b, mk, zr, laneWidth ln, fun w x y => wrapLane w (signedLane w x * signedLane w y / 2 ^ w))
  | .vmin d a b mk zr ln => some (d, a, b, mk, zr, laneWidth ln, fun w x y => if signedLane w x ≤ signedLane w y then x else y)
  | .vmax d a b mk zr ln => some (d, a, b, mk, zr, laneWidth ln, fun w x y => if signedLane w x ≤ signedLane w y then y else x)
  | .vand d a b mk zr => some (d, a, b, mk, zr, 32, fun _ x y => x &&& y)
  | .vor d a b mk zr => some (d, a, b, mk, zr, 32, fun _ x y => x ||| y)
  | .vxor d a b mk zr => some (d, a, b, mk, zr, 32, fun _ x y => x ^^^ y)
  | .vshl d a b mk zr ln => some (d, a, b, mk, zr, laneWidth ln, fun w x y => if y < w then x * 2 ^ y % 2 ^ w else 0)
  | .vshr d a b mk zr ln => some (d, a, b, mk, zr, laneWidth ln, fun w x y => if y < w then x / 2 ^ y else 0)
  | .vsha d a b mk zr ln => some (d, a, b, mk, zr, laneWidth ln, fun w x y => wrapLane w (signedLane w x / 2 ^ Nat.min y (w - 1)))
  | _ => none

/-- The operations of R178 that round, on the exact values of lanes of va, vb and vd, under a rounding mode. -/
def floatForm : Instr → Option (Reg × Reg × Reg × BitVec 3 × BitVec 1 × (Nat → Val → Val → Val → Val))
  | .vfadd d a b mk zr => some (d, a, b, mk, zr, fun m x y _ => addVal m x y)
  | .vfsub d a b mk zr => some (d, a, b, mk, zr, fun m x y _ => addVal m x (negVal y))
  | .vfmul d a b mk zr => some (d, a, b, mk, zr, fun _ x y _ => mulVal x y)
  | .vfma d a b mk zr => some (d, a, b, mk, zr, fun m x y z => addVal m (mulVal x y) z)
  | .vfms d a b mk zr => some (d, a, b, mk, zr, fun m x y z => addVal m (mulVal x y) (negVal z))
  | .vfnma d a b mk zr => some (d, a, b, mk, zr, fun m x y z => addVal m z (negVal (mulVal x y)))
  | .vrcp d a mk zr => some (d, a, a, mk, zr, fun _ x _ _ => rcpVal x)
  | .vrsq d a mk zr => some (d, a, a, mk, zr, fun _ x _ _ => rsqVal x)
  | .vexp2 d a mk zr => some (d, a, a, mk, zr, fun _ x _ _ => exp2Val x)
  | _ => none

/-- The operations of R178 on f32 codes that do not round. -/
def codeForm : Instr → Option (Reg × Reg × Reg × BitVec 3 × BitVec 1 × (W32 → W32 → W32))
  | .vfmin d a b mk zr => some (d, a, b, mk, zr, f32min)
  | .vfmax d a b mk zr => some (d, a, b, mk, zr, f32max)
  | .vfabs d a mk zr => some (d, a, a, mk, zr, fun x _ =>
      if (dec32 x).isNan then nan32 else BitVec.ofNat 32 (x.toNat % 2 ^ 31))
  | .vfneg d a mk zr => some (d, a, a, mk, zr, fun x _ =>
      if (dec32 x).isNan then nan32 else BitVec.ofNat 32 (x.toNat + 2 ^ 31))
  | .vfcpy d a b mk zr => some (d, a, b, mk, zr, fun x y =>
      if (dec32 x).isNan then nan32 else BitVec.ofNat 32 (x.toNat % 2 ^ 31 + y.toNat / 2 ^ 31 * 2 ^ 31))
  | _ => none

/-- The lanes of a register after a masked write: selected lanes as given, the others kept, or 0 under z (R177). -/
def LanesAre (s : State) (d : Reg) (mk : BitVec 3) (zr : BitVec 1) (w : Nat) (f : Nat → Nat) (x : Vec) : Prop :=
  ∀ i < 512 / w, laneOf x i w =
    if laneSel (readM s mk.toNat) i then f i else if zr = 1 then 0 else laneOf (readV s d) i w

/-- The bits of a mask after a masked compare of `n` lanes: selected bits as given, the others kept, or 0 under z; 0 above. -/
def BitsAre (s : State) (d mk : BitVec 3) (zr : BitVec 1) (n : Nat) (f : Nat → Bool) (x : W64) : Prop :=
  ∀ i < 64, x.getLsbD i =
    if n ≤ i then false
    else if laneSel (readM s mk.toNat) i then f i else if zr = 1 then false else (readM s d.toNat).getLsbD i

/-- Conditions of compares: equal, not equal, less, at most, greater, at least. -/
def condOf (cond : Nat) (eq lt gt : Bool) : Bool :=
  match cond with
  | 0 => eq
  | 1 => !eq
  | 2 => lt
  | 3 => lt || eq
  | 4 => gt
  | _ => gt || eq

/-- The LFSR words that roundings draw: none but under stochastic rounding (09 R168). -/
def wordsDrawn (s : State) (mode n : Nat) : List W32 := if mode = 4 then nextWords n s.cur.regs.lfsr else []

/-- The state with those words drawn. -/
def drew (s : State) (mode n : Nat) : State :=
  if mode = 4 then
    s.modCur fun t => { t with regs := { t.regs with lfsr := (nextWords n s.cur.regs.lfsr).getLastD s.cur.regs.lfsr } }
  else s

/-! ## Events: what happens between the instructions -/

/-- The event leaves `u`, but that the bytes it wrote enter memory and the platform of bring-up stays as it was; nothing else
changes. -/
def Occurs (j : Instr) (s u : State) : Prop := exec j s = .next (State.settleMem { u with mem := s.mem, plat := s.plat })

/-- The state in which the instruction that a slot waits with issues again. -/
def asCurrent (s : State) (c n : Nat) : State := { s.modSlot c n (fun t => { t with wait := .none }) with curCore := c, curSlot := n }

/-- It is a slot's turn to issue (06 R99). -/
def Turn (s : State) (c n : Nat) : Prop := s.islandStopped c = false ∧ (s.core c).turnOf n = true

/-- A slot waits with an instruction. -/
structure Waiting (s : State) (c n : Nat) (j : Instr) : Prop where
  fresh : s.wr = []
  running : (s.slot c n).running = true
  fetched : s.fetch c n = (s, .ok j)

/-- What an event leaves that makes a waiting instruction issue, from what the instruction left: the slot has had its turn. -/
def afterTurn (s : State) (c n : Nat) (v : State) : State := { v.afterIssue c n with curCore := s.curCore, curSlot := s.curSlot }

/-- The event makes a slot's waiting instruction issue: what it leaves is what the instruction leaves. An instruction that waits again
for what `w` selects goes on waiting, and nothing else changes. -/
def Resumes (e : Instr) (s : State) (c n : Nat) (j : Instr) (w : Wait → Bool) : Prop :=
  ∃ v, exec j (asCurrent s c n) = .next v ∧ exec e s = .next
    (if ((v.slot c n).running && w (v.slot c n).wait) = true then s.modSlot c n fun t => { t with wait := (v.slot c n).wait }
     else afterTurn s c n v)

/-- The event completes an instruction that has issued and waits: it takes the effect `u`, and no slot has its turn by that. -/
def Completes (e : Instr) (s : State) (c n : Nat) (j : Instr) (u : State) (nx : Next) : Prop :=
  ∃ v, Retires (asCurrent s c n) j u nx v ∧ exec e s = .next { v with curCore := s.curCore, curSlot := s.curSlot }

/-- A slot's start state for a message (06 R101): the arguments in g24 to g27 and every other register 0; the program counter
at the routine; nothing built, read, buffered or under way. -/
structure Started (t : Slot) (m : Msg) (pc : Pc) (budget : Nat) (u : Slot) : Prop where
  runs : u.running = true ∧ u.wait = .none ∧ u.follow = none
  scalars : ∀ r, Tbl.find 0 u.g r =
    if r = 24 then m.args.a else if r = 25 then m.args.b else if r = 26 then m.args.c else if r = 27 then m.args.d else 0
  others : (∀ r, Tbl.find 0 u.v r = 0) ∧ ∀ r, Tbl.find 0 u.m r = 0
  place : u.pc = pc
  control : u.regs = t.regs ∧ u.saved = t.regs ∧ u.msgid = m.msgid ∧ u.msrc = m.source ∧ u.budg = 256 * budget ∧
    u.tcause = m.tcause ∧ u.taddr = m.taddr ∧ u.qce = false ∧ u.qpe = false
  message : u.msg = some m ∧ u.qpos = 0 ∧ u.qbld = [] ∧ u.bound = none ∧ u.taken = []
  clean : u.pend = [] ∧ u.armed = false ∧ u.lact = false ∧ u.lc = 0 ∧ u.ls = 0 ∧ u.le = 0 ∧ u.buf = [] ∧ u.staged = [] ∧
    u.repl = true ∧ u.passed = false

/-! ## What every step keeps -/

/-- A frequency of an island (25 R354). -/
def islandRate (f : Nat) : Prop := 900 ≤ f ∧ f ≤ 2700 ∧ f % 100 = 0

/-- Memory has its canonical form and no write is pending between steps; every island's frequencies are ones that R354 allows;
the indices of the identity key are used in order, in blocks of 256 that the counter has reserved (R353). -/
structure Kept (s : State) : Prop where
  memory : s.mem.wf = true
  pending : s.wr = []
  islands : ∀ i, islandRate (s.plat.cur i) ∧ islandRate (s.plat.tgt i)
  block : s.plat.quoteNext ≤ s.plat.quoteEnd ∧ s.plat.quoteEnd = s.plat.quoteCounter
  counter : s.plat.quoteCounter % 256 = 0 ∧ s.plat.quoteCounter ≤ 2 ^ 20

end Safety
end Sys2Proof
end

