-- ==== Sys2Proof/Certificates/Slice0/Obligations.lean ====
section
/-! DEFINITION. What is stated of this machine for the provers, in the terms of Safety.lean: one definition per statement. -/

section

open Sys2Proof Machine Safety

/-! ## Integer instructions (07) -/

/-- R113: a two-source ALU instruction, and the compact forms that are one (R81), computes x by the table and performs
SetG(d, x); SEL reads gd as its condition before it writes it. -/
def Obligations.AluTwoSource : Prop :=
  (∀ j d a b f s s1 s2 x y, aluForm j = some (d, a, b, f) → Ready j s → readG s a = .ok (s1, x) → readG s1 b = .ok (s2, y) →
    settable s2 d = true → Does j s (putG s2 d (f x y)) .seq) ∧
  (∀ d a b s s1 s2 s3 x y z, Ready (.sel d a b) s → readG s a = .ok (s1, x) → readG s1 b = .ok (s2, y) → readG s2 d = .ok (s3, z) →
    settable s3 d = true → Does (.sel d a b) s (putG s3 d (if z = 0 then y else x)) .seq)

/-- R113, R115 and R116: CLZ, CTZ, POPC, BFX, BFXS and the immediate forms compute x from A and perform SetG(d, x); BFI
reads gd before it replaces its bits.
R117: LI, LIH and ADR; an ADR whose target leaves its space traps ILLEGAL. -/
def Obligations.AluOneSource : Prop :=
  (∀ j d a f s s1 x, unaryForm j = some (d, a, f) → Ready j s → readG s a = .ok (s1, x) → settable s1 d = true →
    Does j s (putG s1 d (f x)) .seq) ∧
  (∀ d a p w s s1 s2 x y z, Ready (.bfi d a p w) s → readG s a = .ok (s1, x) → readG s1 d = .ok (s2, y) → settable s2 d = true →
    (∀ i < 64, z.getLsbD i = if p.toNat ≤ i ∧ i < p.toNat + w.toNat + 1 then x.getLsbD (i - p.toNat) else y.getLsbD i) →
    Does (.bfi d a p w) s (putG s2 d z) .seq) ∧
  (∀ d k s, Ready (.li d k) s → settable s d = true → Does (.li d k) s (putG s d (BitVec.ofInt 64 k.toInt)) .seq) ∧
  (∀ d k s, Ready (.cLi d k) s → settable s d = true → Does (.cLi d k) s (putG s d (BitVec.ofInt 64 k.toInt)) .seq) ∧
  (∀ d k s s1 x, Ready (.lih d k) s → readG s d = .ok (s1, x) → settable s1 d = true →
    Does (.lih d k) s (putG s1 d (BitVec.ofNat 64 (k.toNat * 2 ^ 45 + x.toNat % 2 ^ 45))) .seq) ∧
  (∀ d k s (t : Nat), Ready (.adr d k) s → settable s d = true → (t : Int) = s.cur.pc.off + k.toInt → t ≤ 32767 →
    Does (.adr d k) s (putG s d (BitVec.ofNat 64 ((if s.cur.pc.carried then 32768 else 0) + t))) .seq) ∧
  (∀ d k s, Ready (.adr d k) s → (s.cur.pc.off + k.toInt < 0 ∨ 32767 < s.cur.pc.off + k.toInt) →
    Halts (.adr d k) s (.trap Cause.illegal none))

/-- R114: MUL to REMN compute x at every A and B, a division by 0 and the overflowing one included; the result is the slot's
newest long-latency result, known, with the destination and the window of the instruction; a port as destination traps ILLEGAL. -/
def Obligations.MultiplyDivide : Prop :=
  ∀ j d a b la f s, mulForm j = some (d, a, b, la, f) →
    (∀ s1 s2 x y, Ready j s → readG s a = .ok (s1, x) → readG s1 b = .ok (s2, y) →
      Does j s (laterG s2 la.toNat [d.toNat] [f x y]) .seq) ∧
    (28 ≤ d.toNat → s.wr = [] → s.cur.running = true → (s.cur.budg ≠ 0 ∨ s.cur.checked = true ∨ s.cur.handed = true) →
      Halts j s (.trap Cause.illegal none))

/-! ## Transfers (07 R118 to R121) -/

/-- R119: a branch is taken when its condition holds and then goes to PC[14:0] + SExt(offset, 14) in its space; otherwise the
next instruction follows; a port in both fields traps ILLEGAL; a taken target outside the space traps ILLEGAL.
05 R93: a taken branch, or the last instruction of a body before a back edge, that fails its signature check has no effect and traps
SIGNATURE. -/
def Obligations.Branches : Prop :=
  ∀ j d a off cond s, branchForm j = some (d, a, off, cond) →
    (∀ s1 s2 x y, Ready j s → readG s d = .ok (s1, x) → readG s1 a = .ok (s2, y) →
      (cond x y → ∀ t : Nat, (t : Int) = s.cur.pc.off + off → t ≤ 32767 →
        (sigStops s j (.jump { s.cur.pc with off := t }) = false → Does j s s2 (.jump { s.cur.pc with off := t })) ∧
        (sigStops s j (.jump { s.cur.pc with off := t }) = true → Halts j s (sigTrap s j))) ∧
      (cond x y → (s.cur.pc.off + off < 0 ∨ 32767 < s.cur.pc.off + off) → Halts j s (.trap Cause.illegal none)) ∧
      (¬ cond x y → (sigStops s j .seq = false → Does j s s2 .seq) ∧ (sigStops s j .seq = true → Halts j s (sigTrap s j)))) ∧
    (28 ≤ d.toNat → d = a → s.wr = [] → s.cur.running = true → (s.cur.budg ≠ 0 ∨ s.cur.checked = true ∨ s.cur.handed = true) →
      Halts j s (.trap Cause.illegal none))

/-- R118, R120: JMP, C.J and JAL go to PC[14:0] + SExt(offset) in their space, JAL with the address of the next instruction in
g1; JALR goes to G(a) + SExt(imm, 14), in IMEM or carried code by bit 15, with the link in gd, read before it is written; a
target outside its range traps ILLEGAL, and no link is written.
05 R93: a transfer that fails its signature check has no effect, writes no link and traps SIGNATURE. -/
def Obligations.Jumps : Prop :=
  (∀ j off, (∃ o, j = .jmp o ∧ off = o.toInt) ∨ (∃ o, j = .cJ o ∧ off = o.toInt) → ∀ s, Ready j s →
    (∀ t : Nat, (t : Int) = s.cur.pc.off + off → t ≤ 32767 →
      (sigStops s j (.jump { s.cur.pc with off := t }) = false → Does j s s (.jump { s.cur.pc with off := t })) ∧
      (sigStops s j (.jump { s.cur.pc with off := t }) = true → Halts j s (sigTrap s j))) ∧
    (s.cur.pc.off + off < 0 ∨ 32767 < s.cur.pc.off + off → Halts j s (.trap Cause.illegal none))) ∧
  (∀ o s, Ready (.jal o) s →
    (∀ t : Nat, (t : Int) = s.cur.pc.off + o.toInt → t ≤ 32767 →
      (sigStops s (.jal o) (.jump { s.cur.pc with off := t }) = false →
        Does (.jal o) s (putG s 1 (BitVec.ofNat 64 (routine s.cur.pc + 2))) (.jump { s.cur.pc with off := t })) ∧
      (sigStops s (.jal o) (.jump { s.cur.pc with off := t }) = true → Halts (.jal o) s (sigTrap s (.jal o)))) ∧
    (s.cur.pc.off + o.toInt < 0 ∨ 32767 < s.cur.pc.off + o.toInt → Halts (.jal o) s (.trap Cause.illegal none))) ∧
  (∀ d a k s s1 x, Ready (.jalr d a k) s → readG s a = .ok (s1, x) → settable s1 d = true →
    (∀ t : Nat, (t : Int) = x.toNat + k.toInt → t ≤ 65535 →
      (sigStops s (.jalr d a k) (.jump ⟨decide (32768 ≤ t), t % 32768⟩) = false →
        Does (.jalr d a k) s (putG s1 d (BitVec.ofNat 64 (routine s.cur.pc + 2))) (.jump ⟨decide (32768 ≤ t), t % 32768⟩)) ∧
      (sigStops s (.jalr d a k) (.jump ⟨decide (32768 ≤ t), t % 32768⟩) = true → Halts (.jalr d a k) s (sigTrap s (.jalr d a k)))) ∧
    ((x.toNat : Int) + k.toInt < 0 ∨ 65535 < (x.toNat : Int) + k.toInt → Halts (.jalr d a k) s (.trap Cause.illegal none)))

/-- R121: LOOP traps ILLEGAL inside a loop; with a count of 0 it passes over its body; otherwise it starts the loop whose
body is the `len` halfwords that follow.
R121 cases 2 and 3, R118: where control goes after an instruction that took its effect without ending its task, and what
becomes of the counted loop, whatever the instruction did besides (`u`). -/
def Obligations.LoopStarts : Prop :=
  (∀ a len s, Ready (.loop a len) s →
    (s.cur.lact = true → Halts (.loop a len) s (.trap Cause.illegal none)) ∧
    (∀ s1 x, s.cur.lact = false → readG s a = .ok (s1, x) →
      (x = 0 → Does (.loop a len) s s1 (.over (s.cur.pc.off + 2 + len.toNat))) ∧
      (x ≠ 0 → Does (.loop a len) s (s1.modCur fun t => { t with
        lact := true, lc := x.toNat, ls := s.cur.pc.off + 2, le := s.cur.pc.off + 2 + len.toNat - 1 }) .seq))) ∧
  (∀ s j u nx t, Retires s j u nx t →
    let v := t.slot s.curCore s.curSlot
    let w := u.slot s.curCore s.curSlot
    let last := s.cur.pc.off + instrLen j - 1
    (nx = .seq → ¬ (s.cur.lact = true ∧ last = s.cur.le) →
      v.pc = { s.cur.pc with off := s.cur.pc.off + instrLen j } ∧ v.lact = w.lact ∧ v.lc = w.lc) ∧
    (nx = .seq → s.cur.lact = true → last = s.cur.le → s.cur.lc ≠ 1 →
      v.pc = { s.cur.pc with off := s.cur.ls } ∧ v.lact = w.lact ∧ v.lc = (s.cur.lc + 2 ^ 64 - 1) % 2 ^ 64) ∧
    (nx = .seq → s.cur.lact = true → last = s.cur.le → s.cur.lc = 1 →
      v.pc = { s.cur.pc with off := s.cur.pc.off + instrLen j } ∧ v.lact = false ∧ v.lc = 0) ∧
    (∀ pc, nx = .jump pc → v.pc = pc ∧ v.lc = w.lc ∧
      v.lact = (w.lact && !(s.cur.lact && !(decide (pc.carried = s.cur.pc.carried) && decide (s.cur.ls ≤ pc.off ∧ pc.off ≤ s.cur.le))))) ∧
    (∀ off, nx = .over off → v.pc = { s.cur.pc with off := off } ∧ v.lact = w.lact ∧ v.lc = w.lc))

/-! ## Commit points and task ends (07 R122; 06 R109; 14 R245) -/

/-- R122: CMT drains and makes the task non-replayable; END checks the running block, drains, and frees the slot and the
inbox entry; ENDD discards what came after the last commit point and frees both. A failed check commits nothing.
R245 case 4: CMT and END wait, with the entries handed on, until the stores to the core's own memory are performed.
R109, R104 case 4: a drain of a core that is no mirror core hands on the entries of the buffer in their order, behind those
handed on before; the buffer is empty and the records that the task has read whole have left. -/
def Obligations.CommitPoints : Prop :=
  (∀ j, j = .cmt ∨ j = .cCmt → ∀ s, Ready j s → MayDrain s → Does j s (committed s) .seq) ∧
  (∀ j, j = .endOp ∨ j = .cEnd → ∀ s, Ready j s → MayDrain s →
    (feeds s.cur && sigBad s.cur (crcAfter s.cur j)) = false →
    Answers (exec j s) fun t =>
      t = State.settleMem { (handsOn (sigDone s j)).endTask s.curCore s.curSlot with mem := s.mem, plat := s.plat } ∧
      (t.slot s.curCore s.curSlot).running = false ∧ (t.slot s.curCore s.curSlot).buf = []) ∧
  (∀ s, Ready .endd s → ResultsIn s → (feeds s.cur && sigBad s.cur (crcAfter s.cur .endd)) = false →
    Answers (exec .endd s) fun t =>
      t = State.settleMem { (sigDone s .endd).dropTask s.curCore s.curSlot with mem := s.mem, plat := s.plat } ∧
      (t.slot s.curCore s.curSlot).running = false ∧ (t.slot s.curCore s.curSlot).buf = []) ∧
  (∀ j, j = .endOp ∨ j = .cEnd ∨ j = .endd → ∀ s, Ready j s → ResultsIn s →
    (feeds s.cur && sigBad s.cur (crcAfter s.cur j)) = true →
    Halts j s (.trap Cause.signature (some (BitVec.ofNat 64 (crcAfter s.cur j).toNat)))) ∧
  (∀ j s, s.cur.handed = true → s.ownOpen s.curCore s.curSlot = false →
    (j = .cmt ∨ j = .cCmt → Ready j s → Does j s (complete s) .seq) ∧
    (j = .endOp ∨ j = .cEnd → Ready j s → ResultsIn s → (feeds s.cur && sigBad s.cur (crcAfter s.cur j)) = false →
      Answers (exec j s) fun t =>
        t = State.settleMem { (sigDone s j).endTask s.curCore s.curSlot with mem := s.mem, plat := s.plat })) ∧
  (∀ j s, Ready j s → MayHandOn s →
    (j = .cmt ∨ j = .cCmt → (handsOn s).ownOpen s.curCore s.curSlot = true → Answers (exec j s) fun t =>
      t = State.settleMem { (handsOn s).modCur (fun t => { t with wait := .handing false }) with mem := s.mem, plat := s.plat }) ∧
    (j = .endOp ∨ j = .cEnd → (feeds s.cur && sigBad s.cur (crcAfter s.cur j)) = false →
      (handsOn (sigDone s j)).ownOpen s.curCore s.curSlot = true → Answers (exec j s) fun t =>
      t = State.settleMem { (handsOn (sigDone s j)).modCur (fun t => { t with wait := .handing true }) with
        mem := s.mem, plat := s.plat })) ∧
  (∀ (s : State) c n, s.primaryOf? c = none → ∃ l : List Entry,
    ((s.drain c n).core c).flight = (s.core c).flight ++ l.map (fun e => ⟨e, .waiting⟩) ∧
    l.Sublist (s.slot c n).buf ∧ l.filter (fun e => !e.own c && !loadMark e) = (s.slot c n).buf.filter (handedOn c) ∧
    ((∀ e ∈ (s.slot c n).buf, e.task = (s.slot c n).task) → (s.drain c n).ownOpen c n = false →
      l.filter (fun e => !loadMark e) = (s.slot c n).buf.filter (handedOn c)) ∧
    ((s.drain c n).slot c n).buf = [] ∧
    ((s.drain c n).slot c n).taken =
      (if (s.slot c n).bound = none then [] else (s.slot c n).taken.drop ((s.slot c n).taken.length - 1)) ∧
    ((s.drain c n).slot c n).drains = (s.slot c n).drains + 1 ∧ (s.drain c n).mem = s.mem)

/-- R124, R123, R90: SIG checks the running block and arms a new one, in a following slot it does neither; FOLW and NOP. That the 64 cycles of
FOLW are counts of TIME is the model's choice (log entry 12: R90 and R123 name no clock). -/
def Obligations.SignaturesAndNops : Prop :=
  (∀ j x short s, sigForm j = some (x, short) → Ready j s →
    (feeds s.cur = true → sigBad s.cur s.cur.crc = true →
      Halts j s (.trap Cause.signature (some (BitVec.ofNat 64 s.cur.crc.toNat)))) ∧
    (¬ (feeds s.cur = true ∧ sigBad s.cur s.cur.crc = true) → s.cur.follow = none →
      Does j s (s.modCur fun t => { t with armed := true, exp := x, short := short, crc := 0xFFFF#16 }) .seq) ∧
    (s.cur.follow ≠ none → Does j s s .seq)) ∧
  (∀ j, j = .nop ∨ j = .cNop → ∀ s, Ready j s → Does j s s .seq) ∧
  (∀ s, Ready .folw s →
    (∀ l, s.leaderOf? s.curCore s.curSlot = some l → l ≠ s.curCore → s.cur.pc.carried = false →
      (s.core s.curCore).imemDirty = false → (s.core l).imemDirty = false → s.cur.follow = none →
      Does .folw s (s.modCur fun t => { t with wait := .follow (s.time + 64) }) .seq) ∧
    (s.leaderOf? s.curCore s.curSlot = none ∨ s.leaderOf? s.curCore s.curSlot = some s.curCore ∨ s.cur.pc.carried = true ∨
      (s.core s.curCore).imemDirty = true ∨ s.cur.follow ≠ none ∨
        (∃ l, s.leaderOf? s.curCore s.curSlot = some l ∧ (s.core l).imemDirty = true) → Does .folw s s .seq))

/-! ## Taking a trap, and the instructions that take one (22 R314; 07 R126, R128) -/

/-- R314, R315, R106: a trap of an ordinary task slot, whatever its cause, in a partition with a free ordinary entry and no
debugger attached. R317 case 4: its record is the newest, but that of the records that the slots of one core post in one cycle a lower
slot's goes first. -/
def Obligations.TrapEntry : Prop :=
  (∀ (s : State) c n p cause code addr, s.privileged c n = false → s.primaryOf? c = none → s.mirrorOf? c = none →
    s.corePart? c = some p → (s.part p).debugger = false → (s.part p).ordinary < 252 →
    Trapped s c n p cause code addr (s.takeTrap c n cause code addr)) ∧
  (∀ (r : TRec) q, (∀ x ∈ q, x.core ≠ r.core ∨ x.at_ ≠ r.at_ ∨ x.slot ≤ r.slot) → enterRec r q = q ++ [r]) ∧
  (∀ (r x : TRec) q l, r.call = none → r.type = 1 → x.call = none → x.type = 1 → x.core = r.core → x.at_ = r.at_ → r.slot < x.slot →
    (∀ y ∈ l, y.core ≠ r.core ∨ y.at_ ≠ r.at_ ∨ y.slot ≤ r.slot) → enterRec r (l ++ x :: q) = l ++ r :: x :: q)

/-- R126: TRAP takes the trap TRAP with its code, BKPT the trap BREAKPOINT; TADDR is the instruction's own address.
R128 to R132: TLBI, SNAP, DBGH and SYNLD outside a supervisor slot trap PERMISSION. -/
def Obligations.TrapInstructions : Prop :=
  (∀ j cause code, (∃ k, j = .trap k ∧ cause = 18 ∧ code = k.toNat) ∨ (j = .bkpt ∧ cause = 17 ∧ code = 0) →
    ∀ s, Ready j s → ∀ pc : W64, pc = BitVec.ofNat 64 (routine s.cur.pc % 65536) →
      Answers (exec j s) (fun t =>
        t = State.settleMem { s.takeTrap s.curCore s.curSlot cause code pc with mem := s.mem, plat := s.plat }) ∧
      ∀ p, plainTask s = true → s.corePart? s.curCore = some p → (s.part p).debugger = false → (s.part p).ordinary < 252 →
        Answers (exec j s) (Trapped s s.curCore s.curSlot p cause code pc)) ∧
  (∀ j, (∃ a b, j = .tlbi a b) ∨ (∃ d, j = .snap d) ∨ j = .dbgh ∨ (∃ a b, j = .synld a b) →
    ∀ s, Ready j s → s.privileged s.curCore s.curSlot = false → Halts j s (.trap Cause.permission none))

/-- R102, R85, R100, R121, R133: the checks before an instruction's own, in their order: BUDGET, ILLEGAL at decode, LOOKAHEAD (but
of the commit points and task ends, which wait for every result instead), a loop's body that the instruction overruns, the trap of a fault
that a due result brought, the wait for a due result, the wait of a fifth long-latency instruction for the oldest of four. An
instruction that one of them stops has none of its effect. That BUDGET comes before the ILLEGAL checks, where 05 R85 says that ILLEGAL
precedes every other check, and the place of the loop's check are the model's reading (log entry 12, DEDUCED). -/
def Obligations.ChecksBeforeIssue : Prop :=
  ∀ j s, (encode j).1 ≠ 0 → s.wr = [] → s.cur.running = true →
    (s.cur.budg = 0 → s.cur.checked = false → s.cur.handed = false → Halts j s (.trap Cause.budget (some 0))) ∧
    ((s.cur.budg ≠ 0 ∨ s.cur.checked = true ∨ s.cur.handed = true) →
      (forbidden j ≠ none → Halts j s (.trap Cause.illegal none)) ∧
      (forbidden j = none →
        (isCommit s j = false → lookaheadTrap s.cur j = true → Halts j s (.trap Cause.lookahead none)) ∧
        (isCommit s j = true ∨ lookaheadTrap s.cur j = false →
          (loopMisfit s.cur j = true → Halts j s (.trap Cause.illegal none)) ∧
          (loopMisfit s.cur j = false →
            (∀ l p r cause a, s.cur.pend = l ++ p :: r → Due s j p → p.arrived = true → p.bad = some (cause, a) →
              (∀ q ∈ l, Due s j q → q.arrived = true → q.bad = none) → Halts j s (.trap cause (some a))) ∧
            ((∀ q ∈ s.cur.pend, Due s j q → q.arrived = true → q.bad = none) →
              (∀ p ∈ s.cur.pend, Due s j p → p.arrived = false → Halts j s (.hold .results)) ∧
              ((∀ p ∈ s.cur.pend, Due s j p → p.arrived = true) → ∀ p r,
                s.cur.pend.filter (fun q => !q.arrived) = p :: r → 3 ≤ r.length → (lookahead j).isSome = true →
                Halts j s (.hold (.oldest p.uid))))))))


/-- R127 to R131: FNCI drops the halfwords that the slot fetched ahead; in the supervisor slot TLBI drops cached translations
once the task's earlier writes are performed, every walk of the partition begun before has completed and no pin of the range is held, SNAP
seals the live epoch once the writes that were drained before it are performed and no copy on write is under way; both wait otherwise. DBGH
halts the issuing core and asks for the context's halt; that the whole core halts at once is the model's reading (log entry 12, DEDUCED: R131
names the issuing slot, and 22 R330 allows the halt 128 cycles).
07 R132, 17 R275: SYNLD in a supervisor slot stages a write when bit 63 of its address is set, at most 16; without the bit it waits
for the start of the round at which the set applies, behind every SYNLD that waits already. An address that names no mortar state traps
ILLEGAL, one of a cluster outside the partition PERMISSION. That SNAP does the same where the snapshot root has EN = 0 is log entry 4, and the
root that TLBI takes from a control block which stage 2 does not map, 0, log entry 10. -/
def Obligations.SystemInstructions : Prop :=
  (∀ s, Ready .fnci s →
    Does .fnci s (s.modCore s.curCore fun k => { k with stale := k.stale.filter fun e => e.1 != s.curSlot }) .seq) ∧
  (∀ a b s s1 s2 x y p, Ready (.tlbi a b) s → s.privileged s.curCore s.curSlot = true → readG s a = .ok (s1, x) →
    readG s1 b = .ok (s2, y) → s2.corePart? s2.curCore = some p →
    let writing := (s2.core s2.curCore).flight.any fun f => f.e.task == s2.cur.task && f.e.writes
    let held := s2.pinned p fun q => decide (field y 1 0 = 1) || s2.oneTranslation p (field x 47 0) q.gva
    let walks := (s2.walksOpen p).filter fun w => w.1 != 0 || w.2.1 != 8 * s2.curCore + s2.curSlot
    (1 < field y 1 0 → Halts (.tlbi a b) s (.trap Cause.illegal none)) ∧
    (field y 1 0 = 1 ∨ (field y 1 0 = 0 ∧ field x 63 48 = 0) →
      (writing = true ∨ held = true ∨ walks ≠ [] → Halts (.tlbi a b) s (.hold (.tlbi walks))) ∧
      (writing = false → held = false → walks = [] →
        (field y 1 0 = 0 → Does (.tlbi a b) s
          (s2.dropTlb fun t => t.part == p && decide (t.va ≤ field x 47 0 ∧ field x 47 0 < t.va + t.size)) .seq) ∧
        (field y 1 0 = 1 → Does (.tlbi a b) s ((s2.dropTlb fun t => t.part == p).sampleRoot (s2.part p).ctx) .seq)))) ∧
  (∀ d s p, Ready (.snap d) s → s.privileged s.curCore s.curSlot = true → s.corePart? s.curCore = some p → settable s d = true →
    (s.openWrites p = [] → (s.part p).cow = [] →
      Does (.snap d) s (putG (s.modPart p fun k => { k with snapEpoch := (k.snapEpoch + 1) % 2 ^ 32 }) d
        (BitVec.ofNat 64 (((s.part p).snapEpoch + 1) % 2 ^ 32))) .seq) ∧
    (s.openWrites p ≠ [] ∨ (s.part p).cow ≠ [] → Halts (.snap d) s (.hold (.snap (s.openWrites p))))) ∧
  (∀ s p, Ready .dbgh s → s.privileged s.curCore s.curSlot = true → s.corePart? s.curCore = some p →
    Does .dbgh s ((s.askHalt p).modCore s.curCore fun k => { k with halted := true }) .seq) ∧
  (∀ a b s s1 s2 x v f, Ready (.synld a b) s → s.privileged s.curCore s.curSlot = true → readG s a = .ok (s1, x) →
    readG s1 b = .ok (s2, v) → s2.mfield ((s2.corePart? s2.curCore).getD 0) (x &&& 0x7FFFFFFFFFFFFFFF#64) = .ok f →
    (bitAt x 63 = true → 16 ≤ s2.cur.staged.length → Halts (.synld a b) s (.trap Cause.illegal none)) ∧
    (bitAt x 63 = true → s2.cur.staged.length < 16 →
      Does (.synld a b) s (s2.modCur fun t => { t with staged := t.staged ++ [(x &&& 0x7FFFFFFFFFFFFFFF#64, v)] }) .seq) ∧
    (bitAt x 63 = false →
      (∀ e ∈ s2.cur.staged, field e.1 59 58 = field (x &&& 0x7FFFFFFFFFFFFFFF#64) 59 58) →
      ∃ turn, Halts (.synld a b) s (.hold (.synld turn)) ∧
        ∀ e ∈ s2.parts, ∀ t, (s2.slot e.2.supCore 7).wait = .synld t → t < turn) ∧
    (bitAt x 63 = false → (∃ e ∈ s2.cur.staged, field e.1 59 58 ≠ field (x &&& 0x7FFFFFFFFFFFFFFF#64) 59 58) →
      Halts (.synld a b) s (.trap Cause.illegal none))) ∧
  (∀ a b s s1 s2 x v cause, Ready (.synld a b) s → s.privileged s.curCore s.curSlot = true → readG s a = .ok (s1, x) →
    readG s1 b = .ok (s2, v) → s2.mfield ((s2.corePart? s2.curCore).getD 0) (x &&& 0x7FFFFFFFFFFFFFFF#64) = .error cause →
    Halts (.synld a b) s (.trap cause none)) ∧
  (∀ (s : State) p a, field a 31 0 ≠ 0 ∨ 5 ≤ field a 62 60 ∨ field a 59 58 = 0 → s.mfield p a = .error Cause.illegal) ∧
  (∀ (s : State) p a, field a 31 0 = 0 → field a 62 60 = 0 → field a 59 58 = 1 → field a 49 44 ≤ 15 → field a 35 32 ≤ 11 →
    (field a 43 36 = 0 ∨ (field a 35 32 = 5 ∧ field a 43 36 ≤ 71)) →
    (field a 53 50 ≤ (s.part p).pw ∧ field a 57 54 ≤ (s.part p).ph → ∃ f, s.mfield p a = .ok f) ∧
    ((s.part p).pw < field a 53 50 ∨ (s.part p).ph < field a 57 54 → s.mfield p a = .error Cause.permission))

/-- R105, R125: RDC writes the value of a listed control register; WRC writes a listed one that may be written; other
numbers, and values that are reserved, trap ILLEGAL; a WRC of SKIP waits while a released MMAS is pending (R206). -/
def Obligations.ControlRegisters : Prop :=
  (∀ d num s x, Ready (.rdc d num) s → s.readCR num.toNat = some x → settable s d = true →
    Does (.rdc d num) s (putG s d x) .seq) ∧
  (∀ d num s, Ready (.rdc d num) s → s.readCR num.toNat = none → Halts (.rdc d num) s (.trap Cause.illegal none)) ∧
  (∀ a num s s1 x, Ready (.wrc a num) s → readG s a = .ok (s1, x) →
    (∀ u, s1.writeCR num.toNat x = some u → (num = 0x008 → (s1.core s1.curCore).mmasPending = false) →
      Does (.wrc a num) s u .seq) ∧
    (s1.writeCR num.toNat x = none → Halts (.wrc a num) s (.trap Cause.illegal none)) ∧
    (num = 0x008 → s1.writeCR num.toNat x ≠ none → (s1.core s1.curCore).mmasPending = true →
      Halts (.wrc a num) s (.hold .skip))) ∧
  (∀ s : State, ∀ num, s.readCR num ≠ none ↔
    (num ∈ [0x000, 0x001, 0x002, 0x003, 0x004, 0x009, 0x00A, 0x010, 0x011, 0x012, 0x013, 0x014, 0x015, 0x018, 0x019, 0x020, 0x021,
      0x022, 0x023, 0x024, 0x025] ∨ (num = 0x008 ∧ indexOf s.curCore ≠ 8))) ∧
  (∀ s : State, ∀ x : W64, s.writeCR 0x00A x =
    some (s.modCur fun t => { t with regs := { t.regs with lfsr := if x.toNat % 2 ^ 32 = 0 then 1 else BitVec.ofNat 32 x.toNat } })) ∧
  (∀ (s : State) v, s.wr = [] → s.cur.running = true → Occurs (.lfsrWrite v) s (s.modCur fun t =>
    { t with regs := { t.regs with lfsr := if v.toNat % 2 ^ 32 = 0 then 1 else BitVec.ofNat 32 v.toNat } }))

/-- R103, R104: the queue ports as steps of their own. A read of a port writes the value that the register reads as; a write
of the builder appends a word, the 257th traps RINGLEN; a read of a channel's status word returns CPDN later.
R103, R104, R68, R224: what each step of a port gives. QPAY_READ the next 8 bytes of the payload, or 0 with QPE once it is exhausted;
QBLD_WRITE appends the register's value to the builder; QCMP_READ the words of a completion record in turn, of which the last acquires,
or 0 with QCE when there is none; QTILE_READ a take of the task's walker, or all ones; CHANNEL_STATUS_READ the channel's CPDN, with the
task's own stores over it and an acquire where one is asked for. -/
def Obligations.PortSteps : Prop :=
  (∀ j port d, (j = .qpayRead d ∧ port = 28) ∨ (j = .qcmpRead d ∧ port = 30) ∨ (j = .qtileRead d ∧ port = 31) →
    ∀ s s1 x, s.wr = [] → s.cur.running = true → readG s port = .ok (s1, x) → settable s1 d = true →
      Answers (exec j s) fun t => t = State.settleMem { putG s1 d x with mem := s.mem, plat := s.plat }) ∧
  (∀ a s s1 x, s.wr = [] → s.cur.running = true → readG s a = .ok (s1, x) → s1.cur.qbld.length < 256 →
    Answers (exec (.qbldWrite a) s) fun t => t = State.settleMem { putG s1 29 x with mem := s.mem, plat := s.plat }) ∧
  (∀ chan acq d s, s.wr = [] → s.cur.running = true → acquirePending s.cur = false →
    mustWait s (.status s.curCore chan.toNat) 8 = false → (∀ e ∈ s.cur.buf, ∀ bs, e.act ≠ .store bs) →
    Answers (exec (.channelStatusRead chan acq d) s) fun t => ∃ p, (t.slot s.curCore s.curSlot).pend = s.cur.pend ++ [p] ∧
      p.gd = [d.toNat] ∧ p.ready = true ∧ p.gval = [BitVec.ofNat 64 (Tbl.find 0 (s.core s.curCore).cpdn chan.toNat % 2 ^ 32)] ∧
      t.mem = s.mem) ∧
  (∀ d s m, s.wr = [] → s.cur.running = true → s.cur.msg = some m → settable s d = true →
    let left := (m.payload.drop s.cur.qpos).take 8
    (s.cur.qpos < m.payload.length → Answers (exec (.qpayRead d) s) fun t => t = State.settleMem
      { putG (s.modCur fun t => { t with qpos := t.qpos + 8 }) d (BitVec.ofNat 64 (leVal left)) with mem := s.mem, plat := s.plat }) ∧
    (m.payload.length ≤ s.cur.qpos → Answers (exec (.qpayRead d) s) fun t => t = State.settleMem
      { putG (s.modCur fun t => { t with qpe := true }) d 0 with mem := s.mem, plat := s.plat })) ∧
  (∀ a s, s.wr = [] → s.cur.running = true → a.toNat < 28 → s.cur.qbld.length < 256 →
    Answers (exec (.qbldWrite a) s) fun t => t = State.settleMem { s.modCur (fun t =>
      { t with qbld := t.qbld ++ [if a = 0 then 0 else Tbl.find 0 t.g a.toNat] }) with mem := s.mem, plat := s.plat }) ∧
  (∀ d s, s.wr = [] → s.cur.running = true → settable s d = true →
    let Gives (u : State) (v : W64) : Prop :=
      Answers (exec (.qcmpRead d) s) fun t => t = State.settleMem { putG u d v with mem := s.mem, plat := s.plat }
    (s.cur.bound = none → (s.core s.curCore).cinbox = [] → Gives (s.modCur fun t => { t with qce := true }) 0) ∧
    (∀ r q, s.cur.bound = none → (s.core s.curCore).cinbox = r :: q → Gives ((s.modCore s.curCore fun k => { k with cinbox := q }).modCur
      fun t => { t with taken := t.taken ++ [r], bound := some (r, 1), qce := false }) r.w0) ∧
    (∀ r k, s.cur.bound = some (r, k) → k < 3 →
      Gives (s.modCur fun t => { t with bound := some (r, k + 1), qce := false }) (r.word k)) ∧
    (∀ r, s.cur.bound = some (r, 3) →
      Gives ((s.modCur fun t => { t with bound := none, qce := false }).l1Invalidate s.curCore) r.w3)) ∧
  (∀ d s, s.wr = [] → s.cur.running = true → unpaired s → settable s d = true →
    let Gives (u : State) (v : W64) : Prop :=
      Answers (exec (.qtileRead d) s) fun t => t = State.settleMem { putG u d v with mem := s.mem, plat := s.plat }
    (s.myWalker? = none → Gives s allOnes) ∧
    (∀ k n w r, HasWalker s k n w r → windowOpen w → Room s (theEntry s 0 (.spad 0 0) .weak .core (.tile k n 0)) →
      ∃ u v, Takes s k n w r u v ∧ Gives u v)) ∧
  (∀ chan acq d s, s.wr = [] → s.cur.running = true → mayRead s (.status s.curCore chan.toNat) 8 = true →
    let word := leBytes 8 (Tbl.find 0 (s.core s.curCore).cpdn chan.toNat % 2 ^ 32)
    Answers (exec (.channelStatusRead chan acq d) s) fun t => t = State.settleMem
      { addPending (if acq then (asks s).l1Invalidate s.curCore else asks s)
          { gd := [d.toNat], acq := if acq then 2 else 0, ready := true,
            gval := [BitVec.ofNat 64 (leVal (overlaid s (.status s.curCore chan.toNat) 8 word))] } with mem := s.mem, plat := s.plat }) ∧
  (∀ j port d, (j = .qpayRead d ∧ port = 28) ∨ (j = .qcmpRead d ∧ port = 30) ∨ (j = .qtileRead d ∧ port = 31) →
    d = 28 ∨ d = 30 ∨ d = 31 → ∀ s s1 x, s.wr = [] → s.cur.running = true → readG s port = .ok (s1, x) →
    Answers (exec j s) fun t => t = State.settleMem
      { s.stopAt (.add d port 0) (.trap Cause.illegal none) with mem := s.mem, plat := s.plat }) ∧
  (∀ a s s1 x, s.wr = [] → s.cur.running = true → readG s a = .ok (s1, x) → 256 ≤ s1.cur.qbld.length →
    Answers (exec (.qbldWrite a) s) fun t => t = State.settleMem
      { s.stopAt (.add 29 a 0) (.trap Cause.ringlen none) with mem := s.mem, plat := s.plat })

/-- R103, R104, R21, R80: what each register reads as: g0 is 0; g1 to g27 their value; `qpay` the next 8 bytes of the payload,
or 0 with QPE once it is exhausted; `qbld` the words built; `qcmp` the words of a record in turn, or 0 with QCE.
R20, R103: a write of a register that may be written is SetG; `qpay`, `qcmp` and `qtile` trap ILLEGAL, a 257th word of the
builder traps RINGLEN. -/
def Obligations.RegisterPorts : Prop :=
  (∀ s, readG s 0 = .ok (s, 0)) ∧
  (∀ (s : State) (n : Reg), 1 ≤ n.toNat → n.toNat ≤ 27 → readG s n = .ok (s, Tbl.find 0 s.cur.g n.toNat)) ∧
  (∀ s : State, readG s 29 = .ok (s, BitVec.ofNat 64 s.cur.qbld.length)) ∧
  (∀ (s : State) m, s.cur.msg = some m →
    (s.cur.qpos < m.payload.length → readG s 28 =
      .ok (s.modCur fun t => { t with qpos := t.qpos + 8 }, BitVec.ofNat 64 (leVal ((m.payload.drop s.cur.qpos).take 8)))) ∧
    (m.payload.length ≤ s.cur.qpos → readG s 28 = .ok (s.modCur fun t => { t with qpe := true }, 0))) ∧
  (∀ s : State, s.cur.bound = none → (s.core s.curCore).cinbox = [] →
    readG s 30 = .ok (s.modCur fun t => { t with qce := true }, 0)) ∧
  (∀ (s : State) r q, s.cur.bound = none → (s.core s.curCore).cinbox = r :: q → ∃ u, readG s 30 = .ok (u, r.w0) ∧
    u.cur.bound = some (r, 1) ∧ u.cur.taken = s.cur.taken ++ [r] ∧ (u.core s.curCore).cinbox = q) ∧
  (∀ (s : State) r k, s.cur.bound = some (r, k) → k < 3 → ∃ u, readG s 30 = .ok (u, r.word k) ∧ u.cur.bound = some (r, k + 1)) ∧
  (∀ (s : State) r, s.cur.bound = some (r, 3) → ∃ u, readG s 30 = .ok (u, r.w3) ∧ u.cur.bound = none) ∧
  (∀ (s : State) d x, settable s d = true → writeG s d x = .ok (putG s d x)) ∧
  (∀ (s : State) d x, d = 28 ∨ d = 30 ∨ d = 31 → writeG s d x = .error (.trap Cause.illegal none)) ∧
  (∀ (s : State) x, 256 ≤ s.cur.qbld.length → writeG s 29 x = .error (.trap Cause.ringlen none)) ∧
  (∀ (s : State) (d e : Reg) x, d ≠ 0 → d ≠ 29 → Tbl.find 0 (putG s d x).cur.g e.toNat =
    if e = d then x else Tbl.find 0 s.cur.g e.toNat) ∧
  (∀ (s : State) x, putG s 0 x = s)


/-! ## The commit buffer (06 R107, R108) -/

/-- R107 cases 1 and 2: an entry enters at the end of the task's buffer when there is room; beyond 256 sectors or 8 tile
entries the instruction traps CBFULL; beyond the guarantee of its slot it waits while the pool is empty, and while it holds fewer sectors
than the instruction needs, which is the model's choice (log entry 12: R107 case 2 says while the pool is empty). -/
def Obligations.BufferEntry : Prop :=
  ∀ s ea loc o sc act, let e := theEntry s ea loc o sc act
    (Room s e → ∃ u, addEntry s ea loc o sc act = .ok u ∧ u.cur.buf = s.cur.buf ++ [e] ∧ e.ea = ea ∧ e.loc = loc ∧
      e.order = o ∧ e.scope = sc ∧ e.act = act ∧ u = (asks s).modCur fun t => { t with buf := t.buf ++ [e] }) ∧
    (256 < sectors (s.cur.buf ++ [e]) ∨ 8 < tiles (s.cur.buf ++ [e]) →
      addEntry s ea loc o sc act = .error (.trap Cause.cbfull none)) ∧
    (sectors (s.cur.buf ++ [e]) ≤ 256 → tiles (s.cur.buf ++ [e]) ≤ 8 → ¬ Room s e →
      ∃ k, 0 < k ∧ addEntry s ea loc o sc act = .error (.hold (.pool k)))

/-- R108: a load sees, for each byte, the task's youngest buffered store to it, nibble by nibble, and otherwise memory; a load whose
translation waits for a stage-2 fill sees the stores to the guest virtual address that it reads. -/
def Obligations.LoadsSeeOwnStores : Prop :=
  (∀ (s : State) loc (bs : List Byte), (∀ p gva gpa, loc ≠ .unmapped p gva gpa) →
    overlaid s loc bs.length bs = forward s.cur.buf loc bs) ∧
  (∀ (s : State) loc (bs : List Byte), overlaid s loc bs.length bs = forward (s.cur.buf.map fun e => e.beside loc) loc bs)

/-! ## Loads and stores (08 R134, R135) -/

/-- R134: LD of each size, C.LD (R81): alignment, translation, the read with the task's own bytes over it, the result under
the lookahead rule, zero- or sign-extended.
R133 case 5: a load whose translation waits for a stage-2 fill is made all the same, at a place that its fill maps. -/
def Obligations.Loads : Prop :=
  (∀ j d a la off n sgn s s1 x, loadForm j = some (d, a, la, off, n, sgn) → Ready j s → readG s a = .ok (s1, x) →
    ((address x off).toNat % n ≠ 0 → Halts j s (.trap Cause.align (some (address x off)))) ∧
    ((address x off).toNat % n = 0 →
      (∀ e, s1.xlateLoad (address x off) n .scalarRead = .error e → Halts j s e) ∧
      (∀ s2 loc, s1.xlateLoad (address x off) n .scalarRead = .ok (s2, loc) →
        (mayRead s2 loc n = false → Halts j s (.hold .order)) ∧
        (mayRead s2 loc n = true →
          (∀ e, readLoc (asks s2) (askNum s2) loc n false = .error e → Halts j s e) ∧
          ∀ s3 got, readLoc (asks s2) (askNum s2) loc n false = .ok (s3, got) →
            Does j s (addPending s3 (readResult s2 { gd := [d.toNat], left := la } (address x off) loc n (.int n sgn) got)) .seq)))) ∧
  (∀ (s t : State) ea n acc gpa, s.xlateAny s.curCore (s.privileged s.curCore s.curSlot) ea n acc = (t, .wait gpa) →
    ∃ u, s.xlateLoad ea n acc = .ok (u, .unmapped ((s.corePart? s.curCore).getD 0) (field ea 47 0) gpa) ∧ u.mem = t.mem ∧
      gpa ∈ (u.part ((s.corePart? s.curCore).getD 0)).faults) ∧
  (∀ s p ea loc n sgn bs, 1 ≤ n →
    (readResult s p ea loc n (.int n sgn) (some bs)).gval = [numberOf n sgn (overlaid s loc n bs)])

/-- R134: ST of each size and C.ST: alignment, translation for a write, and the store of the low bytes of gd in the buffer; no
byte of memory changes before the drain.
R134 cases 3 and 4, R133 case 7: LDP and STP move a pair of doublewords; in partition memory, here or at another device, an address of
8 mod 16 makes two accesses. -/
def Obligations.Stores : Prop :=
  (∀ j d a off n s s1 s2 x v, storeForm j = some (d, a, off, n) → Ready j s → readG s a = .ok (s1, x) → readG s1 d = .ok (s2, v) →
    ((address x off).toNat % n ≠ 0 → Halts j s (.trap Cause.align (some (address x off)))) ∧
    ((address x off).toNat % n = 0 →
      (∀ e, s2.xlate (address x off) n .write = .error e → Halts j s e) ∧
      (∀ s3 loc, s2.xlate (address x off) n .write = .ok (s3, loc) → acquirePending s3.cur = false →
        (∀ e, stores s3 (address x off) loc n v.toNat .weak .core = .error e → Halts j s e) ∧
        (∀ u, stores s3 (address x off) loc n v.toNat .weak .core = .ok u → Does j s u .seq ∧ u.wr = s3.wr)))) ∧
  (∀ d a la off s s1 x, Ready (.ldp d a la off) s → readG s a = .ok (s1, x) → ∀ ea, ea = address x (off.toInt * 16) →
    (ea.toNat % 8 ≠ 0 → Halts (.ldp d a la off) s (.trap Cause.align (some ea))) ∧
    (ea.toNat % 16 = 0 ∨ (ea.toNat % 8 = 0 ∧ 0xFFFE ≤ field ea 63 48) →
      ∀ e, s1.xlateLoad ea 16 .read = .error e → Halts (.ldp d a la off) s e) ∧
    (ea.toNat % 16 = 8 → field ea 63 48 < 0xFFFE → ∀ e,
      s1.xlateLoad ea 8 .read = .error e ∨ (∃ s2 l0, s1.xlateLoad ea 8 .read = .ok (s2, l0) ∧ s2.xlateLoad (ea + 8) 8 .read = .error e) →
      Halts (.ldp d a la off) s e) ∧
    (ea.toNat % 16 = 0 ∨ (ea.toNat % 8 = 0 ∧ 0xFFFE ≤ field ea 63 48) →
      ∀ s2 loc, s1.xlateLoad ea 16 .read = .ok (s2, loc) → mayRead s2 loc 16 = true →
      ∀ s3 got, readLoc (asks s2) (askNum s2) loc 16 false = .ok (s3, got) →
      Does (.ldp d a la off) s (addPending s3
        (readResult s2 { gd := [d.toNat, d.toNat + 1], left := la.toNat, gval := [0, 0] } ea loc 16 .pair got)) .seq) ∧
    (ea.toNat % 16 = 8 → field ea 63 48 < 0xFFFE → ∀ s2 s3 l0 l1 u, s1.xlateLoad ea 8 .read = .ok (s2, l0) →
      s2.xlateLoad (ea + 8) 8 .read = .ok (s3, l1) →
      loadInto s3 { gd := [d.toNat, d.toNat + 1], left := la.toNat, gval := [0, 0] }
        [(ea, l0, 8, .dword 0), (ea + 8, l1, 8, .dword 1)] false = .ok u →
      Does (.ldp d a la off) s u .seq)) ∧
  (∀ d a off s s1 s2 s3 x v w, Ready (.stp d a off) s → readG s a = .ok (s1, x) → readG s1 d = .ok (s2, v) →
    readG s2 (d + 1) = .ok (s3, w) → ∀ ea, ea = address x (off.toInt * 16) →
    (ea.toNat % 8 ≠ 0 → Halts (.stp d a off) s (.trap Cause.align (some ea))) ∧
    (ea.toNat % 16 = 0 ∨ (ea.toNat % 8 = 0 ∧ 0xFFFE ≤ field ea 63 48) →
      ∀ e, s3.xlate ea 16 .write = .error e → Halts (.stp d a off) s e) ∧
    (ea.toNat % 16 = 8 → field ea 63 48 < 0xFFFE → ∀ e,
      s3.xlate ea 8 .write = .error e ∨ (∃ s4 l0, s3.xlate ea 8 .write = .ok (s4, l0) ∧ s4.xlate (ea + 8) 8 .write = .error e) →
      Halts (.stp d a off) s e) ∧
    (ea.toNat % 16 = 0 ∨ (ea.toNat % 8 = 0 ∧ 0xFFFE ≤ field ea 63 48) →
      ∀ s4 loc u, s3.xlate ea 16 .write = .ok (s4, loc) → acquirePending s4.cur = false →
      stores s4 ea loc 16 (v.toNat + 2 ^ 64 * w.toNat) .weak .core = .ok u → Does (.stp d a off) s u .seq) ∧
    (ea.toNat % 16 = 8 → field ea 63 48 < 0xFFFE → ∀ s4 s5 l0 l1 u1 u2, s3.xlate ea 8 .write = .ok (s4, l0) →
      s4.xlate (ea + 8) 8 .write = .ok (s5, l1) → acquirePending s5.cur = false →
      stores s5 ea l0 8 v.toNat .weak .core = .ok u1 → stores u1 (ea + 8) l1 8 w.toNat .weak .core = .ok u2 →
      Does (.stp d a off) s u2 .seq))

/-- R135, R246, R248: LDS acquires at its scope, LDS.sc waits for the task's drained entries; STS buffers a store with its
order and scope. A misaligned one, and one whose address is not translated for it, traps; one behind an earlier acquire of the task waits. -/
def Obligations.StrongAccesses : Prop :=
  (∀ d a sc la sz sgn ord s s1 ea, Ready (.lds d a sc la sz sgn ord) s → readG s a = .ok (s1, ea) → ∀ n, n = 2 ^ sz.toNat →
    (ea.toNat % n ≠ 0 → Halts (.lds d a sc la sz sgn ord) s (.trap Cause.align (some ea))) ∧
    (ea.toNat % n = 0 → ∀ e, s1.xlateLoad ea n .scalarRead = .error e → Halts (.lds d a sc la sz sgn ord) s e) ∧
    (ea.toNat % n = 0 → ∀ s2 loc, s1.xlateLoad ea n .scalarRead = .ok (s2, loc) →
      (ord = 1 → drainedOpen s2 = true → Halts (.lds d a sc la sz sgn ord) s (.hold .order)) ∧
      (mayRead s2 loc n = false → Halts (.lds d a sc la sz sgn ord) s (.hold .order)) ∧
      (¬ (ord = 1 ∧ drainedOpen s2 = true) → mayRead s2 loc n = true → ∀ s3 got,
        readLoc (asks s2) (askNum s2) loc n (decide (1 ≤ sc.toNat)) = .ok (s3, got) →
        Does (.lds d a sc la sz sgn ord) s
          (addPending (if got ≠ none ∧ 2 ≤ acquires loc sc then s3.l1Invalidate s3.curCore else s3)
            (readResult s2 { gd := [d.toNat], left := la.toNat, acq := acquires loc sc } ea loc n (.int n (decide (sgn = 1))) got))
          .seq))) ∧
  (∀ d a sc sz ord s s1 s2 ea v, Ready (.sts d a sc sz ord) s → readG s a = .ok (s1, ea) → readG s1 d = .ok (s2, v) →
    ∀ n, n = 2 ^ sz.toNat →
    (ea.toNat % n ≠ 0 → Halts (.sts d a sc sz ord) s (.trap Cause.align (some ea))) ∧
    (ea.toNat % n = 0 → ∀ e, s2.xlate ea n .write = .error e → Halts (.sts d a sc sz ord) s e) ∧
    (ea.toNat % n = 0 → ∀ s3 loc, s2.xlate ea n .write = .ok (s3, loc) →
      (acquirePending s3.cur = true → Halts (.sts d a sc sz ord) s (.hold .order)) ∧
      (acquirePending s3.cur = false →
        (∀ e, stores s3 ea loc n v.toNat (if ord = 1 then .sc else .rel) (scopeOf sc) = .error e → Halts (.sts d a sc sz ord) s e) ∧
        (∀ u, stores s3 ea loc n v.toNat (if ord = 1 then .sc else .rel) (scopeOf sc) = .ok u → Does (.sts d a sc sz ord) s u .seq))))

/-- R136, R137: FNC waits for every result (R136 says every earlier load result; the model's reading, log entry 12), with .sl also for the
stores that the task has drained, buffers its mark and, with .ll or .sl, acquires at its scope; behind a drained mark with .sl a load waits
while a store before the mark is not performed. PFX never faults, brings the line into the core's L1 at .core and .grp and to its home at
.dev and .sys. CLN merges the partial sums of the line at its home, of another device's line by a read of a byte there (log entry 13), and
is under way until the reply comes. INVL drops the line from the core's L1 at .core, of a fused L1 for that core alone (log entry 13), and
at .grp from every portion of the cluster; .dev and .sys trap ILLEGAL; an address that gives no right drops nothing and does not trap (log
entry 13). -/
def Obligations.FencesAndLines : Prop :=
  (∀ kinds sc s, Ready (.fnc kinds sc) s → ResultsIn s → kinds.getLsbD 2 = true → storesOpen s = true →
    Halts (.fnc kinds sc) s (.hold .order)) ∧
  (∀ kinds sc s u, Ready (.fnc kinds sc) s → ResultsIn s → (kinds.getLsbD 2 = true → storesOpen s = false) →
    addEntry s 0 (.spad 0 0) (if kinds.getLsbD 3 then (if kinds.getLsbD 2 then .sc else .rel) else if kinds.getLsbD 2 then .acq else .weak)
      (scopeOf sc) .fence = .ok u →
    Does (.fnc kinds sc) s (if kinds.getLsbD 0 ∨ kinds.getLsbD 2 then u.acquire u.curCore (scopeOf sc) else u) .seq) ∧
  (∀ kinds sc s p, Ready (.fnc kinds sc) s → p ∈ s.cur.pend → p.arrived = false → (∀ q ∈ s.cur.pend, q.arrived = true → q.bad = none) →
    Halts (.fnc kinds sc) s (.hold .results)) ∧
  (∀ (s : State) loc n f g bs, f ∈ (s.core s.curCore).flight → f.e.task = s.cur.task → f.e.act = .fence →
    (f.e.order = .acq ∨ f.e.order = .sc) → g ∈ (s.core s.curCore).before f.e → g.e.act = .store bs → mayRead s loc n = false) ∧
  (∀ a sc s s1 ea, Ready (.pfx a sc) s → readG s a = .ok (s1, ea) → ∃ u, Does (.pfx a sc) s u .seq) ∧
  (∀ a sc s s1 ea s2 part phys gva gpa, Ready (.pfx a sc) s → readG s a = .ok (s1, ea) →
    s1.xlateAny s1.curCore (s1.privileged s1.curCore s1.curSlot) ea 1 .read = (s2, .at_ (.hbm part phys gva gpa)) →
    s2.busy part phys gpa 1 false = false → s2.planeOpen part = true →
    s2.nearOpen (clusterOf s1.curCore) none (.hbm part phys 0 gpa) 1 = false →
    (2 ≤ sc.toNat → Does (.pfx a sc) s (s2.openLines (some (clusterOf s1.curCore)) part phys gpa 1) .seq) ∧
    (sc.toNat < 2 → Does (.pfx a sc) s
      (if s2.l1Lines s1.curCore = 0 then s2 else s2.l1Fetch s1.curCore part (phys / 128) gpa) .seq)) ∧
  (∀ a sc s s1 ea s2 part phys gva gpa, Ready (.cln a sc) s → readG s a = .ok (s1, ea) →
    s1.xlate ea 1 .clean = .ok (s2, .hbm part phys gva gpa) →
    (s2.planeOpen part = true → Does (.cln a sc) s (s2.mergeLine (phys / 128)) .seq) ∧
    (s2.planeOpen part = false → Halts (.cln a sc) s (.hold .order))) ∧
  (∀ a sc s s1 ea s2 part phys gva gpa, Ready (.invl a sc) s → readG s a = .ok (s1, ea) →
    s1.xlate ea 1 .inval = .ok (s2, .hbm part phys gva gpa) →
    (sc = 0 → (s2.core s2.curCore).fused = false → Does (.invl a sc) s (s2.l1Drop s2.curCore (phys / 128)) .seq) ∧
    (sc = 0 → (s2.core s2.curCore).fused = true → ∀ l,
      Tbl.get? (s2.core (s2.portion s2.curCore (phys / 128))).l1 (phys / 128) = some l →
      Does (.invl a sc) s (s2.modCore (s2.portion s2.curCore (phys / 128)) fun k =>
        { k with l1 := Tbl.set k.l1 (phys / 128) { l with valid := l.valid.filter (· != s2.curCore) } }) .seq) ∧
    (sc = 1 → Does (.invl a sc) s ((coresOf (clusterOf s2.curCore)).foldl (fun s k => s.l1Drop k (phys / 128)) s2) .seq)) ∧
  (∀ a sc s s1 ea s2 loc, readG s a = .ok (s1, ea) → (∀ part phys gva gpa, loc ≠ .hbm part phys gva gpa) →
    (Ready (.cln a sc) s → s1.xlate ea 1 .clean = .ok (s2, loc) → (∀ dev part off dom, loc ≠ .peer dev part off dom) →
      Does (.cln a sc) s s2 .seq) ∧
    (Ready (.cln a sc) s → s1.xlate ea 1 .clean = .ok (s2, loc) → ∀ dev part off dom, loc = .peer dev part off dom →
      (s2.flowRoom (s2.flowTo dev 0) = false ∨ s2.coreOpen s2.curCore = false → Halts (.cln a sc) s (.hold .order)) ∧
      (s2.flowRoom (s2.flowTo dev 0) = true → s2.coreOpen s2.curCore = true → Does (.cln a sc) s
        (((asks s2).modCore s2.curCore fun k => { k with
          flight := k.flight ++ [⟨theEntry s2 ea loc .weak (scopeOf sc) .clean, .sent⟩] }).sendService dev 0 dom s2.curCore (askNum s2)
            (.load part off 1)) .seq)) ∧
    (Ready (.invl a sc) s → s1.xlate ea 1 .inval = .ok (s2, loc) → Does (.invl a sc) s s2 .seq)) ∧
  (∀ a sc s s1 ea, Ready (.invl a sc) s → readG s a = .ok (s1, ea) → noRight s1 ea = true → Does (.invl a sc) s s1 .seq) ∧
  (∀ a sc s s1 ea e, Ready (.invl a sc) s → readG s a = .ok (s1, ea) → noRight s1 ea = false → s1.xlate ea 1 .inval = .error e →
    Halts (.invl a sc) s e) ∧
  (∀ a sc s, 2 ≤ sc.toNat → s.wr = [] → s.cur.running = true → (s.cur.budg ≠ 0 ∨ s.cur.checked = true ∨ s.cur.handed = true) →
    Halts (.invl a sc) s (.trap Cause.illegal none)) ∧
  (∀ a sc s s1 ea e, Ready (.cln a sc) s → readG s a = .ok (s1, ea) → s1.xlate ea 1 .clean = .error e → Halts (.cln a sc) s e)

/-- R138: TMAD reads the map at its address for the coordinates that G(b) gives, its own under bit 63 or, without it, those of a tile of
the launch, on whichever device it was accepted (03 R47; log entry 9); the element's address, or a fault of the map, comes with the result;
bits of G(b) that must be 0 and are not trap ILLEGAL. -/
def Obligations.MapAddresses : Prop :=
  ∀ d a b la s s1 s2 ea w, Ready (.tmad d a b la) s → readG s a = .ok (s1, ea) → readG s1 b = .ok (s2, w) →
    (ea.toNat % 64 ≠ 0 → Halts (.tmad d a b la) s (.trap Cause.align (some ea))) ∧
    (ea.toNat % 64 = 0 → ∀ e, s2.xlateLoad ea 64 .read = .error e → Halts (.tmad d a b la) s e) ∧
    (ea.toNat % 64 = 0 → ∀ s3 loc, s2.xlateLoad ea 64 .read = .ok (s3, loc) →
      ((bitAt w 63 = true ∧ field w 62 60 ≠ 0) ∨ (bitAt w 63 = false ∧ (s3.rcdAny? s3.cur.launch = none ∨ field w 62 28 ≠ 0)) →
        Halts (.tmad d a b la) s (.trap Cause.illegal none)) ∧
      (∀ c, (bitAt w 63 = true ∧ field w 62 60 = 0 ∧ c = [field w 14 0, field w 29 15, field w 44 30, field w 59 45]) ∨
          (bitAt w 63 = false ∧ field w 62 28 = 0 ∧ ∃ r, s3.rcdAny? s3.cur.launch = some r ∧
            c = [Rec.coord r (field w 27 0) 0, Rec.coord r (field w 27 0) 1, Rec.coord r (field w 27 0) 2, Rec.coord r (field w 27 0) 3]) →
        mayRead s3 loc 64 = true → ∀ s4 got, readLoc (asks s3) (askNum s3) loc 64 false = .ok (s4, got) →
        Does (.tmad d a b la) s
          (addPending s4 (readResult s3 { gd := [d.toNat], left := la.toNat } ea loc 64 (.tmad c ea) got)) .seq))

/-- R139 to R142, R9, R80: AMO reads its operands once, drains, then hands its request on with order sc at the scope that covers core and
owner, and its result is outstanding; on a mirror core nothing is sent. AMOP and RED buffer an entry; RED only an operation that the launch declares (a task
of no launch none: log entry 9), and never on local places. -/
def Obligations.Atomics : Prop :=
  (∀ d a b la op sz s s3 ea p q, Ready (.amo d a b la op sz) s →
    Operands s (fun v l => ∃ s1 s2, readG s a = .ok (s1, ea) ∧ readG s1 b = .ok (s2, p) ∧
      (if op = 9 then readG s2 (b + 1) else .ok (s2, 0)) = .ok (v, q) ∧ l = [ea, p, q]) [ea, p, q] s3 →
    ∀ n, n = (if sz = 1 then 8 else 4) →
    (ea.toNat % n ≠ 0 → Halts (.amo d a b la op sz) s (.trap Cause.align (some ea))) ∧
    (ea.toNat % n = 0 → ∀ e, s3.xlateLoad ea n .atomic = .error e → Halts (.amo d a b la op sz) s e) ∧
    (ea.toNat % n = 0 → ∀ s4 loc, s3.xlateLoad ea n .atomic = .ok (s4, loc) → Commits.waits s4 →
      Answers (exec (.amo d a b la op sz) s) fun t =>
        t = State.settleMem { (handsOn s4).modCur (fun t => { t with wait := .handing false }) with mem := s.mem, plat := s.plat }) ∧
    (ea.toNat % n = 0 → ∀ s4 loc u, s3.xlateLoad ea n .atomic = .ok (s4, loc) → Commits s4 u →
      let c := s.curCore
      let e := theEntry u ea loc .sc (coveringScope c loc) (.amo op.toNat n p q ((asks u).core c).reqs)
      let v := addPending (asks u) { gd := [d.toNat], left := la.toNat, acq := scopeNum (coveringScope c loc) + 1 }
      Does (.amo d a b la op sz) s
        (if (u.primaryOf? c).isSome then v else v.modCore c fun k => { k with flight := k.flight ++ [⟨e, .waiting⟩] }) .seq)) ∧
  (∀ a b op sz s s1 s2 ea p, Ready (.amop a b op sz) s → readG s a = .ok (s1, ea) → readG s1 b = .ok (s2, p) →
    ∀ n, n = (if sz = 1 then 8 else 4) →
    (ea.toNat % n ≠ 0 → Halts (.amop a b op sz) s (.trap Cause.align (some ea))) ∧
    (ea.toNat % n = 0 → ∀ e, s2.xlate ea n .atomic = .error e → Halts (.amop a b op sz) s e) ∧
    (ea.toNat % n = 0 → ∀ s3 loc u, s2.xlate ea n .atomic = .ok (s3, loc) → acquirePending s3.cur = false →
      addEntry s3 ea loc .weak .core (.amop op.toNat n p) = .ok u → Does (.amop a b op sz) s u .seq)) ∧
  (∀ a b op sz s, Ready (.red a b op sz) s →
    (redAdmitted s op = false → Halts (.red a b op sz) s (.trap Cause.illegal none)) ∧
    (redAdmitted s op = true → ∀ s1 s2 ea p, readG s a = .ok (s1, ea) → readG s1 b = .ok (s2, p) → ∀ n, n = (if sz = 1 then 8 else 4) →
      (0xFFFE ≤ field ea 63 48 → Halts (.red a b op sz) s (.trap Cause.illegal none)) ∧
      (field ea 63 48 < 0xFFFE → ea.toNat % n ≠ 0 → Halts (.red a b op sz) s (.trap Cause.align (some ea))) ∧
      (field ea 63 48 < 0xFFFE → ea.toNat % n = 0 → ∀ e, s2.xlate ea n .red = .error e → Halts (.red a b op sz) s e) ∧
      (field ea 63 48 < 0xFFFE → ea.toNat % n = 0 → ∀ s3 loc u, s2.xlate ea n .red = .ok (s3, loc) → acquirePending s3.cur = false →
        addEntry s3 ea loc .weak .core (.red op.toNat n p) = .ok u → Does (.red a b op sz) s u .seq)))

/-! ## Messages, walkers, launches (08 R144 to R155; 04 R67, R71, R72; 03 R52, R53) -/

/-- R146, R147: SENDK, SEND and SENDX check their place word and operands and buffer one message with the quad as its words;
the builder, or a region of the scratchpad, is its payload, a region its code; the builder is emptied. -/
def Obligations.Sends : Prop :=
  (∀ d a cls bnc s s1 s2 w q tg u, Ready (.sendk d a cls bnc) s → readG s d = .ok (s1, w) → placeTargets s1 w = .ok tg →
    readQuad s1 a = .ok (s2, q) → (builtBytes s2.cur).length ≤ 2048 → acquirePending s2.cur = false →
    let m := taskMsg s2 .byClass w cls.toNat bnc.toNat 0 q (builtBytes s2.cur) []
    addEntry s2 w (.spad 0 0) .rel .sys (.send m tg) = .ok u →
    Does (.sendk d a cls bnc) s (u.modCur fun t => { t with qbld := [] }) .seq) ∧
  (∀ d a b s s1 s2 s3 w q x tg region u, Ready (.send d a b) s → readG s d = .ok (s1, w) → placeTargets s1 w = .ok tg →
    readQuad s1 a = .ok (s2, q) → readG s2 b = .ok (s3, x) → bitAt x 15 = false →
    (builtBytes s3.cur = [] ∨ field x 49 38 = 0) → field x 49 38 ≤ 2048 →
    (if field x 49 38 = 0 then .ok [] else spadRegion s3 (16 * field x 63 50) (field x 49 38)) = .ok region →
    (builtBytes s3.cur ++ region).length ≤ 2048 →
    acquirePending s3.cur = false →
    let m := taskMsg s3 .byAddress w (field x 15 0) (field x 37 32) (field x 31 16) q (builtBytes s3.cur ++ region) []
    addEntry s3 w (.spad 0 0) .rel .sys (.send m tg) = .ok u →
    Does (.send d a b) s (u.modCur fun t => { t with qbld := [] }) .seq) ∧
  (∀ d a b s s1 s2 s3 w q x tg region u, Ready (.sendx d a b) s → readG s d = .ok (s1, w) → placeTargets s1 w = .ok tg →
    readQuad s1 a = .ok (s2, q) → readG s2 b = .ok (s3, x) → bitAt x 15 = true → field x 14 0 < field x 49 38 / 2 →
    field x 49 38 ≤ 256 → field x 49 38 % 2 = 0 → spadRegion s3 (16 * field x 63 50) (field x 49 38) = .ok region →
    (builtBytes s3.cur).length ≤ 2048 → acquirePending s3.cur = false →
    let m := taskMsg s3 .carried w (field x 15 0) (field x 37 32) (field x 31 16) q (builtBytes s3.cur) (halvesOf region)
    addEntry s3 w (.spad 0 0) .rel .sys (.send m tg) = .ok u →
    Does (.sendx d a b) s (u.modCur fun t => { t with qbld := [] }) .seq) ∧
  (∀ j d, (∃ a b, j = .send d a b ∨ j = .sendx d a b) ∨ (∃ a c b, j = .sendk d a c b) → ∀ s s1 w e, Ready j s →
    readG s d = .ok (s1, w) → placeTargets s1 w = .error e → Halts j s e) ∧
  (∀ d a b s s1 s2 s3 w q x tg, readG s d = .ok (s1, w) → placeTargets s1 w = .ok tg → readQuad s1 a = .ok (s2, q) →
    readG s2 b = .ok (s3, x) → let len := field x 49 38
    (Ready (.send d a b) s →
      (bitAt x 15 = true → Halts (.send d a b) s (.trap Cause.illegal none)) ∧
      (bitAt x 15 = false → ((builtBytes s3.cur ≠ [] ∧ 0 < len) ∨ 2048 < len) → Halts (.send d a b) s (.trap Cause.ringlen none)) ∧
      (bitAt x 15 = false → builtBytes s3.cur = [] → 0 < len → len ≤ 2048 → ∀ e, spadRegion s3 (16 * field x 63 50) len = .error e →
        Halts (.send d a b) s e)) ∧
    (Ready (.sendx d a b) s →
      (bitAt x 15 = false ∨ len / 2 ≤ field x 14 0 → Halts (.sendx d a b) s (.trap Cause.illegal none)) ∧
      (bitAt x 15 = true → field x 14 0 < len / 2 → (256 < len ∨ len % 2 ≠ 0) → Halts (.sendx d a b) s (.trap Cause.ringlen none)) ∧
      (bitAt x 15 = true → field x 14 0 < len / 2 → len ≤ 256 → len % 2 = 0 → ∀ e, spadRegion s3 (16 * field x 63 50) len = .error e →
        Halts (.sendx d a b) s e)))

/-- R150, R152 to R154, R9, R80: SPWN reads its operands once, drains, then hands the child's message on and its result is outstanding; DEQ takes a whole record,
which acquires, or zeros without one; RDX buffers a request once its source is translated and its consumers are checked. -/
def Obligations.SpawnsAndReads : Prop :=
  (∀ d a b la s s2 q x tg u, Ready (.spwn d a b la) s →
    Operands s (fun v l => ∃ s1, readQuad s a = .ok (s1, q) ∧ readG s1 b = .ok (v, x) ∧ l = [q.a, q.b, q.c, q.d, x])
      [q.a, q.b, q.c, q.d, x] s2 → bitAt x 63 = false → field x 47 38 = 0 → plKind (BitVec.ofNat 64 (field x 37 0)) ≠ 1 → plKind (BitVec.ofNat 64 (field x 37 0)) ≠ 2 →
    s2.ownDevice (BitVec.ofNat 64 (field x 37 0)) = true → placeTargets s2 (BitVec.ofNat 64 (field x 37 0)) = .ok tg → Commits s2 u →
    let w : W64 := BitVec.ofNat 64 (field x 37 0)
    let c := s.curCore
    let m := taskMsg (asks u) .spawn w (field x 63 48) 0 0 q [] []
    let e := theEntry u w (.spad 0 0) .rel .dev (.spawn m (tg.headD (.core c)) ((asks u).core c).reqs)
    let v := addPending (asks u) { gd := [d.toNat], left := la.toNat }
    Does (.spwn d a b la) s
      (if (u.primaryOf? c).isSome then v else v.modCore c fun k => { k with flight := k.flight ++ [⟨e, .waiting⟩] }) .seq) ∧
  (∀ d a b la s s2 q x, Ready (.spwn d a b la) s →
    Operands s (fun v l => ∃ s1, readQuad s a = .ok (s1, q) ∧ readG s1 b = .ok (v, x) ∧ l = [q.a, q.b, q.c, q.d, x])
      [q.a, q.b, q.c, q.d, x] s2 →
    let w : W64 := BitVec.ofNat 64 (field x 37 0)
    (bitAt x 63 = true ∨ field x 47 38 ≠ 0 ∨ plKind w = 1 ∨ plKind w = 2 → Halts (.spwn d a b la) s (.trap Cause.illegal none)) ∧
    (bitAt x 63 = false → field x 47 38 = 0 → plKind w ≠ 1 → plKind w ≠ 2 →
      (s2.ownDevice w = false → Halts (.spwn d a b la) s (.trap Cause.permission (some w))) ∧
      (s2.ownDevice w = true → ∀ e, placeTargets s2 w = .error e → Halts (.spwn d a b la) s e))) ∧
  (∀ d la s, Ready (.deq d la) s →
    (s.cur.bound ≠ none → Halts (.deq d la) s (.trap Cause.illegal none)) ∧
    (s.cur.bound = none → s.takeRecord = none →
      Does (.deq d la) s (laterG s la.toNat [d.toNat, d.toNat + 1, d.toNat + 2, d.toNat + 3] [0, 0, 0, 0]) .seq) ∧
    (∀ r u, s.cur.bound = none → s.takeRecord = some (r, u) → Does (.deq d la) s
      (laterG (u.l1Invalidate u.curCore) la.toNat [d.toNat, d.toNat + 1, d.toNat + 2, d.toNat + 3] [r.w0, r.w1, r.w2, r.w3]) .seq)) ∧
  (∀ a s s1 q, Ready (.rdx a) s → readQuad s a = .ok (s1, q) →
    (q.b = 0 ∨ 65536 < q.b.toNat ∨ rdxMode q.d = 3 ∨ field q.d 45 32 ≠ 0 ∨ bitAt q.d 6 = true ∨ rdxDoff q.d % 16 ≠ 0 ∨ plKind q.c = 2 →
      Halts (.rdx a) s (.trap Cause.illegal none)) ∧
    (1 ≤ q.b.toNat → q.b.toNat ≤ 65536 → rdxMode q.d ≠ 3 → field q.d 45 32 = 0 → bitAt q.d 6 = false → rdxDoff q.d % 16 = 0 →
      plKind q.c ≠ 2 →
      (rdxMode q.d = 0 → 2048 < q.b.toNat → Halts (.rdx a) s (.trap Cause.ringlen none)) ∧
      (¬ (rdxMode q.d = 0 ∧ 2048 < q.b.toNat) → ∀ e, xlateRange q.a q.b.toNat 2 s1 = .error e → Halts (.rdx a) s e) ∧
      (¬ (rdxMode q.d = 0 ∧ 2048 < q.b.toNat) → ∀ s2 loc, xlateRange q.a q.b.toNat 2 s1 = .ok (s2, loc) →
        ∀ e, placeTargets s2 q.c = .error e → Halts (.rdx a) s e) ∧
      (¬ (rdxMode q.d = 0 ∧ 2048 < q.b.toNat) → ∀ s2 loc tg, xlateRange q.a q.b.toNat 2 s1 = .ok (s2, loc) →
        placeTargets s2 q.c = .ok tg →
        (∀ t ∈ tg, ∀ dev part dom e, t = .device dev part dom → locDomain loc = some e → dom = e) → acquirePending s2.cur = false →
        ∀ u, addEntry s2 q.a loc .rel .sys (.rdx (rdxRequest s2 q tg) loc tg) = .ok u → Does (.rdx a) s u .seq)))

/-- R67, R71, R72: WKNX gives a tile of the task's walker, after a cleave when G(a)[0] asks for one, or all ones; CLV the result
word of a cleave; WKRD a word of a walker. The value arrives under the lookahead rule.
R61, R64: a take gives the returned index that has waited longest, else an untaken index of the window, which the walker then counts as
taken and slides over (Takes, Slid); what a take gives is marked taken by its tile entry, which returns it when the task aborts.
R67, R71, R72, R62 to R64: what WKNX, CLV and WKRD give, by the walker that serves the task. Without a walker WKNX and WKRD give all
ones, CLV code 4. WKNX gives a returned index first, else an untaken one of the window, else all ones, or what it takes after a cleave
that G(a)[0] asks for. CLV refuses with code 1 a walker that is not dry, with 2 a victim with less than two untaken indices, with 4 a
number that no other walker of the stage has, and moves half of the victim's untaken indices otherwise. WKRD gives a walker's state word
or window word. That WKNX's take, cleave and second take, and the tries of a nearest search, are one step is the model's choice (log entry
12: R70 makes each take and each cleave one). -/
def Obligations.Walkers : Prop :=
  (∀ d a la s s1 s2 x v, Ready (.wknx d a la) s → readG s a = .ok (s1, x) → s1.wknx (x.getLsbD 0) = .ok (s2, v) →
    Does (.wknx d a la) s (laterG s2 la.toNat [d.toNat] [v]) .seq) ∧
  (∀ d a la s s1 s2 x v, Ready (.clv d a la) s → readG s a = .ok (s1, x) → s1.clv x = .ok (s2, v) →
    Does (.clv d a la) s (laterG s2 la.toNat [d.toNat] [v]) .seq) ∧
  (∀ d a b la s s1 s2 x y, Ready (.wkrd d a b la) s → readG s a = .ok (s1, x) → readG s1 b = .ok (s2, y) →
    (1 < y.toNat → Halts (.wkrd d a b la) s (.trap Cause.illegal none)) ∧
    (∀ s3 v, y.toNat ≤ 1 → s2.wkrd x y = .ok (s3, v) → Does (.wkrd d a b la) s (laterG s3 la.toNat [d.toNat] [v]) .seq)) ∧
  (∀ (s : State) ask u v, s.wknx ask = .ok (u, v) → s.primaryOf? s.curCore = none → v ≠ 0xFFFFFFFFFFFFFFFF#64 →
    ∃ e k n i, e ∈ u.cur.buf ∧ e.act = .tile k n i ∧ i = v.toNat) ∧
  (∀ (s : State) ask, s.myWalker? = none → s.primaryOf? s.curCore = none → s.mirrorOf? s.curCore = none →
    s.wknx ask = .ok (s, 0xFFFFFFFFFFFFFFFF#64)) ∧
  (∀ d a la s s1 x, Ready (.wknx d a la) s → readG s a = .ok (s1, x) → unpaired s1 →
    (s1.myWalker? = none → Does (.wknx d a la) s (laterG s1 la.toNat [d.toNat] [allOnes]) .seq) ∧
    (∀ k n w r, HasWalker s1 k n w r → windowOpen w → Room s1 (theEntry s1 0 (.spad 0 0) .weak .core (.tile k n 0)) →
      x.getLsbD 0 = false ∨ w.ret ≠ [] ∨ w.lo ≠ w.hi →
      ∃ u v, Takes s1 k n w r u v ∧ Does (.wknx d a la) s (laterG u la.toNat [d.toNat] [v]) .seq)) ∧
  (∀ d a la s s1 x, Ready (.clv d a la) s → readG s a = .ok (s1, x) → unpaired s1 →
    let Gives (u : State) (v : W64) : Prop := Does (.clv d a la) s (laterG u la.toNat [d.toNat] [v]) .seq
    (s1.myWalker? = none → Gives s1 (clvResult 4 0xFF 0)) ∧
    (∀ k n w r, HasWalker s1 k n w r →
      let all := s1.stageWalkers w.launch w.stage
      (x = allOnes → w.dry = false → Gives s1 (clvResult 1 0xFF 0)) ∧
      (x = allOnes → w.dry = true → ∃ u v, Gives u v ∧ (v = clvResult 3 0xFF 0 ∨
        ∃ e ∈ all, e.2.2.num ≠ w.num ∧ v = clvResult 0 e.2.2.num (e.2.2.avail e.2.2.lo / 2))) ∧
      (x ≠ allOnes → (∀ e ∈ all, e.2.2.num ≠ x.toNat) ∨ w.num = x.toNat → Gives s1 (clvResult 4 0xFF 0)) ∧
      (∀ e, x ≠ allOnes → all.find? (fun e => e.2.2.num == x.toNat) = some e → w.num ≠ x.toNat →
        (w.dry = false → Gives s1 (clvResult 1 0xFF 0)) ∧
        (w.dry = true → e.2.2.avail e.2.2.lo < 2 → Gives s1 (clvResult 2 x.toNat 0)) ∧
        (w.dry = true → 2 ≤ e.2.2.avail e.2.2.lo → ∃ u, Gives u (clvResult 0 x.toNat (e.2.2.avail e.2.2.lo / 2)))))) ∧
  (∀ d a b la s s1 s2 x y, Ready (.wkrd d a b la) s → readG s a = .ok (s1, x) → readG s1 b = .ok (s2, y) → y.toNat ≤ 1 → unpaired s2 →
    let Gives (v : W64) : Prop := Does (.wkrd d a b la) s (laterG s2 la.toNat [d.toNat] [v]) .seq
    (s2.myWalker? = none → Gives allOnes) ∧
    (∀ k n w r, HasWalker s2 k n w r →
      (x = allOnes → Gives (walkerWord w y)) ∧
      (∀ e, x ≠ allOnes → (s2.stageWalkers w.launch w.stage).find? (fun e => e.2.2.num == x.toNat) = some e →
        Gives (walkerWord e.2.2 y)) ∧
      (x ≠ allOnes → (∀ e ∈ s2.stageWalkers w.launch w.stage, e.2.2.num ≠ x.toNat) → Gives allOnes)))

/-- R52, R53: LNCH buffers a launch of the record at its address and writes its ticket, the core's count of committed launches
and the task's own before it plus one; a misaligned record traps ALIGN. TRIG buffers its mark once in a task. -/
def Obligations.LaunchInstructions : Prop :=
  (∀ d a b s s1 s2 addr q, Ready (.lnch d a b) s → readG s a = .ok (s1, addr) → readG s1 b = .ok (s2, q) →
    (addr.toNat % 128 ≠ 0 → Halts (.lnch d a b) s (.trap Cause.align (some addr))) ∧
    (∀ u ticket, addr.toNat % 128 = 0 →
      ticket = ((s2.core s2.curCore).launchCount + 1 +
        (s2.cur.buf.filter fun e => match e.act with | .launch _ _ _ _ _ => true | _ => false).length) % 2 ^ 32 →
      addEntry s2 addr (.spad s2.curCore 0) .rel .dev (.launch addr (field q 5 0) (q.getLsbD 8) (q.getLsbD 9) ticket) = .ok u →
      settable u d = true → Does (.lnch d a b) s (putG u d (BitVec.ofNat 64 ticket)) .seq)) ∧
  (∀ s, Ready .trig s →
    ((∃ e ∈ s.cur.buf, e.act = .trig) → Does .trig s s .seq) ∧
    ((∀ e ∈ s.cur.buf, e.act ≠ .trig) → ∀ u, addEntry s 0 (.spad s.curCore 0) .rel .dev .trig = .ok u → Does .trig s u .seq))

/-! ## The mortar plane's instructions (17 R276 to R283) -/

/-- R277, R278: CARV, CEXP, CJOIN and CQUIT check their operands and buffer an entry; CARV with the immediate-commit flag drains
and hands its arrival on at once; a core that is no member of the course traps ILLEGAL.
R279, R281: CMIS gives the members of a course that have not arrived, SCRD the round and the step clock of a scope, a
completion of the task once it arrives, LGRD the legitimacy word or the core's taint aborts. That SCRD of scope 2 traps ILLEGAL for a task
without a launch record here, a launch of another device included, is the model's choice (log entry 9). -/
def Obligations.CourseInstructions : Prop :=
  (∀ a b s s2 q x, Ready (.carv a b) s →
    Operands s (fun v l => ∃ s1, readQuad s a = .ok (s1, q) ∧ readG s1 b = .ok (v, x) ∧ l = [q.a, q.b, q.c, q.d, x])
      [q.a, q.b, q.c, q.d, x] s2 →
    let bit := 8 * indexOf s.curCore + s.curSlot
    let act : Act := .arrive (field x 3 0) (field x 9 4) (!bitAt x 10) q
    (field x 63 12 ≠ 0 → Halts (.carv a b) s (.trap Cause.illegal none)) ∧
    (field x 63 12 = 0 →
      (((s2.cluster (clusterOf s.curCore)).course (field x 3 0)).mem.getLsbD bit = false →
        Halts (.carv a b) s (.trap Cause.illegal none)) ∧
      (((s2.cluster (clusterOf s.curCore)).course (field x 3 0)).mem.getLsbD bit = true →
        (bitAt x 11 = false → ∀ u, addEntry s2 0 (.spad 0 0) .rel .grp act = .ok u → Does (.carv a b) s u .seq) ∧
        (bitAt x 11 = true → ∀ u, Commits s2 u →
          Does (.carv a b) s (if (u.primaryOf? s.curCore).isSome then asks u
            else (asks u).modCore s.curCore fun k => { k with
              flight := k.flight ++ [⟨theEntry u 0 (.spad 0 0) .rel .grp act, .waiting⟩] }) .seq)))) ∧
  (∀ a b s s1 s2 x y, Ready (.cexp a b) s → readG s a = .ok (s1, x) → x.toNat ≤ 15 → readG s1 b = .ok (s2, y) →
    let k := (s2.cluster (clusterOf s2.curCore)).course x.toNat
    let bit := memberBit s2.curCore s2.curSlot
    (2 ^ 32 ≤ y.toNat → Halts (.cexp a b) s (.trap Cause.illegal none)) ∧
    (y.toNat < 2 ^ 32 → ∀ u,
      addEntry s2 0 (.spad 0 0) .weak .grp (.cexp x.toNat y.toNat (k.working bit) (k.mem.getLsbD bit)) = .ok u →
      Does (.cexp a b) s u .seq)) ∧
  (∀ a s s1 x, readG s a = .ok (s1, x) →
    (Ready (.cjoin a) s → x.toNat ≤ 15 → ∀ u, addEntry s1 0 (.spad 0 0) .weak .grp (.cjoin x.toNat) = .ok u → Does (.cjoin a) s u .seq) ∧
    (Ready (.cquit a) s → x.toNat ≤ 15 → ∀ u, addEntry s1 0 (.spad 0 0) .weak .grp (.cquit x.toNat) = .ok u → Does (.cquit a) s u .seq) ∧
    (15 < x.toNat → (Ready (.cjoin a) s → Halts (.cjoin a) s (.trap Cause.illegal none)) ∧
      (Ready (.cquit a) s → Halts (.cquit a) s (.trap Cause.illegal none)) ∧
      (∀ b, Ready (.cexp a b) s → Halts (.cexp a b) s (.trap Cause.illegal none)) ∧
      (∀ d b la, Ready (.cmis d a b la) s → Halts (.cmis d a b la) s (.trap Cause.illegal none)))) ∧
  (∀ d a b la s s1 s2 x y, Ready (.cmis d a b la) s → readG s a = .ok (s1, x) → x.toNat ≤ 15 → readG s1 b = .ok (s2, y) →
    1 < y.toNat → Halts (.cmis d a b la) s (.trap Cause.illegal none)) ∧
  (∀ d a b la s s1 s2 x y, Ready (.cmis d a b la) s → readG s a = .ok (s1, x) → x.toNat ≤ 15 → readG s1 b = .ok (s2, y) →
    y.toNat ≤ 1 →
    let k := (s2.cluster (clusterOf s2.curCore)).course x.toNat
    let miss := (k.mem &&& ~~~k.f.arr).toNat
    Does (.cmis d a b la) s (laterG s2 la.toNat [d.toNat]
      [BitVec.ofNat 64 (if y = 0 then miss % 2 ^ 64 else miss / 2 ^ 64 + k.f.q % 4 * 256)]) .seq) ∧
  (∀ d la sc s, Ready (.scrd d la sc) s → sc = 2 → s.rcd? s.cur.launch = none → Halts (.scrd d la sc) s (.trap Cause.illegal none)) ∧
  (∀ d la sc s, Ready (.scrd d la sc) s → (sc = 2 → (s.rcd? s.cur.launch).isSome) →
    (8 ≤ s.cur.pairCount → Halts (.scrd d la sc) s (.hold .pair)) ∧
    (s.cur.pairCount < 8 →
      let i := s.instOf s.curCore sc.toNat
      let r := (s.detector i).round
      let v := [BitVec.ofNat 64 (r % 2 ^ 32 * 2 ^ 32 + s.clockOf s.curCore sc.toNat s.cur.launch % 2 ^ 32)]
      Does (.scrd d la sc) s
        (addPending s { gd := [d.toNat], left := la.toNat, ready := true, comp := some ⟨.clock, i, r⟩, gval := v }) .seq)) ∧
  (∀ d a la sc s s1 x, Ready (.lgrd d a la sc) s → readG s a = .ok (s1, x) →
    (1 < x.toNat → Halts (.lgrd d a la sc) s (.trap Cause.illegal none)) ∧
    (x = 0 → Does (.lgrd d a la sc) s (laterG s1 la.toNat [d.toNat] [s1.legitWord (s1.instOf s1.curCore sc.toNat)]) .seq) ∧
    (x = 1 → Does (.lgrd d a la sc) s
      (laterG s1 la.toNat [d.toNat] [BitVec.ofNat 64 ((s1.core s1.curCore).taintAborts % 2 ^ 32)]) .seq))

/-- R280, R282, R283: TKRQ, TKPS, TRMC and TRRD check their operands and buffer an entry; a second TKPS of a task is ignored; TRRD
gives the number of its generation; an operation that the launch does not declare, and a task of no launch, traps ILLEGAL. That TRMC traps
ILLEGAL for a task without a launch record here, a launch of another device included, is the model's choice (log entry 9). -/
def Obligations.TokensAndTrellises : Prop :=
  (∀ a b sc s s1 s2 x y, Ready (.tkrq a b sc) s → readG s a = .ok (s1, x) → x.toNat ≤ 15 → readG s1 b = .ok (s2, y) →
    field y 31 6 = 0 → ringMember s2 x.toNat sc.toNat = .ok () → ∀ u,
    addEntry s2 0 (.spad 0 0) .weak (scopeOf sc) (.tkrq x.toNat sc.toNat (field y 5 0) (BitVec.ofNat 64 (field y 63 32))) = .ok u →
    Does (.tkrq a b sc) s u .seq) ∧
  (∀ a b sc s s1 s2 x y, Ready (.tkrq a b sc) s → readG s a = .ok (s1, x) → x.toNat ≤ 15 → readG s1 b = .ok (s2, y) →
    (field y 31 6 ≠ 0 → Halts (.tkrq a b sc) s (.trap Cause.illegal none)) ∧
    (field y 31 6 = 0 → ∀ e, ringMember s2 x.toNat sc.toNat = .error e → Halts (.tkrq a b sc) s e)) ∧
  (∀ a sc s s1 x, readG s a = .ok (s1, x) →
    (15 < x.toNat → (∀ b, Ready (.tkrq a b sc) s → Halts (.tkrq a b sc) s (.trap Cause.illegal none)) ∧
      (Ready (.tkps a sc) s → Halts (.tkps a sc) s (.trap Cause.illegal none))) ∧
    (x.toNat ≤ 15 → Ready (.tkps a sc) s →
      (∀ e, ringMember s1 x.toNat sc.toNat = .error e → Halts (.tkps a sc) s e) ∧
      (ringMember s1 x.toNat sc.toNat = .ok () → (∀ m i round, s1.cur.msg.bind (·.comp) ≠ some ⟨.grant x.toNat m, i, round⟩) →
        Halts (.tkps a sc) s (.trap Cause.illegal none)))) ∧
  (∀ (s : State) ring sc e, ringMember s ring sc = .error e → e = .trap Cause.illegal none) ∧
  (∀ a sc s s1 x, Ready (.tkps a sc) s → readG s a = .ok (s1, x) → x.toNat ≤ 15 → ringMember s1 x.toNat sc.toNat = .ok () →
    ∀ m i round, s1.cur.msg.bind (·.comp) = some ⟨.grant x.toNat m, i, round⟩ →
    (s1.cur.passed = true → Does (.tkps a sc) s s1 .seq) ∧
    (s1.cur.passed = false → ∀ u, addEntry s1 0 (.spad 0 0) .rel (scopeOf sc) (.tkps x.toNat m round) = .ok u →
      Does (.tkps a sc) s (u.modCur fun t => { t with passed := true }) .seq)) ∧
  (∀ a b s s1 s2 q x, Ready (.trmc a b) s → readQuad s a = .ok (s1, q) → readG s1 b = .ok (s2, x) →
    (64 ≤ x.toNat ∨ s2.rcd? s2.cur.launch = none → Halts (.trmc a b) s (.trap Cause.illegal none)) ∧
    (x.toNat < 64 → s2.rcd? s2.cur.launch ≠ none → ∀ u, addEntry s2 0 (.spad 0 0) .rel .dev (.trmc x.toNat q) = .ok u →
      Does (.trmc a b) s u .seq)) ∧
  (∀ d a b la s s1 s2 v x, Ready (.trrd d a b la) s → readG s a = .ok (s1, v) → readG s1 b = .ok (s2, x) →
    field x 63 10 ≠ 0 → Halts (.trrd d a b la) s (.trap Cause.illegal none)) ∧
  (∀ d a b la s s1 s2 v x, Ready (.trrd d a b la) s → readG s a = .ok (s1, v) → readG s1 b = .ok (s2, x) →
    field x 63 10 = 0 → s2.cur.launch = none → Halts (.trrd d a b la) s (.trap Cause.illegal none)) ∧
  (∀ d a b la s s1 s2 v x l, Ready (.trrd d a b la) s → readG s a = .ok (s1, v) → readG s1 b = .ok (s2, x) →
    field x 63 10 = 0 → s2.cur.launch = some l →
    (admits (s2.reduceOf (some l)) (field x 3 0) = false → Halts (.trrd d a b la) s (.trap Cause.illegal none)) ∧
    (admits (s2.reduceOf (some l)) (field x 3 0) = true → ∀ k u,
      k = (Tbl.find 0 (s2.core s2.curCore).trrdCount (trrdKey l) + bufferedTrrd s2.cur.buf + 1) % 2 ^ 32 →
      addEntry s2 0 (.spad 0 0) .rel .dev (.trrd k v (field x 3 0) (field x 9 4)) = .ok u →
      Does (.trrd d a b la) s (laterG u la.toNat [d.toNat] [BitVec.ofNat 64 k]) .seq))


/-! ## The queues of the engines (11 R195, R196; 12 R213, R214) -/

/-- R195, R196, R213, R214: MXQ and CPQ queue a command once its checks pass and there is room, with its release mark in the
commit buffer; MXQT and CPQT answer busy where the queue is full. Where MXQT or CPQT would, MXQ and CPQ trap ENGQ when every entry is the
task's own unreleased one, or when none is released, each owner waits in such an instruction and the task is the one dispatched last among
the replayable owners, of all where none is; otherwise they wait. An entry that frees in a cycle is there in the next; CPQ and CPQT give the
transfer's id. -/
def Obligations.EngineQueues : Prop :=
  (∀ a s s1, Ready (.mxq a) s → queueMatrix s (readV s a) false = .ok (s1, true) →
    Does (.mxq a) s s1 .seq ∧ ∃ q e, (s1.core s1.curCore).mxq = q ++ [e] ∧ e.cmd = readV s a ∧ e.released = false ∧
      e.slot = s1.curSlot ∧ ∃ x ∈ s1.cur.buf, x.act = .mxRelease e.uid) ∧
  (∀ d a la s s1 ok, Ready (.mxqt d a la) s → queueMatrix s (readV s a) true = .ok (s1, ok) →
    Does (.mxqt d a la) s (laterG s1 la.toNat [d.toNat] [if ok then 0 else 1]) .seq ∧
    (ok = false → 8 ≤ (s1.core s1.curCore).mxOcc + (s1.core s1.curCore).mxFreed)) ∧
  (∀ d a la s s1 id, Ready (.cpq d a la) s → queueCopy s a false = .ok (s1, some id) →
    Does (.cpq d a la) s (laterG s1 la.toNat [d.toNat] [BitVec.ofNat 64 id]) .seq ∧
    ∃ q e, (s1.core s1.curCore).cpq = q ++ [e] ∧ e.xid = id ∧ e.released = false ∧ ∃ x ∈ s1.cur.buf, x.act = .cpRelease e.uid) ∧
  (∀ d a la s s1 r, Ready (.cpqt d a la) s → queueCopy s a true = .ok (s1, r) →
    Does (.cpqt d a la) s (laterG s1 la.toNat [d.toNat]
      [match r with | some id => BitVec.ofNat 64 id | none => 0xFFFFFFFFFFFFFFFF#64]) .seq ∧
    (r = none → 8 ≤ (s1.core s1.curCore).cpq.length)) ∧
  (∀ a s e, Ready (.mxq a) s → queueMatrix s (readV s a) false = .error e → Halts (.mxq a) s e) ∧
  (∀ d a la s e, Ready (.cpq d a la) s → queueCopy s a false = .error e → Halts (.cpq d a la) s e) ∧
  (∀ d a la s e, Ready (.mxqt d a la) s → queueMatrix s (readV s a) true = .error e → Halts (.mxqt d a la) s e) ∧
  (∀ d a la s e, Ready (.cpqt d a la) s → queueCopy s a true = .error e → Halts (.cpqt d a la) s e) ∧
  (∀ s : State, 8 ≤ (s.core s.curCore).mxOcc → (∃ e ∈ (s.core s.curCore).mxq, e.zeroing = false ∧ e.released = true) →
    mxFull s = .error (.hold .mxq)) ∧
  (∀ s : State, (s.core s.curCore).mxFreed ≠ 0 → mxFull s = .error (.hold .mxq)) ∧
  (∀ s : State, (s.core s.curCore).mxFreed = 0 → (∀ e ∈ (s.core s.curCore).mxq, e.zeroing = false → e.released = false ∧ e.slot = s.curSlot ∧ e.task = s.cur.task) →
    mxFull s = .error (.trap Cause.engq none)) ∧
  (∀ a s s1, Ready (.mxq a) s → queueMatrix s (readV s a) true = .ok (s1, false) →
    let q := (s1.core s1.curCore).mxq.filter fun e => !e.zeroing
    let own := q.map (·.slot)
    let mine := ∀ e ∈ q, e.released = false ∧ e.slot = s1.curSlot ∧ e.task = s1.cur.task
    let stuck := ∀ e ∈ q, e.released = false ∧ (e.slot = s1.curSlot ∨ (s1.slot s1.curCore e.slot).wait = .mxq)
    ((s1.core s1.curCore).mxFreed = 0 → mine ∨ (stuck ∧ lastOwner s1 own s1.curSlot) → Halts (.mxq a) s (.trap Cause.engq none)) ∧
    ((s1.core s1.curCore).mxFreed ≠ 0 ∨ (¬ mine ∧ (¬ stuck ∨ laterOwner s1 own s1.curSlot)) → Halts (.mxq a) s (.hold .mxq))) ∧
  (∀ d a la s s1, Ready (.cpq d a la) s → queueCopy s a true = .ok (s1, none) →
    let q := (s1.core s1.curCore).cpq
    let own := q.map (·.slot)
    let mine := ∀ e ∈ q, e.released = false ∧ e.slot = s1.curSlot ∧ e.task = s1.cur.task
    let stuck := ∀ e ∈ q, e.released = false ∧ (e.slot = s1.curSlot ∨ (s1.slot s1.curCore e.slot).wait = .cpq)
    (mine ∨ (stuck ∧ lastOwner s1 own s1.curSlot) → Halts (.cpq d a la) s (.trap Cause.engq none)) ∧
    (¬ mine → ¬ stuck ∨ laterOwner s1 own s1.curSlot → Halts (.cpq d a la) s (.hold .cpq)))

/-! ## Events: waits, results and the start of tasks (06 R97 to R101; 22 R317, R318) -/

/-- 05 R90; 06 R100, R107; 07 R129, R130; 11 R196, R206; 12 R214; 17 R269, R270: what ends the wait of an instruction. The slot's
instruction issues again at the slot's turn, when what it waited for is there; a TLBI and a SNAP, which have issued, complete whatever the
turn, the one once the walks that had begun before it, the other once the drains that had begun before it are complete; a result of a long-latency instruction is written to its registers
when it arrives, and one that brings a fault is kept for the instruction that waits on it. -/
def Obligations.WaitsEnd : Prop :=
  (∀ (s : State) c n d, s.wr = [] → (s.slot c n).wait = .follow d →
    (d < s.time → Occurs (.followWaitExpiry c n) s (s.modSlot c n fun t => { t with wait := .none })) ∧
    (s.time ≤ d → Occurs (.followWaitExpiry c n) s s)) ∧
  (∀ (s : State) c n need, s.wr = [] → (s.slot c n).wait = .pool need →
    (poolUsed (s.core c) + need ≤ 576 → Occurs (.bufferPoolWaitEnd c n) s (s.modSlot c n fun t => { t with wait := .none })) ∧
    (576 < poolUsed (s.core c) + need → Occurs (.bufferPoolWaitEnd c n) s s)) ∧
  (∀ (s : State) c n e j w, Waiting s c n j → Turn s c n → w (s.slot c n).wait = true →
    (e = .matrixQueueWaitEnd c n ∧ w = (fun x => x == .mxq) ∧ ∃ a, j = .mxq a) ∨
    (e = .copyQueueWaitEnd c n ∧ w = (fun x => x == .cpq) ∧ ∃ d a la, j = .cpq d a la) ∨
    (e = .skipWrite c n ∧ w = (fun x => x == .skip) ∧ (s.core c).mmasPending = false ∧ ∃ a num, j = .wrc a num) ∨
    (e = .scrdPairWaitEnd c n ∧ w = (fun x => x == .pair) ∧ (s.slot c n).pairCount < 8 ∧ ∃ d la sc, j = .scrd d la sc) ∨
    (e = .confirmedDrain c n ∧ w = (fun x => match x with | .confirm _ => true | _ => false) ∧ (s.slot c n).taint = false ∧
      (j = .endOp ∨ j = .cEnd ∨ j = .cmt ∨ j = .cCmt ∨ (∃ d a b la op sz, j = .amo d a b la op sz) ∨
        (∃ d a b la, j = .spwn d a b la) ∨ ∃ a b, j = .carv a b)) →
    Resumes e s c n j w) ∧
  (∀ (s : State) c n a b walks s1 s2 x y p, Waiting s c n (.tlbi a b) → (s.slot c n).wait = .tlbi walks →
    Ready (.tlbi a b) (asCurrent s c n) → s.privileged c n = true → readG (asCurrent s c n) a = .ok (s1, x) → readG s1 b = .ok (s2, y) →
    s.corePart? c = some p → field y 1 0 = 1 ∨ (field y 1 0 = 0 ∧ field x 63 48 = 0) →
    (∀ f ∈ (s.core c).flight, f.e.task = (s.slot c n).task → f.e.writes = false) → (∀ w ∈ walks, s2.walkOpen p w = false) →
    (s2.pinned p fun q => decide (field y 1 0 = 1) || s2.oneTranslation p (field x 47 0) q.gva) = false →
    let u := s2.dropTlb fun t => t.part == p && (decide (field y 1 0 = 1) || decide (t.va ≤ field x 47 0 ∧ field x 47 0 < t.va + t.size))
    Completes (.tlbiComplete c n) s c n (.tlbi a b) (if field y 1 0 = 1 then u.sampleRoot (s.part p).ctx else u) .seq) ∧
  (∀ (s : State) c n d left p, Waiting s c n (.snap d) → (s.slot c n).wait = .snap left →
    Ready (.snap d) (asCurrent s c n) → s.privileged c n = true → s.corePart? c = some p → settable (asCurrent s c n) d = true →
    (∀ w ∈ left, w ∉ s.openWrites p) → (s.part p).cow = [] →
    Completes (.snapFlip c n) s c n (.snap d)
      (putG ((asCurrent s c n).modPart p fun k => { k with snapEpoch := (k.snapEpoch + 1) % 2 ^ 32 }) d
        (BitVec.ofNat 64 (((s.part p).snapEpoch + 1) % 2 ^ 32))) .seq) ∧
  (∀ (s : State) c n e w, s.wr = [] → ¬ Turn s c n → (s.slot c n).wait = w →
    (e = .matrixQueueWaitEnd c n ∧ w = .mxq) ∨ (e = .copyQueueWaitEnd c n ∧ w = .cpq) ∨ e = .skipWrite c n ∨ e = .scrdPairWaitEnd c n ∨ e = .confirmedDrain c n →
    Occurs e s s) ∧
  (∀ (s : State) c n, s.wr = [] → (s.core c).mmasPending = true → Occurs (.skipWrite c n) s s) ∧
  (∀ (s : State) c n, s.wr = [] → (s.slot c n).taint = true → Occurs (.confirmedDrain c n) s s) ∧
  (∀ (s : State) c n p l r, s.wr = [] → s.primaryOf? c = none → (s.slot c n).pend = l ++ p :: r →
    (∀ q ∈ l, q.ready = true → q.arrived = true) → p.ready = true → p.arrived = false →
    let w := if (s.slot c n).wait = .results ∨ (s.slot c n).wait = .oldest p.uid then .none else (s.slot c n).wait
    (∀ f, p.bad = some f → Occurs (.longLatencyResult c n) s (s.setSlot c n { s.slot c n with
      pend := l ++ { p with arrived := true } :: r, wait := w })) ∧
    (p.bad = none →
      let u := s.setSlot c n { (s.slot c n).takeResult p with
        pend := if p.left = 0 then l ++ r else l ++ { p with arrived := true } :: r, wait := w }
      Occurs (.longLatencyResult c n) s (match p.comp with | some x => u.consume c n x | none => u))) ∧
  (∀ (t : Slot) (p : Pending) d x r, p.gd = [d] → p.gval = [x] → d ≠ 0 →
    Tbl.find 0 (t.takeResult p).g r = if r = d then x else Tbl.find 0 t.g r) ∧
  (∀ (t : Slot) (p : Pending) d r, p.vd = [d] → Tbl.find 0 (t.takeResult p).v r = if r = d then p.vval else Tbl.find 0 t.v r)

/-- R97, R98, R101; 22 R317, R318: the first message of the run queue that may be dispatched, being not held, not of this count of
TIME (the reading of log entry 12) and not of a launch whose release is under way, goes to the lowest slot that is free and not
parked, and starts there; a routine that cannot start traps ILLEGAL. The oldest service message goes to slot 0. The
supervisor takes a fatal record first, then the oldest; a record whose class entry is absent is answered by the device. -/
def Obligations.TasksStart : Prop :=
  (∀ (s : State) c n q, s.wr = [] → s.dispatches c = true → s.primaryOf? c = none → s.mirrorOf? c = none →
    s.freeSlot? c = some n → (s.core c).runq.find? (s.dispatchable c) = some q → q.msg.comp = none →
    let pc := routineOf (s.core c).imem q.msg
    ∃ u : State,
      Started (s.slot c n) q.msg pc
        (budgetOf (s.core c).imem (s.launchBudget c q.msg) q.msg) (u.slot c n) ∧
      (u.core c).runq = (s.core c).runq.filter (fun x => x.off != q.off) ∧
      ((s.core c).fused = false → (u.core c).l1 = []) ∧
      (∀ m, m ≠ n → u.slot c m = s.slot c m) ∧ u.mem = s.mem ∧ u.wr = [] ∧
      (routineBad (s.core c).imem q.msg = false → Occurs (.taskDispatch c) s u) ∧
      (routineBad (s.core c).imem q.msg = true →
        Occurs (.taskDispatch c) s (u.takeTrap c n Cause.illegal 0 (BitVec.ofNat 64 (routine pc % 65536))))) ∧
  (∀ (s : State) c q, s.dispatchable c q = true → q.msg.held = false ∧ q.at_ ≠ some s.time ∧
    ∀ l x p, q.msg.launch = some l → s.launch? l = some x → s.corePart? c = some p → x.stage = .releasing →
      clusterOf c ∈ gangClusters (s.part p) x.rcd → clusterOf c ∈ x.started) ∧
  (∀ (s : State) c n, s.freeSlot? c = some n → (s.slot c n).running = false ∧ (s.slot c n).parked = false ∧ 1 ≤ n ∧ n ≤ 7 ∧
    ∀ m, 1 ≤ m → m < n → s.privileged c m = false → s.mirrorOf? c = none → (s.slot c m).running = true ∨ (s.slot c m).parked = true) ∧
  (∀ (s : State) c r q, s.wr = [] → (s.core c).serving = none → (s.core c).svcq = r :: q →
    (s.stopped c = false → Occurs (.serviceDispatch c) s (s.modCore c fun k => { k with serving := some r, svcq := q })) ∧
    (s.stopped c = true → Occurs (.serviceDispatch c) s s)) ∧
  (∀ (s : State) p r, s.wr = [] →
    let k := s.part p
    let c := k.supCore
    k.en = true → k.resident = true → (s.slot c 7).running = false → (s.core c).halted = false → k.switch = .none →
    k.halt = .running → nextRec k.trapq = some r → k.onlySup = false → k.fatalHeld = none →
    (r.call = none ∧ classAbsent k.supImem r.cause = true → r.type = 2 →
      Occurs (.supervisorDispatch p) s (s.setPart p { k with
        trapq := removeFirst (fun x => x == r) k.trapq, counted := k.counted + 1 })) ∧
    ((r.call = none → classAbsent k.supImem r.cause = false) →
      Answers (exec (.supervisorDispatch p) s) fun t =>
        (t.part p).trapq = removeFirst (fun x => x == r) k.trapq ∧ (t.slot c 7).record = some r ∧
        Started (s.slot c 7) (recMsg r) (routineOf k.supImem (recMsg r)) (budgetOf k.supImem 0 (recMsg r)) (t.slot c 7) ∧
        t.mem = s.mem)) ∧
  (∀ (q : List TRec) r, nextRec q = some r → r ∈ q ∧ (r.fatal = true ∨ ((∀ x ∈ q, x.fatal = false) ∧ q.head? = some r)))

/-! ## Events: messages, spawns and third-party reads on the message plane (08 R145 to R155; 06 R97, R110) -/

/-- R97, R110, R145, R148 to R151, R154, R155: a drained message takes the next id of its core and leaves, or is held until its
deferral ends; it enters its target's run queue and inbox, or a refusal with its code turns back; a bounce that finds no room
stays with its CNI; messages and spawns of one source that may reach one core keep their order, behind a deferred one whose deferral has
ended; a spawned child starts at once or not at all (in a gang's cluster not before its release is complete), and the reply says which, one
of an earlier launch is reported; a read (which waits for an open slot of the memory plane: log entry 20) for a third party is made at its
owner, or parked there, delivered as its mode says, and noticed at the requester. That a message which finds neither inbox room nor a
run-queue entry is refused with code 1 is the model's reading (log entry 12, DEDUCED: R149 and R144 name no order). -/
def Obligations.MessagesTravel : Prop :=
  (∀ (s : State) c k e m (ds : List Nat), s.wr = [] → s.flying? c k = some e → e.act = .send m (ds.map .core) → (s.core c).mayRelease e = true →
    let m' : Msg := { m with msgid := BitVec.ofNat 32 (s.core c).msgCount }
    let u := (s.modCore c fun x => { x with msgCount := (x.msgCount + 1) % 2 ^ 32 }).land c e.id
    (m.defer = 0 → (∀ x ∈ (s.core c).deferred, s.time < x.due ∨ ∀ d ∈ ds, x.tgt.meets (.core d) = false) →
      Occurs (.messageHandover c k) s { u with net := s.net ++ ds.map fun d => .task c d m' }) ∧
    (m.defer = 0 → (∃ x ∈ (s.core c).deferred, x.due ≤ s.time ∧ ∃ d ∈ ds, x.tgt.meets (.core d) = true) →
      Occurs (.messageHandover c k) s s) ∧
    (m.defer ≠ 0 → Occurs (.messageHandover c k) s (u.modCore c fun x => { x with
      deferred := x.deferred ++ ds.map fun d => ⟨s.time + 64 * m.defer, m', .core d⟩ }))) ∧
  (∀ (s : State) c k e m d uid, s.wr = [] → s.flying? c k = some e → e.act = .spawn m (.core d) uid → (s.core c).mayRelease e = true →
    ((∀ x ∈ (s.core c).deferred, s.time < x.due ∨ x.tgt.meets (.core d) = false) → Occurs (.messageHandover c k) s
      { (s.modCore c fun x => { x with msgCount := (x.msgCount + 1) % 2 ^ 32 }).land c e.id with
        net := s.net ++ [.spawn c e.slot uid (.core d) { m with msgid := BitVec.ofNat 32 (s.core c).msgCount }] }) ∧
    ((∃ x ∈ (s.core c).deferred, x.due ≤ s.time ∧ x.tgt.meets (.core d) = true) → Occurs (.messageHandover c k) s s)) ∧
  (∀ (s : State) c id, ((s.land c id).core c).flight = (s.core c).flight.filter (fun f => f.e.id != id) ∧ (s.land c id).mem = s.mem ∧
    (s.land c id).net = s.net) ∧
  (∀ (s : State) c k e, s.wr = [] → s.flying? c k = some e → (s.core c).mayRelease e = false →
    Occurs (.messageHandover c k) s s ∧ Occurs (.rdxRequestSend c k) s s) ∧
  (∀ (s : State) c k d t, s.wr = [] → (s.core c).deferred[k]? = some d → d.tgt = .core t →
    (∀ i x, (s.core c).deferred[i]? = some x → d.due < x.due ∨ (d.due = x.due ∧ k ≤ i)) →
    (d.due ≤ s.time → Occurs (.deferExpiry c k) s
      { s.modCore c fun x => { x with deferred := removeAt k x.deferred } with net := s.net ++ [.task c t d.m] }) ∧
    (s.time < d.due → Occurs (.deferExpiry c k) s s)) ∧
  (∀ (s : State) k src dst m, s.wr = [] → s.net[k]? = some (.task src dst m) →
    (∀ y ∈ s.net.take k, y.sameWay (.task src dst m) = false) →
    let s1 : State := { s with net := removeAt k s.net }
    (∀ u, s1.acceptTask dst m = .ok u → Occurs (.taskMessageArrival k) s u) ∧
    (∀ r, s1.acceptTask dst m = .error r → Occurs (.taskMessageArrival k) s
      { s1 with net := s1.net ++ [.bounce src (bounceOf m r (s.placeWord dst))] })) ∧
  (∀ (s : State) k x y, s.wr = [] → s.net[k]? = some x → y ∈ s.net.take k → y.sameWay x = true →
    Occurs (.taskMessageArrival k) s s ∧ Occurs (.spawnAtTarget k) s s) ∧
  (∀ src dst cl slot uid m m', NetItem.sameWay (.task src dst m) (.task src dst m') = true ∧
    NetItem.sameWay (.task src dst m) (.anyOf src (clusterOf dst) m') = true ∧
    NetItem.sameWay (.anyOf src (clusterOf dst) m) (.task src dst m') = true ∧
    NetItem.sameWay (.anyOf src cl m) (.anyOf src cl m') = true ∧
    NetItem.sameWay (.task src dst m) (.spawn src slot uid (.core dst) m') = true ∧
    NetItem.sameWay (.spawn src slot uid (.core dst) m) (.task src dst m') = true) ∧
  (∀ (s : State) dst m, s.primaryOf? dst = none → s.mirrorOf? dst = none → s.deadLaunch m = false → s.staleAt dst m = false →
    ((s.core dst).inPlace (entryLen m) (some m) = none → s.acceptTask dst m = .error 1) ∧
    (∀ x off, (s.core dst).inPlace (entryLen m) (some m) = some (x, off) →
      (56 ≤ (s.core dst).runq.length → s.acceptTask dst m = .error 2) ∧
      ((s.core dst).runq.length < 56 → s.acceptTask dst m =
        .ok (s.setCore dst { x with runq := enqueue x.runq ⟨m, off, some s.time⟩ })))) ∧
  (∀ (s : State) dst m, s.primaryOf? dst ≠ none → s.acceptTask dst m = .error 4) ∧
  (∀ (s : State) k dst m, s.wr = [] → s.net[k]? = some (.bounce dst m) →
    let s1 : State := { s with net := removeAt k s.net }
    (∀ u, s1.acceptTask dst m = .ok u → Occurs (.bounceArrival k) s u) ∧
    (∀ r, s1.acceptTask dst m = .error r → Occurs (.bounceArrival k) s
      (s1.modCore dst fun c => { c with bounces := c.bounces ++ [m] }))) ∧
  (∀ (s : State) c m r, s.wr = [] → (s.core c).bounces = m :: r →
    (∀ u, s.acceptTask c m = .ok u → Occurs (.bounceRetry c) s (u.modCore c fun x => { x with bounces := r })) ∧
    (∀ e, s.acceptTask c m = .error e → Occurs (.bounceRetry c) s s)) ∧
  (∀ (s : State) k src slot uid d m, s.wr = [] → s.net[k]? = some (.spawn src slot uid (.core d) m) → s.primaryOf? d = none →
    (∀ y ∈ s.net.take k, y.sameWay (.spawn src slot uid (.core d) m) = false) →
    let s1 : State := { s with net := removeAt k s.net }
    (s.deadLaunch m = false → s.staleAt d m = true →
      Occurs (.spawnAtTarget k) s (((s1.consumeAt d m).report d (staleRec s1 d m)).returnResult src uid 0 none)) ∧
    (s.deadLaunch m = true ∨ (s.staleAt d m = false ∧
        (s.dispatches d = false ∨ s.freeSlot? d = none ∨ (s.core d).inPlace 64 (some m) = none ∨ s.releasePending d m = true)) →
      Occurs (.spawnAtTarget k) s (s1.returnResult src uid 0 none)) ∧
    (s.dispatches d = true → s.mirrorOf? d = none → s.deadLaunch m = false → s.staleAt d m = false → s.releasePending d m = false →
      ∀ n x off,
      s.freeSlot? d = some n → (s.core d).inPlace 64 (some m) = some (x, off) →
      Occurs (.spawnAtTarget k) s (((s1.setCore d x).startTask d n m).returnResult src uid 1 none))) ∧
  (∀ (s : State) cl k c m, s.wr = [] → (s.cluster cl).tasks[k]? = some (c, m) →
    (∀ u, s.acceptOwn c m = some u →
      Occurs (.completionTaskAccept cl k) s (u.modCluster cl fun x => { x with tasks := removeAt k x.tasks })) ∧
    (s.acceptOwn c m = none → Occurs (.completionTaskAccept cl k) s s)) ∧
  (∀ (s : State) c k e r owner tg, s.wr = [] → s.flying? c k = some e → e.act = .rdx r owner tg →
    (s.core c).mayRelease e = true → (∀ dev part a dom, owner ≠ .peer dev part a dom) →
    Occurs (.rdxRequestSend c k) s
      { (s.modCore c fun x => { x with msgCount := (x.msgCount + 1) % 2 ^ 32 }).land c e.id with
        net := s.net ++ [.rdx { r with msgid := BitVec.ofNat 32 (s.core c).msgCount } owner tg] }) ∧
  (∀ (s : State) k r owner (ds : List Nat), s.wr = [] → s.net[k]? = some (.rdx r owner (ds.map .core)) → ds ≠ [] →
    let first := ∀ y ∈ s.net.take k, sameRdxSource r y = false
    (s.planeShut owner = true ∨ ¬ first → Occurs (.rdxReadAtOwner k) s s) ∧
    (s.planeShut owner = false → first →
      (∀ s1 bs, s.rdxRead r owner = (s1, .bytes bs) → Occurs (.rdxReadAtOwner k) s
        { s1.rdxRefuses (.rdx r owner (ds.map .core)) none with
          net := removeAt k s1.net ++ ds.map fun d => .delivery r d bs 0 true }) ∧
      (∀ s1 loc off, s.rdxRead r owner = (s1, .parked loc off) → Occurs (.rdxReadAtOwner k) s
        (({ s with parts := s1.parts, alerts := s1.alerts } : State).parkItem k loc off)))) ∧
  (∀ (s : State) k r c off (ds : List Nat), s.wr = [] → s.net[k]? = some (.rdx r (.spad c off) (ds.map .core)) → ds ≠ [] →
    (∀ y ∈ s.net.take k, sameRdxSource r y = false) →
    Occurs (.rdxReadAtOwner k) s { s.rdxRefuses (.rdx r (.spad c off) (ds.map .core)) none with
      net := removeAt k s.net ++ ds.map fun d => .delivery r d ((s.core c).spadBytes off r.quad.b.toNat) 0 true }) ∧
  (∀ (s s1 : State) k r p phys gva gpa ph gp (ds : List Nat), s.wr = [] → ds ≠ [] →
    s.net[k]? = some (.rdx r (.hbm p phys gva gpa) (ds.map .core)) → s.planeOpen p = true → 1 ≤ r.quad.b.toNat →
    gva % 65536 + r.quad.b.toNat ≤ 65536 → s.xlateMem none p gva .fetch = (s1, .at_ (.hbm p ph gva gp)) →
    s1.busy p ph gp r.quad.b.toNat false = false → s1.foreignIn p ph r.quad.b.toNat = none →
    (∀ y ∈ s.net.take k, sameRdxSource r y = false) →
    let src := if r.rdev = s.fabric.devId then some (clusterOf (s.rdxSource r)) else none
    (∀ x, src = some x → s1.nearOpen x none (.hbm p ph gva gp) r.quad.b.toNat = false) →
    ∃ s2 bs, s1.homeRead src p ph gp r.quad.b.toNat = (s2, bs) ∧ Occurs (.rdxReadAtOwner k) s
      { s2.rdxRefuses (.rdx r (.hbm p phys gva gpa) (ds.map .core)) none with net := removeAt k s2.net ++ ds.map fun d => .delivery r d bs 0 true }) ∧
  (∀ (s : State) k r c bs p, s.wr = [] → s.net[k]? = some (.delivery r c bs 0 true) → s.corePart? c = some p →
    s.acceptsFrom p r = true → r.rdev = s.fabric.devId → rdxMode r.quad.d = 1 →
    let last : Bool := !(removeAt k s.net).any (sameRdx r)
    (rdxDoff r.quad.d + bs.length ≤ s.spadSize c → (s.core c).records < 64 →
      Occurs (.rdxDelivery k) s
        { (s.modCore c fun x => { x with cinbox := x.cinbox ++ [rdxRecord 3 r r.requester 0] }).modCore c fun x =>
            x.spadWrite (rdxDoff r.quad.d) bs with
          net := removeAt k s.net ++ if last && rdxNotify r.quad.d then [.notice r (s.rdxSource r)] else [] }) ∧
    (rdxDoff r.quad.d + bs.length ≤ s.spadSize c → 64 ≤ (s.core c).records → Occurs (.rdxDelivery k) s s)) ∧
  (∀ (s : State) k r c, s.wr = [] → s.net[k]? = some (.notice r c) →
    ((s.core c).records < 64 → Occurs (.rdxDelivery k) s
      { s.modCore c fun x => { x with cinbox := x.cinbox ++ [rdxRecord 4 r r.requester 0] } with net := removeAt k s.net }) ∧
    (64 ≤ (s.core c).records → Occurs (.rdxDelivery k) s s))

/-! ## Events: drained entries at homes and owners (08 R139, R143; 13 R227, R231 to R234; 14 R245, R246; 22 R323, R324) -/

/-- R231, R245, R246, R323: a drained store is performed where its bytes lie, in a scratchpad or at the home of its line, once
those that go before it are; a strong store once every earlier write of its task is, or, at `.core` and `.grp`, is performed for its
cluster (mayNear, nearNow); it waits parked at a home whose line is on the move, in a place behind every parked one, and is refused
by a full park queue; one that was drained after a SNAP issued waits for the flip (24 R341); an update enters a partial line; a fence
mark passes when what it orders is performed. What a write leaves in memory are its own bytes, and no other byte changes. That a
write waits for a cycle in which its partition's slot of the memory plane is open (planeOpen) is the reading of log entry 20, and how
a release of its cluster's scope goes before writes that are not at their home that of log entry 6. -/
def Obligations.WritesAtHomes : Prop :=
  (∀ (s : State) c k e bs ev, s.wr = [] → (s.core c).flight[k]? = some ⟨e, .waiting⟩ → e.act = .store bs → c ≠ planeCore →
    hasNibble bs = false →
    (ev = .memoryRequestAtHome c k ∧ e.order = .weak ∧ (s.core c).mayPerform e = true) ∨
    (ev = .releasePerform c k ∧ (e.order = .rel ∨ e.order = .sc) ∧ (s.core c).mayRelease e = true) →
    let z := s.nearNow c e
    (s.mayNear c e = false → Occurs ev s s) ∧
    (s.mayNear c e = true → ∀ d a, e.loc = .spad d a → Occurs ev s ((z.modCore d fun x => x.spadMerge a bs).land c e.id)) ∧
    (s.mayNear c e = true → ∀ p ph gva gpa, e.loc = .hbm p ph gva gpa → z.planeOpen p = true → z.snapHolds p c e = false →
      z.refusedAt c (z.homeOf p (ph / 128)) = false → z.nearOpen (clusterOf c) (some (c, e.task)) e.loc e.span = false →
      (z.busy p ph gpa e.span true = false → Occurs ev s
        (((z.homeWrite (some (clusterOf c)) p ph gpa bs).l1Store c ph bs).land c e.id)) ∧
      (z.busy p ph gpa e.span true = true →
        let t := z.startCow p gpa
        Occurs ev s
          (if (t.cluster (t.homeOf p (ph / 128))).park.length < 64 then
            (t.parkAt { who := .entry, src := c, req := e.id, loc := e.loc }).mark c e.id .parked
          else t.mark c e.id .refused))) ∧
    (s.mayNear c e = true → ∀ p gva g, e.loc = .unmapped p gva g → z.planeOpen p = true → z.snapHolds p c e = false →
      z.refusedAt c (z.dirSlice p (g / 128)) = false →
      ∀ t cause, z.xlateMem (some c) p gva .write = (t, .bad cause) →
        Occurs ev s ((t.land c e.id).writeFailed c e cause 0)) ∧
    (s.mayNear c e = true → ∀ p ph gva gpa, e.loc = .hbm p ph gva gpa →
      (z.planeOpen p = false ∨ z.snapHolds p c e = true ∨ z.refusedAt c (z.homeOf p (ph / 128)) = true ∨
        z.nearOpen (clusterOf c) (some (c, e.task)) e.loc e.span = true) → Occurs ev s z)) ∧
  (∀ (s : State) c e, (((s.core c).nears e = [] → s.nearNow c e = s ∧ s.mayNear c e = true) ∧
    ∀ d, ((s.nearNow c e).core d).flight = if d = c then (s.core c).flight.map (fun f =>
      if ((s.core c).nears e).any (fun x => x.id == f.e.id) then { f with e := { f.e with near := true } } else f)
      else (s.core d).flight)) ∧
  (∀ (s : State) (r : Parked), ∃ n, ((s.parkAt r).cluster (s.homeFor r)).park = (s.cluster (s.homeFor r)).park ++ [{ r with seq := n }] ∧
    (∀ h x, x ∈ (s.cluster h).park → x.seq < n) ∧ (∀ h, h ≠ s.homeFor r → (s.parkAt r).cluster h = s.cluster h) ∧
    (s.parkAt r).cores = s.cores ∧ (s.parkAt r).mem = s.mem) ∧
  (∀ (s : State) c k e st, s.wr = [] → (s.core c).flight[k]? = some ⟨e, st⟩ → c ≠ planeCore →
    ((s.core c).mayPerform e = false → Occurs (.memoryRequestAtHome c k) s s ∧ Occurs (.reductionEntry c k) s s) ∧
    (e.mortar = false → (s.core c).mayRelease e = false → Occurs (.releasePerform c k) s s) ∧
    (s.mayNear c e = false → Occurs (.memoryRequestAtHome c k) s s ∧ Occurs (.reductionEntry c k) s s ∧ Occurs (.releasePerform c k) s s)) ∧
  (∀ (s : State) c k e op n v p ph gva gpa, s.wr = [] → (s.core c).flight[k]? = some ⟨e, .waiting⟩ → e.act = .red op n v → e.order = .weak →
    c ≠ planeCore → (s.core c).mayPerform e = true → e.loc = .hbm p ph gva gpa → s.planeOpen p = true →
    s.snapHolds p c e = false → s.refusedAt c (s.homeOf p (ph / 128)) = false →
    s.nearOpen (clusterOf c) (some (c, e.task)) e.loc e.span = false → s.busy p ph gpa n true = false →
    Occurs (.reductionEntry c k) s (((s.redEnter p gpa (clusterOf c) ph op n v).l1Forget c ph gpa n).land c e.id)) ∧
  (∀ (s : State) c k e, s.wr = [] → s.flying? c k = some e → e.act = .fence →
    ((s.core c).mayPass e = true → s.mayNear c e = true → Occurs (.fenceMarkPass c k) s ((s.nearNow c e).land c e.id)) ∧
    ((s.core c).mayPass e = false ∨ s.mayNear c e = false → Occurs (.fenceMarkPass c k) s s)) ∧
  (∀ (s : State) c k e ok cause dev, s.wr = [] → (s.core c).flight[k]? = some ⟨e, .sent⟩ →
    s.net.find? (isAck c e.id ok) = some (.ack c e.id ok cause dev) →
    let u : State := State.land { s with net := removeFirst (isAck c e.id ok) s.net } c e.id
    Occurs (.writeAck c k ok) s (if ok then u else u.writeFailed c e cause dev)) ∧
  (∀ (s : State) src p phys gpa bs a, (∀ l ∈ linesOf phys gpa (bs.foldl (fun m b => Nat.max m (b.pos + 1)) 1), (s.line l.1).partials = []) →
    (bs.map (·.pos)).Nodup →
    (s.homeWrite src p phys gpa bs).rdByte a =
      match bs.find? fun b => phys + b.pos == a with | some b => mergeNib b (s.rdByte a) | none => s.rdByte a) ∧
  (∀ (s : State) p c e, s.snapHolds p c e = true ↔ ∃ begun, (s.slot (s.part p).supCore 7).wait = .snap begun ∧ (c, e.id) ∉ begun) ∧
  (∀ (s : State) a, Memory.read s.settleMem.mem a = s.rdByte a)

/-- R97, R98, R139, R140, R143; 13 R227: an atomic, a sector with halves of bytes and a store to an IMEM go to the service slot of
their owner, which has eight entries for them and refuses more; the handler performs the operation in one step, and the old
value goes to the task that asked. When a line has moved, or is rewritten, what was parked in its partition is tried again in the order
in which it came. That an atomic waits for an open
slot of the memory plane is log entry 20. -/
def Obligations.ServiceSlots : Prop :=
  (∀ (s : State) c k e d, s.wr = [] → (s.core c).flight[k]? = some ⟨e, .waiting⟩ → c ≠ planeCore →
    ((∃ op n x, e.act = .amop op n x ∧ (s.core c).mayPerform e = true) ∨
      (∃ op n x y uid, e.act = .amo op n x y uid ∧ (s.core c).mayAmo e = true)) →
    e.order ≠ .rel → (∃ a, e.loc = .spad d a) →
    (∀ f ∈ (s.core c).flight, f.st = .refused → routeOf f.e = .service → s.ownerOf f.e.loc ≠ d) →
    (s.mayNear c e = true → let z := s.nearNow c e
      Occurs (.serviceMessageArrival c k) s
      (if (s.core d).svcq.length < 8 then
        (z.modCore d fun x => { x with svcq := x.svcq ++ [e.svc c] }).mark c e.id .sent
      else z.mark c e.id .refused)) ∧
    (s.mayNear c e = false → Occurs (.serviceMessageArrival c k) s s)) ∧
  (∀ (s : State) c r op n x y uid k a, s.wr = [] → (s.core c).halted = false → Turn s c 0 → (s.core c).serving = some r → r.dev = none →
    r.act = .amo op n x y uid → r.loc = .spad k a →
    let old : W64 := BitVec.ofNat 64 (leVal ((s.core k).spadBytes a n))
    let s1 := match atomicOp op n old x y with
      | some v => s.modCore k fun z => z.spadWrite a (leBytes n v.toNat)
      | none => s
    Occurs (.atomicAtOwner c) s
      ((((s1.modCore c fun z => { z with serving := none }).returnResult r.src uid old none).land r.src r.req).modCore c fun z =>
        z.issued 0)) ∧
  (∀ (s s2 : State) c r op n x y uid p ph gva gpa bs, s.wr = [] → (s.core c).halted = false → Turn s c 0 → (s.core c).serving = some r →
    r.dev = none → r.act = .amo op n x y uid → r.loc = .hbm p ph gva gpa → s.planeOpen p = true →
    s.busy p ph gpa n true = false → 16 * s.homeOf p (ph / 128) + 8 = c →
    (s.foreign p ph = true → Occurs (.atomicAtOwner c) s
      ((((s.modCore c fun z => { z with serving := none }).returnResult r.src uid 0 (some (Cause.ecc, r.ea))).land r.src r.req).modCore
        c fun z => z.issued 0)) ∧
    (s.foreign p ph = false → s.homeRead (some (clusterOf r.src)) p ph gpa n = (s2, bs) →
      let old : W64 := BitVec.ofNat 64 (leVal bs)
      let s3 := match atomicOp op n old x y with
        | some v => (s2.wrBytes ph (leBytes n v.toNat)).tagLines p ph n
        | none => s2
      Occurs (.atomicAtOwner c) s (((((s3.l1Forget r.src ph gpa n).modCore c fun z => { z with serving := none }).returnResult
        r.src uid old none).land r.src r.req).modCore c fun z => z.issued 0))) ∧
  (∀ (s : State) c r op n x k a, s.wr = [] → (s.core c).halted = false → Turn s c 0 → (s.core c).serving = some r → r.dev = none →
    r.act = .amop op n x → r.loc = .spad k a →
    let old : W64 := BitVec.ofNat 64 (leVal ((s.core k).spadBytes a n))
    let s1 := match atomicOp op n old x 0 with
      | some v => s.modCore k fun z => z.spadWrite a (leBytes n v.toNat)
      | none => s
    Occurs (.atomicAtOwner c) s
      (((s1.modCore c fun z => { z with serving := none }).land r.src r.req).modCore c fun z => z.issued 0)) ∧
  (∀ (s : State) c r bs, s.wr = [] → (s.core c).halted = false → Turn s c 0 → (s.core c).serving = some r → r.dev = none →
    r.act = .store bs →
    (∀ k a, r.loc = .spad k a → Occurs (.subByteMerge c) s
      ((((s.modCore k fun z => z.spadMerge a bs).modCore c fun z => { z with serving := none }).land r.src r.req).modCore c fun z =>
        z.issued 0)) ∧
    (∀ k a, r.loc = .imem k a → Occurs (.imemWindowStore c) s
      ((((s.modCore c fun z => z.imemWrite a bs).modCore c fun z => { z with serving := none }).land r.src r.req).modCore c fun z =>
        z.issued 0))) ∧
  (∀ (s : State) c, s.wr = [] → s.serviceTurn c = false →
    Occurs (.atomicAtOwner c) s s ∧ Occurs (.subByteMerge c) s s ∧ Occurs (.imemWindowStore c) s s) ∧
  (∀ (s : State) c, s.wr = [] → (s.core c).serving = none →
    Occurs (.atomicAtOwner c) s s ∧ Occurs (.subByteMerge c) s s ∧ Occurs (.imemWindowStore c) s s) ∧
  (∀ (s : State) ln k p, s.wr = [] → (s.line ln).moving = some k → s.partOf? k = some p →
    Occurs (.forwardingEntryInstall ln) s ((s.setLine ln { s.line ln with
      home := if k = s.dirSlice p ln then none else some k, moving := none, cand := 0, count := 0 }).replayPart p)) ∧
  (∀ (s : State) ln, s.wr = [] → (s.line ln).scrub = false → Occurs (.scrub ln) s (s.setLine ln { s.line ln with scrub := true })) ∧
  (∀ (s : State) ln, s.wr = [] → (s.line ln).scrub = true →
    Occurs (.scrub ln) s (s.parts.foldl (fun s p => s.replayPart p.1) (s.setLine ln { s.line ln with scrub := false }))) ∧
  (∀ (s : State) c k e d a bs, s.wr = [] → (s.core c).flight[k]? = some ⟨e, .refused⟩ → e.act = .store bs → hasNibble bs = false →
    e.loc = .spad d a → Occurs (.parkRetry c k) s
      (((s.mark c e.id .waiting).modCore d fun x => x.spadMerge a bs).land c e.id)) ∧
  (∀ (s : State) p, ∃ all : List Parked, all.Perm ((s.part p).clusters.flatMap fun k => (s.cluster k).park) ∧
    all.Pairwise (fun a b => a.seq ≤ b.seq) ∧
    s.replayPart p = (all.foldl State.replayOne
      ((s.part p).clusters.foldl (fun s k => s.modCluster k fun c => { c with park := [] }) s, 0)).1) ∧
  (∀ (s : State) (r : Parked) k f, r.who = .entry → (s.core r.src).flight.find? (fun f => f.e.id == r.req) = some f →
    State.replayOne (s, k) r = ((s.mark r.src r.req .waiting).arrive r.src f.e true, k)) ∧
  (∀ (s : State) (r : Parked) k x, r.who = .item x → State.replayOne (s, k) r = s.itemArrive k x)

/-! ## Events: the engines (11 R193 to R211; 12 R213 to R224) -/

/-- R195, R202 to R208, R210: the unit executes the released command at the head of its queue, unless it holds a report; the
sums, copies and transposes are those of the rules, in f32; the finished command leaves the queue, delivers its bytes to its
course and reports as its completion word says, or the unit holds the report until there is room. A command that waits at a home has
begun, keeps the lines that it has fetched and pins those of them that it has not consumed (R209), and goes on under a debug halt. That
a command takes its effect in one step, and that of a command that waits for a page to move every line counts as consumed, is log entry 15,
and that it waits for an open slot of the memory plane (the answer `shut`) log entry 20. -/
def Obligations.MatrixCommands : Prop :=
  (∀ (s : State) c p e ev run, s.wr = [] → s.mxNext? c = some e → s.corePart? c = some p → e.zeroing = false →
    (ev = .mma c ∧ Cmd.kind e.cmd = 0 ∧ run = runMma) ∨ (ev = .mmas c ∧ Cmd.kind e.cmd = 1 ∧ run = runMmas) ∨
    (ev = .accz c ∧ Cmd.kind e.cmd = 2 ∧ run = runAccz) ∨ (ev = .accl c ∧ Cmd.kind e.cmd = 3 ∧ run = runAccl) ∨
    (ev = .accs c ∧ Cmd.kind e.cmd = 4 ∧ run = runAccs) ∨
    (ev = .accmCopy c ∧ Cmd.kind e.cmd = 5 ∧ Cmd.opt e.cmd = 0 ∧ run = runAccm fun k _ b i j => k.accAt b i j) ∨
    (ev = .accmAdd c ∧ Cmd.kind e.cmd = 5 ∧ Cmd.opt e.cmd = 1 ∧ run = runAccm fun k a b i j => f32add (k.accAt a i j) (k.accAt b i j)) ∨
    (ev = .accmTranspose c ∧ Cmd.kind e.cmd = 5 ∧ Cmd.opt e.cmd = 2 ∧ run = runAccm fun k _ b i j => k.accAt b j i) →
    (∀ t status bad blocks, run ⟨c, p, e.uid, e.fillFailed⟩ e s = .done t status bad blocks →
      Occurs ev s ((t.modMxHead c fun x =>
        { x with finished := true, status := status, bad := bad, blocks := blocks, refused := none, got := [] }).modCore c fun k =>
          { k with pins := k.pins.filter fun q => q.uid != e.uid })) ∧
    (run ⟨c, p, e.uid, e.fillFailed⟩ e s = .shut → Occurs ev s s) ∧
    (∀ w q ph gva gpa, run ⟨c, p, e.uid, e.fillFailed⟩ e s = .parked w → w.loc = .hbm q ph gva gpa → Cmd.kind e.cmd ≠ 4 →
      let mark (s : State) (b : Bool) (r : Option Nat) : State := (s.modMxHead c fun x =>
        { x with parked := b, refused := r, begun := true, got := w.got }).mxPins c e.uid w
      let u := mark s false none
      let off := s.heldOff q ph gpa 128
      let h := s.homeOf q ((ph + off) / 128)
      (u.refusedAt c h = true → Occurs ev s s) ∧
      (u.refusedAt c h = false → (u.cluster h).park.length < 64 → Occurs ev s
        (mark (u.parkAt { who := .matrix, src := c, req := e.uid, loc := w.loc, off := off }) true none)) ∧
      (u.refusedAt c h = false → 64 ≤ (u.cluster h).park.length → Occurs ev s (mark u false (some h))))) ∧
  (∀ (s : State) c p e, s.wr = [] → s.mxNext? c = some e → s.corePart? c = some p → e.zeroing = false →
    let Finished (ev : Instr) (n : Nat) : Prop := Answers (exec ev s) fun t => ∃ x, (t.core c).mxq.head? = some x ∧ x.uid = e.uid ∧
      x.finished = true ∧ x.status = 0 ∧ x.bad = 0 ∧ x.blocks = n
    (field (Cmd.ctl e.cmd 0) 1 0 = 0 → field (Cmd.ctl e.cmd 1) 1 0 = 0 → fmScale e.recA = 2 → fmScale e.recB = 2 →
      (Cmd.kind e.cmd = 0 → Finished (.mma c) (Cmd.kb e.cmd + 1)) ∧
      (Cmd.kind e.cmd = 1 → Answers (exec (.mmas c) s) fun t => ∃ x, (t.core c).mxq.head? = some x ∧ x.uid = e.uid ∧
        x.finished = true ∧ (x.status = 0 ∧ x.blocks = Cmd.kb e.cmd + 1 ∨ x.status = 4 ∧ x.blocks ≤ Cmd.kb e.cmd))) ∧
    (field (Cmd.ctl e.cmd 0) 1 0 = 0 → Cmd.kind e.cmd = 3 → Finished (.accl c) 0) ∧
    ((∀ w ∈ accsWrites (s.core c) e, ∃ off, w.1 = .spad off ∧ off < s.spadSize c) → Cmd.kind e.cmd = 4 → Finished (.accs c) 0) ∧
    (Cmd.kind e.cmd = 2 → Finished (.accz c) 0) ∧
    (Cmd.kind e.cmd = 5 → (Cmd.opt e.cmd = 0 → Finished (.accmCopy c) 0) ∧ (Cmd.opt e.cmd = 1 → Finished (.accmAdd c) 0) ∧
      (Cmd.opt e.cmd = 2 → Finished (.accmTranspose c) 0))) ∧
  (∀ (s : State) c, (s.core c).mxHeld ≠ none ∨ ((s.core c).halted = true ∧ ∀ e ∈ (s.core c).mxq.head?, e.begun = false) →
    s.mxNext? c = none) ∧
  (∀ (s : State) c e, s.mxNext? c = some e → (s.core c).mxq.head? = some e ∧ e.released = true ∧ e.finished = false ∧ e.parked = false ∧
    e.start ≤ s.time ∧ ∀ f ∈ (s.core c).flight, f.e.task = e.task → f.e.id < e.after → f.e.writes = false ∧ f.e.fenceSs = false) ∧
  (∀ (s : State) c uid w,
    let t := s.mxPins c uid w
    (∀ q, q.uid ≠ uid → q ∈ (s.core c).pins → q ∈ (t.core c).pins) ∧
    (∀ q ∈ (t.core c).pins, q ∈ w.held ∨ (q.uid ≠ uid ∧ q ∈ (s.core c).pins)) ∧
    ((∀ p ph gva gpa, w.loc = .hbm p ph gva gpa → (s.part p).moves gpa = false) → ∀ q ∈ w.held, q ∈ (t.core c).pins)) ∧
  (∀ (s : State) c ev, s.wr = [] → s.mxNext? c = none →
    ev ∈ [.mma c, .mmas c, .accz c, .accl c, .accs c, .accmCopy c, .accmAdd c, .accmTranspose c] → Occurs ev s s) ∧
  (∀ v e s, ∃ t, runAccz v e s = .done t 0 0 0 ∧ ∀ a i j, a < 4 → i < 32 → j < 32 →
    (t.core v.c).accAt a i j = if Cmd.zmask e.cmd / 2 ^ a % 2 = 1 then 0 else (s.core v.c).accAt a i j) ∧
  (∀ f v e s, ∃ t, runAccm f v e s = .done t 0 0 0 ∧ ∀ a i j, a < 4 → i < 32 → j < 32 →
    (t.core v.c).accAt a i j =
      if a = Cmd.acc e.cmd then f (s.core v.c) a (Cmd.acc2 e.cmd) i j else (s.core v.c).accAt a i j) ∧
  (∀ v e (s : State) f1 rows, readRows v (opndOf e.cmd 0 e.mapX (cFmt e).bits) (cFmt e) (upto 32) (upto 32) ⟨s, e.got, []⟩ = .ok (f1, rows) →
    ∃ t, runAccl v e s = .done t 0 0 0 ∧ ∀ i j, i < 32 → j < 32 →
      (t.core v.c).accAt (Cmd.acc e.cmd) i j = enc32 0 0 ((rows.getD i []).getD j .nan)) ∧
  (∀ v e pa pb (f f1 f2 f3 f4 : Lines) a b sa sb,
    let n := fmBlockLen e.recA
    let fa := (fmFmt? e.recA).getD f32
    let fb := (fmFmt? e.recB).getD f32
    readRows v (opndOf e.cmd 0 e.mapX fa.bits) fa ((upto n).map (n * pa + ·)) (upto 32) { f with held := [] } = .ok (f1, a) →
    readRows v (opndOf e.cmd 1 e.mapY fb.bits) fb ((upto n).map (n * pb + ·)) (upto 32) f1 = .ok (f2, b) →
    readScales v (fmScale e.recA) (e.scla + BitVec.ofNat 64 (32 * (Cmd.soffa e.cmd + pa))) (upto 32) f2 = .ok (f3, sa) →
    readScales v (fmScale e.recB) (e.sclb + BitVec.ofNat 64 (32 * (Cmd.soffb e.cmd + pb))) (upto 32) f3 = .ok (f4, sb) →
    ∃ g, doBlock v e pa pb f = .ok g ∧ ∀ i j, i < 32 → j < 32 →
      (g.s.core v.c).accAt (Cmd.acc e.cmd) i j = f32add ((f4.s.core v.c).accAt (Cmd.acc e.cmd) i j)
        (blockSum (a.getD i []) (b.getD j []) (sa.getD i .nan) (sb.getD j .nan))) ∧
  (∀ v e s, field (Cmd.ctl e.cmd 0) 1 0 = 0 → field (Cmd.ctl e.cmd 1) 1 0 = 0 → fmScale e.recA = 2 → fmScale e.recB = 2 →
    (∃ t, runMma v e s = .done t 0 0 (Cmd.kb e.cmd + 1)) ∧
    (∃ t status n, runMmas v e s = .done t status 0 n ∧ ((status = 0 ∧ n = Cmd.kb e.cmd + 1) ∨ (status = 4 ∧ n ≤ Cmd.kb e.cmd)))) ∧
  (∀ v e (s : State), (∀ w ∈ accsWrites (s.core v.c) e, ∃ off, w.1 = .spad off ∧ off < s.spadSize v.c) →
    ∃ t, runAccs v e s = .done t 0 0 0 ∧ (t.core v.c).acc = (s.core v.c).acc ∧ t.mem = s.mem ∧ t.wr = s.wr) ∧
  (∀ (s : State) c e r, s.wr = [] → (s.core c).mxq = e :: r → (e.finished = false ∨ s.engineHeld c 1 = true) →
    Occurs (.matrixCompletion c) s s) ∧
  (∀ (s : State) c e r, s.wr = [] → (s.core c).mxq = e :: r → e.finished = true → s.engineHeld c 1 = false →
    let u := s.modCore c fun k => { k with mxq := r, mxFreed := k.mxFreed + 1 }
    let u := if e.status = 1 ∨ e.status = 2 ∨ e.status = 3 then
      u.report c { reportRec (if e.status = 2 then Cause.permission else if e.status = 3 then Cause.ecc else Cause.translate) 0 0
        (u.placeWord c) e.bad (w64 e.num) with engine := 1 } else u
    let u := if e.status = 0 ∧ Cmd.courseEn e.cmd = true then
      u.deliverCourse (clusterOf c) (Cmd.courseIdx e.cmd) e.parity (Cmd.courseBytes e.cmd) c else u
    let rep : Report := ⟨decide (Cmd.mode e.cmd = 2), Cmd.cls e.cmd, mxRecord e, e.launch, e.prio⟩
    (Cmd.mode e.cmd = 0 → Occurs (.matrixCompletion c) s u) ∧
    (Cmd.mode e.cmd ≠ 0 → ∀ t, u.giveReport c rep = some t → Occurs (.matrixCompletion c) s t) ∧
    (Cmd.mode e.cmd ≠ 0 → u.giveReport c rep = none →
      Occurs (.matrixCompletion c) s (u.modCore c fun k => { k with mxHeld := some rep }))) ∧
  (∀ (s : State) c (r : Report), r.handler = false → s.giveReport c r =
    if 64 ≤ (s.core c).records then none else some (s.modCore c fun k => { k with cinbox := k.cinbox ++ [r.crec] })) ∧
  (∀ (s : State) c r, s.wr = [] → (s.core c).mxHeld = some r → (s.core c).cpHeld = [] →
    (s.giveReport c r = none → Occurs (.engineReportUnblock c) s s) ∧
    (r.handler = false → ∀ u, s.giveReport c r = some u →
      Occurs (.engineReportUnblock c) s (u.modCore c fun k => { k with mxHeld := none }))) ∧
  (∀ (s : State) c r q u, s.wr = [] → (s.core c).mxHeld = none → (s.core c).cpHeld = r :: q →
    s.engineHeld c 2 = false → s.giveReport c r = some u →
    Occurs (.engineReportUnblock c) s (u.modCore c fun k => { k with cpHeld := q })) ∧
  (∀ (s : State) c e r, s.wr = [] → (s.core c).mxq = e :: r → e.zeroing = true → e.released = true →
    Occurs (.accumulatorZeroing c) s (s.modCore c fun k => { k with acc := [], mxq := r }))

/-- R213, R216 to R223: a channel performs its oldest released transfer chunk by chunk, each within one page on both sides, in the
byte order of its kind; the finished one leaves the queue, its id is retired, its bytes are delivered to its course and it
reports as its control word says. That a chunk takes its effect in one step is log entry 15, and that it waits for an open slot of the
memory plane log entry 20. -/
def Obligations.CopyTransfers : Prop :=
  (∀ (s : State) c chan e ev, s.wr = [] → s.cpNext? c chan = some e →
    (ev = .lin c chan ∧ Cp.kind e.q.d = 0) ∨ (ev = .rect c chan ∧ Cp.kind e.q.d = 1 ∧ Cp.map e.q.d = false) ∨
    (ev = .rectMap c chan ∧ Cp.kind e.q.d = 1 ∧ Cp.map e.q.d = true) ∨ (ev = .slab c chan ∧ Cp.kind e.q.d = 2) ∨
    (ev = .gath c chan ∧ Cp.kind e.q.d = 3) ∨ (ev = .fill c chan ∧ Cp.kind e.q.d = 4) →
    (s.nextChunk c e = none → Occurs ev s (s.modCp c e.uid fun e => { e with finished := true })) ∧
    (∀ ch, s.nextChunk c e = some ch → (s.core c).halted = true → e.under = none → Occurs ev s s) ∧
    (∀ s1 e1 ch x, s.sampleGath c e = (s1, e1) → s1.nextChunk c e1 = some ch → (s.core c).halted = false →
      (((s1.copyChunk c e1 ch).core c).cpq.find? fun x => x.uid == e.uid) = some x → x.off = e.off →
      Occurs ev s (s1.copyChunk c e1 ch))) ∧
  (∀ (s : State) c chan e, s.wr = [] → s.cpNext? c chan = some e →
    (s.nextChunk c e = none → Occurs (.copyChunk c chan) s (s.modCp c e.uid fun e => { e with finished := true })) ∧
    (∀ s1 e1 ch, s.sampleGath c e = (s1, e1) → s1.nextChunk c e1 = some ch → (s.core c).halted = false →
      Occurs (.copyChunk c chan) s (s1.copyChunk c e1 ch))) ∧
  (∀ (s : State) c e, (Cp.kind e.q.d = 3 → e.gath.isSome = true) → s.sampleGath c e = (s, e)) ∧
  (∀ (s : State) c e, Cp.kind e.q.d = 3 → e.gath = none → e.off < Cp.total e.q e.map →
    let g : W64 := BitVec.ofNat 64 (leVal ((s.core c).spadBytes (field e.q.c 63 46 + 8 * (e.off / (field e.q.c 43 32 + 1))) 8))
    s.sampleGath c e = (s.modCp c e.uid fun x => { x with gath := some g }, { e with gath := some g })) ∧
  (∀ (s : State) c e ch src dst req, e.under = some (src, dst, req) → ch.dst ≠ none →
    (e.fetched = none → s.copyChunk c e ch = s) ∧
    (∀ bs, e.fetched = some bs → s.planeShut dst = true ∨ s.cpNear c ch.n dst = true → s.copyChunk c e ch = s) ∧
    (∀ bs, e.fetched = some bs → s.planeShut dst = false → s.cpNear c ch.n dst = false → s.pinHolds dst = false →
      s.copyChunk c e ch = s.putChunk c e ch (some src) dst bs)) ∧
  (∀ (s : State) c chan, s.wr = [] → s.cpNext? c chan = none → Occurs (.copyChunk c chan) s s) ∧
  (∀ (s : State) c chan e sel n, s.cpNext? c chan = some e → sel e = true → ∀ x,
    (((s.cpStep c e).core c).cpq.find? fun x => x.uid == e.uid) = some x → x.off ≠ e.off →
    s.cpRun c chan sel (n + 1) = (s.cpStep c e).cpRun c chan sel n) ∧
  (∀ (s : State) c (e : CpEntry), e.off < Cp.total e.q e.map →
    let x := e.q.c
    let o := e.off
    let left := Cp.total e.q e.map - o
    (Cp.kind e.q.d = 0 → s.nextChunk c e = some (plainChunk (e.q.a + BitVec.ofNat 64 o) (e.q.b + BitVec.ofNat 64 o) left)) ∧
    (Cp.kind e.q.d = 1 → Cp.map e.q.d = false →
      let rowb := field x 47 32
      s.nextChunk c e = some (plainChunk
        (e.q.a + BitVec.ofNat 64 (16 * field x 31 16 * (o / rowb) + o % rowb))
        (e.q.b + BitVec.ofNat 64 (16 * field x 15 0 * (o / rowb) + o % rowb)) (rowb - o % rowb))) ∧
    (Cp.kind e.q.d = 2 →
      let bb := Cp.slabB x * Cp.slabEs x
      let p := Cp.slabW x * Cp.slabH x
      s.nextChunk c e = some (plainChunk (e.q.a + BitVec.ofNat 64 o)
        (slabAddr e.q (o / bb % p) (field e.q.b 31 0 + o / bb / p * bb + o % bb)) (Nat.min left (bb - o % bb)))) ∧
    (Cp.kind e.q.d = 3 →
      let esz := field x 43 32 + 1
      ∀ g, e.gath = some g → s.nextChunk c e = some (plainChunk (e.q.a + g + BitVec.ofNat 64 (o % esz))
        (e.q.b + BitVec.ofNat 64 o) (esz - o % esz)))) ∧
  (∀ sa da n, ∃ m, plainChunk sa da n = ⟨.mem sa none, some da, none, m, m⟩ ∧ m ≤ n ∧ sa.toNat % 4096 + m ≤ 4096 ∧
    da.toNat % 4096 + m ≤ 4096 ∧ (0 < n → 0 < m)) ∧
  (∀ (s : State) c chan e w i da m k o a, s.wr = [] → s.cpNext? c chan = some e → e ∈ (s.core c).cpq → e.doomed = false →
    e.under = none → e.fetched = none → (s.core c).halted = false →
    Cp.kind e.q.d = 4 → s.nextChunk c e = some ⟨.pattern w i, some da, none, m, m⟩ →
    s.cpXlate c e da m .write = (s, .at_ (.spad k o), a) →
    Answers (exec (.copyChunk c chan) s) fun t =>
      (t.core k).spadBytes o m = (upto m).map (fun j => (leBytes 8 w.toNat).getD ((i + j) % 8) 0) ∧
      (∀ a, a < o ∨ o + m ≤ a → Tbl.find 0 (t.core k).spad a = Tbl.find 0 (s.core k).spad a) ∧
      (∃ x ∈ (t.core c).cpq, x.uid = e.uid ∧ x.off = e.off + m) ∧ t.mem = s.mem) ∧
  (∀ (s : State) c chan e sa da m j i k o a b, s.wr = [] → s.cpNext? c chan = some e → e ∈ (s.core c).cpq → e.doomed = false →
    e.under = none → e.fetched = none → (s.core c).halted = false → e.olds = [] → (j ≠ k ∨ i + m ≤ o ∨ o + m ≤ i) →
    i + m ≤ 2 ^ 18 → o + m ≤ 2 ^ 18 →
    (Cp.kind e.q.d = 3 → e.gath.isSome = true) → s.nextChunk c e = some ⟨.mem sa none, some da, none, m, m⟩ →
    s.cpXlate c e sa m .fetch = (s, .at_ (.spad j i), a) → s.cpXlate c e da m .write = (s, .at_ (.spad k o), b) →
    Answers (exec (.copyChunk c chan) s) fun t =>
      (t.core k).spadBytes o m = (s.core j).spadBytes i m ∧
      (∀ a, a < o ∨ o + m ≤ a → Tbl.find 0 (t.core k).spad a = Tbl.find 0 (s.core k).spad a) ∧
      (∃ x ∈ (t.core c).cpq, x.uid = e.uid ∧ x.off = e.off + m) ∧ t.mem = s.mem) ∧
  (∀ (s : State) c chan e, s.wr = [] → ((s.core c).cpq.find? fun e => e.chan == chan && e.released) = some e →
    (e.finished = false → Occurs (.copyCompletion c chan) s s) ∧
    (e.finished = true → e.status = 0 →
      let u := (((s.contribute e.word).modCore c fun k => { k with cpq := k.cpq.filter fun x => x.uid != e.uid }).modCore c fun k =>
        k.retire e.chan e.xid).cpDeliver c e
      let rep : Report := ⟨decide (Cp.mode e.q.d = 2), Cp.cls e.q.d, cpRecord e, e.launch, e.prio⟩
      (Cp.mode e.q.d = 0 → Occurs (.copyCompletion c chan) s u) ∧
      (Cp.mode e.q.d ≠ 0 → (u.core c).cpHeld = [] → u.engineHeld c 2 = false → ∀ t, u.giveReport c rep = some t →
        Occurs (.copyCompletion c chan) s t) ∧
      (Cp.mode e.q.d ≠ 0 → (u.core c).cpHeld ≠ [] ∨ u.engineHeld c 2 = true ∨ u.giveReport c rep = none →
        Occurs (.copyCompletion c chan) s (u.modCore c fun k => { k with cpHeld := k.cpHeld ++ [rep] }))) ∧
    (e.finished = true → e.status ≠ 0 →
      let u := (s.contribute e.word).modCore c fun k => { k with cpq := k.cpq.filter fun x => x.uid != e.uid }
      let rep : Report := ⟨decide (Cp.mode e.q.d = 2), Cp.cls e.q.d, cpRecord e, e.launch, e.prio⟩
      let cause := if e.status = 2 then Cause.permission else if e.status = 3 then Cause.ecc else Cause.translate
      (u.core c).cpHeld = [] → u.engineHeld c 2 = false → ∀ t, u.giveReport c rep = some t →
        Occurs (.copyCompletion c chan) s (t.report c { reportRec cause e.chan 0 (t.placeWord c) e.bad
          (BitVec.ofNat 64 (Cp.bytesOf e.q e.map e.off % 2 ^ 32 * 2 ^ 32 + e.xid)) with engine := 2 }))) ∧
  (∀ (k : Core) chan id, k.retired = [] → Tbl.find 0 k.cpdn chan = id → id < 2 ^ 32 →
    Tbl.find 0 (k.retire chan id).cpdn chan = (id + 1) % 2 ^ 32 ∧ (k.retire chan id).retired = []) ∧
  (∀ (k : Core) chan id, k.retired = [] → Tbl.find 0 k.cpdn chan ≠ id →
    (k.retire chan id).cpdn = k.cpdn ∧ (k.retire chan id).retired = [(chan, id)])

/-! ## Events: what the hypervisor does to pages (13 R238, R239, R241; 24 R340, R341) -/

/-- R238, R239, R241, R340, R341: a fill writes the entry and ends the waits for its page, or ends them as failed; an
invalidation drops the cached translations of a page, or of the partition, once no walk is under way and no pin is held under them; a
page moves by a copy of its frame, and is at the new one once its entry names it; a copy on write leaves the page in both frames,
changes LIVE and marks the epoch. That a copy on write whose other frame, or whose entry, lies beyond HBM is not made, and such an entry
not changed by a move, is log entry 4 (DESIGN CHOICE: R339 states no outcome); that an invalidation waits for what a release of its
cluster's scope has gone before is log entry 6. -/
def Obligations.PageEvents : Prop :=
  (∀ (s : State) p gpa addr (w : W64), s.wr = [] → addr + 8 ≤ hbmBytes → (∀ k ∈ (s.part p).clusters, (s.cluster k).park = []) →
    Answers (exec (.stage2FillReply p gpa (.fill addr w)) s) fun t =>
      (∀ a, Memory.read t.mem a = if addr ≤ a ∧ a < addr + 8 then (leBytes 8 w.toNat).getD (a - addr) 0 else Memory.read s.mem a) ∧
      (∀ g, g ∈ (t.part p).faults ↔ g ∈ (s.part p).faults ∧ g / 65536 ≠ gpa / 65536) ∧
      (∀ c n g, c ∈ (s.part p).cores → (s.slot c n).wait = .fill g → g / 65536 = gpa / 65536 →
        (t.slot c n).wait = .order ∧ (t.slot c n).fillFailed = false)) ∧
  (∀ (s : State) p gpa, s.wr = [] → (∀ k ∈ (s.part p).clusters, (s.cluster k).park = []) → s.net = [] →
    Answers (exec (.stage2FillReply p gpa .fail) s) fun t =>
      t.mem = s.mem ∧ (∀ g, g ∈ (t.part p).faults ↔ g ∈ (s.part p).faults ∧ g / 65536 ≠ gpa / 65536) ∧
      (∀ c n g, c ∈ (s.part p).cores → (s.slot c n).wait = .fill g → g / 65536 = gpa / 65536 →
        (t.slot c n).wait = .order ∧ (t.slot c n).fillFailed = true)) ∧
  (∀ (s : State) p g, s.wr = [] → (s.walksOpen p ≠ [] ∨ s.nearIn p = true) →
    Occurs (.stage2Invalidation p (some g)) s s ∧ Occurs (.stage2Invalidation p none) s s) ∧
  (∀ (s : State) p g, s.wr = [] → s.walksOpen p = [] → s.nearIn p = false →
    (s.pinned p (fun q => q.uses2 g) = true → Occurs (.stage2Invalidation p (some g)) s s) ∧
    (s.pinned p (fun q => q.uses2 g) = false → Answers (exec (.stage2Invalidation p (some g)) s) fun t =>
      t.mem = s.mem ∧ (∀ c, (t.core c).tlb = (s.core c).tlb.filter fun x => !x.uses2 p g) ∧
      (∀ k, (t.cluster k).tlb = (s.cluster k).tlb.filter fun x => !x.uses2 p g) ∧
      (∀ c f ph gva, f ∈ (s.core c).flight → f.e.loc = .hbm p ph gva g →
        let q := ((s.dropTlb fun x => x.uses2 p g).stage2 p g).2
        ∃ f' ∈ (t.core c).flight, f'.e.id = f.e.id ∧ f'.st = f.st ∧
          (q = none → f'.e.loc = .unmapped p gva g) ∧
          (∀ pa size e, q = some (pa, size, e) → lacks f.e.access.needs (pteR e) (pteW e) (pteA e) = false →
            f'.e.loc = .hbm p pa gva g))) ∧
    (s.pinned p (fun _ => true) = true → Occurs (.stage2Invalidation p none) s s) ∧
    (s.pinned p (fun _ => true) = false → Occurs (.stage2Invalidation p none) s
      ((s.dropTlb fun t => t.part == p).relocate p fun _ => true))) ∧
  (∀ (s s1 : State) p gpa frame pa size e, s.wr = [] → s.stage2 p gpa = (s1, some (pa, size, e)) → frame % size = 0 →
    frame + size ≤ hbmBytes → (s1.part p).moves gpa = false → (s1.part p).cow.contains (gpa / 65536) = false →
    Occurs (.pageMigration p gpa frame) s
      ((s1.modPart p fun k => { k with migrating := Tbl.set k.migrating (gpa / size * size) (frame, size) }).copyFrame p
        (pa - gpa % size) frame size)) ∧
  (∀ (s : State) p src dst n o, o < n → (∀ l ∈ s.lines, l.2.partials = []) →
    (s.copyFrame p src dst n).rdByte (dst + o) = s.rdByte (src + o)) ∧
  (∀ (s : State) p gpa base frame size, s.wr = [] →
    (s.part p).migrating.find? (fun e => decide (e.1 ≤ gpa ∧ gpa < e.1 + e.2.2)) = some (base, frame, size) →
    (s.pinned p (fun q => q.uses2 base) = true → Occurs (.pageMigrationComplete p gpa) s s) ∧
    (s.pinned p (fun q => q.uses2 base) = false →
      Occurs (.pageMigrationComplete p gpa) s
        (((((s.repoint p base frame).dropTlb fun t => t.uses2 p base).relocate p fun a => decide (base ≤ a ∧ a < base + size)).modPart
          p fun k => { k with migrating := Tbl.del k.migrating base }).replayPart p))) ∧
  (∀ (s : State) p base frame a size e, (s.part p).snapEntry? base = none →
    leaf2 base s (s.ctx (s.part p).ctx).s2root levels = some (a, size, e) →
    s.repoint p base frame = s.wrBytes a (leBytes 8 (e.toNat - pteAddr e + frame))) ∧
  (∀ (s : State) p base frame a, (s.part p).snapEntry? base = some a →
    (hbmBytes < a + 16 → s.repoint p base frame = s) ∧
    (a + 16 ≤ hbmBytes → let x := s.snapEntry a
      let shift := if bitAt x 24 then 48 else 0
      s.repoint p base frame = s.wrBytes a (leBytes 16
        (x.toNat - field x (shift + 23) shift * 2 ^ shift + frame / 65536 % 2 ^ 24 * 2 ^ shift)))) ∧
  (∀ (s : State) p page a, s.wr = [] → (s.part p).cow.contains page = true → (s.part p).moves (65536 * page) = false →
    (s.part p).snapEntry? (65536 * page) = some a →
    let x := s.snapEntry a
    let live := bitAt x 24
    (s.pinned p (fun q => q.uses2 (65536 * page)) = true → Occurs (.copyOnWriteComplete p page) s s) ∧
    (hbmBytes < snapFrame x (!live) + 65536 ∨ hbmBytes < a + 16 → Occurs (.copyOnWriteComplete p page) s s) ∧
    (s.pinned p (fun q => q.uses2 (65536 * page)) = false → snapFrame x (!live) + 65536 ≤ hbmBytes → a + 16 ≤ hbmBytes →
      let y := x.toNat % 2 ^ 96 + ((s.part p).snapEpoch + 1) % 2 ^ 32 * 2 ^ 96
      let s1 := s.copyFrame p (snapFrame x live) (snapFrame x !live) 65536
      Occurs (.copyOnWriteComplete p page) s
        (((((s1.wrBytes a (leBytes 16 (if live then y - 2 ^ 24 else y + 2 ^ 24))).dropTlb fun t =>
          t.uses2 p (65536 * page)).relocate p fun g => decide (g / 65536 = page)).modPart p fun k =>
          { k with cow := k.cow.filter (· != page) }).replayPart p))) ∧
  (∀ (e : BitVec 128) epoch, sealedFrame e epoch =
    (let f (one : Bool) : Nat := 65536 * (if one then field e 71 48 else field e 23 0)
     if field e 127 96 ≤ epoch then f (bitAt e 24) else f (!bitAt e 24))) ∧
  (∀ (s : State) p phys n a, phys ≤ 128 * a → 128 * a + 128 ≤ phys + n →
    (s.tagLines p phys n).foreign p (128 * a) = false)

/-! ## Events: the front end and the life of a launch (02 R30; 03 R41 to R59) -/

/-- R30, R41 to R48, R52 to R54, R57: a visit of a served ring takes records up to its producer index, at most four, and
writes a status for each; an accepted launch is held with the next id; it is released when its waits, its cores and its walkers
allow, its cores load the image, its clusters start their tasks; a trigger and the end of its last task raise its signal. That the
consumer index stands in memory at CTRL + 64 and is read from there at each visit is log entry 9 (DESIGN CHOICE). -/
def Obligations.LaunchEvents : Prop :=
  (∀ (s : State) ctx n p, s.wr = [] → s.residentIn? ctx = some p →
    let r := (s.ctx ctx).ring n
    (s.managed = false ∨ r.en = false ∨ r.served = false → Occurs (.ringVisit ctx n) s s) ∧
    (s.managed = true → r.en = true → r.served = true → r.log2n ≠ 0 → r.ctx = ctx → r.devq = [] → ∀ s1 bs,
      s.feRead p (BitVec.ofNat 64 r.ctrl) 68 = (s1, .got bs) →
      let cons := leVal (bs.drop 64)
      let due := (leVal (bs.take 4) + 2 ^ 32 - cons) % 2 ^ 32
      (2 ^ r.log2n < due → Occurs (.ringVisit ctx n) s (s1.modRingD ctx n fun r => { r with err := true, served := false })) ∧
      (due ≤ 2 ^ r.log2n → Occurs (.ringVisit ctx n) s (State.takeRecords p ctx n r (Nat.min 4 due) cons s1)))) ∧
  (∀ p ctx n r k cons (s u v w : State) code lid, cons < 2 ^ 32 →
    s.accept p ctx (BitVec.ofNat 64 (r.base + 128 * (cons % 2 ^ r.log2n))) n (cons % 2 ^ r.log2n) none = (u, some (code, lid)) →
    u.feWrite p (BitVec.ofNat 64 (r.status + 16 * (cons % 2 ^ r.log2n)))
      (statusBytes s.time 0 (decide (code ≠ 0)) true code lid) = (v, .got []) →
    v.feWrite p (BitVec.ofNat 64 (r.ctrl + 64)) (leBytes 4 ((cons + 1) % 2 ^ 32)) = (w, .got []) →
    State.takeRecords p ctx n r (k + 1) cons s = State.takeRecords p ctx n r k ((cons + 1) % 2 ^ 32) (w.ringServed ctx n) ∧
    State.takeRecords p ctx n r 0 cons s = s) ∧
  (∀ (s s1 : State) p ctx a n i d bs, s.feReadAll p 3 a 128 [] = (s1, .got bs) →
    (∀ k, recordCase (s1.part p) (BitVec.ofNat 1024 (leVal bs)) bs = some k → s.accept p ctx a n i d = (s1, some (k, 0))) ∧
    (recordCase (s1.part p) (BitVec.ofNat 1024 (leVal bs)) bs = none → ∀ s2 hd,
      s1.readHead p (BitVec.ofNat 64 (Rec.image (BitVec.ofNat 1024 (leVal bs)))) = (s2, .got hd) →
      headerBad (BitVec.ofNat 1024 (leVal bs)) (hd.zipIdx.map fun e => (e.2, e.1)) = false →
      classAbsent (hd.zipIdx.map fun e => (e.2, e.1)) (Rec.cls (BitVec.ofNat 1024 (leVal bs))) = false →
      (Rec.signal (BitVec.ofNat 1024 (leVal bs)) = 0 ∨ (s2.ctx ctx).unraised < 4096) → (s2.ctx ctx).lastLid + 1 < 2 ^ 32 →
      ∃ t k, s.accept p ctx a n i d = (t, some (0, (s2.ctx ctx).lastLid + 1)) ∧ (t.ctx ctx).lastLid = (s2.ctx ctx).lastLid + 1 ∧
        t.launch? { ctx := ctx, lid := (s2.ctx ctx).lastLid + 1 } = some k ∧ k.stage = .held ∧
        k.rcd = BitVec.ofNat 1024 (leVal bs) ∧ k.raised = none ∧ k.ring = n ∧ k.slotIdx = i ∧ k.device = d)) ∧
  (∀ (s : State) c k e a qid ar dr ticket p, s.wr = [] → s.flying? c k = some e → e.act = .launch a qid ar dr ticket →
    (s.core c).mayRelease e = true → s.corePart? c = some p →
    let ctx := (s.part p).ctx
    let u := s.land c e.id
    let d : DevLaunch := ⟨a, c, qid, ar, dr, ticket⟩
    ((s.ctx ctx).route qid = none → Occurs (.lnchCommit c k) s (u.answerLaunch d 18 0)) ∧
    (∀ n, (s.ctx ctx).route qid = some n →
      (16 ≤ ((s.ctx ctx).ring n).devq.length → Occurs (.lnchCommit c k) s (u.answerLaunch d 19 0)) ∧
      (((s.ctx ctx).ring n).devq.length < 16 →
        Occurs (.lnchCommit c k) s (u.modRingD ctx n fun r => { r with devq := r.devq ++ [d] })))) ∧
  (∀ (s : State) c k e, s.wr = [] → s.flying? c k = some e → (s.core c).mayRelease e = false →
    Occurs (.lnchCommit c k) s s ∧ Occurs (.trigCommit c k) s s) ∧
  (∀ (s : State) c k e l, s.wr = [] → s.flying? c k = some e → e.act = .trig → (s.core c).mayRelease e = true → e.launch = some l →
    Occurs (.trigCommit c k) s ((s.land c e.id).triggerAt l (clusterOf c) [])) ∧
  (∀ (s s1 s2 : State) ctx lid p k n bs, s.wr = [] → s.residentIn? ctx = some p → s.launch? { ctx := ctx, lid := lid } = some k →
    ((s.managed = false ∨ (s.part p).switch ≠ .none ∨ (s.part p).switchq ≠ [] ∨ s.releasable p ctx lid k = false ∨
      s.releaseTurn p ctx lid k = false) → Occurs (.launchRelease ctx lid) s s) ∧
    (s.managed = true → (s.part p).switch = .none → (s.part p).switchq = [] → s.releasable p ctx lid k = true → s.releaseTurn p ctx lid k = true →
      s.feRead p (BitVec.ofNat 64 (Rec.image k.rcd) + 8) 4 = (s1, .got n) →
      s1.feReadAll p 514 (BitVec.ofNat 64 (Rec.image k.rcd)) (Nat.min 65536 (leVal n)) [] = (s2, .got bs) →
      Occurs (.launchRelease ctx lid) s ((gangClusters (s.part p) k.rcd).foldl
        (fun s c => s.loadWalker (s.part p) { ctx := ctx, lid := lid } k.rcd c)
        (s2.setLaunch { ctx := ctx, lid := lid } { k with stage := .releasing, image := bs })))) ∧
  (∀ (s : State) ctx lid c p x, s.wr = [] → s.residentIn? ctx = some p → s.launch? { ctx := ctx, lid := lid } = some x →
    x.stage = .releasing → x.killed = false → (occupied (s.part p) x.rcd).contains c = true → x.loaded.contains c = false →
    ((s.core c).freeFor { ctx := ctx, lid := lid } = false → Occurs (.releaseImageLoad ctx lid c) s s) ∧
    ((s.core c).freeFor { ctx := ctx, lid := lid } = true →
      ((s.core c).enginesFree { ctx := ctx, lid := lid } = true ∨
        (8 ≤ indexOf c ∨ (s.core c).l1code = Rec.l1 x.rcd) ∧ (s.core c).fuse = Rec.fuse x.rcd) →
      Occurs (.releaseImageLoad ctx lid c) s
      ((s.setCore c ((s.core c).loadImage c { ctx := ctx, lid := lid } x.rcd x.image s.fabric.devId)).setLaunch { ctx := ctx, lid := lid }
        { x with loaded := c :: x.loaded }))) ∧
  (∀ (k : Core) c l r bs dev,
    (∀ a, Tbl.find 0 (k.loadImage c l r bs dev).imem a = bs.getD a 0) ∧ (k.loadImage c l r bs dev).selfDev = some dev ∧
    (k.loadImage c l r bs dev).l1 = [] ∧ (k.loadImage c l r bs dev).image = some l ∧ (k.loadImage c l r bs dev).imemDirty = false ∧
    (indexOf c < 8 → (k.loadImage c l r bs dev).l1code = Rec.l1 r ∧ ∃ e ∈ (k.loadImage c l r bs dev).mxq, e.zeroing = true ∧ e.released = true) ∧
    ∀ n, n ≤ 7 →
      ((k.loadImage c l r bs dev).slot n).regs.fmta = BitVec.ofNat 64 (Rec.fmt r) ∧
      ((k.loadImage c l r bs dev).slot n).regs.fmtb = BitVec.ofNat 64 (Rec.fmt r) ∧
      ((k.loadImage c l r bs dev).slot n).regs.fmtc = BitVec.ofNat 64 (Rec.fmt r) ∧
      ((k.loadImage c l r bs dev).slot n).regs.scla = BitVec.ofNat 64 (Rec.scla r) ∧
      ((k.loadImage c l r bs dev).slot n).regs.sclb = BitVec.ofNat 64 (Rec.sclb r) ∧
      ((k.loadImage c l r bs dev).slot n).g = (k.slot n).g) ∧
  (∀ (s : State) ctx lid k p x, s.wr = [] → s.residentIn? ctx = some p → s.launch? { ctx := ctx, lid := lid } = some x →
    let r := x.rcd
    let pt := s.part p
    let ks := if Rec.pair r then [k, k + 8] else [k]
    let cs := ks.flatMap (maskCores r)
    x.stage = .releasing → x.killed = false → (gangClusters pt r).contains k = true → x.started.contains k = false →
    (cs.all x.loaded.contains = false → Occurs (.releaseMessage ctx lid k) s s) ∧
    (cs.all x.loaded.contains = true →
      let u := (ks.foldl (fun s k => s.startCourse0 pt r k) s).setMxStart cs (s.time + 32 * staggerOf pt r k)
      let v := (maskCores r k).foldl (fun s c => s.startBy c (Rec.cls r) x.prio
          ⟨BitVec.ofNat 64 (Rec.args r), BitVec.ofNat 64 (rankOf pt r c), BitVec.ofNat 64 (gangSize r), BitVec.ofNat 64 (Rec.total r)⟩
          [] (some { ctx := ctx, lid := lid }) none) u
      ((gangClusters pt r).all (k :: x.started).contains = false → Occurs (.releaseMessage ctx lid k) s
        (v.setLaunch { ctx := ctx, lid := lid } { x with started := k :: x.started, stage := .releasing })) ∧
      ((gangClusters pt r).all (k :: x.started).contains = true → Occurs (.releaseMessage ctx lid k) s
        ((v.setLaunch { ctx := ctx, lid := lid } { x with started := k :: x.started, stage := .running }).resumeSwitch p)))) ∧
  (∀ (s : State) ctx lid p x, s.wr = [] → s.residentIn? ctx = some p → s.launch? { ctx := ctx, lid := lid } = some x →
    (s.managed = false ∨ s.ending? p { ctx := ctx, lid := lid } x = none → Occurs (.launchDone ctx lid) s s) ∧
    (∀ final ok t, s.managed = true → s.ending? p { ctx := ctx, lid := lid } x = some (final, ok) →
      (s.setLaunch { ctx := ctx, lid := lid } { x with
        stage := .done, final := final, image := [], raised := some (x.raised.getD ok) }).finalStatus p { ctx := ctx, lid := lid } x
          final = some t →
      Occurs (.launchDone ctx lid) s (((t.freeWalkers { ctx := ctx, lid := lid }).clearMembers
        ((occupied (s.part p) x.rcd).filter fun c => (s.core c).image == some { ctx := ctx, lid := lid })).resumeSwitch p)))

/-! ## Events: the rounds of the mortar plane, reductions and multicasts (17 R257 to R262, R265, R267, R268, R282, R283) -/

/-- R257, R259, R261, R265, R267, R268, R270, R271: a round ends and the next begins; its verdict is good exactly where nothing
showed evidence, and is delivered after the detector's latency: a good one confirms the pairs of the tasks, a bad one withdraws
the completions that wait. In a ring every privileged member that is not held fires; with one privilege the ring keeps one, which
passes to the next member. A node of a trellis takes the least distance of its neighbours plus one, up to the cap, and its
parent's clock. A course that completes moves to its next phase. That the structures step before a verdict is delivered is the model's choice
(log entry 8). -/
def Obligations.MortarRounds : Prop :=
  (∀ (s : State) k, s.wr = [] → s.ringsOf (.group k) = [] → (s.cluster k).courses = [] →
    (s.detector (.group k)).late = [] → (∀ e ∈ s.parts, ∀ t, (s.slot e.2.supCore 7).wait ≠ .synld t) →
    let d := s.detector (.group k)
    (s.time < d.began + 8 → Occurs (.mortarRound (.group k)) s s) ∧
    (d.began + 8 ≤ s.time →
    (d.waiting = [] → Answers (exec (.mortarRound (.group k)) s) fun t =>
      let e := t.detector (.group k)
      e.round = (d.round + 1) % 2 ^ 32 ∧ e.waiting = [(d.round, !d.evid)] ∧ e.evid = false ∧ e.legit = d.legit ∧ e.began = s.time ∧
        e.since = Nat.min 255 (d.since + 1) ∧ t.mem = s.mem ∧ t.cores = s.cores ∧ t.parts = s.parts) ∧
    (∀ r, d.waiting = [(r, true)] → s.runningSlots = [] →
      Answers (exec (.mortarRound (.group k)) s) fun t =>
        let e := t.detector (.group k)
        e.round = (d.round + 1) % 2 ^ 32 ∧ e.waiting = [(d.round, !d.evid)] ∧ e.evid = false ∧ e.legit = true ∧ e.began = s.time ∧
          e.since = Nat.min 255 (d.since + 1) ∧ t.mem = s.mem ∧ t.cores = s.cores) ∧
    (∀ r, d.waiting = [(r, false)] → s.runningSlots = [] → (∀ x ∈ d.eaters, x.1 ≠ r) →
      Answers (exec (.mortarRound (.group k)) s) fun t =>
        let e := t.detector (.group k)
        e.round = (d.round + 1) % 2 ^ 32 ∧ e.waiting = [(d.round, !d.evid)] ∧ e.legit = false ∧
          e.since = (if d.legit then 0 else Nat.min 255 (d.since + 1)) ∧ t.mem = s.mem ∧
          (∀ c, (t.core c).runq = (s.core c).runq.filter fun q => !s.refutedMsg (.group k) r q.msg) ∧
          (∀ j, (t.cluster j).tasks = (s.cluster j).tasks.filter fun x => !s.refutedMsg (.group k) r x.2)))) ∧
  (∀ (s : State) i, (s.roundDue i = true ↔
      (s.detector i).began + (match i with | .group _ => 8 | .device _ => 64 | .system _ => 10800) ≤ s.time) ∧
    (s.roundDue i = false → s.wr = [] → Occurs (.mortarRound i) s s)) ∧
  (∀ (i : Inst) round (t : Slot), (confirmSlot i round t).pairs = t.pairs.filter (fun x => !(decide (x.inst = i) && x.round == round)) ∧
    ((confirmSlot i round t).taint = true ↔ (confirmSlot i round t).pairs ≠ []) ∧ (confirmSlot i round t).g = t.g) ∧
  (∀ (r : Ring) m, r.fire.val m =
    if m < r.n ∧ r.privileged m = true ∧ r.heldAtStart m = false then
      (if m = 0 then (r.val 0 + 1) % r.k else r.val (m - 1)) else r.val m) ∧
  (∀ (r : Ring), 2 ≤ r.n → r.n ≤ r.k → (∀ m < r.n, r.val m < r.k) → r.held = [] → r.rel = [] → r.evidence = false →
    r.fire.evidence = false ∧ ∀ m < r.n, r.privileged m = true → r.fire.privileged ((m + 1) % r.n) = true) ∧
  (∀ (t : Trellis) (p : Partition) root k, k ∈ p.clusters →
    let ds := [0, 1, 2, 3].map fun port => Tbl.find 0 t.dist (p.neighbour k port)
    let u := t.step p root
    (k = root → Tbl.find 0 u.dist k = 0 ∧ Tbl.find 31 u.parent k = 31 ∧ Tbl.find 0 u.clock k = (Tbl.find 0 t.clock k + 1) % 2 ^ 32) ∧
    (k ≠ root →
      (∃ d ∈ ds, (∀ e ∈ ds, d ≤ e) ∧ Tbl.find 0 u.dist k = Nat.min p.cap (1 + d) ∧
        ∃ port < 4, Tbl.find 31 u.parent k = port ∧ Tbl.find 0 t.dist (p.neighbour k port) = d ∧
          ∀ q < port, Tbl.find 0 t.dist (p.neighbour k q) ≠ d) ∧
      (Tbl.find 31 t.parent k < 4 →
        Tbl.find 0 u.clock k = Tbl.find 0 t.clock (p.neighbour k (Tbl.find 31 t.parent k))))) ∧
  (∀ (c : Course) round, let u := c.complete round
    u.f.q = (c.f.q + 1) % 3 ∧ u.f.arr = c.f.held ∧ u.f.held = 0 ∧ u.f.dcur = c.f.dnxt ∧ u.f.ecur = c.f.enxt ∧ u.f.dnxt = 0 ∧
      u.f.enxt = 0 ∧ u.f.cont = c.f.contHeld ∧ u.unconfirmed = true ∧ u.mem = c.mem ∧ u.arrived = c.f.held &&& c.mem ∧
      ∀ b < 72, c.mem.getLsbD b = true → u.f.pmOf b = (c.f.q + 1) % 3 ∧ Tbl.find 0 u.phase b = (c.f.q + 1) % 3)

/-- R258, R267, R282, R283: a generation closes once every core of the gang has contributed, and each receives its result; a contribution
waits while four generations are open and its own is not, and one of a core outside the gang counts for nothing; a multicast waits for the one before it and reaches every core of the
gang; a soft error changes one field or register bit. -/
def Obligations.ReductionsAndMulticasts : Prop :=
  (∀ (s : State) ctx lid k pn, s.wr = [] → s.launch? { ctx := ctx, lid := lid } = some k → s.residentIn? ctx = some pn →
    let l : LaunchId := { ctx := ctx, lid := lid }
    let p := s.part pn
    let gang := gangCores p k.rcd
    let whole (g : Nat × List Contribution) : Bool := gang.all fun c => g.2.any fun x => x.core == c
    (k.gens.find? whole = none → Occurs (.trrdGenerationClose ctx lid) s s) ∧
    (∀ g cs op, k.gens.find? whole = some (g, cs) → op ≠ 8 → (∀ c ∈ cs, c.op = op) → cs ≠ [] →
      let v := (trrdNode op k.trellis p (trellisRoot p k.rcd) cs (p.cap + 1) (trellisRoot p k.rcd)).getD 0
      Occurs (.trrdGenerationClose ctx lid) s (gang.foldl (fun u c =>
        match cs.find? fun x => x.core == c with
        | some x => u.startBy c x.cls x.prio ⟨v, BitVec.ofNat 64 g, BitVec.ofNat 64 cs.length, BitVec.ofNat 64 p.det.round⟩ [] (some l)
            (some ⟨.reduction g, .device pn, p.det.round⟩)
        | none => u) (s.setLaunch l { k with gens := Tbl.del k.gens g, closed := k.closed ++ [(g, p.det.round, cs)] }))) ∧
    (k.trmc = [] → Occurs (.trmcDelivery ctx lid) s s) ∧
    (∀ cls q prio rest, k.trmc = (cls, q, prio) :: rest → Occurs (.trmcDelivery ctx lid) s (gang.foldl (fun u c =>
        u.startBy c cls prio q (leBytes 8 p.det.round) (some l) (some ⟨.multicast, .device pn, p.det.round⟩))
      (s.setLaunch l { k with trmc := rest, trmcSent := k.trmcSent ++ [(p.det.round, (cls, q, prio))] })))) ∧
  (∀ op (t : Trellis) p root (cs : List Contribution) fuel k, t.children p root k = [] →
    trrdNode op t p root cs (fuel + 1) k = trrdFold op ((coresOf k).filterMap fun c => (cs.find? fun x => x.core == c).map (·.v))) ∧
  (∀ (s : State) c k e l i, s.wr = [] → s.flying? c k = some e → (s.core c).mayMortar e = true → s.mayNear c e = true →
    e.launch = some i → s.launch? i = some l →
    let z := s.nearNow c e
    (∀ g v op cls, e.act = .trrd g v op cls →
      (s.inGang c l = false → Occurs (.trrdDrainWaitEnd c k) s (z.land c e.id)) ∧
      (s.inGang c l = true → (Tbl.get? l.gens g).isSome ∨ l.gens.length < 4 → Occurs (.trrdDrainWaitEnd c k) s
        ((z.setLaunch i { l with gens := Tbl.set l.gens g (Tbl.find [] l.gens g ++ [⟨c, v, op, cls, e.prio⟩]) }).land c e.id)) ∧
      (s.inGang c l = true → Tbl.get? l.gens g = none ∧ 4 ≤ l.gens.length → Occurs (.trrdDrainWaitEnd c k) s s)) ∧
    (∀ cls q, e.act = .trmc cls q →
      (l.trmc = [] → Occurs (.trmcDrainWaitEnd c k) s ((z.setLaunch i { l with trmc := [(cls, q, e.prio)] }).land c e.id)) ∧
      (l.trmc ≠ [] → Occurs (.trmcDrainWaitEnd c k) s s))) ∧
  (∀ (s : State) c k e, s.wr = [] → s.flying? c k = some e → (s.core c).mayMortar e = false ∨ s.mayNear c e = false →
    Occurs (.trrdDrainWaitEnd c k) s s ∧ Occurs (.trmcDrainWaitEnd c k) s s) ∧
  (∀ (s : State) p a v, s.wr = [] →
    (∀ f, s.mfield p a = .ok f → Occurs (.softError (.mortar p a v)) s (s.poke p f v false)) ∧
    (∀ e, s.mfield p a = .error e → Occurs (.softError (.mortar p a v)) s s)) ∧
  (∀ (s : State) c n (r : Reg) b, s.wr = [] →
    (r ≠ 0 → ∃ u : State, Occurs (.softError (.greg c n r b)) s u ∧ u.mem = s.mem ∧ ∀ i j,
      (Tbl.find 0 (u.slot c n).g i).getLsbD j =
        if i = r.toNat ∧ j = b ∧ j < 64 then !(Tbl.find 0 (s.slot c n).g i).getLsbD j else (Tbl.find 0 (s.slot c n).g i).getLsbD j) ∧
    (r = 0 → Occurs (.softError (.greg c n r b)) s s)) ∧
  (∀ (s : State) c n h ln b, s.wr = [] →
    Occurs (.softError (.imem c h)) s (s.modCore c fun k => { k with badImem := h :: k.badImem.filter (· != h) }) ∧
    (∀ p, Occurs (.softError (.supImem p h)) s (s.modPart p fun k => { k with badSup := h :: k.badSup.filter (· != h) })) ∧
    Occurs (.softError (.hbm ln)) s (s.setLine ln { s.line ln with bad := true }) ∧
    ((s.slot c n).running = true → Occurs (.softError (.upset c n b)) s (s.modSlot c n fun t => { t with upset := b :: t.upset })) ∧
    ((s.slot c n).running = false → Occurs (.softError (.upset c n b)) s s))

/-! ## Events: the management interface (03 R37, R39, R50; 20 R297, R298, R302; 24 R339, R344 to R346) -/

/-- R37, R39, R298, R302, R344, R346: a partition descriptor is taken only by a partition without a resident context, and refused
with an alert where it is wrong; the management's registers take their values while the management cores run; edits of a peer
table take effect at its invalidation, writes of the slot table at the frame's end; E2ET lies between 40 and 1000; contexts and
domains are made and destroyed with their keys; a domain's old key goes only once no frame under it is unacknowledged. That a
descriptor write with EN, or the clearing of ERR while EN stands, makes a ring served again is log entry 16 (DESIGN CHOICE: R41 names no
way back); what a sealed read gives of lines and of an entry that do not verify, or lie beyond HBM, is log entry 4, and the debugger's
writes of registers that programs only read are log entry 18. -/
def Obligations.Management : Prop :=
  (∀ (s : State) p v, s.wr = [] → p < 64 → s.managed = true → (s.part p).resident = false →
    let k := s.part p
    let px := field v 3 0
    let py := field v 7 4
    let pw := field v 11 8
    let ph := field v 15 12
    let en := bitAt v 49
    let bad := 15 < px + pw ∨ 15 < py + ph ∨ 5 ≤ field v 48 46 ∨ field v 48 46 < field v 45 43 ∨
      (∃ e ∈ s.parts, e.1 ≠ p ∧ e.2.en = true ∧ px ≤ e.2.px + e.2.pw ∧ e.2.px ≤ px + pw ∧
        py ≤ e.2.py + e.2.ph ∧ e.2.py ≤ py + ph)
    let u : Partition := { k with en := en, l1max := field v 48 46, l1min := field v 45 43, ctx := field v 39 32, ph := ph, pw := pw,
                                  py := py, px := px, switch := .none }
    (bad → Occurs (.partitionDescriptorWrite p v) s { s with alerts := s.alerts ++ [.descriptorRefused p] }) ∧
    (en = true → s.plat.stage ≠ .running → Occurs (.partitionDescriptorWrite p v) s
      { s with alerts := s.alerts ++ [.descriptorRefused p] }) ∧
    (¬bad → en = false → Occurs (.partitionDescriptorWrite p v) s (s.setPart p u)) ∧
    (¬bad → en = true → s.plat.stage = .running → (s.ctx u.ctx).alive = true →
      (∀ c, (s.cluster c).failed = false) →
      ∃ t : State, Occurs (.partitionDescriptorWrite p v) s t ∧ t.mem = s.mem ∧ t.cores = s.cores ∧
        (t.part p).switch = .restoring u.ctx ∧ (t.part p).en = true ∧ (t.part p).px = px ∧ (t.part p).py = py ∧
        (t.part p).pw = pw ∧ (t.part p).ph = ph ∧ (t.part p).l1max = u.l1max ∧ (t.part p).l1min = u.l1min ∧
        (t.part p).ctx = u.ctx ∧ (k.en = false → (t.part p).peers = [] ∧ (t.part p).peerLen = 0 ∧ (t.part p).qos = 0) ∧
        ∀ q, q ≠ p → t.part q = s.part q)) ∧
  (∀ (s : State) p v, s.wr = [] → s.managed = false → Occurs (.partitionDescriptorWrite p v) s s) ∧
  (∀ (s : State) p v, s.wr = [] → s.managed = true → (s.part p).resident = true → p < 64 →
    Occurs (.partitionDescriptorWrite p v) s { s with alerts := s.alerts ++ [.descriptorRefused p] }) ∧
  (∀ (s : State) m, s.wr = [] →
    (s.managed = false → Occurs (.managementWrite m) s s) ∧
    (s.managed = true →
      (∀ c n w, m = .ring c n w → n < 64 → Occurs (.managementWrite m) s (s.modRingD c n fun r => { r with
        ctx := field w 223 216, err := r.err && !bitAt w 207, en := bitAt w 206, served := bitAt w 206, pcap := field w 205 204,
        log2n := field w 195 192, ctrl := field w 191 128, status := field w 127 64, base := field w 63 0 })) ∧
      (∀ c i w, m = .queue1 c i w → i < 64 → Occurs (.managementWrite m) s
        (s.modCtx c fun x => { x with q1 := Tbl.put 0 x.q1 i (w &&& 0xBF#8) })) ∧
      (∀ c i w, m = .queue2 c i w → i < 64 → Occurs (.managementWrite m) s
        (s.modCtx c fun x => { x with q2 := Tbl.put 0 x.q2 i (w &&& 0xBF#8) })) ∧
      (∀ c a, m = .saveArea c a → Occurs (.managementWrite m) s
        (if a % 2 ^ 30 = 0 then s.modCtx c fun x => { x with saveArea := a } else s)) ∧
      (∀ c a, m = .stage2Root c a → Occurs (.managementWrite m) s (s.modCtx c fun x => { x with s2root := a })) ∧
      (∀ c a, m = .controlBlock c a → Occurs (.managementWrite m) s (s.modCtx c fun x => { x with tcb := a })) ∧
      (∀ c a, m = .supervisorImage c a → Occurs (.managementWrite m) s (s.modCtx c fun x => { x with supImage := a })) ∧
      (∀ p h w, m = .peer p h w → Occurs (.managementWrite m) s
        (s.modPart p fun k => { k with peerEdits := k.peerEdits ++ [(h, w)] })) ∧
      (∀ p w, m = .snapshotRoot p w → Occurs (.managementWrite m) s (s.modPart p fun k => if k.resident = true then k else
        { k with snapPages := field w 223 192, snapBase := field w 191 128, snapTable := field w 127 64, snapEn := bitAt w 0 })) ∧
      (∀ t w, m = .slotEntry t w → t < 256 → Occurs (.managementWrite m) s
        (let f := s.fabric.nextFrame s.time
         { s with fabric := { f with slotPending := f.slotPending ++ [(t, w &&& 0xBF#8)] } })) ∧
      (∀ p g n a, m = .sealedRead p g n → (s.part p).snapEntry? g = some a →
        (hbmBytes < a + 16 ∨ s.foreign p a = true → Occurs (.managementWrite m) s s) ∧
        (a + 16 ≤ hbmBytes → s.foreign p a = false →
          let at_ := sealedFrame (s.snapEntry a) (s.part p).snapEpoch + g % 65536
          let r := s.homeRead none p at_ g (Nat.min n (65536 - g % 65536))
          ∃ out : List Byte, Occurs (.managementWrite m) s { r.1 with readout := out } ∧ out.length = r.2.length ∧
            ∀ i, i < out.length → out.getD i 0 = if s.foreign p (at_ + i) = true then 0 else r.2.getD i 0)) ∧
      (∀ c w, m = .debug c w →
        (s.residentIn? c = none → Occurs (.managementWrite m) s s) ∧
        (∀ p, s.residentIn? c = some p →
          ((s.part p).debugger = false ∨ (s.part p).halt ≠ .halted → Occurs (.managementWrite m) s s) ∧
          ((s.part p).debugger = true → (s.part p).halt = .halted →
            (∀ k n (r : Reg) v, w = .g k n r v → s.corePart? k = some p → n < 8 → r ≠ 0 → Occurs (.managementWrite m) s
              (s.modSlot k n fun t => { t with g := Tbl.put 0 t.g r.toNat v })) ∧
            (∀ k n (r : Reg) v, w = .v k n r v → s.corePart? k = some p → n < 8 → Occurs (.managementWrite m) s
              (s.modSlot k n fun t => { t with v := Tbl.put 0 t.v r.toNat v })) ∧
            (∀ k n num v, w = .cr k n num v → s.corePart? k = some p → n < 8 →
              (num = 0x012 → Occurs (.managementWrite m) s (s.setSlot k n { s.slot k n with msgid := BitVec.ofNat 32 v.toNat })) ∧
              (num = 0x013 → Occurs (.managementWrite m) s (s.setSlot k n { s.slot k n with msrc := v })) ∧
              (num = 0x014 → Occurs (.managementWrite m) s (s.setSlot k n { s.slot k n with budg := v.toNat % 2 ^ 24 })) ∧
              (num = 0x018 → Occurs (.managementWrite m) s (s.setSlot k n { s.slot k n with tcause := v })) ∧
              (num = 0x019 → Occurs (.managementWrite m) s (s.setSlot k n { s.slot k n with taddr := v }))) ∧
            (∀ k i st win ret x, w = .walker k i st win ret → (s.part p).holds k = true → Tbl.get? (s.cluster k).walkers i = some x →
              Occurs (.managementWrite m) s (s.modCluster k fun y => { y with walkers := Tbl.set y.walkers i { x with
                gen := field st 63 56, hi := field st 55 28, lo := field st 27 0, num := field win 39 32, count := field win 31 24 + 1
                taken := BitVec.ofNat 8 (field win 7 0), ret := (ret.take 504).map (· % 2 ^ 28) } })) ∧
            (∀ k n a, w = .pc k n a → s.corePart? k = some p → n < 8 → Occurs (.managementWrite m) s
              (s.modSlot k n fun t => { t with pc := ⟨decide (32768 ≤ a % 65536), a % 32768⟩ })) ∧
            (∀ k o b, w = .spad k o b → s.corePart? k = some p → o < s.spadSize k → Occurs (.managementWrite m) s
              (s.modCore k fun x => x.spadWrite o [b])) ∧
            (∀ k o b, w = .imem k o b → s.corePart? k = some p → o < 65536 → Occurs (.managementWrite m) s
              (s.modCore k fun x => x.imemWrite o (fullBytes [b]))) ∧
            (∀ k i v, w = .acc k i v → s.corePart? k = some p → i < 4096 → Occurs (.managementWrite m) s
              (s.modCore k fun x => { x with acc := Tbl.put 0 x.acc i v }))))) ∧
      (∀ v, m = .deviceId v → Occurs (.managementWrite m) s { s with fabric := { s.fabric with devId := v % 2 ^ 18 } }) ∧
      (∀ c n, m = .ringWriteClear c n → n < 64 → Occurs (.managementWrite m) s
        (s.modRingD c n fun r => { r with err := false, served := r.en })) ∧
      (∀ c d, m = .domain c d → Occurs (.managementWrite m) s (s.modCtx c fun x => { x with domain := d })) ∧
      (∀ p n, m = .peerLength p n → Occurs (.managementWrite m) s (s.modPart p fun k => { k with peerLenEdit := some n })) ∧
      (∀ p w, m = .qos p w → Occurs (.managementWrite m) s
        (s.modPart p fun k => { k with qos := BitVec.ofNat 64 (field w 24 8 * 256) })) ∧
      (∀ w, m = .transitWeight w → Occurs (.managementWrite m) s
        (if w = 0 then s else { s with fabric := { s.fabric with transitWeight := w.toNat } })) ∧
      (∀ p w, m = .streamRing p w → Occurs (.managementWrite m) s (s.modPart p fun k => { k with streamRing := w })) ∧
      (∀ d ports, m = .route d ports → Occurs (.managementWrite m) s
        { s with fabric := { s.fabric with routes := Tbl.set s.fabric.routes (d % 2 ^ 18) ports } }) ∧
      (∀ v, m = .udpPort v → Occurs (.managementWrite m) s { s with fabric := { s.fabric with udpPort := v % 2 ^ 16 } }) ∧
      (∀ d root cap, m = .systemTrellis d root cap → Occurs (.managementWrite m) s { s with fabric := { s.fabric with
        sysTrellis := Tbl.set s.fabric.sysTrellis d
          { (Tbl.get? s.fabric.sysTrellis d).getD {} with conf := true, root := root, cap := cap } } }) ∧
      (∀ a w, m = .memory a w → a + 8 ≤ hbmBytes → (s.line (a / 128)).partials = [] →
        Answers (exec (.managementWrite m) s) fun t => ∀ b, Memory.read t.mem b =
          if a ≤ b ∧ b < a + 8 then (leBytes 8 w.toNat).getD (b - a) 0 else Memory.read s.mem b))) ∧
  (∀ (s : State) p, s.wr = [] → s.managed = false → Occurs (.peerInvalidation p) s s) ∧
  (∀ (s : State) p, s.wr = [] → s.managed = true →
    ∃ u : State, Occurs (.peerInvalidation p) s u ∧ u.mem = s.mem ∧ (u.part p).peerEdits = [] ∧ (u.part p).peerLenEdit = none ∧
      (u.part p).peerLen = (s.part p).peerLenEdit.getD (s.part p).peerLen ∧
      ∀ h, Tbl.find 0 (u.part p).peers h =
        match (s.part p).peerEdits.reverse.find? fun e => e.1 == h with
        | some e => e.2
        | none => Tbl.find 0 (s.part p).peers h) ∧
  (∀ (s : State), s.wr = [] → s.time / 256 ≤ s.fabric.frames → Occurs .memoryPlaneFrame s s) ∧
  (∀ (s : State), s.wr = [] → s.fabric.frames < s.time / 256 →
    ∃ u : State, Occurs .memoryPlaneFrame s u ∧ u.mem = s.mem ∧ u.parts = s.parts ∧ u.fabric.slotPending = [] ∧
      u.fabric.frames = s.time / 256 ∧ ∀ t, Tbl.find 0 u.fabric.slotTable t =
        match s.fabric.slotPending.reverse.find? fun e => e.1 == t with
        | some e => e.2
        | none => Tbl.find 0 s.fabric.slotTable t) ∧
  (∀ (s : State) p, (s.fabric.slotPending = [] ∨ s.time / 256 ≤ s.fabric.frames) →
    let e := Tbl.find 0 s.fabric.slotTable (s.time % 256)
    (bitAt e 7 = true → field e 5 0 = p → s.planeOpen p = true) ∧
    (field e 5 0 ≠ p ∨ bitAt e 7 = false → bitAt (s.part p).qos 24 = false → s.planeOpen p = false) ∧
    (bitAt e 7 = false → bitAt (s.part p).qos 24 = true → s.planeOpen p = true)) ∧
  (∀ (s : State) v, s.wr = [] → s.managed = true →
    (40 ≤ v ∧ v ≤ 1000 → Occurs (.e2etWrite v) s { s with fabric := { s.fabric with e2et := v } }) ∧
    (v < 40 ∨ 1000 < v → Occurs (.e2etWrite v) s { s with alerts := s.alerts ++ [.e2etRefused v] })) ∧
  (∀ (s : State) c, s.wr = [] → c < 256 → (s.ctx c).alive = false → Occurs (.contextCreation c) s
    { s.modCtx c fun x => { x with alive := true, key := some s.keysMade } with keysMade := s.keysMade + 1 }) ∧
  (∀ (s : State) c, s.wr = [] →
    ∃ u : State, Occurs (.contextDestroy c) s u ∧ u.mem = s.mem ∧ u.ctx c = {} ∧ Tbl.get? u.saves c = none ∧
      (∀ d, d ≠ c → u.ctx d = s.ctx d) ∧ (s.residentIn? c = none → u.cores = s.cores ∧ u.parts = s.parts) ∧
      ∀ p, s.residentIn? c = some p → (s.part p).px + (s.part p).pw ≤ 15 → (s.part p).py + (s.part p).ph ≤ 15 → (u.part p).resident = false ∧ ∀ k ∈ (s.part p).clusters, ∀ i < 16, u.core (16 * k + i) = {}) ∧
  (∀ (s : State) d v w, s.wr = [] → s.managed = false →
    Occurs (.domainCreation d) s s ∧ Occurs (.domainDestruction d) s s ∧ Occurs (.fabricKeyInstall d) s s ∧
    Occurs (.fabricKeySwitch d) s s ∧ Occurs (.fabricKeyDestroy d) s s ∧ Occurs (.e2etWrite v) s s ∧ Occurs (.flowRestart w) s s) ∧
  (∀ (s : State) d, s.wr = [] → s.managed = true →
    let n := Tbl.find 0 s.fabric.keysMade d
    (s.hasKey d = true → Occurs (.domainCreation d) s s) ∧
    (s.hasKey d = false → Occurs (.domainCreation d) s { s with fabric := { s.fabric with
      keys := Tbl.set s.fabric.keys d { current := n, made := n }, keysMade := Tbl.put 0 s.fabric.keysMade d (n + 1) } } ∧
      Occurs (.domainDestruction d) s s) ∧
    (∀ k, Tbl.get? s.fabric.keys d = some k → Occurs (.domainDestruction d) s { s with fabric := { s.fabric with
      keys := Tbl.del s.fabric.keys d, keysMade := Tbl.put 0 s.fabric.keysMade d (Nat.max n (k.made + 1)) } })) ∧
  (∀ (s : State) d (k : DomKeys), s.wr = [] → s.managed = true → Tbl.get? s.fabric.keys d = some k →
    let set (k : DomKeys) : State := { s with fabric := { s.fabric with keys := Tbl.set s.fabric.keys d k } }
    (k.next = none → Occurs (.fabricKeyInstall d) s (set { k with next := some (k.made + 1), made := k.made + 1 })) ∧
    (∀ n, k.next = some n →
      Occurs (.fabricKeySwitch d) s (set { k with switched := true }).flowsGo ∧
      (k.switched = true → (∀ o ∈ s.fabric.out, ∀ f ∈ o.2.unacked, f.domain = d → f.key ≠ k.current) →
        Occurs (.fabricKeyDestroy d) s (set { k with current := n, next := none, switched := false })) ∧
      (k.switched = false ∨ (∃ o ∈ s.fabric.out, ∃ f ∈ o.2.unacked, f.domain = d ∧ f.key = k.current) →
        Occurs (.fabricKeyDestroy d) s (set k))))

/-! ## Events: the fabric's frames, links and flows (20 R291 to R302) -/

/-- R291, R292, R294, R295, R299 to R304, R345: a frame on a link that is down is not seen; a link takes frames in the order of their
count, and its receiver reports the count. A frame that fails its form or its tag is dropped; one for another device is forwarded by
the best of its minimal ports. A frame of a flow is taken when it is the next and acknowledged, held when it is ahead, and only
acknowledged when it was taken before, its EPOCH telling (R303). Between a port and a partition it waits for a slot of the partition on the
memory plane (R289; whose it is, log entry 20). An acknowledgement frees the frames before it. A link that goes down loses its buffer, and what
waits for it takes another port. The timer sends the frames again, and breaks the flow the eighth time; a broken flow starts again with
a new epoch, which the fabric manager names. Of a port's classes with a frame that is due to start the one whose frame is due to end first
sends next, a reply before the requests of its class: how the bound of R345 is kept, log entry 20. -/
def Obligations.FramesAndLinks : Prop :=
  (∀ (s : State) port f, s.wr = [] → (s.fabric.link port).up = false ∨ s.managed = false → Occurs (.frameReceive port f) s s) ∧
  (∀ (s : State) port f, s.wr = [] → (s.fabric.link port).up = true → s.managed = true →
    let l := s.fabric.link port
    let u : State := State.reportCount { s with fabric := s.fabric.setLink port { l with received := l.received + 1 } } port false
    (f.fcsGood = false → Occurs (.frameReceive port f) s (s.dropFrame.reportCount port true)) ∧
    (f.fcsGood = true → linkFrame f = true → ∀ count gap, f.payload = .link count gap →
      (s.frameOk port f = false → Occurs (.frameReceive port f) s s.dropFrame) ∧
      (s.frameOk port f = true → Occurs (.frameReceive port f) s (s.linkControl port count gap))) ∧
    (f.fcsGood = true → linkFrame f = false →
      (l.received + 1 < f.count → Occurs (.frameReceive port f) s (s.reportCount port true)) ∧
      (f.count ≤ l.received → Occurs (.frameReceive port f) s (s.reportCount port false)) ∧
      (f.count = l.received + 1 →
        (u.frameOk port f = false → Occurs (.frameReceive port f) s u.dropFrame) ∧
        (u.frameOk port f = true → f.ddev ≠ 0x3FFFF → f.ddev ≠ s.fabric.devId →
          (f.opcode ≠ 3 ∨ Tbl.get? s.fabric.streams f.stream = none) →
          Occurs (.frameReceive port f) s
            (u.forwardFrame transitClass { f with out := none })) ∧
        (u.frameOk port f = true → f.ddev = s.fabric.devId → s.fabric.devId ≠ 0x3FFFF →
          (s.tagOk f = false → Occurs (.frameReceive port f) s u.dropFrame) ∧
          (s.tagOk f = true → f.opcode = 2 → f.ackv = true →
            Occurs (.frameReceive port f) s (u.acked ⟨s.fabric.devId, f.sdev, f.tc⟩ f.ack) ∧
            Occurs (.ackReceive port f) s (u.acked ⟨s.fabric.devId, f.sdev, f.tc⟩ f.ack)) ∧
          (s.tagOk f = true → f.opcode ≠ 2 → f.ackv = false →
            Occurs (.ackReceive port f) s s ∧ Occurs (.frameReceive port f) s (u.sequence port f)))))) ∧
  (∀ (s : State) port f,
    let w : FlowId := ⟨f.sdev, f.ddev, f.tc⟩
    let i := s.fabric.inOf w
    let d := i.ahead f
    (d = 0 → s.takeable f = true →
      let t : State := { s with fabric := s.fabric.setIn w i.pass }
      s.sequence port f = ((t.takeFrame port f).takeHeld w (i.held.length + 1)).answerFrame f) ∧
    (d = 0 → s.takeable f = false → s.sequence port f = s) ∧
    (1 ≤ d → d < 4096 → Tbl.get? i.held f.seq = none →
      s.sequence port f = { s with fabric := s.fabric.setIn w { i with held := Tbl.set i.held f.seq (port, f) } }) ∧
    (1 ≤ d → d < 4096 → Tbl.get? i.held f.seq ≠ none → s.sequence port f = s.answerFrame f) ∧
    (4096 ≤ d → (2 ^ 43 ≤ d → s.sequence port f = s.answerFrame f) ∧ (d < 2 ^ 43 → s.sequence port f = s))) ∧
  (∀ (s : State) f, f.ddev = s.fabric.devId → s.answerFrame f = s.sendAck f) ∧
  (∀ (i : FlowIn) f, i.next < 2 ^ 24 → f.seq < 2 ^ 24 →
    (f.epoch % 2 ^ 20 = i.epoch % 2 ^ 20 → i.ahead f = if i.next ≤ f.seq then f.seq - i.next else 2 ^ 44 - (i.next - f.seq)) ∧
    (f.epoch % 2 ^ 20 = (i.epoch + 1) % 2 ^ 20 → i.ahead f = 2 ^ 24 - i.next + f.seq) ∧
    ((f.epoch + 1) % 2 ^ 20 = i.epoch % 2 ^ 20 → 2 ^ 43 ≤ i.ahead f) ∧
    i.pass.next = (i.next + 1) % 2 ^ 24 ∧ Tbl.get? i.pass.held i.next = none ∧
    i.pass.epoch = if i.next + 1 = 2 ^ 24 then (i.epoch + 1) % 2 ^ 20 else i.epoch) ∧
  (∀ (s : State) port f,
    (s.frameFor f = none → s.takeFrame port f = s.takePayload port f) ∧
    (∀ p, s.frameFor f = some p →
      ((s.part p).halt ≠ .running → s.takeFrame port f =
        s.modPart p fun k => { k with holding := k.holding ++ [(port, f)], holdBytes := k.holdBytes + f.wire }) ∧
      ((s.part p).halt = .running → s.planeOpen p = true → (∀ e ∈ s.fabric.arrived, s.frameFor e.2 ≠ some p) →
        s.takeFrame port f = s.takePayload port f) ∧
      ((s.part p).halt = .running → s.planeOpen p = false ∨ (∃ e ∈ s.fabric.arrived, s.frameFor e.2 = some p) →
        s.takeFrame port f = { s with fabric := { s.fabric with arrived := s.fabric.arrived ++ [(port, f)] } }))) ∧
  (∀ (s : State) k f,
    (k = transitClass ∨ (s.planeOpen k = true ∧ ∀ e ∈ s.fabric.inject, e.1 ≠ k) → s.inject k f = s.forwardFrame k f) ∧
    (k ≠ transitClass → s.planeOpen k = false ∨ (∃ e ∈ s.fabric.inject, e.1 = k) →
      s.inject k f = { s with fabric := { s.fabric with inject := s.fabric.inject ++ [(k, f)] } })) ∧
  (∀ (s : State) port gap, ∃ f, (s.reportCount port gap).fabric.link port = { s.fabric.link port with
      wire := ((s.fabric.link port).wire.filter fun x => x.opcode != 0x0F) ++ [f] } ∧
    f.opcode = 0x0F ∧ f.ddev = 0x3FFFF ∧ f.payload = .link (s.fabric.link port).received gap) ∧
  (∀ (s : State) port f, s.frameOk port f = true ↔
    f.supported = true ∧ 64 ≤ f.wire ∧ f.wire ≤ 9216 ∧ f.reservedZero = true ∧ f.tc ≤ 3 ∧
    (f.opcode = 1 ∨ f.opcode = 2 ∨ f.opcode = 3 ∨ f.opcode = 4 ∨ f.opcode = 0x0F ∧ f.ddev = 0x3FFFF) ∧
    f.length ≤ (if 24 ≤ port then 9108 else 9174) ∧ (port < 24 ∨ f.udp = s.fabric.udpPort)) ∧
  (∀ (s : State) w next, (s.fabric.outOf w).queue = [] →
    let o := (s.acked w next).fabric.outOf w
    o.unacked = (s.fabric.outOf w).unacked.filter (fun f => !seqBefore f.seq next) ∧
      (o.unacked ≠ (s.fabric.outOf w).unacked → o.expired = 0) ∧ (s.acked w next).mem = s.mem) ∧
  (∀ (s : State) port count gap, s.wr = [] →
    let l := s.fabric.link port
    let left := l.replay.drop (count - l.freed)
    (l.up = true → s.managed = true → l.freed ≤ count → count ≤ l.sent → Occurs (.linkControlFrame port count gap) s
      (State.pump { s with fabric := s.fabric.setLink port { l with replay := left, freed := count
                                                                    wire := if gap then (l.wire.filter fun f => f.opcode == 0x0F) ++ left
                                                                            else l.wire.filter fun f => f.opcode == 0x0F || decide (count < f.count) } }
        port)) ∧
    (l.up = false ∨ s.managed = false ∨ count < l.freed ∨ l.sent < count → Occurs (.linkControlFrame port count gap) s s)) ∧
  (∀ (s : State) port, s.wr = [] →
    let l := s.fabric.link port
    let down : State := { s with fabric := { s.fabric.setLink port { l with up := false, replay := [], wire := [] } with
      egress := s.fabric.egress.filter fun e => e.1 != port } }
    Occurs (.linkDown port) s (((s.fabric.egress.filter fun e => e.1 == port).map (·.2)).foldl
      (fun u e => u.forwardFrame e.1 e.2) down)) ∧
  (∀ (s : State) port, s.wr = [] → s.plat.stage ≠ .recovery →
    ((s.fabric.link port).up = true ∨ 26 ≤ port ∨ s.managed = false → Occurs (.linkTraining port) s s) ∧
    ((s.fabric.link port).up = false → port < 26 → s.managed = true → Occurs (.linkTraining port) s
      (State.pump { s with fabric := s.fabric.setLink port { up := true } } port))) ∧
  (∀ (s : State) k f, f.out = none →
    let ports := ((Tbl.get? s.fabric.routes f.ddev).getD []).filter fun p =>
      (s.fabric.link p).up && (decide (p < 24) || decide (f.length ≤ 9108))
    (ports = [] → s.forwardFrame k f = { s with fabric := { s.fabric with dropped := s.fabric.dropped + 1 } }) ∧
    (ports ≠ [] → ∃ p ∈ ports, s.forwardFrame k f = State.enqueueFrame { s with free := s.free + 1 } p k f ∧
      ∀ q ∈ ports, q ≠ p → Config.portSlots s.free q < Config.portSlots s.free p ∨ Config.portSlots s.free q = Config.portSlots s.free p ∧
        ((s.fabric.queued p).length < (s.fabric.queued q).length ∨
          (s.fabric.queued p).length = (s.fabric.queued q).length ∧ p < q))) ∧
  (∀ (s : State) port, (∃ j ∈ (s.fabric.queued port).map (·.1), s.weight port j ≠ 0) →
    ∃ k, s.nextClass? port = some k ∧ k ∈ (s.fabric.queued port).map (·.1) ∧ s.weight port k ≠ 0 ∧
      Tbl.find 0 (s.fabric.link port).start k ≤ s.portClock port ∧
      ∀ j ∈ (s.fabric.queued port).map (·.1), s.weight port j ≠ 0 → Tbl.find 0 (s.fabric.link port).start j ≤ s.portClock port →
        s.dueEnd port k ≤ s.dueEnd port j) ∧
  (∀ (s : State) port, (∀ j ∈ (s.fabric.queued port).map (·.1), s.weight port j = 0) →
    s.nextClass? port = ((s.fabric.queued port).head?).map (·.1)) ∧
  (∀ (s : State) port k e, s.classFrame? port k = some e → s.dueEnd port k =
    Tbl.find 0 (s.fabric.link port).start k + e.2.wire * 65536 / s.weight port k) ∧
  (∀ (l : Link) k bytes w all, w ≠ 0 →
    Tbl.find 0 (l.charge k bytes w all).start k = Tbl.find 0 l.start k + bytes * 65536 / w ∧
    (l.charge k bytes w all).clock = l.clock + bytes * 65536 / all ∧
    ∀ j, j ≠ k → Tbl.find 0 (l.charge k bytes w all).start j = Tbl.find 0 l.start j) ∧
  (∀ (s : State) port k f, s.nextFrame? port = some (k, f) → s.nextClass? port = some k ∧
    (f.tc = 0 → ∀ e ∈ s.fabric.queued port, e.1 = k → e.2.tc ≠ 1)) ∧
  (∀ (s : State) w dom strm out pl, w.sdev = s.fabric.devId →
    let o := s.fabric.outOf w
    let t := s.emit w dom strm out pl
    (t.fabric.outOf w).seq = (o.seq + 1) % 2 ^ 24 ∧
    (t.fabric.outOf w).epoch = (if o.seq + 1 = 2 ^ 24 then o.epoch + 1 else o.epoch) ∧
    ∃ f, (t.fabric.outOf w).unacked = o.unacked ++ [f] ∧ f.ddev = w.ddev ∧ f.sdev = s.fabric.devId ∧ f.tc = w.tc ∧ f.seq = o.seq ∧
      f.epoch = o.epoch % 2 ^ 20 ∧ f.domain = dom ∧ f.stream = strm ∧ f.payload = pl ∧ f.key = s.sealKey dom ∧ f.opcode = payloadOpcode pl) ∧
  (∀ (s : State) dev tc dom strm out pl,
    let w : FlowId := ⟨s.fabric.devId, dev, tc⟩
    let o := s.fabric.outOf w
    (o.queue ≠ [] ∨ 4096 ≤ o.unacked.length ∨ o.broken = true ∨ o.reuses dom (s.sealKey dom) = true →
      s.sendVia dev tc dom strm out pl =
        { s with fabric := s.fabric.setOut w { o with queue := o.queue ++ [(dom, strm, out, pl)] } }) ∧
    (o.queue = [] → o.unacked.length < 4096 → o.broken = false → o.reuses dom (s.sealKey dom) = false →
      s.sendVia dev tc dom strm out pl = s.emit w dom strm out pl)) ∧
  (∀ (o : FlowOut) dom key, ((∀ e ∈ o.keys, e.1 = dom → e.2.1 ≠ key) → o.reuses dom key = false) ∧
    (∀ n, o.keys.find? (fun e => e.1 == dom && e.2.1 == key) = some (dom, key, n) → (o.reuses dom key = true ↔ n + 2 ^ 20 ≤ o.epoch))) ∧
  (∀ (s : State) w, s.wr = [] → w.sdev = s.fabric.devId → (s.fabric.outOf w).unacked ≠ [] → (s.fabric.outOf w).broken = false →
    let o := s.fabric.outOf w
    let due := o.sentAt.headD 0 + s.fabric.e2et * 2700
    (s.time < due → Occurs (.e2eTimerExpiry w) s s) ∧
    (due ≤ s.time → o.expired < 7 →
      let again := o.unacked.map fun f => { f with resend := true }
      Occurs (.e2eTimerExpiry w) s (again.foldl (fun u f => u.inject (u.classOf f.domain f.payload) f)
        { s with fabric := s.fabric.setOut w { o with
          unacked := again, sentAt := again.map fun _ => s.time, expired := o.expired + 1 } })) ∧
    (due ≤ s.time → 7 ≤ o.expired → Occurs (.e2eTimerExpiry w) s (o.queue.foldl (fun u e => u.failFrame w.ddev e.2.2.2)
      (o.unacked.foldl (fun u f => u.failFrame w.ddev f.payload)
        { s with fabric := s.fabric.setOut w { o with broken := true, unacked := [], sentAt := [], queue := [], expired := 8 } })))) ∧
  (∀ (s : State) w, s.wr = [] → s.managed = true → w.sdev = s.fabric.devId → w.ddev ≠ s.fabric.devId →
    let o := s.fabric.outOf w
    (o.broken = true → ∃ e, o.epoch < e ∧ e < o.epoch + 2 ^ 20 ∧
      Occurs (.flowRestart w) s (State.flowGoes { s.nextFree.2 with fabric := s.fabric.setOut w { o with
        seq := 0, epoch := e, unacked := [], sentAt := [], expired := 0, broken := false } } w)) ∧
    (o.broken = false → Occurs (.flowRestart w) s s)) ∧
  (∀ (s : State) w, s.wr = [] → s.managed = true → w.sdev ≠ s.fabric.devId → w.ddev = s.fabric.devId →
    Answers (exec (.flowRestart w) s) fun t => t.mem = s.mem ∧
      ∃ e, e < 2 ^ 20 ∧ e ≠ (s.fabric.inOf w).epoch % 2 ^ 20 ∧ t.fabric.inOf w = { epoch := e })

/-! ## Events: virtual streams (20 R306 to R310) -/

/-- R306 to R309: a request of the stream ring is refused with code 4, 2, 3 or 1 in that order of checks, or configures or releases
the stream. A word of a port in the current set leaves at once, or once every port of the set has given its word, combined in the
order of the ports; a marker leaves once every port of the set has given it, and the next set becomes current. Code 4 for a set with
an OP at a port that faces a switch, the note of what came before a configure, and a marker in transit where several IN ports make one
although no entry has an OP, are log entry 20. -/
def Obligations.Streams : Prop :=
  (∀ (s s1 s2 t t1 t2 : State) p bs rq, s.wr = [] → s.managed = true →
    let k := s.part p
    let w := k.streamRing
    let cons := leVal (bs.drop 64)
    let i := cons % 2 ^ rdLog2n w
    let q := BitVec.ofNat 512 (leVal rq)
    k.en = true → k.resident = true → rdEn w = true → rdLog2n w ≠ 0 → s.guestRead p (rdCtrl w) 68 = (s1, some bs) →
    leVal (bs.take 4) ≠ cons → s1.guestRead p (rdBase w + BitVec.ofNat 64 (128 * i)) 64 = (s2, some rq) →
    ∀ code, s2.streamRequest p q = (code, t) →
    t.guestWrite p (rdStatus w + BitVec.ofNat 64 (16 * i)) (statusBytes t.time 0 true true code 0) = (t1, true) →
    t1.guestWrite p (rdCtrl w + 64) (leBytes 4 ((cons + 1) % 2 ^ 32)) = (t2, true) →
    (sqAction q = 1 → Occurs (.streamRelease p) s t2) ∧
    (sqAction q ≠ 1 → s.streamAhead p = false → Occurs (.streamConfigure p) s t2)) ∧
  (∀ (s : State) p q,
    let k := s.part p
    let dom := (s.ctx k.ctx).domain
    let n := sqStream q
    let old := Tbl.get? s.fabric.streams n
    let facing := ∃ x ∈ sqSets q, x.op ≠ 0 ∧ ∃ port < 24, (x.inp.getLsbD port = true ∨ x.out.getLsbD port = true) ∧
      Config.facesSwitch port = true
    let bad := sqReserved q = true ∨ (∃ e, old = some e ∧ e.part ≠ p) ∨
      (sqAction q ≠ 1 ∧ (notifyOk k (sqNotify q) = false ∨ facing))
    (bad → s.streamRequest p q = (4, s)) ∧
    (¬bad → sqAction q = 1 →
      s.streamRequest p q = (0, { s with fabric := { s.fabric with
        streams := Tbl.del s.fabric.streams n, early := s.fabric.early.filter (· != n) } })) ∧
    (¬bad → sqAction q ≠ 1 →
      ((∃ x ∈ sqSets q, x.op ≠ 0) ∧ s.hasKey dom = false → s.streamRequest p q = (2, s)) ∧
      (((∀ x ∈ sqSets q, x.op = 0) ∨ s.hasKey dom = true) →
        ((∃ e, old = some e ∧ e.entered = true) ∨ old = none ∧ n ∈ s.fabric.early → s.streamRequest p q = (3, s)) ∧
        ((∀ e, old = some e → e.entered = false) → (old = none → n ∉ s.fabric.early) →
          (s.slotsFit n (sqSets q) = false → s.streamRequest p q = (1, s)) ∧
          (s.slotsFit n (sqSets q) = true →
            let e : Stream := { part := p, dom := dom, sets := sqSets q, base := sqBase q, notify := sqNotify q, cls := sqClass q }
            s.streamRequest p q = (0, { s with fabric := { s.fabric with streams := Tbl.set s.fabric.streams n e } })))))) ∧
  (∀ (s : State) n port e x v gone rest, s.wr = [] → Tbl.get? s.fabric.streams n = some e →
    Tbl.find [] e.queues port = (.word x v, gone) :: rest →
    let t := e.sets.getD e.cur {}
    let e1 : Stream := { e with queues := Tbl.put [] e.queues port rest }
    let put (e : Stream) : State := { s with fabric := { s.fabric with streams := Tbl.set s.fabric.streams n e } }
    let out (u : State) (v : W64) : State := if gone then u else u.streamOut n e t (.word x v)
    (t.inp.getLsbD port = false → Occurs (.streamWord n port) s s) ∧
    (t.inp.getLsbD port = true →
      (t.op = 0 → t.out.getLsbD 24 = false → Occurs (.streamWord n port) s (out (put e1) v)) ∧
      (t.op = 0 → t.out.getLsbD 24 = true → ∀ s', s.xlateMem none e.part ((e.base + 8 * x) % 2 ^ 48) .write = s' →
        (∀ u c, s' = (u, .bad c) → Occurs (.streamWord n port) s (out (put e1) v)) ∧
        ((∀ u c, s' ≠ (u, .bad c)) → ∀ u,
          s.guestWrite e.part (BitVec.ofNat 64 (e.base + 8 * x)) (leBytes 8 v.toNat) = (u, true) →
          u.fabric = s.fabric → Occurs (.streamWord n port) s (out { u with fabric := (put e1).fabric } v))) ∧
      (t.op ≠ 0 → t.out.getLsbD 24 = false →
        let got := Tbl.set (Tbl.find [] e.words x) port v
        ((∃ q < 25, t.inp.getLsbD q = true ∧ Tbl.get? got q = none) →
          Occurs (.streamWord n port) s (put { e1 with words := Tbl.set e.words x got })) ∧
        ((∀ q < 25, t.inp.getLsbD q = true → Tbl.get? got q ≠ none) → Occurs (.streamWord n port) s
          (out (put { e1 with words := Tbl.del e.words x })
            (streamCombine t.op (((upto 25).filter fun q => t.inp.getLsbD q).map fun q => Tbl.find 0 got q))))))) ∧
  (∀ (s : State) n e, s.wr = [] → Tbl.get? s.fabric.streams n = some e →
    let t := e.sets.getD e.cur {}
    let ins := (upto 25).filter fun q => t.inp.getLsbD q
    ((∃ q ∈ ins, (Tbl.find [] e.queues q).head?.map (·.1) ≠ some .marker) → Occurs (.streamMarker n) s s) ∧
    (ins ≠ [] → (∀ q ∈ ins, (Tbl.find [] e.queues q).head?.map (·.1) = some .marker) →
      let e1 : Stream := { e with
        queues := ins.foldl (fun m q => Tbl.put [] m q ((Tbl.find [] m q).drop 1)) e.queues
        cur := (e.cur + 1) % e.sets.length, words := [] }
      let v : State := { s with fabric := { s.fabric with streams := Tbl.set s.fabric.streams n e1 } }
      let u := if (∀ q ∈ ins, (Tbl.find [] e.queues q).head?.map (·.2) = some true) then v else v.streamOut n e t .marker
      (t.out.getLsbD 24 = false → Occurs (.streamMarker n) s u) ∧
      (t.out.getLsbD 24 = true → Occurs (.streamMarker n) s
        (u.startBy (coreOfPlace (u.part e.part) e.notify) e.cls 0 ⟨BitVec.ofNat 64 n, BitVec.ofNat 64 e.cur, 0, 0⟩ [] none none)))) ∧
  (∀ (s : State) port f,
    (Tbl.get? s.fabric.streams f.stream = none → s.streamTransit port f = s.forwardFrame transitClass { f with out := none }) ∧
    (∀ e, Tbl.get? s.fabric.streams f.stream = some e →
      ((e.sets.getD e.cur {}).op ≠ 0 → s.tagOk f = true → s.streamTransit port f = s.sequence port f) ∧
      ((e.sets.getD e.cur {}).op ≠ 0 → s.tagOk f = false → s.streamTransit port f = s.dropFrame) ∧
      ((e.sets.getD e.cur {}).op = 0 → (e.sets.getD e.cur {}).inp.getLsbD port = false →
        s.streamTransit port f = s.forwardFrame transitClass { f with out := none }) ∧
      ((e.sets.getD e.cur {}).op = 0 → (e.sets.getD e.cur {}).inp.getLsbD port = true →
        let on := ((upto 24).filter fun p => (e.sets.getD e.cur {}).out.getLsbD p && (s.fabric.link p).up).foldl
          (fun s p => s.enqueueFrame p transitClass f) s
        (s.tagOk f = false → s.streamTransit port f = on) ∧
        (s.tagOk f = true → e.ends f = false → s.streamTransit port f = on.sequence port f) ∧
        (s.tagOk f = true → e.ends f = true → s.streamTransit port f = s.sequence port f)))) ∧
  (∀ (e : Stream) f, e.ends f = true ↔ (e.sets.getD e.cur {}).op ≠ 0 ∨ (marksSet f = true ∧
    ∃ p < 25, ∃ q < 25, p ≠ q ∧ (e.sets.getD e.cur {}).inp.getLsbD p = true ∧ (e.sets.getD e.cur {}).inp.getLsbD q = true)) ∧
  (∀ (s : State) off bs, (∀ b ∈ bs, (off + b.pos) / 8 = off / 8) → bs ≠ [] → (s.streamItems off bs).1.length = 1) ∧
  (∀ (s : State) n off bs, Tbl.get? s.fabric.streams n = none →
    n ∈ (s.streamPut n off bs).fabric.early ∧ (s.streamPut n off bs).fabric.streams = s.fabric.streams) ∧
  (∀ op (a b c : W64), streamCombine op [a, b, c] = streamOp op (streamOp op a b) c) ∧
  (∀ a b : W64, streamOp 1 a b = a + b ∧ streamOp 3 a b = (if a.toInt < b.toInt then b else a) ∧
    streamOp 4 a b = (if b.toNat < a.toNat then b else a))

/-! ## Events: traps, replies, halts and errors (06 R102, R107; 22 R316 to R322, R330 to R332; 24 R337, R338) -/

/-- R102, R107, R316 to R320, R337, R338: a task whose budget is spent traps BUDGET; a deadlock of the buffer pool aborts the task
dispatched last, a replayable one where there is one; the oldest record that waits enters the trap queue once it has room; a
call enters it, or waits for its context. RESUME removes the held mark, SKIP consumes the message, KILL tears the launch down. The
two tasks of a pair go on only where their hashes agree; where they differ both run again once, and then trap PAIR. -/
def Obligations.TrapsAndReplies : Prop :=
  (∀ (s : State) c n p, s.wr = [] → s.privileged c n = false → s.primaryOf? c = none → s.mirrorOf? c = none →
    s.corePart? c = some p → (s.part p).debugger = false → (s.part p).ordinary < 252 → (s.slot c n).running = true →
    ((s.slot c n).budg = 0 → (s.slot c n).wait.issued = false → (s.slot c n).pairTrap = none → (s.core c).halted = false →
      Answers (exec (.budgetExpiry c n) s) (Trapped s c n p Cause.budget 0 0)) ∧
    (∀ j, (s.core c).poolVictim = some n → (s.slot c n).stream = [] → s.fetch c n = (s, .ok j) →
      Answers (exec (.cbfullDeadlockAbort c) s) (Trapped s c n p Cause.cbfull 0 (instrBits j))) ∧
    Occurs (.eccUncorrectable c n) s (s.trapNow c n Cause.ecc 0 0 (s.slot c n).pc true)) ∧
  (∀ (s : State) c n, s.wr = [] →
    ((s.slot c n).budg ≠ 0 → Occurs (.budgetExpiry c n) s s) ∧
    ((s.slot c n).running = false → Occurs (.budgetExpiry c n) s s ∧ Occurs (.eccUncorrectable c n) s s) ∧
    ((s.core c).poolVictim = none → Occurs (.cbfullDeadlockAbort c) s s)) ∧
  (∀ (k : Core) n, k.poolVictim = some n →
    let waits (t : Slot) : Prop := t.running = true ∧ ∃ need, t.wait = .pool need ∧ 576 < poolUsed k + need
    (∀ e ∈ k.slots, e.2.running = true → 0 < poolShare e.2.buf → waits e.2) ∧
    ∃ t, (n, t) ∈ k.slots ∧ waits t ∧ ((∃ e ∈ k.slots, waits e.2 ∧ e.2.repl = true) → t.repl = true) ∧
      ∀ e ∈ k.slots, waits e.2 → (e.2.repl = true ∨ t.repl = false) → e.2.task ≤ t.task) ∧
  (∀ (s : State) p r q, s.wr = [] → (s.part p).fatalHeld = none → (s.part p).heldRecs = r :: q →
    ((s.part p).ordinary < 252 → Occurs (.trapQueueWaitEnd p) s
      (s.modPart p fun k => { k with trapq := k.trapq ++ [r], heldRecs := q })) ∧
    (252 ≤ (s.part p).ordinary → Occurs (.trapQueueWaitEnd p) s (s.setPart p (s.part p)))) ∧
  (∀ (s : State) c h (q : Quad), s.wr = [] →
    (∀ p, s.residentIn? c = some p →
      (h < 160 ∨ imgLength (s.part p).supImem / 2 ≤ h → Occurs (.callRecord c h q) s s) ∧
      (160 ≤ h → h < imgLength (s.part p).supImem / 2 → (s.part p).ordinary < 252 → ∃ r,
        Occurs (.callRecord c h q) s (s.modPart p fun k => { k with trapq := k.trapq ++ [r] }) ∧
          r.call = some h ∧ r.w0 = q.a ∧ r.w1 = q.b ∧ r.w2 = q.c ∧ r.w3 = q.d ∧ r.fatal = false)) ∧
    (s.residentIn? c = none → (s.ctx c).alive = true →
      Occurs (.callRecord c h q) s (s.modCtx c fun x => { x with calls := x.calls ++ [(h, q)] })) ∧
    (s.residentIn? c = none → (s.ctx c).alive = false → Occurs (.callRecord c h q) s s)) ∧
  (∀ (s : State) j c n sel code p, s.wr = [] → s.corePart? c = some p →
    (j = .resume c n ∧ code = 1 ∧ sel = [1]) ∨ (j = .skip c n ∧ code = 2 ∧ sel = [2]) ∨ (j = .kill c n ∧ code = 0 ∧ sel = [0, 3]) →
    ((s.part p).halt ≠ .running → (∀ r ∈ (s.part p).debugRecs, r.core = c → r.slot ≠ n) → Occurs j s s) ∧
    (∀ r rest, (s.part p).halt ≠ .running → (s.part p).debugRecs = r :: rest → r.core = c → r.slot = n →
      Occurs j s (s.modPart p fun k => { k with debugRecs := rest, replies := k.replies ++ [⟨c, n, code, r.task, none⟩] })) ∧
    ((s.part p).halt = .running → (∀ r ∈ (s.part p).replies, r.core = c → r.slot = n → r.code ∉ sel) →
      (∀ r ∈ (s.part p).debugRecs, r.core = c → r.slot ≠ n) → Occurs j s s) ∧
    (∀ r rest, (s.part p).halt = .running → (s.part p).replies = r :: rest → r.core = c → r.slot = n → r.code ∈ sel →
      (s.replyReady p r.giver = true →
        Occurs j s ((s.modPart p fun k => { k with replies := rest }).reply c n r.task code)) ∧
      (s.replyReady p r.giver = false → Occurs j s s))) ∧
  (∀ (s : State) c n, (s.slot c n).parked = true → s.mirrorOf? c = none →
    (∀ task code, task ≠ (s.slot c n).task → s.reply c n task code = s) ∧
    ((s.slot c n).repl = true → ∀ q, (s.core c).heldMsg? (s.slot c n) = some q →
      (let t := s.reply c n (s.slot c n).task 1;
        (t.slot c n).parked = false ∧ t.mem = s.mem ∧ (t.core c).runq = (s.core c).runq.map fun x =>
          if x.off = q.off then { x with msg := { x.msg with held := false } } else x) ∧
      (let t := s.reply c n (s.slot c n).task 2;
        (t.slot c n).parked = false ∧ t.mem = s.mem ∧ (t.core c).runq = (s.core c).runq.filter fun x => x.off != q.off)) ∧
    (∀ l, (s.slot c n).launch = some l →
      s.reply c n (s.slot c n).task 0 = s.killLaunch l ∧ s.reply c n (s.slot c n).task 3 = s.killLaunch l) ∧
    ((s.slot c n).launch = none → s.reply c n (s.slot c n).task 0 = s.reply c n (s.slot c n).task 2)) ∧
  (∀ (s : State) core c m n, s.wr = [] → s.pairCores? core = some (c, m) →
    ((s.slot c n).pairEnd? = none ∨ (s.slot m n).pairEnd? = none → Occurs (.plumbCheck core n) s s) ∧
    (∀ g i h j, (s.slot c n).pairEnd? = some (.hash g i) → (s.slot m n).pairEnd? = some (.hash h j) →
      (g = h → i = j → Occurs (.plumbCheck core n) s ((s.modSlot c n fun t => { t with wait := .none, checked := true }).modSlot m n
        fun t => { t with wait := .none, checked := true })) ∧
      (g ≠ h ∨ i ≠ j → Occurs (.plumbCheck core n) s (s.pairDiffers c m n))) ∧
    (∀ e, (s.slot c n).pairEnd? = some e → (s.slot m n).pairEnd? = none →
      (s.time - (s.slot c n).hashTime < 4096 → Occurs (.plumbTimeout core n) s s) ∧
      (4096 ≤ s.time - (s.slot c n).hashTime → Occurs (.plumbTimeout core n) s (s.pairDiffers c m n)))) ∧
  (∀ (s : State) c m n x p, (s.slot c n).msg = some x → (s.slot c n).repl = true → s.corePart? c = some p →
    (x.retried = false → c ≠ m → let t := s.pairDiffers c m n
      (t.slot c n).running = false ∧ (t.slot m n).running = false ∧ t.mem = s.mem ∧
        (∃ off, (t.core c).runq = enqueueHead (s.core c).runq { msg := { x with retried := true }, off := off }) ∧
        Tbl.find 0 (t.part p).mismatches c = Tbl.find 0 (s.part p).mismatches c + 1) ∧
    (x.retried = true → s.pairDiffers c m n = (s.trapPark m n Cause.pair 0 0).trapNow c n Cause.pair 0 0 (s.slot c n).pc true)) ∧
  (∀ (s : State) c m n x p, (s.slot c n).msg = some x → (s.slot c n).repl = false → x.retried = false → s.corePart? c = some p →
    s.pairDiffers c m n = (((s.modPart p fun k => { k with mismatches := Tbl.put 0 k.mismatches c (Tbl.find 0 k.mismatches c + 1) }).trapPark
      m n Cause.pair 0 0).trapNow c n Cause.pair 0 0 (s.slot c n).pc true)) ∧
  (∀ (s : State) c unit p, s.corePart? c = some p →
    (s.engineHeld c unit = true ↔ ∃ r ∈ (s.part p).heldRecs, r.core = c ∧ r.engine = unit)) ∧
  (∀ (s : State), s.wr = [] → Occurs .correctedError s { s with corrected := s.corrected + 1 })

/-! ## Events: halts, debugging and context switches (22 R322, R325 to R332) -/

/-- R322, R325, R326, R328 to R332: a halt is pending until every core of the context has stopped; only the hypervisor ends the
halt of a fault storm; an attached debugger may step one slot. A pre-emption request waits for its turn; the outgoing context is
saved once nothing of it is under way, the test slice ends, and the incoming one is restored: fresh the first time, refused where the
partition does not fit it, lost where its save is damaged. -/
def Obligations.HaltsAndSwitches : Prop :=
  (∀ (s : State) c p, s.wr = [] → s.residentIn? c = some p →
    ((s.part p).halt = .running → Occurs (.debugHaltRequest c) s
      (s.modPart p fun k => { k with halt := .pending, haltTime := s.time })) ∧
    ((s.part p).halt ≠ .running → Occurs (.debugHaltRequest c) s (s.setPart p (s.part p))) ∧
    ((s.part p).halt = .pending → Answers (exec (.debugHalt c) s) fun t =>
      (t.part p).halt = .halted ∧ (∀ d ∈ (s.part p).cores, (t.core d).halted = true) ∧ t.mem = s.mem) ∧
    ((s.part p).halt ≠ .pending → Occurs (.debugHalt c) s s) ∧
    Occurs (.debuggerAttach c) s (s.modPart p fun k => { k with debugger := true }) ∧
    ((s.part p).storm = true ∨ (s.part p).halt = .running → Occurs (.debugRelease c) s s) ∧
    (∀ j, (j = .debugRelease c ∧ (s.part p).halt ≠ .running ∧ (s.part p).storm = false) ∨
        (j = .stormRelease p ∧ (s.part p).storm = true) →
      (s.part p).holding = [] → (s.part p).switchq = [] → (s.part p).fatalHeld = none →
      Answers (exec j s) fun t => (t.part p).halt = .running ∧ (t.part p).storm = false ∧ t.mem = s.mem ∧
        (∀ d ∈ (s.part p).cores, (t.core d).halted = false) ∧
        ((∀ r ∈ (s.part p).trapq, r.fatal = false) → (t.part p).onlySup = false) ∧
        ((∃ r ∈ (s.part p).trapq, r.fatal = true) → (t.part p).onlySup = (s.part p).onlySup))) ∧
  (∀ (s : State) p, s.wr = [] → (s.part p).storm = false → Occurs (.stormRelease p) s s) ∧
  (∀ (s : State) c n p, s.wr = [] → s.corePart? c = some p →
    ((s.part p).debugger = true → (s.part p).halt = .halted → (s.slot c n).running = true →
      Occurs (.debuggerStep c n) s { s with agenda := .debug c n :: s.agenda }) ∧
    ((s.part p).debugger = false ∨ (s.part p).halt ≠ .halted ∨ (s.slot c n).running = false → Occurs (.debuggerStep c n) s s)) ∧
  (∀ (s : State) p c, s.wr = [] → (s.part p).en = true → (s.ctx c).alive = true → (s.part p).switchq = [] →
    ((s.part p).switch = .none → (s.part p).halt = .running → s.releasing p = false →
      (¬((s.part p).resident = true ∧ (s.part p).ctx = c) →
        Answers (exec (.preemptionRequest p c) s) fun t =>
          (t.part p).switch = .stopping c ∧ (t.part p).switchq = [] ∧ t.cores = s.cores ∧ t.mem = s.mem) ∧
      ((s.part p).resident = true → (s.part p).ctx = c →
        Answers (exec (.preemptionRequest p c) s) fun t => t.part p = s.part p ∧ t.cores = s.cores ∧ t.mem = s.mem)) ∧
    ((s.part p).switch ≠ .none ∨ (s.part p).halt ≠ .running ∨ s.releasing p = true →
      Occurs (.preemptionRequest p c) s (s.modPart p fun k => { k with switchq := [c] }))) ∧
  (∀ (s : State) p c, s.wr = [] → (s.part p).switch = .stopping c →
    ((s.part p).resident = true → s.drained p = false → Occurs (.contextSave p) s s) ∧
    ((s.part p).resident = true → s.drained p = true → s.lines = [] →
      Answers (exec (.contextSave p) s) fun t =>
        Tbl.get? t.saves (s.part p).ctx = some (s.saveOf p) ∧ (t.part p).resident = false ∧ (t.part p).switch = .testing c ∧
        (t.part p).testFrom = s.time ∧ (t.part p).trapq = [] ∧ t.mem = s.mem ∧ (∀ d, (s.part p).holds (clusterOf d) = true → t.core d = {}) ∧
        ∀ d, (s.part p).holds (clusterOf d) = false → t.core d = s.core d) ∧
    ((s.part p).resident = false → Answers (exec (.contextSave p) s) fun t =>
      (t.part p).switch = .testing c ∧ (t.part p).testFrom = s.time ∧ t.saves = s.saves ∧ t.mem = s.mem ∧ t.cores = s.cores)) ∧
  (∀ (s : State) p c (bad : List Nat), s.wr = [] → (s.part p).switch = .testing c → s.time < (s.part p).testFrom + 54000 →
    Occurs (.testSliceEnd p bad) s s) ∧
  (∀ (s : State) p c (bad : List Nat), s.wr = [] → (s.part p).switch = .testing c → (∀ k, (s.cluster k).failed = false) →
    (s.part p).testFrom + 54000 ≤ s.time →
    (s.part p).px + (s.part p).pw ≤ 15 →
    ((∀ k ∈ (s.part p).clusters, k ∉ bad) → Answers (exec (.testSliceEnd p bad) s) fun t =>
      (t.part p).switch = .restoring c ∧ t.alerts = s.alerts ∧ t.mem = s.mem ∧
      ∀ k ∈ (s.part p).clusters, (t.cluster k).testIndex = (s.cluster k).testIndex + 1 ∧ (t.cluster k).failed = false) ∧
    (∀ k ∈ (s.part p).clusters, k ∈ bad → (s.part p).switchq = [] → Answers (exec (.testSliceEnd p bad) s) fun t =>
      (t.part p).switch = .none ∧ .clusterFailed k ∈ t.alerts ∧ (t.cluster k).failed = true ∧ t.mem = s.mem)) ∧
  (∀ (s : State) p c damage, s.wr = [] → (s.part p).switch = .restoring c → (s.part p).switchq = [] → (s.ctx c).calls = [] →
    ((s.ctx c).alive = false ∨ s.residentIn? c ≠ none → Occurs (.contextRestore p damage) s
      (s.setPart p { s.part p with switch := .none })) ∧
    ((s.ctx c).alive = true → s.residentIn? c = none →
      (Tbl.get? s.saves c = none → Occurs (.contextRestore p damage) s (((s.freshContext p c).waitedCalls p c).resumeSwitch p)) ∧
      (∀ v, Tbl.get? s.saves c = some v →
        (v.pw ≠ (s.part p).pw ∨ v.ph ≠ (s.part p).ph ∨ s.admits p c = false → Occurs (.contextRestore p damage) s
          { s.setPart p { s.part p with switch := .none } with alerts := s.alerts ++ [.restoreRefused p c] }) ∧
        (v.pw = (s.part p).pw → v.ph = (s.part p).ph → s.admits p c = true →
          (damage ≠ 0 ∨ v.key ≠ (s.ctx c).key ∨ v.seq ≠ (s.ctx c).saveSeq ∨ v.addr ≠ (s.ctx c).saveArea → Occurs (.contextRestore p damage) s
            (((s.lostContext p c (if damage = 2 then 2 else 1)).waitedCalls p c).resumeSwitch p)) ∧
          (damage = 0 → v.key = (s.ctx c).key → v.seq = (s.ctx c).saveSeq → v.addr = (s.ctx c).saveArea → Occurs (.contextRestore p damage) s
            ((s.loadContext p c v).modCtx c fun x => { x with calls := [] })))))) ∧
  (∀ (s : State) p c d, ((s.lostContext p c d).ctx c).lost = true ∧
    (∀ l k, Tbl.get? ((s.lostContext p c d).ctx c).launches l = some k → k.stage ≠ .done → k.killed = true ∧ k.final = 3) ∧
    ∃ r, ((s.lostContext p c d).part p).trapq = [r] ∧ r.cause = Cause.lost ∧ r.type = 2 ∧ r.fatal = true ∧ r.w3 = BitVec.ofNat 64 d) ∧
  (∀ (s : State) p c (v : Saved), v.part.px = (s.part p).px → v.part.py = (s.part p).py →
    let t := s.loadContext p c v
    (t.part p).resident = true ∧ (t.part p).ctx = c ∧ (t.part p).switch = .none ∧ t.mem = s.mem ∧
      ∀ d k, v.cores = [(d, k)] → (t.core d).slots = k.slots ∧ (t.core d).spad = k.spad ∧ (t.core d).runq = k.runq)

/-! ## Events: bring-up, recovery, attestation and frequency (25 R347 to R355) -/

/-- R347, R350, R351, R353: a device that powers on judges the set in its flash: a good one releases the first stage, a bad one leads
to recovery, and everything else is as after reset. A stage's ready report releases the next, and at the first the minimum versions
rise where every core runs a version above its own. A watchdog's expiry leads to recovery; the first answer with a good manifest is taken,
its set written into the flash where its images pass, and the device starts again; power-off keeps the flash and the fuses. That a
repeated request may be answered again, and that the manifest's end entry counts among its fields, is log entry 20. -/
def Obligations.BringUp : Prop :=
  (∀ (s : State), s.plat.stage = .off ∨ s.plat.stage = .verifying → Answers (exec .powerOn s) fun t =>
    { t with plat := State.reset.plat, free := State.reset.free, agenda := [], ticks := [] } = State.reset ∧
    t.plat.flash = s.plat.flash ∧ t.plat.fuses = s.plat.fuses ∧ t.plat.quoteCounter ≥ s.plat.quoteCounter ∧
    (setGood s.plat.fuses s.plat.flash = true → t.plat.stage = .stage1 ∧
      ((∀ e ∈ setManifest s.plat.flash, ∀ f ∈ setManifest s.plat.flash, e.id = f.id → e = f) →
        (∀ i, Tbl.find 0 t.plat.versions i =
          match (setManifest s.plat.flash).find? fun e => e.id.toNat == i with | some e => e.version.toNat | none => 0) ∧
        ∀ e ∈ setManifest s.plat.flash, Tbl.get? t.plat.loaded e.id.toNat =
          some ((s.plat.flash.bytes.drop e.offset.toNat).take e.length.toNat))) ∧
    (setGood s.plat.fuses s.plat.flash = false → t.plat.stage = .recovery ∧ t.plat.versions = [] ∧ t.plat.loaded = [] ∧
      t.plat.recoveryPort = some 0 ∧ t.plat.request = none ∧ t.plat.recoveryRequests = 0) ∧
    (∀ i, t.plat.cur i = 2700 ∧ t.plat.tgt i = 2700)) ∧
  (∀ (s : State), s.plat.stage ≠ .off → s.plat.stage ≠ .verifying → Answers (exec .powerOn s) fun t => t = s) ∧
  (∀ (s : State) n, s.wr = [] → Answers (exec (.readyReport n) s) fun t =>
    { t with plat := s.plat } = s ∧ t.plat.stage = (match s.plat.stage, n with
      | .stage1, 1 => .stage2
      | .stage2, 2 => .stage3
      | .stage3, 3 => .running
      | x, _ => x) ∧
    ∀ i ∈ imageIds, Tbl.find 0 t.plat.fuses i =
      if s.plat.stage = .stage1 ∧ n = 1 ∧ imageIds.all (fun j => decide (Tbl.find 0 s.plat.fuses j < Tbl.find 0 s.plat.versions j)) = true
      then Tbl.find 0 s.plat.versions i else Tbl.find 0 s.plat.fuses i) ∧
  (∀ (s : State), s.wr = [] → Answers (exec .watchdogExpiry s) fun t => { t with plat := s.plat } = s ∧
    (s.plat.stage.up = false ∨ s.time < s.plat.watchAt + 270000000 → t.plat = s.plat) ∧
    (s.plat.stage.up = true → s.plat.watchAt + 270000000 ≤ s.time → t.plat = { s.plat with
      stage := .recovery, versions := [], loaded := [], recoveryPort := some 0, portAt := s.time, request := none, answered := false })) ∧
  (∀ (s : State), s.wr = [] → Answers (exec .recoveryPortTimeout s) fun t =>
    t = { s with plat :=
      if s.plat.stage = .recovery ∧ s.plat.recoveryPort = some 0 ∧ (s.fabric.link 24).up = false ∧ s.plat.portAt + 2700000000 ≤ s.time
      then { s.plat with recoveryPort := some 1, portAt := s.time } else s.plat }) ∧
  (∀ (s : State), s.wr = [] → Answers (exec .recoveryRetry s) fun t => { t with plat := s.plat } = s ∧
    let due := s.plat.stage = .recovery ∧ (∃ p, s.plat.recoveryPort = some p ∧ (s.fabric.link (24 + p)).up = true) ∧
      (s.plat.request = none ∨ s.plat.askedAt + 10 * 2700000000 ≤ s.time)
    (due → t.plat.stage = .recovery ∧ t.plat.recoveryRequests = s.plat.recoveryRequests + 1 ∧ t.plat.askedAt = s.time ∧
      ∃ body sign, t.plat.request = some (Config.identityDigest, body, sign)) ∧
    (¬due → t.plat = s.plat)) ∧
  (∀ (s : State) p, s.wr = [] → s.plat.stage = .recovery → s.plat.recoveryPort = some p → p < 2 → s.plat.request = none →
    (s.fabric.link (24 + p)).up = false → s.fabric.egress = [] → Answers (exec (.linkTraining (24 + p)) s) fun t =>
      (t.fabric.link (24 + p)).up = true ∧ t.plat.stage = .recovery ∧ t.plat.recoveryRequests = s.plat.recoveryRequests + 1 ∧
      t.plat.askedAt = s.time ∧ ∃ body sign, t.plat.request = some (Config.identityDigest, body, sign)) ∧
  (∀ (s : State) port p, s.wr = [] → s.plat.stage = .recovery → s.plat.recoveryPort = some p → port ≠ 24 + p →
    Occurs (.linkTraining port) s s) ∧
  (∀ (s : State) set,
    let asked := s.plat.request ≠ none ∧ s.plat.answered = false ∧
      ∃ p, s.plat.recoveryPort = some p ∧ (s.fabric.link (24 + p)).up = true
    (s.plat.stage ≠ .recovery ∨ ¬asked ∨ manifestGood s.plat.fuses set = false → exec (.recoveryAnswer set) s = .next s) ∧
    (s.plat.stage = .recovery → asked → manifestGood s.plat.fuses set = true → imagesGood set = false →
      exec (.recoveryAnswer set) s = .next { s with plat := { s.plat with answered := true } }) ∧
    (s.plat.stage = .recovery → asked → setGood s.plat.fuses set = true → Answers (exec (.recoveryAnswer set) s) fun t =>
      { t with plat := State.reset.plat, free := State.reset.free, agenda := [], ticks := [] } = State.reset ∧
      t.plat.flash = set ∧ t.plat.stage = .stage1 ∧ t.plat.fuses = s.plat.fuses)) ∧
  (∀ (s : State), Answers (exec .powerOff s) fun t =>
    { t with plat := State.reset.plat, free := State.reset.free, agenda := [], ticks := [] } = State.reset ∧
    t.plat.stage = .off ∧ t.plat.flash = s.plat.flash ∧ t.plat.fuses = s.plat.fuses ∧ t.plat.quoteCounter = s.plat.quoteCounter ∧
    t.plat.quoteNext = s.plat.quoteCounter)

/-- R352 to R355: a quote has the body that the spec lays out, signed with an index that no other quote has; a block of 256
indices is reserved before the first of them is used, and none is given once 2^20 are. An island's target is a multiple of
100 MHz from 900 to 2700; a step goes straight to it, or up by at most 300 MHz while matrix work runs, and not again for 20
microseconds; throttling lowers the current frequency below the target. A change stops the cores of its island for at most 10
microseconds, in which no cycle of theirs counts. -/
def Obligations.QuotesAndFrequencies : Prop :=
  (∀ (s : State) nonce, s.wr = [] → Answers (exec (.attestationRequest nonce) s) fun t => { t with plat := s.plat } = s ∧
    let k := s.plat
    (k.stage = .off ∨ k.stage = .verifying → t.plat = k) ∧
    (k.stage ≠ .off → k.stage ≠ .verifying →
      (2 ^ 20 ≤ k.quoteCounter → t.plat.quote = none ∧ t.plat.exhausted = true ∧ t.plat.quoteNext = k.quoteNext ∧
        t.plat.quoteCounter = k.quoteCounter) ∧
      (k.quoteCounter < 2 ^ 20 →
        let i := if k.quoteNext < k.quoteEnd then k.quoteNext else k.quoteCounter
        let body := quoteBody k s.fabric.devId i nonce
        t.plat.quote = some (body, Config.xmssSign i body) ∧ t.plat.quoteNext = i + 1 ∧
          t.plat.quoteCounter = (if k.quoteNext < k.quoteEnd then k.quoteCounter else k.quoteCounter + 256) ∧
          t.plat.quoteEnd = (if k.quoteNext < k.quoteEnd then k.quoteEnd else k.quoteCounter + 256)))) ∧
  (∀ (k : Platform) dev i nonce, (quoteBody k dev i nonce).length = 76 ∧
    leVal ((quoteBody k dev i nonce).take 32) = nonce.toNat ∧
    leVal (((quoteBody k dev i nonce).drop 32).take 32) = k.manifestDigest.toNat ∧
    leVal ((quoteBody k dev i nonce).drop 72) = i % 2 ^ 32) ∧
  (∀ (s : State) i f, s.wr = [] → Answers (exec (.islandFrequencyWrite i f) s) fun t =>
    { t with plat := s.plat } = s ∧ (∀ j, t.plat.cur j = s.plat.cur j) ∧ ∀ j, t.plat.tgt j =
      if s.managed = true ∧ j = i ∧ i < 64 ∧ 900 ≤ f ∧ f ≤ 2700 ∧ f % 100 = 0 then f else s.plat.tgt j) ∧
  (∀ (s : State) i, s.wr = [] → Answers (exec (.frequencyStep i) s) fun t =>
    { t with plat := s.plat } = s ∧ (∀ j, t.plat.tgt j = s.plat.tgt j) ∧ (∀ j, j ≠ i → t.plat.cur j = s.plat.cur j) ∧
    (i < 64 →
      (s.islandBusy i = false ∨ s.plat.tgt i ≤ s.plat.cur i → t.plat.cur i = s.plat.tgt i) ∧
      (s.islandBusy i = true → s.plat.cur i < s.plat.tgt i →
        (∀ x, Tbl.get? s.plat.islandStep i = some x → s.time < x + 54000 → t.plat = s.plat) ∧
        ((∀ x, Tbl.get? s.plat.islandStep i = some x → x + 54000 ≤ s.time) →
          t.plat.cur i = Nat.min (s.plat.tgt i) (s.plat.cur i + 300) ∧ Tbl.get? t.plat.islandStep i = some s.time)))) ∧
  (∀ (k : Platform) i f time, (k.cur i = f → k.change i f time = k) ∧
    (k.cur i ≠ f → ∃ x, time ≤ x ∧ x ≤ time + 27000 ∧ (k.change i f time).cur i = f ∧
      (k.change i f time).islandStop = Tbl.set k.islandStop i x)) ∧
  (∀ (s : State) c, s.time < Tbl.find 0 s.plat.islandStop (islandOf (clusterOf c)) → s.turnAt? c = none) ∧
  (∀ (k : Platform) i t0 t1, Tbl.find 0 k.islandStop i ≤ t0 → t0 ≤ t1 →
    k.cycles i t0 t1 = t1 * k.cur i / 2700 - t0 * k.cur i / 2700) ∧
  (∀ (k : Platform) i t0 t1, t0 ≤ t1 → t1 ≤ Tbl.find 0 k.islandStop i → k.cycles i t0 t1 = 0) ∧
  (∀ (s : State) i f, s.wr = [] → Answers (exec (.powerLimitThrottle i f) s) fun t =>
    { t with plat := s.plat } = s ∧ (∀ j, t.plat.tgt j = s.plat.tgt j) ∧ ∀ j, t.plat.cur j =
      if s.managed = true ∧ j = i ∧ i < 64 ∧ 900 ≤ f ∧ f ≤ 2700 ∧ f % 100 = 0 ∧ f < s.plat.tgt i ∧ f < s.plat.cur i then f else s.plat.cur j)

/-! ## Vector instructions (10) -/

/-- R177, R178, R181: VFADD to VFNMA, VRCP, VRSQ and VEXP2 compute the exact value of each lane and round it once in the slot's
mode, a stochastic mode with one LFSR word for each selected lane in order; unselected lanes are kept, or 0 under z. -/
def Obligations.VectorFloat : Prop :=
  (∀ j d a b mk zr f s, floatForm j = some (d, a, b, mk, zr, f) → Ready j s →
    let m := readM s mk.toNat
    let n := selRank m 16
    let ws := wordsDrawn s s.roundMode n
    ∃ x, Does j s (writeV (drew s s.roundMode n) d x) .seq ∧
      LanesAre s d mk zr 32 (fun i => (enc32 s.roundMode (ws.getD (selRank m i) 0)
        (f s.roundMode (decodeVal f32 (laneOf (readV s a) i 32)) (decodeVal f32 (laneOf (readV s b) i 32))
          (decodeVal f32 (laneOf (readV s d) i 32)))).toNat) x) ∧
  (∀ j d a b mk zr f s, codeForm j = some (d, a, b, mk, zr, f) → Ready j s →
    ∃ x, Does j s (writeV s d x) .seq ∧ LanesAre s d mk zr 32 (fun i =>
      (f (BitVec.ofNat 32 (laneOf (readV s a) i 32)) (BitVec.ofNat 32 (laneOf (readV s b) i 32))).toNat) x)

/-- R177, R182, R183: VADD to VSHA on lanes of 4, 8, 16 or 32 bits, VAND, VOR and VXOR: selected lanes take the result, unselected
lanes are kept, or 0 under z. -/
def Obligations.VectorInteger : Prop :=
  ∀ j d a b mk zr w f s, laneForm j = some (d, a, b, mk, zr, w, f) → Ready j s →
    ∃ x, Does j s (writeV s d x) .seq ∧
      LanesAre s d mk zr w (fun i => f w (laneOf (readV s a) i w) (laneOf (readV s b) i w)) x

/-- R179, R183: VFCMP and VCMP write one bit for each lane into a mask register, VCMP of 4-bit lanes the conjunction of two; m0
discards; VSEL takes each lane of va or of vb.
R191: MAND, MOR, MXOR, MNOT on mask registers, MPOP and MSET between mask and general registers; m0 reads ones and
discards. -/
def Obligations.VectorCompare : Prop :=
  (∀ d a b mk zr cond s, Ready (.vfcmp d a b mk zr cond) s → ∃ x, Does (.vfcmp d a b mk zr cond) s (writeM s d.toNat x) .seq ∧
    BitsAre s d mk zr 16 (fun i =>
      let p := decodeVal f32 (laneOf (readV s a) i 32)
      let q := decodeVal f32 (laneOf (readV s b) i 32)
      condOf cond.toNat (eqVal p q) (ltVal p q) (ltVal q p)) x) ∧
  (∀ d a b mk zr ln cond s, Ready (.vcmp d a b mk zr ln cond) s →
    let w := laneWidth ln
    let hold (i : Nat) : Bool :=
      let p := signedLane w (laneOf (readV s a) i w)
      let q := signedLane w (laneOf (readV s b) i w)
      condOf cond.toNat (decide (p = q)) (decide (p < q)) (decide (q < p))
    ∃ x, Does (.vcmp d a b mk zr ln cond) s (writeM s d.toNat x) .seq ∧
      BitsAre s d mk zr (Nat.min 64 (512 / w)) (fun i => hold i && (decide (w ≠ 4) || hold (i + 64))) x) ∧
  (∀ d a b mk ln s, Ready (.vsel d a b mk ln) s → ∃ x, Does (.vsel d a b mk ln) s (writeV s d x) .seq ∧
    ∀ i < 512 / laneWidth ln, laneOf x i (laneWidth ln) =
      if laneSel (readM s mk.toNat) i then laneOf (readV s a) i (laneWidth ln) else laneOf (readV s b) i (laneWidth ln)) ∧
  (∀ (s : State) x, writeM s 0 x = s ∧ readM s 0 = 0xFFFFFFFFFFFFFFFF#64) ∧
  (∀ d a b s, (Ready (.mand d a b) s → Does (.mand d a b) s (writeM s d.toNat (readM s a.toNat &&& readM s b.toNat)) .seq) ∧
    (Ready (.mor d a b) s → Does (.mor d a b) s (writeM s d.toNat (readM s a.toNat ||| readM s b.toNat)) .seq) ∧
    (Ready (.mxor d a b) s → Does (.mxor d a b) s (writeM s d.toNat (readM s a.toNat ^^^ readM s b.toNat)) .seq)) ∧
  (∀ d a s, Ready (.mnot d a) s → Does (.mnot d a) s (writeM s d.toNat (~~~readM s a.toNat)) .seq) ∧
  (∀ d a s, Ready (.mpop d a) s → settable s d = true →
    Does (.mpop d a) s (putG s d (count64 fun i => (readM s a.toNat).getLsbD i)) .seq) ∧
  (∀ d a s s1 x, Ready (.mset d a) s → readG s a = .ok (s1, x) → Does (.mset d a) s (writeM s1 d.toNat x) .seq)

/-- R185: VPERM, VSLD and VBCAST by lane under the mask, VINS into one lane, VEXT from one lane.
R184: VRED combines the lanes, an unselected one as the identity, in a tree of neighbours, VSCAN from lane 0 up; a sum of
integer lanes is the sum modulo 2^w; floating sums round at every step, in tree or lane order. The canonical NaN in lane 0 of VSCAN, where
R184 writes s := x[0], and the LFSR words of a stochastic sum, one for each of its steps, are log entry 14 (DEDUCED). -/
def Obligations.VectorPermute : Prop :=
  (∀ d a b mk zr ln s, Ready (.vperm d a b mk zr ln) s → ∃ x, Does (.vperm d a b mk zr ln) s (writeV s d x) .seq ∧
    LanesAre s d mk zr (laneWidth ln) (fun i =>
      laneOf (readV s a) (laneOf (readV s b) i (laneWidth ln) % (512 / laneWidth ln)) (laneWidth ln)) x) ∧
  (∀ d a b mk zr ln s s1 g, Ready (.vsld d a b mk zr ln) s → readG s b = .ok (s1, g) →
    ∃ x, Does (.vsld d a b mk zr ln) s (writeV s1 d x) .seq ∧
      LanesAre s1 d mk zr (laneWidth ln) (fun i =>
        if 0 ≤ (i : Int) + g.toInt ∧ (i : Int) + g.toInt < (512 / laneWidth ln : Nat) then
          laneOf (readV s1 a) ((i : Int) + g.toInt).toNat (laneWidth ln) else 0) x) ∧
  (∀ d a mk zr ln s s1 g, Ready (.vbcast d a mk zr ln) s → readG s a = .ok (s1, g) →
    ∃ x, Does (.vbcast d a mk zr ln) s (writeV s1 d x) .seq ∧
      LanesAre s1 d mk zr (laneWidth ln) (fun _ => g.toNat % 2 ^ laneWidth ln) x) ∧
  (∀ d a b ln s s1 s2 x y, Ready (.vins d a b ln) s → readG s a = .ok (s1, x) → readG s1 b = .ok (s2, y) →
    ∃ v, Does (.vins d a b ln) s (writeV s2 d v) .seq ∧ ∀ i < 512 / laneWidth ln, laneOf v i (laneWidth ln) =
      if i = y.toNat % (512 / laneWidth ln) then x.toNat % 2 ^ laneWidth ln else laneOf (readV s2 d) i (laneWidth ln)) ∧
  (∀ d a b ln s s1 y, Ready (.vext d a b ln) s → readG s b = .ok (s1, y) → settable s1 d = true →
    Does (.vext d a b ln) s (putG s1 d (BitVec.ofNat 64
      (laneOf (readV s1 a) (y.toNat % (512 / laneWidth ln)) (laneWidth ln)))) .seq) ∧
  (∀ d a mk ln op s, Ready (.vred d a mk ln op) s →
    let w := laneWidth ln
    let l := redLanes s a mk w op.toNat
    let n := if op = 0 then l.length - 1 else 0
    let ws := if op = 0 then wordsDrawn s s.roundMode n else []
    Does (.vred d a mk ln op) s (writeV (if op = 0 then drew s s.roundMode n else s) d
      (BitVec.ofNat 512 (redTree (redStep op.toNat w s.roundMode) (Nat.log2 l.length) l ws))) .seq) ∧
  (∀ d a mk ln op s, Ready (.vscan d a mk ln op) s →
    let w := laneWidth ln
    let l := redLanes s a mk w op.toNat
    let n := if op = 0 then l.length - 1 else 0
    let ws := if op = 0 then wordsDrawn s s.roundMode n else []
    Does (.vscan d a mk ln op) s (writeV (if op = 0 then drew s s.roundMode n else s) d
      (BitVec.ofNat 512 (joinLanes w (let x := if op.toNat ≤ 2 ∧ (decodeVal f32 (l.headD 0)).isNan = true then 0x7FC00000 else l.headD 0
        x :: scanList (redStep op.toNat w s.roundMode) x l.tail ws)))) .seq) ∧
  (∀ s a mk w op i, i < 512 / w → (redLanes s a mk w op)[i]? =
    some (if laneSel (readM s mk.toNat) i then laneOf (readV s a) i w else redUnit op w)) ∧
  (∀ w k (l : List Nat), l.length = 2 ^ k → redTree (redStep 3 w 0) k l [] % 2 ^ w = l.sum % 2 ^ w)

/-- R186, R187: VCVT converts each element, with one rounding and saturation where it asks for it; VBSC gives the scale code of
the selected elements and the scale's value; a format code that is not admitted traps FORMAT. That the scale of no selected element is that
of a block of zeros, and that a code of a format that is not admitted traps so, is log entry 14. -/
def Obligations.VectorConvert : Prop :=
  (∀ j d a dst src rnd sat, (j = .vcvt d a dst src rnd ∧ sat = false) ∨ (j = .vcvtSat d a dst src rnd ∧ sat = true) →
    ∀ s ft fs, Ready j s → fmtOf? dst.toNat = some ft → fmtOf? src.toNat = some fs →
    let n := 512 / Nat.max ft.bits fs.bits
    let mode := if rnd = 0 then s.roundMode else if rnd = 1 then 0 else if rnd = 2 then 1 else 4
    Does j s (writeV (drew s mode n) d (BitVec.ofNat 512 (joinLanes ft.bits ((List.range n).map fun i =>
      roundTo ft mode sat ((wordsDrawn s mode n).getD i 0) (decodeVal fs (laneOf (readV s a) i fs.bits)))))) .seq) ∧
  (∀ j d a dst src rnd, j = .vcvt d a dst src rnd ∨ j = .vcvtSat d a dst src rnd → ∀ s, Ready j s →
    fmtOf? dst.toNat = none ∨ fmtOf? src.toNat = none → Halts j s (.trap Cause.format none)) ∧
  (∀ d a b mk knd s s1 g, Ready (.vbsc d a b mk knd) s → readG s b = .ok (s1, g) → bscFmt? (field g 5 0) = none →
    Halts (.vbsc d a b mk knd) s (.trap Cause.format none)) ∧
  (∀ d a b mk knd s s1 g f, Ready (.vbsc d a b mk knd) s → readG s b = .ok (s1, g) → bscFmt? (field g 5 0) = some f →
    let n := if knd.toNat % 2 = 1 then 32 else 16
    let sf := if knd.toNat < 2 then 0 else 1
    let vals := ((List.range n).filter fun i => (readM s1 mk.toNat).getLsbD i).map fun i =>
      if i < 16 then f32Lane (readV s1 a) i else f32Lane (readV s1 (a + 1)) (i - 16)
    let code := scaleFor vals f sf
    Does (.vbsc d a b mk knd) s (writeV s1 d (BitVec.ofNat 512
      (code + 2 ^ 32 * (if code = 0xFF then nan32 else enc32 0 0 (scaleVal sf code)).toNat))) .seq)

/-- The bytes of a register, in order, each whole. -/
def vstBytes (s : State) (d : Reg) : List NibByte := fullBytes (leBytes 64 (readV s d).toNat)

/-- R188, R189, R190: VLD and VLDB read 64 or 16 bytes, repeated over the register, VST buffers a register, each aligned 16-byte sector
by itself; VLDX and VSTX reach the active chunks of the register, in order, at G(a) plus the words of vb. An address that is not
translated for the access stops the instruction. That the reads of one instruction are made in one step is log entry 6. -/
def Obligations.VectorMemory : Prop :=
  (∀ j d a la off n, (j = .vld d a la off ∧ n = 64) ∨ (j = .vldb d a la off ∧ n = 16) → ∀ s s1 x, Ready j s → readG s a = .ok (s1, x) →
    ((address x (off.toInt * 64)).toNat % n ≠ 0 → Halts j s (.trap Cause.align (some (address x (off.toInt * 64))))) ∧
    ((address x (off.toInt * 64)).toNat % n = 0 → ∀ e, s1.xlateLoad (address x (off.toInt * 64)) n .read = .error e → Halts j s e) ∧
    ((address x (off.toInt * 64)).toNat % n = 0 → ∀ s2 loc, s1.xlateLoad (address x (off.toInt * 64)) n .read = .ok (s2, loc) →
      mayRead s2 loc n = true → ∀ s3 got, readLoc (asks s2) (askNum s2) loc n false = .ok (s3, got) →
      Does j s (addPending s3 (readResult s2 { vd := [d.toNat], left := la.toNat } (address x (off.toInt * 64)) loc n
        (.vec ((List.range 64).map fun i => ⟨i % n, i, true, true⟩)) got)) .seq)) ∧
  (∀ d a off s s1 x, Ready (.vst d a off) s → readG s a = .ok (s1, x) →
    ((address x (off.toInt * 64)).toNat % 64 ≠ 0 → Halts (.vst d a off) s (.trap Cause.align (some (address x (off.toInt * 64))))) ∧
    ((address x (off.toInt * 64)).toNat % 64 = 0 → ∀ e, s1.xlate (address x (off.toInt * 64)) 64 .write = .error e →
      Halts (.vst d a off) s e) ∧
    ((address x (off.toInt * 64)).toNat % 64 = 0 → ∀ s2 loc u, s1.xlate (address x (off.toInt * 64)) 64 .write = .ok (s2, loc) →
      acquirePending s2.cur = false → bufferSectors s2 (address x (off.toInt * 64)) loc (vstBytes s2 d) = .ok u →
      Does (.vst d a off) s u .seq)) ∧
  (∀ (s : State) d loc, locKey loc % 64 = 0 → bySector loc (vstBytes s d) =
    (List.range 4).map fun k => ((vstBytes s d).drop (16 * k)).take 16) ∧
  (∀ (s : State) d i, i < 64 → (vstBytes s d)[i]? = some ⟨i, BitVec.ofNat 8 ((readV s d).toNat / 256 ^ i), true, true⟩) ∧
  (∀ d a b la mk ln s s1 s2 s3 x l, Ready (.vldx d a b la mk ln) s → readG s a = .ok (s1, x) →
    xlateChunks .read s1 (chunksOf s1 x b (readM s1 mk.toNat) (laneWidth ln)) = .ok (s2, l) →
    loadInto s2 { vd := [d.toNat], left := la.toNat, vval := readV s2 d } (l.map fun e => (e.1, e.2.1, 4, .vec e.2.2)) false = .ok s3 →
    Does (.vldx d a b la mk ln) s s3 .seq) ∧
  (∀ d a b mk ln s s1 s2 s3 x l, Ready (.vstx d a b mk ln) s → readG s a = .ok (s1, x) →
    xlateChunks .write s1 (chunksOf s1 x b (readM s1 mk.toNat) (laneWidth ln)) = .ok (s2, l) →
    bufferChunks (vecBytes (readV s2 d)) s2 l = .ok s3 → Does (.vstx d a b mk ln) s s3 .seq) ∧
  (∀ d a b la mk ln s s1 x e, Ready (.vldx d a b la mk ln) s → readG s a = .ok (s1, x) →
    xlateChunks .read s1 (chunksOf s1 x b (readM s1 mk.toNat) (laneWidth ln)) = .error e → Halts (.vldx d a b la mk ln) s e) ∧
  (∀ d a b mk ln s s1 x e, Ready (.vstx d a b mk ln) s → readG s a = .ok (s1, x) →
    xlateChunks .write s1 (chunksOf s1 x b (readM s1 mk.toNat) (laneWidth ln)) = .error e → Halts (.vstx d a b mk ln) s e) ∧
  (∀ l : List (W64 × Loc × List NibByte), (∀ e ∈ l, ∀ n o, e.2.1 ≠ .stream n o) → joinChunks l = l) ∧
  (∀ (s : State) base b m w ea bs, (ea, bs) ∈ chunksOf s base b m w →
    ∃ j < 16, ea = address base (signedLane 32 (laneOf (readV s b) j 32)) ∧ bs ≠ [] ∧ bs = chunkBytes m w j)


/-! ## The whole machine: decoding, steps, reset and what every step keeps -/

/-- 05 R76, R83, R85: words written out from the encoding tables decode to the instructions that they stand for; a word without a
row, and one with a reserved field that is not zero, do not decode. -/
def Obligations.DecodedWords : Prop :=
  decodeTableWord 32 0x0003E401 = some (.add 4 31 0) ∧ decodeTableWord 32 0x08148301 = some (.sub 3 4 5) ∧
  decodeTableWord 32 0x00150907 = some (.addi 9 8 5) ∧ decodeTableWord 32 0xFFFFE717 = some (.li 7 (BitVec.ofInt 19 (-1))) ∧
  decodeTableWord 32 0xFFFFF82D = some (.jmp (BitVec.ofInt 24 (-8))) ∧
  decodeTableWord 16 0x3162 = some (.cAdd 11 12) ∧ decodeTableWord 16 0x0018 = some .cEnd ∧ decodeTableWord 16 0x001E = some .cNop ∧
  decodeTableWord 32 0x00000035 = some .endOp ∧ decodeTableWord 32 0x18000035 = some .folw ∧
  decodeTableWord 32 0x100000F9 = some .dbgh ∧ decodeTableWord 32 0x001400F5 = some (.trap 5) ∧
  decodeTableWord 32 0x0001206D = some (.mxq 9) ∧ decodeTableWord 32 0x0081206D = none ∧ decodeTableWord 32 0xFFFFFFFF = none

/-- The outcome of an instruction, and the core's turn that goes on. -/
def thenTurn (c n : Nat) (x : Host.Outcome State Fault Refusal) : Host.Outcome State Fault Refusal :=
  match x with
  | .next t => .next (t.afterIssue c n)
  | x => x

/-- The state in which a slot's instruction is the one that step runs: the agenda says so, or nothing else is due. -/
def Issues (s : State) (c n : Nat) (u : State) : Prop :=
  s.ticks = [] ∧ s.turnAt? c = some n ∧ n ≠ 0 ∧
    ((∃ rest, s.agenda = .issue c n :: rest ∧ u = State.select { s with agenda := rest } c n) ∨
      (s.agenda = [] ∧ s.dueRound? = none ∧ (32 ≤ s.evs ∨ s.own? = none) ∧ s.turn? = some (c, n) ∧ u = s.select c n))

/-- R76, R83, R99, log entry 11: a step whose turn is a slot's runs the instruction that the bytes at its program counter decode to,
two or four of them, from the core's IMEM or, in a supervisor slot, from the partition's; where they decode to none it traps BUDGET, ECC or
ILLEGAL with those bits. A core issues once in a cycle of its island, the ready slot that follows the last issuer, slot 0 included; a
halted core's slots do not. An event that is due runs as that event; with nothing on the agenda, rounds at their end go first, then at most 32 of
the device's own events in a count of TIME, then every core that can issue; then the count ends. -/
def Obligations.StepRunsDecoded : Prop :=
  (∀ s c n u, Issues s c n u →
    (∀ e rest, u.cur.stream = e :: rest → step s = thenTurn c n (exec e.1 u)) ∧
    (u.cur.stream = [] →
      (∀ w j, u.fetch c n = (w, .ok j) → step s = thenTurn c n (exec j w)) ∧
      (∀ w a, u.fetch c n = (w, .error a) → step s = thenTurn c n (event (fun v =>
        if v.cur.budg = 0 then v.takeTrap c n Cause.budget 0 0
        else v.takeTrap c n (if v.fetchBad c n then Cause.ecc else Cause.illegal) 0 a) w)))) ∧
  (∀ (u : State) c n,
    let k := u.core c
    let t := u.slot c n
    let m := match t.record with | none => k.imem | some _ => (u.part ((u.corePart? c).getD 0)).supImem
    let top := match t.record with | none => 32768 | some _ => 16384
    let byte (i : Nat) : Byte := Tbl.find 0 m (2 * t.pc.off + i)
    let bs := if t.pc.off + 1 = top then [byte 0, byte 1] else [byte 0, byte 1, byte 2, byte 3]
    t.pc.carried = false → (t.record ≠ none → (u.corePart? c).isSome = true) →
    (t.pc.off < 160 ∨ top ≤ t.pc.off → u.fetch c n = (u, .error (w64 (pcWord t.pc)))) ∧
    (160 ≤ t.pc.off → t.pc.off < top → t.upset = [] → k.stale = [] → (t.record = none → k.badImem = []) →
      (t.record ≠ none → (u.part ((u.corePart? c).getD 0)).badSup = []) → u.fetch c n = (u,
      match decode bs with
      | .ok (j, _) => .ok j
      | .error (.tooShort, _) => .error (w64 (pcWord t.pc))
      | .error (_, bits) => .error (w64 bits)))) ∧
  (∀ (s : State) c n rest, s.ticks = [] → s.agenda = .issue c n :: rest →
    (s.turnAt? c ≠ some n → step s = .next { s with agenda := rest }) ∧
    (n = 0 → s.turnAt? c = some 0 → step s = event (fun s => s.serveTurn c) { s with agenda := rest })) ∧
  (∀ (s : State) c n rest, s.ticks = [] → s.agenda = .debug c n :: rest →
    step s = if s.stepped c n then (State.select { s with agenda := rest } c n).issueNow else .next { s with agenda := rest }) ∧
  (∀ (s : State) j rest, s.ticks = [] → s.agenda = .event j :: rest →
    step s = if isEvent j then exec j { s with agenda := rest } else .next { s with agenda := rest }) ∧
  (∀ (s : State), s.ticks = [] → s.agenda = [] →
    (∀ i, s.dueRound? = some i → step s = exec (.mortarRound i) s) ∧
    (s.dueRound? = none → s.evs < 32 → ∀ j, s.own? = some j → step s = j { s with evs := s.evs + 1 }) ∧
    (s.dueRound? = none → (32 ≤ s.evs ∨ s.own? = none) →
      (∀ c, s.turn? = some (c, 0) → step s = event (fun s => s.serveTurn c) s) ∧
      (s.turn? = none → step s = .next (State.advance (State.sendAcks { s with evs := 0 }) 1)))) ∧
  (∀ (s : State) n, s.ticks = [n] → ∃ m, m ≤ n ∧
    (∀ i ∈ s.insts, s.time + m ≤ Nat.max s.time ((s.detector i).began + roundLength i)) ∧
    (m < n → ∃ i ∈ s.insts, s.time + m = Nat.max s.time ((s.detector i).began + roundLength i)) ∧
    step s = step (State.advance (State.sendAcks { s with ticks := [] }) m)) ∧
  (∀ (s : State) c n, s.turnAt? c = some n →
    (s.core c).halted = false ∧ s.islandStopped c = false ∧ (s.core c).next ≤ (s.core c).clock ∧ (s.core c).slotReady n = true ∧ n < 8 ∧
    ∀ m, m < 8 → (s.core c).slotReady m = true → (n + 7 - (s.core c).last % 8) % 8 ≤ (m + 7 - (s.core c).last % 8) % 8) ∧
  (∀ (s : State) c n, n < 8 →
    ((s.core c).issued n).mayIssue = false ∧ ((s.core c).notReady n).slotReady n = false)

/-- R105, R297, R302, R345, R347, R354: what reset leaves: every control register 0 but the LFSR, which is 1; nothing running,
no partition enabled, no context; the fabric's registers at their reset values; the keystone core about to judge the flash.
The invariant holds after reset. -/
def Obligations.ResetState : Prop :=
  (∀ c n num, num ∈ [0x000, 0x001, 0x002, 0x003, 0x004, 0x009, 0x00A, 0x011, 0x012, 0x013, 0x014, 0x015, 0x018, 0x019, 0x020, 0x021,
      0x022, 0x023, 0x024, 0x025] → (asCurrent State.reset c n).readCR num = some (if num = 0x00A then 1 else 0)) ∧
  (∀ c n, indexOf c ≠ 8 → (asCurrent State.reset c n).readCR 0x008 = some 0) ∧
  (∀ c n, (State.reset.slot c n).running = false ∧ (State.reset.slot c n).parked = false) ∧
  (∀ p, (State.reset.part p).en = false ∧ (State.reset.part p).resident = false ∧ (State.reset.part p).qos = 0) ∧
  (∀ x, (State.reset.ctx x).alive = false) ∧
  State.reset.fabric.udpPort = 48111 ∧ State.reset.fabric.e2et = 50 ∧ State.reset.fabric.transitWeight = 1 ∧
  State.reset.plat.stage = .verifying ∧ (∀ i, State.reset.plat.cur i = 2700 ∧ State.reset.plat.tgt i = 2700) ∧
  Kept State.reset

/-- 05 R76, R81, R83: for every well-formed instruction, its word decodes to it, with every operand at every value that the encoding
admits, and its length is that of its word. -/
def Obligations.EncodeDecode : Prop :=
  ∀ j, WellFormed j → decode (bytesOf (encode j).1 (encode j).2) = .ok (j, (encode j).1 / 16) ∧
    decodeTableWord (encode j).1 (encode j).2 = some j ∧ ((encode j).1 = 16 ∨ (encode j).1 = 32)

/-- Every step keeps the invariant: the canonical form of memory, the frequencies of the islands, the blocks of quote indices. -/
def Obligations.StepKeepsInvariant : Prop := ∀ s t, Kept s → step s = .next t → Kept t

/-- R353: no index of the identity key is used twice. In every step the next index does not fall, and a quote that the step gives is
signed with an index that was not used before and that the step uses up; the minimum versions in the fuses never fall. -/
def Obligations.QuoteIndicesOnce : Prop :=
  ∀ s t, Kept s → step s = .next t →
    s.plat.quoteNext ≤ t.plat.quoteNext ∧ s.plat.quoteCounter ≤ t.plat.quoteCounter ∧
    (∀ i, Tbl.find 0 s.plat.fuses i ≤ Tbl.find 0 t.plat.fuses i) ∧
    ∀ body sig, t.plat.quote = some (body, sig) → t.plat.quote ≠ s.plat.quote →
      ∃ i, s.plat.quoteNext ≤ i ∧ i < t.plat.quoteNext ∧ sig = Config.xmssSign i body

end
end

