-- ==== Sys2Proof/Laws/Bits.lean ====
section
/-! SUPPORT. Lemmas about byte order: the bytes of a number, and the number of bytes. -/

namespace Sys2Proof
namespace Machine

@[simp] theorem leBytes_length (n v : Nat) : (leBytes n v).length = n := by
  induction n generalizing v with
  | zero => rfl
  | succ n ih => simp [leBytes, ih]

/-- The bytes of a number give it back, as far as they reach. -/
theorem leVal_leBytes (n v : Nat) : leVal (leBytes n v) = v % 256 ^ n := by
  induction n generalizing v with
  | zero => simp [leBytes, leVal, Nat.mod_one]
  | succ n ih =>
    simp only [leBytes, leVal, ih, BitVec.toNat_ofNat]
    rw [show 256 ^ (n + 1) = 256 * 256 ^ n by rw [Nat.pow_succ, Nat.mul_comm], Nat.mod_mul]

/-- A bit vector of whole bytes is the number of its bytes. -/
theorem ofNat_leVal_leBytes {w : Nat} (n : Nat) (v : BitVec w) (h : w = 8 * n) : BitVec.ofNat w (leVal (leBytes n v.toNat)) = v := by
  subst h
  rw [leVal_leBytes, show 256 ^ n = 2 ^ (8 * n) by rw [Nat.pow_mul], Nat.mod_eq_of_lt v.isLt, BitVec.ofNat_toNat, BitVec.setWidth_eq]

end Machine
end Sys2Proof
end

