-- ==== Sys2Proof/Laws/Boot.lean ====
section
/-! SUPPORT. Lemmas about image sets (25_bring_up.md R348): an entry is read back from its bytes, and the entries of a manifest from
theirs. -/

namespace Sys2Proof
namespace Machine

@[simp] theorem toBytes_length (e : ManifestEntry) : (ManifestEntry.toBytes e).length = 64 := by simp [ManifestEntry.toBytes]

theorem entryOf_toBytes (e : ManifestEntry) : entryOf (ManifestEntry.toBytes e) = e := by
  obtain ⟨d, hi, n, o, lo, v, i⟩ := e
  simp only [entryOf, ManifestEntry.toBytes, List.cons_append, List.nil_append, List.headD_cons, List.drop_succ_cons, List.drop_zero,
    List.append_assoc]
  have a (n v : Nat) (r : List Byte) : (leBytes n v ++ r).take n = leBytes n v := by simp
  have b (n m v : Nat) (r : List Byte) : (leBytes n v ++ r).drop (n + m) = r.drop m := by
    rw [List.drop_append]; simp
  rw [a, show (6 : Nat) = 6 + 0 from rfl, b, List.drop_zero, a, show (10 : Nat) = 6 + (4 + 0) from rfl, b, b, List.drop_zero, a,
    show (14 : Nat) = 6 + (4 + (4 + 0)) from rfl, b, b, b, List.drop_zero, a, show (30 : Nat) = 6 + (4 + (4 + (16 + 0))) from rfl, b, b, b, b,
    List.drop_zero, List.take_of_length_le (by simp)]
  simp only [ofNat_leVal_leBytes 6 lo rfl, ofNat_leVal_leBytes 4 o rfl, ofNat_leVal_leBytes 4 n rfl,
    ofNat_leVal_leBytes 16 hi rfl, ofNat_leVal_leBytes 32 d rfl]

/-- The entries are read up to the one with ID 0. -/
theorem readEntries_toBytes (l : List ManifestEntry) (r : List Byte) (fuel : Nat) (h : ∀ e ∈ l, e.id ≠ 0) (hr : (entryOf (r.take 64)).id = 0)
    (hl : l.length < fuel) : readEntries fuel (l.flatMap ManifestEntry.toBytes ++ r) = (l, l.length + 1) := by
  induction l generalizing fuel with
  | nil =>
    obtain ⟨k, rfl⟩ : ∃ k, fuel = k + 1 := ⟨fuel - 1, by simp at hl; omega⟩
    simp [readEntries, hr]
  | cons e l ih =>
    obtain ⟨k, rfl⟩ : ∃ k, fuel = k + 1 := ⟨fuel - 1, by simp at hl; omega⟩
    have t : ((ManifestEntry.toBytes e) ++ (l.flatMap ManifestEntry.toBytes ++ r)).take 64 = (ManifestEntry.toBytes e) := by
      rw [List.take_append_of_le_length (by simp), List.take_of_length_le (by simp)]
    have u : ((ManifestEntry.toBytes e) ++ (l.flatMap ManifestEntry.toBytes ++ r)).drop 64 = l.flatMap ManifestEntry.toBytes ++ r := by
      rw [List.drop_append_of_le_length (by simp), List.drop_eq_nil_of_le (by simp), List.nil_append]
    have i := ih k (fun x hx => h x (List.mem_cons_of_mem _ hx)) (by simpa using hl)
    have n : e.id ≠ 0 := h e List.mem_cons_self
    simp only [List.flatMap_cons, List.append_assoc, readEntries, t, u, i, entryOf_toBytes, n, if_false, List.length_cons]

end Machine
end Sys2Proof
end

