-- ==== Sys2Proof/Laws/Codec.lean ====
section
/-! SUPPORT. Laws of the decoder: the bytes of a word give the word back, and a word whose row is found decodes to it. -/

namespace Sys2Proof
namespace Codec

/-- A field of a word is the bit vector whose value stands there. -/
theorem bits_eq {n : Nat} (w lo : Nat) (x : BitVec n) (h : w / lo % 2 ^ n = x.toNat) : bitsAt w lo = x := by
  apply BitVec.eq_of_toNat_eq
  rw [bitsAt, BitVec.toNat_ofNat, h]

/-- No check refuses a well-formed instruction. -/
theorem forbidden_none {j : Instr} (h : WellFormed j) : Machine.forbidden j = none := by
  have h' : Machine.wellFormed j = true := h
  simp only [Machine.wellFormed, Bool.and_eq_true] at h'
  exact Option.isNone_iff_eq_none.1 h'.1.2

theorem ite_none {c : Prop} [Decidable c] {e : DecodeError} {x : Option DecodeError} (h : (if c then some e else x) = none) :
    x = none := by
  split at h
  · cases h
  · exact h

/-- An instruction that no check refuses passes the checks of its entry. -/
theorem field_none {j : Instr} (h : Machine.forbidden j = none) : Machine.forbiddenField j = none :=
  ite_none (ite_none (ite_none (ite_none h)))

/-- A well-formed instruction has a word. -/
theorem has_word {j : Instr} (h : WellFormed j) : Machine.hasWord j = true := by
  have h' : Machine.wellFormed j = true := h
  simp only [Machine.wellFormed, Bool.and_eq_true] at h'
  exact h'.1.1

/-- The bytes of a 32-bit word that has a row. -/
theorem decode_word32 (w : Nat) (j : Instr) (hw : w < 4294967296) (ho : w % 2 = 1) (hr : raw32 w = .ok j)
    (hf : Machine.forbidden j = none) : decode (bytesOf 32 w) = .ok (j, 2) := by
  have h0 : (BitVec.ofNat 8 w).toNat = w % 256 := by simp
  have h1 : (BitVec.ofNat 8 (w / 256)).toNat = w / 256 % 256 := by simp
  have h2 : (BitVec.ofNat 8 (w / 65536)).toNat = w / 65536 % 256 := by simp
  have h3 : (BitVec.ofNat 8 (w / 16777216)).toNat = w / 16777216 % 256 := by simp
  have hv : halfOf (BitVec.ofNat 8 w) (BitVec.ofNat 8 (w / 256))
      + 65536 * halfOf (BitVec.ofNat 8 (w / 65536)) (BitVec.ofNat 8 (w / 16777216)) = w := by
    simp only [halfOf, h0, h1, h2, h3]; omega
  have hp : ¬ w % 256 % 2 = 0 := by omega
  have hd : decode32 w = .ok j := by simp only [decode32, hr, hf]
  simp only [bytesOf, decode, h0, if_neg hp, hv, hd, show ¬ (32 ≤ 16) by omega, if_false]

/-- The bytes of a 16-bit word that has a row. -/
theorem decode_word16 (w : Nat) (j : Instr) (hw : w < 65536) (ho : w % 2 = 0) (hr : raw16 w = .ok j)
    (hf : Machine.forbidden j = none) : decode (bytesOf 16 w) = .ok (j, 1) := by
  have h0 : (BitVec.ofNat 8 w).toNat = w % 256 := by simp
  have h1 : (BitVec.ofNat 8 (w / 256)).toNat = w / 256 % 256 := by simp
  have hv : halfOf (BitVec.ofNat 8 w) (BitVec.ofNat 8 (w / 256)) = w := by
    simp only [halfOf, h0, h1]; omega
  have hp : w % 256 % 2 = 0 := by omega
  have hd : decode16 w = .ok j := by simp only [decode16, hr, hf]
  simp only [bytesOf, decode, h0, if_pos hp, hv, hd, show (16 ≤ 16) by omega, if_true]

theorem raw32_00 (w : Nat) (h : w / 2 % 128 = 0) : raw32 w = raw_00 w := by rw [raw32, h]; rfl
theorem raw32_01 (w : Nat) (h : w / 2 % 128 = 1) : raw32 w = raw_01 w := by rw [raw32, h]; rfl
theorem raw32_02 (w : Nat) (h : w / 2 % 128 = 2) : raw32 w = raw_02 w := by rw [raw32, h]; rfl
theorem raw32_03 (w : Nat) (h : w / 2 % 128 = 3) : raw32 w = raw_03 w := by rw [raw32, h]; rfl
theorem raw32_04 (w : Nat) (h : w / 2 % 128 = 4) : raw32 w = raw_04 w := by rw [raw32, h]; rfl
theorem raw32_05 (w : Nat) (h : w / 2 % 128 = 5) : raw32 w = raw_05 w := by rw [raw32, h]; rfl
theorem raw32_06 (w : Nat) (h : w / 2 % 128 = 6) : raw32 w = raw_06 w := by rw [raw32, h]; rfl
theorem raw32_07 (w : Nat) (h : w / 2 % 128 = 7) : raw32 w = raw_07 w := by rw [raw32, h]; rfl
theorem raw32_08 (w : Nat) (h : w / 2 % 128 = 8) : raw32 w = raw_08 w := by rw [raw32, h]; rfl
theorem raw32_09 (w : Nat) (h : w / 2 % 128 = 9) : raw32 w = raw_09 w := by rw [raw32, h]; rfl
theorem raw32_0a (w : Nat) (h : w / 2 % 128 = 10) : raw32 w = raw_0a w := by rw [raw32, h]; rfl
theorem raw32_0b (w : Nat) (h : w / 2 % 128 = 11) : raw32 w = raw_0b w := by rw [raw32, h]; rfl
theorem raw32_0c (w : Nat) (h : w / 2 % 128 = 12) : raw32 w = raw_0c w := by rw [raw32, h]; rfl
theorem raw32_0d (w : Nat) (h : w / 2 % 128 = 13) : raw32 w = raw_0d w := by rw [raw32, h]; rfl
theorem raw32_10 (w : Nat) (h : w / 2 % 128 = 16) : raw32 w = raw_10 w := by rw [raw32, h]; rfl
theorem raw32_11 (w : Nat) (h : w / 2 % 128 = 17) : raw32 w = raw_11 w := by rw [raw32, h]; rfl
theorem raw32_12 (w : Nat) (h : w / 2 % 128 = 18) : raw32 w = raw_12 w := by rw [raw32, h]; rfl
theorem raw32_13 (w : Nat) (h : w / 2 % 128 = 19) : raw32 w = raw_13 w := by rw [raw32, h]; rfl
theorem raw32_14 (w : Nat) (h : w / 2 % 128 = 20) : raw32 w = raw_14 w := by rw [raw32, h]; rfl
theorem raw32_15 (w : Nat) (h : w / 2 % 128 = 21) : raw32 w = raw_15 w := by rw [raw32, h]; rfl
theorem raw32_16 (w : Nat) (h : w / 2 % 128 = 22) : raw32 w = raw_16 w := by rw [raw32, h]; rfl
theorem raw32_17 (w : Nat) (h : w / 2 % 128 = 23) : raw32 w = raw_17 w := by rw [raw32, h]; rfl
theorem raw32_18 (w : Nat) (h : w / 2 % 128 = 24) : raw32 w = raw_18 w := by rw [raw32, h]; rfl
theorem raw32_19 (w : Nat) (h : w / 2 % 128 = 25) : raw32 w = raw_19 w := by rw [raw32, h]; rfl
theorem raw32_1a (w : Nat) (h : w / 2 % 128 = 26) : raw32 w = raw_1a w := by rw [raw32, h]; rfl
theorem raw32_1b (w : Nat) (h : w / 2 % 128 = 27) : raw32 w = raw_1b w := by rw [raw32, h]; rfl
theorem raw32_78 (w : Nat) (h : w / 2 % 128 = 120) : raw32 w = raw_78 w := by rw [raw32, h]; rfl
theorem raw32_79 (w : Nat) (h : w / 2 % 128 = 121) : raw32 w = raw_79 w := by rw [raw32, h]; rfl
theorem raw32_7a (w : Nat) (h : w / 2 % 128 = 122) : raw32 w = raw_7a w := by rw [raw32, h]; rfl
theorem raw32_7b (w : Nat) (h : w / 2 % 128 = 123) : raw32 w = raw_7b w := by rw [raw32, h]; rfl
theorem raw32_7c (w : Nat) (h : w / 2 % 128 = 124) : raw32 w = raw_7c w := by rw [raw32, h]; rfl
theorem raw32_20 (w : Nat) (h : w / 2 % 128 = 32) : raw32 w = raw_20 w := by rw [raw32, h]; rfl
theorem raw32_21 (w : Nat) (h : w / 2 % 128 = 33) : raw32 w = raw_21 w := by rw [raw32, h]; rfl
theorem raw32_22 (w : Nat) (h : w / 2 % 128 = 34) : raw32 w = raw_22 w := by rw [raw32, h]; rfl
theorem raw32_23 (w : Nat) (h : w / 2 % 128 = 35) : raw32 w = raw_23 w := by rw [raw32, h]; rfl
theorem raw32_24 (w : Nat) (h : w / 2 % 128 = 36) : raw32 w = raw_24 w := by rw [raw32, h]; rfl
theorem raw32_25 (w : Nat) (h : w / 2 % 128 = 37) : raw32 w = raw_25 w := by rw [raw32, h]; rfl
theorem raw32_26 (w : Nat) (h : w / 2 % 128 = 38) : raw32 w = raw_26 w := by rw [raw32, h]; rfl
theorem raw32_27 (w : Nat) (h : w / 2 % 128 = 39) : raw32 w = raw_27 w := by rw [raw32, h]; rfl
theorem raw32_28 (w : Nat) (h : w / 2 % 128 = 40) : raw32 w = raw_28 w := by rw [raw32, h]; rfl
theorem raw32_29 (w : Nat) (h : w / 2 % 128 = 41) : raw32 w = raw_29 w := by rw [raw32, h]; rfl
theorem raw32_2a (w : Nat) (h : w / 2 % 128 = 42) : raw32 w = raw_2a w := by rw [raw32, h]; rfl
theorem raw32_2b (w : Nat) (h : w / 2 % 128 = 43) : raw32 w = raw_2b w := by rw [raw32, h]; rfl
theorem raw32_2c (w : Nat) (h : w / 2 % 128 = 44) : raw32 w = raw_2c w := by rw [raw32, h]; rfl
theorem raw32_2d (w : Nat) (h : w / 2 % 128 = 45) : raw32 w = raw_2d w := by rw [raw32, h]; rfl
theorem raw32_38 (w : Nat) (h : w / 2 % 128 = 56) : raw32 w = raw_38 w := by rw [raw32, h]; rfl
theorem raw32_2e (w : Nat) (h : w / 2 % 128 = 46) : raw32 w = raw_2e w := by rw [raw32, h]; rfl
theorem raw32_2f (w : Nat) (h : w / 2 % 128 = 47) : raw32 w = raw_2f w := by rw [raw32, h]; rfl
theorem raw32_30 (w : Nat) (h : w / 2 % 128 = 48) : raw32 w = raw_30 w := by rw [raw32, h]; rfl
theorem raw32_31 (w : Nat) (h : w / 2 % 128 = 49) : raw32 w = raw_31 w := by rw [raw32, h]; rfl
theorem raw32_32 (w : Nat) (h : w / 2 % 128 = 50) : raw32 w = raw_32 w := by rw [raw32, h]; rfl
theorem raw32_33 (w : Nat) (h : w / 2 % 128 = 51) : raw32 w = raw_33 w := by rw [raw32, h]; rfl
theorem raw32_34 (w : Nat) (h : w / 2 % 128 = 52) : raw32 w = raw_34 w := by rw [raw32, h]; rfl
theorem raw32_35 (w : Nat) (h : w / 2 % 128 = 53) : raw32 w = raw_35 w := by rw [raw32, h]; rfl
theorem raw32_36 (w : Nat) (h : w / 2 % 128 = 54) : raw32 w = raw_36 w := by rw [raw32, h]; rfl
theorem raw32_37 (w : Nat) (h : w / 2 % 128 = 55) : raw32 w = raw_37 w := by rw [raw32, h]; rfl
theorem raw32_3b (w : Nat) (h : w / 2 % 128 = 59) : raw32 w = raw_3b w := by rw [raw32, h]; rfl
theorem raw32_3c (w : Nat) (h : w / 2 % 128 = 60) : raw32 w = raw_3c w := by rw [raw32, h]; rfl
theorem raw32_40 (w : Nat) (h : w / 2 % 128 = 64) : raw32 w = raw_40 w := by rw [raw32, h]; rfl
theorem raw32_41 (w : Nat) (h : w / 2 % 128 = 65) : raw32 w = raw_41 w := by rw [raw32, h]; rfl
theorem raw32_42 (w : Nat) (h : w / 2 % 128 = 66) : raw32 w = raw_42 w := by rw [raw32, h]; rfl
theorem raw32_43 (w : Nat) (h : w / 2 % 128 = 67) : raw32 w = raw_43 w := by rw [raw32, h]; rfl
theorem raw32_44 (w : Nat) (h : w / 2 % 128 = 68) : raw32 w = raw_44 w := by rw [raw32, h]; rfl
theorem raw32_45 (w : Nat) (h : w / 2 % 128 = 69) : raw32 w = raw_45 w := by rw [raw32, h]; rfl
theorem raw32_46 (w : Nat) (h : w / 2 % 128 = 70) : raw32 w = raw_46 w := by rw [raw32, h]; rfl
theorem raw32_47 (w : Nat) (h : w / 2 % 128 = 71) : raw32 w = raw_47 w := by rw [raw32, h]; rfl
theorem raw32_48 (w : Nat) (h : w / 2 % 128 = 72) : raw32 w = raw_48 w := by rw [raw32, h]; rfl
theorem raw32_49 (w : Nat) (h : w / 2 % 128 = 73) : raw32 w = raw_49 w := by rw [raw32, h]; rfl
theorem raw32_4a (w : Nat) (h : w / 2 % 128 = 74) : raw32 w = raw_4a w := by rw [raw32, h]; rfl
theorem raw32_4b (w : Nat) (h : w / 2 % 128 = 75) : raw32 w = raw_4b w := by rw [raw32, h]; rfl
theorem raw32_4c (w : Nat) (h : w / 2 % 128 = 76) : raw32 w = raw_4c w := by rw [raw32, h]; rfl
theorem raw32_50 (w : Nat) (h : w / 2 % 128 = 80) : raw32 w = raw_50 w := by rw [raw32, h]; rfl
theorem raw32_51 (w : Nat) (h : w / 2 % 128 = 81) : raw32 w = raw_51 w := by rw [raw32, h]; rfl
theorem raw32_52 (w : Nat) (h : w / 2 % 128 = 82) : raw32 w = raw_52 w := by rw [raw32, h]; rfl
theorem raw32_53 (w : Nat) (h : w / 2 % 128 = 83) : raw32 w = raw_53 w := by rw [raw32, h]; rfl
theorem raw32_54 (w : Nat) (h : w / 2 % 128 = 84) : raw32 w = raw_54 w := by rw [raw32, h]; rfl
theorem raw32_55 (w : Nat) (h : w / 2 % 128 = 85) : raw32 w = raw_55 w := by rw [raw32, h]; rfl
theorem raw32_56 (w : Nat) (h : w / 2 % 128 = 86) : raw32 w = raw_56 w := by rw [raw32, h]; rfl
theorem raw32_57 (w : Nat) (h : w / 2 % 128 = 87) : raw32 w = raw_57 w := by rw [raw32, h]; rfl
theorem raw32_58 (w : Nat) (h : w / 2 % 128 = 88) : raw32 w = raw_58 w := by rw [raw32, h]; rfl
theorem raw32_59 (w : Nat) (h : w / 2 % 128 = 89) : raw32 w = raw_59 w := by rw [raw32, h]; rfl
theorem raw32_5a (w : Nat) (h : w / 2 % 128 = 90) : raw32 w = raw_5a w := by rw [raw32, h]; rfl
theorem raw32_5b (w : Nat) (h : w / 2 % 128 = 91) : raw32 w = raw_5b w := by rw [raw32, h]; rfl
theorem raw32_5c (w : Nat) (h : w / 2 % 128 = 92) : raw32 w = raw_5c w := by rw [raw32, h]; rfl
theorem raw32_5d (w : Nat) (h : w / 2 % 128 = 93) : raw32 w = raw_5d w := by rw [raw32, h]; rfl
theorem raw32_60 (w : Nat) (h : w / 2 % 128 = 96) : raw32 w = raw_60 w := by rw [raw32, h]; rfl
theorem raw32_61 (w : Nat) (h : w / 2 % 128 = 97) : raw32 w = raw_61 w := by rw [raw32, h]; rfl
theorem raw32_62 (w : Nat) (h : w / 2 % 128 = 98) : raw32 w = raw_62 w := by rw [raw32, h]; rfl
theorem raw32_63 (w : Nat) (h : w / 2 % 128 = 99) : raw32 w = raw_63 w := by rw [raw32, h]; rfl
theorem raw32_64 (w : Nat) (h : w / 2 % 128 = 100) : raw32 w = raw_64 w := by rw [raw32, h]; rfl
theorem raw32_65 (w : Nat) (h : w / 2 % 128 = 101) : raw32 w = raw_65 w := by rw [raw32, h]; rfl
theorem raw32_66 (w : Nat) (h : w / 2 % 128 = 102) : raw32 w = raw_66 w := by rw [raw32, h]; rfl
theorem raw32_67 (w : Nat) (h : w / 2 % 128 = 103) : raw32 w = raw_67 w := by rw [raw32, h]; rfl
theorem raw32_68 (w : Nat) (h : w / 2 % 128 = 104) : raw32 w = raw_68 w := by rw [raw32, h]; rfl
theorem raw32_69 (w : Nat) (h : w / 2 % 128 = 105) : raw32 w = raw_69 w := by rw [raw32, h]; rfl
theorem raw32_6a (w : Nat) (h : w / 2 % 128 = 106) : raw32 w = raw_6a w := by rw [raw32, h]; rfl
theorem raw32_6b (w : Nat) (h : w / 2 % 128 = 107) : raw32 w = raw_6b w := by rw [raw32, h]; rfl
theorem raw32_70 (w : Nat) (h : w / 2 % 128 = 112) : raw32 w = raw_70 w := by rw [raw32, h]; rfl
theorem raw32_71 (w : Nat) (h : w / 2 % 128 = 113) : raw32 w = raw_71 w := by rw [raw32, h]; rfl
theorem raw32_72 (w : Nat) (h : w / 2 % 128 = 114) : raw32 w = raw_72 w := by rw [raw32, h]; rfl
theorem raw32_73 (w : Nat) (h : w / 2 % 128 = 115) : raw32 w = raw_73 w := by rw [raw32, h]; rfl
theorem raw32_74 (w : Nat) (h : w / 2 % 128 = 116) : raw32 w = raw_74 w := by rw [raw32, h]; rfl
theorem raw32_75 (w : Nat) (h : w / 2 % 128 = 117) : raw32 w = raw_75 w := by rw [raw32, h]; rfl
theorem raw32_76 (w : Nat) (h : w / 2 % 128 = 118) : raw32 w = raw_76 w := by rw [raw32, h]; rfl
theorem raw32_77 (w : Nat) (h : w / 2 % 128 = 119) : raw32 w = raw_77 w := by rw [raw32, h]; rfl

/-- An AMOP that no check refuses has one of the twelve operations of R84. -/
theorem amop_op {a b : Reg} {op : BitVec 4} {sz : BitVec 1} (h : Machine.forbidden (.amop a b op sz) = none) : op.toNat < 12 := by
  have h' : Machine.forbiddenField (.amop a b op sz) = none := Codec.field_none h
  simp only [Machine.forbiddenField] at h'
  split at h'
  · cases h'
  · omega

end Codec
end Sys2Proof
end

