-- ==== Sys2Proof/Laws/Tables.lean ====
section
/-! SUPPORT. Laws of finite tables and of memory: a read after a write, and the canonical form. -/

namespace Sys2Proof
namespace Machine

namespace Tbl

variable {α : Type}

@[simp] theorem get?_nil (k : Nat) : get? ([] : Tbl α) k = none := rfl

theorem get?_cons (j k : Nat) (v : α) (m : Tbl α) : get? ((j, v) :: m) k = if j = k then some v else get? m k := rfl

theorem get?_insert_ne (m : Tbl α) (k j : Nat) (v : α) (h : j ≠ k) : get? (insert k v m) j = get? m j := by
  induction m with
  | nil => simp [insert, get?_cons, Ne.symm h]
  | cons e r ih =>
    obtain ⟨i, x⟩ := e
    simp only [insert]
    split
    · simp [get?_cons, Ne.symm h]
    · simp [get?_cons, ih]

theorem get?_insert_self (m : Tbl α) (k : Nat) (v : α) (h : get? m k = none) : get? (insert k v m) k = some v := by
  induction m with
  | nil => simp [insert, get?_cons]
  | cons e r ih =>
    obtain ⟨i, x⟩ := e
    simp only [get?_cons] at h
    split at h
    · cases h
    · rename_i hne
      simp only [insert]
      split
      · simp [get?_cons]
      · simp [get?_cons, hne, ih h]

theorem get?_del_self (m : Tbl α) (k : Nat) : get? (del m k) k = none := by
  induction m with
  | nil => rfl
  | cons e r ih =>
    obtain ⟨i, x⟩ := e
    by_cases h : i = k <;> simp_all [del, get?_cons]

theorem get?_del_ne (m : Tbl α) (k j : Nat) (h : j ≠ k) : get? (del m k) j = get? m j := by
  induction m with
  | nil => rfl
  | cons e r ih =>
    obtain ⟨i, x⟩ := e
    by_cases hk : i = k
    · subst hk; simp_all [del, get?_cons, Ne.symm h]
    · simp_all [del, get?_cons]

/-- A record written is the record read, and no other changes. -/
theorem get?_set (m : Tbl α) (k j : Nat) (v : α) : get? (set m k v) j = if j = k then some v else get? m j := by
  split
  · rename_i h; subst h; exact get?_insert_self _ _ _ (get?_del_self m j)
  · rename_i h; rw [set, get?_insert_ne _ _ _ _ h, get?_del_ne _ _ _ h]

@[simp] theorem get?_set_self (m : Tbl α) (k : Nat) (v : α) : get? (set m k v) k = some v := by simp [get?_set]

theorem get?_del (m : Tbl α) (k j : Nat) : get? (del m k) j = if j = k then none else get? m j := by
  split
  · rename_i h; subst h; exact get?_del_self m j
  · rename_i h; exact get?_del_ne _ _ _ h

/-- A value written is the value read, and no other changes. -/
theorem find_put [DecidableEq α] (d : α) (m : Tbl α) (k j : Nat) (v : α) :
    find d (put d m k v) j = if j = k then v else find d m j := by
  simp only [find, put]
  split <;> rename_i hv
  · rw [get?_del]; split <;> simp_all
  · rw [get?_set]; split <;> simp

@[simp] theorem find_put_self [DecidableEq α] (d : α) (m : Tbl α) (k : Nat) (v : α) : find d (put d m k v) k = v := by
  simp [find_put]

/-! ## The canonical form -/

theorem wf_cons [DecidableEq α] (d : α) (e : Nat × α) (r : Tbl α) :
    wf d (e :: r) = true ↔ e.2 ≠ d ∧ (∀ f ∈ r.head?, e.1 < f.1) ∧ wf d r = true := by
  cases r with
  | nil => simp [wf]
  | cons f r => simp [wf, and_assoc]

theorem wf_lt [DecidableEq α] (d : α) (e : Nat × α) (r : Tbl α) (h : wf d (e :: r) = true) : ∀ f ∈ r, e.1 < f.1 := by
  induction r generalizing e with
  | nil => simp
  | cons g r ih =>
    rw [wf_cons] at h
    obtain ⟨_, h1, h2⟩ := h
    have h3 := h1 g (by simp)
    intro f hf
    rcases List.mem_cons.1 hf with rfl | hf
    · exact h3
    · exact Nat.lt_trans h3 (ih g h2 f hf)

theorem wf_del [DecidableEq α] (d : α) (m : Tbl α) (k : Nat) (h : wf d m = true) : wf d (del m k) = true := by
  induction m with
  | nil => exact h
  | cons e r ih =>
    have hl := wf_lt d e r h
    rw [wf_cons] at h
    have hr := ih h.2.2
    simp only [del, List.filter_cons]
    split
    · rw [wf_cons]
      refine ⟨h.1, fun f hf => ?_, hr⟩
      have : f ∈ r := List.mem_of_mem_filter (List.mem_of_mem_head? hf)
      exact hl f this
    · exact hr

theorem head_insert (k : Nat) (v : α) (r : Tbl α) : ∀ f ∈ (insert k v r).head?, f = (k, v) ∨ f ∈ r.head? := by
  cases r with
  | nil => simp [insert]
  | cons e r =>
    simp only [insert]
    split <;> simp

theorem wf_insert [DecidableEq α] (d : α) (m : Tbl α) (k : Nat) (v : α) (hv : v ≠ d) (h : wf d m = true)
    (hk : ∀ e ∈ m, e.1 ≠ k) : wf d (insert k v m) = true := by
  induction m with
  | nil => simp [insert, wf, hv]
  | cons e r ih =>
    have h' := (wf_cons d e r).1 h
    simp only [insert]
    split
    · rename_i hlt
      rw [wf_cons]
      exact ⟨hv, by simpa using hlt, h⟩
    · rename_i hge
      rw [wf_cons]
      refine ⟨h'.1, fun f hf => ?_, ih h'.2.2 (fun x hx => hk x (by simp [hx]))⟩
      have hek := hk e (by simp)
      rcases head_insert k v r f hf with rfl | hf
      · show e.1 < k
        omega
      · exact h'.2.1 f hf

theorem wf_put [DecidableEq α] (d : α) (m : Tbl α) (k : Nat) (v : α) (h : wf d m = true) : wf d (put d m k v) = true := by
  simp only [put]
  split
  · exact wf_del d m k h
  · rename_i hv
    exact wf_insert d _ k v hv (wf_del d m k h) (by simp [del])

end Tbl

namespace Memory

/-- A byte written is the byte read, and no other changes. -/
theorem read_write (m : Memory) (a b : Nat) (v : Byte) : read (write m a v) b = if b = a then v else read m b :=
  Tbl.find_put _ _ _ _ _

/-- A write keeps the canonical form. -/
theorem wf_write (m : Memory) (a : Nat) (v : Byte) (h : wf m = true) : wf (write m a v) = true := Tbl.wf_put _ _ _ _ h

/-- Writes keep the canonical form. -/
theorem wf_writeAll (m : Memory) (l : List (Nat × Byte)) (h : wf m = true) : wf (writeAll m l) = true := by
  induction l with
  | nil => exact h
  | cons e r ih => exact wf_write _ _ _ ih

/-- After writes an address reads as the newest of them, or as before. -/
theorem read_writeAll (m : Memory) (l : List (Nat × Byte)) (a : Nat) :
    read (writeAll m l) a = ((l.find? fun e => e.1 == a).map (·.2)).getD (read m a) := by
  induction l with
  | nil => rfl
  | cons e r ih =>
    obtain ⟨b, v⟩ := e
    simp only [writeAll, read_write, ih, List.find?_cons]
    by_cases h : b = a
    · simp [h]
    · have h1 : ¬ a = b := fun x => h x.symm
      have h2 : (b == a) = false := by simpa using h
      simp [h1, h2]

/-- Two canonical memories that read alike are equal. -/
theorem ext_of_read (m n : Memory) (hm : wf m = true) (hn : wf n = true) (h : ∀ a, read m a = read n a) : m = n := by
  induction m generalizing n with
  | nil =>
    cases n with
    | nil => rfl
    | cons e r =>
      have := h e.1
      rw [wf, Tbl.wf_cons] at hn
      simp [read, Tbl.find, Tbl.get?] at this
      exact absurd this.symm hn.1
  | cons e r ih =>
    have hl := Tbl.wf_lt _ _ _ hm
    have hm' := (Tbl.wf_cons _ _ _).1 hm
    have miss : ∀ (q : Memory) (k : Nat), (∀ f ∈ q, k < f.1) → read q k = unlisted := by
      intro q k hq
      induction q with
      | nil => rfl
      | cons f q ihq =>
        have h1 := hq f (by simp)
        have : f.1 ≠ k := by omega
        simpa [read, Tbl.find, Tbl.get?, this] using ihq fun g hg => hq g (by simp [hg])
    have hit : ∀ (f : Nat × Byte) (q : Memory), read (f :: q) f.1 = f.2 := by
      intro f q; simp [read, Tbl.find, Tbl.get?]
    have pass : ∀ (f : Nat × Byte) (q : Memory) (k : Nat), f.1 ≠ k → read (f :: q) k = read q k := by
      intro f q k hk; simp [read, Tbl.find, Tbl.get?, hk]
    cases n with
    | nil =>
      have := h e.1
      rw [hit] at this
      exact absurd this hm'.1
    | cons f q =>
      have hl2 := Tbl.wf_lt _ _ _ hn
      have hn' := (Tbl.wf_cons _ _ _).1 hn
      have key : e.1 = f.1 := by
        rcases Nat.lt_trichotomy e.1 f.1 with hlt | heq | hgt
        · have h1 := h e.1
          rw [hit, pass f q e.1 (by omega), miss q e.1 (fun g hg => by have := hl2 g hg; omega)] at h1
          exact absurd h1 hm'.1
        · exact heq
        · have h1 := h f.1
          rw [hit, pass e r f.1 (by omega), miss r f.1 (fun g hg => by have := hl g hg; omega)] at h1
          exact absurd h1.symm hn'.1
      have hv : e.2 = f.2 := by
        have h1 := h e.1
        rw [hit, key, hit] at h1
        exact h1
      have he : e = f := Prod.ext key hv
      subst he
      congr 1
      refine ih q hm'.2.2 hn'.2.2 fun a => ?_
      by_cases ha : e.1 = a
      · subst ha
        rw [miss r _ hl, miss q _ hl2]
      · have h1 := h a
        rwa [pass e r a ha, pass e q a ha] at h1

end Memory
end Machine
end Sys2Proof
end

