-- ==== Sys2Proof/Laws/State.lean ====
section
/-! SUPPORT. Laws of the updates of the state: one lemma per field per update, and what a record reads as after it. -/

namespace Sys2Proof
namespace Machine

variable (s : State)

@[simp] theorem State.setCore_mem (c : Nat) (k : Core) : (s.setCore c k).mem = s.mem := rfl
@[simp] theorem State.setCore_wr (c : Nat) (k : Core) : (s.setCore c k).wr = s.wr := rfl
@[simp] theorem State.setCore_clusters (c : Nat) (k : Core) : (s.setCore c k).clusters = s.clusters := rfl
@[simp] theorem State.setCore_parts (c : Nat) (k : Core) : (s.setCore c k).parts = s.parts := rfl
@[simp] theorem State.setCore_ctxs (c : Nat) (k : Core) : (s.setCore c k).ctxs = s.ctxs := rfl
@[simp] theorem State.setCore_saves (c : Nat) (k : Core) : (s.setCore c k).saves = s.saves := rfl
@[simp] theorem State.setCore_lines (c : Nat) (k : Core) : (s.setCore c k).lines = s.lines := rfl
@[simp] theorem State.setCore_net (c : Nat) (k : Core) : (s.setCore c k).net = s.net := rfl
@[simp] theorem State.setCore_fabric (c : Nat) (k : Core) : (s.setCore c k).fabric = s.fabric := rfl
@[simp] theorem State.setCore_plat (c : Nat) (k : Core) : (s.setCore c k).plat = s.plat := rfl
@[simp] theorem State.setCore_time (c : Nat) (k : Core) : (s.setCore c k).time = s.time := rfl
@[simp] theorem State.setCore_corrected (c : Nat) (k : Core) : (s.setCore c k).corrected = s.corrected := rfl
@[simp] theorem State.setCore_alerts (c : Nat) (k : Core) : (s.setCore c k).alerts = s.alerts := rfl
@[simp] theorem State.setCore_keysMade (c : Nat) (k : Core) : (s.setCore c k).keysMade = s.keysMade := rfl
@[simp] theorem State.setCore_curCore (c : Nat) (k : Core) : (s.setCore c k).curCore = s.curCore := rfl
@[simp] theorem State.setCore_curSlot (c : Nat) (k : Core) : (s.setCore c k).curSlot = s.curSlot := rfl
@[simp] theorem State.setCore_readout (c : Nat) (k : Core) : (s.setCore c k).readout = s.readout := rfl
@[simp] theorem State.setCore_evs (c : Nat) (k : Core) : (s.setCore c k).evs = s.evs := rfl
@[simp] theorem State.setCore_free (c : Nat) (k : Core) : (s.setCore c k).free = s.free := rfl
@[simp] theorem State.setCore_agenda (c : Nat) (k : Core) : (s.setCore c k).agenda = s.agenda := rfl
@[simp] theorem State.setCore_ticks (c : Nat) (k : Core) : (s.setCore c k).ticks = s.ticks := rfl

@[simp] theorem State.modCore_mem (c : Nat) (f : Core → Core) : (s.modCore c f).mem = s.mem := rfl
@[simp] theorem State.modCore_wr (c : Nat) (f : Core → Core) : (s.modCore c f).wr = s.wr := rfl
@[simp] theorem State.modCore_clusters (c : Nat) (f : Core → Core) : (s.modCore c f).clusters = s.clusters := rfl
@[simp] theorem State.modCore_parts (c : Nat) (f : Core → Core) : (s.modCore c f).parts = s.parts := rfl
@[simp] theorem State.modCore_ctxs (c : Nat) (f : Core → Core) : (s.modCore c f).ctxs = s.ctxs := rfl
@[simp] theorem State.modCore_saves (c : Nat) (f : Core → Core) : (s.modCore c f).saves = s.saves := rfl
@[simp] theorem State.modCore_lines (c : Nat) (f : Core → Core) : (s.modCore c f).lines = s.lines := rfl
@[simp] theorem State.modCore_net (c : Nat) (f : Core → Core) : (s.modCore c f).net = s.net := rfl
@[simp] theorem State.modCore_fabric (c : Nat) (f : Core → Core) : (s.modCore c f).fabric = s.fabric := rfl
@[simp] theorem State.modCore_plat (c : Nat) (f : Core → Core) : (s.modCore c f).plat = s.plat := rfl
@[simp] theorem State.modCore_time (c : Nat) (f : Core → Core) : (s.modCore c f).time = s.time := rfl
@[simp] theorem State.modCore_corrected (c : Nat) (f : Core → Core) : (s.modCore c f).corrected = s.corrected := rfl
@[simp] theorem State.modCore_alerts (c : Nat) (f : Core → Core) : (s.modCore c f).alerts = s.alerts := rfl
@[simp] theorem State.modCore_keysMade (c : Nat) (f : Core → Core) : (s.modCore c f).keysMade = s.keysMade := rfl
@[simp] theorem State.modCore_curCore (c : Nat) (f : Core → Core) : (s.modCore c f).curCore = s.curCore := rfl
@[simp] theorem State.modCore_curSlot (c : Nat) (f : Core → Core) : (s.modCore c f).curSlot = s.curSlot := rfl
@[simp] theorem State.modCore_readout (c : Nat) (f : Core → Core) : (s.modCore c f).readout = s.readout := rfl
@[simp] theorem State.modCore_evs (c : Nat) (f : Core → Core) : (s.modCore c f).evs = s.evs := rfl
@[simp] theorem State.modCore_free (c : Nat) (f : Core → Core) : (s.modCore c f).free = s.free := rfl
@[simp] theorem State.modCore_agenda (c : Nat) (f : Core → Core) : (s.modCore c f).agenda = s.agenda := rfl
@[simp] theorem State.modCore_ticks (c : Nat) (f : Core → Core) : (s.modCore c f).ticks = s.ticks := rfl

@[simp] theorem State.setSlot_mem (c n : Nat) (t : Slot) : (s.setSlot c n t).mem = s.mem := rfl
@[simp] theorem State.setSlot_wr (c n : Nat) (t : Slot) : (s.setSlot c n t).wr = s.wr := rfl
@[simp] theorem State.setSlot_clusters (c n : Nat) (t : Slot) : (s.setSlot c n t).clusters = s.clusters := rfl
@[simp] theorem State.setSlot_parts (c n : Nat) (t : Slot) : (s.setSlot c n t).parts = s.parts := rfl
@[simp] theorem State.setSlot_ctxs (c n : Nat) (t : Slot) : (s.setSlot c n t).ctxs = s.ctxs := rfl
@[simp] theorem State.setSlot_saves (c n : Nat) (t : Slot) : (s.setSlot c n t).saves = s.saves := rfl
@[simp] theorem State.setSlot_lines (c n : Nat) (t : Slot) : (s.setSlot c n t).lines = s.lines := rfl
@[simp] theorem State.setSlot_net (c n : Nat) (t : Slot) : (s.setSlot c n t).net = s.net := rfl
@[simp] theorem State.setSlot_fabric (c n : Nat) (t : Slot) : (s.setSlot c n t).fabric = s.fabric := rfl
@[simp] theorem State.setSlot_plat (c n : Nat) (t : Slot) : (s.setSlot c n t).plat = s.plat := rfl
@[simp] theorem State.setSlot_time (c n : Nat) (t : Slot) : (s.setSlot c n t).time = s.time := rfl
@[simp] theorem State.setSlot_corrected (c n : Nat) (t : Slot) : (s.setSlot c n t).corrected = s.corrected := rfl
@[simp] theorem State.setSlot_alerts (c n : Nat) (t : Slot) : (s.setSlot c n t).alerts = s.alerts := rfl
@[simp] theorem State.setSlot_keysMade (c n : Nat) (t : Slot) : (s.setSlot c n t).keysMade = s.keysMade := rfl
@[simp] theorem State.setSlot_curCore (c n : Nat) (t : Slot) : (s.setSlot c n t).curCore = s.curCore := rfl
@[simp] theorem State.setSlot_curSlot (c n : Nat) (t : Slot) : (s.setSlot c n t).curSlot = s.curSlot := rfl
@[simp] theorem State.setSlot_readout (c n : Nat) (t : Slot) : (s.setSlot c n t).readout = s.readout := rfl
@[simp] theorem State.setSlot_evs (c n : Nat) (t : Slot) : (s.setSlot c n t).evs = s.evs := rfl
@[simp] theorem State.setSlot_free (c n : Nat) (t : Slot) : (s.setSlot c n t).free = s.free := rfl
@[simp] theorem State.setSlot_agenda (c n : Nat) (t : Slot) : (s.setSlot c n t).agenda = s.agenda := rfl
@[simp] theorem State.setSlot_ticks (c n : Nat) (t : Slot) : (s.setSlot c n t).ticks = s.ticks := rfl

@[simp] theorem State.modSlot_mem (c n : Nat) (f : Slot → Slot) : (s.modSlot c n f).mem = s.mem := rfl
@[simp] theorem State.modSlot_wr (c n : Nat) (f : Slot → Slot) : (s.modSlot c n f).wr = s.wr := rfl
@[simp] theorem State.modSlot_clusters (c n : Nat) (f : Slot → Slot) : (s.modSlot c n f).clusters = s.clusters := rfl
@[simp] theorem State.modSlot_parts (c n : Nat) (f : Slot → Slot) : (s.modSlot c n f).parts = s.parts := rfl
@[simp] theorem State.modSlot_ctxs (c n : Nat) (f : Slot → Slot) : (s.modSlot c n f).ctxs = s.ctxs := rfl
@[simp] theorem State.modSlot_saves (c n : Nat) (f : Slot → Slot) : (s.modSlot c n f).saves = s.saves := rfl
@[simp] theorem State.modSlot_lines (c n : Nat) (f : Slot → Slot) : (s.modSlot c n f).lines = s.lines := rfl
@[simp] theorem State.modSlot_net (c n : Nat) (f : Slot → Slot) : (s.modSlot c n f).net = s.net := rfl
@[simp] theorem State.modSlot_fabric (c n : Nat) (f : Slot → Slot) : (s.modSlot c n f).fabric = s.fabric := rfl
@[simp] theorem State.modSlot_plat (c n : Nat) (f : Slot → Slot) : (s.modSlot c n f).plat = s.plat := rfl
@[simp] theorem State.modSlot_time (c n : Nat) (f : Slot → Slot) : (s.modSlot c n f).time = s.time := rfl
@[simp] theorem State.modSlot_corrected (c n : Nat) (f : Slot → Slot) : (s.modSlot c n f).corrected = s.corrected := rfl
@[simp] theorem State.modSlot_alerts (c n : Nat) (f : Slot → Slot) : (s.modSlot c n f).alerts = s.alerts := rfl
@[simp] theorem State.modSlot_keysMade (c n : Nat) (f : Slot → Slot) : (s.modSlot c n f).keysMade = s.keysMade := rfl
@[simp] theorem State.modSlot_curCore (c n : Nat) (f : Slot → Slot) : (s.modSlot c n f).curCore = s.curCore := rfl
@[simp] theorem State.modSlot_curSlot (c n : Nat) (f : Slot → Slot) : (s.modSlot c n f).curSlot = s.curSlot := rfl
@[simp] theorem State.modSlot_readout (c n : Nat) (f : Slot → Slot) : (s.modSlot c n f).readout = s.readout := rfl
@[simp] theorem State.modSlot_evs (c n : Nat) (f : Slot → Slot) : (s.modSlot c n f).evs = s.evs := rfl
@[simp] theorem State.modSlot_free (c n : Nat) (f : Slot → Slot) : (s.modSlot c n f).free = s.free := rfl
@[simp] theorem State.modSlot_agenda (c n : Nat) (f : Slot → Slot) : (s.modSlot c n f).agenda = s.agenda := rfl
@[simp] theorem State.modSlot_ticks (c n : Nat) (f : Slot → Slot) : (s.modSlot c n f).ticks = s.ticks := rfl

@[simp] theorem State.setCur_mem (t : Slot) : (s.setCur t).mem = s.mem := rfl
@[simp] theorem State.setCur_wr (t : Slot) : (s.setCur t).wr = s.wr := rfl
@[simp] theorem State.setCur_clusters (t : Slot) : (s.setCur t).clusters = s.clusters := rfl
@[simp] theorem State.setCur_parts (t : Slot) : (s.setCur t).parts = s.parts := rfl
@[simp] theorem State.setCur_ctxs (t : Slot) : (s.setCur t).ctxs = s.ctxs := rfl
@[simp] theorem State.setCur_saves (t : Slot) : (s.setCur t).saves = s.saves := rfl
@[simp] theorem State.setCur_lines (t : Slot) : (s.setCur t).lines = s.lines := rfl
@[simp] theorem State.setCur_net (t : Slot) : (s.setCur t).net = s.net := rfl
@[simp] theorem State.setCur_fabric (t : Slot) : (s.setCur t).fabric = s.fabric := rfl
@[simp] theorem State.setCur_plat (t : Slot) : (s.setCur t).plat = s.plat := rfl
@[simp] theorem State.setCur_time (t : Slot) : (s.setCur t).time = s.time := rfl
@[simp] theorem State.setCur_corrected (t : Slot) : (s.setCur t).corrected = s.corrected := rfl
@[simp] theorem State.setCur_alerts (t : Slot) : (s.setCur t).alerts = s.alerts := rfl
@[simp] theorem State.setCur_keysMade (t : Slot) : (s.setCur t).keysMade = s.keysMade := rfl
@[simp] theorem State.setCur_curCore (t : Slot) : (s.setCur t).curCore = s.curCore := rfl
@[simp] theorem State.setCur_curSlot (t : Slot) : (s.setCur t).curSlot = s.curSlot := rfl
@[simp] theorem State.setCur_readout (t : Slot) : (s.setCur t).readout = s.readout := rfl
@[simp] theorem State.setCur_evs (t : Slot) : (s.setCur t).evs = s.evs := rfl
@[simp] theorem State.setCur_free (t : Slot) : (s.setCur t).free = s.free := rfl
@[simp] theorem State.setCur_agenda (t : Slot) : (s.setCur t).agenda = s.agenda := rfl
@[simp] theorem State.setCur_ticks (t : Slot) : (s.setCur t).ticks = s.ticks := rfl

@[simp] theorem State.modCur_mem (f : Slot → Slot) : (s.modCur f).mem = s.mem := rfl
@[simp] theorem State.modCur_wr (f : Slot → Slot) : (s.modCur f).wr = s.wr := rfl
@[simp] theorem State.modCur_clusters (f : Slot → Slot) : (s.modCur f).clusters = s.clusters := rfl
@[simp] theorem State.modCur_parts (f : Slot → Slot) : (s.modCur f).parts = s.parts := rfl
@[simp] theorem State.modCur_ctxs (f : Slot → Slot) : (s.modCur f).ctxs = s.ctxs := rfl
@[simp] theorem State.modCur_saves (f : Slot → Slot) : (s.modCur f).saves = s.saves := rfl
@[simp] theorem State.modCur_lines (f : Slot → Slot) : (s.modCur f).lines = s.lines := rfl
@[simp] theorem State.modCur_net (f : Slot → Slot) : (s.modCur f).net = s.net := rfl
@[simp] theorem State.modCur_fabric (f : Slot → Slot) : (s.modCur f).fabric = s.fabric := rfl
@[simp] theorem State.modCur_plat (f : Slot → Slot) : (s.modCur f).plat = s.plat := rfl
@[simp] theorem State.modCur_time (f : Slot → Slot) : (s.modCur f).time = s.time := rfl
@[simp] theorem State.modCur_corrected (f : Slot → Slot) : (s.modCur f).corrected = s.corrected := rfl
@[simp] theorem State.modCur_alerts (f : Slot → Slot) : (s.modCur f).alerts = s.alerts := rfl
@[simp] theorem State.modCur_keysMade (f : Slot → Slot) : (s.modCur f).keysMade = s.keysMade := rfl
@[simp] theorem State.modCur_curCore (f : Slot → Slot) : (s.modCur f).curCore = s.curCore := rfl
@[simp] theorem State.modCur_curSlot (f : Slot → Slot) : (s.modCur f).curSlot = s.curSlot := rfl
@[simp] theorem State.modCur_readout (f : Slot → Slot) : (s.modCur f).readout = s.readout := rfl
@[simp] theorem State.modCur_evs (f : Slot → Slot) : (s.modCur f).evs = s.evs := rfl
@[simp] theorem State.modCur_free (f : Slot → Slot) : (s.modCur f).free = s.free := rfl
@[simp] theorem State.modCur_agenda (f : Slot → Slot) : (s.modCur f).agenda = s.agenda := rfl
@[simp] theorem State.modCur_ticks (f : Slot → Slot) : (s.modCur f).ticks = s.ticks := rfl

@[simp] theorem State.setCluster_mem (c : Nat) (k : Cluster) : (s.setCluster c k).mem = s.mem := rfl
@[simp] theorem State.setCluster_wr (c : Nat) (k : Cluster) : (s.setCluster c k).wr = s.wr := rfl
@[simp] theorem State.setCluster_cores (c : Nat) (k : Cluster) : (s.setCluster c k).cores = s.cores := rfl
@[simp] theorem State.setCluster_parts (c : Nat) (k : Cluster) : (s.setCluster c k).parts = s.parts := rfl
@[simp] theorem State.setCluster_ctxs (c : Nat) (k : Cluster) : (s.setCluster c k).ctxs = s.ctxs := rfl
@[simp] theorem State.setCluster_saves (c : Nat) (k : Cluster) : (s.setCluster c k).saves = s.saves := rfl
@[simp] theorem State.setCluster_lines (c : Nat) (k : Cluster) : (s.setCluster c k).lines = s.lines := rfl
@[simp] theorem State.setCluster_net (c : Nat) (k : Cluster) : (s.setCluster c k).net = s.net := rfl
@[simp] theorem State.setCluster_fabric (c : Nat) (k : Cluster) : (s.setCluster c k).fabric = s.fabric := rfl
@[simp] theorem State.setCluster_plat (c : Nat) (k : Cluster) : (s.setCluster c k).plat = s.plat := rfl
@[simp] theorem State.setCluster_time (c : Nat) (k : Cluster) : (s.setCluster c k).time = s.time := rfl
@[simp] theorem State.setCluster_corrected (c : Nat) (k : Cluster) : (s.setCluster c k).corrected = s.corrected := rfl
@[simp] theorem State.setCluster_alerts (c : Nat) (k : Cluster) : (s.setCluster c k).alerts = s.alerts := rfl
@[simp] theorem State.setCluster_keysMade (c : Nat) (k : Cluster) : (s.setCluster c k).keysMade = s.keysMade := rfl
@[simp] theorem State.setCluster_curCore (c : Nat) (k : Cluster) : (s.setCluster c k).curCore = s.curCore := rfl
@[simp] theorem State.setCluster_curSlot (c : Nat) (k : Cluster) : (s.setCluster c k).curSlot = s.curSlot := rfl
@[simp] theorem State.setCluster_readout (c : Nat) (k : Cluster) : (s.setCluster c k).readout = s.readout := rfl
@[simp] theorem State.setCluster_evs (c : Nat) (k : Cluster) : (s.setCluster c k).evs = s.evs := rfl
@[simp] theorem State.setCluster_free (c : Nat) (k : Cluster) : (s.setCluster c k).free = s.free := rfl
@[simp] theorem State.setCluster_agenda (c : Nat) (k : Cluster) : (s.setCluster c k).agenda = s.agenda := rfl
@[simp] theorem State.setCluster_ticks (c : Nat) (k : Cluster) : (s.setCluster c k).ticks = s.ticks := rfl

@[simp] theorem State.modCluster_mem (c : Nat) (f : Cluster → Cluster) : (s.modCluster c f).mem = s.mem := rfl
@[simp] theorem State.modCluster_wr (c : Nat) (f : Cluster → Cluster) : (s.modCluster c f).wr = s.wr := rfl
@[simp] theorem State.modCluster_cores (c : Nat) (f : Cluster → Cluster) : (s.modCluster c f).cores = s.cores := rfl
@[simp] theorem State.modCluster_parts (c : Nat) (f : Cluster → Cluster) : (s.modCluster c f).parts = s.parts := rfl
@[simp] theorem State.modCluster_ctxs (c : Nat) (f : Cluster → Cluster) : (s.modCluster c f).ctxs = s.ctxs := rfl
@[simp] theorem State.modCluster_saves (c : Nat) (f : Cluster → Cluster) : (s.modCluster c f).saves = s.saves := rfl
@[simp] theorem State.modCluster_lines (c : Nat) (f : Cluster → Cluster) : (s.modCluster c f).lines = s.lines := rfl
@[simp] theorem State.modCluster_net (c : Nat) (f : Cluster → Cluster) : (s.modCluster c f).net = s.net := rfl
@[simp] theorem State.modCluster_fabric (c : Nat) (f : Cluster → Cluster) : (s.modCluster c f).fabric = s.fabric := rfl
@[simp] theorem State.modCluster_plat (c : Nat) (f : Cluster → Cluster) : (s.modCluster c f).plat = s.plat := rfl
@[simp] theorem State.modCluster_time (c : Nat) (f : Cluster → Cluster) : (s.modCluster c f).time = s.time := rfl
@[simp] theorem State.modCluster_corrected (c : Nat) (f : Cluster → Cluster) : (s.modCluster c f).corrected = s.corrected := rfl
@[simp] theorem State.modCluster_alerts (c : Nat) (f : Cluster → Cluster) : (s.modCluster c f).alerts = s.alerts := rfl
@[simp] theorem State.modCluster_keysMade (c : Nat) (f : Cluster → Cluster) : (s.modCluster c f).keysMade = s.keysMade := rfl
@[simp] theorem State.modCluster_curCore (c : Nat) (f : Cluster → Cluster) : (s.modCluster c f).curCore = s.curCore := rfl
@[simp] theorem State.modCluster_curSlot (c : Nat) (f : Cluster → Cluster) : (s.modCluster c f).curSlot = s.curSlot := rfl
@[simp] theorem State.modCluster_readout (c : Nat) (f : Cluster → Cluster) : (s.modCluster c f).readout = s.readout := rfl
@[simp] theorem State.modCluster_evs (c : Nat) (f : Cluster → Cluster) : (s.modCluster c f).evs = s.evs := rfl
@[simp] theorem State.modCluster_free (c : Nat) (f : Cluster → Cluster) : (s.modCluster c f).free = s.free := rfl
@[simp] theorem State.modCluster_agenda (c : Nat) (f : Cluster → Cluster) : (s.modCluster c f).agenda = s.agenda := rfl
@[simp] theorem State.modCluster_ticks (c : Nat) (f : Cluster → Cluster) : (s.modCluster c f).ticks = s.ticks := rfl

@[simp] theorem State.setPart_mem (p : Nat) (k : Partition) : (s.setPart p k).mem = s.mem := rfl
@[simp] theorem State.setPart_wr (p : Nat) (k : Partition) : (s.setPart p k).wr = s.wr := rfl
@[simp] theorem State.setPart_cores (p : Nat) (k : Partition) : (s.setPart p k).cores = s.cores := rfl
@[simp] theorem State.setPart_clusters (p : Nat) (k : Partition) : (s.setPart p k).clusters = s.clusters := rfl
@[simp] theorem State.setPart_ctxs (p : Nat) (k : Partition) : (s.setPart p k).ctxs = s.ctxs := rfl
@[simp] theorem State.setPart_saves (p : Nat) (k : Partition) : (s.setPart p k).saves = s.saves := rfl
@[simp] theorem State.setPart_lines (p : Nat) (k : Partition) : (s.setPart p k).lines = s.lines := rfl
@[simp] theorem State.setPart_net (p : Nat) (k : Partition) : (s.setPart p k).net = s.net := rfl
@[simp] theorem State.setPart_fabric (p : Nat) (k : Partition) : (s.setPart p k).fabric = s.fabric := rfl
@[simp] theorem State.setPart_plat (p : Nat) (k : Partition) : (s.setPart p k).plat = s.plat := rfl
@[simp] theorem State.setPart_time (p : Nat) (k : Partition) : (s.setPart p k).time = s.time := rfl
@[simp] theorem State.setPart_corrected (p : Nat) (k : Partition) : (s.setPart p k).corrected = s.corrected := rfl
@[simp] theorem State.setPart_alerts (p : Nat) (k : Partition) : (s.setPart p k).alerts = s.alerts := rfl
@[simp] theorem State.setPart_keysMade (p : Nat) (k : Partition) : (s.setPart p k).keysMade = s.keysMade := rfl
@[simp] theorem State.setPart_curCore (p : Nat) (k : Partition) : (s.setPart p k).curCore = s.curCore := rfl
@[simp] theorem State.setPart_curSlot (p : Nat) (k : Partition) : (s.setPart p k).curSlot = s.curSlot := rfl
@[simp] theorem State.setPart_readout (p : Nat) (k : Partition) : (s.setPart p k).readout = s.readout := rfl
@[simp] theorem State.setPart_evs (p : Nat) (k : Partition) : (s.setPart p k).evs = s.evs := rfl
@[simp] theorem State.setPart_free (p : Nat) (k : Partition) : (s.setPart p k).free = s.free := rfl
@[simp] theorem State.setPart_agenda (p : Nat) (k : Partition) : (s.setPart p k).agenda = s.agenda := rfl
@[simp] theorem State.setPart_ticks (p : Nat) (k : Partition) : (s.setPart p k).ticks = s.ticks := rfl

@[simp] theorem State.modPart_mem (p : Nat) (f : Partition → Partition) : (s.modPart p f).mem = s.mem := rfl
@[simp] theorem State.modPart_wr (p : Nat) (f : Partition → Partition) : (s.modPart p f).wr = s.wr := rfl
@[simp] theorem State.modPart_cores (p : Nat) (f : Partition → Partition) : (s.modPart p f).cores = s.cores := rfl
@[simp] theorem State.modPart_clusters (p : Nat) (f : Partition → Partition) : (s.modPart p f).clusters = s.clusters := rfl
@[simp] theorem State.modPart_ctxs (p : Nat) (f : Partition → Partition) : (s.modPart p f).ctxs = s.ctxs := rfl
@[simp] theorem State.modPart_saves (p : Nat) (f : Partition → Partition) : (s.modPart p f).saves = s.saves := rfl
@[simp] theorem State.modPart_lines (p : Nat) (f : Partition → Partition) : (s.modPart p f).lines = s.lines := rfl
@[simp] theorem State.modPart_net (p : Nat) (f : Partition → Partition) : (s.modPart p f).net = s.net := rfl
@[simp] theorem State.modPart_fabric (p : Nat) (f : Partition → Partition) : (s.modPart p f).fabric = s.fabric := rfl
@[simp] theorem State.modPart_plat (p : Nat) (f : Partition → Partition) : (s.modPart p f).plat = s.plat := rfl
@[simp] theorem State.modPart_time (p : Nat) (f : Partition → Partition) : (s.modPart p f).time = s.time := rfl
@[simp] theorem State.modPart_corrected (p : Nat) (f : Partition → Partition) : (s.modPart p f).corrected = s.corrected := rfl
@[simp] theorem State.modPart_alerts (p : Nat) (f : Partition → Partition) : (s.modPart p f).alerts = s.alerts := rfl
@[simp] theorem State.modPart_keysMade (p : Nat) (f : Partition → Partition) : (s.modPart p f).keysMade = s.keysMade := rfl
@[simp] theorem State.modPart_curCore (p : Nat) (f : Partition → Partition) : (s.modPart p f).curCore = s.curCore := rfl
@[simp] theorem State.modPart_curSlot (p : Nat) (f : Partition → Partition) : (s.modPart p f).curSlot = s.curSlot := rfl
@[simp] theorem State.modPart_readout (p : Nat) (f : Partition → Partition) : (s.modPart p f).readout = s.readout := rfl
@[simp] theorem State.modPart_evs (p : Nat) (f : Partition → Partition) : (s.modPart p f).evs = s.evs := rfl
@[simp] theorem State.modPart_free (p : Nat) (f : Partition → Partition) : (s.modPart p f).free = s.free := rfl
@[simp] theorem State.modPart_agenda (p : Nat) (f : Partition → Partition) : (s.modPart p f).agenda = s.agenda := rfl
@[simp] theorem State.modPart_ticks (p : Nat) (f : Partition → Partition) : (s.modPart p f).ticks = s.ticks := rfl

@[simp] theorem State.setCtx_mem (x : Nat) (k : Ctx) : (s.setCtx x k).mem = s.mem := rfl
@[simp] theorem State.setCtx_wr (x : Nat) (k : Ctx) : (s.setCtx x k).wr = s.wr := rfl
@[simp] theorem State.setCtx_cores (x : Nat) (k : Ctx) : (s.setCtx x k).cores = s.cores := rfl
@[simp] theorem State.setCtx_clusters (x : Nat) (k : Ctx) : (s.setCtx x k).clusters = s.clusters := rfl
@[simp] theorem State.setCtx_parts (x : Nat) (k : Ctx) : (s.setCtx x k).parts = s.parts := rfl
@[simp] theorem State.setCtx_saves (x : Nat) (k : Ctx) : (s.setCtx x k).saves = s.saves := rfl
@[simp] theorem State.setCtx_lines (x : Nat) (k : Ctx) : (s.setCtx x k).lines = s.lines := rfl
@[simp] theorem State.setCtx_net (x : Nat) (k : Ctx) : (s.setCtx x k).net = s.net := rfl
@[simp] theorem State.setCtx_fabric (x : Nat) (k : Ctx) : (s.setCtx x k).fabric = s.fabric := rfl
@[simp] theorem State.setCtx_plat (x : Nat) (k : Ctx) : (s.setCtx x k).plat = s.plat := rfl
@[simp] theorem State.setCtx_time (x : Nat) (k : Ctx) : (s.setCtx x k).time = s.time := rfl
@[simp] theorem State.setCtx_corrected (x : Nat) (k : Ctx) : (s.setCtx x k).corrected = s.corrected := rfl
@[simp] theorem State.setCtx_alerts (x : Nat) (k : Ctx) : (s.setCtx x k).alerts = s.alerts := rfl
@[simp] theorem State.setCtx_keysMade (x : Nat) (k : Ctx) : (s.setCtx x k).keysMade = s.keysMade := rfl
@[simp] theorem State.setCtx_curCore (x : Nat) (k : Ctx) : (s.setCtx x k).curCore = s.curCore := rfl
@[simp] theorem State.setCtx_curSlot (x : Nat) (k : Ctx) : (s.setCtx x k).curSlot = s.curSlot := rfl
@[simp] theorem State.setCtx_readout (x : Nat) (k : Ctx) : (s.setCtx x k).readout = s.readout := rfl
@[simp] theorem State.setCtx_evs (x : Nat) (k : Ctx) : (s.setCtx x k).evs = s.evs := rfl
@[simp] theorem State.setCtx_free (x : Nat) (k : Ctx) : (s.setCtx x k).free = s.free := rfl
@[simp] theorem State.setCtx_agenda (x : Nat) (k : Ctx) : (s.setCtx x k).agenda = s.agenda := rfl
@[simp] theorem State.setCtx_ticks (x : Nat) (k : Ctx) : (s.setCtx x k).ticks = s.ticks := rfl

@[simp] theorem State.modCtx_mem (x : Nat) (f : Ctx → Ctx) : (s.modCtx x f).mem = s.mem := rfl
@[simp] theorem State.modCtx_wr (x : Nat) (f : Ctx → Ctx) : (s.modCtx x f).wr = s.wr := rfl
@[simp] theorem State.modCtx_cores (x : Nat) (f : Ctx → Ctx) : (s.modCtx x f).cores = s.cores := rfl
@[simp] theorem State.modCtx_clusters (x : Nat) (f : Ctx → Ctx) : (s.modCtx x f).clusters = s.clusters := rfl
@[simp] theorem State.modCtx_parts (x : Nat) (f : Ctx → Ctx) : (s.modCtx x f).parts = s.parts := rfl
@[simp] theorem State.modCtx_saves (x : Nat) (f : Ctx → Ctx) : (s.modCtx x f).saves = s.saves := rfl
@[simp] theorem State.modCtx_lines (x : Nat) (f : Ctx → Ctx) : (s.modCtx x f).lines = s.lines := rfl
@[simp] theorem State.modCtx_net (x : Nat) (f : Ctx → Ctx) : (s.modCtx x f).net = s.net := rfl
@[simp] theorem State.modCtx_fabric (x : Nat) (f : Ctx → Ctx) : (s.modCtx x f).fabric = s.fabric := rfl
@[simp] theorem State.modCtx_plat (x : Nat) (f : Ctx → Ctx) : (s.modCtx x f).plat = s.plat := rfl
@[simp] theorem State.modCtx_time (x : Nat) (f : Ctx → Ctx) : (s.modCtx x f).time = s.time := rfl
@[simp] theorem State.modCtx_corrected (x : Nat) (f : Ctx → Ctx) : (s.modCtx x f).corrected = s.corrected := rfl
@[simp] theorem State.modCtx_alerts (x : Nat) (f : Ctx → Ctx) : (s.modCtx x f).alerts = s.alerts := rfl
@[simp] theorem State.modCtx_keysMade (x : Nat) (f : Ctx → Ctx) : (s.modCtx x f).keysMade = s.keysMade := rfl
@[simp] theorem State.modCtx_curCore (x : Nat) (f : Ctx → Ctx) : (s.modCtx x f).curCore = s.curCore := rfl
@[simp] theorem State.modCtx_curSlot (x : Nat) (f : Ctx → Ctx) : (s.modCtx x f).curSlot = s.curSlot := rfl
@[simp] theorem State.modCtx_readout (x : Nat) (f : Ctx → Ctx) : (s.modCtx x f).readout = s.readout := rfl
@[simp] theorem State.modCtx_evs (x : Nat) (f : Ctx → Ctx) : (s.modCtx x f).evs = s.evs := rfl
@[simp] theorem State.modCtx_free (x : Nat) (f : Ctx → Ctx) : (s.modCtx x f).free = s.free := rfl
@[simp] theorem State.modCtx_agenda (x : Nat) (f : Ctx → Ctx) : (s.modCtx x f).agenda = s.agenda := rfl
@[simp] theorem State.modCtx_ticks (x : Nat) (f : Ctx → Ctx) : (s.modCtx x f).ticks = s.ticks := rfl

@[simp] theorem State.setLaunch_mem (l : LaunchId) (k : Launch) : (s.setLaunch l k).mem = s.mem := rfl
@[simp] theorem State.setLaunch_wr (l : LaunchId) (k : Launch) : (s.setLaunch l k).wr = s.wr := rfl
@[simp] theorem State.setLaunch_cores (l : LaunchId) (k : Launch) : (s.setLaunch l k).cores = s.cores := rfl
@[simp] theorem State.setLaunch_clusters (l : LaunchId) (k : Launch) : (s.setLaunch l k).clusters = s.clusters := rfl
@[simp] theorem State.setLaunch_parts (l : LaunchId) (k : Launch) : (s.setLaunch l k).parts = s.parts := rfl
@[simp] theorem State.setLaunch_saves (l : LaunchId) (k : Launch) : (s.setLaunch l k).saves = s.saves := rfl
@[simp] theorem State.setLaunch_lines (l : LaunchId) (k : Launch) : (s.setLaunch l k).lines = s.lines := rfl
@[simp] theorem State.setLaunch_net (l : LaunchId) (k : Launch) : (s.setLaunch l k).net = s.net := rfl
@[simp] theorem State.setLaunch_fabric (l : LaunchId) (k : Launch) : (s.setLaunch l k).fabric = s.fabric := rfl
@[simp] theorem State.setLaunch_plat (l : LaunchId) (k : Launch) : (s.setLaunch l k).plat = s.plat := rfl
@[simp] theorem State.setLaunch_time (l : LaunchId) (k : Launch) : (s.setLaunch l k).time = s.time := rfl
@[simp] theorem State.setLaunch_corrected (l : LaunchId) (k : Launch) : (s.setLaunch l k).corrected = s.corrected := rfl
@[simp] theorem State.setLaunch_alerts (l : LaunchId) (k : Launch) : (s.setLaunch l k).alerts = s.alerts := rfl
@[simp] theorem State.setLaunch_keysMade (l : LaunchId) (k : Launch) : (s.setLaunch l k).keysMade = s.keysMade := rfl
@[simp] theorem State.setLaunch_curCore (l : LaunchId) (k : Launch) : (s.setLaunch l k).curCore = s.curCore := rfl
@[simp] theorem State.setLaunch_curSlot (l : LaunchId) (k : Launch) : (s.setLaunch l k).curSlot = s.curSlot := rfl
@[simp] theorem State.setLaunch_readout (l : LaunchId) (k : Launch) : (s.setLaunch l k).readout = s.readout := rfl
@[simp] theorem State.setLaunch_evs (l : LaunchId) (k : Launch) : (s.setLaunch l k).evs = s.evs := rfl
@[simp] theorem State.setLaunch_free (l : LaunchId) (k : Launch) : (s.setLaunch l k).free = s.free := rfl
@[simp] theorem State.setLaunch_agenda (l : LaunchId) (k : Launch) : (s.setLaunch l k).agenda = s.agenda := rfl
@[simp] theorem State.setLaunch_ticks (l : LaunchId) (k : Launch) : (s.setLaunch l k).ticks = s.ticks := rfl

@[simp] theorem State.setLine_mem (a : Nat) (k : Line) : (s.setLine a k).mem = s.mem := rfl
@[simp] theorem State.setLine_wr (a : Nat) (k : Line) : (s.setLine a k).wr = s.wr := rfl
@[simp] theorem State.setLine_cores (a : Nat) (k : Line) : (s.setLine a k).cores = s.cores := rfl
@[simp] theorem State.setLine_clusters (a : Nat) (k : Line) : (s.setLine a k).clusters = s.clusters := rfl
@[simp] theorem State.setLine_parts (a : Nat) (k : Line) : (s.setLine a k).parts = s.parts := rfl
@[simp] theorem State.setLine_ctxs (a : Nat) (k : Line) : (s.setLine a k).ctxs = s.ctxs := rfl
@[simp] theorem State.setLine_saves (a : Nat) (k : Line) : (s.setLine a k).saves = s.saves := rfl
@[simp] theorem State.setLine_net (a : Nat) (k : Line) : (s.setLine a k).net = s.net := rfl
@[simp] theorem State.setLine_fabric (a : Nat) (k : Line) : (s.setLine a k).fabric = s.fabric := rfl
@[simp] theorem State.setLine_plat (a : Nat) (k : Line) : (s.setLine a k).plat = s.plat := rfl
@[simp] theorem State.setLine_time (a : Nat) (k : Line) : (s.setLine a k).time = s.time := rfl
@[simp] theorem State.setLine_corrected (a : Nat) (k : Line) : (s.setLine a k).corrected = s.corrected := rfl
@[simp] theorem State.setLine_alerts (a : Nat) (k : Line) : (s.setLine a k).alerts = s.alerts := rfl
@[simp] theorem State.setLine_keysMade (a : Nat) (k : Line) : (s.setLine a k).keysMade = s.keysMade := rfl
@[simp] theorem State.setLine_curCore (a : Nat) (k : Line) : (s.setLine a k).curCore = s.curCore := rfl
@[simp] theorem State.setLine_curSlot (a : Nat) (k : Line) : (s.setLine a k).curSlot = s.curSlot := rfl
@[simp] theorem State.setLine_readout (a : Nat) (k : Line) : (s.setLine a k).readout = s.readout := rfl
@[simp] theorem State.setLine_evs (a : Nat) (k : Line) : (s.setLine a k).evs = s.evs := rfl
@[simp] theorem State.setLine_free (a : Nat) (k : Line) : (s.setLine a k).free = s.free := rfl
@[simp] theorem State.setLine_agenda (a : Nat) (k : Line) : (s.setLine a k).agenda = s.agenda := rfl
@[simp] theorem State.setLine_ticks (a : Nat) (k : Line) : (s.setLine a k).ticks = s.ticks := rfl

@[simp] theorem State.wrByte_mem (a : Nat) (v : Byte) : (s.wrByte a v).mem = s.mem := rfl
@[simp] theorem State.wrByte_cores (a : Nat) (v : Byte) : (s.wrByte a v).cores = s.cores := rfl
@[simp] theorem State.wrByte_clusters (a : Nat) (v : Byte) : (s.wrByte a v).clusters = s.clusters := rfl
@[simp] theorem State.wrByte_parts (a : Nat) (v : Byte) : (s.wrByte a v).parts = s.parts := rfl
@[simp] theorem State.wrByte_ctxs (a : Nat) (v : Byte) : (s.wrByte a v).ctxs = s.ctxs := rfl
@[simp] theorem State.wrByte_saves (a : Nat) (v : Byte) : (s.wrByte a v).saves = s.saves := rfl
@[simp] theorem State.wrByte_lines (a : Nat) (v : Byte) : (s.wrByte a v).lines = s.lines := rfl
@[simp] theorem State.wrByte_net (a : Nat) (v : Byte) : (s.wrByte a v).net = s.net := rfl
@[simp] theorem State.wrByte_fabric (a : Nat) (v : Byte) : (s.wrByte a v).fabric = s.fabric := rfl
@[simp] theorem State.wrByte_plat (a : Nat) (v : Byte) : (s.wrByte a v).plat = s.plat := rfl
@[simp] theorem State.wrByte_time (a : Nat) (v : Byte) : (s.wrByte a v).time = s.time := rfl
@[simp] theorem State.wrByte_corrected (a : Nat) (v : Byte) : (s.wrByte a v).corrected = s.corrected := rfl
@[simp] theorem State.wrByte_alerts (a : Nat) (v : Byte) : (s.wrByte a v).alerts = s.alerts := rfl
@[simp] theorem State.wrByte_keysMade (a : Nat) (v : Byte) : (s.wrByte a v).keysMade = s.keysMade := rfl
@[simp] theorem State.wrByte_curCore (a : Nat) (v : Byte) : (s.wrByte a v).curCore = s.curCore := rfl
@[simp] theorem State.wrByte_curSlot (a : Nat) (v : Byte) : (s.wrByte a v).curSlot = s.curSlot := rfl
@[simp] theorem State.wrByte_readout (a : Nat) (v : Byte) : (s.wrByte a v).readout = s.readout := rfl
@[simp] theorem State.wrByte_evs (a : Nat) (v : Byte) : (s.wrByte a v).evs = s.evs := rfl
@[simp] theorem State.wrByte_free (a : Nat) (v : Byte) : (s.wrByte a v).free = s.free := rfl
@[simp] theorem State.wrByte_agenda (a : Nat) (v : Byte) : (s.wrByte a v).agenda = s.agenda := rfl
@[simp] theorem State.wrByte_ticks (a : Nat) (v : Byte) : (s.wrByte a v).ticks = s.ticks := rfl

@[simp] theorem State.settleMem_cores : (s.settleMem).cores = s.cores := rfl
@[simp] theorem State.settleMem_clusters : (s.settleMem).clusters = s.clusters := rfl
@[simp] theorem State.settleMem_parts : (s.settleMem).parts = s.parts := rfl
@[simp] theorem State.settleMem_ctxs : (s.settleMem).ctxs = s.ctxs := rfl
@[simp] theorem State.settleMem_saves : (s.settleMem).saves = s.saves := rfl
@[simp] theorem State.settleMem_lines : (s.settleMem).lines = s.lines := rfl
@[simp] theorem State.settleMem_net : (s.settleMem).net = s.net := rfl
@[simp] theorem State.settleMem_fabric : (s.settleMem).fabric = s.fabric := rfl
@[simp] theorem State.settleMem_plat : (s.settleMem).plat = s.plat := rfl
@[simp] theorem State.settleMem_time : (s.settleMem).time = s.time := rfl
@[simp] theorem State.settleMem_corrected : (s.settleMem).corrected = s.corrected := rfl
@[simp] theorem State.settleMem_alerts : (s.settleMem).alerts = s.alerts := rfl
@[simp] theorem State.settleMem_keysMade : (s.settleMem).keysMade = s.keysMade := rfl
@[simp] theorem State.settleMem_curCore : (s.settleMem).curCore = s.curCore := rfl
@[simp] theorem State.settleMem_curSlot : (s.settleMem).curSlot = s.curSlot := rfl
@[simp] theorem State.settleMem_readout : (s.settleMem).readout = s.readout := rfl
@[simp] theorem State.settleMem_evs : (s.settleMem).evs = s.evs := rfl
@[simp] theorem State.settleMem_free : (s.settleMem).free = s.free := rfl
@[simp] theorem State.settleMem_agenda : (s.settleMem).agenda = s.agenda := rfl
@[simp] theorem State.settleMem_ticks : (s.settleMem).ticks = s.ticks := rfl

@[simp] theorem State.nextFree_mem : s.nextFree.2.mem = s.mem := rfl
@[simp] theorem State.nextFree_wr : s.nextFree.2.wr = s.wr := rfl
@[simp] theorem State.nextFree_cores : s.nextFree.2.cores = s.cores := rfl
@[simp] theorem State.nextFree_clusters : s.nextFree.2.clusters = s.clusters := rfl
@[simp] theorem State.nextFree_parts : s.nextFree.2.parts = s.parts := rfl
@[simp] theorem State.nextFree_ctxs : s.nextFree.2.ctxs = s.ctxs := rfl
@[simp] theorem State.nextFree_saves : s.nextFree.2.saves = s.saves := rfl
@[simp] theorem State.nextFree_lines : s.nextFree.2.lines = s.lines := rfl
@[simp] theorem State.nextFree_net : s.nextFree.2.net = s.net := rfl
@[simp] theorem State.nextFree_fabric : s.nextFree.2.fabric = s.fabric := rfl
@[simp] theorem State.nextFree_plat : s.nextFree.2.plat = s.plat := rfl
@[simp] theorem State.nextFree_time : s.nextFree.2.time = s.time := rfl
@[simp] theorem State.nextFree_corrected : s.nextFree.2.corrected = s.corrected := rfl
@[simp] theorem State.nextFree_alerts : s.nextFree.2.alerts = s.alerts := rfl
@[simp] theorem State.nextFree_keysMade : s.nextFree.2.keysMade = s.keysMade := rfl
@[simp] theorem State.nextFree_curCore : s.nextFree.2.curCore = s.curCore := rfl
@[simp] theorem State.nextFree_curSlot : s.nextFree.2.curSlot = s.curSlot := rfl
@[simp] theorem State.nextFree_readout : s.nextFree.2.readout = s.readout := rfl
@[simp] theorem State.nextFree_evs : s.nextFree.2.evs = s.evs := rfl
@[simp] theorem State.nextFree_agenda : s.nextFree.2.agenda = s.agenda := rfl
@[simp] theorem State.nextFree_ticks : s.nextFree.2.ticks = s.ticks := rfl

@[simp] theorem State.nextFree_num : s.nextFree.1 = s.free := rfl
@[simp] theorem State.nextFree_free : s.nextFree.2.free = s.free + 1 := rfl
@[simp] theorem State.settleMem_wr : s.settleMem.wr = [] := rfl
@[simp] theorem State.settleMem_mem : s.settleMem.mem = Memory.writeAll s.mem s.wr := rfl
@[simp] theorem State.wrByte_wr (a : Nat) (v : Byte) : (s.wrByte a v).wr = (a, v) :: s.wr := rfl

/-! ## Records read after they are written -/

theorem State.core_setCore (c d : Nat) (k : Core) : (s.setCore c k).core d = if d = c then k else s.core d := by
  simp only [State.core, State.setCore, Tbl.get?_set]
  split <;> rfl

@[simp] theorem State.core_setCore_self (c : Nat) (k : Core) : (s.setCore c k).core c = k := by simp [State.core_setCore]

theorem State.core_modCore (c d : Nat) (f : Core → Core) :
    (s.modCore c f).core d = if d = c then f (s.core c) else s.core d := State.core_setCore _ _ _ _

@[simp] theorem State.core_modCore_self (c : Nat) (f : Core → Core) : (s.modCore c f).core c = f (s.core c) := by
  simp [State.core_modCore]

theorem Core.slot_setSlot (k : Core) (n m : Nat) (t : Slot) : (k.setSlot n t).slot m = if m = n then t else k.slot m := by
  simp only [Core.slot, Core.setSlot, Tbl.get?_set]
  split <;> rfl

@[simp] theorem Core.slot_setSlot_self (k : Core) (n : Nat) (t : Slot) : (k.setSlot n t).slot n = t := by
  simp [Core.slot_setSlot]

/-- A slot written is the slot read, and no other changes. -/
theorem State.slot_setSlot (c n d m : Nat) (t : Slot) :
    (s.setSlot c n t).slot d m = if d = c ∧ m = n then t else s.slot d m := by
  simp only [State.slot, State.setSlot, State.core_setCore]
  by_cases h : d = c
  · subst h
    simp only [if_pos, Core.slot_setSlot, true_and]
  · simp [h]

@[simp] theorem State.slot_setSlot_self (c n : Nat) (t : Slot) : (s.setSlot c n t).slot c n = t := by
  simp [State.slot_setSlot]

theorem State.slot_modSlot (c n d m : Nat) (f : Slot → Slot) :
    (s.modSlot c n f).slot d m = if d = c ∧ m = n then f (s.slot c n) else s.slot d m := State.slot_setSlot _ _ _ _ _ _

@[simp] theorem State.slot_modSlot_self (c n : Nat) (f : Slot → Slot) : (s.modSlot c n f).slot c n = f (s.slot c n) := by
  simp [State.slot_modSlot]

@[simp] theorem State.cur_setCur (t : Slot) : (s.setCur t).cur = t := by
  simp [State.cur, State.setCur]

@[simp] theorem State.cur_modCur (f : Slot → Slot) : (s.modCur f).cur = f s.cur := State.cur_setCur _ _

/-- A change of a core that leaves its slots alone leaves every slot alone. -/
theorem State.slot_modCore (c d m : Nat) (f : Core → Core) (h : (f (s.core c)).slots = (s.core c).slots) :
    (s.modCore c f).slot d m = s.slot d m := by
  simp only [State.slot, State.core_modCore]
  by_cases hd : d = c
  · subst hd; simp [Core.slot, h]
  · simp [hd]

theorem State.cluster_setCluster (c d : Nat) (k : Cluster) :
    (s.setCluster c k).cluster d = if d = c then k else s.cluster d := by
  simp only [State.cluster, State.setCluster, Tbl.get?_set]
  split <;> rfl

theorem State.cluster_modCluster (c d : Nat) (f : Cluster → Cluster) :
    (s.modCluster c f).cluster d = if d = c then f (s.cluster c) else s.cluster d := State.cluster_setCluster _ _ _ _

@[simp] theorem State.cluster_modCluster_self (c : Nat) (f : Cluster → Cluster) :
    (s.modCluster c f).cluster c = f (s.cluster c) := by simp [State.cluster_modCluster]

theorem State.part_setPart (p q : Nat) (k : Partition) : (s.setPart p k).part q = if q = p then k else s.part q := by
  simp only [State.part, State.setPart, Tbl.get?_set]
  split <;> rfl

@[simp] theorem State.part_setPart_self (p : Nat) (k : Partition) : (s.setPart p k).part p = k := by
  simp [State.part_setPart]

theorem State.part_modPart (p q : Nat) (f : Partition → Partition) :
    (s.modPart p f).part q = if q = p then f (s.part p) else s.part q := State.part_setPart _ _ _ _

@[simp] theorem State.part_modPart_self (p : Nat) (f : Partition → Partition) : (s.modPart p f).part p = f (s.part p) := by
  simp [State.part_modPart]

theorem State.ctx_setCtx (x y : Nat) (k : Ctx) : (s.setCtx x k).ctx y = if y = x then k else s.ctx y := by
  simp only [State.ctx, State.setCtx, Tbl.get?_set]
  split <;> rfl

@[simp] theorem State.ctx_setCtx_self (x : Nat) (k : Ctx) : (s.setCtx x k).ctx x = k := by simp [State.ctx_setCtx]

theorem State.ctx_modCtx (x y : Nat) (f : Ctx → Ctx) : (s.modCtx x f).ctx y = if y = x then f (s.ctx x) else s.ctx y :=
  State.ctx_setCtx _ _ _ _

@[simp] theorem State.ctx_modCtx_self (x : Nat) (f : Ctx → Ctx) : (s.modCtx x f).ctx x = f (s.ctx x) := by
  simp [State.ctx_modCtx]

theorem State.line_setLine (a b : Nat) (k : Line) : (s.setLine a k).line b = if b = a then k else s.line b := by
  simp only [State.line, State.setLine, Tbl.get?_set]
  split <;> rfl

/-- A byte of memory written in the step under way is the byte read, and no other changes. -/
theorem State.rdByte_wrByte (a b : Nat) (v : Byte) : (s.wrByte a v).rdByte b = if b = a then v else s.rdByte b := by
  simp only [State.rdByte, State.wrByte, List.find?_cons]
  by_cases h : a = b
  · simp [h]
  · have h1 : (a == b) = false := by simpa using h
    have h2 : ¬ b = a := fun x => h x.symm
    simp [h1, h2]

/-! ## The boundary of a step -/

@[simp] theorem State.perform_wr (f : State → State) : (State.perform f s).wr = [] := rfl
@[simp] theorem State.perform_plat (f : State → State) : (State.perform f s).plat = s.plat := rfl

/-- Memory after an operation: the bytes it wrote over those that stood there. -/
theorem State.perform_mem (f : State → State) :
    (State.perform f s).mem = Memory.writeAll s.mem (f { s with wr := [] }).wr := rfl

/-- An operation keeps the canonical form of memory. -/
theorem State.perform_wf (f : State → State) (h : Memory.wf s.mem = true) : Memory.wf (State.perform f s).mem = true :=
  Memory.wf_writeAll _ _ h

@[simp] theorem State.perform_cores (f : State → State) : (State.perform f s).cores = (f { s with wr := [] }).cores := rfl
@[simp] theorem State.perform_clusters (f : State → State) : (State.perform f s).clusters = (f { s with wr := [] }).clusters := rfl
@[simp] theorem State.perform_parts (f : State → State) : (State.perform f s).parts = (f { s with wr := [] }).parts := rfl
@[simp] theorem State.perform_ctxs (f : State → State) : (State.perform f s).ctxs = (f { s with wr := [] }).ctxs := rfl
@[simp] theorem State.perform_saves (f : State → State) : (State.perform f s).saves = (f { s with wr := [] }).saves := rfl
@[simp] theorem State.perform_lines (f : State → State) : (State.perform f s).lines = (f { s with wr := [] }).lines := rfl
@[simp] theorem State.perform_net (f : State → State) : (State.perform f s).net = (f { s with wr := [] }).net := rfl
@[simp] theorem State.perform_fabric (f : State → State) : (State.perform f s).fabric = (f { s with wr := [] }).fabric := rfl
@[simp] theorem State.perform_time (f : State → State) : (State.perform f s).time = (f { s with wr := [] }).time := rfl
@[simp] theorem State.perform_corrected (f : State → State) : (State.perform f s).corrected = (f { s with wr := [] }).corrected := rfl
@[simp] theorem State.perform_alerts (f : State → State) : (State.perform f s).alerts = (f { s with wr := [] }).alerts := rfl
@[simp] theorem State.perform_keysMade (f : State → State) : (State.perform f s).keysMade = (f { s with wr := [] }).keysMade := rfl
@[simp] theorem State.perform_curCore (f : State → State) : (State.perform f s).curCore = (f { s with wr := [] }).curCore := rfl
@[simp] theorem State.perform_curSlot (f : State → State) : (State.perform f s).curSlot = (f { s with wr := [] }).curSlot := rfl
@[simp] theorem State.perform_readout (f : State → State) : (State.perform f s).readout = (f { s with wr := [] }).readout := rfl
@[simp] theorem State.perform_evs (f : State → State) : (State.perform f s).evs = (f { s with wr := [] }).evs := rfl
@[simp] theorem State.perform_free (f : State → State) : (State.perform f s).free = (f { s with wr := [] }).free := rfl
@[simp] theorem State.perform_agenda (f : State → State) : (State.perform f s).agenda = (f { s with wr := [] }).agenda := rfl
@[simp] theorem State.perform_ticks (f : State → State) : (State.perform f s).ticks = (f { s with wr := [] }).ticks := rfl
@[simp] theorem State.performPlat_mem (f : Platform → Platform) : (State.performPlat f s).mem = s.mem := rfl
@[simp] theorem State.performPlat_wr (f : Platform → Platform) : (State.performPlat f s).wr = s.wr := rfl
@[simp] theorem State.performPlat_cores (f : Platform → Platform) : (State.performPlat f s).cores = s.cores := rfl
@[simp] theorem State.performPlat_clusters (f : Platform → Platform) : (State.performPlat f s).clusters = s.clusters := rfl
@[simp] theorem State.performPlat_parts (f : Platform → Platform) : (State.performPlat f s).parts = s.parts := rfl
@[simp] theorem State.performPlat_ctxs (f : Platform → Platform) : (State.performPlat f s).ctxs = s.ctxs := rfl
@[simp] theorem State.performPlat_saves (f : Platform → Platform) : (State.performPlat f s).saves = s.saves := rfl
@[simp] theorem State.performPlat_lines (f : Platform → Platform) : (State.performPlat f s).lines = s.lines := rfl
@[simp] theorem State.performPlat_net (f : Platform → Platform) : (State.performPlat f s).net = s.net := rfl
@[simp] theorem State.performPlat_fabric (f : Platform → Platform) : (State.performPlat f s).fabric = s.fabric := rfl
@[simp] theorem State.performPlat_time (f : Platform → Platform) : (State.performPlat f s).time = s.time := rfl
@[simp] theorem State.performPlat_corrected (f : Platform → Platform) : (State.performPlat f s).corrected = s.corrected := rfl
@[simp] theorem State.performPlat_alerts (f : Platform → Platform) : (State.performPlat f s).alerts = s.alerts := rfl
@[simp] theorem State.performPlat_keysMade (f : Platform → Platform) : (State.performPlat f s).keysMade = s.keysMade := rfl
@[simp] theorem State.performPlat_curCore (f : Platform → Platform) : (State.performPlat f s).curCore = s.curCore := rfl
@[simp] theorem State.performPlat_curSlot (f : Platform → Platform) : (State.performPlat f s).curSlot = s.curSlot := rfl
@[simp] theorem State.performPlat_readout (f : Platform → Platform) : (State.performPlat f s).readout = s.readout := rfl
@[simp] theorem State.performPlat_evs (f : Platform → Platform) : (State.performPlat f s).evs = s.evs := rfl
@[simp] theorem State.performPlat_free (f : Platform → Platform) : (State.performPlat f s).free = s.free := rfl
@[simp] theorem State.performPlat_agenda (f : Platform → Platform) : (State.performPlat f s).agenda = s.agenda := rfl
@[simp] theorem State.performPlat_ticks (f : Platform → Platform) : (State.performPlat f s).ticks = s.ticks := rfl
@[simp] theorem State.performPlat_plat (f : Platform → Platform) : (State.performPlat f s).plat = f s.plat := rfl

/-- What the boundary of a step leaves of cores, slots, clusters, partitions and contexts is what the operation made. -/
theorem State.perform_core (f : State → State) (c : Nat) : (State.perform f s).core c = (f { s with wr := [] }).core c := rfl
theorem State.perform_slot (f : State → State) (c n : Nat) : (State.perform f s).slot c n = (f { s with wr := [] }).slot c n := rfl
theorem State.perform_cluster (f : State → State) (c : Nat) :
    (State.perform f s).cluster c = (f { s with wr := [] }).cluster c := rfl
theorem State.perform_part (f : State → State) (p : Nat) : (State.perform f s).part p = (f { s with wr := [] }).part p := rfl
theorem State.perform_ctx (f : State → State) (x : Nat) : (State.perform f s).ctx x = (f { s with wr := [] }).ctx x := rfl

end Machine
end Sys2Proof
end

