-- ==== Sys2Proof/Laws/Issue.lean ====
section
/-! SUPPORT. Laws of the issue of an instruction: what its step leaves when its own effect is known, and what it leaves when
the instruction traps or waits. -/

namespace Sys2Proof
namespace Machine

open Safety

/-! ## A step on a settled state -/

theorem State.perform_fresh (f : State → State) (s : State) (h : s.wr = []) :
    State.perform f s = State.settleMem { f s with mem := s.mem, plat := s.plat } := by
  have e : { s with wr := [] } = s := by cases s; cases h; rfl
  simp [State.perform, e]

theorem cur_running_fresh {s : State} (h : s.wr = []) : { s with wr := [] } = s := by cases s; cases h; rfl

/-! ## Followers -/

/-- What the issue of a leader's instruction changes: the waits, streams and follow states of the slots of its number in its cluster. Its
own slot changes only where it follows. -/
structure Led (c n : Nat) (u t : State) : Prop where
  rest : { t with cores := u.cores } = u
  core : ∀ d, { t.core d with slots := (u.core d).slots } = u.core d
  slot : ∃ f st, t.slot c n = { u.slot c n with follow := f, stream := st }
  alone : (u.slot c n).follow = none → t.slot c n = u.slot c n
  others : ∀ d m, ∃ w f st a, t.slot d m = { u.slot d m with wait := w, follow := f, stream := st, armed := a }
  apart : ∀ d m, m ≠ n ∨ clusterOf d ≠ clusterOf c → t.slot d m = u.slot d m

theorem Led.refl (c n : Nat) (u : State) : Led c n u u :=
  ⟨by cases u; rfl, fun _ => by cases h : u.core _; rfl, ⟨_, _, rfl⟩, fun _ => rfl, fun d m => ⟨_, _, _, _, rfl⟩, fun _ _ _ => rfl⟩

theorem Led.trans {c n : Nat} {u v t : State} (h : Led c n u v) (g : Led c n v t) : Led c n u t := by
  refine ⟨?_, fun d => ?_, ?_, fun hn => ?_, fun d m => ?_, fun d m hd => (g.apart d m hd).trans (h.apart d m hd)⟩
  · have e := h.rest; rw [← g.rest] at e; simpa using e
  · have e := h.core d; rw [← g.core d] at e; simpa using e
  · obtain ⟨f, st, e⟩ := h.slot
    obtain ⟨f', st', e'⟩ := g.slot
    exact ⟨f', st', by rw [e', e]⟩
  · have e := h.alone hn
    exact (g.alone (by rw [e]; exact hn)).trans e
  · obtain ⟨w, f, st, a, e⟩ := h.others d m
    obtain ⟨w', f', st', a', e'⟩ := g.others d m
    exact ⟨w', f', st', a', by rw [e', e]⟩

/-- One slot of the cluster changes what it waits for or follows; the leader's own only when it follows. -/
theorem Led.modSlot (c n k : Nat) (u : State) (f : Slot → Slot) (hc : clusterOf k = clusterOf c)
    (hf : ∀ x : Slot, ∃ w g st a, f x = { x with wait := w, follow := g, stream := st, armed := a })
    (hk : k = c → (u.slot c n).follow ≠ none ∧ ∀ x : Slot, ∃ g st, f x = { x with follow := g, stream := st }) :
    Led c n u (u.modSlot k n f) := by
  refine ⟨by cases u; rfl, fun d => ?_, ?_, fun hn => ?_, fun d m => ?_, fun d m hd => ?_⟩
  · unfold State.modSlot State.setSlot
    rw [State.core_setCore]
    split
    · next h => subst h; cases h : u.core d; rfl
    · cases h : u.core d; rfl
  · rw [State.slot_modSlot]
    split
    · next h =>
      obtain ⟨g, st, e⟩ := (hk h.1.symm).2 (u.slot k n)
      rw [h.1]
      exact ⟨g, st, e⟩
    · exact ⟨_, _, rfl⟩
  · rw [State.slot_modSlot, if_neg]
    exact fun e => (hk e.1.symm).1 hn
  · rw [State.slot_modSlot]
    split
    · next h => obtain ⟨rfl, rfl⟩ := h; exact hf _
    · exact ⟨_, _, _, _, rfl⟩
  · rw [State.slot_modSlot, if_neg]
    rintro ⟨rfl, rfl⟩
    exact hd.elim (fun h => h rfl) (fun h => h hc)

theorem coresOf_cluster {k c : Nat} (h : k ∈ coresOf c) : clusterOf k = c := by
  simp only [coresOf, upto, List.mem_map, List.mem_range] at h
  obtain ⟨i, hi, rfl⟩ := h
  simp only [clusterOf]
  omega

/-- The followers of a core of the cluster leave it. -/
theorem dropFollowers_led (c n k : Nat) (hc : clusterOf k = clusterOf c) (u : State) : Led c n u (u.dropFollowers k n) := by
  unfold State.dropFollowers
  have key : ∀ (l : List Nat), (∀ j ∈ l, clusterOf j = clusterOf c) → ∀ u : State, Led c n u (l.foldl (fun s j =>
      if (s.slot j n).follow = some k then s.modSlot j n fun t => { t with follow := none, stream := [] } else s) u) := by
    intro l
    induction l with
    | nil => exact fun _ u => Led.refl c n u
    | cons j r ih =>
      intro hl u
      rw [List.foldl_cons]
      refine Led.trans ?_ (ih (fun j hj => hl j (List.mem_cons_of_mem _ hj)) _)
      split
      · next h =>
        exact Led.modSlot c n j u _ (hl j List.mem_cons_self) (fun x => ⟨_, _, _, _, rfl⟩)
          fun e => ⟨by subst e; rw [h]; exact Option.some_ne_none k, fun x => ⟨_, _, rfl⟩⟩
      · exact Led.refl c n u
  exact key _ (fun j hj => (coresOf_cluster hj).trans hc) u

theorem leadTo_led (c n : Nat) (j : Instr) (a next : Pc) (k : Nat) (hk : clusterOf k = clusterOf c) (u : State) :
    Led c n u (u.leadTo c n j a next k) := by
  unfold State.leadTo
  dsimp only
  split
  · exact Led.refl c n u
  · next hkc =>
    split
    · split <;> exact Led.modSlot c n k u _ hk (fun x => ⟨_, _, _, _, rfl⟩) fun e => absurd e hkc
    · split
      · exact Led.refl c n u
      · split
        · split
          · exact (dropFollowers_led c n k hk u).trans
              (Led.modSlot c n k _ _ hk (fun x => ⟨_, _, _, _, rfl⟩) fun e => absurd e hkc)
          · exact Led.refl c n u
        · exact Led.refl c n u

theorem lead_led (c n : Nat) (j : Instr) (a next : Pc) (u : State) : Led c n u (u.lead c n j a next) := by
  have key : ∀ (l : List Nat), (∀ k ∈ l, clusterOf k = clusterOf c) → ∀ u : State,
      Led c n u (l.foldl (fun s k => s.leadTo c n j a next k) u) := by
    intro l
    induction l with
    | nil => exact fun _ u => Led.refl c n u
    | cons k r ih =>
      intro hl u
      rw [List.foldl_cons]
      exact (leadTo_led c n j a next k (hl k List.mem_cons_self) u).trans (ih (fun k hk => hl k (List.mem_cons_of_mem _ hk)) _)
  exact key _ (fun k hk => coresOf_cluster hk) u

/-- What keeping to the leader's stream changes: the follow state of the one slot. -/
theorem keepFollowing_eq (c n : Nat) (u : State) :
    (u.keepFollowing c n = u) ∨ ∃ f st, u.keepFollowing c n = u.modSlot c n fun x => { x with follow := f, stream := st } := by
  unfold State.keepFollowing
  dsimp only
  split
  · split
    · next h _ _ _ _ => exact .inr ⟨(u.slot c n).follow, _, by unfold State.modSlot; rfl⟩
    · exact .inr ⟨none, [], rfl⟩
  · exact .inr ⟨none, (u.slot c n).stream, by unfold State.modSlot; rfl⟩
  · exact .inl rfl

theorem keepFollowing_none (c n : Nat) (u : State) (h : (u.slot c n).follow = none) : u.keepFollowing c n = u := by
  unfold State.keepFollowing
  dsimp only
  rw [h]

/-! ## An instruction that takes its effect -/

@[simp] theorem slotAfter_follow (t u : Slot) (j : Instr) (nx : Next) : (slotAfter t j nx u).follow = u.follow := by
  unfold slotAfter advancePc
  dsimp only
  split <;> split <;> (try split) <;> (try split) <;> rfl

theorem retireIns_eq (s u : State) (j : Instr) (nx : Next) (hn : nx ≠ .ended) (hs : sigStops s j nx = false) :
    s.retireIns j u nx =
      (let v := u.modSlot s.curCore s.curSlot (slotAfter s.cur j nx)
       (v.lead s.curCore s.curSlot j s.cur.pc (v.slot s.curCore s.curSlot).pc).keepFollowing s.curCore s.curSlot) := by
  unfold State.retireIns
  extract_lets t c n
  rw [if_neg hn, if_neg (by simpa [sigStops, t] using hs)]

theorem retires (s u : State) (j : Instr) (nx : Next) (hn : nx ≠ .ended) (hs : sigStops s j nx = false) :
    Retires s j u nx (State.settleMem { s.retireIns j u nx with mem := s.mem, plat := s.plat }) := by
  rw [retireIns_eq s u j nx hn hs]
  dsimp only
  generalize hv : u.modSlot s.curCore s.curSlot (slotAfter s.cur j nx) = v
  generalize hp : (v.slot s.curCore s.curSlot).pc = p
  have hl := lead_led s.curCore s.curSlot j s.cur.pc p v
  generalize hL : v.lead s.curCore s.curSlot j s.cur.pc p = l at hl ⊢
  -- the state after the lead, and after the slot's own keeping to its stream
  have hvr : { v with cores := u.cores } = u := by subst hv; cases u; rfl
  have hvc : ∀ d, { v.core d with slots := (u.core d).slots } = u.core d := by
    intro d; subst hv
    unfold State.modSlot State.setSlot
    rw [State.core_setCore]
    split
    · next h => subst h; cases h : u.core s.curCore; rfl
    · cases h : u.core d; rfl
  have hvs : v.slot s.curCore s.curSlot = slotAfter s.cur j nx (u.slot s.curCore s.curSlot) := by
    subst hv; rw [State.slot_modSlot_self]
  have hvo : ∀ d m, (d, m) ≠ (s.curCore, s.curSlot) → v.slot d m = u.slot d m := by
    intro d m h; subst hv
    rw [State.slot_modSlot, if_neg]
    rintro ⟨rfl, rfl⟩; exact h rfl
  have hlr : { l with cores := u.cores } = u := by
    have e := hvr; rw [← hl.rest] at e; simpa using e
  have hlc : ∀ d, { l.core d with slots := (u.core d).slots } = u.core d := by
    intro d; have e := hvc d; rw [← hl.core d] at e; simpa using e
  have hwr : l.wr = u.wr := by rw [← hlr]
  have hls : ∃ f st, l.slot s.curCore s.curSlot =
      { slotAfter s.cur j nx (u.slot s.curCore s.curSlot) with follow := f, stream := st } := by
    obtain ⟨f, st, e⟩ := hl.slot
    exact ⟨f, st, by rw [e, hvs]⟩
  have hla : (u.slot s.curCore s.curSlot).follow = none →
      l.slot s.curCore s.curSlot = slotAfter s.cur j nx (u.slot s.curCore s.curSlot) := fun h =>
    (hl.alone (by rw [hvs, slotAfter_follow, h])).trans hvs
  rcases keepFollowing_eq s.curCore s.curSlot l with hk | ⟨f, st, hk⟩
  · rw [hk]
    refine ⟨by simp [State.settleMem, hwr], rfl, rfl, ?_, fun d => ?_, hls, hla, fun d m hd => ?_, fun d m h hd => ?_⟩
    · rw [← hlr]; rfl
    · exact hlc d
    · obtain ⟨w, g, st, a, e⟩ := hl.others d m
      exact ⟨w, g, st, a, e.trans (by rw [hvo d m hd])⟩
    · exact (hl.apart d m h).trans (hvo d m hd)
  · refine ⟨?_, rfl, rfl, ?_, fun d => ?_, ?_, fun hn => ?_, fun d m hd => ?_, fun d m h hd => ?_⟩
    · rw [hk]; simp [State.settleMem, hwr]
    · rw [hk, ← hlr]; rfl
    · rw [hk]
      have : State.core (State.settleMem { l.modSlot s.curCore s.curSlot (fun x => { x with follow := f, stream := st }) with
          mem := s.mem, plat := s.plat }) d = (l.modSlot s.curCore s.curSlot fun x => { x with follow := f, stream := st }).core d := rfl
      rw [this]
      unfold State.modSlot State.setSlot
      rw [State.core_setCore]
      split
      · next h => subst h; exact hlc _
      · exact hlc d
    · rw [hk]
      obtain ⟨g, x, e⟩ := hls
      refine ⟨f, st, ?_⟩
      have : ∀ x : State, State.slot (State.settleMem { x with mem := s.mem, plat := s.plat }) s.curCore s.curSlot =
        x.slot s.curCore s.curSlot := fun _ => rfl
      rw [this, State.slot_modSlot_self, e]
    · have hf : (l.slot s.curCore s.curSlot).follow = none := by
        rw [hla hn, slotAfter_follow, hn]
      rw [keepFollowing_none _ _ _ hf]
      exact hla hn
    · rw [hk]
      have : ∀ x : State, State.slot (State.settleMem { x with mem := s.mem, plat := s.plat }) d m = x.slot d m := fun _ => rfl
      rw [this, State.slot_modSlot, if_neg (by rintro ⟨rfl, rfl⟩; exact hd rfl)]
      obtain ⟨w, g, st, a, e⟩ := hl.others d m
      exact ⟨w, g, st, a, e.trans (by rw [hvo d m hd])⟩
    · rw [hk]
      have : ∀ x : State, State.slot (State.settleMem { x with mem := s.mem, plat := s.plat }) d m = x.slot d m := fun _ => rfl
      rw [this, State.slot_modSlot, if_neg (by rintro ⟨rfl, rfl⟩; exact hd rfl)]
      exact (hl.apart d m h).trans (hvo d m hd)

/-- An instruction whose effect is known answers the state that the effect and its retirement give. -/
theorem issue_answers {j : Instr} {s u : State} {nx : Next} {body : State → Effect} (h : Ready j s) (hb : body s = .ok (u, nx))
    (hn : nx ≠ .ended) (hs : sigStops s j nx = false) : Answers (issue j body s) (Retires s j u nx) := by
  refine ⟨_, by rw [issue, if_pos h.running], ?_⟩
  rw [State.perform_fresh _ _ h.fresh]
  have : State.issueRun j body s = s.retireIns j u nx := by simp [State.issueRun, h.checks, hb]
  rw [this]
  exact retires s u j nx hn hs

/-- For an instruction that is neither SIG nor a transfer, the checks before its effect cover the signature. -/
theorem sigStops_seq {j : Instr} {s : State} (h : Ready j s) (h1 : isSig j = false) (h2 : preIssue.isTransfer j = false) :
    sigStops s j .seq = false := by
  have hc := h.checks
  by_contra hne
  have hb : sigStops s j .seq = true := by simpa using hne
  have hb' : feeds s.cur = true ∧ backEdge s.cur j = true ∧ sigBad s.cur (crcAfter s.cur j) = true := by
    simpa [sigStops, takenBy, and_assoc] using hb
  obtain ⟨b1, b2, b3⟩ := hb'
  simp only [preIssue, require, h1, h2, b1, b2, b3] at hc
  revert hc
  simp [Bind.bind, Except.bind, trapAt]
  repeat' split
  all_goals simp_all

/-- An instruction stopped by its own checks answers the state of the stop. -/
theorem issue_halts {j : Instr} {s : State} {e : Stop} {body : State → Effect} (h : Ready j s) (hb : body s = .error e) :
    Answers (issue j body s) fun t => t = State.settleMem { s.stopAt j e with mem := s.mem, plat := s.plat } := by
  refine ⟨_, by rw [issue, if_pos h.running], ?_⟩
  rw [State.perform_fresh _ _ h.fresh]
  simp [State.issueRun, h.checks, hb]

/-- An instruction stopped by the checks before its own. -/
theorem issue_halts_early {j : Instr} {s : State} {e : Stop} {body : State → Effect} (hw : s.wr = []) (hr : s.cur.running = true)
    (hb : preIssue s j = .error e) :
    Answers (issue j body s) fun t => t = State.settleMem { s.stopAt j e with mem := s.mem, plat := s.plat } := by
  refine ⟨_, by rw [issue, if_pos hr], ?_⟩
  rw [State.perform_fresh _ _ hw]
  simp [State.issueRun, hb]

/-! ## Destinations -/

/-- A write that may take place has the effect of SetG. -/
theorem writeG_settable {s : State} {d : Reg} (x : W64) (h : settable s d = true) : writeG s d x = .ok (putG s d x) := by
  simp only [settable, Bool.and_eq_true, bne_iff_ne, ne_eq, Bool.or_eq_true, decide_eq_true_eq] at h
  obtain ⟨⟨⟨h1, h2⟩, h3⟩, h4⟩ := h
  have n1 : d.toNat ≠ 28 := fun e => h1 (BitVec.eq_of_toNat_eq e)
  have n2 : d.toNat ≠ 30 := fun e => h2 (BitVec.eq_of_toNat_eq e)
  have n3 : d.toNat ≠ 31 := fun e => h3 (BitVec.eq_of_toNat_eq e)
  unfold writeG putG
  split
  · next e => rw [if_pos (BitVec.eq_of_toNat_eq e)]
  · next e => exact absurd e n1
  · next e =>
    have e' : d = 29 := BitVec.eq_of_toNat_eq e
    subst e'
    rcases h4 with h4 | h4
    · exact absurd rfl h4
    · rw [if_neg (by omega), if_neg (by decide), if_pos rfl]
  · next e => exact absurd e n2
  · next e => exact absurd e n3
  · next h0 _ h29 _ _ =>
    rw [if_neg fun e => h0 (by rw [e]; rfl), if_neg fun e => h29 (by rw [e]; rfl)]

/-- The instructions that compute one register from two. -/
theorem bodyAB_ok {s s1 s2 : State} {d a b : Reg} {x y : W64} (f : W64 → W64 → W64) (ha : readG s a = .ok (s1, x))
    (hb : readG s1 b = .ok (s2, y)) (hd : settable s2 d = true) : bodyAB d a b f s = .ok (putG s2 d (f x y), .seq) := by
  simp [bodyAB, ha, hb, setG, writeG_settable _ hd, Bind.bind, Except.bind]

/-- The instructions that compute one register from one. -/
theorem bodyA_ok {s s1 : State} {d a : Reg} {x : W64} (f : W64 → W64) (ha : readG s a = .ok (s1, x))
    (hd : settable s1 d = true) : bodyA d a f s = .ok (putG s1 d (f x), .seq) := by
  simp [bodyA, ha, setG, writeG_settable _ hd, Bind.bind, Except.bind]

/-- The instructions whose result of two registers arrives later. -/
theorem bodyLate_ok {s s1 s2 : State} {d a b : Reg} {la : Nat} {x y : W64} (f : W64 → W64 → W64) (ha : readG s a = .ok (s1, x))
    (hb : readG s1 b = .ok (s2, y)) : bodyLate d a b la f s = .ok (laterG s2 la [d.toNat] [f x y], .seq) := by
  simp [bodyLate, ha, hb, Bind.bind, Except.bind]

end Machine
end Sys2Proof
end

