-- ==== Sys2Proof/Laws/PerInstr.lean ====
section
/-! SUPPORT. One lemma per constructor of Instr: a well-formed instruction decodes from the bytes of its own word, with every
operand at every value (05_encoding.md R76, R81, R83). Rows without words are not well-formed. -/

set_option linter.unusedSimpArgs false
set_option Elab.async false

namespace Sys2Proof
namespace Laws
namespace RoundTrip

/-- A well-formed instruction is what the bytes of its word decode to, with its length in halfwords. -/
def Statement (j : Instr) : Prop := WellFormed j → decode (bytesOf (encode j).1 (encode j).2) = .ok (j, (encode j).1 / 16)

theorem of32 {j : Instr} {w : Nat} (h : WellFormed j) (he : encode j = (32, w)) (hw : w < 4294967296) (ho : w % 2 = 1)
    (hr : raw32 w = .ok j) : decode (bytesOf (encode j).1 (encode j).2) = .ok (j, (encode j).1 / 16) := by
  simp only [he, Nat.reduceDiv]; exact Codec.decode_word32 w j hw ho hr (Codec.forbidden_none h)

theorem of16 {j : Instr} {w : Nat} (h : WellFormed j) (he : encode j = (16, w)) (hw : w < 65536) (ho : w % 2 = 0)
    (hr : raw16 w = .ok j) : decode (bytesOf (encode j).1 (encode j).2) = .ok (j, (encode j).1 / 16) := by
  simp only [he, Nat.reduceDiv]; exact Codec.decode_word16 w j hw ho hr (Codec.forbidden_none h)

theorem add (d : Reg) (a : Reg) (b : Reg) : Statement (.add d a b) := by
  intro h
  have b_d := d.isLt
  have b_a := a.isLt
  have b_b := b.isLt
  refine of32 h rfl (by omega) (by omega) ?_
  have hz : ¬ (d.toNat = 0 ∧ a.toNat = 0 ∧ b.toNat = 0) := by
    rintro ⟨h1, h2, h3⟩
    have e1 : d = 0 := BitVec.eq_of_toNat_eq h1
    have e2 : a = 0 := BitVec.eq_of_toNat_eq h2
    have e3 : b = 0 := BitVec.eq_of_toNat_eq h3
    subst e1 e2 e3
    exact absurd h (by decide)
  generalize hw : 1 + 256 * d.toNat + 8192 * a.toNat + 262144 * b.toNat = w
  rw [Codec.raw32_00 w (by omega), raw_00,
    if_neg (show ¬ (w / 256 = 0) by omega),
    if_pos (show w / 8388608 = 0 by omega),
    Codec.bits_eq w 256 d (show w / 256 % 32 = _ by omega),
    Codec.bits_eq w 8192 a (show w / 8192 % 32 = _ by omega),
    Codec.bits_eq w 262144 b (show w / 262144 % 32 = _ by omega)]

theorem sub (d : Reg) (a : Reg) (b : Reg) : Statement (.sub d a b) := by
  intro h
  have b_d := d.isLt
  have b_a := a.isLt
  have b_b := b.isLt
  refine of32 h rfl (by omega) (by omega) ?_
  generalize hw : 134217729 + 256 * d.toNat + 8192 * a.toNat + 262144 * b.toNat = w
  have q_8388608 : w / 8388608 = 16 := by omega
  have o_0 : ¬ (w / 256 = 0) := by omega
  rw [Codec.raw32_00 w (by omega)]
  simp only [raw_00, q_8388608, o_0, Nat.reduceEqDiff, OfNat.ofNat_ne_zero, reduceCtorEq, OfNat.zero_ne_ofNat, OfNat.one_ne_ofNat, OfNat.ofNat_ne_one, zero_ne_one, one_ne_zero, ↓reduceIte]
  rw [Codec.bits_eq w 256 d (show w / 256 % 32 = _ by omega),
    Codec.bits_eq w 8192 a (show w / 8192 % 32 = _ by omega),
    Codec.bits_eq w 262144 b (show w / 262144 % 32 = _ by omega)]

theorem andOp (d : Reg) (a : Reg) (b : Reg) : Statement (.andOp d a b) := by
  intro h
  have b_d := d.isLt
  have b_a := a.isLt
  have b_b := b.isLt
  refine of32 h rfl (by omega) (by omega) ?_
  generalize hw : 268435457 + 256 * d.toNat + 8192 * a.toNat + 262144 * b.toNat = w
  have q_8388608 : w / 8388608 = 32 := by omega
  have o_0 : ¬ (w / 256 = 0) := by omega
  rw [Codec.raw32_00 w (by omega)]
  simp only [raw_00, q_8388608, o_0, Nat.reduceEqDiff, OfNat.ofNat_ne_zero, reduceCtorEq, OfNat.zero_ne_ofNat, OfNat.one_ne_ofNat, OfNat.ofNat_ne_one, zero_ne_one, one_ne_zero, ↓reduceIte]
  rw [Codec.bits_eq w 256 d (show w / 256 % 32 = _ by omega),
    Codec.bits_eq w 8192 a (show w / 8192 % 32 = _ by omega),
    Codec.bits_eq w 262144 b (show w / 262144 % 32 = _ by omega)]

theorem orOp (d : Reg) (a : Reg) (b : Reg) : Statement (.orOp d a b) := by
  intro h
  have b_d := d.isLt
  have b_a := a.isLt
  have b_b := b.isLt
  refine of32 h rfl (by omega) (by omega) ?_
  generalize hw : 402653185 + 256 * d.toNat + 8192 * a.toNat + 262144 * b.toNat = w
  have q_8388608 : w / 8388608 = 48 := by omega
  have o_0 : ¬ (w / 256 = 0) := by omega
  rw [Codec.raw32_00 w (by omega)]
  simp only [raw_00, q_8388608, o_0, Nat.reduceEqDiff, OfNat.ofNat_ne_zero, reduceCtorEq, OfNat.zero_ne_ofNat, OfNat.one_ne_ofNat, OfNat.ofNat_ne_one, zero_ne_one, one_ne_zero, ↓reduceIte]
  rw [Codec.bits_eq w 256 d (show w / 256 % 32 = _ by omega),
    Codec.bits_eq w 8192 a (show w / 8192 % 32 = _ by omega),
    Codec.bits_eq w 262144 b (show w / 262144 % 32 = _ by omega)]

theorem xorOp (d : Reg) (a : Reg) (b : Reg) : Statement (.xorOp d a b) := by
  intro h
  have b_d := d.isLt
  have b_a := a.isLt
  have b_b := b.isLt
  refine of32 h rfl (by omega) (by omega) ?_
  generalize hw : 536870913 + 256 * d.toNat + 8192 * a.toNat + 262144 * b.toNat = w
  have q_8388608 : w / 8388608 = 64 := by omega
  have o_0 : ¬ (w / 256 = 0) := by omega
  rw [Codec.raw32_00 w (by omega)]
  simp only [raw_00, q_8388608, o_0, Nat.reduceEqDiff, OfNat.ofNat_ne_zero, reduceCtorEq, OfNat.zero_ne_ofNat, OfNat.one_ne_ofNat, OfNat.ofNat_ne_one, zero_ne_one, one_ne_zero, ↓reduceIte]
  rw [Codec.bits_eq w 256 d (show w / 256 % 32 = _ by omega),
    Codec.bits_eq w 8192 a (show w / 8192 % 32 = _ by omega),
    Codec.bits_eq w 262144 b (show w / 262144 % 32 = _ by omega)]

theorem andn (d : Reg) (a : Reg) (b : Reg) : Statement (.andn d a b) := by
  intro h
  have b_d := d.isLt
  have b_a := a.isLt
  have b_b := b.isLt
  refine of32 h rfl (by omega) (by omega) ?_
  generalize hw : 671088641 + 256 * d.toNat + 8192 * a.toNat + 262144 * b.toNat = w
  have q_8388608 : w / 8388608 = 80 := by omega
  have o_0 : ¬ (w / 256 = 0) := by omega
  rw [Codec.raw32_00 w (by omega)]
  simp only [raw_00, q_8388608, o_0, Nat.reduceEqDiff, OfNat.ofNat_ne_zero, reduceCtorEq, OfNat.zero_ne_ofNat, OfNat.one_ne_ofNat, OfNat.ofNat_ne_one, zero_ne_one, one_ne_zero, ↓reduceIte]
  rw [Codec.bits_eq w 256 d (show w / 256 % 32 = _ by omega),
    Codec.bits_eq w 8192 a (show w / 8192 % 32 = _ by omega),
    Codec.bits_eq w 262144 b (show w / 262144 % 32 = _ by omega)]

theorem shl (d : Reg) (a : Reg) (b : Reg) : Statement (.shl d a b) := by
  intro h
  have b_d := d.isLt
  have b_a := a.isLt
  have b_b := b.isLt
  refine of32 h rfl (by omega) (by omega) ?_
  generalize hw : 805306369 + 256 * d.toNat + 8192 * a.toNat + 262144 * b.toNat = w
  have q_8388608 : w / 8388608 = 96 := by omega
  have o_0 : ¬ (w / 256 = 0) := by omega
  rw [Codec.raw32_00 w (by omega)]
  simp only [raw_00, q_8388608, o_0, Nat.reduceEqDiff, OfNat.ofNat_ne_zero, reduceCtorEq, OfNat.zero_ne_ofNat, OfNat.one_ne_ofNat, OfNat.ofNat_ne_one, zero_ne_one, one_ne_zero, ↓reduceIte]
  rw [Codec.bits_eq w 256 d (show w / 256 % 32 = _ by omega),
    Codec.bits_eq w 8192 a (show w / 8192 % 32 = _ by omega),
    Codec.bits_eq w 262144 b (show w / 262144 % 32 = _ by omega)]

theorem shr (d : Reg) (a : Reg) (b : Reg) : Statement (.shr d a b) := by
  intro h
  have b_d := d.isLt
  have b_a := a.isLt
  have b_b := b.isLt
  refine of32 h rfl (by omega) (by omega) ?_
  generalize hw : 939524097 + 256 * d.toNat + 8192 * a.toNat + 262144 * b.toNat = w
  have q_8388608 : w / 8388608 = 112 := by omega
  have o_0 : ¬ (w / 256 = 0) := by omega
  rw [Codec.raw32_00 w (by omega)]
  simp only [raw_00, q_8388608, o_0, Nat.reduceEqDiff, OfNat.ofNat_ne_zero, reduceCtorEq, OfNat.zero_ne_ofNat, OfNat.one_ne_ofNat, OfNat.ofNat_ne_one, zero_ne_one, one_ne_zero, ↓reduceIte]
  rw [Codec.bits_eq w 256 d (show w / 256 % 32 = _ by omega),
    Codec.bits_eq w 8192 a (show w / 8192 % 32 = _ by omega),
    Codec.bits_eq w 262144 b (show w / 262144 % 32 = _ by omega)]

theorem sha (d : Reg) (a : Reg) (b : Reg) : Statement (.sha d a b) := by
  intro h
  have b_d := d.isLt
  have b_a := a.isLt
  have b_b := b.isLt
  refine of32 h rfl (by omega) (by omega) ?_
  generalize hw : 1073741825 + 256 * d.toNat + 8192 * a.toNat + 262144 * b.toNat = w
  have q_8388608 : w / 8388608 = 128 := by omega
  have o_0 : ¬ (w / 256 = 0) := by omega
  rw [Codec.raw32_00 w (by omega)]
  simp only [raw_00, q_8388608, o_0, Nat.reduceEqDiff, OfNat.ofNat_ne_zero, reduceCtorEq, OfNat.zero_ne_ofNat, OfNat.one_ne_ofNat, OfNat.ofNat_ne_one, zero_ne_one, one_ne_zero, ↓reduceIte]
  rw [Codec.bits_eq w 256 d (show w / 256 % 32 = _ by omega),
    Codec.bits_eq w 8192 a (show w / 8192 % 32 = _ by omega),
    Codec.bits_eq w 262144 b (show w / 262144 % 32 = _ by omega)]

theorem rol (d : Reg) (a : Reg) (b : Reg) : Statement (.rol d a b) := by
  intro h
  have b_d := d.isLt
  have b_a := a.isLt
  have b_b := b.isLt
  refine of32 h rfl (by omega) (by omega) ?_
  generalize hw : 1207959553 + 256 * d.toNat + 8192 * a.toNat + 262144 * b.toNat = w
  have q_8388608 : w / 8388608 = 144 := by omega
  have o_0 : ¬ (w / 256 = 0) := by omega
  rw [Codec.raw32_00 w (by omega)]
  simp only [raw_00, q_8388608, o_0, Nat.reduceEqDiff, OfNat.ofNat_ne_zero, reduceCtorEq, OfNat.zero_ne_ofNat, OfNat.one_ne_ofNat, OfNat.ofNat_ne_one, zero_ne_one, one_ne_zero, ↓reduceIte]
  rw [Codec.bits_eq w 256 d (show w / 256 % 32 = _ by omega),
    Codec.bits_eq w 8192 a (show w / 8192 % 32 = _ by omega),
    Codec.bits_eq w 262144 b (show w / 262144 % 32 = _ by omega)]

theorem min (d : Reg) (a : Reg) (b : Reg) : Statement (.min d a b) := by
  intro h
  have b_d := d.isLt
  have b_a := a.isLt
  have b_b := b.isLt
  refine of32 h rfl (by omega) (by omega) ?_
  generalize hw : 1342177281 + 256 * d.toNat + 8192 * a.toNat + 262144 * b.toNat = w
  have q_8388608 : w / 8388608 = 160 := by omega
  have o_0 : ¬ (w / 256 = 0) := by omega
  rw [Codec.raw32_00 w (by omega)]
  simp only [raw_00, q_8388608, o_0, Nat.reduceEqDiff, OfNat.ofNat_ne_zero, reduceCtorEq, OfNat.zero_ne_ofNat, OfNat.one_ne_ofNat, OfNat.ofNat_ne_one, zero_ne_one, one_ne_zero, ↓reduceIte]
  rw [Codec.bits_eq w 256 d (show w / 256 % 32 = _ by omega),
    Codec.bits_eq w 8192 a (show w / 8192 % 32 = _ by omega),
    Codec.bits_eq w 262144 b (show w / 262144 % 32 = _ by omega)]

theorem max (d : Reg) (a : Reg) (b : Reg) : Statement (.max d a b) := by
  intro h
  have b_d := d.isLt
  have b_a := a.isLt
  have b_b := b.isLt
  refine of32 h rfl (by omega) (by omega) ?_
  generalize hw : 1476395009 + 256 * d.toNat + 8192 * a.toNat + 262144 * b.toNat = w
  have q_8388608 : w / 8388608 = 176 := by omega
  have o_0 : ¬ (w / 256 = 0) := by omega
  rw [Codec.raw32_00 w (by omega)]
  simp only [raw_00, q_8388608, o_0, Nat.reduceEqDiff, OfNat.ofNat_ne_zero, reduceCtorEq, OfNat.zero_ne_ofNat, OfNat.one_ne_ofNat, OfNat.ofNat_ne_one, zero_ne_one, one_ne_zero, ↓reduceIte]
  rw [Codec.bits_eq w 256 d (show w / 256 % 32 = _ by omega),
    Codec.bits_eq w 8192 a (show w / 8192 % 32 = _ by omega),
    Codec.bits_eq w 262144 b (show w / 262144 % 32 = _ by omega)]

theorem minn (d : Reg) (a : Reg) (b : Reg) : Statement (.minn d a b) := by
  intro h
  have b_d := d.isLt
  have b_a := a.isLt
  have b_b := b.isLt
  refine of32 h rfl (by omega) (by omega) ?_
  generalize hw : 1610612737 + 256 * d.toNat + 8192 * a.toNat + 262144 * b.toNat = w
  have q_8388608 : w / 8388608 = 192 := by omega
  have o_0 : ¬ (w / 256 = 0) := by omega
  rw [Codec.raw32_00 w (by omega)]
  simp only [raw_00, q_8388608, o_0, Nat.reduceEqDiff, OfNat.ofNat_ne_zero, reduceCtorEq, OfNat.zero_ne_ofNat, OfNat.one_ne_ofNat, OfNat.ofNat_ne_one, zero_ne_one, one_ne_zero, ↓reduceIte]
  rw [Codec.bits_eq w 256 d (show w / 256 % 32 = _ by omega),
    Codec.bits_eq w 8192 a (show w / 8192 % 32 = _ by omega),
    Codec.bits_eq w 262144 b (show w / 262144 % 32 = _ by omega)]

theorem maxn (d : Reg) (a : Reg) (b : Reg) : Statement (.maxn d a b) := by
  intro h
  have b_d := d.isLt
  have b_a := a.isLt
  have b_b := b.isLt
  refine of32 h rfl (by omega) (by omega) ?_
  generalize hw : 1744830465 + 256 * d.toNat + 8192 * a.toNat + 262144 * b.toNat = w
  have q_8388608 : w / 8388608 = 208 := by omega
  have o_0 : ¬ (w / 256 = 0) := by omega
  rw [Codec.raw32_00 w (by omega)]
  simp only [raw_00, q_8388608, o_0, Nat.reduceEqDiff, OfNat.ofNat_ne_zero, reduceCtorEq, OfNat.zero_ne_ofNat, OfNat.one_ne_ofNat, OfNat.ofNat_ne_one, zero_ne_one, one_ne_zero, ↓reduceIte]
  rw [Codec.bits_eq w 256 d (show w / 256 % 32 = _ by omega),
    Codec.bits_eq w 8192 a (show w / 8192 % 32 = _ by omega),
    Codec.bits_eq w 262144 b (show w / 262144 % 32 = _ by omega)]

theorem slt (d : Reg) (a : Reg) (b : Reg) : Statement (.slt d a b) := by
  intro h
  have b_d := d.isLt
  have b_a := a.isLt
  have b_b := b.isLt
  refine of32 h rfl (by omega) (by omega) ?_
  generalize hw : 1879048193 + 256 * d.toNat + 8192 * a.toNat + 262144 * b.toNat = w
  have q_8388608 : w / 8388608 = 224 := by omega
  have o_0 : ¬ (w / 256 = 0) := by omega
  rw [Codec.raw32_00 w (by omega)]
  simp only [raw_00, q_8388608, o_0, Nat.reduceEqDiff, OfNat.ofNat_ne_zero, reduceCtorEq, OfNat.zero_ne_ofNat, OfNat.one_ne_ofNat, OfNat.ofNat_ne_one, zero_ne_one, one_ne_zero, ↓reduceIte]
  rw [Codec.bits_eq w 256 d (show w / 256 % 32 = _ by omega),
    Codec.bits_eq w 8192 a (show w / 8192 % 32 = _ by omega),
    Codec.bits_eq w 262144 b (show w / 262144 % 32 = _ by omega)]

theorem sltn (d : Reg) (a : Reg) (b : Reg) : Statement (.sltn d a b) := by
  intro h
  have b_d := d.isLt
  have b_a := a.isLt
  have b_b := b.isLt
  refine of32 h rfl (by omega) (by omega) ?_
  generalize hw : 2013265921 + 256 * d.toNat + 8192 * a.toNat + 262144 * b.toNat = w
  have q_8388608 : w / 8388608 = 240 := by omega
  have o_0 : ¬ (w / 256 = 0) := by omega
  rw [Codec.raw32_00 w (by omega)]
  simp only [raw_00, q_8388608, o_0, Nat.reduceEqDiff, OfNat.ofNat_ne_zero, reduceCtorEq, OfNat.zero_ne_ofNat, OfNat.one_ne_ofNat, OfNat.ofNat_ne_one, zero_ne_one, one_ne_zero, ↓reduceIte]
  rw [Codec.bits_eq w 256 d (show w / 256 % 32 = _ by omega),
    Codec.bits_eq w 8192 a (show w / 8192 % 32 = _ by omega),
    Codec.bits_eq w 262144 b (show w / 262144 % 32 = _ by omega)]

theorem seq (d : Reg) (a : Reg) (b : Reg) : Statement (.seq d a b) := by
  intro h
  have b_d := d.isLt
  have b_a := a.isLt
  have b_b := b.isLt
  refine of32 h rfl (by omega) (by omega) ?_
  generalize hw : 2147483649 + 256 * d.toNat + 8192 * a.toNat + 262144 * b.toNat = w
  have q_8388608 : w / 8388608 = 256 := by omega
  have o_0 : ¬ (w / 256 = 0) := by omega
  rw [Codec.raw32_00 w (by omega)]
  simp only [raw_00, q_8388608, o_0, Nat.reduceEqDiff, OfNat.ofNat_ne_zero, reduceCtorEq, OfNat.zero_ne_ofNat, OfNat.one_ne_ofNat, OfNat.ofNat_ne_one, zero_ne_one, one_ne_zero, ↓reduceIte]
  rw [Codec.bits_eq w 256 d (show w / 256 % 32 = _ by omega),
    Codec.bits_eq w 8192 a (show w / 8192 % 32 = _ by omega),
    Codec.bits_eq w 262144 b (show w / 262144 % 32 = _ by omega)]

theorem clz (d : Reg) (a : Reg) : Statement (.clz d a) := by
  intro h
  have b_d := d.isLt
  have b_a := a.isLt
  refine of32 h rfl (by omega) (by omega) ?_
  generalize hw : 2281701377 + 256 * d.toNat + 8192 * a.toNat = w
  have q_8388608 : w / 8388608 = 272 := by omega
  have q_262144 : w / 262144 = 8704 := by omega
  have o_0 : ¬ (w / 256 = 0) := by omega
  rw [Codec.raw32_00 w (by omega)]
  simp only [raw_00, q_8388608, q_262144, o_0, Nat.reduceEqDiff, OfNat.ofNat_ne_zero, reduceCtorEq, OfNat.zero_ne_ofNat, OfNat.one_ne_ofNat, OfNat.ofNat_ne_one, zero_ne_one, one_ne_zero, ↓reduceIte]
  rw [Codec.bits_eq w 256 d (show w / 256 % 32 = _ by omega),
    Codec.bits_eq w 8192 a (show w / 8192 % 32 = _ by omega)]

theorem ctz (d : Reg) (a : Reg) : Statement (.ctz d a) := by
  intro h
  have b_d := d.isLt
  have b_a := a.isLt
  refine of32 h rfl (by omega) (by omega) ?_
  generalize hw : 2415919105 + 256 * d.toNat + 8192 * a.toNat = w
  have q_8388608 : w / 8388608 = 288 := by omega
  have q_262144 : w / 262144 = 9216 := by omega
  have o_0 : ¬ (w / 256 = 0) := by omega
  rw [Codec.raw32_00 w (by omega)]
  simp only [raw_00, q_8388608, q_262144, o_0, Nat.reduceEqDiff, OfNat.ofNat_ne_zero, reduceCtorEq, OfNat.zero_ne_ofNat, OfNat.one_ne_ofNat, OfNat.ofNat_ne_one, zero_ne_one, one_ne_zero, ↓reduceIte]
  rw [Codec.bits_eq w 256 d (show w / 256 % 32 = _ by omega),
    Codec.bits_eq w 8192 a (show w / 8192 % 32 = _ by omega)]

theorem popc (d : Reg) (a : Reg) : Statement (.popc d a) := by
  intro h
  have b_d := d.isLt
  have b_a := a.isLt
  refine of32 h rfl (by omega) (by omega) ?_
  generalize hw : 2550136833 + 256 * d.toNat + 8192 * a.toNat = w
  have q_8388608 : w / 8388608 = 304 := by omega
  have q_262144 : w / 262144 = 9728 := by omega
  have o_0 : ¬ (w / 256 = 0) := by omega
  rw [Codec.raw32_00 w (by omega)]
  simp only [raw_00, q_8388608, q_262144, o_0, Nat.reduceEqDiff, OfNat.ofNat_ne_zero, reduceCtorEq, OfNat.zero_ne_ofNat, OfNat.one_ne_ofNat, OfNat.ofNat_ne_one, zero_ne_one, one_ne_zero, ↓reduceIte]
  rw [Codec.bits_eq w 256 d (show w / 256 % 32 = _ by omega),
    Codec.bits_eq w 8192 a (show w / 8192 % 32 = _ by omega)]

theorem sel (d : Reg) (a : Reg) (b : Reg) : Statement (.sel d a b) := by
  intro h
  have b_d := d.isLt
  have b_a := a.isLt
  have b_b := b.isLt
  refine of32 h rfl (by omega) (by omega) ?_
  generalize hw : 2684354561 + 256 * d.toNat + 8192 * a.toNat + 262144 * b.toNat = w
  have q_8388608 : w / 8388608 = 320 := by omega
  have o_0 : ¬ (w / 256 = 0) := by omega
  have o_1 : ¬ (w / 262144 = 8704) := by omega
  have o_2 : ¬ (w / 262144 = 9216) := by omega
  have o_3 : ¬ (w / 262144 = 9728) := by omega
  rw [Codec.raw32_00 w (by omega)]
  simp only [raw_00, q_8388608, o_0, o_1, o_2, o_3, Nat.reduceEqDiff, OfNat.ofNat_ne_zero, reduceCtorEq, OfNat.zero_ne_ofNat, OfNat.one_ne_ofNat, OfNat.ofNat_ne_one, zero_ne_one, one_ne_zero, ↓reduceIte]
  rw [Codec.bits_eq w 256 d (show w / 256 % 32 = _ by omega),
    Codec.bits_eq w 8192 a (show w / 8192 % 32 = _ by omega),
    Codec.bits_eq w 262144 b (show w / 262144 % 32 = _ by omega)]

theorem nop : Statement (.nop) := by
  intro h
  refine of32 h rfl (by omega) (by omega) ?_
  rw [Codec.raw32_00 1 (by omega), raw_00,
    if_pos (show 1 / 256 = 0 by omega)]

theorem mul (d : Reg) (a : Reg) (b : Reg) (la : BitVec 4) : Statement (.mul d a b la) := by
  intro h
  have b_d := d.isLt
  have b_a := a.isLt
  have b_b := b.isLt
  have b_la := la.isLt
  refine of32 h rfl (by omega) (by omega) ?_
  generalize hw : 3 + 256 * d.toNat + 8192 * a.toNat + 262144 * b.toNat + 8388608 * la.toNat = w
  rw [Codec.raw32_01 w (by omega), raw_01,
    if_pos (show w / 134217728 = 0 by omega),
    Codec.bits_eq w 256 d (show w / 256 % 32 = _ by omega),
    Codec.bits_eq w 8192 a (show w / 8192 % 32 = _ by omega),
    Codec.bits_eq w 262144 b (show w / 262144 % 32 = _ by omega),
    Codec.bits_eq w 8388608 la (show w / 8388608 % 16 = _ by omega)]

theorem mulh (d : Reg) (a : Reg) (b : Reg) (la : BitVec 4) : Statement (.mulh d a b la) := by
  intro h
  have b_d := d.isLt
  have b_a := a.isLt
  have b_b := b.isLt
  have b_la := la.isLt
  refine of32 h rfl (by omega) (by omega) ?_
  generalize hw : 134217731 + 256 * d.toNat + 8192 * a.toNat + 262144 * b.toNat + 8388608 * la.toNat = w
  rw [Codec.raw32_01 w (by omega), raw_01,
    if_neg (show ¬ (w / 134217728 = 0) by omega),
    if_pos (show w / 134217728 = 1 by omega),
    Codec.bits_eq w 256 d (show w / 256 % 32 = _ by omega),
    Codec.bits_eq w 8192 a (show w / 8192 % 32 = _ by omega),
    Codec.bits_eq w 262144 b (show w / 262144 % 32 = _ by omega),
    Codec.bits_eq w 8388608 la (show w / 8388608 % 16 = _ by omega)]

theorem mulhn (d : Reg) (a : Reg) (b : Reg) (la : BitVec 4) : Statement (.mulhn d a b la) := by
  intro h
  have b_d := d.isLt
  have b_a := a.isLt
  have b_b := b.isLt
  have b_la := la.isLt
  refine of32 h rfl (by omega) (by omega) ?_
  generalize hw : 268435459 + 256 * d.toNat + 8192 * a.toNat + 262144 * b.toNat + 8388608 * la.toNat = w
  have q_134217728 : w / 134217728 = 2 := by omega
  rw [Codec.raw32_01 w (by omega)]
  simp only [raw_01, q_134217728, Nat.reduceEqDiff, OfNat.ofNat_ne_zero, reduceCtorEq, OfNat.zero_ne_ofNat, OfNat.one_ne_ofNat, OfNat.ofNat_ne_one, zero_ne_one, one_ne_zero, ↓reduceIte]
  rw [Codec.bits_eq w 256 d (show w / 256 % 32 = _ by omega),
    Codec.bits_eq w 8192 a (show w / 8192 % 32 = _ by omega),
    Codec.bits_eq w 262144 b (show w / 262144 % 32 = _ by omega),
    Codec.bits_eq w 8388608 la (show w / 8388608 % 16 = _ by omega)]

theorem div (d : Reg) (a : Reg) (b : Reg) (la : BitVec 4) : Statement (.div d a b la) := by
  intro h
  have b_d := d.isLt
  have b_a := a.isLt
  have b_b := b.isLt
  have b_la := la.isLt
  refine of32 h rfl (by omega) (by omega) ?_
  generalize hw : 402653187 + 256 * d.toNat + 8192 * a.toNat + 262144 * b.toNat + 8388608 * la.toNat = w
  have q_134217728 : w / 134217728 = 3 := by omega
  rw [Codec.raw32_01 w (by omega)]
  simp only [raw_01, q_134217728, Nat.reduceEqDiff, OfNat.ofNat_ne_zero, reduceCtorEq, OfNat.zero_ne_ofNat, OfNat.one_ne_ofNat, OfNat.ofNat_ne_one, zero_ne_one, one_ne_zero, ↓reduceIte]
  rw [Codec.bits_eq w 256 d (show w / 256 % 32 = _ by omega),
    Codec.bits_eq w 8192 a (show w / 8192 % 32 = _ by omega),
    Codec.bits_eq w 262144 b (show w / 262144 % 32 = _ by omega),
    Codec.bits_eq w 8388608 la (show w / 8388608 % 16 = _ by omega)]

theorem divn (d : Reg) (a : Reg) (b : Reg) (la : BitVec 4) : Statement (.divn d a b la) := by
  intro h
  have b_d := d.isLt
  have b_a := a.isLt
  have b_b := b.isLt
  have b_la := la.isLt
  refine of32 h rfl (by omega) (by omega) ?_
  generalize hw : 536870915 + 256 * d.toNat + 8192 * a.toNat + 262144 * b.toNat + 8388608 * la.toNat = w
  have q_134217728 : w / 134217728 = 4 := by omega
  rw [Codec.raw32_01 w (by omega)]
  simp only [raw_01, q_134217728, Nat.reduceEqDiff, OfNat.ofNat_ne_zero, reduceCtorEq, OfNat.zero_ne_ofNat, OfNat.one_ne_ofNat, OfNat.ofNat_ne_one, zero_ne_one, one_ne_zero, ↓reduceIte]
  rw [Codec.bits_eq w 256 d (show w / 256 % 32 = _ by omega),
    Codec.bits_eq w 8192 a (show w / 8192 % 32 = _ by omega),
    Codec.bits_eq w 262144 b (show w / 262144 % 32 = _ by omega),
    Codec.bits_eq w 8388608 la (show w / 8388608 % 16 = _ by omega)]

theorem rem (d : Reg) (a : Reg) (b : Reg) (la : BitVec 4) : Statement (.rem d a b la) := by
  intro h
  have b_d := d.isLt
  have b_a := a.isLt
  have b_b := b.isLt
  have b_la := la.isLt
  refine of32 h rfl (by omega) (by omega) ?_
  generalize hw : 671088643 + 256 * d.toNat + 8192 * a.toNat + 262144 * b.toNat + 8388608 * la.toNat = w
  have q_134217728 : w / 134217728 = 5 := by omega
  rw [Codec.raw32_01 w (by omega)]
  simp only [raw_01, q_134217728, Nat.reduceEqDiff, OfNat.ofNat_ne_zero, reduceCtorEq, OfNat.zero_ne_ofNat, OfNat.one_ne_ofNat, OfNat.ofNat_ne_one, zero_ne_one, one_ne_zero, ↓reduceIte]
  rw [Codec.bits_eq w 256 d (show w / 256 % 32 = _ by omega),
    Codec.bits_eq w 8192 a (show w / 8192 % 32 = _ by omega),
    Codec.bits_eq w 262144 b (show w / 262144 % 32 = _ by omega),
    Codec.bits_eq w 8388608 la (show w / 8388608 % 16 = _ by omega)]

theorem remn (d : Reg) (a : Reg) (b : Reg) (la : BitVec 4) : Statement (.remn d a b la) := by
  intro h
  have b_d := d.isLt
  have b_a := a.isLt
  have b_b := b.isLt
  have b_la := la.isLt
  refine of32 h rfl (by omega) (by omega) ?_
  generalize hw : 805306371 + 256 * d.toNat + 8192 * a.toNat + 262144 * b.toNat + 8388608 * la.toNat = w
  have q_134217728 : w / 134217728 = 6 := by omega
  rw [Codec.raw32_01 w (by omega)]
  simp only [raw_01, q_134217728, Nat.reduceEqDiff, OfNat.ofNat_ne_zero, reduceCtorEq, OfNat.zero_ne_ofNat, OfNat.one_ne_ofNat, OfNat.ofNat_ne_one, zero_ne_one, one_ne_zero, ↓reduceIte]
  rw [Codec.bits_eq w 256 d (show w / 256 % 32 = _ by omega),
    Codec.bits_eq w 8192 a (show w / 8192 % 32 = _ by omega),
    Codec.bits_eq w 262144 b (show w / 262144 % 32 = _ by omega),
    Codec.bits_eq w 8388608 la (show w / 8388608 % 16 = _ by omega)]

theorem bfx (d : Reg) (a : Reg) (pos : BitVec 6) (wid : BitVec 6) : Statement (.bfx d a pos wid) := by
  intro h
  have b_d := d.isLt
  have b_a := a.isLt
  have b_pos := pos.isLt
  have b_wid := wid.isLt
  refine of32 h rfl (by omega) (by omega) ?_
  generalize hw : 5 + 256 * d.toNat + 8192 * a.toNat + 262144 * pos.toNat + 16777216 * wid.toNat = w
  rw [Codec.raw32_02 w (by omega), raw_02,
    if_pos (show w / 1073741824 = 0 by omega),
    Codec.bits_eq w 256 d (show w / 256 % 32 = _ by omega),
    Codec.bits_eq w 8192 a (show w / 8192 % 32 = _ by omega),
    Codec.bits_eq w 262144 pos (show w / 262144 % 64 = _ by omega),
    Codec.bits_eq w 16777216 wid (show w / 16777216 % 64 = _ by omega)]

theorem bfxs (d : Reg) (a : Reg) (pos : BitVec 6) (wid : BitVec 6) : Statement (.bfxs d a pos wid) := by
  intro h
  have b_d := d.isLt
  have b_a := a.isLt
  have b_pos := pos.isLt
  have b_wid := wid.isLt
  refine of32 h rfl (by omega) (by omega) ?_
  generalize hw : 1073741829 + 256 * d.toNat + 8192 * a.toNat + 262144 * pos.toNat + 16777216 * wid.toNat = w
  rw [Codec.raw32_02 w (by omega), raw_02,
    if_neg (show ¬ (w / 1073741824 = 0) by omega),
    if_pos (show w / 1073741824 = 1 by omega),
    Codec.bits_eq w 256 d (show w / 256 % 32 = _ by omega),
    Codec.bits_eq w 8192 a (show w / 8192 % 32 = _ by omega),
    Codec.bits_eq w 262144 pos (show w / 262144 % 64 = _ by omega),
    Codec.bits_eq w 16777216 wid (show w / 16777216 % 64 = _ by omega)]

theorem bfi (d : Reg) (a : Reg) (pos : BitVec 6) (wid : BitVec 6) : Statement (.bfi d a pos wid) := by
  intro h
  have b_d := d.isLt
  have b_a := a.isLt
  have b_pos := pos.isLt
  have b_wid := wid.isLt
  refine of32 h rfl (by omega) (by omega) ?_
  generalize hw : 2147483653 + 256 * d.toNat + 8192 * a.toNat + 262144 * pos.toNat + 16777216 * wid.toNat = w
  have q_1073741824 : w / 1073741824 = 2 := by omega
  rw [Codec.raw32_02 w (by omega)]
  simp only [raw_02, q_1073741824, Nat.reduceEqDiff, OfNat.ofNat_ne_zero, reduceCtorEq, OfNat.zero_ne_ofNat, OfNat.one_ne_ofNat, OfNat.ofNat_ne_one, zero_ne_one, one_ne_zero, ↓reduceIte]
  rw [Codec.bits_eq w 256 d (show w / 256 % 32 = _ by omega),
    Codec.bits_eq w 8192 a (show w / 8192 % 32 = _ by omega),
    Codec.bits_eq w 262144 pos (show w / 262144 % 64 = _ by omega),
    Codec.bits_eq w 16777216 wid (show w / 16777216 % 64 = _ by omega)]

theorem addi (d : Reg) (a : Reg) (imm : BitVec 14) : Statement (.addi d a imm) := by
  intro h
  have b_d := d.isLt
  have b_a := a.isLt
  have b_imm := imm.isLt
  refine of32 h rfl (by omega) (by omega) ?_
  generalize hw : 7 + 256 * d.toNat + 8192 * a.toNat + 262144 * imm.toNat = w
  rw [Codec.raw32_03 w (by omega), raw_03,
    Codec.bits_eq w 256 d (show w / 256 % 32 = _ by omega),
    Codec.bits_eq w 8192 a (show w / 8192 % 32 = _ by omega),
    Codec.bits_eq w 262144 imm (show w / 262144 % 16384 = _ by omega)]

theorem andi (d : Reg) (a : Reg) (imm : BitVec 14) : Statement (.andi d a imm) := by
  intro h
  have b_d := d.isLt
  have b_a := a.isLt
  have b_imm := imm.isLt
  refine of32 h rfl (by omega) (by omega) ?_
  generalize hw : 9 + 256 * d.toNat + 8192 * a.toNat + 262144 * imm.toNat = w
  rw [Codec.raw32_04 w (by omega), raw_04,
    Codec.bits_eq w 256 d (show w / 256 % 32 = _ by omega),
    Codec.bits_eq w 8192 a (show w / 8192 % 32 = _ by omega),
    Codec.bits_eq w 262144 imm (show w / 262144 % 16384 = _ by omega)]

theorem ori (d : Reg) (a : Reg) (imm : BitVec 14) : Statement (.ori d a imm) := by
  intro h
  have b_d := d.isLt
  have b_a := a.isLt
  have b_imm := imm.isLt
  refine of32 h rfl (by omega) (by omega) ?_
  generalize hw : 11 + 256 * d.toNat + 8192 * a.toNat + 262144 * imm.toNat = w
  rw [Codec.raw32_05 w (by omega), raw_05,
    Codec.bits_eq w 256 d (show w / 256 % 32 = _ by omega),
    Codec.bits_eq w 8192 a (show w / 8192 % 32 = _ by omega),
    Codec.bits_eq w 262144 imm (show w / 262144 % 16384 = _ by omega)]

theorem xori (d : Reg) (a : Reg) (imm : BitVec 14) : Statement (.xori d a imm) := by
  intro h
  have b_d := d.isLt
  have b_a := a.isLt
  have b_imm := imm.isLt
  refine of32 h rfl (by omega) (by omega) ?_
  generalize hw : 13 + 256 * d.toNat + 8192 * a.toNat + 262144 * imm.toNat = w
  rw [Codec.raw32_06 w (by omega), raw_06,
    Codec.bits_eq w 256 d (show w / 256 % 32 = _ by omega),
    Codec.bits_eq w 8192 a (show w / 8192 % 32 = _ by omega),
    Codec.bits_eq w 262144 imm (show w / 262144 % 16384 = _ by omega)]

theorem shli (d : Reg) (a : Reg) (imm : BitVec 6) : Statement (.shli d a imm) := by
  intro h
  have b_d := d.isLt
  have b_a := a.isLt
  have b_imm := imm.isLt
  refine of32 h rfl (by omega) (by omega) ?_
  generalize hw : 15 + 256 * d.toNat + 8192 * a.toNat + 262144 * imm.toNat = w
  rw [Codec.raw32_07 w (by omega), raw_07,
    if_pos (show w / 16777216 = 0 by omega),
    Codec.bits_eq w 256 d (show w / 256 % 32 = _ by omega),
    Codec.bits_eq w 8192 a (show w / 8192 % 32 = _ by omega),
    Codec.bits_eq w 262144 imm (show w / 262144 % 64 = _ by omega)]

theorem shri (d : Reg) (a : Reg) (imm : BitVec 6) : Statement (.shri d a imm) := by
  intro h
  have b_d := d.isLt
  have b_a := a.isLt
  have b_imm := imm.isLt
  refine of32 h rfl (by omega) (by omega) ?_
  generalize hw : 17 + 256 * d.toNat + 8192 * a.toNat + 262144 * imm.toNat = w
  rw [Codec.raw32_08 w (by omega), raw_08,
    if_pos (show w / 16777216 = 0 by omega),
    Codec.bits_eq w 256 d (show w / 256 % 32 = _ by omega),
    Codec.bits_eq w 8192 a (show w / 8192 % 32 = _ by omega),
    Codec.bits_eq w 262144 imm (show w / 262144 % 64 = _ by omega)]

theorem shai (d : Reg) (a : Reg) (imm : BitVec 6) : Statement (.shai d a imm) := by
  intro h
  have b_d := d.isLt
  have b_a := a.isLt
  have b_imm := imm.isLt
  refine of32 h rfl (by omega) (by omega) ?_
  generalize hw : 19 + 256 * d.toNat + 8192 * a.toNat + 262144 * imm.toNat = w
  rw [Codec.raw32_09 w (by omega), raw_09,
    if_pos (show w / 16777216 = 0 by omega),
    Codec.bits_eq w 256 d (show w / 256 % 32 = _ by omega),
    Codec.bits_eq w 8192 a (show w / 8192 % 32 = _ by omega),
    Codec.bits_eq w 262144 imm (show w / 262144 % 64 = _ by omega)]

theorem slti (d : Reg) (a : Reg) (imm : BitVec 14) : Statement (.slti d a imm) := by
  intro h
  have b_d := d.isLt
  have b_a := a.isLt
  have b_imm := imm.isLt
  refine of32 h rfl (by omega) (by omega) ?_
  generalize hw : 21 + 256 * d.toNat + 8192 * a.toNat + 262144 * imm.toNat = w
  rw [Codec.raw32_0a w (by omega), raw_0a,
    Codec.bits_eq w 256 d (show w / 256 % 32 = _ by omega),
    Codec.bits_eq w 8192 a (show w / 8192 % 32 = _ by omega),
    Codec.bits_eq w 262144 imm (show w / 262144 % 16384 = _ by omega)]

theorem li (d : Reg) (imm : BitVec 19) : Statement (.li d imm) := by
  intro h
  have b_d := d.isLt
  have b_imm := imm.isLt
  refine of32 h rfl (by omega) (by omega) ?_
  generalize hw : 23 + 256 * d.toNat + 8192 * imm.toNat = w
  rw [Codec.raw32_0b w (by omega), raw_0b,
    Codec.bits_eq w 256 d (show w / 256 % 32 = _ by omega),
    Codec.bits_eq w 8192 imm (show w / 8192 % 524288 = _ by omega)]

theorem lih (d : Reg) (imm : BitVec 19) : Statement (.lih d imm) := by
  intro h
  have b_d := d.isLt
  have b_imm := imm.isLt
  refine of32 h rfl (by omega) (by omega) ?_
  generalize hw : 25 + 256 * d.toNat + 8192 * imm.toNat = w
  rw [Codec.raw32_0c w (by omega), raw_0c,
    Codec.bits_eq w 256 d (show w / 256 % 32 = _ by omega),
    Codec.bits_eq w 8192 imm (show w / 8192 % 524288 = _ by omega)]

theorem adr (d : Reg) (imm : BitVec 19) : Statement (.adr d imm) := by
  intro h
  have b_d := d.isLt
  have b_imm := imm.isLt
  refine of32 h rfl (by omega) (by omega) ?_
  generalize hw : 27 + 256 * d.toNat + 8192 * imm.toNat = w
  rw [Codec.raw32_0d w (by omega), raw_0d,
    Codec.bits_eq w 256 d (show w / 256 % 32 = _ by omega),
    Codec.bits_eq w 8192 imm (show w / 8192 % 524288 = _ by omega)]

theorem beq (d : Reg) (a : Reg) (off : BitVec 14) : Statement (.beq d a off) := by
  intro h
  have b_d := d.isLt
  have b_a := a.isLt
  have b_off := off.isLt
  refine of32 h rfl (by omega) (by omega) ?_
  generalize hw : 33 + 256 * d.toNat + 8192 * a.toNat + 262144 * off.toNat = w
  rw [Codec.raw32_10 w (by omega), raw_10,
    Codec.bits_eq w 256 d (show w / 256 % 32 = _ by omega),
    Codec.bits_eq w 8192 a (show w / 8192 % 32 = _ by omega),
    Codec.bits_eq w 262144 off (show w / 262144 % 16384 = _ by omega)]

theorem bne (d : Reg) (a : Reg) (off : BitVec 14) : Statement (.bne d a off) := by
  intro h
  have b_d := d.isLt
  have b_a := a.isLt
  have b_off := off.isLt
  refine of32 h rfl (by omega) (by omega) ?_
  generalize hw : 35 + 256 * d.toNat + 8192 * a.toNat + 262144 * off.toNat = w
  rw [Codec.raw32_11 w (by omega), raw_11,
    Codec.bits_eq w 256 d (show w / 256 % 32 = _ by omega),
    Codec.bits_eq w 8192 a (show w / 8192 % 32 = _ by omega),
    Codec.bits_eq w 262144 off (show w / 262144 % 16384 = _ by omega)]

theorem blt (d : Reg) (a : Reg) (off : BitVec 14) : Statement (.blt d a off) := by
  intro h
  have b_d := d.isLt
  have b_a := a.isLt
  have b_off := off.isLt
  refine of32 h rfl (by omega) (by omega) ?_
  generalize hw : 37 + 256 * d.toNat + 8192 * a.toNat + 262144 * off.toNat = w
  rw [Codec.raw32_12 w (by omega), raw_12,
    Codec.bits_eq w 256 d (show w / 256 % 32 = _ by omega),
    Codec.bits_eq w 8192 a (show w / 8192 % 32 = _ by omega),
    Codec.bits_eq w 262144 off (show w / 262144 % 16384 = _ by omega)]

theorem bge (d : Reg) (a : Reg) (off : BitVec 14) : Statement (.bge d a off) := by
  intro h
  have b_d := d.isLt
  have b_a := a.isLt
  have b_off := off.isLt
  refine of32 h rfl (by omega) (by omega) ?_
  generalize hw : 39 + 256 * d.toNat + 8192 * a.toNat + 262144 * off.toNat = w
  rw [Codec.raw32_13 w (by omega), raw_13,
    Codec.bits_eq w 256 d (show w / 256 % 32 = _ by omega),
    Codec.bits_eq w 8192 a (show w / 8192 % 32 = _ by omega),
    Codec.bits_eq w 262144 off (show w / 262144 % 16384 = _ by omega)]

theorem bltn (d : Reg) (a : Reg) (off : BitVec 14) : Statement (.bltn d a off) := by
  intro h
  have b_d := d.isLt
  have b_a := a.isLt
  have b_off := off.isLt
  refine of32 h rfl (by omega) (by omega) ?_
  generalize hw : 41 + 256 * d.toNat + 8192 * a.toNat + 262144 * off.toNat = w
  rw [Codec.raw32_14 w (by omega), raw_14,
    Codec.bits_eq w 256 d (show w / 256 % 32 = _ by omega),
    Codec.bits_eq w 8192 a (show w / 8192 % 32 = _ by omega),
    Codec.bits_eq w 262144 off (show w / 262144 % 16384 = _ by omega)]

theorem bgen (d : Reg) (a : Reg) (off : BitVec 14) : Statement (.bgen d a off) := by
  intro h
  have b_d := d.isLt
  have b_a := a.isLt
  have b_off := off.isLt
  refine of32 h rfl (by omega) (by omega) ?_
  generalize hw : 43 + 256 * d.toNat + 8192 * a.toNat + 262144 * off.toNat = w
  rw [Codec.raw32_15 w (by omega), raw_15,
    Codec.bits_eq w 256 d (show w / 256 % 32 = _ by omega),
    Codec.bits_eq w 8192 a (show w / 8192 % 32 = _ by omega),
    Codec.bits_eq w 262144 off (show w / 262144 % 16384 = _ by omega)]

theorem jmp (off : BitVec 24) : Statement (.jmp off) := by
  intro h
  have b_off := off.isLt
  refine of32 h rfl (by omega) (by omega) ?_
  generalize hw : 45 + 256 * off.toNat = w
  rw [Codec.raw32_16 w (by omega), raw_16,
    Codec.bits_eq w 256 off (show w / 256 % 16777216 = _ by omega)]

theorem jal (off : BitVec 24) : Statement (.jal off) := by
  intro h
  have b_off := off.isLt
  refine of32 h rfl (by omega) (by omega) ?_
  generalize hw : 47 + 256 * off.toNat = w
  rw [Codec.raw32_17 w (by omega), raw_17,
    Codec.bits_eq w 256 off (show w / 256 % 16777216 = _ by omega)]

theorem jalr (d : Reg) (a : Reg) (imm : BitVec 14) : Statement (.jalr d a imm) := by
  intro h
  have b_d := d.isLt
  have b_a := a.isLt
  have b_imm := imm.isLt
  refine of32 h rfl (by omega) (by omega) ?_
  generalize hw : 49 + 256 * d.toNat + 8192 * a.toNat + 262144 * imm.toNat = w
  rw [Codec.raw32_18 w (by omega), raw_18,
    Codec.bits_eq w 256 d (show w / 256 % 32 = _ by omega),
    Codec.bits_eq w 8192 a (show w / 8192 % 32 = _ by omega),
    Codec.bits_eq w 262144 imm (show w / 262144 % 16384 = _ by omega)]

theorem loop (a : Reg) (len : BitVec 8) : Statement (.loop a len) := by
  intro h
  have b_a := a.isLt
  have b_len := len.isLt
  refine of32 h rfl (by omega) (by omega) ?_
  generalize hw : 51 + 8192 * a.toNat + 262144 * len.toNat = w
  rw [Codec.raw32_19 w (by omega), raw_19,
    if_pos (show w / 256 % 32 = 0 ∧ w / 67108864 = 0 by omega),
    Codec.bits_eq w 8192 a (show w / 8192 % 32 = _ by omega),
    Codec.bits_eq w 262144 len (show w / 262144 % 256 = _ by omega)]

theorem endOp : Statement (.endOp) := by
  intro h
  refine of32 h rfl (by omega) (by omega) ?_
  rw [Codec.raw32_1a 53 (by omega), raw_1a,
    if_pos (show 53 / 256 = 0 by omega)]

theorem endd : Statement (.endd) := by
  intro h
  refine of32 h rfl (by omega) (by omega) ?_
  rw [Codec.raw32_1a 134217781 (by omega), raw_1a,
    if_neg (show ¬ (134217781 / 256 = 0) by omega),
    if_pos (show 134217781 / 256 = 524288 by omega)]

theorem cmt : Statement (.cmt) := by
  intro h
  refine of32 h rfl (by omega) (by omega) ?_
  rw [Codec.raw32_1a 268435509 (by omega), raw_1a,
    if_neg (show ¬ (268435509 / 256 = 0) by omega),
    if_neg (show ¬ (268435509 / 256 = 524288) by omega),
    if_pos (show 268435509 / 256 = 1048576 by omega)]

theorem folw : Statement (.folw) := by
  intro h
  refine of32 h rfl (by omega) (by omega) ?_
  rw [Codec.raw32_1a 402653237 (by omega), raw_1a,
    if_neg (show ¬ (402653237 / 256 = 0) by omega),
    if_neg (show ¬ (402653237 / 256 = 524288) by omega),
    if_neg (show ¬ (402653237 / 256 = 1048576) by omega),
    if_pos (show 402653237 / 256 = 1572864 by omega)]

theorem followWaitExpiry (core : Nat) (slot : Nat) : Statement (.followWaitExpiry core slot) := fun h => Bool.noConfusion (show false = true from Codec.has_word h)

theorem sig (sig : BitVec 16) : Statement (.sig sig) := by
  intro h
  have b_sig := sig.isLt
  refine of32 h rfl (by omega) (by omega) ?_
  generalize hw : 55 + 65536 * sig.toNat = w
  rw [Codec.raw32_1b w (by omega), raw_1b,
    if_pos (show w / 256 % 256 = 0 by omega),
    Codec.bits_eq w 65536 sig (show w / 65536 % 65536 = _ by omega)]

theorem sigShort (sig : BitVec 11) : Statement (.sigShort sig) := by
  intro h
  have b_sig := sig.isLt
  refine of32 h rfl (by omega) (by omega) ?_
  generalize hw : 311 + 65536 * sig.toNat = w
  rw [Codec.raw32_1b w (by omega), raw_1b,
    if_neg (show ¬ (w / 256 % 256 = 0) by omega),
    if_pos (show w / 256 % 256 = 1 ∧ w / 134217728 = 0 by omega),
    Codec.bits_eq w 65536 sig (show w / 65536 % 2048 = _ by omega)]

theorem rdc (d : Reg) (num : BitVec 12) : Statement (.rdc d num) := by
  intro h
  have b_d := d.isLt
  have b_num := num.isLt
  refine of32 h rfl (by omega) (by omega) ?_
  generalize hw : 241 + 256 * d.toNat + 262144 * num.toNat = w
  rw [Codec.raw32_78 w (by omega), raw_78,
    if_pos (show w / 8192 % 32 = 0 ∧ w / 1073741824 = 0 by omega),
    Codec.bits_eq w 256 d (show w / 256 % 32 = _ by omega),
    Codec.bits_eq w 262144 num (show w / 262144 % 4096 = _ by omega)]

theorem wrc (a : Reg) (num : BitVec 12) : Statement (.wrc a num) := by
  intro h
  have b_a := a.isLt
  have b_num := num.isLt
  refine of32 h rfl (by omega) (by omega) ?_
  generalize hw : 243 + 8192 * a.toNat + 262144 * num.toNat = w
  rw [Codec.raw32_79 w (by omega), raw_79,
    if_pos (show w / 256 % 32 = 0 ∧ w / 1073741824 = 0 by omega),
    Codec.bits_eq w 8192 a (show w / 8192 % 32 = _ by omega),
    Codec.bits_eq w 262144 num (show w / 262144 % 4096 = _ by omega)]

theorem skipWrite (core : Nat) (slot : Nat) : Statement (.skipWrite core slot) := fun h => Bool.noConfusion (show false = true from Codec.has_word h)

theorem lfsrWrite (v : W64) : Statement (.lfsrWrite v) := fun h => Bool.noConfusion (show false = true from Codec.has_word h)

theorem trap (code : BitVec 14) : Statement (.trap code) := by
  intro h
  have b_code := code.isLt
  refine of32 h rfl (by omega) (by omega) ?_
  generalize hw : 245 + 262144 * code.toNat = w
  rw [Codec.raw32_7a w (by omega), raw_7a,
    if_pos (show w / 256 % 1024 = 0 by omega),
    Codec.bits_eq w 262144 code (show w / 262144 % 16384 = _ by omega)]

theorem bkpt : Statement (.bkpt) := by
  intro h
  refine of32 h rfl (by omega) (by omega) ?_
  rw [Codec.raw32_7b 247 (by omega), raw_7b,
    if_pos (show 247 / 256 = 0 by omega)]

theorem fnci : Statement (.fnci) := by
  intro h
  refine of32 h rfl (by omega) (by omega) ?_
  rw [Codec.raw32_7b 134217975 (by omega), raw_7b,
    if_neg (show ¬ (134217975 / 256 = 0) by omega),
    if_pos (show 134217975 / 256 = 524288 by omega)]

theorem tlbi (a : Reg) (b : Reg) : Statement (.tlbi a b) := by
  intro h
  have b_a := a.isLt
  have b_b := b.isLt
  refine of32 h rfl (by omega) (by omega) ?_
  generalize hw : 249 + 8192 * a.toNat + 262144 * b.toNat = w
  rw [Codec.raw32_7c w (by omega), raw_7c,
    if_pos (show w / 256 % 32 = 0 ∧ w / 8388608 = 0 by omega),
    Codec.bits_eq w 8192 a (show w / 8192 % 32 = _ by omega),
    Codec.bits_eq w 262144 b (show w / 262144 % 32 = _ by omega)]

theorem tlbiComplete (core : Nat) (slot : Nat) : Statement (.tlbiComplete core slot) := fun h => Bool.noConfusion (show false = true from Codec.has_word h)

theorem snap (d : Reg) : Statement (.snap d) := by
  intro h
  have b_d := d.isLt
  refine of32 h rfl (by omega) (by omega) ?_
  generalize hw : 134217977 + 256 * d.toNat = w
  rw [Codec.raw32_7c w (by omega), raw_7c,
    if_neg (show ¬ (w / 256 % 32 = 0 ∧ w / 8388608 = 0) by omega),
    if_pos (show w / 8192 = 16384 by omega),
    Codec.bits_eq w 256 d (show w / 256 % 32 = _ by omega)]

theorem snapFlip (core : Nat) (slot : Nat) : Statement (.snapFlip core slot) := fun h => Bool.noConfusion (show false = true from Codec.has_word h)

theorem dbgh : Statement (.dbgh) := by
  intro h
  refine of32 h rfl (by omega) (by omega) ?_
  rw [Codec.raw32_7c 268435705 (by omega), raw_7c,
    if_neg (show ¬ (268435705 / 256 % 32 = 0 ∧ 268435705 / 8388608 = 0) by omega),
    if_neg (show ¬ (268435705 / 8192 = 16384) by omega),
    if_pos (show 268435705 / 256 = 1048576 by omega)]

theorem synld (a : Reg) (b : Reg) : Statement (.synld a b) := by
  intro h
  have b_a := a.isLt
  have b_b := b.isLt
  refine of32 h rfl (by omega) (by omega) ?_
  generalize hw : 402653433 + 8192 * a.toNat + 262144 * b.toNat = w
  rw [Codec.raw32_7c w (by omega), raw_7c,
    if_neg (show ¬ (w / 256 % 32 = 0 ∧ w / 8388608 = 0) by omega),
    if_neg (show ¬ (w / 8192 = 16384) by omega),
    if_neg (show ¬ (w / 256 = 1048576) by omega),
    if_pos (show w / 256 % 32 = 0 ∧ w / 8388608 = 48 by omega),
    Codec.bits_eq w 8192 a (show w / 8192 % 32 = _ by omega),
    Codec.bits_eq w 262144 b (show w / 262144 % 32 = _ by omega)]

theorem ldB (d : Reg) (a : Reg) (la : BitVec 4) (off : BitVec 10) : Statement (.ldB d a la off) := by
  intro h
  have b_d := d.isLt
  have b_a := a.isLt
  have b_la := la.isLt
  have b_off := off.isLt
  refine of32 h rfl (by omega) (by omega) ?_
  generalize hw : 65 + 256 * d.toNat + 8192 * a.toNat + 262144 * la.toNat + 4194304 * off.toNat = w
  rw [Codec.raw32_20 w (by omega), raw_20,
    Codec.bits_eq w 256 d (show w / 256 % 32 = _ by omega),
    Codec.bits_eq w 8192 a (show w / 8192 % 32 = _ by omega),
    Codec.bits_eq w 262144 la (show w / 262144 % 16 = _ by omega),
    Codec.bits_eq w 4194304 off (show w / 4194304 % 1024 = _ by omega)]

theorem ldH (d : Reg) (a : Reg) (la : BitVec 4) (off : BitVec 10) : Statement (.ldH d a la off) := by
  intro h
  have b_d := d.isLt
  have b_a := a.isLt
  have b_la := la.isLt
  have b_off := off.isLt
  refine of32 h rfl (by omega) (by omega) ?_
  generalize hw : 67 + 256 * d.toNat + 8192 * a.toNat + 262144 * la.toNat + 4194304 * off.toNat = w
  rw [Codec.raw32_21 w (by omega), raw_21,
    Codec.bits_eq w 256 d (show w / 256 % 32 = _ by omega),
    Codec.bits_eq w 8192 a (show w / 8192 % 32 = _ by omega),
    Codec.bits_eq w 262144 la (show w / 262144 % 16 = _ by omega),
    Codec.bits_eq w 4194304 off (show w / 4194304 % 1024 = _ by omega)]

theorem ldW (d : Reg) (a : Reg) (la : BitVec 4) (off : BitVec 10) : Statement (.ldW d a la off) := by
  intro h
  have b_d := d.isLt
  have b_a := a.isLt
  have b_la := la.isLt
  have b_off := off.isLt
  refine of32 h rfl (by omega) (by omega) ?_
  generalize hw : 69 + 256 * d.toNat + 8192 * a.toNat + 262144 * la.toNat + 4194304 * off.toNat = w
  rw [Codec.raw32_22 w (by omega), raw_22,
    Codec.bits_eq w 256 d (show w / 256 % 32 = _ by omega),
    Codec.bits_eq w 8192 a (show w / 8192 % 32 = _ by omega),
    Codec.bits_eq w 262144 la (show w / 262144 % 16 = _ by omega),
    Codec.bits_eq w 4194304 off (show w / 4194304 % 1024 = _ by omega)]

theorem ldD (d : Reg) (a : Reg) (la : BitVec 4) (off : BitVec 10) : Statement (.ldD d a la off) := by
  intro h
  have b_d := d.isLt
  have b_a := a.isLt
  have b_la := la.isLt
  have b_off := off.isLt
  refine of32 h rfl (by omega) (by omega) ?_
  generalize hw : 71 + 256 * d.toNat + 8192 * a.toNat + 262144 * la.toNat + 4194304 * off.toNat = w
  rw [Codec.raw32_23 w (by omega), raw_23,
    Codec.bits_eq w 256 d (show w / 256 % 32 = _ by omega),
    Codec.bits_eq w 8192 a (show w / 8192 % 32 = _ by omega),
    Codec.bits_eq w 262144 la (show w / 262144 % 16 = _ by omega),
    Codec.bits_eq w 4194304 off (show w / 4194304 % 1024 = _ by omega)]

theorem ldBS (d : Reg) (a : Reg) (la : BitVec 4) (off : BitVec 10) : Statement (.ldBS d a la off) := by
  intro h
  have b_d := d.isLt
  have b_a := a.isLt
  have b_la := la.isLt
  have b_off := off.isLt
  refine of32 h rfl (by omega) (by omega) ?_
  generalize hw : 73 + 256 * d.toNat + 8192 * a.toNat + 262144 * la.toNat + 4194304 * off.toNat = w
  rw [Codec.raw32_24 w (by omega), raw_24,
    Codec.bits_eq w 256 d (show w / 256 % 32 = _ by omega),
    Codec.bits_eq w 8192 a (show w / 8192 % 32 = _ by omega),
    Codec.bits_eq w 262144 la (show w / 262144 % 16 = _ by omega),
    Codec.bits_eq w 4194304 off (show w / 4194304 % 1024 = _ by omega)]

theorem ldHS (d : Reg) (a : Reg) (la : BitVec 4) (off : BitVec 10) : Statement (.ldHS d a la off) := by
  intro h
  have b_d := d.isLt
  have b_a := a.isLt
  have b_la := la.isLt
  have b_off := off.isLt
  refine of32 h rfl (by omega) (by omega) ?_
  generalize hw : 75 + 256 * d.toNat + 8192 * a.toNat + 262144 * la.toNat + 4194304 * off.toNat = w
  rw [Codec.raw32_25 w (by omega), raw_25,
    Codec.bits_eq w 256 d (show w / 256 % 32 = _ by omega),
    Codec.bits_eq w 8192 a (show w / 8192 % 32 = _ by omega),
    Codec.bits_eq w 262144 la (show w / 262144 % 16 = _ by omega),
    Codec.bits_eq w 4194304 off (show w / 4194304 % 1024 = _ by omega)]

theorem ldWS (d : Reg) (a : Reg) (la : BitVec 4) (off : BitVec 10) : Statement (.ldWS d a la off) := by
  intro h
  have b_d := d.isLt
  have b_a := a.isLt
  have b_la := la.isLt
  have b_off := off.isLt
  refine of32 h rfl (by omega) (by omega) ?_
  generalize hw : 77 + 256 * d.toNat + 8192 * a.toNat + 262144 * la.toNat + 4194304 * off.toNat = w
  rw [Codec.raw32_26 w (by omega), raw_26,
    Codec.bits_eq w 256 d (show w / 256 % 32 = _ by omega),
    Codec.bits_eq w 8192 a (show w / 8192 % 32 = _ by omega),
    Codec.bits_eq w 262144 la (show w / 262144 % 16 = _ by omega),
    Codec.bits_eq w 4194304 off (show w / 4194304 % 1024 = _ by omega)]

theorem stB (d : Reg) (a : Reg) (off : BitVec 10) : Statement (.stB d a off) := by
  intro h
  have b_d := d.isLt
  have b_a := a.isLt
  have b_off := off.isLt
  refine of32 h rfl (by omega) (by omega) ?_
  generalize hw : 79 + 256 * d.toNat + 8192 * a.toNat + 4194304 * off.toNat = w
  rw [Codec.raw32_27 w (by omega), raw_27,
    if_pos (show w / 262144 % 16 = 0 by omega),
    Codec.bits_eq w 256 d (show w / 256 % 32 = _ by omega),
    Codec.bits_eq w 8192 a (show w / 8192 % 32 = _ by omega),
    Codec.bits_eq w 4194304 off (show w / 4194304 % 1024 = _ by omega)]

theorem stH (d : Reg) (a : Reg) (off : BitVec 10) : Statement (.stH d a off) := by
  intro h
  have b_d := d.isLt
  have b_a := a.isLt
  have b_off := off.isLt
  refine of32 h rfl (by omega) (by omega) ?_
  generalize hw : 81 + 256 * d.toNat + 8192 * a.toNat + 4194304 * off.toNat = w
  rw [Codec.raw32_28 w (by omega), raw_28,
    if_pos (show w / 262144 % 16 = 0 by omega),
    Codec.bits_eq w 256 d (show w / 256 % 32 = _ by omega),
    Codec.bits_eq w 8192 a (show w / 8192 % 32 = _ by omega),
    Codec.bits_eq w 4194304 off (show w / 4194304 % 1024 = _ by omega)]

theorem stW (d : Reg) (a : Reg) (off : BitVec 10) : Statement (.stW d a off) := by
  intro h
  have b_d := d.isLt
  have b_a := a.isLt
  have b_off := off.isLt
  refine of32 h rfl (by omega) (by omega) ?_
  generalize hw : 83 + 256 * d.toNat + 8192 * a.toNat + 4194304 * off.toNat = w
  rw [Codec.raw32_29 w (by omega), raw_29,
    if_pos (show w / 262144 % 16 = 0 by omega),
    Codec.bits_eq w 256 d (show w / 256 % 32 = _ by omega),
    Codec.bits_eq w 8192 a (show w / 8192 % 32 = _ by omega),
    Codec.bits_eq w 4194304 off (show w / 4194304 % 1024 = _ by omega)]

theorem stD (d : Reg) (a : Reg) (off : BitVec 10) : Statement (.stD d a off) := by
  intro h
  have b_d := d.isLt
  have b_a := a.isLt
  have b_off := off.isLt
  refine of32 h rfl (by omega) (by omega) ?_
  generalize hw : 85 + 256 * d.toNat + 8192 * a.toNat + 4194304 * off.toNat = w
  rw [Codec.raw32_2a w (by omega), raw_2a,
    if_pos (show w / 262144 % 16 = 0 by omega),
    Codec.bits_eq w 256 d (show w / 256 % 32 = _ by omega),
    Codec.bits_eq w 8192 a (show w / 8192 % 32 = _ by omega),
    Codec.bits_eq w 4194304 off (show w / 4194304 % 1024 = _ by omega)]

theorem ldp (d : Reg) (a : Reg) (la : BitVec 4) (off : BitVec 10) : Statement (.ldp d a la off) := by
  intro h
  have b_d := d.isLt
  have b_a := a.isLt
  have b_la := la.isLt
  have b_off := off.isLt
  refine of32 h rfl (by omega) (by omega) ?_
  generalize hw : 87 + 256 * d.toNat + 8192 * a.toNat + 262144 * la.toNat + 4194304 * off.toNat = w
  rw [Codec.raw32_2b w (by omega), raw_2b,
    Codec.bits_eq w 256 d (show w / 256 % 32 = _ by omega),
    Codec.bits_eq w 8192 a (show w / 8192 % 32 = _ by omega),
    Codec.bits_eq w 262144 la (show w / 262144 % 16 = _ by omega),
    Codec.bits_eq w 4194304 off (show w / 4194304 % 1024 = _ by omega)]

theorem stp (d : Reg) (a : Reg) (off : BitVec 10) : Statement (.stp d a off) := by
  intro h
  have b_d := d.isLt
  have b_a := a.isLt
  have b_off := off.isLt
  refine of32 h rfl (by omega) (by omega) ?_
  generalize hw : 89 + 256 * d.toNat + 8192 * a.toNat + 4194304 * off.toNat = w
  rw [Codec.raw32_2c w (by omega), raw_2c,
    if_pos (show w / 262144 % 16 = 0 by omega),
    Codec.bits_eq w 256 d (show w / 256 % 32 = _ by omega),
    Codec.bits_eq w 8192 a (show w / 8192 % 32 = _ by omega),
    Codec.bits_eq w 4194304 off (show w / 4194304 % 1024 = _ by omega)]

theorem lds (d : Reg) (a : Reg) (sc : BitVec 2) (la : BitVec 4) (sz : BitVec 2) (sgn : BitVec 1) (ord : BitVec 1) : Statement (.lds d a sc la sz sgn ord) := by
  intro h
  have b_d := d.isLt
  have b_a := a.isLt
  have b_sc := sc.isLt
  have b_la := la.isLt
  have b_sz := sz.isLt
  have b_sgn := sgn.isLt
  have b_ord := ord.isLt
  refine of32 h rfl (by omega) (by omega) ?_
  generalize hw : 91 + 256 * d.toNat + 8192 * a.toNat + 262144 * sc.toNat + 8388608 * la.toNat + 134217728 * sz.toNat + 536870912 * sgn.toNat + 1073741824 * ord.toNat = w
  rw [Codec.raw32_2d w (by omega), raw_2d,
    if_pos (show w / 1048576 % 8 = 0 ∧ w / 2147483648 = 0 by omega),
    Codec.bits_eq w 256 d (show w / 256 % 32 = _ by omega),
    Codec.bits_eq w 8192 a (show w / 8192 % 32 = _ by omega),
    Codec.bits_eq w 262144 sc (show w / 262144 % 4 = _ by omega),
    Codec.bits_eq w 8388608 la (show w / 8388608 % 16 = _ by omega),
    Codec.bits_eq w 134217728 sz (show w / 134217728 % 4 = _ by omega),
    Codec.bits_eq w 536870912 sgn (show w / 536870912 % 2 = _ by omega),
    Codec.bits_eq w 1073741824 ord (show w / 1073741824 % 2 = _ by omega)]

theorem sts (d : Reg) (a : Reg) (sc : BitVec 2) (sz : BitVec 2) (ord : BitVec 1) : Statement (.sts d a sc sz ord) := by
  intro h
  have b_d := d.isLt
  have b_a := a.isLt
  have b_sc := sc.isLt
  have b_sz := sz.isLt
  have b_ord := ord.isLt
  refine of32 h rfl (by omega) (by omega) ?_
  generalize hw : 2147483739 + 256 * d.toNat + 8192 * a.toNat + 262144 * sc.toNat + 134217728 * sz.toNat + 536870912 * ord.toNat = w
  rw [Codec.raw32_2d w (by omega), raw_2d,
    if_neg (show ¬ (w / 1048576 % 8 = 0 ∧ w / 2147483648 = 0) by omega),
    if_pos (show w / 1048576 % 128 = 0 ∧ w / 1073741824 = 2 by omega),
    Codec.bits_eq w 256 d (show w / 256 % 32 = _ by omega),
    Codec.bits_eq w 8192 a (show w / 8192 % 32 = _ by omega),
    Codec.bits_eq w 262144 sc (show w / 262144 % 4 = _ by omega),
    Codec.bits_eq w 134217728 sz (show w / 134217728 % 4 = _ by omega),
    Codec.bits_eq w 536870912 ord (show w / 536870912 % 2 = _ by omega)]

theorem fnc (kinds : BitVec 4) (sc : BitVec 2) : Statement (.fnc kinds sc) := by
  intro h
  have b_kinds := kinds.isLt
  have b_sc := sc.isLt
  refine of32 h rfl (by omega) (by omega) ?_
  generalize hw : 3221225563 + 256 * kinds.toNat + 262144 * sc.toNat = w
  rw [Codec.raw32_2d w (by omega), raw_2d,
    if_neg (show ¬ (w / 1048576 % 8 = 0 ∧ w / 2147483648 = 0) by omega),
    if_neg (show ¬ (w / 1048576 % 128 = 0 ∧ w / 1073741824 = 2) by omega),
    if_pos (show w / 4096 % 64 = 0 ∧ w / 1048576 = 3072 by omega),
    Codec.bits_eq w 256 kinds (show w / 256 % 16 = _ by omega),
    Codec.bits_eq w 262144 sc (show w / 262144 % 4 = _ by omega)]

theorem pfx (a : Reg) (sc : BitVec 2) : Statement (.pfx a sc) := by
  intro h
  have b_a := a.isLt
  have b_sc := sc.isLt
  refine of32 h rfl (by omega) (by omega) ?_
  generalize hw : 3355443291 + 8192 * a.toNat + 262144 * sc.toNat = w
  rw [Codec.raw32_2d w (by omega), raw_2d,
    if_neg (show ¬ (w / 1048576 % 8 = 0 ∧ w / 2147483648 = 0) by omega),
    if_neg (show ¬ (w / 1048576 % 128 = 0 ∧ w / 1073741824 = 2) by omega),
    if_neg (show ¬ (w / 4096 % 64 = 0 ∧ w / 1048576 = 3072) by omega),
    if_pos (show w / 256 % 32 = 0 ∧ w / 1048576 = 3200 by omega),
    Codec.bits_eq w 8192 a (show w / 8192 % 32 = _ by omega),
    Codec.bits_eq w 262144 sc (show w / 262144 % 4 = _ by omega)]

theorem cln (a : Reg) (sc : BitVec 2) : Statement (.cln a sc) := by
  intro h
  have b_a := a.isLt
  have b_sc := sc.isLt
  refine of32 h rfl (by omega) (by omega) ?_
  generalize hw : 3489661019 + 8192 * a.toNat + 262144 * sc.toNat = w
  rw [Codec.raw32_2d w (by omega), raw_2d,
    if_neg (show ¬ (w / 1048576 % 8 = 0 ∧ w / 2147483648 = 0) by omega),
    if_neg (show ¬ (w / 1048576 % 128 = 0 ∧ w / 1073741824 = 2) by omega),
    if_neg (show ¬ (w / 4096 % 64 = 0 ∧ w / 1048576 = 3072) by omega),
    if_neg (show ¬ (w / 256 % 32 = 0 ∧ w / 1048576 = 3200) by omega),
    if_pos (show w / 256 % 32 = 0 ∧ w / 1048576 = 3328 by omega),
    Codec.bits_eq w 8192 a (show w / 8192 % 32 = _ by omega),
    Codec.bits_eq w 262144 sc (show w / 262144 % 4 = _ by omega)]

theorem invl (a : Reg) (sc : BitVec 2) : Statement (.invl a sc) := by
  intro h
  have b_a := a.isLt
  have b_sc := sc.isLt
  refine of32 h rfl (by omega) (by omega) ?_
  generalize hw : 3623878747 + 8192 * a.toNat + 262144 * sc.toNat = w
  rw [Codec.raw32_2d w (by omega), raw_2d,
    if_neg (show ¬ (w / 1048576 % 8 = 0 ∧ w / 2147483648 = 0) by omega),
    if_neg (show ¬ (w / 1048576 % 128 = 0 ∧ w / 1073741824 = 2) by omega),
    if_neg (show ¬ (w / 4096 % 64 = 0 ∧ w / 1048576 = 3072) by omega),
    if_neg (show ¬ (w / 256 % 32 = 0 ∧ w / 1048576 = 3200) by omega),
    if_neg (show ¬ (w / 256 % 32 = 0 ∧ w / 1048576 = 3328) by omega),
    if_pos (show w / 256 % 32 = 0 ∧ w / 1048576 = 3456 by omega),
    Codec.bits_eq w 8192 a (show w / 8192 % 32 = _ by omega),
    Codec.bits_eq w 262144 sc (show w / 262144 % 4 = _ by omega)]

theorem tmad (d : Reg) (a : Reg) (b : Reg) (la : BitVec 4) : Statement (.tmad d a b la) := by
  intro h
  have b_d := d.isLt
  have b_a := a.isLt
  have b_b := b.isLt
  have b_la := la.isLt
  refine of32 h rfl (by omega) (by omega) ?_
  generalize hw : 113 + 256 * d.toNat + 8192 * a.toNat + 262144 * b.toNat + 8388608 * la.toNat = w
  rw [Codec.raw32_38 w (by omega), raw_38,
    if_pos (show w / 134217728 = 0 by omega),
    Codec.bits_eq w 256 d (show w / 256 % 32 = _ by omega),
    Codec.bits_eq w 8192 a (show w / 8192 % 32 = _ by omega),
    Codec.bits_eq w 262144 b (show w / 262144 % 32 = _ by omega),
    Codec.bits_eq w 8388608 la (show w / 8388608 % 16 = _ by omega)]

theorem amo (d : Reg) (a : Reg) (b : Reg) (la : BitVec 4) (op : BitVec 4) (sz : BitVec 1) : Statement (.amo d a b la op sz) := by
  intro h
  have b_d := d.isLt
  have b_a := a.isLt
  have b_b := b.isLt
  have b_la := la.isLt
  have b_op := op.isLt
  have b_sz := sz.isLt
  refine of32 h rfl (by omega) (by omega) ?_
  generalize hw : 93 + 256 * d.toNat + 8192 * a.toNat + 262144 * b.toNat + 8388608 * la.toNat + 134217728 * op.toNat + 2147483648 * sz.toNat = w
  rw [Codec.raw32_2e w (by omega), raw_2e,
    Codec.bits_eq w 256 d (show w / 256 % 32 = _ by omega),
    Codec.bits_eq w 8192 a (show w / 8192 % 32 = _ by omega),
    Codec.bits_eq w 262144 b (show w / 262144 % 32 = _ by omega),
    Codec.bits_eq w 8388608 la (show w / 8388608 % 16 = _ by omega),
    Codec.bits_eq w 134217728 op (show w / 134217728 % 16 = _ by omega),
    Codec.bits_eq w 2147483648 sz (show w / 2147483648 % 2 = _ by omega)]

theorem amop (a : Reg) (b : Reg) (op : BitVec 4) (sz : BitVec 1) : Statement (.amop a b op sz) := by
  intro h
  have b_a := a.isLt
  have b_b := b.isLt
  have b_op := op.isLt
  have b_sz := sz.isLt
  refine of32 h rfl (by omega) (by omega) ?_
  have hf := Codec.forbidden_none h
  have hop : op.toNat < 12 := Codec.amop_op hf
  generalize hw : 95 + 8192 * a.toNat + 262144 * b.toNat + 134217728 * op.toNat + 2147483648 * sz.toNat = w
  rw [Codec.raw32_2f w (by omega), raw_2f,
    if_pos (show w / 256 % 32 = 0 ∧ w / 8388608 % 16 = 0 ∧ w / 536870912 % 4 ≠ 3 by omega),
    Codec.bits_eq w 8192 a (show w / 8192 % 32 = _ by omega),
    Codec.bits_eq w 262144 b (show w / 262144 % 32 = _ by omega),
    Codec.bits_eq w 134217728 op (show w / 134217728 % 16 = _ by omega),
    Codec.bits_eq w 2147483648 sz (show w / 2147483648 % 2 = _ by omega)]

theorem red (a : Reg) (b : Reg) (op : BitVec 2) (sz : BitVec 1) : Statement (.red a b op sz) := by
  intro h
  have b_a := a.isLt
  have b_b := b.isLt
  have b_op := op.isLt
  have b_sz := sz.isLt
  refine of32 h rfl (by omega) (by omega) ?_
  generalize hw : 1610612831 + 8192 * a.toNat + 262144 * b.toNat + 134217728 * op.toNat + 2147483648 * sz.toNat = w
  rw [Codec.raw32_2f w (by omega), raw_2f,
    if_neg (show ¬ (w / 256 % 32 = 0 ∧ w / 8388608 % 16 = 0 ∧ w / 536870912 % 4 ≠ 3) by omega),
    if_pos (show w / 256 % 32 = 0 ∧ w / 8388608 % 16 = 0 ∧ w / 536870912 % 4 = 3 by omega),
    Codec.bits_eq w 8192 a (show w / 8192 % 32 = _ by omega),
    Codec.bits_eq w 262144 b (show w / 262144 % 32 = _ by omega),
    Codec.bits_eq w 134217728 op (show w / 134217728 % 4 = _ by omega),
    Codec.bits_eq w 2147483648 sz (show w / 2147483648 % 2 = _ by omega)]

theorem send (d : Reg) (a : Reg) (b : Reg) : Statement (.send d a b) := by
  intro h
  have b_d := d.isLt
  have b_a := a.isLt
  have b_b := b.isLt
  refine of32 h rfl (by omega) (by omega) ?_
  generalize hw : 97 + 256 * d.toNat + 8192 * a.toNat + 262144 * b.toNat = w
  rw [Codec.raw32_30 w (by omega), raw_30,
    if_pos (show w / 8388608 = 0 by omega),
    Codec.bits_eq w 256 d (show w / 256 % 32 = _ by omega),
    Codec.bits_eq w 8192 a (show w / 8192 % 32 = _ by omega),
    Codec.bits_eq w 262144 b (show w / 262144 % 32 = _ by omega)]

theorem sendk (d : Reg) (a : Reg) (cls : BitVec 6) (bnc : BitVec 6) : Statement (.sendk d a cls bnc) := by
  intro h
  have b_d := d.isLt
  have b_a := a.isLt
  have b_cls := cls.isLt
  have b_bnc := bnc.isLt
  refine of32 h rfl (by omega) (by omega) ?_
  generalize hw : 99 + 256 * d.toNat + 8192 * a.toNat + 262144 * cls.toNat + 16777216 * bnc.toNat = w
  rw [Codec.raw32_31 w (by omega), raw_31,
    if_pos (show w / 1073741824 = 0 by omega),
    Codec.bits_eq w 256 d (show w / 256 % 32 = _ by omega),
    Codec.bits_eq w 8192 a (show w / 8192 % 32 = _ by omega),
    Codec.bits_eq w 262144 cls (show w / 262144 % 64 = _ by omega),
    Codec.bits_eq w 16777216 bnc (show w / 16777216 % 64 = _ by omega)]

theorem sendx (d : Reg) (a : Reg) (b : Reg) : Statement (.sendx d a b) := by
  intro h
  have b_d := d.isLt
  have b_a := a.isLt
  have b_b := b.isLt
  refine of32 h rfl (by omega) (by omega) ?_
  generalize hw : 101 + 256 * d.toNat + 8192 * a.toNat + 262144 * b.toNat = w
  rw [Codec.raw32_32 w (by omega), raw_32,
    if_pos (show w / 8388608 = 0 by omega),
    Codec.bits_eq w 256 d (show w / 256 % 32 = _ by omega),
    Codec.bits_eq w 8192 a (show w / 8192 % 32 = _ by omega),
    Codec.bits_eq w 262144 b (show w / 262144 % 32 = _ by omega)]

theorem spwn (d : Reg) (a : Reg) (b : Reg) (la : BitVec 4) : Statement (.spwn d a b la) := by
  intro h
  have b_d := d.isLt
  have b_a := a.isLt
  have b_b := b.isLt
  have b_la := la.isLt
  refine of32 h rfl (by omega) (by omega) ?_
  generalize hw : 103 + 256 * d.toNat + 8192 * a.toNat + 262144 * b.toNat + 8388608 * la.toNat = w
  rw [Codec.raw32_33 w (by omega), raw_33,
    if_pos (show w / 134217728 = 0 by omega),
    Codec.bits_eq w 256 d (show w / 256 % 32 = _ by omega),
    Codec.bits_eq w 8192 a (show w / 8192 % 32 = _ by omega),
    Codec.bits_eq w 262144 b (show w / 262144 % 32 = _ by omega),
    Codec.bits_eq w 8388608 la (show w / 8388608 % 16 = _ by omega)]

theorem rdx (a : Reg) : Statement (.rdx a) := by
  intro h
  have b_a := a.isLt
  refine of32 h rfl (by omega) (by omega) ?_
  generalize hw : 105 + 8192 * a.toNat = w
  rw [Codec.raw32_34 w (by omega), raw_34,
    if_pos (show w / 256 % 32 = 0 ∧ w / 262144 = 0 by omega),
    Codec.bits_eq w 8192 a (show w / 8192 % 32 = _ by omega)]

theorem deq (d : Reg) (la : BitVec 4) : Statement (.deq d la) := by
  intro h
  have b_d := d.isLt
  have b_la := la.isLt
  refine of32 h rfl (by omega) (by omega) ?_
  generalize hw : 107 + 256 * d.toNat + 8388608 * la.toNat = w
  rw [Codec.raw32_35 w (by omega), raw_35,
    if_pos (show w / 8192 % 1024 = 0 ∧ w / 134217728 = 0 by omega),
    Codec.bits_eq w 256 d (show w / 256 % 32 = _ by omega),
    Codec.bits_eq w 8388608 la (show w / 8388608 % 16 = _ by omega)]

theorem mxq (a : Reg) : Statement (.mxq a) := by
  intro h
  have b_a := a.isLt
  refine of32 h rfl (by omega) (by omega) ?_
  generalize hw : 109 + 8192 * a.toNat = w
  rw [Codec.raw32_36 w (by omega), raw_36,
    if_pos (show w / 256 % 32 = 0 ∧ w / 262144 = 0 by omega),
    Codec.bits_eq w 8192 a (show w / 8192 % 32 = _ by omega)]

theorem mxqt (d : Reg) (a : Reg) (la : BitVec 4) : Statement (.mxqt d a la) := by
  intro h
  have b_d := d.isLt
  have b_a := a.isLt
  have b_la := la.isLt
  refine of32 h rfl (by omega) (by omega) ?_
  generalize hw : 134217837 + 256 * d.toNat + 8192 * a.toNat + 8388608 * la.toNat = w
  rw [Codec.raw32_36 w (by omega), raw_36,
    if_neg (show ¬ (w / 256 % 32 = 0 ∧ w / 262144 = 0) by omega),
    if_pos (show w / 262144 % 32 = 0 ∧ w / 134217728 = 1 by omega),
    Codec.bits_eq w 256 d (show w / 256 % 32 = _ by omega),
    Codec.bits_eq w 8192 a (show w / 8192 % 32 = _ by omega),
    Codec.bits_eq w 8388608 la (show w / 8388608 % 16 = _ by omega)]

theorem cpq (d : Reg) (a : Reg) (la : BitVec 4) : Statement (.cpq d a la) := by
  intro h
  have b_d := d.isLt
  have b_a := a.isLt
  have b_la := la.isLt
  refine of32 h rfl (by omega) (by omega) ?_
  generalize hw : 111 + 256 * d.toNat + 8192 * a.toNat + 8388608 * la.toNat = w
  rw [Codec.raw32_37 w (by omega), raw_37,
    if_pos (show w / 262144 % 32 = 0 ∧ w / 134217728 = 0 by omega),
    Codec.bits_eq w 256 d (show w / 256 % 32 = _ by omega),
    Codec.bits_eq w 8192 a (show w / 8192 % 32 = _ by omega),
    Codec.bits_eq w 8388608 la (show w / 8388608 % 16 = _ by omega)]

theorem cpqt (d : Reg) (a : Reg) (la : BitVec 4) : Statement (.cpqt d a la) := by
  intro h
  have b_d := d.isLt
  have b_a := a.isLt
  have b_la := la.isLt
  refine of32 h rfl (by omega) (by omega) ?_
  generalize hw : 134217839 + 256 * d.toNat + 8192 * a.toNat + 8388608 * la.toNat = w
  rw [Codec.raw32_37 w (by omega), raw_37,
    if_neg (show ¬ (w / 262144 % 32 = 0 ∧ w / 134217728 = 0) by omega),
    if_pos (show w / 262144 % 32 = 0 ∧ w / 134217728 = 1 by omega),
    Codec.bits_eq w 256 d (show w / 256 % 32 = _ by omega),
    Codec.bits_eq w 8192 a (show w / 8192 % 32 = _ by omega),
    Codec.bits_eq w 8388608 la (show w / 8388608 % 16 = _ by omega)]

theorem wknx (d : Reg) (a : Reg) (la : BitVec 4) : Statement (.wknx d a la) := by
  intro h
  have b_d := d.isLt
  have b_a := a.isLt
  have b_la := la.isLt
  refine of32 h rfl (by omega) (by omega) ?_
  generalize hw : 119 + 256 * d.toNat + 8192 * a.toNat + 8388608 * la.toNat = w
  rw [Codec.raw32_3b w (by omega), raw_3b,
    if_pos (show w / 262144 % 32 = 0 ∧ w / 134217728 = 0 by omega),
    Codec.bits_eq w 256 d (show w / 256 % 32 = _ by omega),
    Codec.bits_eq w 8192 a (show w / 8192 % 32 = _ by omega),
    Codec.bits_eq w 8388608 la (show w / 8388608 % 16 = _ by omega)]

theorem clv (d : Reg) (a : Reg) (la : BitVec 4) : Statement (.clv d a la) := by
  intro h
  have b_d := d.isLt
  have b_a := a.isLt
  have b_la := la.isLt
  refine of32 h rfl (by omega) (by omega) ?_
  generalize hw : 134217847 + 256 * d.toNat + 8192 * a.toNat + 8388608 * la.toNat = w
  rw [Codec.raw32_3b w (by omega), raw_3b,
    if_neg (show ¬ (w / 262144 % 32 = 0 ∧ w / 134217728 = 0) by omega),
    if_pos (show w / 262144 % 32 = 0 ∧ w / 134217728 = 1 by omega),
    Codec.bits_eq w 256 d (show w / 256 % 32 = _ by omega),
    Codec.bits_eq w 8192 a (show w / 8192 % 32 = _ by omega),
    Codec.bits_eq w 8388608 la (show w / 8388608 % 16 = _ by omega)]

theorem wkrd (d : Reg) (a : Reg) (b : Reg) (la : BitVec 4) : Statement (.wkrd d a b la) := by
  intro h
  have b_d := d.isLt
  have b_a := a.isLt
  have b_b := b.isLt
  have b_la := la.isLt
  refine of32 h rfl (by omega) (by omega) ?_
  generalize hw : 268435575 + 256 * d.toNat + 8192 * a.toNat + 262144 * b.toNat + 8388608 * la.toNat = w
  rw [Codec.raw32_3b w (by omega), raw_3b,
    if_neg (show ¬ (w / 262144 % 32 = 0 ∧ w / 134217728 = 0) by omega),
    if_neg (show ¬ (w / 262144 % 32 = 0 ∧ w / 134217728 = 1) by omega),
    if_pos (show w / 134217728 = 2 by omega),
    Codec.bits_eq w 256 d (show w / 256 % 32 = _ by omega),
    Codec.bits_eq w 8192 a (show w / 8192 % 32 = _ by omega),
    Codec.bits_eq w 262144 b (show w / 262144 % 32 = _ by omega),
    Codec.bits_eq w 8388608 la (show w / 8388608 % 16 = _ by omega)]

theorem lnch (d : Reg) (a : Reg) (b : Reg) : Statement (.lnch d a b) := by
  intro h
  have b_d := d.isLt
  have b_a := a.isLt
  have b_b := b.isLt
  refine of32 h rfl (by omega) (by omega) ?_
  generalize hw : 121 + 256 * d.toNat + 8192 * a.toNat + 262144 * b.toNat = w
  rw [Codec.raw32_3c w (by omega), raw_3c,
    if_pos (show w / 8388608 = 0 by omega),
    Codec.bits_eq w 256 d (show w / 256 % 32 = _ by omega),
    Codec.bits_eq w 8192 a (show w / 8192 % 32 = _ by omega),
    Codec.bits_eq w 262144 b (show w / 262144 % 32 = _ by omega)]

theorem trig : Statement (.trig) := by
  intro h
  refine of32 h rfl (by omega) (by omega) ?_
  rw [Codec.raw32_3c 134217849 (by omega), raw_3c,
    if_neg (show ¬ (134217849 / 8388608 = 0) by omega),
    if_pos (show 134217849 / 256 = 524288 by omega)]

theorem vfadd (d : Reg) (a : Reg) (b : Reg) (mk : BitVec 3) (zr : BitVec 1) : Statement (.vfadd d a b mk zr) := by
  intro h
  have b_d := d.isLt
  have b_a := a.isLt
  have b_b := b.isLt
  have b_mk := mk.isLt
  have b_zr := zr.isLt
  refine of32 h rfl (by omega) (by omega) ?_
  generalize hw : 129 + 256 * d.toNat + 8192 * a.toNat + 262144 * b.toNat + 8388608 * mk.toNat + 67108864 * zr.toNat = w
  rw [Codec.raw32_40 w (by omega), raw_40,
    if_pos (show w / 134217728 = 0 by omega),
    Codec.bits_eq w 256 d (show w / 256 % 32 = _ by omega),
    Codec.bits_eq w 8192 a (show w / 8192 % 32 = _ by omega),
    Codec.bits_eq w 262144 b (show w / 262144 % 32 = _ by omega),
    Codec.bits_eq w 8388608 mk (show w / 8388608 % 8 = _ by omega),
    Codec.bits_eq w 67108864 zr (show w / 67108864 % 2 = _ by omega)]

theorem vfsub (d : Reg) (a : Reg) (b : Reg) (mk : BitVec 3) (zr : BitVec 1) : Statement (.vfsub d a b mk zr) := by
  intro h
  have b_d := d.isLt
  have b_a := a.isLt
  have b_b := b.isLt
  have b_mk := mk.isLt
  have b_zr := zr.isLt
  refine of32 h rfl (by omega) (by omega) ?_
  generalize hw : 131 + 256 * d.toNat + 8192 * a.toNat + 262144 * b.toNat + 8388608 * mk.toNat + 67108864 * zr.toNat = w
  rw [Codec.raw32_41 w (by omega), raw_41,
    if_pos (show w / 134217728 = 0 by omega),
    Codec.bits_eq w 256 d (show w / 256 % 32 = _ by omega),
    Codec.bits_eq w 8192 a (show w / 8192 % 32 = _ by omega),
    Codec.bits_eq w 262144 b (show w / 262144 % 32 = _ by omega),
    Codec.bits_eq w 8388608 mk (show w / 8388608 % 8 = _ by omega),
    Codec.bits_eq w 67108864 zr (show w / 67108864 % 2 = _ by omega)]

theorem vfmul (d : Reg) (a : Reg) (b : Reg) (mk : BitVec 3) (zr : BitVec 1) : Statement (.vfmul d a b mk zr) := by
  intro h
  have b_d := d.isLt
  have b_a := a.isLt
  have b_b := b.isLt
  have b_mk := mk.isLt
  have b_zr := zr.isLt
  refine of32 h rfl (by omega) (by omega) ?_
  generalize hw : 133 + 256 * d.toNat + 8192 * a.toNat + 262144 * b.toNat + 8388608 * mk.toNat + 67108864 * zr.toNat = w
  rw [Codec.raw32_42 w (by omega), raw_42,
    if_pos (show w / 134217728 = 0 by omega),
    Codec.bits_eq w 256 d (show w / 256 % 32 = _ by omega),
    Codec.bits_eq w 8192 a (show w / 8192 % 32 = _ by omega),
    Codec.bits_eq w 262144 b (show w / 262144 % 32 = _ by omega),
    Codec.bits_eq w 8388608 mk (show w / 8388608 % 8 = _ by omega),
    Codec.bits_eq w 67108864 zr (show w / 67108864 % 2 = _ by omega)]

theorem vfma (d : Reg) (a : Reg) (b : Reg) (mk : BitVec 3) (zr : BitVec 1) : Statement (.vfma d a b mk zr) := by
  intro h
  have b_d := d.isLt
  have b_a := a.isLt
  have b_b := b.isLt
  have b_mk := mk.isLt
  have b_zr := zr.isLt
  refine of32 h rfl (by omega) (by omega) ?_
  generalize hw : 135 + 256 * d.toNat + 8192 * a.toNat + 262144 * b.toNat + 8388608 * mk.toNat + 67108864 * zr.toNat = w
  rw [Codec.raw32_43 w (by omega), raw_43,
    if_pos (show w / 134217728 = 0 by omega),
    Codec.bits_eq w 256 d (show w / 256 % 32 = _ by omega),
    Codec.bits_eq w 8192 a (show w / 8192 % 32 = _ by omega),
    Codec.bits_eq w 262144 b (show w / 262144 % 32 = _ by omega),
    Codec.bits_eq w 8388608 mk (show w / 8388608 % 8 = _ by omega),
    Codec.bits_eq w 67108864 zr (show w / 67108864 % 2 = _ by omega)]

theorem vfms (d : Reg) (a : Reg) (b : Reg) (mk : BitVec 3) (zr : BitVec 1) : Statement (.vfms d a b mk zr) := by
  intro h
  have b_d := d.isLt
  have b_a := a.isLt
  have b_b := b.isLt
  have b_mk := mk.isLt
  have b_zr := zr.isLt
  refine of32 h rfl (by omega) (by omega) ?_
  generalize hw : 137 + 256 * d.toNat + 8192 * a.toNat + 262144 * b.toNat + 8388608 * mk.toNat + 67108864 * zr.toNat = w
  rw [Codec.raw32_44 w (by omega), raw_44,
    if_pos (show w / 134217728 = 0 by omega),
    Codec.bits_eq w 256 d (show w / 256 % 32 = _ by omega),
    Codec.bits_eq w 8192 a (show w / 8192 % 32 = _ by omega),
    Codec.bits_eq w 262144 b (show w / 262144 % 32 = _ by omega),
    Codec.bits_eq w 8388608 mk (show w / 8388608 % 8 = _ by omega),
    Codec.bits_eq w 67108864 zr (show w / 67108864 % 2 = _ by omega)]

theorem vfnma (d : Reg) (a : Reg) (b : Reg) (mk : BitVec 3) (zr : BitVec 1) : Statement (.vfnma d a b mk zr) := by
  intro h
  have b_d := d.isLt
  have b_a := a.isLt
  have b_b := b.isLt
  have b_mk := mk.isLt
  have b_zr := zr.isLt
  refine of32 h rfl (by omega) (by omega) ?_
  generalize hw : 139 + 256 * d.toNat + 8192 * a.toNat + 262144 * b.toNat + 8388608 * mk.toNat + 67108864 * zr.toNat = w
  rw [Codec.raw32_45 w (by omega), raw_45,
    if_pos (show w / 134217728 = 0 by omega),
    Codec.bits_eq w 256 d (show w / 256 % 32 = _ by omega),
    Codec.bits_eq w 8192 a (show w / 8192 % 32 = _ by omega),
    Codec.bits_eq w 262144 b (show w / 262144 % 32 = _ by omega),
    Codec.bits_eq w 8388608 mk (show w / 8388608 % 8 = _ by omega),
    Codec.bits_eq w 67108864 zr (show w / 67108864 % 2 = _ by omega)]

theorem vfmin (d : Reg) (a : Reg) (b : Reg) (mk : BitVec 3) (zr : BitVec 1) : Statement (.vfmin d a b mk zr) := by
  intro h
  have b_d := d.isLt
  have b_a := a.isLt
  have b_b := b.isLt
  have b_mk := mk.isLt
  have b_zr := zr.isLt
  refine of32 h rfl (by omega) (by omega) ?_
  generalize hw : 141 + 256 * d.toNat + 8192 * a.toNat + 262144 * b.toNat + 8388608 * mk.toNat + 67108864 * zr.toNat = w
  rw [Codec.raw32_46 w (by omega), raw_46,
    if_pos (show w / 134217728 = 0 by omega),
    Codec.bits_eq w 256 d (show w / 256 % 32 = _ by omega),
    Codec.bits_eq w 8192 a (show w / 8192 % 32 = _ by omega),
    Codec.bits_eq w 262144 b (show w / 262144 % 32 = _ by omega),
    Codec.bits_eq w 8388608 mk (show w / 8388608 % 8 = _ by omega),
    Codec.bits_eq w 67108864 zr (show w / 67108864 % 2 = _ by omega)]

theorem vfmax (d : Reg) (a : Reg) (b : Reg) (mk : BitVec 3) (zr : BitVec 1) : Statement (.vfmax d a b mk zr) := by
  intro h
  have b_d := d.isLt
  have b_a := a.isLt
  have b_b := b.isLt
  have b_mk := mk.isLt
  have b_zr := zr.isLt
  refine of32 h rfl (by omega) (by omega) ?_
  generalize hw : 143 + 256 * d.toNat + 8192 * a.toNat + 262144 * b.toNat + 8388608 * mk.toNat + 67108864 * zr.toNat = w
  rw [Codec.raw32_47 w (by omega), raw_47,
    if_pos (show w / 134217728 = 0 by omega),
    Codec.bits_eq w 256 d (show w / 256 % 32 = _ by omega),
    Codec.bits_eq w 8192 a (show w / 8192 % 32 = _ by omega),
    Codec.bits_eq w 262144 b (show w / 262144 % 32 = _ by omega),
    Codec.bits_eq w 8388608 mk (show w / 8388608 % 8 = _ by omega),
    Codec.bits_eq w 67108864 zr (show w / 67108864 % 2 = _ by omega)]

theorem vfabs (d : Reg) (a : Reg) (mk : BitVec 3) (zr : BitVec 1) : Statement (.vfabs d a mk zr) := by
  intro h
  have b_d := d.isLt
  have b_a := a.isLt
  have b_mk := mk.isLt
  have b_zr := zr.isLt
  refine of32 h rfl (by omega) (by omega) ?_
  generalize hw : 145 + 256 * d.toNat + 8192 * a.toNat + 8388608 * mk.toNat + 67108864 * zr.toNat = w
  rw [Codec.raw32_48 w (by omega), raw_48,
    if_pos (show w / 262144 % 32 = 0 ∧ w / 134217728 = 0 by omega),
    Codec.bits_eq w 256 d (show w / 256 % 32 = _ by omega),
    Codec.bits_eq w 8192 a (show w / 8192 % 32 = _ by omega),
    Codec.bits_eq w 8388608 mk (show w / 8388608 % 8 = _ by omega),
    Codec.bits_eq w 67108864 zr (show w / 67108864 % 2 = _ by omega)]

theorem vfneg (d : Reg) (a : Reg) (mk : BitVec 3) (zr : BitVec 1) : Statement (.vfneg d a mk zr) := by
  intro h
  have b_d := d.isLt
  have b_a := a.isLt
  have b_mk := mk.isLt
  have b_zr := zr.isLt
  refine of32 h rfl (by omega) (by omega) ?_
  generalize hw : 134217873 + 256 * d.toNat + 8192 * a.toNat + 8388608 * mk.toNat + 67108864 * zr.toNat = w
  rw [Codec.raw32_48 w (by omega), raw_48,
    if_neg (show ¬ (w / 262144 % 32 = 0 ∧ w / 134217728 = 0) by omega),
    if_pos (show w / 262144 % 32 = 0 ∧ w / 134217728 = 1 by omega),
    Codec.bits_eq w 256 d (show w / 256 % 32 = _ by omega),
    Codec.bits_eq w 8192 a (show w / 8192 % 32 = _ by omega),
    Codec.bits_eq w 8388608 mk (show w / 8388608 % 8 = _ by omega),
    Codec.bits_eq w 67108864 zr (show w / 67108864 % 2 = _ by omega)]

theorem vfcpy (d : Reg) (a : Reg) (b : Reg) (mk : BitVec 3) (zr : BitVec 1) : Statement (.vfcpy d a b mk zr) := by
  intro h
  have b_d := d.isLt
  have b_a := a.isLt
  have b_b := b.isLt
  have b_mk := mk.isLt
  have b_zr := zr.isLt
  refine of32 h rfl (by omega) (by omega) ?_
  generalize hw : 268435601 + 256 * d.toNat + 8192 * a.toNat + 262144 * b.toNat + 8388608 * mk.toNat + 67108864 * zr.toNat = w
  rw [Codec.raw32_48 w (by omega), raw_48,
    if_neg (show ¬ (w / 262144 % 32 = 0 ∧ w / 134217728 = 0) by omega),
    if_neg (show ¬ (w / 262144 % 32 = 0 ∧ w / 134217728 = 1) by omega),
    if_pos (show w / 134217728 = 2 by omega),
    Codec.bits_eq w 256 d (show w / 256 % 32 = _ by omega),
    Codec.bits_eq w 8192 a (show w / 8192 % 32 = _ by omega),
    Codec.bits_eq w 262144 b (show w / 262144 % 32 = _ by omega),
    Codec.bits_eq w 8388608 mk (show w / 8388608 % 8 = _ by omega),
    Codec.bits_eq w 67108864 zr (show w / 67108864 % 2 = _ by omega)]

theorem vfcmp (d : BitVec 3) (a : Reg) (b : Reg) (mk : BitVec 3) (zr : BitVec 1) (cond : BitVec 5) : Statement (.vfcmp d a b mk zr cond) := by
  intro h
  have b_d := d.isLt
  have b_a := a.isLt
  have b_b := b.isLt
  have b_mk := mk.isLt
  have b_zr := zr.isLt
  have b_cond := cond.isLt
  refine of32 h rfl (by omega) (by omega) ?_
  generalize hw : 147 + 256 * d.toNat + 8192 * a.toNat + 262144 * b.toNat + 8388608 * mk.toNat + 67108864 * zr.toNat + 134217728 * cond.toNat = w
  rw [Codec.raw32_49 w (by omega), raw_49,
    if_pos (show w / 2048 % 4 = 0 by omega),
    Codec.bits_eq w 256 d (show w / 256 % 8 = _ by omega),
    Codec.bits_eq w 8192 a (show w / 8192 % 32 = _ by omega),
    Codec.bits_eq w 262144 b (show w / 262144 % 32 = _ by omega),
    Codec.bits_eq w 8388608 mk (show w / 8388608 % 8 = _ by omega),
    Codec.bits_eq w 67108864 zr (show w / 67108864 % 2 = _ by omega),
    Codec.bits_eq w 134217728 cond (show w / 134217728 % 32 = _ by omega)]

theorem vrcp (d : Reg) (a : Reg) (mk : BitVec 3) (zr : BitVec 1) : Statement (.vrcp d a mk zr) := by
  intro h
  have b_d := d.isLt
  have b_a := a.isLt
  have b_mk := mk.isLt
  have b_zr := zr.isLt
  refine of32 h rfl (by omega) (by omega) ?_
  generalize hw : 149 + 256 * d.toNat + 8192 * a.toNat + 8388608 * mk.toNat + 67108864 * zr.toNat = w
  rw [Codec.raw32_4a w (by omega), raw_4a,
    if_pos (show w / 262144 % 32 = 0 ∧ w / 134217728 = 0 by omega),
    Codec.bits_eq w 256 d (show w / 256 % 32 = _ by omega),
    Codec.bits_eq w 8192 a (show w / 8192 % 32 = _ by omega),
    Codec.bits_eq w 8388608 mk (show w / 8388608 % 8 = _ by omega),
    Codec.bits_eq w 67108864 zr (show w / 67108864 % 2 = _ by omega)]

theorem vrsq (d : Reg) (a : Reg) (mk : BitVec 3) (zr : BitVec 1) : Statement (.vrsq d a mk zr) := by
  intro h
  have b_d := d.isLt
  have b_a := a.isLt
  have b_mk := mk.isLt
  have b_zr := zr.isLt
  refine of32 h rfl (by omega) (by omega) ?_
  generalize hw : 151 + 256 * d.toNat + 8192 * a.toNat + 8388608 * mk.toNat + 67108864 * zr.toNat = w
  rw [Codec.raw32_4b w (by omega), raw_4b,
    if_pos (show w / 262144 % 32 = 0 ∧ w / 134217728 = 0 by omega),
    Codec.bits_eq w 256 d (show w / 256 % 32 = _ by omega),
    Codec.bits_eq w 8192 a (show w / 8192 % 32 = _ by omega),
    Codec.bits_eq w 8388608 mk (show w / 8388608 % 8 = _ by omega),
    Codec.bits_eq w 67108864 zr (show w / 67108864 % 2 = _ by omega)]

theorem vexp2 (d : Reg) (a : Reg) (mk : BitVec 3) (zr : BitVec 1) : Statement (.vexp2 d a mk zr) := by
  intro h
  have b_d := d.isLt
  have b_a := a.isLt
  have b_mk := mk.isLt
  have b_zr := zr.isLt
  refine of32 h rfl (by omega) (by omega) ?_
  generalize hw : 153 + 256 * d.toNat + 8192 * a.toNat + 8388608 * mk.toNat + 67108864 * zr.toNat = w
  rw [Codec.raw32_4c w (by omega), raw_4c,
    if_pos (show w / 262144 % 32 = 0 ∧ w / 134217728 = 0 by omega),
    Codec.bits_eq w 256 d (show w / 256 % 32 = _ by omega),
    Codec.bits_eq w 8192 a (show w / 8192 % 32 = _ by omega),
    Codec.bits_eq w 8388608 mk (show w / 8388608 % 8 = _ by omega),
    Codec.bits_eq w 67108864 zr (show w / 67108864 % 2 = _ by omega)]

theorem vadd (d : Reg) (a : Reg) (b : Reg) (mk : BitVec 3) (zr : BitVec 1) (lane : BitVec 2) : Statement (.vadd d a b mk zr lane) := by
  intro h
  have b_d := d.isLt
  have b_a := a.isLt
  have b_b := b.isLt
  have b_mk := mk.isLt
  have b_zr := zr.isLt
  have b_lane := lane.isLt
  refine of32 h rfl (by omega) (by omega) ?_
  generalize hw : 161 + 256 * d.toNat + 8192 * a.toNat + 262144 * b.toNat + 8388608 * mk.toNat + 67108864 * zr.toNat + 134217728 * lane.toNat = w
  rw [Codec.raw32_50 w (by omega), raw_50,
    if_pos (show w / 536870912 = 0 by omega),
    Codec.bits_eq w 256 d (show w / 256 % 32 = _ by omega),
    Codec.bits_eq w 8192 a (show w / 8192 % 32 = _ by omega),
    Codec.bits_eq w 262144 b (show w / 262144 % 32 = _ by omega),
    Codec.bits_eq w 8388608 mk (show w / 8388608 % 8 = _ by omega),
    Codec.bits_eq w 67108864 zr (show w / 67108864 % 2 = _ by omega),
    Codec.bits_eq w 134217728 lane (show w / 134217728 % 4 = _ by omega)]

theorem vsub (d : Reg) (a : Reg) (b : Reg) (mk : BitVec 3) (zr : BitVec 1) (lane : BitVec 2) : Statement (.vsub d a b mk zr lane) := by
  intro h
  have b_d := d.isLt
  have b_a := a.isLt
  have b_b := b.isLt
  have b_mk := mk.isLt
  have b_zr := zr.isLt
  have b_lane := lane.isLt
  refine of32 h rfl (by omega) (by omega) ?_
  generalize hw : 163 + 256 * d.toNat + 8192 * a.toNat + 262144 * b.toNat + 8388608 * mk.toNat + 67108864 * zr.toNat + 134217728 * lane.toNat = w
  rw [Codec.raw32_51 w (by omega), raw_51,
    if_pos (show w / 536870912 = 0 by omega),
    Codec.bits_eq w 256 d (show w / 256 % 32 = _ by omega),
    Codec.bits_eq w 8192 a (show w / 8192 % 32 = _ by omega),
    Codec.bits_eq w 262144 b (show w / 262144 % 32 = _ by omega),
    Codec.bits_eq w 8388608 mk (show w / 8388608 % 8 = _ by omega),
    Codec.bits_eq w 67108864 zr (show w / 67108864 % 2 = _ by omega),
    Codec.bits_eq w 134217728 lane (show w / 134217728 % 4 = _ by omega)]

theorem vmul (d : Reg) (a : Reg) (b : Reg) (mk : BitVec 3) (zr : BitVec 1) (lane : BitVec 2) : Statement (.vmul d a b mk zr lane) := by
  intro h
  have b_d := d.isLt
  have b_a := a.isLt
  have b_b := b.isLt
  have b_mk := mk.isLt
  have b_zr := zr.isLt
  have b_lane := lane.isLt
  refine of32 h rfl (by omega) (by omega) ?_
  generalize hw : 165 + 256 * d.toNat + 8192 * a.toNat + 262144 * b.toNat + 8388608 * mk.toNat + 67108864 * zr.toNat + 134217728 * lane.toNat = w
  rw [Codec.raw32_52 w (by omega), raw_52,
    if_pos (show w / 536870912 = 0 by omega),
    Codec.bits_eq w 256 d (show w / 256 % 32 = _ by omega),
    Codec.bits_eq w 8192 a (show w / 8192 % 32 = _ by omega),
    Codec.bits_eq w 262144 b (show w / 262144 % 32 = _ by omega),
    Codec.bits_eq w 8388608 mk (show w / 8388608 % 8 = _ by omega),
    Codec.bits_eq w 67108864 zr (show w / 67108864 % 2 = _ by omega),
    Codec.bits_eq w 134217728 lane (show w / 134217728 % 4 = _ by omega)]

theorem vmulh (d : Reg) (a : Reg) (b : Reg) (mk : BitVec 3) (zr : BitVec 1) (lane : BitVec 2) : Statement (.vmulh d a b mk zr lane) := by
  intro h
  have b_d := d.isLt
  have b_a := a.isLt
  have b_b := b.isLt
  have b_mk := mk.isLt
  have b_zr := zr.isLt
  have b_lane := lane.isLt
  refine of32 h rfl (by omega) (by omega) ?_
  generalize hw : 167 + 256 * d.toNat + 8192 * a.toNat + 262144 * b.toNat + 8388608 * mk.toNat + 67108864 * zr.toNat + 134217728 * lane.toNat = w
  rw [Codec.raw32_53 w (by omega), raw_53,
    if_pos (show w / 536870912 = 0 by omega),
    Codec.bits_eq w 256 d (show w / 256 % 32 = _ by omega),
    Codec.bits_eq w 8192 a (show w / 8192 % 32 = _ by omega),
    Codec.bits_eq w 262144 b (show w / 262144 % 32 = _ by omega),
    Codec.bits_eq w 8388608 mk (show w / 8388608 % 8 = _ by omega),
    Codec.bits_eq w 67108864 zr (show w / 67108864 % 2 = _ by omega),
    Codec.bits_eq w 134217728 lane (show w / 134217728 % 4 = _ by omega)]

theorem vmin (d : Reg) (a : Reg) (b : Reg) (mk : BitVec 3) (zr : BitVec 1) (lane : BitVec 2) : Statement (.vmin d a b mk zr lane) := by
  intro h
  have b_d := d.isLt
  have b_a := a.isLt
  have b_b := b.isLt
  have b_mk := mk.isLt
  have b_zr := zr.isLt
  have b_lane := lane.isLt
  refine of32 h rfl (by omega) (by omega) ?_
  generalize hw : 169 + 256 * d.toNat + 8192 * a.toNat + 262144 * b.toNat + 8388608 * mk.toNat + 67108864 * zr.toNat + 134217728 * lane.toNat = w
  rw [Codec.raw32_54 w (by omega), raw_54,
    if_pos (show w / 536870912 = 0 by omega),
    Codec.bits_eq w 256 d (show w / 256 % 32 = _ by omega),
    Codec.bits_eq w 8192 a (show w / 8192 % 32 = _ by omega),
    Codec.bits_eq w 262144 b (show w / 262144 % 32 = _ by omega),
    Codec.bits_eq w 8388608 mk (show w / 8388608 % 8 = _ by omega),
    Codec.bits_eq w 67108864 zr (show w / 67108864 % 2 = _ by omega),
    Codec.bits_eq w 134217728 lane (show w / 134217728 % 4 = _ by omega)]

theorem vmax (d : Reg) (a : Reg) (b : Reg) (mk : BitVec 3) (zr : BitVec 1) (lane : BitVec 2) : Statement (.vmax d a b mk zr lane) := by
  intro h
  have b_d := d.isLt
  have b_a := a.isLt
  have b_b := b.isLt
  have b_mk := mk.isLt
  have b_zr := zr.isLt
  have b_lane := lane.isLt
  refine of32 h rfl (by omega) (by omega) ?_
  generalize hw : 171 + 256 * d.toNat + 8192 * a.toNat + 262144 * b.toNat + 8388608 * mk.toNat + 67108864 * zr.toNat + 134217728 * lane.toNat = w
  rw [Codec.raw32_55 w (by omega), raw_55,
    if_pos (show w / 536870912 = 0 by omega),
    Codec.bits_eq w 256 d (show w / 256 % 32 = _ by omega),
    Codec.bits_eq w 8192 a (show w / 8192 % 32 = _ by omega),
    Codec.bits_eq w 262144 b (show w / 262144 % 32 = _ by omega),
    Codec.bits_eq w 8388608 mk (show w / 8388608 % 8 = _ by omega),
    Codec.bits_eq w 67108864 zr (show w / 67108864 % 2 = _ by omega),
    Codec.bits_eq w 134217728 lane (show w / 134217728 % 4 = _ by omega)]

theorem vand (d : Reg) (a : Reg) (b : Reg) (mk : BitVec 3) (zr : BitVec 1) : Statement (.vand d a b mk zr) := by
  intro h
  have b_d := d.isLt
  have b_a := a.isLt
  have b_b := b.isLt
  have b_mk := mk.isLt
  have b_zr := zr.isLt
  refine of32 h rfl (by omega) (by omega) ?_
  generalize hw : 173 + 256 * d.toNat + 8192 * a.toNat + 262144 * b.toNat + 8388608 * mk.toNat + 67108864 * zr.toNat = w
  rw [Codec.raw32_56 w (by omega), raw_56,
    if_pos (show w / 134217728 = 0 by omega),
    Codec.bits_eq w 256 d (show w / 256 % 32 = _ by omega),
    Codec.bits_eq w 8192 a (show w / 8192 % 32 = _ by omega),
    Codec.bits_eq w 262144 b (show w / 262144 % 32 = _ by omega),
    Codec.bits_eq w 8388608 mk (show w / 8388608 % 8 = _ by omega),
    Codec.bits_eq w 67108864 zr (show w / 67108864 % 2 = _ by omega)]

theorem vor (d : Reg) (a : Reg) (b : Reg) (mk : BitVec 3) (zr : BitVec 1) : Statement (.vor d a b mk zr) := by
  intro h
  have b_d := d.isLt
  have b_a := a.isLt
  have b_b := b.isLt
  have b_mk := mk.isLt
  have b_zr := zr.isLt
  refine of32 h rfl (by omega) (by omega) ?_
  generalize hw : 175 + 256 * d.toNat + 8192 * a.toNat + 262144 * b.toNat + 8388608 * mk.toNat + 67108864 * zr.toNat = w
  rw [Codec.raw32_57 w (by omega), raw_57,
    if_pos (show w / 134217728 = 0 by omega),
    Codec.bits_eq w 256 d (show w / 256 % 32 = _ by omega),
    Codec.bits_eq w 8192 a (show w / 8192 % 32 = _ by omega),
    Codec.bits_eq w 262144 b (show w / 262144 % 32 = _ by omega),
    Codec.bits_eq w 8388608 mk (show w / 8388608 % 8 = _ by omega),
    Codec.bits_eq w 67108864 zr (show w / 67108864 % 2 = _ by omega)]

theorem vxor (d : Reg) (a : Reg) (b : Reg) (mk : BitVec 3) (zr : BitVec 1) : Statement (.vxor d a b mk zr) := by
  intro h
  have b_d := d.isLt
  have b_a := a.isLt
  have b_b := b.isLt
  have b_mk := mk.isLt
  have b_zr := zr.isLt
  refine of32 h rfl (by omega) (by omega) ?_
  generalize hw : 177 + 256 * d.toNat + 8192 * a.toNat + 262144 * b.toNat + 8388608 * mk.toNat + 67108864 * zr.toNat = w
  rw [Codec.raw32_58 w (by omega), raw_58,
    if_pos (show w / 134217728 = 0 by omega),
    Codec.bits_eq w 256 d (show w / 256 % 32 = _ by omega),
    Codec.bits_eq w 8192 a (show w / 8192 % 32 = _ by omega),
    Codec.bits_eq w 262144 b (show w / 262144 % 32 = _ by omega),
    Codec.bits_eq w 8388608 mk (show w / 8388608 % 8 = _ by omega),
    Codec.bits_eq w 67108864 zr (show w / 67108864 % 2 = _ by omega)]

theorem vshl (d : Reg) (a : Reg) (b : Reg) (mk : BitVec 3) (zr : BitVec 1) (lane : BitVec 2) : Statement (.vshl d a b mk zr lane) := by
  intro h
  have b_d := d.isLt
  have b_a := a.isLt
  have b_b := b.isLt
  have b_mk := mk.isLt
  have b_zr := zr.isLt
  have b_lane := lane.isLt
  refine of32 h rfl (by omega) (by omega) ?_
  generalize hw : 179 + 256 * d.toNat + 8192 * a.toNat + 262144 * b.toNat + 8388608 * mk.toNat + 67108864 * zr.toNat + 134217728 * lane.toNat = w
  rw [Codec.raw32_59 w (by omega), raw_59,
    if_pos (show w / 536870912 = 0 by omega),
    Codec.bits_eq w 256 d (show w / 256 % 32 = _ by omega),
    Codec.bits_eq w 8192 a (show w / 8192 % 32 = _ by omega),
    Codec.bits_eq w 262144 b (show w / 262144 % 32 = _ by omega),
    Codec.bits_eq w 8388608 mk (show w / 8388608 % 8 = _ by omega),
    Codec.bits_eq w 67108864 zr (show w / 67108864 % 2 = _ by omega),
    Codec.bits_eq w 134217728 lane (show w / 134217728 % 4 = _ by omega)]

theorem vshr (d : Reg) (a : Reg) (b : Reg) (mk : BitVec 3) (zr : BitVec 1) (lane : BitVec 2) : Statement (.vshr d a b mk zr lane) := by
  intro h
  have b_d := d.isLt
  have b_a := a.isLt
  have b_b := b.isLt
  have b_mk := mk.isLt
  have b_zr := zr.isLt
  have b_lane := lane.isLt
  refine of32 h rfl (by omega) (by omega) ?_
  generalize hw : 181 + 256 * d.toNat + 8192 * a.toNat + 262144 * b.toNat + 8388608 * mk.toNat + 67108864 * zr.toNat + 134217728 * lane.toNat = w
  rw [Codec.raw32_5a w (by omega), raw_5a,
    if_pos (show w / 536870912 = 0 by omega),
    Codec.bits_eq w 256 d (show w / 256 % 32 = _ by omega),
    Codec.bits_eq w 8192 a (show w / 8192 % 32 = _ by omega),
    Codec.bits_eq w 262144 b (show w / 262144 % 32 = _ by omega),
    Codec.bits_eq w 8388608 mk (show w / 8388608 % 8 = _ by omega),
    Codec.bits_eq w 67108864 zr (show w / 67108864 % 2 = _ by omega),
    Codec.bits_eq w 134217728 lane (show w / 134217728 % 4 = _ by omega)]

theorem vsha (d : Reg) (a : Reg) (b : Reg) (mk : BitVec 3) (zr : BitVec 1) (lane : BitVec 2) : Statement (.vsha d a b mk zr lane) := by
  intro h
  have b_d := d.isLt
  have b_a := a.isLt
  have b_b := b.isLt
  have b_mk := mk.isLt
  have b_zr := zr.isLt
  have b_lane := lane.isLt
  refine of32 h rfl (by omega) (by omega) ?_
  generalize hw : 183 + 256 * d.toNat + 8192 * a.toNat + 262144 * b.toNat + 8388608 * mk.toNat + 67108864 * zr.toNat + 134217728 * lane.toNat = w
  rw [Codec.raw32_5b w (by omega), raw_5b,
    if_pos (show w / 536870912 = 0 by omega),
    Codec.bits_eq w 256 d (show w / 256 % 32 = _ by omega),
    Codec.bits_eq w 8192 a (show w / 8192 % 32 = _ by omega),
    Codec.bits_eq w 262144 b (show w / 262144 % 32 = _ by omega),
    Codec.bits_eq w 8388608 mk (show w / 8388608 % 8 = _ by omega),
    Codec.bits_eq w 67108864 zr (show w / 67108864 % 2 = _ by omega),
    Codec.bits_eq w 134217728 lane (show w / 134217728 % 4 = _ by omega)]

theorem vcmp (d : BitVec 3) (a : Reg) (b : Reg) (mk : BitVec 3) (zr : BitVec 1) (lane : BitVec 2) (cond : BitVec 3) : Statement (.vcmp d a b mk zr lane cond) := by
  intro h
  have b_d := d.isLt
  have b_a := a.isLt
  have b_b := b.isLt
  have b_mk := mk.isLt
  have b_zr := zr.isLt
  have b_lane := lane.isLt
  have b_cond := cond.isLt
  refine of32 h rfl (by omega) (by omega) ?_
  generalize hw : 185 + 256 * d.toNat + 8192 * a.toNat + 262144 * b.toNat + 8388608 * mk.toNat + 67108864 * zr.toNat + 134217728 * lane.toNat + 536870912 * cond.toNat = w
  rw [Codec.raw32_5c w (by omega), raw_5c,
    if_pos (show w / 2048 % 4 = 0 by omega),
    Codec.bits_eq w 256 d (show w / 256 % 8 = _ by omega),
    Codec.bits_eq w 8192 a (show w / 8192 % 32 = _ by omega),
    Codec.bits_eq w 262144 b (show w / 262144 % 32 = _ by omega),
    Codec.bits_eq w 8388608 mk (show w / 8388608 % 8 = _ by omega),
    Codec.bits_eq w 67108864 zr (show w / 67108864 % 2 = _ by omega),
    Codec.bits_eq w 134217728 lane (show w / 134217728 % 4 = _ by omega),
    Codec.bits_eq w 536870912 cond (show w / 536870912 % 8 = _ by omega)]

theorem vsel (d : Reg) (a : Reg) (b : Reg) (mk : BitVec 3) (lane : BitVec 2) : Statement (.vsel d a b mk lane) := by
  intro h
  have b_d := d.isLt
  have b_a := a.isLt
  have b_b := b.isLt
  have b_mk := mk.isLt
  have b_lane := lane.isLt
  refine of32 h rfl (by omega) (by omega) ?_
  generalize hw : 187 + 256 * d.toNat + 8192 * a.toNat + 262144 * b.toNat + 8388608 * mk.toNat + 134217728 * lane.toNat = w
  rw [Codec.raw32_5d w (by omega), raw_5d,
    if_pos (show w / 67108864 % 2 = 0 ∧ w / 536870912 = 0 by omega),
    Codec.bits_eq w 256 d (show w / 256 % 32 = _ by omega),
    Codec.bits_eq w 8192 a (show w / 8192 % 32 = _ by omega),
    Codec.bits_eq w 262144 b (show w / 262144 % 32 = _ by omega),
    Codec.bits_eq w 8388608 mk (show w / 8388608 % 8 = _ by omega),
    Codec.bits_eq w 134217728 lane (show w / 134217728 % 4 = _ by omega)]

theorem vld (d : Reg) (a : Reg) (la : BitVec 4) (off : BitVec 10) : Statement (.vld d a la off) := by
  intro h
  have b_d := d.isLt
  have b_a := a.isLt
  have b_la := la.isLt
  have b_off := off.isLt
  refine of32 h rfl (by omega) (by omega) ?_
  generalize hw : 193 + 256 * d.toNat + 8192 * a.toNat + 262144 * la.toNat + 4194304 * off.toNat = w
  rw [Codec.raw32_60 w (by omega), raw_60,
    Codec.bits_eq w 256 d (show w / 256 % 32 = _ by omega),
    Codec.bits_eq w 8192 a (show w / 8192 % 32 = _ by omega),
    Codec.bits_eq w 262144 la (show w / 262144 % 16 = _ by omega),
    Codec.bits_eq w 4194304 off (show w / 4194304 % 1024 = _ by omega)]

theorem vst (d : Reg) (a : Reg) (off : BitVec 10) : Statement (.vst d a off) := by
  intro h
  have b_d := d.isLt
  have b_a := a.isLt
  have b_off := off.isLt
  refine of32 h rfl (by omega) (by omega) ?_
  generalize hw : 195 + 256 * d.toNat + 8192 * a.toNat + 4194304 * off.toNat = w
  rw [Codec.raw32_61 w (by omega), raw_61,
    if_pos (show w / 262144 % 16 = 0 by omega),
    Codec.bits_eq w 256 d (show w / 256 % 32 = _ by omega),
    Codec.bits_eq w 8192 a (show w / 8192 % 32 = _ by omega),
    Codec.bits_eq w 4194304 off (show w / 4194304 % 1024 = _ by omega)]

theorem vldb (d : Reg) (a : Reg) (la : BitVec 4) (off : BitVec 10) : Statement (.vldb d a la off) := by
  intro h
  have b_d := d.isLt
  have b_a := a.isLt
  have b_la := la.isLt
  have b_off := off.isLt
  refine of32 h rfl (by omega) (by omega) ?_
  generalize hw : 197 + 256 * d.toNat + 8192 * a.toNat + 262144 * la.toNat + 4194304 * off.toNat = w
  rw [Codec.raw32_62 w (by omega), raw_62,
    Codec.bits_eq w 256 d (show w / 256 % 32 = _ by omega),
    Codec.bits_eq w 8192 a (show w / 8192 % 32 = _ by omega),
    Codec.bits_eq w 262144 la (show w / 262144 % 16 = _ by omega),
    Codec.bits_eq w 4194304 off (show w / 4194304 % 1024 = _ by omega)]

theorem vldx (d : Reg) (a : Reg) (b : Reg) (la : BitVec 4) (mk : BitVec 3) (lane : BitVec 2) : Statement (.vldx d a b la mk lane) := by
  intro h
  have b_d := d.isLt
  have b_a := a.isLt
  have b_b := b.isLt
  have b_la := la.isLt
  have b_mk := mk.isLt
  have b_lane := lane.isLt
  refine of32 h rfl (by omega) (by omega) ?_
  generalize hw : 199 + 256 * d.toNat + 8192 * a.toNat + 262144 * b.toNat + 8388608 * la.toNat + 134217728 * mk.toNat + 1073741824 * lane.toNat = w
  rw [Codec.raw32_63 w (by omega), raw_63,
    Codec.bits_eq w 256 d (show w / 256 % 32 = _ by omega),
    Codec.bits_eq w 8192 a (show w / 8192 % 32 = _ by omega),
    Codec.bits_eq w 262144 b (show w / 262144 % 32 = _ by omega),
    Codec.bits_eq w 8388608 la (show w / 8388608 % 16 = _ by omega),
    Codec.bits_eq w 134217728 mk (show w / 134217728 % 8 = _ by omega),
    Codec.bits_eq w 1073741824 lane (show w / 1073741824 % 4 = _ by omega)]

theorem vstx (d : Reg) (a : Reg) (b : Reg) (mk : BitVec 3) (lane : BitVec 2) : Statement (.vstx d a b mk lane) := by
  intro h
  have b_d := d.isLt
  have b_a := a.isLt
  have b_b := b.isLt
  have b_mk := mk.isLt
  have b_lane := lane.isLt
  refine of32 h rfl (by omega) (by omega) ?_
  generalize hw : 201 + 256 * d.toNat + 8192 * a.toNat + 262144 * b.toNat + 134217728 * mk.toNat + 1073741824 * lane.toNat = w
  rw [Codec.raw32_64 w (by omega), raw_64,
    if_pos (show w / 8388608 % 16 = 0 by omega),
    Codec.bits_eq w 256 d (show w / 256 % 32 = _ by omega),
    Codec.bits_eq w 8192 a (show w / 8192 % 32 = _ by omega),
    Codec.bits_eq w 262144 b (show w / 262144 % 32 = _ by omega),
    Codec.bits_eq w 134217728 mk (show w / 134217728 % 8 = _ by omega),
    Codec.bits_eq w 1073741824 lane (show w / 1073741824 % 4 = _ by omega)]

theorem vperm (d : Reg) (a : Reg) (b : Reg) (mk : BitVec 3) (zr : BitVec 1) (lane : BitVec 2) : Statement (.vperm d a b mk zr lane) := by
  intro h
  have b_d := d.isLt
  have b_a := a.isLt
  have b_b := b.isLt
  have b_mk := mk.isLt
  have b_zr := zr.isLt
  have b_lane := lane.isLt
  refine of32 h rfl (by omega) (by omega) ?_
  generalize hw : 203 + 256 * d.toNat + 8192 * a.toNat + 262144 * b.toNat + 8388608 * mk.toNat + 67108864 * zr.toNat + 134217728 * lane.toNat = w
  rw [Codec.raw32_65 w (by omega), raw_65,
    if_pos (show w / 536870912 = 0 by omega),
    Codec.bits_eq w 256 d (show w / 256 % 32 = _ by omega),
    Codec.bits_eq w 8192 a (show w / 8192 % 32 = _ by omega),
    Codec.bits_eq w 262144 b (show w / 262144 % 32 = _ by omega),
    Codec.bits_eq w 8388608 mk (show w / 8388608 % 8 = _ by omega),
    Codec.bits_eq w 67108864 zr (show w / 67108864 % 2 = _ by omega),
    Codec.bits_eq w 134217728 lane (show w / 134217728 % 4 = _ by omega)]

theorem vsld (d : Reg) (a : Reg) (b : Reg) (mk : BitVec 3) (zr : BitVec 1) (lane : BitVec 2) : Statement (.vsld d a b mk zr lane) := by
  intro h
  have b_d := d.isLt
  have b_a := a.isLt
  have b_b := b.isLt
  have b_mk := mk.isLt
  have b_zr := zr.isLt
  have b_lane := lane.isLt
  refine of32 h rfl (by omega) (by omega) ?_
  generalize hw : 536871115 + 256 * d.toNat + 8192 * a.toNat + 262144 * b.toNat + 8388608 * mk.toNat + 67108864 * zr.toNat + 134217728 * lane.toNat = w
  rw [Codec.raw32_65 w (by omega), raw_65,
    if_neg (show ¬ (w / 536870912 = 0) by omega),
    if_pos (show w / 536870912 = 1 by omega),
    Codec.bits_eq w 256 d (show w / 256 % 32 = _ by omega),
    Codec.bits_eq w 8192 a (show w / 8192 % 32 = _ by omega),
    Codec.bits_eq w 262144 b (show w / 262144 % 32 = _ by omega),
    Codec.bits_eq w 8388608 mk (show w / 8388608 % 8 = _ by omega),
    Codec.bits_eq w 67108864 zr (show w / 67108864 % 2 = _ by omega),
    Codec.bits_eq w 134217728 lane (show w / 134217728 % 4 = _ by omega)]

theorem vins (d : Reg) (a : Reg) (b : Reg) (lane : BitVec 2) : Statement (.vins d a b lane) := by
  intro h
  have b_d := d.isLt
  have b_a := a.isLt
  have b_b := b.isLt
  have b_lane := lane.isLt
  refine of32 h rfl (by omega) (by omega) ?_
  generalize hw : 1073742027 + 256 * d.toNat + 8192 * a.toNat + 262144 * b.toNat + 134217728 * lane.toNat = w
  rw [Codec.raw32_65 w (by omega), raw_65,
    if_neg (show ¬ (w / 536870912 = 0) by omega),
    if_neg (show ¬ (w / 536870912 = 1) by omega),
    if_pos (show w / 8388608 % 16 = 0 ∧ w / 536870912 = 2 by omega),
    Codec.bits_eq w 256 d (show w / 256 % 32 = _ by omega),
    Codec.bits_eq w 8192 a (show w / 8192 % 32 = _ by omega),
    Codec.bits_eq w 262144 b (show w / 262144 % 32 = _ by omega),
    Codec.bits_eq w 134217728 lane (show w / 134217728 % 4 = _ by omega)]

theorem vext (d : Reg) (a : Reg) (b : Reg) (lane : BitVec 2) : Statement (.vext d a b lane) := by
  intro h
  have b_d := d.isLt
  have b_a := a.isLt
  have b_b := b.isLt
  have b_lane := lane.isLt
  refine of32 h rfl (by omega) (by omega) ?_
  generalize hw : 1610612939 + 256 * d.toNat + 8192 * a.toNat + 262144 * b.toNat + 134217728 * lane.toNat = w
  rw [Codec.raw32_65 w (by omega), raw_65,
    if_neg (show ¬ (w / 536870912 = 0) by omega),
    if_neg (show ¬ (w / 536870912 = 1) by omega),
    if_neg (show ¬ (w / 8388608 % 16 = 0 ∧ w / 536870912 = 2) by omega),
    if_pos (show w / 8388608 % 16 = 0 ∧ w / 536870912 = 3 by omega),
    Codec.bits_eq w 256 d (show w / 256 % 32 = _ by omega),
    Codec.bits_eq w 8192 a (show w / 8192 % 32 = _ by omega),
    Codec.bits_eq w 262144 b (show w / 262144 % 32 = _ by omega),
    Codec.bits_eq w 134217728 lane (show w / 134217728 % 4 = _ by omega)]

theorem vbcast (d : Reg) (a : Reg) (mk : BitVec 3) (zr : BitVec 1) (lane : BitVec 2) : Statement (.vbcast d a mk zr lane) := by
  intro h
  have b_d := d.isLt
  have b_a := a.isLt
  have b_mk := mk.isLt
  have b_zr := zr.isLt
  have b_lane := lane.isLt
  refine of32 h rfl (by omega) (by omega) ?_
  generalize hw : 2147483851 + 256 * d.toNat + 8192 * a.toNat + 8388608 * mk.toNat + 67108864 * zr.toNat + 134217728 * lane.toNat = w
  rw [Codec.raw32_65 w (by omega), raw_65,
    if_neg (show ¬ (w / 536870912 = 0) by omega),
    if_neg (show ¬ (w / 536870912 = 1) by omega),
    if_neg (show ¬ (w / 8388608 % 16 = 0 ∧ w / 536870912 = 2) by omega),
    if_neg (show ¬ (w / 8388608 % 16 = 0 ∧ w / 536870912 = 3) by omega),
    if_pos (show w / 262144 % 32 = 0 ∧ w / 536870912 = 4 by omega),
    Codec.bits_eq w 256 d (show w / 256 % 32 = _ by omega),
    Codec.bits_eq w 8192 a (show w / 8192 % 32 = _ by omega),
    Codec.bits_eq w 8388608 mk (show w / 8388608 % 8 = _ by omega),
    Codec.bits_eq w 67108864 zr (show w / 67108864 % 2 = _ by omega),
    Codec.bits_eq w 134217728 lane (show w / 134217728 % 4 = _ by omega)]

theorem vred (d : Reg) (a : Reg) (mk : BitVec 3) (lane : BitVec 2) (op : BitVec 3) : Statement (.vred d a mk lane op) := by
  intro h
  have b_d := d.isLt
  have b_a := a.isLt
  have b_mk := mk.isLt
  have b_lane := lane.isLt
  have b_op := op.isLt
  refine of32 h rfl (by omega) (by omega) ?_
  generalize hw : 205 + 256 * d.toNat + 8192 * a.toNat + 8388608 * mk.toNat + 134217728 * lane.toNat + 536870912 * op.toNat = w
  rw [Codec.raw32_66 w (by omega), raw_66,
    if_pos (show w / 262144 % 32 = 0 ∧ w / 67108864 % 2 = 0 by omega),
    Codec.bits_eq w 256 d (show w / 256 % 32 = _ by omega),
    Codec.bits_eq w 8192 a (show w / 8192 % 32 = _ by omega),
    Codec.bits_eq w 8388608 mk (show w / 8388608 % 8 = _ by omega),
    Codec.bits_eq w 134217728 lane (show w / 134217728 % 4 = _ by omega),
    Codec.bits_eq w 536870912 op (show w / 536870912 % 8 = _ by omega)]

theorem vscan (d : Reg) (a : Reg) (mk : BitVec 3) (lane : BitVec 2) (op : BitVec 3) : Statement (.vscan d a mk lane op) := by
  intro h
  have b_d := d.isLt
  have b_a := a.isLt
  have b_mk := mk.isLt
  have b_lane := lane.isLt
  have b_op := op.isLt
  refine of32 h rfl (by omega) (by omega) ?_
  generalize hw : 207 + 256 * d.toNat + 8192 * a.toNat + 8388608 * mk.toNat + 134217728 * lane.toNat + 536870912 * op.toNat = w
  rw [Codec.raw32_67 w (by omega), raw_67,
    if_pos (show w / 262144 % 32 = 0 ∧ w / 67108864 % 2 = 0 by omega),
    Codec.bits_eq w 256 d (show w / 256 % 32 = _ by omega),
    Codec.bits_eq w 8192 a (show w / 8192 % 32 = _ by omega),
    Codec.bits_eq w 8388608 mk (show w / 8388608 % 8 = _ by omega),
    Codec.bits_eq w 134217728 lane (show w / 134217728 % 4 = _ by omega),
    Codec.bits_eq w 536870912 op (show w / 536870912 % 8 = _ by omega)]

theorem vcvt (d : Reg) (a : Reg) (dst : BitVec 6) (src : BitVec 6) (rnd : BitVec 2) : Statement (.vcvt d a dst src rnd) := by
  intro h
  have b_d := d.isLt
  have b_a := a.isLt
  have b_dst := dst.isLt
  have b_src := src.isLt
  have b_rnd := rnd.isLt
  refine of32 h rfl (by omega) (by omega) ?_
  generalize hw : 209 + 256 * d.toNat + 8192 * a.toNat + 262144 * dst.toNat + 16777216 * src.toNat + 1073741824 * rnd.toNat = w
  rw [Codec.raw32_68 w (by omega), raw_68,
    Codec.bits_eq w 256 d (show w / 256 % 32 = _ by omega),
    Codec.bits_eq w 8192 a (show w / 8192 % 32 = _ by omega),
    Codec.bits_eq w 262144 dst (show w / 262144 % 64 = _ by omega),
    Codec.bits_eq w 16777216 src (show w / 16777216 % 64 = _ by omega),
    Codec.bits_eq w 1073741824 rnd (show w / 1073741824 % 4 = _ by omega)]

theorem vcvtSat (d : Reg) (a : Reg) (dst : BitVec 6) (src : BitVec 6) (rnd : BitVec 2) : Statement (.vcvtSat d a dst src rnd) := by
  intro h
  have b_d := d.isLt
  have b_a := a.isLt
  have b_dst := dst.isLt
  have b_src := src.isLt
  have b_rnd := rnd.isLt
  refine of32 h rfl (by omega) (by omega) ?_
  generalize hw : 211 + 256 * d.toNat + 8192 * a.toNat + 262144 * dst.toNat + 16777216 * src.toNat + 1073741824 * rnd.toNat = w
  rw [Codec.raw32_69 w (by omega), raw_69,
    Codec.bits_eq w 256 d (show w / 256 % 32 = _ by omega),
    Codec.bits_eq w 8192 a (show w / 8192 % 32 = _ by omega),
    Codec.bits_eq w 262144 dst (show w / 262144 % 64 = _ by omega),
    Codec.bits_eq w 16777216 src (show w / 16777216 % 64 = _ by omega),
    Codec.bits_eq w 1073741824 rnd (show w / 1073741824 % 4 = _ by omega)]

theorem vbsc (d : Reg) (a : Reg) (b : Reg) (mk : BitVec 3) (knd : BitVec 2) : Statement (.vbsc d a b mk knd) := by
  intro h
  have b_d := d.isLt
  have b_a := a.isLt
  have b_b := b.isLt
  have b_mk := mk.isLt
  have b_knd := knd.isLt
  refine of32 h rfl (by omega) (by omega) ?_
  generalize hw : 213 + 256 * d.toNat + 8192 * a.toNat + 262144 * b.toNat + 8388608 * mk.toNat + 134217728 * knd.toNat = w
  rw [Codec.raw32_6a w (by omega), raw_6a,
    if_pos (show w / 67108864 % 2 = 0 ∧ w / 536870912 = 0 by omega),
    Codec.bits_eq w 256 d (show w / 256 % 32 = _ by omega),
    Codec.bits_eq w 8192 a (show w / 8192 % 32 = _ by omega),
    Codec.bits_eq w 262144 b (show w / 262144 % 32 = _ by omega),
    Codec.bits_eq w 8388608 mk (show w / 8388608 % 8 = _ by omega),
    Codec.bits_eq w 134217728 knd (show w / 134217728 % 4 = _ by omega)]

theorem mand (d : Reg) (a : Reg) (b : Reg) : Statement (.mand d a b) := by
  intro h
  have b_d := d.isLt
  have b_a := a.isLt
  have b_b := b.isLt
  refine of32 h rfl (by omega) (by omega) ?_
  generalize hw : 215 + 256 * d.toNat + 8192 * a.toNat + 262144 * b.toNat = w
  rw [Codec.raw32_6b w (by omega), raw_6b,
    if_pos (show w / 8388608 = 0 by omega),
    Codec.bits_eq w 256 d (show w / 256 % 32 = _ by omega),
    Codec.bits_eq w 8192 a (show w / 8192 % 32 = _ by omega),
    Codec.bits_eq w 262144 b (show w / 262144 % 32 = _ by omega)]

theorem mor (d : Reg) (a : Reg) (b : Reg) : Statement (.mor d a b) := by
  intro h
  have b_d := d.isLt
  have b_a := a.isLt
  have b_b := b.isLt
  refine of32 h rfl (by omega) (by omega) ?_
  generalize hw : 134217943 + 256 * d.toNat + 8192 * a.toNat + 262144 * b.toNat = w
  rw [Codec.raw32_6b w (by omega), raw_6b,
    if_neg (show ¬ (w / 8388608 = 0) by omega),
    if_pos (show w / 8388608 = 16 by omega),
    Codec.bits_eq w 256 d (show w / 256 % 32 = _ by omega),
    Codec.bits_eq w 8192 a (show w / 8192 % 32 = _ by omega),
    Codec.bits_eq w 262144 b (show w / 262144 % 32 = _ by omega)]

theorem mxor (d : Reg) (a : Reg) (b : Reg) : Statement (.mxor d a b) := by
  intro h
  have b_d := d.isLt
  have b_a := a.isLt
  have b_b := b.isLt
  refine of32 h rfl (by omega) (by omega) ?_
  generalize hw : 268435671 + 256 * d.toNat + 8192 * a.toNat + 262144 * b.toNat = w
  have q_8388608 : w / 8388608 = 32 := by omega
  rw [Codec.raw32_6b w (by omega)]
  simp only [raw_6b, q_8388608, Nat.reduceEqDiff, OfNat.ofNat_ne_zero, reduceCtorEq, OfNat.zero_ne_ofNat, OfNat.one_ne_ofNat, OfNat.ofNat_ne_one, zero_ne_one, one_ne_zero, ↓reduceIte]
  rw [Codec.bits_eq w 256 d (show w / 256 % 32 = _ by omega),
    Codec.bits_eq w 8192 a (show w / 8192 % 32 = _ by omega),
    Codec.bits_eq w 262144 b (show w / 262144 % 32 = _ by omega)]

theorem mnot (d : Reg) (a : Reg) : Statement (.mnot d a) := by
  intro h
  have b_d := d.isLt
  have b_a := a.isLt
  refine of32 h rfl (by omega) (by omega) ?_
  generalize hw : 402653399 + 256 * d.toNat + 8192 * a.toNat = w
  have q_8388608 : w / 8388608 = 48 := by omega
  have q_262144 : w / 262144 = 1536 := by omega
  rw [Codec.raw32_6b w (by omega)]
  simp only [raw_6b, q_8388608, q_262144, Nat.reduceEqDiff, OfNat.ofNat_ne_zero, reduceCtorEq, OfNat.zero_ne_ofNat, OfNat.one_ne_ofNat, OfNat.ofNat_ne_one, zero_ne_one, one_ne_zero, ↓reduceIte]
  rw [Codec.bits_eq w 256 d (show w / 256 % 32 = _ by omega),
    Codec.bits_eq w 8192 a (show w / 8192 % 32 = _ by omega)]

theorem mpop (d : Reg) (a : Reg) : Statement (.mpop d a) := by
  intro h
  have b_d := d.isLt
  have b_a := a.isLt
  refine of32 h rfl (by omega) (by omega) ?_
  generalize hw : 536871127 + 256 * d.toNat + 8192 * a.toNat = w
  have q_8388608 : w / 8388608 = 64 := by omega
  have q_262144 : w / 262144 = 2048 := by omega
  rw [Codec.raw32_6b w (by omega)]
  simp only [raw_6b, q_8388608, q_262144, Nat.reduceEqDiff, OfNat.ofNat_ne_zero, reduceCtorEq, OfNat.zero_ne_ofNat, OfNat.one_ne_ofNat, OfNat.ofNat_ne_one, zero_ne_one, one_ne_zero, ↓reduceIte]
  rw [Codec.bits_eq w 256 d (show w / 256 % 32 = _ by omega),
    Codec.bits_eq w 8192 a (show w / 8192 % 32 = _ by omega)]

theorem mset (d : Reg) (a : Reg) : Statement (.mset d a) := by
  intro h
  have b_d := d.isLt
  have b_a := a.isLt
  refine of32 h rfl (by omega) (by omega) ?_
  generalize hw : 671088855 + 256 * d.toNat + 8192 * a.toNat = w
  have q_8388608 : w / 8388608 = 80 := by omega
  have q_262144 : w / 262144 = 2560 := by omega
  rw [Codec.raw32_6b w (by omega)]
  simp only [raw_6b, q_8388608, q_262144, Nat.reduceEqDiff, OfNat.ofNat_ne_zero, reduceCtorEq, OfNat.zero_ne_ofNat, OfNat.one_ne_ofNat, OfNat.ofNat_ne_one, zero_ne_one, one_ne_zero, ↓reduceIte]
  rw [Codec.bits_eq w 256 d (show w / 256 % 32 = _ by omega),
    Codec.bits_eq w 8192 a (show w / 8192 % 32 = _ by omega)]

theorem carv (a : Reg) (b : Reg) : Statement (.carv a b) := by
  intro h
  have b_a := a.isLt
  have b_b := b.isLt
  refine of32 h rfl (by omega) (by omega) ?_
  generalize hw : 134217953 + 8192 * a.toNat + 262144 * b.toNat = w
  rw [Codec.raw32_70 w (by omega), raw_70,
    if_pos (show w / 256 % 32 = 0 ∧ w / 8388608 = 16 by omega),
    Codec.bits_eq w 8192 a (show w / 8192 % 32 = _ by omega),
    Codec.bits_eq w 262144 b (show w / 262144 % 32 = _ by omega)]

theorem cexp (a : Reg) (b : Reg) : Statement (.cexp a b) := by
  intro h
  have b_a := a.isLt
  have b_b := b.isLt
  refine of32 h rfl (by omega) (by omega) ?_
  generalize hw : 134217955 + 8192 * a.toNat + 262144 * b.toNat = w
  rw [Codec.raw32_71 w (by omega), raw_71,
    if_pos (show w / 256 % 32 = 0 ∧ w / 8388608 = 16 by omega),
    Codec.bits_eq w 8192 a (show w / 8192 % 32 = _ by omega),
    Codec.bits_eq w 262144 b (show w / 262144 % 32 = _ by omega)]

theorem cmis (d : Reg) (a : Reg) (b : Reg) (la : BitVec 4) : Statement (.cmis d a b la) := by
  intro h
  have b_d := d.isLt
  have b_a := a.isLt
  have b_b := b.isLt
  have b_la := la.isLt
  refine of32 h rfl (by omega) (by omega) ?_
  generalize hw : 134217957 + 256 * d.toNat + 8192 * a.toNat + 262144 * b.toNat + 8388608 * la.toNat = w
  rw [Codec.raw32_72 w (by omega), raw_72,
    if_pos (show w / 134217728 = 1 by omega),
    Codec.bits_eq w 256 d (show w / 256 % 32 = _ by omega),
    Codec.bits_eq w 8192 a (show w / 8192 % 32 = _ by omega),
    Codec.bits_eq w 262144 b (show w / 262144 % 32 = _ by omega),
    Codec.bits_eq w 8388608 la (show w / 8388608 % 16 = _ by omega)]

theorem cjoin (a : Reg) : Statement (.cjoin a) := by
  intro h
  have b_a := a.isLt
  refine of32 h rfl (by omega) (by omega) ?_
  generalize hw : 134217959 + 8192 * a.toNat = w
  rw [Codec.raw32_73 w (by omega), raw_73,
    if_pos (show w / 256 % 32 = 0 ∧ w / 262144 = 512 by omega),
    Codec.bits_eq w 8192 a (show w / 8192 % 32 = _ by omega)]

theorem cquit (a : Reg) : Statement (.cquit a) := by
  intro h
  have b_a := a.isLt
  refine of32 h rfl (by omega) (by omega) ?_
  generalize hw : 671088871 + 8192 * a.toNat = w
  rw [Codec.raw32_73 w (by omega), raw_73,
    if_neg (show ¬ (w / 256 % 32 = 0 ∧ w / 262144 = 512) by omega),
    if_pos (show w / 256 % 32 = 0 ∧ w / 262144 = 2560 by omega),
    Codec.bits_eq w 8192 a (show w / 8192 % 32 = _ by omega)]

theorem tkrq (a : Reg) (b : Reg) (sc : BitVec 2) : Statement (.tkrq a b sc) := by
  intro h
  have b_a := a.isLt
  have b_b := b.isLt
  have b_sc := sc.isLt
  refine of32 h rfl (by omega) (by omega) ?_
  generalize hw : 233 + 8192 * a.toNat + 262144 * b.toNat + 134217728 * sc.toNat = w
  rw [Codec.raw32_74 w (by omega), raw_74,
    if_pos (show w / 256 % 32 = 0 ∧ w / 8388608 % 16 = 0 ∧ w / 536870912 = 0 by omega),
    Codec.bits_eq w 8192 a (show w / 8192 % 32 = _ by omega),
    Codec.bits_eq w 262144 b (show w / 262144 % 32 = _ by omega),
    Codec.bits_eq w 134217728 sc (show w / 134217728 % 4 = _ by omega)]

theorem tkps (a : Reg) (sc : BitVec 2) : Statement (.tkps a sc) := by
  intro h
  have b_a := a.isLt
  have b_sc := sc.isLt
  refine of32 h rfl (by omega) (by omega) ?_
  generalize hw : 536871145 + 8192 * a.toNat + 134217728 * sc.toNat = w
  rw [Codec.raw32_74 w (by omega), raw_74,
    if_neg (show ¬ (w / 256 % 32 = 0 ∧ w / 8388608 % 16 = 0 ∧ w / 536870912 = 0) by omega),
    if_pos (show w / 256 % 32 = 0 ∧ w / 262144 % 512 = 0 ∧ w / 536870912 = 1 by omega),
    Codec.bits_eq w 8192 a (show w / 8192 % 32 = _ by omega),
    Codec.bits_eq w 134217728 sc (show w / 134217728 % 4 = _ by omega)]

theorem scrd (d : Reg) (la : BitVec 4) (sc : BitVec 2) : Statement (.scrd d la sc) := by
  intro h
  have b_d := d.isLt
  have b_la := la.isLt
  have b_sc := sc.isLt
  refine of32 h rfl (by omega) (by omega) ?_
  generalize hw : 235 + 256 * d.toNat + 8388608 * la.toNat + 134217728 * sc.toNat = w
  rw [Codec.raw32_75 w (by omega), raw_75,
    if_pos (show w / 8192 % 1024 = 0 ∧ w / 536870912 = 0 by omega),
    Codec.bits_eq w 256 d (show w / 256 % 32 = _ by omega),
    Codec.bits_eq w 8388608 la (show w / 8388608 % 16 = _ by omega),
    Codec.bits_eq w 134217728 sc (show w / 134217728 % 4 = _ by omega)]

theorem lgrd (d : Reg) (a : Reg) (la : BitVec 4) (sc : BitVec 2) : Statement (.lgrd d a la sc) := by
  intro h
  have b_d := d.isLt
  have b_a := a.isLt
  have b_la := la.isLt
  have b_sc := sc.isLt
  refine of32 h rfl (by omega) (by omega) ?_
  generalize hw : 536871147 + 256 * d.toNat + 8192 * a.toNat + 8388608 * la.toNat + 134217728 * sc.toNat = w
  rw [Codec.raw32_75 w (by omega), raw_75,
    if_neg (show ¬ (w / 8192 % 1024 = 0 ∧ w / 536870912 = 0) by omega),
    if_pos (show w / 262144 % 32 = 0 ∧ w / 536870912 = 1 by omega),
    Codec.bits_eq w 256 d (show w / 256 % 32 = _ by omega),
    Codec.bits_eq w 8192 a (show w / 8192 % 32 = _ by omega),
    Codec.bits_eq w 8388608 la (show w / 8388608 % 16 = _ by omega),
    Codec.bits_eq w 134217728 sc (show w / 134217728 % 4 = _ by omega)]

theorem trmc (a : Reg) (b : Reg) : Statement (.trmc a b) := by
  intro h
  have b_a := a.isLt
  have b_b := b.isLt
  refine of32 h rfl (by omega) (by omega) ?_
  generalize hw : 268435693 + 8192 * a.toNat + 262144 * b.toNat = w
  rw [Codec.raw32_76 w (by omega), raw_76,
    if_pos (show w / 256 % 32 = 0 ∧ w / 8388608 = 32 by omega),
    Codec.bits_eq w 8192 a (show w / 8192 % 32 = _ by omega),
    Codec.bits_eq w 262144 b (show w / 262144 % 32 = _ by omega)]

theorem trrd (d : Reg) (a : Reg) (b : Reg) (la : BitVec 4) : Statement (.trrd d a b la) := by
  intro h
  have b_d := d.isLt
  have b_a := a.isLt
  have b_b := b.isLt
  have b_la := la.isLt
  refine of32 h rfl (by omega) (by omega) ?_
  generalize hw : 268435695 + 256 * d.toNat + 8192 * a.toNat + 262144 * b.toNat + 8388608 * la.toNat = w
  rw [Codec.raw32_77 w (by omega), raw_77,
    if_pos (show w / 134217728 = 2 by omega),
    Codec.bits_eq w 256 d (show w / 256 % 32 = _ by omega),
    Codec.bits_eq w 8192 a (show w / 8192 % 32 = _ by omega),
    Codec.bits_eq w 262144 b (show w / 262144 % 32 = _ by omega),
    Codec.bits_eq w 8388608 la (show w / 8388608 % 16 = _ by omega)]

theorem cMv (d : Reg) (a : Reg) : Statement (.cMv d a) := by
  intro h
  have b_d := d.isLt
  have b_a := a.isLt
  refine of16 h rfl (by omega) (by omega) ?_
  generalize hw : 0 + 32 * d.toNat + 1024 * a.toNat = w
  rw [raw16, show w / 2 % 16 = 0 by omega]
  show (if w / 32768 = 0 then _ else _) = _
  rw [if_pos (show w / 32768 = 0 by omega),
    Codec.bits_eq w 32 d (show w / 32 % 32 = _ by omega),
    Codec.bits_eq w 1024 a (show w / 1024 % 32 = _ by omega)]

theorem cAdd (d : Reg) (b : Reg) : Statement (.cAdd d b) := by
  intro h
  have b_d := d.isLt
  have b_b := b.isLt
  refine of16 h rfl (by omega) (by omega) ?_
  generalize hw : 2 + 32 * d.toNat + 1024 * b.toNat = w
  rw [raw16, show w / 2 % 16 = 1 by omega]
  show (if w / 32768 = 0 then _ else _) = _
  rw [if_pos (show w / 32768 = 0 by omega),
    Codec.bits_eq w 32 d (show w / 32 % 32 = _ by omega),
    Codec.bits_eq w 1024 b (show w / 1024 % 32 = _ by omega)]

theorem cSub (d : Reg) (b : Reg) : Statement (.cSub d b) := by
  intro h
  have b_d := d.isLt
  have b_b := b.isLt
  refine of16 h rfl (by omega) (by omega) ?_
  generalize hw : 4 + 32 * d.toNat + 1024 * b.toNat = w
  rw [raw16, show w / 2 % 16 = 2 by omega]
  show (if w / 32768 = 0 then _ else _) = _
  rw [if_pos (show w / 32768 = 0 by omega),
    Codec.bits_eq w 32 d (show w / 32 % 32 = _ by omega),
    Codec.bits_eq w 1024 b (show w / 1024 % 32 = _ by omega)]

theorem cAnd (d : Reg) (b : Reg) : Statement (.cAnd d b) := by
  intro h
  have b_d := d.isLt
  have b_b := b.isLt
  refine of16 h rfl (by omega) (by omega) ?_
  generalize hw : 6 + 32 * d.toNat + 1024 * b.toNat = w
  rw [raw16, show w / 2 % 16 = 3 by omega]
  show (if w / 32768 = 0 then _ else _) = _
  rw [if_pos (show w / 32768 = 0 by omega),
    Codec.bits_eq w 32 d (show w / 32 % 32 = _ by omega),
    Codec.bits_eq w 1024 b (show w / 1024 % 32 = _ by omega)]

theorem cAddi (d : Reg) (imm : BitVec 6) : Statement (.cAddi d imm) := by
  intro h
  have b_d := d.isLt
  have b_imm := imm.isLt
  refine of16 h rfl (by omega) (by omega) ?_
  generalize hw : 8 + 32 * d.toNat + 1024 * imm.toNat = w
  rw [raw16, show w / 2 % 16 = 4 by omega]
  show Except.ok _ = _
  rw [Codec.bits_eq w 32 d (show w / 32 % 32 = _ by omega),
    Codec.bits_eq w 1024 imm (show w / 1024 % 64 = _ by omega)]

theorem cShli (d : Reg) (imm : BitVec 6) : Statement (.cShli d imm) := by
  intro h
  have b_d := d.isLt
  have b_imm := imm.isLt
  refine of16 h rfl (by omega) (by omega) ?_
  generalize hw : 10 + 32 * d.toNat + 1024 * imm.toNat = w
  rw [raw16, show w / 2 % 16 = 5 by omega]
  show Except.ok _ = _
  rw [Codec.bits_eq w 32 d (show w / 32 % 32 = _ by omega),
    Codec.bits_eq w 1024 imm (show w / 1024 % 64 = _ by omega)]

theorem cLi (d : Reg) (imm : BitVec 6) : Statement (.cLi d imm) := by
  intro h
  have b_d := d.isLt
  have b_imm := imm.isLt
  refine of16 h rfl (by omega) (by omega) ?_
  generalize hw : 12 + 32 * d.toNat + 1024 * imm.toNat = w
  rw [raw16, show w / 2 % 16 = 6 by omega]
  show Except.ok _ = _
  rw [Codec.bits_eq w 32 d (show w / 32 % 32 = _ by omega),
    Codec.bits_eq w 1024 imm (show w / 1024 % 64 = _ by omega)]

theorem cLd (d : BitVec 3) (a : BitVec 3) (off : BitVec 5) : Statement (.cLd d a off) := by
  intro h
  have b_d := d.isLt
  have b_a := a.isLt
  have b_off := off.isLt
  refine of16 h rfl (by omega) (by omega) ?_
  generalize hw : 14 + 32 * d.toNat + 256 * a.toNat + 2048 * off.toNat = w
  rw [raw16, show w / 2 % 16 = 7 by omega]
  show Except.ok _ = _
  rw [Codec.bits_eq w 32 d (show w / 32 % 8 = _ by omega),
    Codec.bits_eq w 256 a (show w / 256 % 8 = _ by omega),
    Codec.bits_eq w 2048 off (show w / 2048 % 32 = _ by omega)]

theorem cSt (b : BitVec 3) (a : BitVec 3) (off : BitVec 5) : Statement (.cSt b a off) := by
  intro h
  have b_b := b.isLt
  have b_a := a.isLt
  have b_off := off.isLt
  refine of16 h rfl (by omega) (by omega) ?_
  generalize hw : 16 + 32 * b.toNat + 256 * a.toNat + 2048 * off.toNat = w
  rw [raw16, show w / 2 % 16 = 8 by omega]
  show Except.ok _ = _
  rw [Codec.bits_eq w 32 b (show w / 32 % 8 = _ by omega),
    Codec.bits_eq w 256 a (show w / 256 % 8 = _ by omega),
    Codec.bits_eq w 2048 off (show w / 2048 % 32 = _ by omega)]

theorem cBeqz (d : BitVec 3) (off : BitVec 8) : Statement (.cBeqz d off) := by
  intro h
  have b_d := d.isLt
  have b_off := off.isLt
  refine of16 h rfl (by omega) (by omega) ?_
  generalize hw : 18 + 32 * d.toNat + 256 * off.toNat = w
  rw [raw16, show w / 2 % 16 = 9 by omega]
  show Except.ok _ = _
  rw [Codec.bits_eq w 32 d (show w / 32 % 8 = _ by omega),
    Codec.bits_eq w 256 off (show w / 256 % 256 = _ by omega)]

theorem cBnez (d : BitVec 3) (off : BitVec 8) : Statement (.cBnez d off) := by
  intro h
  have b_d := d.isLt
  have b_off := off.isLt
  refine of16 h rfl (by omega) (by omega) ?_
  generalize hw : 20 + 32 * d.toNat + 256 * off.toNat = w
  rw [raw16, show w / 2 % 16 = 10 by omega]
  show Except.ok _ = _
  rw [Codec.bits_eq w 32 d (show w / 32 % 8 = _ by omega),
    Codec.bits_eq w 256 off (show w / 256 % 256 = _ by omega)]

theorem cJ (off : BitVec 11) : Statement (.cJ off) := by
  intro h
  have b_off := off.isLt
  refine of16 h rfl (by omega) (by omega) ?_
  generalize hw : 22 + 32 * off.toNat = w
  rw [raw16, show w / 2 % 16 = 11 by omega]
  show Except.ok _ = _
  rw [Codec.bits_eq w 32 off (show w / 32 % 2048 = _ by omega)]

theorem cEnd : Statement (.cEnd) := by
  intro h
  refine of16 h rfl (by omega) (by omega) ?_
  rw [raw16, show 24 / 2 % 16 = 12 by omega]
  show (if 24 / 32 = 0 then _ else _) = _
  rw [if_pos (show 24 / 32 = 0 by omega)]

theorem cCmt : Statement (.cCmt) := by
  intro h
  refine of16 h rfl (by omega) (by omega) ?_
  rw [raw16, show 26 / 2 % 16 = 13 by omega]
  show (if 26 / 32 = 0 then _ else _) = _
  rw [if_pos (show 26 / 32 = 0 by omega)]

theorem cSig (sig : BitVec 11) : Statement (.cSig sig) := by
  intro h
  have b_sig := sig.isLt
  refine of16 h rfl (by omega) (by omega) ?_
  generalize hw : 28 + 32 * sig.toNat = w
  rw [raw16, show w / 2 % 16 = 14 by omega]
  show Except.ok _ = _
  rw [Codec.bits_eq w 32 sig (show w / 32 % 2048 = _ by omega)]

theorem cNop : Statement (.cNop) := by
  intro h
  refine of16 h rfl (by omega) (by omega) ?_
  rw [raw16, show 30 / 2 % 16 = 15 by omega]
  show (if 30 / 32 = 0 then _ else _) = _
  rw [if_pos (show 30 / 32 = 0 by omega)]

theorem qpayRead (d : Reg) : Statement (.qpayRead d) := fun h => Bool.noConfusion (show false = true from Codec.has_word h)

theorem qbldWrite (a : Reg) : Statement (.qbldWrite a) := fun h => Bool.noConfusion (show false = true from Codec.has_word h)

theorem qcmpRead (d : Reg) : Statement (.qcmpRead d) := fun h => Bool.noConfusion (show false = true from Codec.has_word h)

theorem qtileRead (d : Reg) : Statement (.qtileRead d) := fun h => Bool.noConfusion (show false = true from Codec.has_word h)

theorem channelStatusRead (chan : BitVec 2) (acq : Bool) (d : Reg) : Statement (.channelStatusRead chan acq d) := fun h => Bool.noConfusion (show false = true from Codec.has_word h)

theorem longLatencyResult (core : Nat) (slot : Nat) : Statement (.longLatencyResult core slot) := fun h => Bool.noConfusion (show false = true from Codec.has_word h)

theorem taskDispatch (core : Nat) : Statement (.taskDispatch core) := fun h => Bool.noConfusion (show false = true from Codec.has_word h)

theorem serviceDispatch (core : Nat) : Statement (.serviceDispatch core) := fun h => Bool.noConfusion (show false = true from Codec.has_word h)

theorem budgetExpiry (core : Nat) (slot : Nat) : Statement (.budgetExpiry core slot) := fun h => Bool.noConfusion (show false = true from Codec.has_word h)

theorem bufferPoolWaitEnd (core : Nat) (slot : Nat) : Statement (.bufferPoolWaitEnd core slot) := fun h => Bool.noConfusion (show false = true from Codec.has_word h)

theorem cbfullDeadlockAbort (core : Nat) : Statement (.cbfullDeadlockAbort core) := fun h => Bool.noConfusion (show false = true from Codec.has_word h)

theorem trapQueueWaitEnd (part : Nat) : Statement (.trapQueueWaitEnd part) := fun h => Bool.noConfusion (show false = true from Codec.has_word h)

theorem stormRelease (part : Nat) : Statement (.stormRelease part) := fun h => Bool.noConfusion (show false = true from Codec.has_word h)

theorem supervisorDispatch (part : Nat) : Statement (.supervisorDispatch part) := fun h => Bool.noConfusion (show false = true from Codec.has_word h)

theorem callRecord (ctx : Nat) (handler : Nat) (q : Quad) : Statement (.callRecord ctx handler q) := fun h => Bool.noConfusion (show false = true from Codec.has_word h)

theorem resume (core : Nat) (slot : Nat) : Statement (.resume core slot) := fun h => Bool.noConfusion (show false = true from Codec.has_word h)

theorem skip (core : Nat) (slot : Nat) : Statement (.skip core slot) := fun h => Bool.noConfusion (show false = true from Codec.has_word h)

theorem kill (core : Nat) (slot : Nat) : Statement (.kill core slot) := fun h => Bool.noConfusion (show false = true from Codec.has_word h)

theorem taskMessageArrival (k : Nat) : Statement (.taskMessageArrival k) := fun h => Bool.noConfusion (show false = true from Codec.has_word h)

theorem serviceMessageArrival (core : Nat) (k : Nat) : Statement (.serviceMessageArrival core k) := fun h => Bool.noConfusion (show false = true from Codec.has_word h)

theorem bounceArrival (k : Nat) : Statement (.bounceArrival k) := fun h => Bool.noConfusion (show false = true from Codec.has_word h)

theorem bounceRetry (core : Nat) : Statement (.bounceRetry core) := fun h => Bool.noConfusion (show false = true from Codec.has_word h)

theorem messageHandover (core : Nat) (k : Nat) : Statement (.messageHandover core k) := fun h => Bool.noConfusion (show false = true from Codec.has_word h)

theorem deferExpiry (core : Nat) (k : Nat) : Statement (.deferExpiry core k) := fun h => Bool.noConfusion (show false = true from Codec.has_word h)

theorem completionTaskAccept (cluster : Nat) (k : Nat) : Statement (.completionTaskAccept cluster k) := fun h => Bool.noConfusion (show false = true from Codec.has_word h)

theorem spawnAtTarget (k : Nat) : Statement (.spawnAtTarget k) := fun h => Bool.noConfusion (show false = true from Codec.has_word h)

theorem atomicAtOwner (core : Nat) : Statement (.atomicAtOwner core) := fun h => Bool.noConfusion (show false = true from Codec.has_word h)

theorem subByteMerge (core : Nat) : Statement (.subByteMerge core) := fun h => Bool.noConfusion (show false = true from Codec.has_word h)

theorem memoryRequestAtHome (core : Nat) (k : Nat) : Statement (.memoryRequestAtHome core k) := fun h => Bool.noConfusion (show false = true from Codec.has_word h)

theorem imemWindowStore (core : Nat) : Statement (.imemWindowStore core) := fun h => Bool.noConfusion (show false = true from Codec.has_word h)

theorem reductionEntry (core : Nat) (k : Nat) : Statement (.reductionEntry core k) := fun h => Bool.noConfusion (show false = true from Codec.has_word h)

theorem forwardingEntryInstall (line : Nat) : Statement (.forwardingEntryInstall line) := fun h => Bool.noConfusion (show false = true from Codec.has_word h)

theorem parkRetry (core : Nat) (k : Nat) : Statement (.parkRetry core k) := fun h => Bool.noConfusion (show false = true from Codec.has_word h)

theorem scrub (line : Nat) : Statement (.scrub line) := fun h => Bool.noConfusion (show false = true from Codec.has_word h)

theorem stage2FillReply (part : Nat) (gpa : Nat) (r : FillReply) : Statement (.stage2FillReply part gpa r) := fun h => Bool.noConfusion (show false = true from Codec.has_word h)

theorem stage2Invalidation (part : Nat) (gpa : Option Nat) : Statement (.stage2Invalidation part gpa) := fun h => Bool.noConfusion (show false = true from Codec.has_word h)

theorem pageMigration (part : Nat) (gpa : Nat) (frame : Nat) : Statement (.pageMigration part gpa frame) := fun h => Bool.noConfusion (show false = true from Codec.has_word h)

theorem pageMigrationComplete (part : Nat) (gpa : Nat) : Statement (.pageMigrationComplete part gpa) := fun h => Bool.noConfusion (show false = true from Codec.has_word h)

theorem copyOnWriteComplete (part : Nat) (page : Nat) : Statement (.copyOnWriteComplete part page) := fun h => Bool.noConfusion (show false = true from Codec.has_word h)

theorem writeAck (core : Nat) (k : Nat) (ok : Bool) : Statement (.writeAck core k ok) := fun h => Bool.noConfusion (show false = true from Codec.has_word h)

theorem fenceMarkPass (core : Nat) (k : Nat) : Statement (.fenceMarkPass core k) := fun h => Bool.noConfusion (show false = true from Codec.has_word h)

theorem releasePerform (core : Nat) (k : Nat) : Statement (.releasePerform core k) := fun h => Bool.noConfusion (show false = true from Codec.has_word h)

theorem rdxRequestSend (core : Nat) (k : Nat) : Statement (.rdxRequestSend core k) := fun h => Bool.noConfusion (show false = true from Codec.has_word h)

theorem rdxReadAtOwner (k : Nat) : Statement (.rdxReadAtOwner k) := fun h => Bool.noConfusion (show false = true from Codec.has_word h)

theorem rdxDelivery (k : Nat) : Statement (.rdxDelivery k) := fun h => Bool.noConfusion (show false = true from Codec.has_word h)

theorem mma (core : Nat) : Statement (.mma core) := fun h => Bool.noConfusion (show false = true from Codec.has_word h)

theorem mmas (core : Nat) : Statement (.mmas core) := fun h => Bool.noConfusion (show false = true from Codec.has_word h)

theorem accz (core : Nat) : Statement (.accz core) := fun h => Bool.noConfusion (show false = true from Codec.has_word h)

theorem accl (core : Nat) : Statement (.accl core) := fun h => Bool.noConfusion (show false = true from Codec.has_word h)

theorem accs (core : Nat) : Statement (.accs core) := fun h => Bool.noConfusion (show false = true from Codec.has_word h)

theorem accmCopy (core : Nat) : Statement (.accmCopy core) := fun h => Bool.noConfusion (show false = true from Codec.has_word h)

theorem accmAdd (core : Nat) : Statement (.accmAdd core) := fun h => Bool.noConfusion (show false = true from Codec.has_word h)

theorem accmTranspose (core : Nat) : Statement (.accmTranspose core) := fun h => Bool.noConfusion (show false = true from Codec.has_word h)

theorem matrixCompletion (core : Nat) : Statement (.matrixCompletion core) := fun h => Bool.noConfusion (show false = true from Codec.has_word h)

theorem matrixQueueWaitEnd (core : Nat) (slot : Nat) : Statement (.matrixQueueWaitEnd core slot) := fun h => Bool.noConfusion (show false = true from Codec.has_word h)

theorem engineReportUnblock (core : Nat) : Statement (.engineReportUnblock core) := fun h => Bool.noConfusion (show false = true from Codec.has_word h)

theorem accumulatorZeroing (core : Nat) : Statement (.accumulatorZeroing core) := fun h => Bool.noConfusion (show false = true from Codec.has_word h)

theorem lin (core : Nat) (chan : Nat) : Statement (.lin core chan) := fun h => Bool.noConfusion (show false = true from Codec.has_word h)

theorem rect (core : Nat) (chan : Nat) : Statement (.rect core chan) := fun h => Bool.noConfusion (show false = true from Codec.has_word h)

theorem rectMap (core : Nat) (chan : Nat) : Statement (.rectMap core chan) := fun h => Bool.noConfusion (show false = true from Codec.has_word h)

theorem slab (core : Nat) (chan : Nat) : Statement (.slab core chan) := fun h => Bool.noConfusion (show false = true from Codec.has_word h)

theorem gath (core : Nat) (chan : Nat) : Statement (.gath core chan) := fun h => Bool.noConfusion (show false = true from Codec.has_word h)

theorem fill (core : Nat) (chan : Nat) : Statement (.fill core chan) := fun h => Bool.noConfusion (show false = true from Codec.has_word h)

theorem copyChunk (core : Nat) (chan : Nat) : Statement (.copyChunk core chan) := fun h => Bool.noConfusion (show false = true from Codec.has_word h)

theorem copyCompletion (core : Nat) (chan : Nat) : Statement (.copyCompletion core chan) := fun h => Bool.noConfusion (show false = true from Codec.has_word h)

theorem copyQueueWaitEnd (core : Nat) (slot : Nat) : Statement (.copyQueueWaitEnd core slot) := fun h => Bool.noConfusion (show false = true from Codec.has_word h)

theorem ringVisit (ctx : Nat) (ring : Nat) : Statement (.ringVisit ctx ring) := fun h => Bool.noConfusion (show false = true from Codec.has_word h)

theorem lnchCommit (core : Nat) (k : Nat) : Statement (.lnchCommit core k) := fun h => Bool.noConfusion (show false = true from Codec.has_word h)

theorem launchRelease (ctx : Nat) (lid : Nat) : Statement (.launchRelease ctx lid) := fun h => Bool.noConfusion (show false = true from Codec.has_word h)

theorem releaseImageLoad (ctx : Nat) (lid : Nat) (core : Nat) : Statement (.releaseImageLoad ctx lid core) := fun h => Bool.noConfusion (show false = true from Codec.has_word h)

theorem releaseMessage (ctx : Nat) (lid : Nat) (cluster : Nat) : Statement (.releaseMessage ctx lid cluster) := fun h => Bool.noConfusion (show false = true from Codec.has_word h)

theorem trigCommit (core : Nat) (k : Nat) : Statement (.trigCommit core k) := fun h => Bool.noConfusion (show false = true from Codec.has_word h)

theorem launchDone (ctx : Nat) (lid : Nat) : Statement (.launchDone ctx lid) := fun h => Bool.noConfusion (show false = true from Codec.has_word h)

theorem partitionDescriptorWrite (part : Nat) (v : W64) : Statement (.partitionDescriptorWrite part v) := fun h => Bool.noConfusion (show false = true from Codec.has_word h)

theorem managementWrite (t : Mgmt) : Statement (.managementWrite t) := fun h => Bool.noConfusion (show false = true from Codec.has_word h)

theorem peerInvalidation (part : Nat) : Statement (.peerInvalidation part) := fun h => Bool.noConfusion (show false = true from Codec.has_word h)

theorem e2etWrite (v : Nat) : Statement (.e2etWrite v) := fun h => Bool.noConfusion (show false = true from Codec.has_word h)

theorem mortarRound (inst : Inst) : Statement (.mortarRound inst) := fun h => Bool.noConfusion (show false = true from Codec.has_word h)

theorem confirmedDrain (core : Nat) (slot : Nat) : Statement (.confirmedDrain core slot) := fun h => Bool.noConfusion (show false = true from Codec.has_word h)

theorem scrdPairWaitEnd (core : Nat) (slot : Nat) : Statement (.scrdPairWaitEnd core slot) := fun h => Bool.noConfusion (show false = true from Codec.has_word h)

theorem trrdGenerationClose (ctx : Nat) (lid : Nat) : Statement (.trrdGenerationClose ctx lid) := fun h => Bool.noConfusion (show false = true from Codec.has_word h)

theorem trrdDrainWaitEnd (core : Nat) (k : Nat) : Statement (.trrdDrainWaitEnd core k) := fun h => Bool.noConfusion (show false = true from Codec.has_word h)

theorem trmcDelivery (ctx : Nat) (lid : Nat) : Statement (.trmcDelivery ctx lid) := fun h => Bool.noConfusion (show false = true from Codec.has_word h)

theorem trmcDrainWaitEnd (core : Nat) (k : Nat) : Statement (.trmcDrainWaitEnd core k) := fun h => Bool.noConfusion (show false = true from Codec.has_word h)

theorem frameReceive (port : Nat) (f : Frame) : Statement (.frameReceive port f) := fun h => Bool.noConfusion (show false = true from Codec.has_word h)

theorem ackReceive (port : Nat) (f : Frame) : Statement (.ackReceive port f) := fun h => Bool.noConfusion (show false = true from Codec.has_word h)

theorem linkControlFrame (port : Nat) (count : Nat) (gap : Bool) : Statement (.linkControlFrame port count gap) := fun h => Bool.noConfusion (show false = true from Codec.has_word h)

theorem linkDown (port : Nat) : Statement (.linkDown port) := fun h => Bool.noConfusion (show false = true from Codec.has_word h)

theorem e2eTimerExpiry (flow : FlowId) : Statement (.e2eTimerExpiry flow) := fun h => Bool.noConfusion (show false = true from Codec.has_word h)

theorem flowRestart (flow : FlowId) : Statement (.flowRestart flow) := fun h => Bool.noConfusion (show false = true from Codec.has_word h)

theorem streamConfigure (part : Nat) : Statement (.streamConfigure part) := fun h => Bool.noConfusion (show false = true from Codec.has_word h)

theorem streamRelease (part : Nat) : Statement (.streamRelease part) := fun h => Bool.noConfusion (show false = true from Codec.has_word h)

theorem streamWord (stream : Nat) (port : Nat) : Statement (.streamWord stream port) := fun h => Bool.noConfusion (show false = true from Codec.has_word h)

theorem streamMarker (stream : Nat) : Statement (.streamMarker stream) := fun h => Bool.noConfusion (show false = true from Codec.has_word h)

theorem plumbCheck (core : Nat) (slot : Nat) : Statement (.plumbCheck core slot) := fun h => Bool.noConfusion (show false = true from Codec.has_word h)

theorem plumbTimeout (core : Nat) (slot : Nat) : Statement (.plumbTimeout core slot) := fun h => Bool.noConfusion (show false = true from Codec.has_word h)

theorem eccUncorrectable (core : Nat) (slot : Nat) : Statement (.eccUncorrectable core slot) := fun h => Bool.noConfusion (show false = true from Codec.has_word h)

theorem correctedError : Statement (.correctedError) := fun h => Bool.noConfusion (show false = true from Codec.has_word h)

theorem preemptionRequest (part : Nat) (ctx : Nat) : Statement (.preemptionRequest part ctx) := fun h => Bool.noConfusion (show false = true from Codec.has_word h)

theorem contextSave (part : Nat) : Statement (.contextSave part) := fun h => Bool.noConfusion (show false = true from Codec.has_word h)

theorem testSliceEnd (part : Nat) (failed : List Nat) : Statement (.testSliceEnd part failed) := fun h => Bool.noConfusion (show false = true from Codec.has_word h)

theorem contextRestore (part : Nat) (damage : Nat) : Statement (.contextRestore part damage) := fun h => Bool.noConfusion (show false = true from Codec.has_word h)

theorem debugHaltRequest (ctx : Nat) : Statement (.debugHaltRequest ctx) := fun h => Bool.noConfusion (show false = true from Codec.has_word h)

theorem debugHalt (ctx : Nat) : Statement (.debugHalt ctx) := fun h => Bool.noConfusion (show false = true from Codec.has_word h)

theorem debuggerAttach (ctx : Nat) : Statement (.debuggerAttach ctx) := fun h => Bool.noConfusion (show false = true from Codec.has_word h)

theorem debuggerStep (core : Nat) (slot : Nat) : Statement (.debuggerStep core slot) := fun h => Bool.noConfusion (show false = true from Codec.has_word h)

theorem debugRelease (ctx : Nat) : Statement (.debugRelease ctx) := fun h => Bool.noConfusion (show false = true from Codec.has_word h)

theorem fabricKeyInstall (dom : Nat) : Statement (.fabricKeyInstall dom) := fun h => Bool.noConfusion (show false = true from Codec.has_word h)

theorem fabricKeySwitch (dom : Nat) : Statement (.fabricKeySwitch dom) := fun h => Bool.noConfusion (show false = true from Codec.has_word h)

theorem fabricKeyDestroy (dom : Nat) : Statement (.fabricKeyDestroy dom) := fun h => Bool.noConfusion (show false = true from Codec.has_word h)

theorem contextDestroy (ctx : Nat) : Statement (.contextDestroy ctx) := fun h => Bool.noConfusion (show false = true from Codec.has_word h)

theorem powerOn : Statement (.powerOn) := fun h => Bool.noConfusion (show false = true from Codec.has_word h)

theorem readyReport (stage : Nat) : Statement (.readyReport stage) := fun h => Bool.noConfusion (show false = true from Codec.has_word h)

theorem watchdogExpiry : Statement (.watchdogExpiry) := fun h => Bool.noConfusion (show false = true from Codec.has_word h)

theorem recoveryPortTimeout : Statement (.recoveryPortTimeout) := fun h => Bool.noConfusion (show false = true from Codec.has_word h)

theorem recoveryAnswer (set : ImageSet) : Statement (.recoveryAnswer set) := fun h => Bool.noConfusion (show false = true from Codec.has_word h)

theorem recoveryRetry : Statement (.recoveryRetry) := fun h => Bool.noConfusion (show false = true from Codec.has_word h)

theorem attestationRequest (nonce : BitVec 256) : Statement (.attestationRequest nonce) := fun h => Bool.noConfusion (show false = true from Codec.has_word h)

theorem powerOff : Statement (.powerOff) := fun h => Bool.noConfusion (show false = true from Codec.has_word h)

theorem islandFrequencyWrite (island : Nat) (mhz : Nat) : Statement (.islandFrequencyWrite island mhz) := fun h => Bool.noConfusion (show false = true from Codec.has_word h)

theorem frequencyStep (island : Nat) : Statement (.frequencyStep island) := fun h => Bool.noConfusion (show false = true from Codec.has_word h)

theorem powerLimitThrottle (island : Nat) (mhz : Nat) : Statement (.powerLimitThrottle island mhz) := fun h => Bool.noConfusion (show false = true from Codec.has_word h)

theorem softError (t : SoftTarget) : Statement (.softError t) := fun h => Bool.noConfusion (show false = true from Codec.has_word h)

theorem linkTraining (port : Nat) : Statement (.linkTraining port) := fun h => Bool.noConfusion (show false = true from Codec.has_word h)

theorem memoryPlaneFrame : Statement (.memoryPlaneFrame) := fun h => Bool.noConfusion (show false = true from Codec.has_word h)

theorem contextCreation (ctx : Nat) : Statement (.contextCreation ctx) := fun h => Bool.noConfusion (show false = true from Codec.has_word h)

theorem domainCreation (dom : Nat) : Statement (.domainCreation dom) := fun h => Bool.noConfusion (show false = true from Codec.has_word h)

theorem domainDestruction (dom : Nat) : Statement (.domainDestruction dom) := fun h => Bool.noConfusion (show false = true from Codec.has_word h)

end RoundTrip
end Laws
end Sys2Proof
end

