-- ==== Sys2Proof/Laws/Step.lean ====
section
/-! SUPPORT. Laws of a step: what any meaning can answer, and so what any step can change of memory and of the platform of
bring-up. -/

set_option Elab.async false
set_option maxRecDepth 4000

namespace Sys2Proof
namespace Machine

/-! ## The forms of a meaning's answer -/

/-- A next state is what an operation of the device leaves, what an operation of bring-up leaves, a device that starts again, or
the state as it was. -/
inductive Formed (s : State) : State → Prop where
  | device (f : State → State) : Formed s (State.perform f s)
  | powerOn (h : s.plat.stage = .off ∨ s.plat.stage = .verifying) : Formed s (s.restart s.plat)
  | ready (n : Nat) : Formed s (s.performPlat fun k => k.ready n)
  | watchdog (h : s.plat.stage.up = true) : Formed s (s.performPlat fun k => k.recover s.time)
  | port (p : Option Nat) : Formed s (s.performPlat fun k => { k with recoveryPort := p, portAt := s.time })
  | answer (set : ImageSet) (h : setGood s.plat.fuses set = true) : Formed s (s.restart { s.plat with flash := set })
  | answered : Formed s (s.performPlat fun k => { k with answered := true })
  | retry (h : s.plat.stage = .recovery) : Formed s (s.performPlat fun k => k.askRecovery s.fabric.devId s.time)
  | attest (nonce : BitVec 256) : Formed s (s.performPlat fun k => k.attest s.fabric.devId nonce)
  | off : Formed s (s.after { s.plat.abandon with stage := .off, quote := none })
  | target (i f : Nat) : Formed s (s.performPlat fun k => k.target i f)
  | frequency (i : Nat) (busy : Bool) : Formed s (s.performPlat fun k => k.step i busy s.time)
  | throttle (i f : Nat) : Formed s (s.performPlat fun k => k.throttle i f s.time)
  | trained (f : State → State) (port : Nat) :
    Formed s ((s.perform f).performPlat fun k => k.portTrained port s.time s.fabric.devId)
  | same : Formed s s

theorem issue_formed {j : Instr} {body : State → Effect} {s t : State} (h : issue j body s = .next t) : Formed s t := by
  unfold issue at h
  split at h
  · cases h; exact .device _
  · cases h

theorem event_formed {f : State → State} {s t : State} (h : event f s = .next t) : Formed s t := by
  cases h; exact .device _

theorem portStep_formed {j : Instr} {body : State → Except Stop State} {s t : State} (h : portStep j body s = .next t) :
    Formed s t := by
  unfold portStep at h
  split at h
  · cases h; exact .device _
  · cases h

/-- An operation of bring-up that has an effect in some case only. -/
theorem performPlat_formed {s : State} {f g : Platform → Platform} (c : Prop) [Decidable c]
    (h : ∀ k, k = s.plat → f k = if c then g k else k) (hg : c → Formed s (s.performPlat g)) : Formed s (s.performPlat f) := by
  have e : s.performPlat f = if c then s.performPlat g else s := by
    unfold State.performPlat
    rw [h _ rfl]
    split <;> rfl
  rw [e]
  split
  · next hc => exact hg hc
  · exact .same

theorem powerOn_formed {s t : State} (h : execPowerOn s = .next t) : Formed s t := by
  unfold execPowerOn at h
  cases h
  split
  · next h => exact .powerOn h
  · exact .same

theorem watchdog_formed {s t : State} (h : execWatchdogExpiry s = .next t) : Formed s t := by
  cases h
  exact performPlat_formed ((s.plat.stage.up && decide (s.plat.watchAt + watchCycles ≤ s.time)) = true)
    (fun k e => by subst e; rfl) fun c => .watchdog (Bool.and_eq_true_iff.1 c).1

theorem port_formed {s t : State} (h : execRecoveryPortTimeout s = .next t) : Formed s t := by
  cases h
  exact performPlat_formed (s.plat.stage = .recovery ∧ s.plat.recoveryPort = some 0 ∧ (s.fabric.link 24).up = false
      ∧ s.plat.portAt + cyclesPerSec ≤ s.time)
    (fun k e => by subst e; rfl) fun _ => .port (some 1)

theorem answer_formed {set : ImageSet} {s t : State} (h : execRecoveryAnswer set s = .next t) : Formed s t := by
  unfold execRecoveryAnswer State.recoveryAnswer at h
  cases h
  split
  · next c =>
    split
    · next g => exact .answer set (by rw [setGood, c.2, g]; rfl)
    · exact .answered
  · exact .same

theorem retry_formed {s t : State} (h : execRecoveryRetry s = .next t) : Formed s t := by
  cases h
  exact performPlat_formed (s.plat.stage = .recovery ∧ s.recoveryLink = true
      ∧ (s.plat.request = none ∨ s.plat.askedAt + 10 * cyclesPerSec ≤ s.time))
    (fun k e => by subst e; rfl) fun c => .retry c.1

theorem managedPlat_formed {f : Platform → Platform} {s t : State} (hf : Formed s (s.performPlat f)) (h : managedPlat f s = .next t) :
    Formed s t := by
  cases h
  split
  · exact hf
  · exact .same

theorem ready_formed {n : Nat} {s t : State} (h : execReadyReport n s = .next t) : Formed s t := by cases h; exact .ready n
theorem attest_formed {x : BitVec 256} {s t : State} (h : execAttestationRequest x s = .next t) : Formed s t := by
  cases h; exact .attest x
theorem off_formed {s t : State} (h : execPowerOff s = .next t) : Formed s t := by cases h; exact .off
theorem target_formed {i f : Nat} {s t : State} (h : execIslandFrequencyWrite i f s = .next t) : Formed s t :=
  managedPlat_formed (.target i f) h
theorem frequency_formed {i : Nat} {s t : State} (h : execFrequencyStep i s = .next t) : Formed s t := by
  cases h; exact .frequency i _
theorem throttle_formed {i f : Nat} {s t : State} (h : execPowerLimitThrottle i f s = .next t) : Formed s t :=
  managedPlat_formed (.throttle i f) h
theorem training_formed {p : Nat} {s t : State} (h : execLinkTraining p s = .next t) : Formed s t := by
  cases h; exact .trained _ p

/-- What any meaning answers has one of the forms. -/
theorem exec_formed {j : Instr} {s t : State} (h : exec j s = .next t) : Formed s t := by
  cases j
  all_goals first
    | exact issue_formed h
    | exact event_formed h
    | exact portStep_formed h
    | exact powerOn_formed h
    | exact ready_formed h
    | exact watchdog_formed h
    | exact port_formed h
    | exact answer_formed h
    | exact retry_formed h
    | exact attest_formed h
    | exact off_formed h
    | exact target_formed h
    | exact frequency_formed h
    | exact throttle_formed h
    | exact training_formed h

/-! ## Where a step starts from -/

/-- Two states agree in memory, the writes under way and the platform. -/
structure Alike (s u : State) : Prop where
  mem : u.mem = s.mem
  wr : u.wr = s.wr
  plat : u.plat = s.plat

theorem Alike.refl (s : State) : Alike s s := ⟨rfl, rfl, rfl⟩
theorem Alike.of {s u v : State} (h : Alike u v) (h1 : u.mem = s.mem) (h2 : u.wr = s.wr) (h3 : u.plat = s.plat) : Alike s v :=
  ⟨h.mem.trans h1, h.wr.trans h2, h.plat.trans h3⟩
theorem Alike.trans {s u v : State} (h : Alike s u) (g : Alike u v) : Alike s v :=
  ⟨g.mem.trans h.mem, g.wr.trans h.wr, g.plat.trans h.plat⟩

theorem fetchHalf_alike (s : State) (c n : Nat) (pc : Pc) (off : Nat) : Alike s (s.fetchHalf c n pc off).1 := by
  unfold State.fetchHalf
  split
  · dsimp only
    split
    · split <;> exact ⟨rfl, rfl, rfl⟩
    · exact .refl s
  · exact .refl s

theorem fetchBytes_alike (s : State) (c n : Nat) : Alike s (s.fetchBytes c n).1 := by
  unfold State.fetchBytes
  dsimp only
  have h1 := fetchHalf_alike s c n (s.slot c n).pc (s.slot c n).pc.off
  split
  · next u e => rw [e] at h1; exact h1
  · next u bs _ e =>
    rw [e] at h1
    split
    · exact h1
    · have h2 := fetchHalf_alike u c n (s.slot c n).pc ((s.slot c n).pc.off + 1)
      exact h1.trans h2

theorem fetch_alike (s : State) (c n : Nat) : Alike s (s.fetch c n).1 := by
  unfold State.fetch
  have h := fetchBytes_alike s c n
  split
  next u bs e =>
    rw [e] at h
    split
    · exact h
    · split <;> exact h

theorem nextInstr_alike (s : State) : Alike s s.nextInstr.1 := by
  unfold State.nextInstr
  split
  · exact .refl s
  · exact fetch_alike s _ _

/-! ## Frames that leave at the end of a count of TIME -/

theorem pumpPort_alike (port fuel : Nat) : ∀ s : State, Alike s (s.pumpPort port fuel) := by
  induction fuel with
  | zero => exact Alike.refl
  | succ n ih =>
    intro s
    unfold State.pumpPort
    split
    · exact .refl s
    · dsimp only
      split
      · exact Alike.of (ih _) rfl rfl rfl
      · exact .refl s

theorem forwardFrame_alike (s : State) (k : Nat) (fr : Frame) : Alike s (s.forwardFrame k fr) := by
  unfold State.forwardFrame
  extract_lets all ports
  split
  · exact ⟨rfl, rfl, rfl⟩
  · split
    next n u e =>
    have hu : u = s.nextFree.2 := by rw [e]
    subst hu
    split
    · exact Alike.of (pumpPort_alike _ _ _) rfl rfl rfl
    · exact ⟨rfl, rfl, rfl⟩

theorem inject_alike (s : State) (k : Nat) (fr : Frame) : Alike s (s.inject k fr) := by
  unfold State.inject
  split
  · exact forwardFrame_alike _ _ _
  · exact ⟨rfl, rfl, rfl⟩

theorem emit_alike (s : State) (w : FlowId) (dom strm : Nat) (out : Option Nat) (pl : Payload) :
    Alike s (s.emit w dom strm out pl) := by
  unfold State.emit
  exact Alike.of (inject_alike _ _ _) rfl rfl rfl

theorem sendService_alike (s : State) (dev tc dom core req : Nat) (v : Service) : Alike s (s.sendService dev tc dom core req v) := by
  unfold State.sendService State.sendFrame State.sendVia
  dsimp only
  split
  · exact emit_alike _ _ _ _ _ _
  · exact ⟨rfl, rfl, rfl⟩

theorem acksOut_alike (fuel : Nat) : ∀ s : State, Alike s (State.acksOut fuel s) := by
  induction fuel with
  | zero => exact Alike.refl
  | succ n ih =>
    intro s
    unfold State.acksOut
    split
    · exact .refl s
    · dsimp only
      refine Alike.trans ?_ (ih _)
      split <;> exact Alike.of (sendService_alike _ _ _ _ _ _ _) rfl rfl rfl

/-- The end of a count of TIME leaves memory and the platform alone. -/
theorem pass_alike (s : State) (n : Nat) : Alike s (s.pass n) :=
  Alike.trans (acksOut_alike _ s) ⟨rfl, rfl, rfl⟩

theorem tick_alike (s : State) : Alike s s.tick := by
  unfold State.tick
  split
  · exact .refl s
  · exact Alike.of (pass_alike _ _) rfl rfl rfl

/-! ## The device's own events are meanings -/

/-- What an event answers has one of the forms. -/
def Tame (j : Event) : Prop := ∀ s t, j s = .next t → Formed s t

theorem tame_event (f : State → State) : Tame fun s => event f s := fun _ _ h => event_formed h

theorem slotEvents_tame (c n : Nat) (t : Slot) : ∀ j ∈ slotEvents c n t, Tame j := by
  intro j h
  unfold slotEvents at h
  split at h
  · simp only [List.mem_cons, List.not_mem_nil, or_false] at h
    rcases h with h | h | h | h | h | h | h | h | h | h | h | h | h <;> subst h <;> exact fun _ _ h => event_formed h
  · cases h

theorem flightEvents_tame (c k : Nat) : ∀ j ∈ flightEvents c k, Tame j := by
  intro j h
  simp only [flightEvents, List.mem_cons, List.not_mem_nil, or_false] at h
  rcases h with h | h | h | h | h | h | h | h | h | h | h | h | h | h <;> subst h <;> exact fun _ _ h => event_formed h

theorem unitEvents_tame (c : Nat) : ∀ j ∈ unitEvents c, Tame j := by
  intro j h
  simp only [unitEvents, List.mem_append, List.mem_cons, List.not_mem_nil, or_false, List.mem_flatMap] at h
  rcases h with h | ⟨ch, -, h | h⟩
  · rcases h with h | h | h | h | h | h | h | h | h | h | h | h | h | h | h | h | h | h <;> subst h <;> exact fun _ _ h => event_formed h
  · subst h; exact fun _ _ h => event_formed h
  · subst h; exact fun _ _ h => event_formed h

theorem coreEvents_tame (c : Nat) (k : Core) : ∀ j ∈ coreEvents c k, Tame j := by
  intro j h
  simp only [coreEvents, List.mem_append, List.mem_flatMap, List.mem_map] at h
  rcases h with ((⟨e, -, h⟩ | ⟨i, -, h⟩) | ⟨i, -, h⟩) | h
  · exact slotEvents_tame _ _ _ j h
  · exact flightEvents_tame _ _ j h
  · subst h; exact fun _ _ h => event_formed h
  · exact unitEvents_tame _ j h

theorem netEvents_tame (k : Nat) : ∀ j ∈ netEvents k, Tame j := by
  intro j h
  simp only [netEvents, List.mem_cons, List.not_mem_nil, or_false] at h
  rcases h with h | h | h | h | h | h | h | h <;> subst h <;> exact fun _ _ h => event_formed h

theorem partEvents_tame (p : Nat) (k : Partition) : ∀ j ∈ partEvents p k, Tame j := by
  intro j h
  simp only [partEvents, List.mem_append, List.mem_cons, List.not_mem_nil, or_false, List.mem_map] at h
  rcases h with ((h | ⟨r, -, h⟩) | ⟨g, -, h⟩) | ⟨e, -, h⟩
  · rcases h with h | h | h | h | h | h | h | h <;> subst h <;> exact fun _ _ h => event_formed h
  · subst h
    unfold replyEvent
    split
    · exact fun _ _ h => event_formed h
    · split <;> exact fun _ _ h => event_formed h
  · subst h; exact fun _ _ h => event_formed h
  · subst h; exact fun _ _ h => event_formed h

theorem launchEvents_tame (ctx lid : Nat) (cores clusters : List Nat) (k : Launch) : ∀ j ∈ launchEvents ctx lid cores clusters k, Tame j := by
  intro j h
  unfold launchEvents at h
  split at h
  · cases h
  · simp only [List.mem_append, List.mem_cons, List.not_mem_nil, or_false] at h
    rcases h with h | h
    · rcases h with h | h | h | h <;> subst h <;> exact fun _ _ h => event_formed h
    · split at h
      · simp only [List.mem_append, List.mem_map] at h
        rcases h with ⟨x, -, h⟩ | ⟨x, -, h⟩ <;> subst h <;> exact fun _ _ h => event_formed h
      · cases h

theorem ctxEvents_tame (s : State) (ctx : Nat) (x : Ctx) : ∀ j ∈ s.ctxEvents ctx x, Tame j := by
  intro j h
  unfold State.ctxEvents at h
  split at h
  · cases h
  · simp only [List.mem_append, List.mem_map, List.mem_flatMap] at h
    rcases h with ⟨r, -, h⟩ | ⟨e, -, h⟩
    · subst h; exact fun _ _ h => event_formed h
    · exact launchEvents_tame _ _ _ _ _ j h

theorem fabricEvents_tame (f : Fabric) : ∀ j ∈ f.events, Tame j := by
  intro j h
  simp only [Fabric.events, List.mem_append, List.mem_map, List.mem_flatMap, List.mem_cons, List.not_mem_nil, or_false] at h
  rcases h with ((⟨e, -, h⟩ | ⟨e, -, h | ⟨p, -, h⟩⟩) | h) | h
  · subst h; exact fun _ _ h => event_formed h
  · subst h; exact fun _ _ h => event_formed h
  · subst h; exact fun _ _ h => event_formed h
  · split at h
    · cases h
    · simp only [List.mem_cons, List.not_mem_nil, or_false] at h
      subst h; exact fun _ _ h => event_formed h
  · rcases h with h | h <;> subst h <;> exact tame_event _

theorem ownEvents_tame (s : State) : ∀ l ∈ s.ownEvents, ∀ j ∈ l, Tame j := by
  intro l hl j h
  simp only [State.ownEvents, List.mem_append, List.mem_map, List.mem_cons, List.not_mem_nil, or_false] at hl
  rcases hl with ((((((⟨e, -, e1⟩ | ⟨e, -, e1⟩) | e1) | ⟨e, -, e1⟩) | ⟨e, -, e1⟩) | ⟨e, -, e1⟩) | ⟨e, -, e1⟩) | e1
  · subst e1; exact coreEvents_tame _ _ j h
  · subst e1
    simp only [List.mem_map] at h
    obtain ⟨k, -, h⟩ := h
    subst h; exact fun _ _ h => event_formed h
  · subst e1
    simp only [List.mem_flatMap] at h
    obtain ⟨k, -, h⟩ := h
    exact netEvents_tame _ j h
  · subst e1
    simp only [List.mem_cons, List.not_mem_nil, or_false] at h
    subst h; exact fun _ _ h => event_formed h
  · subst e1
    simp only [List.mem_cons, List.not_mem_nil, or_false] at h
    subst h; exact fun _ _ h => event_formed h
  · subst e1; exact partEvents_tame _ _ j h
  · subst e1; exact ctxEvents_tame _ _ _ j h
  · subst e1; exact fabricEvents_tame _ j h

theorem mem_turned {α : Type} {k : Nat} {l : List α} {x : α} (h : x ∈ turned k l) : x ∈ l := by
  unfold turned at h
  dsimp only at h
  rcases List.mem_append.1 h with h | h
  · exact List.mem_of_mem_drop h
  · exact List.mem_of_mem_take h

theorem own_tame {s : State} {j : Event} (h : s.own? = some j) : Tame j := by
  unfold State.own? at h
  have hm := List.mem_of_find?_eq_some h
  simp only [List.mem_flatMap, id_eq] at hm
  obtain ⟨l, hl, hj⟩ := hm
  exact ownEvents_tame s l (mem_turned hl) j hj

/-! ## What a step answers -/

/-- A next state agrees with one that is formed from a state that agrees with the one that the step took. -/
def From (s t : State) : Prop := ∃ u v, Alike s u ∧ Formed u v ∧ Alike v t

theorem Formed.step {s t : State} (h : Formed s t) : From s t := ⟨s, t, .refl s, h, .refl t⟩
theorem Alike.step {s t : State} (h : Alike s t) : From s t := ⟨t, t, h, .same, .refl t⟩
theorem From.after {s u t : State} (ha : Alike s u) (h : From u t) : From s t := by
  obtain ⟨v, w, h1, h2, h3⟩ := h
  exact ⟨v, w, ha.trans h1, h2, h3⟩
theorem From.before {s u t : State} (h : From s u) (ha : Alike u t) : From s t := by
  obtain ⟨v, w, h1, h2, h3⟩ := h
  exact ⟨v, w, h1, h2, h3.trans ha⟩

theorem issueNow_from {s t : State} (h : s.issueNow = .next t) : From s t := by
  unfold State.issueNow at h
  have ha := nextInstr_alike s
  split at h
  · next u j e => rw [e] at ha; exact From.after ha (exec_formed h).step
  · next u a e => rw [e] at ha; exact From.after ha (event_formed h).step

theorem select_alike (s : State) (c n : Nat) : Alike s (s.select c n) := ⟨rfl, rfl, rfl⟩
theorem afterIssue_alike (s : State) (c n : Nat) : Alike s (s.afterIssue c n) := ⟨rfl, rfl, rfl⟩

theorem issueSlot_from {s t : State} {c n : Nat} (h : s.issueSlot c n = .next t) : From s t := by
  unfold State.issueSlot at h
  split at h
  · exact (event_formed h).step
  · split at h
    · next u e =>
      cases h
      exact (From.after (select_alike s c n) (issueNow_from e)).before (afterIssue_alike u c n)
    · next hx => exact absurd h (hx t)

theorem move_from {s t : State} {m : Move} (h : s.move m = .next t) : From s t := by
  cases m with
  | event j =>
    simp only [State.move] at h
    split at h
    · exact (exec_formed h).step
    · cases h; exact Formed.same.step
  | issue c n =>
    simp only [State.move] at h
    split at h
    · exact issueSlot_from h
    · cases h; exact Formed.same.step
  | debug c n =>
    simp only [State.move] at h
    split at h
    · exact From.after (select_alike s c n) (issueNow_from h)
    · cases h; exact Formed.same.step
  | evict c ln => exact (event_formed h).step
  | evictHome ln => exact (event_formed h).step
  | evictPartial ln src => exact (event_formed h).step

theorem issueTurn_from {s t : State} (h : s.issueTurn = .next t) : From s t := by
  unfold State.issueTurn at h
  split at h
  · exact issueSlot_from h
  · cases h
    exact Alike.step (Alike.of (pass_alike _ _) rfl rfl rfl)

theorem round_from {s t : State} {i : Inst} (h : execMortarRound i s = .next t) : From s t := by
  unfold execMortarRound at h
  exact (event_formed h).step

theorem ownTurn_from {s t : State} {j : Event} (e : s.own? = some j) (h : j { s with evs := s.evs + 1 } = .next t) : From s t :=
  From.after (u := { s with evs := s.evs + 1 }) ⟨rfl, rfl, rfl⟩ (own_tame e _ _ h).step

theorem proceed_from {s t : State} (h : s.proceed = .next t) : From s t := by
  unfold State.proceed at h
  cases hr : s.dueRound? with
  | some i => rw [hr] at h; exact round_from h
  | none =>
    rw [hr] at h
    dsimp only at h
    split at h
    · cases ho : s.own? with
      | some j => rw [ho] at h; exact ownTurn_from ho h
      | none => rw [ho] at h; exact issueTurn_from h
    · exact issueTurn_from h

/-- A move of the agenda, taken off it. -/
theorem agenda_from {u t : State} {m : Move} {rest : List Move} (h : State.move { u with agenda := rest } m = .next t) : From u t :=
  From.after (u := { u with agenda := rest }) ⟨rfl, rfl, rfl⟩ (move_from h)

/-- Every step that answers a next state forms it, as one meaning does, between states that have the same memory and platform. -/
theorem step_from {s t : State} (h : step s = .next t) : From s t := by
  unfold step at h
  have ha := tick_alike s
  extract_lets u at h
  refine From.after ha ?_
  split at h
  · exact agenda_from h
  · exact proceed_from h

end Machine
end Sys2Proof
end

