-- ==== Sys2Proof/Tests/Slice0.lean ====
section
/-! SUPPORT. Tests of this model: the decode words of every instruction, the instructions that are not well formed, witnesses for
the hypotheses of every statement, and small steps whose results the manual gives. -/

namespace Sys2Proof
namespace Tests

set_option Elab.async false

open Machine Safety

/-! ## Decoding -/

/-- Each word decodes to its instruction, and nothing less. -/
abbrev Decodes (l : List (Nat × Nat × Instr)) : Prop := ∀ r ∈ l, decodeTableWord r.1 r.2.1 = some r.2.2

/-- ALU, multiply and divide, bit fields: words of 05 R76 to R84 with different numbers in all fields. -/
theorem test_decode_alu_1 : Decodes [
    (32, 0x004D4501, .add 5 10 19),
    (32, 0x084D4501, .sub 5 10 19),
    (32, 0x104D4501, .andOp 5 10 19),
    (32, 0x184D4501, .orOp 5 10 19),
    (32, 0x204D4501, .xorOp 5 10 19),
    (32, 0x284D4501, .andn 5 10 19),
    (32, 0x304D4501, .shl 5 10 19),
    (32, 0x384D4501, .shr 5 10 19),
    (32, 0x404D4501, .sha 5 10 19),
    (32, 0x484D4501, .rol 5 10 19),
    (32, 0x504D4501, .min 5 10 19),
    (32, 0x584D4501, .max 5 10 19),
    (32, 0x604D4501, .minn 5 10 19),
    (32, 0x684D4501, .maxn 5 10 19),
    (32, 0x704D4501, .slt 5 10 19),
    (32, 0x784D4501, .sltn 5 10 19),
    (32, 0x804D4501, .seq 5 10 19),
    (32, 0x88014501, .clz 5 10),
    (32, 0x90014501, .ctz 5 10),
    (32, 0x98014501, .popc 5 10),
    (32, 0xA04D4501, .sel 5 10 19),
    (32, 0x00000001, .nop),
    (32, 0x04CD4503, .mul 5 10 19 9),
    (32, 0x0CCD4503, .mulh 5 10 19 9)] := by decide +kernel

/-- ALU, multiply and divide, bit fields: words of 05 R76 to R84 with different numbers in all fields. -/
theorem test_decode_alu_2 : Decodes [
    (32, 0x14CD4503, .mulhn 5 10 19 9),
    (32, 0x1CCD4503, .div 5 10 19 9),
    (32, 0x24CD4503, .divn 5 10 19 9),
    (32, 0x2CCD4503, .rem 5 10 19 9),
    (32, 0x34CD4503, .remn 5 10 19 9),
    (32, 0x06854505, .bfx 5 10 33 6),
    (32, 0x46854505, .bfxs 5 10 33 6),
    (32, 0x86854505, .bfi 5 10 33 6)] := by decide +kernel

/-- Immediates, transfers, control and system: words of 05 R76 to R84 with different numbers in all fields. -/
theorem test_decode_imm_1 : Decodes [
    (32, 0xAAA94507, .addi 5 10 0x2AAA),
    (32, 0xAAA94509, .andi 5 10 0x2AAA),
    (32, 0xAAA9450B, .ori 5 10 0x2AAA),
    (32, 0xAAA9450D, .xori 5 10 0x2AAA),
    (32, 0xAAA94515, .slti 5 10 0x2AAA),
    (32, 0x00AD450F, .shli 5 10 0x2B),
    (32, 0x00AD4511, .shri 5 10 0x2B),
    (32, 0x00AD4513, .shai 5 10 0x2B),
    (32, 0x94B4A517, .li 5 0x4A5A5),
    (32, 0x94B4A519, .lih 5 0x4A5A5),
    (32, 0x94B4A51B, .adr 5 0x4A5A5),
    (32, 0xAAA94521, .beq 5 10 0x2AAA),
    (32, 0xAAA94523, .bne 5 10 0x2AAA),
    (32, 0xAAA94525, .blt 5 10 0x2AAA),
    (32, 0xAAA94527, .bge 5 10 0x2AAA),
    (32, 0xAAA94529, .bltn 5 10 0x2AAA),
    (32, 0xAAA9452B, .bgen 5 10 0x2AAA),
    (32, 0xA5C3692D, .jmp 0xA5C369),
    (32, 0xA5C3692F, .jal 0xA5C369),
    (32, 0x55554531, .jalr 5 10 0x1555),
    (32, 0x02954033, .loop 10 0xA5),
    (32, 0x00000035, .endOp),
    (32, 0x08000035, .endd),
    (32, 0x10000035, .cmt)] := by decide +kernel

/-- Immediates, transfers, control and system: words of 05 R76 to R84 with different numbers in all fields. -/
theorem test_decode_imm_2 : Decodes [
    (32, 0x18000035, .folw),
    (32, 0xA5C30037, .sig 0xA5C3),
    (32, 0x05C30137, .sigShort 0x5C3),
    (32, 0x297005F1, .rdc 5 0xA5C),
    (32, 0x297140F3, .wrc 10 0xA5C),
    (32, 0x970C00F5, .trap 0x25C3),
    (32, 0x000000F7, .bkpt),
    (32, 0x080000F7, .fnci),
    (32, 0x004D40F9, .tlbi 10 19),
    (32, 0x080005F9, .snap 5),
    (32, 0x100000F9, .dbgh),
    (32, 0x184D40F9, .synld 10 19)] := by decide +kernel

/-- Memory, atomics, messages, engines, walkers, launches: words of 05 R76 to R84 with different numbers in all fields. -/
theorem test_decode_mem_1 : Decodes [
    (32, 0xA9654541, .ldB 5 10 9 0x2A5),
    (32, 0xA9654543, .ldH 5 10 9 0x2A5),
    (32, 0xA9654545, .ldW 5 10 9 0x2A5),
    (32, 0xA9654547, .ldD 5 10 9 0x2A5),
    (32, 0xA9654549, .ldBS 5 10 9 0x2A5),
    (32, 0xA965454B, .ldHS 5 10 9 0x2A5),
    (32, 0xA965454D, .ldWS 5 10 9 0x2A5),
    (32, 0xA941454F, .stB 5 10 0x2A5),
    (32, 0xA9414551, .stH 5 10 0x2A5),
    (32, 0xA9414553, .stW 5 10 0x2A5),
    (32, 0xA9414555, .stD 5 10 0x2A5),
    (32, 0xA9654657, .ldp 6 10 9 0x2A5),
    (32, 0xA9414659, .stp 6 10 0x2A5),
    (32, 0x6C89455B, .lds 5 10 2 9 1 1 1),
    (32, 0x1C89455B, .lds 5 10 2 9 3 0 0),
    (32, 0xB009455B, .sts 5 10 2 2 1),
    (32, 0x9805455B, .sts 5 10 1 3 0),
    (32, 0xC008085B, .fnc 0b1000 2),
    (32, 0xC809405B, .pfx 10 2),
    (32, 0xD009405B, .cln 10 2),
    (32, 0xD805405B, .invl 10 1),
    (32, 0x04CD4571, .tmad 5 10 19 9),
    (32, 0xB4CD455D, .amo 5 10 19 9 6 1),
    (32, 0x54CD455D, .amo 5 10 19 9 10 0)] := by decide +kernel

/-- Memory, atomics, messages, engines, walkers, launches: words of 05 R76 to R84 with different numbers in all fields. -/
theorem test_decode_mem_2 : Decodes [
    (32, 0xB84D405F, .amop 10 19 7 1),
    (32, 0xE04D405F, .red 10 19 0 1),
    (32, 0x684D405F, .red 10 19 1 0),
    (32, 0xF04D405F, .red 10 19 2 1),
    (32, 0x784D405F, .red 10 19 3 0),
    (32, 0x004D8561, .send 5 12 19),
    (32, 0x15A98563, .sendk 5 12 0x2A 0x15),
    (32, 0x004D8565, .sendx 5 12 19),
    (32, 0x04CD8567, .spwn 5 12 19 9),
    (32, 0x00018069, .rdx 12),
    (32, 0x0480086B, .deq 8 9),
    (32, 0x0001406D, .mxq 10),
    (32, 0x0C81456D, .mxqt 5 10 9),
    (32, 0x0481856F, .cpq 5 12 9),
    (32, 0x0C81856F, .cpqt 5 12 9),
    (32, 0x04814577, .wknx 5 10 9),
    (32, 0x0C814577, .clv 5 10 9),
    (32, 0x14CD4577, .wkrd 5 10 19 9),
    (32, 0x004D4579, .lnch 5 10 19),
    (32, 0x08000079, .trig)] := by decide +kernel

/-- Vector and mask instructions: words of 05 R76 to R84 with different numbers in all fields. -/
theorem test_decode_vec_1 : Decodes [
    (32, 0x074D4581, .vfadd 5 10 19 6 1),
    (32, 0x074D4583, .vfsub 5 10 19 6 1),
    (32, 0x074D4585, .vfmul 5 10 19 6 1),
    (32, 0x074D4587, .vfma 5 10 19 6 1),
    (32, 0x074D4589, .vfms 5 10 19 6 1),
    (32, 0x074D458B, .vfnma 5 10 19 6 1),
    (32, 0x074D458D, .vfmin 5 10 19 6 1),
    (32, 0x074D458F, .vfmax 5 10 19 6 1),
    (32, 0x07014591, .vfabs 5 10 6 1),
    (32, 0x0F014591, .vfneg 5 10 6 1),
    (32, 0x174D4591, .vfcpy 5 10 19 6 1),
    (32, 0x2F4D4393, .vfcmp 3 10 19 6 1 5),
    (32, 0x07014595, .vrcp 5 10 6 1),
    (32, 0x07014597, .vrsq 5 10 6 1),
    (32, 0x07014599, .vexp2 5 10 6 1),
    (32, 0x174D45A1, .vadd 5 10 19 6 1 2),
    (32, 0x174D45A3, .vsub 5 10 19 6 1 2),
    (32, 0x174D45A5, .vmul 5 10 19 6 1 2),
    (32, 0x174D45A7, .vmulh 5 10 19 6 1 2),
    (32, 0x174D45A9, .vmin 5 10 19 6 1 2),
    (32, 0x174D45AB, .vmax 5 10 19 6 1 2),
    (32, 0x174D45B3, .vshl 5 10 19 6 1 2),
    (32, 0x174D45B5, .vshr 5 10 19 6 1 2),
    (32, 0x174D45B7, .vsha 5 10 19 6 1 2)] := by decide +kernel

/-- Vector and mask instructions: words of 05 R76 to R84 with different numbers in all fields. -/
theorem test_decode_vec_2 : Decodes [
    (32, 0x074D45AD, .vand 5 10 19 6 1),
    (32, 0x074D45AF, .vor 5 10 19 6 1),
    (32, 0x074D45B1, .vxor 5 10 19 6 1),
    (32, 0xAF4D43B9, .vcmp 3 10 19 6 1 1 5),
    (32, 0x134D45BB, .vsel 5 10 19 6 2),
    (32, 0xA96545C1, .vld 5 10 9 0x2A5),
    (32, 0xA94145C3, .vst 5 10 0x2A5),
    (32, 0xA96545C5, .vldb 5 10 9 0x2A5),
    (32, 0xB4CD45C7, .vldx 5 10 19 9 6 2),
    (32, 0xB04D45C9, .vstx 5 10 19 6 2),
    (32, 0x174D45CB, .vperm 5 10 19 6 1 2),
    (32, 0x374D45CB, .vsld 5 10 19 6 1 2),
    (32, 0x504D45CB, .vins 5 10 19 2),
    (32, 0x704D45CB, .vext 5 10 19 2),
    (32, 0x970145CB, .vbcast 5 10 6 1 2),
    (32, 0xB30145CD, .vred 5 10 6 2 5),
    (32, 0xEB0145CF, .vscan 5 10 6 1 7),
    (32, 0xD5A945D1, .vcvt 5 10 0x2A 0x15 3),
    (32, 0x55A945D3, .vcvtSat 5 10 0x2A 0x15 1),
    (32, 0x1B4D45D5, .vbsc 5 10 19 6 3),
    (32, 0x000CC5D7, .mand 5 6 3),
    (32, 0x080CC5D7, .mor 5 6 3),
    (32, 0x100CC5D7, .mxor 5 6 3),
    (32, 0x1800C5D7, .mnot 5 6)] := by decide +kernel

/-- Vector and mask instructions: words of 05 R76 to R84 with different numbers in all fields. -/
theorem test_decode_vec_3 : Decodes [
    (32, 0x2000D3D7, .mpop 19 6),
    (32, 0x280265D7, .mset 5 19)] := by decide +kernel

/-- The mortar plane: words of 05 R76 to R84 with different numbers in all fields. -/
theorem test_decode_mortar : Decodes [
    (32, 0x084D80E1, .carv 12 19),
    (32, 0x084D40E3, .cexp 10 19),
    (32, 0x0CCD45E5, .cmis 5 10 19 9),
    (32, 0x080140E7, .cjoin 10),
    (32, 0x280140E7, .cquit 10),
    (32, 0x084D40E9, .tkrq 10 19 1),
    (32, 0x300140E9, .tkps 10 2),
    (32, 0x148005EB, .scrd 5 9 2),
    (32, 0x2C8145EB, .lgrd 5 10 9 1),
    (32, 0x104D80ED, .trmc 12 19),
    (32, 0x14CD45EF, .trrd 5 10 19 9)] := by decide +kernel

/-- Compact forms: words of 05 R76 to R84 with different numbers in all fields. -/
theorem test_decode_compact : Decodes [
    (16, 0x28A0, .cMv 5 10),
    (16, 0x4CA2, .cAdd 5 19),
    (16, 0x4CA4, .cSub 5 19),
    (16, 0x4CA6, .cAnd 5 19),
    (16, 0xA8A8, .cAddi 5 0x2A),
    (16, 0xA8AA, .cShli 5 0x2A),
    (16, 0xA8AC, .cLi 5 0x2A),
    (16, 0xAE6E, .cLd 3 6 21),
    (16, 0xAE70, .cSt 3 6 21),
    (16, 0xA572, .cBeqz 3 0xA5),
    (16, 0xA574, .cBnez 3 0xA5),
    (16, 0xB4B6, .cJ 0x5A5),
    (16, 0x0018, .cEnd),
    (16, 0x001A, .cCmt),
    (16, 0xB4BC, .cSig 0x5A5),
    (16, 0x001E, .cNop)] := by decide +kernel

/-! ## Instructions that are not well formed (05 R80, R82, R84, R85) -/

/-- Each check of the forms refuses an instruction of its own. -/
theorem test_illFormed : ∀ r ∈ [
    (Instr.add 3 31 31, DecodeError.portTwice), (.beq 28 28 4, .portTwice), (.mul 30 1 2 0, .portDest), (.ldD 31 4 0 0, .portDest),
    (.ldp 3 4 0 0, .group), (.send 1 6 2, .group), (.deq 9 0, .group), (.amo 1 2 5 0 9 1, .group), (.addi 3 29 1, .qbldRead),
    (.bfx 1 2 60 4, .fieldWidth), (.lds 1 2 0 0 3 1 0, .operation), (.amo 1 2 3 0 12 0, .operation), (.amop 1 2 9 1, .operation),
    (.red 1 2 0 0, .operation), (.invl 1 2, .scope), (.tkrq 1 2 3, .scope), (.scrd 1 0 1, .scope), (.vfcmp 1 2 3 0 0 6, .lane),
    (.vcmp 1 2 3 0 0 1 6, .lane), (.vperm 1 2 3 0 0 0, .lane), (.vred 1 2 0 2 0, .lane), (.vbsc 1 3 2 0 1, .lane),
    (.mand 8 1 2, .maskReg), (.mpop 1 8, .maskReg), (.loop 3 0, .bodyLength), (.fnc 0 1, .fenceKind), (.cMv 0 0, .zeroHalf)],
    forbidden r.1 = some r.2 ∧ WellFormed r.1 = false := by decide +kernel

/-- Words and bytes that no row of the map stands for are refused by name. -/
theorem test_refusedBytes :
    decode [0x1D, 0, 0, 0] = .error (.opcode, 0x1D) ∧ decode [0x01, 0, 0, 0xA8] = .error (.function, 0xA8000001) ∧
    decode [0xFF, 0xFF, 0xFF, 0xFF] = .error (.opcode, 0xFFFFFFFF) ∧ decode [0x00, 0x84] = .error (.reserved, 0x8400) ∧
    decode [0x00, 0x00] = .error (.zeroHalf, 0) ∧ decode [0x01, 0, 0] = .error (.tooShort, 1) ∧
    decode [0x6D, 0x20, 0x81, 0x00] = .error (.function, 0x0081206D) := by decide +kernel

/-- An event of the machine is no instruction, and NOP is the form of its word. -/
theorem test_wellFormed : WellFormed (.taskDispatch 0) = false ∧ WellFormed .nop = true ∧ WellFormed (.add 0 0 0) = false ∧
    WellFormed (.bfx 1 2 60 3) = true := by decide +kernel

/-! ## States and readiness for the witnesses -/

/-- A task in slot `n` of core `c` of partition 0, changed by the given functions. -/
def stAt (c n : Nat) (f : Slot → Slot := id) (k : Core → Core := id) (q : State → State := id) : State :=
  q { State.reset.modCtx 1 (fun x => { x with alive := true }) with
      parts := Tbl.set [] 0 { en := true, resident := true, ctx := 1, pw := 3, ph := 3 }
      cores := Tbl.set [] c (k { slots := Tbl.set [] n (f { running := true, budg := 4096, repl := true, task := 1, pc := ⟨false, 160⟩ }),
                                 tasks := 1 })
      curCore := c, curSlot := n }

/-- A task in slot 1 of core 0; in the supervisor slot. -/
def st (f : Slot → Slot := id) (k : Core → Core := id) (q : State → State := id) : State := stAt 0 1 f k q
def sup (f : Slot → Slot := id) (k : Core → Core := id) (q : State → State := id) : State := stAt 8 7 f k q

/-- General registers for a slot. -/
def regs (l : List (Nat × W64)) (t : Slot) : Slot := { t with g := l.foldl (fun g e => Tbl.put 0 g e.1 e.2) [] }

/-- A message by class 0 from core 0 to itself. -/
def msg0 : Msg :=
  { kind := .byClass, target := 0, source := 0, spart := 0, msgid := 1, handler := 0, bclass := 0, defer := 0, prio := 0, refuse := 0,
    args := ⟨0, 0, 0, 0⟩, payload := [], code := [], launch := none, comp := none, held := false, retried := false, tcause := 0,
    taddr := 0, tie := .none }

/-- `Ready`, as facts that can be evaluated. -/
abbrev IsReady (j : Instr) (s : State) : Prop := s.wr = [] ∧ s.cur.running = true ∧ preIssue s j = .ok ()

theorem isReady_iff (j : Instr) (s : State) : IsReady j s ↔ Ready j s :=
  ⟨fun h => ⟨h.1, h.2.1, h.2.2⟩, fun h => ⟨h.fresh, h.running, h.checks⟩⟩

/-- The task with 5 in g1, 7 in g2, and places of its own scratchpad in g3, g8 and g9. -/
def w0 : State := st (regs [(1, 5), (2, 7), (3, 0xFFFE000000000040#64), (8, 0xFFFE000000000080#64), (9, 3)])

/-! ## Witnesses: integer instructions and transfers -/

theorem witness_AluTwoSource :
    (∀ j ∈ [.add 3 1 2, .sub 3 1 2, .andOp 3 1 2, .orOp 3 1 2, .xorOp 3 1 2, .andn 3 1 2, .shl 3 1 2, .shr 3 1 2, .sha 3 1 2, .rol 3 1 2,
      .min 3 1 2, .max 3 1 2, .minn 3 1 2, .maxn 3 1 2, .slt 3 1 2, .sltn 3 1 2, .seq 3 1 2, .cMv 3 1, .cAdd 3 2, .cSub 3 2, .cAnd 3 2],
      (aluForm j).isSome = true ∧ IsReady j w0) ∧
    readG w0 1 = .ok (w0, 5) ∧ readG w0 2 = .ok (w0, 7) ∧ readG w0 3 = .ok (w0, 0xFFFE000000000040#64) ∧ readG w0 0 = .ok (w0, 0) ∧
    settable w0 3 = true ∧ IsReady (.sel 3 1 2) w0 ∧ settable w0 0 = true ∧ settable w0 29 = true ∧ settable w0 28 = false := by
  and_intros <;> decide +kernel

theorem witness_AluOneSource :
    (∀ j ∈ [.clz 3 1, .ctz 3 1, .popc 3 1, .bfx 3 1 60 3, .bfxs 3 1 0 63, .addi 3 1 0x2000, .andi 3 1 4, .ori 3 1 4, .xori 3 1 4,
      .shli 3 1 63, .shri 3 1 63, .shai 3 1 63, .slti 3 1 4, .cAddi 1 4, .cShli 1 4], (unaryForm j).isSome = true ∧ IsReady j w0) ∧
    readG w0 1 = .ok (w0, 5) ∧ settable w0 3 = true ∧ settable w0 1 = true ∧
    IsReady (.bfi 2 1 60 3) w0 ∧ readG w0 2 = .ok (w0, 7) ∧
    (let z : W64 := 0x5000000000000007#64
     ∀ i < 64, z.getLsbD i = if 60 ≤ i ∧ i < 60 + 3 + 1 then (5 : W64).getLsbD (i - 60) else (7 : W64).getLsbD i) ∧
    IsReady (.li 3 0x40000) w0 ∧ IsReady (.cLi 3 0x20) w0 ∧ IsReady (.lih 2 1) w0 ∧
    IsReady (.adr 3 (BitVec.ofInt 19 (-160))) w0 ∧ ((0 : Nat) : Int) = w0.cur.pc.off + (BitVec.ofInt 19 (-160)).toInt ∧
    IsReady (.adr 3 32607) w0 ∧ ((32767 : Nat) : Int) = w0.cur.pc.off + (32607#19).toInt ∧
    IsReady (.adr 3 (BitVec.ofInt 19 (-161))) w0 ∧ w0.cur.pc.off + (BitVec.ofInt 19 (-161)).toInt < 0 ∧
    IsReady (.adr 3 32608) w0 ∧ 32767 < w0.cur.pc.off + (32608#19).toInt := by
  and_intros <;> decide +kernel

theorem witness_MultiplyDivide :
    (∀ j ∈ [.mul 3 1 2 0, .mulh 3 1 2 1, .mulhn 3 1 2 15, .div 3 1 0 0, .divn 3 1 2 0, .rem 3 1 2 0, .remn 3 1 0 0],
      (mulForm j).isSome = true ∧ IsReady j w0) ∧ readG w0 1 = .ok (w0, 5) ∧ readG w0 2 = .ok (w0, 7) ∧ readG w0 0 = .ok (w0, 0) ∧
    (mulForm (.mul 28 1 2 0)).isSome = true ∧ 28 ≤ (28 : Reg).toNat ∧ w0.wr = [] ∧ w0.cur.running = true ∧ w0.cur.budg ≠ 0 := by
  and_intros <;> decide +kernel

theorem witness_Branches :
    (∀ j ∈ [.beq 1 2 4, .bne 1 2 4, .blt 1 2 4, .bge 1 2 4, .bltn 1 2 4, .bgen 1 2 4, .cBeqz 0 4, .cBnez 0 4],
      (branchForm j).isSome = true ∧ IsReady j w0) ∧
    readG w0 1 = .ok (w0, 5) ∧ readG w0 2 = .ok (w0, 7) ∧ readG w0 8 = .ok (w0, 0xFFFE000000000080#64) ∧ readG w0 0 = .ok (w0, 0) ∧
    (5 : W64) ≠ 7 ∧ sigStops w0 (.bne 1 2 4) .seq = false ∧
    (let off : BitVec 14 := BitVec.ofInt 14 (-160)
     IsReady (.bne 1 2 off) w0 ∧ ((0 : Nat) : Int) = w0.cur.pc.off + off.toInt ∧
      sigStops w0 (.bne 1 2 off) (.jump { w0.cur.pc with off := 0 }) = false) ∧
    (let off : BitVec 14 := BitVec.ofInt 14 (-161)
     IsReady (.bne 1 2 off) w0 ∧ w0.cur.pc.off + off.toInt < 0) ∧
    (let s := st fun t => { t with pc := ⟨false, 32760⟩ }
     IsReady (.beq 1 2 8) s ∧ readG s 1 = .ok (s, 0) ∧ readG s 2 = .ok (s, 0) ∧ 32767 < s.cur.pc.off + (8#14).toInt) ∧
    (branchForm (.beq 30 30 4)).isSome = true ∧ 28 ≤ (30 : Reg).toNat := by
  and_intros <;> decide +kernel

theorem witness_Jumps :
    (let o : BitVec 24 := BitVec.ofInt 24 (-160)
     IsReady (.jmp o) w0 ∧ IsReady (.jal o) w0 ∧ ((0 : Nat) : Int) = w0.cur.pc.off + o.toInt ∧
      sigStops w0 (.jmp o) (.jump { w0.cur.pc with off := 0 }) = false ∧ sigStops w0 (.jal o) (.jump { w0.cur.pc with off := 0 }) = false) ∧
    (let o : BitVec 11 := BitVec.ofInt 11 (-161)
     IsReady (.cJ o) w0 ∧ w0.cur.pc.off + o.toInt < 0) ∧
    IsReady (.jal 32608) w0 ∧ 32767 < w0.cur.pc.off + (32608#24).toInt ∧
    IsReady (.jalr 1 2 0x3FF9) w0 ∧ readG w0 2 = .ok (w0, 7) ∧ settable w0 1 = true ∧ ((0 : Nat) : Int) = (7 : W64).toNat + (0x3FF9#14).toInt ∧
    sigStops w0 (.jalr 1 2 0x3FF9) (.jump ⟨decide (32768 ≤ 0), 0 % 32768⟩) = false ∧
    IsReady (.jalr 1 2 0x3FF8) w0 ∧ ((7 : W64).toNat : Int) + (0x3FF8#14).toInt < 0 ∧
    (let s := st (regs [(2, 65535)])
     IsReady (.jalr 1 2 0) s ∧ readG s 2 = .ok (s, 65535) ∧ ((65535 : Nat) : Int) = (65535 : W64).toNat + (0#14).toInt ∧
      sigStops s (.jalr 1 2 0) (.jump ⟨decide (32768 ≤ 65535), 65535 % 32768⟩) = false ∧
      IsReady (.jalr 1 2 1) s ∧ 65535 < ((65535 : W64).toNat : Int) + (1#14).toInt) := by
  and_intros <;> decide +kernel

/-- An instruction that takes its effect retires: the premise of the clauses about where control goes. -/
theorem retires_nop (s : State) (h : IsReady .nop s) : Answers (exec .nop s) (Retires s .nop s .seq) :=
  issue_answers (body := fun s => .ok (s, .seq)) ((isReady_iff _ _).1 h) rfl (by decide)
    (sigStops_seq ((isReady_iff _ _).1 h) rfl rfl)

theorem witness_LoopStarts :
    IsReady (.loop 1 255) w0 ∧ w0.cur.lact = false ∧ readG w0 1 = .ok (w0, 5) ∧ (5 : W64) ≠ 0 ∧
    IsReady (.loop 0 1) w0 ∧ readG w0 0 = .ok (w0, 0) ∧
    (let s := st fun t => { t with lact := true, lc := 2, ls := 158, le := 161 }
     IsReady (.loop 1 1) s ∧ s.cur.lact = true) := by
  and_intros <;> decide +kernel

/-- The premises of its second part: outside a loop, at its last instruction with counts 2 and 1; a taken branch; a count of 0. -/
theorem witness_LoopStarts_next :
    Answers (exec .nop w0) (Retires w0 .nop w0 .seq) ∧ w0.cur.lact = false ∧
    (∀ lc, lc = 1 ∨ lc = 2 → let s := st fun t => { t with lact := true, lc := lc, ls := 158, le := 161 }
      Answers (exec .nop s) (Retires s .nop s .seq) ∧ s.cur.lact = true ∧ s.cur.pc.off + instrLen .nop - 1 = s.cur.le ∧ s.cur.lc = lc) ∧
    (let pc : Pc := { w0.cur.pc with off := 164 }
     Answers (exec (.jmp 4) w0) (Retires w0 (.jmp 4) w0 (.jump pc))) ∧
    Answers (exec (.loop 0 1) w0) (Retires w0 (.loop 0 1) w0 (.over 163)) := by
  refine ⟨retires_nop _ (by decide +kernel), by decide +kernel, ?_, ?_, ?_⟩
  · rintro lc (rfl | rfl) <;> exact ⟨retires_nop _ (by decide +kernel), by decide +kernel⟩
  · exact issue_answers (s := w0) (u := w0) (nx := .jump { w0.cur.pc with off := 164 })
      (body := fun s => transfer s ((s.cur.pc.off : Int) + (4#24).toInt))
      ((isReady_iff _ _).1 (by decide +kernel)) (by decide +kernel) (by decide) (by decide +kernel)
  · exact issue_answers (s := w0) (u := w0) (nx := .over 163) (body := bodyLoop 0 1)
      ((isReady_iff _ _).1 (by decide +kernel)) (by decide +kernel) (by decide) (by decide +kernel)

/-! ## Witnesses: commit points, traps, system instructions, ports, buffer -/

theorem resultsIn_of {s : State} (h : s.cur.pend = []) : ResultsIn s := by
  intro p hp; rw [h] at hp; cases hp

theorem mayHandOn_of {s : State} (h : s.cur.pend = [] ∧ s.cur.handed = false ∧ s.cur.taint = false ∧ s.paired s.curCore s.curSlot = false) :
    MayHandOn s :=
  ⟨resultsIn_of h.1, h.2.1, fun e => by simp [h.2.2.1] at e, fun e => by simp [h.2.2.2] at e⟩

theorem mayDrain_of {s : State} (h : (s.cur.pend = [] ∧ s.cur.handed = false ∧ s.cur.taint = false ∧ s.paired s.curCore s.curSlot = false) ∧
    (handsOn s).ownOpen s.curCore s.curSlot = false) : MayDrain s :=
  ⟨mayHandOn_of h.1, h.2⟩

/-- A task whose running block is armed with a signature that its END does not have, and one that has it. -/
def sigBadState : State := st fun t => { t with armed := true, exp := 0x1234 }
def sigGoodState : State := st fun t => { t with armed := true, exp := (instrHalves .endOp).foldl crc16Step 0xFFFF }

theorem witness_CommitPoints :
    MayDrain w0 ∧ ResultsIn sigBadState ∧ MayDrain sigGoodState ∧
    (IsReady .cmt w0 ∧ IsReady .cCmt w0 ∧ IsReady .endOp w0 ∧ IsReady .cEnd w0 ∧ IsReady .endd w0) ∧
    (feeds w0.cur && sigBad w0.cur (crcAfter w0.cur .endOp)) = false ∧ (feeds w0.cur && sigBad w0.cur (crcAfter w0.cur .endd)) = false ∧
    IsReady .endOp sigGoodState ∧ feeds sigGoodState.cur = true ∧
    (feeds sigGoodState.cur && sigBad sigGoodState.cur (crcAfter sigGoodState.cur .endOp)) = false ∧
    (∀ j ∈ [.endOp, .cEnd, .endd], IsReady j sigBadState ∧
      (feeds sigBadState.cur && sigBad sigBadState.cur (crcAfter sigBadState.cur j)) = true) ∧
    w0.primaryOf? 0 = none := by
  refine ⟨mayDrain_of (by decide +kernel), resultsIn_of (by decide +kernel), mayDrain_of (by decide +kernel), ?_⟩
  decide +kernel

/-- A task whose strong store to its own scratchpad waits behind a store to HBM; and one whose drain is done. -/
def handing : State := st fun t => { t with
  buf := [{ id := 1, act := .store [⟨0, 7, true, true⟩], loc := .hbm 0 0x40 0x40 0x40, task := 1 },
          { id := 2, act := .store [⟨0, 7, true, true⟩], loc := .spad 0 0x40, task := 1, order := .rel }] }
def handedState : State := st fun t => { t with handed := true }

theorem witness_CommitPoints_hands :
    MayHandOn handing ∧ ResultsIn handedState ∧
    (∀ j ∈ [.cmt, .cCmt, .endOp, .cEnd], IsReady j handing ∧ IsReady j handedState ∧
      (feeds handing.cur && sigBad handing.cur (crcAfter handing.cur j)) = false ∧
      (handsOn (sigDone handing j)).ownOpen handing.curCore handing.curSlot = true ∧
      (feeds handedState.cur && sigBad handedState.cur (crcAfter handedState.cur j)) = false) ∧
    (handsOn handing).ownOpen handing.curCore handing.curSlot = true ∧
    handedState.cur.handed = true ∧ handedState.ownOpen handedState.curCore handedState.curSlot = false ∧
    (∀ e ∈ w0.cur.buf, e.task = w0.cur.task) ∧ (w0.drain 0 1).ownOpen 0 1 = false := by
  refine ⟨mayHandOn_of (by decide +kernel), resultsIn_of (by decide +kernel), ?_⟩
  decide +kernel

/-- Two cores of a cluster whose slots 1 run one launch; the second is current. -/
def folwState (f : Slot → Slot := id) (k : Core → Core := id) : State :=
  let t : Slot := { running := true, budg := 4096, pc := ⟨false, 160⟩, msg := some { msg0 with launch := some { ctx := 1, lid := 1 } } }
  { st with cores := Tbl.set (Tbl.set [] 0 (k { slots := Tbl.set [] 1 t })) 1 { slots := Tbl.set [] 1 (f t) }, curCore := 1 }

theorem witness_SignaturesAndNops :
    (∀ j ∈ [.sig 0x1D0F, .sigShort 0x7FF, .cSig 0], (sigForm j).isSome = true ∧
      (IsReady j sigBadState ∧ feeds sigBadState.cur = true ∧ sigBad sigBadState.cur sigBadState.cur.crc = true) ∧
      (IsReady j w0 ∧ ¬ (feeds w0.cur = true ∧ sigBad w0.cur w0.cur.crc = true) ∧ w0.cur.follow = none) ∧
      (let s := st fun t => { t with follow := some 1 }; IsReady j s ∧ s.cur.follow ≠ none)) ∧
    IsReady .nop w0 ∧ IsReady .cNop w0 := by
  and_intros <;> decide +kernel

theorem witness_SignaturesAndNops_folw :
    (let s := folwState; IsReady .folw s ∧ s.leaderOf? s.curCore s.curSlot = some 0 ∧ 0 ≠ s.curCore ∧ s.cur.pc.carried = false ∧
      (s.core s.curCore).imemDirty = false ∧ (s.core 0).imemDirty = false ∧ s.cur.follow = none) ∧
    (IsReady .folw w0 ∧ w0.leaderOf? w0.curCore w0.curSlot = none) ∧
    (let s := { folwState with curCore := 0 }; IsReady .folw s ∧ s.leaderOf? s.curCore s.curSlot = some s.curCore) ∧
    (let s := st fun t => { t with pc := ⟨true, 0⟩ }; IsReady .folw s ∧ s.cur.pc.carried = true) ∧
    (let s := st (k := fun k => { k with imemDirty := true }); IsReady .folw s ∧ (s.core s.curCore).imemDirty = true) ∧
    (let s := folwState (fun t => { t with follow := some 0 }); IsReady .folw s ∧ s.cur.follow ≠ none) ∧
    (let s := folwState id fun k => { k with imemDirty := true }
     IsReady .folw s ∧ s.leaderOf? s.curCore s.curSlot = some 0 ∧ (s.core 0).imemDirty = true) := by
  and_intros <;> decide +kernel

theorem witness_TrapEntry :
    w0.privileged 0 1 = false ∧ w0.primaryOf? 0 = none ∧ w0.mirrorOf? 0 = none ∧ w0.corePart? 0 = some 0 ∧ (w0.part 0).debugger = false ∧
    (w0.part 0).ordinary < 252 := by
  and_intros <;> decide +kernel

/-- A record of a slot of core 0, posted at 3. -/
def slotRec (n : Nat) : TRec :=
  { w0 := 0x4001000000000000#64, w1 := 0, w2 := 0, w3 := 0, payload := [], call := none, core := 0, slot := n, launch := none, msgid := 0,
    at_ := 3 }

theorem witness_TrapEntry_order :
    (∀ x ∈ [slotRec 1], x.core ≠ (slotRec 2).core ∨ x.at_ ≠ (slotRec 2).at_ ∨ x.slot ≤ (slotRec 2).slot) ∧
    (slotRec 1).call = none ∧ (slotRec 1).type = 1 ∧ (slotRec 2).call = none ∧ (slotRec 2).type = 1 ∧ (slotRec 2).core = (slotRec 1).core ∧
    (slotRec 2).at_ = (slotRec 1).at_ ∧ (slotRec 1).slot < (slotRec 2).slot ∧
    (∀ y ∈ [slotRec 0], y.core ≠ (slotRec 1).core ∨ y.at_ ≠ (slotRec 1).at_ ∨ y.slot ≤ (slotRec 1).slot) := by
  and_intros <;> decide +kernel

theorem witness_TrapInstructions :
    IsReady (.trap 0x3FFF) w0 ∧ IsReady .bkpt w0 ∧ IsReady .bkpt sup ∧ plainTask w0 = true ∧ w0.corePart? w0.curCore = some 0 ∧
    (w0.part 0).debugger = false ∧ (w0.part 0).ordinary < 252 ∧
    (∀ j ∈ [.tlbi 1 2, .snap 3, .dbgh, .synld 1 2], IsReady j w0) ∧ w0.privileged w0.curCore w0.curSlot = false := by
  and_intros <;> decide +kernel

theorem witness_ChecksBeforeIssue :
    (encode (.add 3 1 2)).1 ≠ 0 ∧ w0.wr = [] ∧ w0.cur.running = true ∧
    (let s := st fun t => { t with budg := 0 }; s.wr = [] ∧ s.cur.running = true ∧ s.cur.budg = 0 ∧ s.cur.checked = false) ∧
    w0.cur.budg ≠ 0 ∧ forbidden (.add 3 31 31) ≠ none ∧ (encode (.add 3 31 31)).1 ≠ 0 ∧ forbidden (.add 3 1 2) = none ∧
    (let s := st fun t => { t with pend := [{ gd := [1], left := 1, ready := true }] }
     s.cur.budg ≠ 0 ∧ s.wr = [] ∧ s.cur.running = true ∧ lookaheadTrap s.cur (.add 3 1 2) = true) ∧
    lookaheadTrap w0.cur (.add 3 1 2) = false ∧ isCommit w0 (.add 3 1 2) = false ∧ isCommit w0 .cmt = true ∧
    (let s := st fun t => { t with lact := true, lc := 2, ls := 158, le := 160 }
     s.wr = [] ∧ s.cur.running = true ∧ s.cur.budg ≠ 0 ∧ lookaheadTrap s.cur (.add 3 1 2) = false ∧ loopMisfit s.cur (.add 3 1 2) = true) ∧
    (let s := st fun t => { t with pend := [{ gd := [9] }] }
     s.wr = [] ∧ s.cur.running = true ∧ lookaheadTrap s.cur (.add 3 1 2) = false ∧ loopMisfit s.cur (.add 3 1 2) = false ∧
      ∃ p ∈ s.cur.pend, p.left = 0 ∧ p.arrived = false ∧ ∀ q ∈ s.cur.pend, q.left = 0 → q.arrived = true → q.bad = none) := by
  and_intros <;> decide +kernel

/-- A result of each kind before a further instruction: one that brought a fault, behind one that brought none; four that are out. -/
def badResult : Pending := { gd := [9], ready := true, arrived := true, bad := some (Cause.translate, 0x40) }
def goodResult : Pending := { gd := [8], ready := true, arrived := true }
def outResult (n : Nat) : Pending := { gd := [n], left := 3, uid := n }

theorem witness_ChecksBeforeIssue_results :
    (let s := st fun t => { t with pend := [goodResult, badResult] }
     s.wr = [] ∧ s.cur.running = true ∧ s.cur.budg ≠ 0 ∧ forbidden (.add 3 1 2) = none ∧ lookaheadTrap s.cur (.add 3 1 2) = false ∧
      loopMisfit s.cur (.add 3 1 2) = false ∧ s.cur.pend = [goodResult] ++ badResult :: [] ∧ Due s (.add 3 1 2) badResult ∧
      badResult.arrived = true ∧ badResult.bad = some (Cause.translate, 0x40) ∧ (∀ q ∈ [goodResult], q.arrived = true → q.bad = none)) ∧
    (let s := st fun t => { t with pend := [outResult 9, outResult 10, outResult 11, outResult 12] }
     let j : Instr := .mul 3 1 2 0
     s.wr = [] ∧ s.cur.running = true ∧ s.cur.budg ≠ 0 ∧ forbidden j = none ∧ (encode j).1 ≠ 0 ∧ isCommit s j = false ∧
      lookaheadTrap s.cur j = false ∧ loopMisfit s.cur j = false ∧ (∀ q ∈ s.cur.pend, q.arrived = false ∧ q.left ≠ 0) ∧
      s.cur.pend.filter (fun q => !q.arrived) = outResult 9 :: [outResult 10, outResult 11, outResult 12] ∧
      3 ≤ [outResult 10, outResult 11, outResult 12].length ∧ (lookahead j).isSome = true) := by
  refine ⟨⟨?_, ?_, ?_, ?_, ?_, ?_, ?_, .inr ?_, ?_⟩, ?_⟩
  all_goals first | rfl | decide +kernel

/-- The supervisor task with 0, 1 and 2 in g1 to g3. -/
def sv : State := sup (regs [(1, 0x10000), (2, 0), (3, 1), (4, 0x8400000000000000#64), (5, 0x0400000000000000#64)])

theorem witness_SystemInstructions :
    IsReady .fnci w0 ∧ sv.privileged sv.curCore sv.curSlot = true ∧ sv.corePart? sv.curCore = some 0 ∧
    ((sv.core sv.curCore).flight.any fun f => f.e.task == sv.cur.task && f.e.writes) = false ∧
    (IsReady (.tlbi 1 2) sv ∧ readG sv 1 = .ok (sv, 0x10000) ∧ readG sv 2 = .ok (sv, 0) ∧ field (0 : W64) 1 0 = 0 ∧
      field (0x10000 : W64) 63 48 = 0 ∧ (sv.pinned 0 fun q => sv.oneTranslation 0 (field (0x10000 : W64) 47 0) q.gva) = false) ∧
    (IsReady (.tlbi 1 3) sv ∧ readG sv 3 = .ok (sv, 1) ∧ field (1 : W64) 1 0 = 1 ∧ (sv.pinned 0 fun _ => true) = false) ∧
    (sv.part 0).faults = [] ∧ ((sv.modPart 0 fun k => { k with faults := [0x40] }).part 0).faults ≠ [] ∧
    (IsReady (.snap 3) sv ∧ sv.openWrites 0 = [] ∧ (sv.part 0).cow = [] ∧ settable sv 3 = true) ∧
    ((sv.modPart 0 fun k => { k with cow := [0x10000] }).part 0).cow ≠ [] ∧
    IsReady .dbgh sv := by
  and_intros <;> decide +kernel

/-- The supervisor task with its set of staged writes full. -/
def svFull : State :=
  sup fun t => { regs [(4, 0x8400000000000000#64)] t with staged := List.replicate 16 (0x0400000000000000#64, 1) }

theorem witness_SystemInstructions_synld :
    (sv.privileged sv.curCore sv.curSlot = true ∧ readG sv 3 = .ok (sv, 1) ∧ sv.cur.staged = []) ∧
    (IsReady (.synld 4 3) sv ∧ readG sv 4 = .ok (sv, 0x8400000000000000#64) ∧ bitAt 0x8400000000000000#64 63 = true ∧
      sv.mfield ((sv.corePart? sv.curCore).getD 0) (0x8400000000000000#64 &&& 0x7FFFFFFFFFFFFFFF#64) = .ok (.course 0 0 0 0)) ∧
    (IsReady (.synld 5 3) sv ∧ readG sv 5 = .ok (sv, 0x0400000000000000#64) ∧ bitAt 0x0400000000000000#64 63 = false ∧
      sv.mfield ((sv.corePart? sv.curCore).getD 0) (0x0400000000000000#64 &&& 0x7FFFFFFFFFFFFFFF#64) = .ok (.course 0 0 0 0) ∧
      sv.cur.wait = .none) ∧
    (let s := sup fun t => { regs [(3, 1), (5, 0x0400000000000000#64)] t with staged := [(0x0800000000000000#64, 1)] }
     IsReady (.synld 5 3) s ∧ readG s 5 = .ok (s, 0x0400000000000000#64) ∧
      ∃ e ∈ s.cur.staged, field e.1 59 58 ≠ field (0x0400000000000000#64 &&& 0x7FFFFFFFFFFFFFFF#64) 59 58) ∧
    (IsReady (.synld 4 3) svFull ∧ 16 ≤ svFull.cur.staged.length) := by
  and_intros <;> decide +kernel

theorem witness_ControlRegisters :
    IsReady (.rdc 3 0x010) w0 ∧ (w0.readCR (0x010#12).toNat).isSome = true ∧ settable w0 3 = true ∧
    IsReady (.rdc 3 0x026) w0 ∧ w0.readCR (0x026#12).toNat = none ∧
    IsReady (.wrc 1 0x000) w0 ∧ readG w0 1 = .ok (w0, 5) ∧ (w0.writeCR (0#12).toNat 5).isSome = true ∧
    IsReady (.wrc 1 0x009) w0 ∧ w0.writeCR (0x009#12).toNat 5 = none ∧ IsReady (.wrc 1 0x010) w0 ∧ w0.writeCR (0x010#12).toNat 5 = none ∧
    (let s := st (regs [(1, 0x07FFFFFE)]); IsReady (.wrc 1 0x008) s ∧ readG s 1 = .ok (s, 0x07FFFFFE) ∧
      (s.writeCR (0x008#12).toNat 0x07FFFFFE).isSome = true ∧ (s.core s.curCore).mmasPending = false) ∧
    (let s := st (regs [(1, 2)]) fun k => { k with mxq := [{ cmd := 1, released := true }] }
     IsReady (.wrc 1 0x008) s ∧ readG s 1 = .ok (s, 2) ∧ s.writeCR (0x008#12).toNat 2 ≠ none ∧ (s.core s.curCore).mmasPending = true) ∧
    w0.wr = [] ∧ w0.cur.running = true := by
  and_intros <;> decide +kernel

/-- A task with 11 bytes of payload that has read 8, and a record in the completion inbox. -/
def ports : State := st (fun t => { t with msg := some { msg0 with payload := [1, 2, 3, 4, 5, 6, 7, 8, 9, 10, 11] }, qpos := 8 })
  fun k => { k with cinbox := [{ w0 := 4, w1 := 5, w2 := 6, w3 := 7 }] }

theorem witness_PortSteps :
    ports.wr = [] ∧ ports.cur.running = true ∧
    (∀ p ∈ [(28, 0x0B0A09), (30, 4), (31, 0xFFFFFFFFFFFFFFFF)], (match readG ports p.1 with
      | .ok (u, x) => x == BitVec.ofNat 64 p.2 && settable u 3
      | .error _ => false) = true) ∧
    readG w0 1 = .ok (w0, 5) ∧ w0.cur.qbld.length < 256 ∧ acquirePending w0.cur = false ∧ mustWait w0 (.status w0.curCore 3) 8 = false ∧
    w0.cur.buf = [] := by
  and_intros <;> decide +kernel

theorem witness_PortSteps_results :
    ports.wr = [] ∧ ports.cur.running = true ∧ w0.wr = [] ∧ w0.cur.running = true ∧ settable ports 3 = true ∧ settable w0 3 = true ∧
    (∃ m, ports.cur.msg = some m ∧ ports.cur.qpos < m.payload.length) ∧
    (∃ m, (st fun t => { t with msg := some msg0 }).cur.msg = some m ∧ m.payload.length ≤ 0) ∧
    (1 : Reg).toNat < 28 ∧ w0.cur.qbld.length < 256 ∧
    (w0.cur.bound = none ∧ (w0.core w0.curCore).cinbox = []) ∧
    (ports.cur.bound = none ∧ (ports.core ports.curCore).cinbox = { w0 := 4, w1 := 5, w2 := 6, w3 := 7 } :: []) ∧
    (∀ k ∈ [1, 2, 3], (st fun t => { t with bound := some ({}, k) }).cur.bound = some ({}, k)) ∧
    (w0.primaryOf? w0.curCore = none ∧ w0.mirrorOf? w0.curCore = none ∧ w0.myWalker? = none) ∧
    mayRead w0 (.status w0.curCore (0 : BitVec 2).toNat) 8 = true := by
  and_intros <;> decide +kernel

theorem witness_RegisterPorts :
    1 ≤ (27 : Reg).toNat ∧ (27 : Reg).toNat ≤ 27 ∧
    (∃ m, ports.cur.msg = some m ∧ ports.cur.qpos < m.payload.length) ∧
    (∃ m, (st fun t => { t with msg := some { msg0 with payload := [] } }).cur.msg = some m ∧ m.payload.length ≤ 0) ∧
    w0.cur.bound = none ∧ (w0.core w0.curCore).cinbox = [] ∧ ports.cur.bound = none ∧ (ports.core ports.curCore).cinbox ≠ [] ∧
    (∀ k ∈ [1, 2, 3], (st fun t => { t with bound := some ({}, k) }).cur.bound = some ({}, k)) ∧
    settable w0 0 = true ∧ settable w0 27 = true ∧ 256 ≤ (st fun t => { t with qbld := List.replicate 256 0 }).cur.qbld.length := by
  and_intros <;> decide +kernel

/-! ## Witnesses: buffer, memory, atomics -/

/-- A step of an instruction's effect succeeds. -/
abbrev Succeeds {α : Type} (e : Except Stop α) : Prop := (match e with | .ok _ => true | .error _ => false) = true

/-- A value of a step of an instruction's effect, when it succeeds, has a property. -/
def holdsOf {α : Type} (e : Except Stop α) (f : α → Bool) : Bool :=
  match e with
  | .ok x => f x
  | .error _ => false

theorem exists_of {α : Type} {e : Except Stop α} (h : Succeeds e) : ∃ u, e = .ok u := by
  cases e with
  | ok u => exact ⟨u, rfl⟩
  | error e => cases h

/-- Buffered posted atomics of `n` sectors. -/
def manyAmops (n : Nat) : List Entry := List.replicate n { act := .amop 0 8 1 }

/-- A task with 256 sectors, and one with 64 beside three with 256. -/
def fullBuf : State := st fun t => { t with buf := manyAmops 256 }
def fullPool : State := st (fun t => { t with buf := manyAmops 64 }) fun k =>
  { k with slots := k.slots ++ [(2, { running := true, buf := manyAmops 256 }), (3, { running := true, buf := manyAmops 256 }),
                                (4, { running := true, buf := manyAmops 256 })] }

theorem witness_BufferEntry :
    Room w0 (theEntry w0 0 (.spad 0 0) .weak .core (.store [⟨0, 1, true, true⟩])) ∧
    256 < sectors (fullBuf.cur.buf ++ [theEntry fullBuf 0 (.spad 0 0x10000) .weak .core (.store [⟨0, 1, true, true⟩])]) ∧
    8 < tiles ((st fun t => { t with buf := List.replicate 8 { act := .tile 0 0 0 } }).cur.buf ++ [theEntry w0 0 (.spad 0 0) .weak .core (.tile 0 0 1)]) ∧
    (let e := theEntry fullPool 0 (.spad 0 0x10000) .weak .core (.store [⟨0, 1, true, true⟩])
     sectors (fullPool.cur.buf ++ [e]) ≤ 256 ∧ tiles (fullPool.cur.buf ++ [e]) ≤ 8 ∧
      poolShare fullPool.cur.buf < poolShare (fullPool.cur.buf ++ [e]) ∧
      576 < poolUsed (fullPool.core fullPool.curCore) - poolShare fullPool.cur.buf + poolShare (fullPool.cur.buf ++ [e])) := by
  refine ⟨⟨?_, ?_, ?_⟩, ?_⟩ <;> [skip; skip; skip; and_intros] <;> decide +kernel

theorem witness_LoadsSeeOwnStores : ∀ p gva gpa, Loc.spad 0 0x40 ≠ .unmapped p gva gpa := by simp

/-- The task of `w0` with odd places: g4 is 3 past a place of its scratchpad, g5 is 8 past one, g6 beyond its scratchpad. -/
def w1 : State := st (regs [(1, 5), (2, 7), (3, 0xFFFE000000000040#64), (4, 0xFFFE000000000043#64), (5, 0xFFFE000000000048#64),
  (6, 0xFFFE000000090000#64), (8, 0xFFFE000000000080#64), (9, 0xFFFE000000000041#64)])

theorem witness_Loads :
    (∀ j ∈ [.ldB 1 3 0 0, .ldH 1 3 0 0, .ldW 1 3 0 0, .ldD 1 3 15 1, .ldBS 1 3 0 0, .ldHS 1 3 0 0, .ldWS 1 3 0 0x3FF, .cLd 1 0 31],
      (loadForm j).isSome = true ∧ IsReady j w1) ∧
    readG w1 3 = .ok (w1, 0xFFFE000000000040#64) ∧ readG w1 8 = .ok (w1, 0xFFFE000000000080#64) ∧
    (readG w1 4 = .ok (w1, 0xFFFE000000000043#64) ∧ (address 0xFFFE000000000043#64 0).toNat % 8 ≠ 0 ∧ IsReady (.ldD 1 4 0 0) w1) ∧
    (readG w1 6 = .ok (w1, 0xFFFE000000090000#64) ∧ IsReady (.ldD 1 6 0 0) w1 ∧ ¬ Succeeds (w1.xlateLoad 0xFFFE000000090000#64 8 .scalarRead) ∧
      (address 0xFFFE000000090000#64 0).toNat % 8 = 0) ∧
    (∀ n ∈ [1, 2, 4, 8], (address 0xFFFE000000000040#64 0).toNat % n = 0 ∧
      w1.xlateLoad (address 0xFFFE000000000040#64 0) n .scalarRead = .ok (w1, .spad 0 0x40) ∧ mayRead w1 (.spad 0 0x40) n = true ∧
      Succeeds (readLoc (asks w1) (askNum w1) (.spad 0 0x40) n false)) ∧
    (let s := st (fun t => { t with pend := [{ gd := [9], left := 5, acq := 2 }] })
     mayRead s (.spad 0 0x40) 8 = false) ∧
    (match (st id id fun s => (s.modCtx 1 fun x => { x with root1 := 1 }).modPart 0 fun p => { p with qos := 2 ^ 24 }).xlateAny 0 false 0x40 8
        .scalarRead with
      | (_, .wait g) => g == 0
      | _ => false) = true := by
  and_intros <;> decide +kernel

theorem witness_Stores :
    (∀ j ∈ [.stB 1 3 0, .stH 1 3 0, .stW 1 3 0, .stD 1 3 0x3FF, .cSt 1 0 31], (storeForm j).isSome = true ∧ IsReady j w1) ∧
    readG w1 3 = .ok (w1, 0xFFFE000000000040#64) ∧ readG w1 1 = .ok (w1, 5) ∧ readG w1 2 = .ok (w1, 7) ∧
    (IsReady (.stD 1 4 0) w1 ∧ readG w1 4 = .ok (w1, 0xFFFE000000000043#64) ∧ (address 0xFFFE000000000043#64 0).toNat % 8 ≠ 0) ∧
    (IsReady (.stD 1 6 0) w1 ∧ readG w1 6 = .ok (w1, 0xFFFE000000090000#64) ∧ ¬ Succeeds (w1.xlate 0xFFFE000000090000#64 8 .write)) ∧
    (∀ n ∈ [1, 2, 4, 8, 16], w1.xlate (address 0xFFFE000000000040#64 0) n .write = .ok (w1, .spad 0 0x40) ∧
      acquirePending w1.cur = false ∧ Succeeds (stores w1 0xFFFE000000000040#64 (.spad 0 0x40) n 5 .weak .core)) ∧
    (let s := fullBuf; Succeeds (s.xlate 0xFFFE000000010000#64 8 .write) ∧
      ¬ Succeeds (stores s 0xFFFE000000010000#64 (.spad 0 0x10000) 8 5 .weak .core)) := by
  and_intros <;> decide +kernel

theorem witness_Stores_pairs :
    (∀ a ∈ [3, 4, 5], IsReady (.ldp 2 a 0 0) w1 ∧ IsReady (.stp 2 a 0) w1) ∧
    address 0xFFFE000000000043#64 ((0 : BitVec 10).toInt * 16) = 0xFFFE000000000043#64 ∧ (0xFFFE000000000043#64 : W64).toNat % 8 ≠ 0 ∧
    (0xFFFE000000000040#64 : W64).toNat % 16 = 0 ∧ w1.xlateLoad 0xFFFE000000000040#64 16 .read = .ok (w1, .spad 0 0x40) ∧
    mayRead w1 (.spad 0 0x40) 16 = true ∧ Succeeds (readLoc (asks w1) (askNum w1) (.spad 0 0x40) 16 false) ∧
    (readG w1 5 = .ok (w1, 0xFFFE000000000048#64) ∧ (0xFFFE000000000048#64 : W64).toNat % 8 = 0 ∧ field 0xFFFE000000000048#64 63 48 ≠ 0 ∧
      w1.xlateLoad 0xFFFE000000000048#64 16 .read = .ok (w1, .spad 0 0x48) ∧ w1.xlate 0xFFFE000000000048#64 16 .write = .ok (w1, .spad 0 0x48)) ∧
    readG w1 (2 + 1) = .ok (w1, 0xFFFE000000000040#64) ∧ Succeeds (stores w1 0xFFFE000000000048#64 (.spad 0 0x48) 16 5 .weak .core) := by
  and_intros <;> decide +kernel

/-- A cached translation of guest page 0 of partition 0 to device address 0x10000, with every right. -/
def page0 (k : Core) : Core :=
  { k with tlb := [{ part := 0, va := 0, size := 65536, pa := 0x10000, gpa := 0, s2size := 65536, r := true, w := true, a := true,
                     r2 := true, w2 := true, a2 := true }] }

/-- A task with places of partition memory in g3 (a multiple of 64), g5 (8 mod 16) and g6 (128 on). -/
def w2 : State := st (regs [(1, 5), (2, 7), (3, 0x40), (5, 0x48), (6, 0x80), (7, 0xFFFF000000000040#64)])
  fun k => { page0 k with l1code := 4, l1 := [(512, { data := [], valid := [0] })] }

theorem witness_Stores_memory :
    (IsReady (.ldp 2 5 0 0) w2 ∧ IsReady (.stp 2 5 0) w2 ∧ readG w2 5 = .ok (w2, 0x48) ∧ (0x48 : W64).toNat % 16 = 8 ∧ field (0x48 : W64) 63 48 = 0) ∧
    (match w2.xlateLoad 0x48 8 .read with
      | .ok (s2, l0) => match s2.xlateLoad (0x48 + 8) 8 .read with
        | .ok (s3, l1) => match loadInto s3 { gd := [2, 3], left := 0, gval := [0, 0] } [(0x48, l0, 8, .dword 0), (0x50, l1, 8, .dword 1)] false with
          | .ok _ => true
          | _ => false
        | _ => false
      | _ => false) = true ∧
    (match w2.xlate 0x48 8 .write with
      | .ok (s4, l0) => match s4.xlate (0x48 + 8) 8 .write with
        | .ok (s5, l1) => match stores s5 0x48 l0 8 7 .weak .core with
          | .ok u1 => match stores u1 0x50 l1 8 7 .weak .core with
            | .ok _ => !acquirePending s5.cur
            | _ => false
          | _ => false
        | _ => false
      | _ => false) = true := by
  and_intros <;> decide +kernel

theorem witness_StrongAccesses :
    (∀ sc ∈ [0, 1, 2, 3], ∀ j ∈ [.lds 1 3 sc 0 3 0 0, .lds 1 4 sc 0 3 0 1, .sts 1 3 sc 3 1, .sts 1 4 sc 3 0], IsReady j w1) ∧
    readG w1 3 = .ok (w1, 0xFFFE000000000040#64) ∧ readG w1 4 = .ok (w1, 0xFFFE000000000043#64) ∧ readG w1 1 = .ok (w1, 5) ∧
    (0xFFFE000000000043#64 : W64).toNat % 8 ≠ 0 ∧ (0xFFFE000000000040#64 : W64).toNat % 8 = 0 ∧ 8 = 2 ^ (3 : BitVec 2).toNat ∧
    w1.xlateLoad 0xFFFE000000000040#64 8 .scalarRead = .ok (w1, .spad 0 0x40) ∧ drainedOpen w1 = false ∧ mayRead w1 (.spad 0 0x40) 8 = true ∧
    Succeeds (readLoc (asks w1) (askNum w1) (.spad 0 0x40) 8 true) ∧
    w1.xlate 0xFFFE000000000040#64 8 .write = .ok (w1, .spad 0 0x40) ∧ acquirePending w1.cur = false ∧
    Succeeds (stores w1 0xFFFE000000000040#64 (.spad 0 0x40) 8 5 .sc .sys) ∧
    (let s := st (regs [(3, 0xFFFE000000000040#64)]) fun k => { k with flight := [⟨{ task := 1, act := .store [⟨0, 1, true, true⟩], loc := .hbm 0 0 0 0 }, .waiting⟩] }
     IsReady (.lds 1 3 2 0 3 0 1) s ∧ drainedOpen s = true) := by
  and_intros <;> decide +kernel

theorem witness_FencesAndLines :
    ResultsIn w2 ∧
    (∀ k ∈ [1, 2, 4, 8, 15], ∀ sc ∈ [0, 1, 2, 3], IsReady (.fnc k sc) w2) ∧
    Succeeds (addEntry w2 0 (.spad 0 0) .sc .sys .fence) ∧ Succeeds (addEntry w2 0 (.spad 0 0) .weak .core .fence) ∧
    (let s := st fun t => { t with pend := [{ gd := [9], left := 2 }] }
     IsReady (.fnc 1 0) s ∧ IsReady (.fnc 4 0) s ∧ ∃ p ∈ s.cur.pend, p.arrived = false ∧ ∀ q ∈ s.cur.pend, q.arrived = true → q.bad = none) ∧
    (∀ sc ∈ [0, 1, 2, 3], IsReady (.pfx 3 sc) w2 ∧ IsReady (.cln 3 sc) w2) ∧ (∀ sc ∈ [0, 1], IsReady (.invl 3 sc) w2) ∧
    readG w2 3 = .ok (w2, 0x40) ∧
    (match w2.xlateAny w2.curCore (w2.privileged w2.curCore w2.curSlot) 0x40 1 .read with
      | (s2, .at_ (.hbm part phys _ gpa)) => !s2.busy part phys gpa 1 false
      | _ => false) = true ∧
    (match w2.xlate 0x40 1 .clean with | .ok (_, .hbm _ _ _ _) => true | _ => false) = true ∧
    (match w2.xlate 0x40 1 .inval with | .ok (s2, .hbm _ _ _ _) => !(s2.core s2.curCore).fused | _ => false) = true ∧
    (readG w1 3 = .ok (w1, 0xFFFE000000000040#64) ∧ IsReady (.cln 3 2) w1 ∧ IsReady (.invl 3 0) w1 ∧
      w1.xlate 0xFFFE000000000040#64 1 .clean = .ok (w1, .spad 0 0x40) ∧ w1.xlate 0xFFFE000000000040#64 1 .inval = .ok (w1, .spad 0 0x40)) := by
  refine ⟨resultsIn_of (by decide +kernel), ?_⟩
  and_intros <;> decide +kernel

/-- A task that has drained a store, and one with a handle to partition 0 of device 1 in its partition's peer table. -/
def drainedState : State := st (regs [(3, 0x40), (4, 0x0002000000000000#64)])
  fun k => { k with flight := [⟨{ task := 1, act := .store [⟨0, 1, true, true⟩], loc := .hbm 0 0 0 0 }, .waiting⟩] }
def peerWord : BitVec 128 := BitVec.ofNat 128 (1 + 8 + 16 + 32 + 2 ^ 28)
def peerState (q : State → State := id) : State :=
  st (regs [(3, 0x0001000000000040#64), (4, 0x0002000000000000#64)]) id fun s =>
    q { s.modPart 0 (fun p => { p with peerLen := 2, peers := [(1, peerWord)] }) with fabric := { s.fabric with keys := [(0, {})] } }

theorem witness_FencesAndLines_more :
    ResultsIn drainedState ∧
    (IsReady (.fnc 4 0) drainedState ∧ (4 : BitVec 4).getLsbD 2 = true ∧ storesOpen drainedState = true) ∧
    (4 : BitVec 4).getLsbD 2 = true ∧ storesOpen w2 = false ∧
    (IsReady (.cln 3 2) peerState ∧ IsReady (.invl 3 1) peerState ∧ readG peerState 3 = .ok (peerState, 0x0001000000000040#64) ∧
      holdsOf (peerState.xlate 0x0001000000000040#64 1 .clean) (fun e => e.2 == .peer 1 0 0x40 0 && e.1.flowRoom (e.1.flowTo 1 0)) = true ∧
      holdsOf (peerState.xlate 0x0001000000000040#64 1 .inval) (fun e => e.2 == .peer 1 0 0x40 0) = true) ∧
    (let s := peerState fun s => { s with fabric := { s.fabric with out := [(s.flowTo 1 0, { broken := true })] } }
     IsReady (.cln 3 2) s ∧ s.flowRoom (s.flowTo 1 0) = false) ∧
    (IsReady (.invl 4 0) drainedState ∧ readG drainedState 4 = .ok (drainedState, 0x0002000000000000#64) ∧
      noRight drainedState 0x0002000000000000#64 = true) := by
  refine ⟨resultsIn_of (by decide +kernel), ?_⟩
  and_intros <;> decide +kernel

/-- A fused cluster whose portion for the line holds it. -/
def fusedState : State :=
  let s := st (regs [(3, 0x40)]) fun k => { page0 k with fused := true, l1 := [] }
  let p := s.portion 0 (0x10040 / 128)
  s.modCore p fun k => { k with l1 := Tbl.set [] (0x10040 / 128) { valid := [0] } }

theorem witness_FencesAndLines_fused :
    IsReady (.invl 3 0) fusedState ∧ readG fusedState 3 = .ok (fusedState, 0x40) ∧
    (match fusedState.xlate 0x40 1 .inval with
      | .ok (s2, .hbm _ phys _ _) => (s2.core s2.curCore).fused && (Tbl.get? (s2.core (s2.portion s2.curCore (phys / 128))).l1 (phys / 128)).isSome
      | _ => false) = true := by
  and_intros <;> decide +kernel

theorem witness_MapAddresses :
    (let s := st (regs [(3, 0xFFFE000000000040#64), (4, 0xFFFE000000000041#64), (5, 0x8000000000000000#64), (6, 0x9000000000000000#64)])
     IsReady (.tmad 1 3 5 0) s ∧ IsReady (.tmad 1 4 5 0) s ∧ IsReady (.tmad 1 3 6 0) s ∧ readG s 3 = .ok (s, 0xFFFE000000000040#64) ∧
      readG s 4 = .ok (s, 0xFFFE000000000041#64) ∧ readG s 5 = .ok (s, 0x8000000000000000#64) ∧ readG s 6 = .ok (s, 0x9000000000000000#64) ∧
      s.xlateLoad 0xFFFE000000000040#64 64 .read = .ok (s, .spad 0 0x40) ∧
      mayRead s (.spad 0 0x40) 64 = true ∧ Succeeds (readLoc (asks s) (askNum s) (.spad 0 0x40) 64 false)) ∧
    (0xFFFE000000000041#64 : W64).toNat % 64 ≠ 0 ∧ bitAt 0x9000000000000000#64 63 = true ∧ field 0x9000000000000000#64 62 60 ≠ 0 ∧
    field 0x8000000000000000#64 62 60 = 0 := by
  and_intros <;> decide +kernel

theorem witness_Atomics :
    MayDrain w1 ∧
    (∀ op ∈ [0, 1, 2, 3, 4, 5, 6, 7, 8], IsReady (.amo 9 3 1 0 op 1) w1 ∧ IsReady (.amop 3 1 op 1) w1) ∧
    IsReady (.amo 9 3 2 0 9 1) w1 ∧ IsReady (.amo 9 3 1 0 10 0) w1 ∧ IsReady (.amo 9 3 1 0 11 0) w1 ∧ IsReady (.amop 3 1 11 0) w1 ∧
    readG w1 3 = .ok (w1, 0xFFFE000000000040#64) ∧ readG w1 1 = .ok (w1, 5) ∧ readG w1 2 = .ok (w1, 7) ∧
    readG w1 (2 + 1) = .ok (w1, 0xFFFE000000000040#64) ∧
    (IsReady (.amo 9 4 1 0 0 1) w1 ∧ IsReady (.amop 4 1 0 1) w1 ∧ readG w1 4 = .ok (w1, 0xFFFE000000000043#64) ∧
      (0xFFFE000000000043#64 : W64).toNat % 8 ≠ 0) ∧
    w1.xlateLoad 0xFFFE000000000040#64 8 .atomic = .ok (w1, .spad 0 0x40) ∧ w1.xlateLoad 0xFFFE000000000040#64 4 .atomic = .ok (w1, .spad 0 0x40) ∧
    w1.xlate 0xFFFE000000000040#64 8 .atomic = .ok (w1, .spad 0 0x40) ∧
    acquirePending w1.cur = false ∧ Succeeds (addEntry w1 0xFFFE000000000040#64 (.spad 0 0x40) .weak .core (.amop 0 8 5)) ∧
    IsReady (.red 3 1 0 1) w1 ∧ redAdmitted w1 0 = false := by
  refine ⟨mayDrain_of (by decide +kernel), ?_⟩
  and_intros <;> decide +kernel

/-! ## Witnesses: messages, walkers, launches, the mortar plane, engine queues -/

/-- A launch record: four tiles of one dimension on core 0 of cluster (0,0), REDUCE add. -/
def rcd1 : BitVec 1024 := BitVec.ofNat 1024 (1 + 2 ^ 16 + 4 * 2 ^ 64 + 2 ^ 192 + 2 ^ 272)
def lid1 : LaunchId := { ctx := 1, lid := 1 }
def launch1 : Launch := { rcd := rcd1, prio := 0, waits := [], stage := .running, ring := 0, slotIdx := 0, device := none }

/-- A task of that launch on core 0, which holds its image, a member of course 0 and of token ring 0. -/
def lw (f : Slot → Slot := id) (k : Core → Core := id) : State :=
  st (fun t => f { t with msg := some { msg0 with launch := some lid1 } }) (fun c => k { c with image := some lid1 }) fun s =>
    ((s.modCtx 1 fun x => { x with launches := [(1, launch1)] }).modCluster 0 fun c =>
      { c with walkers := [(0, { launch := lid1, stage := 0, num := 0, count := 1, lo := 0, hi := 1, taken := 0xFE, ret := [], gen := 0 })]
               courses := [(0, { mem := 2, shadow := 2 })] }).modPart 0 fun p =>
      { p with tokens := [(0, { n := 1, k := 2, place := [], scope := 2 })] }

/-- Registers for the instructions of messages: a place word of core 0 in g1, quads from g4, g8, g12 and g16. -/
def lr : State := lw (fun t => regs [(2, 0x00A0), (3, 16 * 2 ^ 38 + 0x8000), (4, 1), (5, 2), (8, 0xFFFE000000000040#64), (9, 65536), (10, 0),
  (11, 0x100), (12, 0), (13, 0xFFFE000000000080#64), (14, 16), (15, 4), (17, 2049), (20, 0xFFFE000000000040#64), (21, 2048), (23, 15),
  (24, 1), (25, 0x0000000000000800#64), (26, 0x100000000#64), (27, 16)] t)

theorem witness_Sends :
    readG lr 1 = .ok (lr, 0) ∧ placeTargets lr 0 = .ok [.core 0] ∧ Succeeds (readQuad lr 4) ∧ (builtBytes lr.cur).length ≤ 2048 ∧
    acquirePending lr.cur = false ∧
    (IsReady (.sendk 1 4 0 63) lr ∧ holdsOf (readQuad lr 4) (fun e => holdsOf (addEntry e.1 0 (.spad 0 0) .rel .sys
      (.send (taskMsg e.1 .byClass 0 0 63 0 e.2 (builtBytes e.1.cur) []) [.core 0])) fun _ => true) = true) ∧
    (IsReady (.send 1 4 2) lr ∧ readG lr 2 = .ok (lr, 0x00A0) ∧ bitAt (0x00A0 : W64) 15 = false ∧ builtBytes lr.cur = [] ∧
      field (0x00A0 : W64) 49 38 ≤ 2048 ∧ Succeeds (spadRegion lr (16 * field (0x00A0 : W64) 63 50) (field (0x00A0 : W64) 49 38))) ∧
    (IsReady (.sendx 1 4 3) lr ∧ readG lr 3 = .ok (lr, 16 * 2 ^ 38 + 0x8000) ∧
      (let x : W64 := 16 * 2 ^ 38 + 0x8000
       bitAt x 15 = true ∧ field x 14 0 < field x 49 38 / 2 ∧ field x 49 38 ≤ 256 ∧ field x 49 38 % 2 = 0 ∧
        Succeeds (spadRegion lr (16 * field x 63 50) (field x 49 38)))) ∧
    (readG lr 26 = .ok (lr, 0x100000000#64) ∧ ¬ Succeeds (placeTargets lr 0x100000000#64) ∧ IsReady (.send 26 4 2) lr ∧
      IsReady (.sendk 26 4 0 0) lr ∧ IsReady (.sendx 26 4 3) lr) := by
  and_intros <;> decide +kernel

theorem witness_SpawnsAndReads :
    MayDrain lr ∧
    (IsReady (.spwn 7 4 10 0) lr ∧ Succeeds (readQuad lr 4) ∧ readG lr 10 = .ok (lr, 0) ∧ bitAt (0 : W64) 63 = false ∧
      field (0 : W64) 47 38 = 0 ∧ plKind (BitVec.ofNat 64 (field (0 : W64) 37 0)) ≠ 1 ∧ plKind (BitVec.ofNat 64 (field (0 : W64) 37 0)) ≠ 2 ∧
      lr.ownDevice (BitVec.ofNat 64 (field (0 : W64) 37 0)) = true ∧ placeTargets lr (BitVec.ofNat 64 (field (0 : W64) 37 0)) = .ok [.core 0]) ∧
    (IsReady (.deq 8 0) lr ∧ lr.cur.bound = none ∧ lr.takeRecord = none) ∧
    (let s := st fun t => { t with bound := some ({}, 1) }; IsReady (.deq 8 0) s ∧ s.cur.bound ≠ none) ∧
    (IsReady (.deq 8 0) ports ∧ ports.cur.bound = none ∧ ports.takeRecord.isSome = true) ∧
    (IsReady (.rdx 8) lr ∧ holdsOf (readQuad lr 8) (fun e => e.1 == lr && e.2 == ⟨0xFFFE000000000040#64, 65536, 0, 0x100⟩) = true) ∧
    (let q : Quad := ⟨0xFFFE000000000040#64, 65536, 0, 0x100⟩
     1 ≤ q.b.toNat ∧ q.b.toNat ≤ 65536 ∧ rdxMode q.d ≠ 3 ∧ field q.d 45 32 = 0 ∧ bitAt q.d 6 = false ∧ rdxDoff q.d % 16 = 0 ∧
      plKind q.c ≠ 2 ∧ ¬ (rdxMode q.d = 0 ∧ 2048 < q.b.toNat) ∧ placeTargets lr q.c = .ok [.core 0] ∧
      holdsOf (xlateRange q.a q.b.toNat 2 lr) (fun e => e.2 == .spad 0 0x40 && holdsOf
        (addEntry e.1 q.a e.2 .rel .sys (.rdx (rdxRequest e.1 q [.core 0]) e.2 [.core 0])) fun _ => true) = true) ∧
    (IsReady (.rdx 16) lr ∧ holdsOf (readQuad lr 16) (fun e => rdxMode e.2.d == 0 && decide (2048 < e.2.b.toNat) &&
      decide (e.2.b.toNat ≤ 65536) && rdxDoff e.2.d % 16 == 0 && plKind e.2.c == 0) = true) ∧
    (IsReady (.rdx 4) lr ∧ holdsOf (readQuad lr 12) (fun e => decide (65536 < e.2.b.toNat)) = true ∧ IsReady (.rdx 12) lr) := by
  refine ⟨mayDrain_of (by decide +kernel), ?_⟩
  and_intros <;> decide +kernel

theorem witness_Walkers :
    (IsReady (.wknx 7 0 0) lr ∧ IsReady (.wknx 7 4 0) lr ∧ readG lr 0 = .ok (lr, 0) ∧ readG lr 4 = .ok (lr, 1) ∧
      holdsOf (lr.wknx false) (fun e => e.2 == 0) = true ∧ holdsOf (lr.wknx true) (fun e => e.2 == 0) = true) ∧
    (IsReady (.clv 7 0 0) lr ∧ Succeeds (lr.clv 0)) ∧
    (IsReady (.wkrd 7 0 4 0) lr ∧ readG lr 4 = .ok (lr, 1) ∧ (1 : W64).toNat ≤ 1 ∧ Succeeds (lr.wkrd 0 1)) ∧
    (IsReady (.wkrd 7 0 5 0) lr ∧ readG lr 5 = .ok (lr, 2) ∧ 1 < (2 : W64).toNat) ∧
    (lr.primaryOf? lr.curCore = none ∧ (0 : W64) ≠ 0xFFFFFFFFFFFFFFFF#64) ∧
    (w0.myWalker? = none ∧ w0.primaryOf? w0.curCore = none ∧ w0.mirrorOf? w0.curCore = none) := by
  and_intros <;> decide +kernel

theorem witness_Walkers_results :
    (unpaired lr ∧ (∃ w r, HasWalker lr 0 0 w r ∧ w.lo ≠ w.hi ∧ w.dry = false ∧ windowOpen w) ∧
      Room lr (theEntry lr 0 (.spad 0 0) .weak .core (.tile 0 0 0)) ∧ (∃ e ∈ lr.stageWalkers (some lid1) 0, e.2.2.num = 0)) ∧
    (∀ j ∈ [.wknx 3 1 0, .clv 3 1 0, .wkrd 3 1 1 0, .wkrd 3 1 0 0], IsReady j w0) ∧
    (let s := st (fun t => { regs [(1, allOnes), (2, 0), (3, 1)] t with msg := some { msg0 with launch := some lid1 } }) id fun s =>
        (s.modCtx 1 fun x => { x with launches := [(1, launch1)] }).modCluster 0 fun c => { c with walkers :=
          [(0, { launch := lid1, count := 2 }), (1, { launch := lid1, num := 1, count := 2, lo := 0, hi := 4, taken := 0xF0 })] }
     (∃ w r, HasWalker s 0 0 w r ∧ w.dry = true ∧ w.ret = []) ∧ unpaired s ∧
      (∃ e, (s.stageWalkers (some lid1) 0).find? (fun e => e.2.2.num == (1 : W64).toNat) = some e ∧ 2 ≤ e.2.2.avail e.2.2.lo ∧
        (1 : W64) ≠ allOnes) ∧
      (∀ e ∈ s.stageWalkers (some lid1) 0, e.2.2.num ≠ (2 : W64).toNat) ∧
      ∀ j ∈ [.wknx 4 2 0, .wknx 4 3 0, .clv 4 1 0, .clv 4 3 0, .wkrd 4 1 2 0, .wkrd 4 3 3 0], IsReady j s) := by
  unfold unpaired Room
  refine ⟨⟨by decide +kernel, ⟨{ launch := lid1, count := 1, hi := 1, taken := 0xFE }, rcd1, ⟨by decide +kernel, by decide +kernel⟩, by decide +kernel, by decide +kernel, fun _ _ => ⟨0, by decide, by decide +kernel⟩⟩,
    by decide +kernel, by decide +kernel⟩, by decide +kernel, ⟨⟨{ launch := lid1, count := 2 }, rcd1, ⟨by decide +kernel, by decide +kernel⟩,
    by decide +kernel, by decide +kernel⟩, by decide +kernel,
    ⟨(0, 1, { launch := lid1, num := 1, count := 2, lo := 0, hi := 4, taken := 0xF0 }), by decide +kernel, by decide +kernel, by decide +kernel⟩, by decide +kernel, by decide +kernel⟩⟩

theorem witness_LaunchInstructions :
    (let s := lw (regs [(1, 0x80), (2, 0x101), (3, 0x81)])
     IsReady (.lnch 7 1 2) s ∧ readG s 1 = .ok (s, 0x80) ∧ readG s 2 = .ok (s, 0x101) ∧ (0x80 : W64).toNat % 128 = 0 ∧
      IsReady (.lnch 7 3 2) s ∧ readG s 3 = .ok (s, 0x81) ∧ (0x81 : W64).toNat % 128 ≠ 0 ∧
      holdsOf (addEntry s 0x80 (.spad s.curCore 0) .rel .dev (.launch 0x80 1 true false 1)) (fun u => settable u 7) = true) ∧
    (IsReady .trig w0 ∧ w0.cur.buf = [] ∧ Succeeds (addEntry w0 0 (.spad w0.curCore 0) .rel .dev .trig)) ∧
    (let s := st fun t => { t with buf := [{ act := .trig }] }; IsReady .trig s ∧ ∃ e ∈ s.cur.buf, e.act = .trig) := by
  and_intros <;> decide +kernel

theorem witness_Atomics_red :
    (let s := lw (regs [(3, 0x40), (4, 0x41), (5, 0xFFFE000000000040#64)]) page0
     IsReady (.red 3 0 0 1) s ∧ redAdmitted s 0 = true ∧ readG s 3 = .ok (s, 0x40) ∧ readG s 0 = .ok (s, 0) ∧
      field (0x40 : W64) 63 48 < 0xFFFE ∧ (0x40 : W64).toNat % 8 = 0 ∧ acquirePending s.cur = false ∧
      holdsOf (s.xlate 0x40 8 .red) (fun e => holdsOf (addEntry e.1 0x40 e.2 .weak .core (.red 0 8 0)) fun _ => true) = true) ∧
    (let s := lw (regs [(3, 0x40), (4, 0x41), (5, 0xFFFE000000000040#64)]) page0
     IsReady (.red 4 0 0 1) s ∧ readG s 4 = .ok (s, 0x41) ∧ (0x41 : W64).toNat % 8 ≠ 0 ∧ IsReady (.red 5 0 0 1) s ∧
      readG s 5 = .ok (s, 0xFFFE000000000040#64) ∧ 0xFFFE ≤ field 0xFFFE000000000040#64 63 48) := by
  and_intros <;> decide +kernel

/-- The member of the course and of the ring, with an index, words and classes in its registers. -/
def mw : State := lw (regs [(1, 0), (2, 15), (3, 16), (4, 0x0000000100000000#64), (5, 0x800), (6, 0x400), (7, 0x1000), (8, 1), (16, 0)])

theorem witness_CourseInstructions :
    Succeeds (readQuad mw 16) ∧
    (IsReady (.carv 16 6) mw ∧ readG mw 6 = .ok (mw, 0x400) ∧ field (0x400 : W64) 63 12 = 0 ∧
      ((mw.cluster (clusterOf mw.curCore)).course (field (0x400 : W64) 3 0)).mem.getLsbD (8 * indexOf mw.curCore + mw.curSlot) = true ∧
      bitAt (0x400 : W64) 11 = false ∧ Succeeds (addEntry mw 0 (.spad 0 0) .rel .grp (.arrive 0 0 false ⟨0, 0, 0, 0⟩))) ∧
    (IsReady (.carv 16 5) mw ∧ readG mw 5 = .ok (mw, 0x800) ∧ field (0x800 : W64) 63 12 = 0 ∧ bitAt (0x800 : W64) 11 = true ∧
      mw.cur.pend = [] ∧ mw.cur.taint = false ∧ mw.paired mw.curCore mw.curSlot = false) ∧
    (IsReady (.carv 16 7) mw ∧ readG mw 7 = .ok (mw, 0x1000) ∧ field (0x1000 : W64) 63 12 ≠ 0) ∧
    (IsReady (.carv 16 2) mw ∧ field (15 : W64) 63 12 = 0 ∧
      ((mw.cluster 0).course (field (15 : W64) 3 0)).mem.getLsbD (8 * indexOf mw.curCore + mw.curSlot) = false) ∧
    (IsReady (.cexp 1 8) mw ∧ readG mw 1 = .ok (mw, 0) ∧ (0 : W64).toNat ≤ 15 ∧ readG mw 8 = .ok (mw, 1) ∧ (1 : W64).toNat < 2 ^ 32 ∧
      Succeeds (addEntry mw 0 (.spad 0 0) .weak .grp (.cexp 0 1 0 true))) ∧
    (IsReady (.cexp 1 4) mw ∧ readG mw 4 = .ok (mw, 0x0000000100000000#64) ∧ 2 ^ 32 ≤ (0x0000000100000000#64 : W64).toNat) := by
  and_intros <;> decide +kernel

theorem witness_CourseInstructions_reads :
    (IsReady (.cjoin 2) mw ∧ IsReady (.cquit 2) mw ∧ readG mw 2 = .ok (mw, 15) ∧ (15 : W64).toNat ≤ 15 ∧
      Succeeds (addEntry mw 0 (.spad 0 0) .weak .grp (.cjoin 15)) ∧ Succeeds (addEntry mw 0 (.spad 0 0) .weak .grp (.cquit 15))) ∧
    (IsReady (.cjoin 3) mw ∧ IsReady (.cquit 3) mw ∧ readG mw 3 = .ok (mw, 16) ∧ 15 < (16 : W64).toNat) ∧
    (IsReady (.cmis 9 1 8 0) mw ∧ IsReady (.cmis 9 1 0 0) mw ∧ readG mw 8 = .ok (mw, 1) ∧ (1 : W64).toNat ≤ 1) ∧
    (IsReady (.scrd 9 0 2) mw ∧ (mw.rcd? mw.cur.launch).isSome = true ∧ IsReady (.scrd 9 0 3) w0 ∧ mw.cur.pairCount < 8) ∧
    (let s := lw fun t => { t with pairs := List.replicate 8 ⟨.clock, .device 0, 0⟩, taint := true }
     IsReady (.scrd 9 0 2) s ∧ 8 ≤ s.cur.pairCount) ∧
    (IsReady (.lgrd 9 1 0 1) mw ∧ IsReady (.lgrd 9 8 0 2) mw ∧ IsReady (.lgrd 9 2 0 3) mw ∧ readG mw 2 = .ok (mw, 15) ∧ 1 < (15 : W64).toNat) := by
  and_intros <;> decide +kernel

theorem witness_TokensAndTrellises :
    ringMember mw 0 2 = .ok () ∧
    (IsReady (.tkrq 1 8 2) mw ∧ readG mw 1 = .ok (mw, 0) ∧ readG mw 8 = .ok (mw, 1) ∧ field (1 : W64) 31 6 = 0 ∧
      Succeeds (addEntry mw 0 (.spad 0 0) .weak .dev (.tkrq 0 2 1 0))) ∧
    (∀ b ∈ [true, false],
      let s := lw fun t => { t with passed := b, msg := some { msg0 with launch := some lid1, comp := some ⟨.grant 0 0, .device 0, 3⟩ } }
      IsReady (.tkps 1 2) s ∧ readG s 1 = .ok (s, 0) ∧ ringMember s 0 2 = .ok () ∧
        s.cur.msg.bind (·.comp) = some ⟨.grant 0 0, .device 0, 3⟩ ∧ s.cur.passed = b ∧
        Succeeds (addEntry s 0 (.spad 0 0) .rel .dev (.tkps 0 0 3))) ∧
    (IsReady (.trmc 16 8) mw ∧ Succeeds (readQuad mw 16) ∧ (1 : W64).toNat < 64 ∧ mw.rcd? mw.cur.launch ≠ none ∧
      Succeeds (addEntry mw 0 (.spad 0 0) .rel .dev (.trmc 1 ⟨0, 0, 0, 0⟩))) ∧
    (IsReady (.trmc 16 6) mw ∧ readG mw 6 = .ok (mw, 0x400) ∧ 64 ≤ (0x400 : W64).toNat ∧ IsReady (.trmc 16 8) w0 ∧ w0.rcd? w0.cur.launch = none) ∧
    (IsReady (.trrd 9 8 1 0) mw ∧ field (0 : W64) 63 10 = 0 ∧ mw.cur.launch = some lid1 ∧ mw.rcd? (some lid1) = some rcd1 ∧
      admits (Rec.reduce rcd1) (field (0 : W64) 3 0) = true ∧ Succeeds (addEntry mw 0 (.spad 0 0) .rel .dev (.trrd 1 1 0 0))) ∧
    (IsReady (.trrd 9 8 2 0) mw ∧ field (15 : W64) 63 10 = 0 ∧ admits (Rec.reduce rcd1) (field (15 : W64) 3 0) = false) := by
  and_intros <;> decide +kernel

/-- A task with the command ACCZ of accumulator 0 in v1, a bad command in v2, and a FILL of 16 bytes of its scratchpad from g4. -/
def ew (k : Core → Core := id) : State :=
  st (fun t => { regs [(4, 7), (5, 0xFFFE000000000040#64), (6, 16), (7, 4), (11, 9)] t with v := [(1, 0x102), (2, 0xF)] }) k

/-- Queues full of commands of another slot, released, and of the task's own, unreleased. -/
def ewFull : State := ew fun k =>
  { k with mxq := List.replicate 8 { slot := 2, task := 9, released := true }, cpq := List.replicate 8 { slot := 2, task := 9, q := ⟨0, 0, 0, 0⟩, map := 0, parity := 0, chan := 0, xid := 0, uid := 0, launch := none, prio := 0, released := true } }

/-! ## Witnesses: where an instruction stops -/

theorem witness_PortSteps_stops :
    ports.wr = [] ∧ ports.cur.running = true ∧ (∀ p ∈ [28, 30, 31], Succeeds (readG ports p)) ∧
    (let s := st fun t => { t with qbld := List.replicate 256 0 }
     s.wr = [] ∧ s.cur.running = true ∧ readG s 1 = .ok (s, 0) ∧ 256 ≤ s.cur.qbld.length) := by
  and_intros <;> decide +kernel

/-- Addresses beyond the scratchpad in g6 (a multiple of 16), g7 (8 mod 16, partition memory without a translation root) and g8, whose
next page alone is not to be had. -/
def badPlaces : State := st (regs [(1, 5), (6, 0xFFFE000000090000#64), (7, 0xFFFD000000000048#64), (9, 0xFFFE000000000040#64)])

theorem witness_MemoryStops :
    (∀ j ∈ [.lds 1 6 0 0 3 0 0, .sts 1 6 0 3 0, .ldp 2 6 0 0, .stp 2 6 0, .ldp 2 7 0 0, .stp 2 7 0, .tmad 2 6 0 0, .amo 2 6 1 0 0 1,
      .amop 6 1 0 1, .cln 6 0, .invl 6 0], IsReady j badPlaces) ∧
    readG badPlaces 6 = .ok (badPlaces, 0xFFFE000000090000#64) ∧ readG badPlaces 7 = .ok (badPlaces, 0xFFFD000000000048#64) ∧
    readG badPlaces 1 = .ok (badPlaces, 5) ∧
    (0xFFFE000000090000#64 : W64).toNat % 64 = 0 ∧ (0xFFFD000000000048#64 : W64).toNat % 16 = 8 ∧ field 0xFFFD000000000048#64 63 48 < 0xFFFE ∧
    (∀ n ∈ [8, 16, 64], ∀ acc ∈ [Access.scalarRead, .read, .atomic], ¬ Succeeds (badPlaces.xlateLoad 0xFFFE000000090000#64 n acc)) ∧
    (∀ acc ∈ [Access.write, .atomic, .clean, .inval], ¬ Succeeds (badPlaces.xlate 0xFFFE000000090000#64 8 acc)) ∧
    ¬ Succeeds (badPlaces.xlateLoad 0xFFFD000000000048#64 8 .read) ∧ ¬ Succeeds (badPlaces.xlate 0xFFFD000000000048#64 8 .write) ∧
    ¬ Succeeds (badPlaces.xlate 0xFFFE000000090000#64 16 .write) ∧ ¬ Succeeds (badPlaces.xlate 0xFFFE000000090000#64 1 .clean) ∧
    ¬ Succeeds (badPlaces.xlate 0xFFFE000000090000#64 1 .inval) ∧ noRight badPlaces 0xFFFE000000090000#64 = false ∧
    (let s := st (fun t => { regs [(1, 5), (3, 0xFFFE000000000040#64)] t with pend := [{ gd := [9], acq := 2, left := 3 }] })
     IsReady (.sts 1 3 0 3 0) s ∧ IsReady (.lds 1 3 0 0 3 0 0) s ∧ acquirePending s.cur = true ∧ mayRead s (.spad 0 0x40) 8 = false ∧
      s.xlate 0xFFFE000000000040#64 8 .write = .ok (s, .spad 0 0x40) ∧ s.xlateLoad 0xFFFE000000000040#64 8 .scalarRead = .ok (s, .spad 0 0x40)) ∧
    (let s := st fun t => { regs [(1, 5), (3, 0xFFFE000000000040#64)] t with buf := manyAmops 256 }
     IsReady (.sts 1 3 0 3 0) s ∧ s.xlate 0xFFFE000000000040#64 8 .write = .ok (s, .spad 0 0x40) ∧ acquirePending s.cur = false ∧
      ¬ Succeeds (stores s 0xFFFE000000000040#64 (.spad 0 0x40) 8 5 .rel .core)) := by
  and_intros <;> decide +kernel

theorem witness_VectorMemory_stops :
    (∀ j ∈ [.vld 1 6 0 0, .vldb 1 6 0 0, .vst 1 6 0, .vldx 1 6 2 0 0 1, .vstx 1 6 2 0 1], IsReady j badPlaces) ∧
    (address 0xFFFE000000090000#64 ((0 : BitVec 10).toInt * 64)).toNat % 64 = 0 ∧
    (∀ n ∈ [16, 64], ¬ Succeeds (badPlaces.xlateLoad 0xFFFE000000090000#64 n .read)) ∧
    ¬ Succeeds (badPlaces.xlate 0xFFFE000000090000#64 64 .write) ∧
    (∀ acc ∈ [Access.read, .write], ¬ Succeeds (xlateChunks acc badPlaces
      (chunksOf badPlaces 0xFFFE000000090000#64 2 (readM badPlaces 0) (laneWidth 1)))) := by
  and_intros <;> decide +kernel

/-- Pairs in partition memory whose second doubleword lies on a page that this handle does not reach, and a RED there. -/
theorem witness_MemoryStops_second :
    (let s := st (regs [(3, 0xFFF8)]) page0
     IsReady (.ldp 4 3 0 0) s ∧ IsReady (.stp 4 3 0) s ∧ readG s 3 = .ok (s, 0xFFF8) ∧ (0xFFF8 : W64).toNat % 16 = 8 ∧
      (match s.xlateLoad 0xFFF8 8 .read with
        | .ok (s2, _) => decide (¬ Succeeds (s2.xlateLoad (0xFFF8 + 8) 8 .read))
        | _ => false) = true ∧
      (match s.xlate 0xFFF8 8 .write with
        | .ok (s2, _) => decide (¬ Succeeds (s2.xlate (0xFFF8 + 8) 8 .write))
        | _ => false) = true) ∧
    (let s := lw (regs [(3, 0x10000)]) page0
     IsReady (.red 3 0 0 1) s ∧ redAdmitted s 0 = true ∧ readG s 3 = .ok (s, 0x10000) ∧ field (0x10000 : W64) 63 48 < 0xFFFE ∧
      (0x10000 : W64).toNat % 8 = 0 ∧ ¬ Succeeds (s.xlate 0x10000 8 .red)) := by
  and_intros <;> decide +kernel

/-- Operand words of SEND, SENDX, SPWN and RDX that stop the instruction. -/
def sendStops : State := lw (fun t => { regs [(2, 0x8000), (3, 2049 * 2 ^ 38), (4, 32 * 2 ^ 38 + 0x3FFF * 2 ^ 50), (5, 0x00A0), (6, 16 * 2 ^ 38 + 0x8008),
  (7, 258 * 2 ^ 38 + 0x8000), (8, 17 * 2 ^ 38 + 0x8000), (9, 32 * 2 ^ 38 + 0x8000 + 0x3FFF * 2 ^ 50)] t with qbld := [] })

theorem witness_Sends_stops :
    readG sendStops 1 = .ok (sendStops, 0) ∧ placeTargets sendStops 0 = .ok [.core 0] ∧ Succeeds (readQuad sendStops 12) ∧
    (∀ b ∈ [2, 3, 4], IsReady (.send 1 12 b) sendStops) ∧ (∀ b ∈ [5, 6, 7, 8, 9], IsReady (.sendx 1 12 b) sendStops) ∧
    readG sendStops 2 = .ok (sendStops, 0x8000) ∧ bitAt (0x8000 : W64) 15 = true ∧
    (let x : W64 := 2049 * 2 ^ 38; readG sendStops 3 = .ok (sendStops, x) ∧ bitAt x 15 = false ∧ 2048 < field x 49 38) ∧
    (let s := lw fun t => { regs [(3, 1 * 2 ^ 38)] t with qbld := [1] }
     IsReady (.send 1 12 3) s ∧ readG s 3 = .ok (s, 2 ^ 38) ∧ builtBytes s.cur ≠ [] ∧ 0 < field (2 ^ 38 : W64) 49 38) ∧
    (let x : W64 := 32 * 2 ^ 38 + 0x3FFF * 2 ^ 50
     readG sendStops 4 = .ok (sendStops, x) ∧ bitAt x 15 = false ∧ builtBytes sendStops.cur = [] ∧ 0 < field x 49 38 ∧ field x 49 38 ≤ 2048 ∧
      ¬ Succeeds (spadRegion sendStops (16 * field x 63 50) (field x 49 38))) ∧
    readG sendStops 5 = .ok (sendStops, 0x00A0) ∧ bitAt (0x00A0 : W64) 15 = false ∧
    (let x : W64 := 16 * 2 ^ 38 + 0x8008; readG sendStops 6 = .ok (sendStops, x) ∧ field x 49 38 / 2 ≤ field x 14 0) ∧
    (let x : W64 := 258 * 2 ^ 38 + 0x8000
     readG sendStops 7 = .ok (sendStops, x) ∧ bitAt x 15 = true ∧ field x 14 0 < field x 49 38 / 2 ∧ 256 < field x 49 38) ∧
    (let x : W64 := 17 * 2 ^ 38 + 0x8000
     readG sendStops 8 = .ok (sendStops, x) ∧ bitAt x 15 = true ∧ field x 14 0 < field x 49 38 / 2 ∧ field x 49 38 % 2 ≠ 0) ∧
    (let x : W64 := 32 * 2 ^ 38 + 0x8000 + 0x3FFF * 2 ^ 50
     readG sendStops 9 = .ok (sendStops, x) ∧ bitAt x 15 = true ∧ field x 14 0 < field x 49 38 / 2 ∧ field x 49 38 ≤ 256 ∧
      field x 49 38 % 2 = 0 ∧ ¬ Succeeds (spadRegion sendStops (16 * field x 63 50) (field x 49 38))) := by
  and_intros <;> decide +kernel

/-- Words of SPWN: with a reserved bit or field, of the place kinds 1 and 2, of another device, and of a core 9; requests of RDX with
a source beyond the scratchpad and with a core 9 as the consumer. -/
def spawnStops : State := lw (regs [(4, 0x8000000000000000#64), (5, 0x4000000000#64), (6, 0x10), (7, 0x20), (8, 0x100000), (9, 9),
  (12, 0xFFFE000000090000#64), (13, 16), (15, 0x100), (16, 0xFFFE000000000040#64), (17, 16), (18, 9), (19, 0x100)])

theorem witness_SpawnsAndReads_stops :
    (∀ b ∈ [4, 5, 6, 7, 8, 9], IsReady (.spwn 2 20 b 0) spawnStops) ∧ holdsOf (readQuad spawnStops 20) (fun e => e.1 == spawnStops) = true ∧
    (∀ n ∈ [(4, 0x8000000000000000), (5, 0x4000000000), (6, 0x10), (7, 0x20), (8, 0x100000), (9, 9)],
      readG spawnStops (BitVec.ofNat 5 n.1) = .ok (spawnStops, BitVec.ofNat 64 n.2)) ∧
    bitAt 0x8000000000000000#64 63 = true ∧ field 0x4000000000#64 47 38 ≠ 0 ∧
    plKind (BitVec.ofNat 64 (field (0x10 : W64) 37 0)) = 1 ∧ plKind (BitVec.ofNat 64 (field (0x20 : W64) 37 0)) = 2 ∧
    (∀ n ∈ [0x100000, 9], let x : W64 := BitVec.ofNat 64 n; bitAt x 63 = false ∧ field x 47 38 = 0 ∧ plKind (BitVec.ofNat 64 (field x 37 0)) = 0) ∧
    spawnStops.ownDevice (BitVec.ofNat 64 (field (0x100000 : W64) 37 0)) = false ∧ spawnStops.ownDevice (BitVec.ofNat 64 (field (9 : W64) 37 0)) = true ∧
    ¬ Succeeds (placeTargets spawnStops (BitVec.ofNat 64 (field (9 : W64) 37 0))) ∧
    (IsReady (.rdx 12) spawnStops ∧ holdsOf (readQuad spawnStops 12) (fun e => decide (1 ≤ e.2.b.toNat) && rdxMode e.2.d == 1 &&
      plKind e.2.c == 0 && decide (¬ Succeeds (xlateRange e.2.a e.2.b.toNat 2 e.1))) = true) ∧
    (IsReady (.rdx 16) spawnStops ∧ holdsOf (readQuad spawnStops 16) (fun e => rdxMode e.2.d == 1 &&
      holdsOf (xlateRange e.2.a e.2.b.toNat 2 e.1) fun u => decide (¬ Succeeds (placeTargets u.1 e.2.c))) = true) := by
  and_intros <;> decide +kernel

theorem witness_CourseInstructions_stops :
    (∀ j ∈ [.cexp 3 1, .cmis 9 3 1 0, .cmis 9 1 2 0, .tkrq 3 1 2, .tkps 3 2, .tkrq 1 6 2, .tkps 2 2, .tkrq 2 1 2, .tkps 1 2, .trrd 9 8 6 0],
      IsReady j mw) ∧
    readG mw 3 = .ok (mw, 16) ∧ 15 < (16 : W64).toNat ∧ readG mw 2 = .ok (mw, 15) ∧ (15 : W64).toNat ≤ 15 ∧ 1 < (15 : W64).toNat ∧
    (IsReady (.scrd 9 0 2) w0 ∧ w0.rcd? w0.cur.launch = none) ∧
    readG mw 6 = .ok (mw, 0x400) ∧ field (0x400 : W64) 31 6 ≠ 0 ∧ field (0x400 : W64) 63 10 ≠ 0 ∧
    ringMember mw 15 2 = .error (.trap Cause.illegal none) ∧
    ringMember mw 0 2 = .ok () ∧ mw.cur.msg.bind (·.comp) = none := by
  and_intros <;> decide +kernel

theorem witness_EngineQueues_stops :
    (IsReady (.mxqt 9 2 0) (ew) ∧ ¬ Succeeds (queueMatrix (ew) (readV (ew) 2) true)) ∧
    (IsReady (.cpqt 9 8 0) (ew) ∧ ¬ Succeeds (queueCopy (ew) 8 true)) := by
  and_intros <;> decide +kernel

theorem witness_EngineQueues :
    (IsReady (.mxq 1) (ew) ∧ holdsOf (queueMatrix (ew) (readV (ew) 1) false) (fun e => e.2) = true) ∧
    (IsReady (.mxqt 9 1 0) (ew) ∧ holdsOf (queueMatrix (ew) (readV (ew) 1) true) (fun e => e.2) = true) ∧
    (IsReady (.mxqt 9 1 0) ewFull ∧ holdsOf (queueMatrix ewFull (readV ewFull 1) true) (fun e => !e.2) = true) ∧
    (IsReady (.cpq 9 4 0) (ew) ∧ holdsOf (queueCopy (ew) 4 false) (fun e => e.2 == some 0) = true) ∧
    (IsReady (.cpqt 9 4 0) (ew) ∧ holdsOf (queueCopy (ew) 4 true) (fun e => e.2 == some 0) = true) ∧
    (IsReady (.cpqt 9 4 0) ewFull ∧ holdsOf (queueCopy ewFull 4 true) (fun e => e.2 == none) = true) ∧
    (IsReady (.mxq 2) (ew) ∧ ¬ Succeeds (queueMatrix (ew) (readV (ew) 2) false)) ∧
    (IsReady (.cpq 9 8 0) (ew) ∧ ¬ Succeeds (queueCopy (ew) 8 false)) ∧
    (8 ≤ (ewFull.core ewFull.curCore).mxOcc ∧ ∃ e ∈ (ewFull.core ewFull.curCore).mxq, e.zeroing = false ∧ e.released = true) ∧
    (let s := ew fun k => { k with mxq := List.replicate 8 { slot := 1, task := 1 } }
     ∀ e ∈ (s.core s.curCore).mxq, e.zeroing = false → e.released = false ∧ e.slot = s.curSlot ∧ e.task = s.cur.task) := by
  and_intros <;> decide +kernel

/-! ## Witnesses: events of waits, task starts and messages -/

/-- The bytes of an instruction at the start of the routines. -/
def code (j : Instr) (k : Core) : Core :=
  { k with imem := ((bytesOf (encode j).1 (encode j).2).zipIdx 320).map fun e => (e.2, e.1) }

/-- A slot that waits with an instruction. -/
def waiting (j : Instr) (w : Wait) : State := st (fun t => { t with wait := w }) (code j)

theorem witness_WaitsEnd :
    (let s := st fun t => { t with wait := .follow 0 }; s.wr = [] ∧ (s.slot 0 1).wait = .follow 0 ∧ 0 ≤ s.time) ∧
    (let s := st fun t => { t with wait := .pool 576 }; (s.slot 0 1).wait = .pool 576 ∧ poolUsed (s.core 0) + 576 ≤ 576) ∧
    (let s := st fun t => { t with wait := .pool 577 }; (s.slot 0 1).wait = .pool 577 ∧ 576 < poolUsed (s.core 0) + 577) ∧
    (∀ e ∈ [(Instr.mxq 1, Wait.mxq), (.cpq 9 4 0, .cpq), (.wrc 1 8, .skip), (.scrd 9 0 2, .pair),
        (.endOp, .confirm true), (.cEnd, .confirm true), (.cmt, .confirm false), (.amo 9 3 1 0 0 1, .confirm false), (.spwn 9 4 1 0, .confirm false),
        (.carv 4 1, .confirm false)],
      let s := waiting e.1 e.2
      s.wr = [] ∧ s.islandStopped 0 = false ∧ (s.core 0).turnOf 1 = true ∧ (s.slot 0 1).running = true ∧ s.fetch 0 1 = (s, .ok e.1) ∧
        (s.slot 0 1).wait = e.2 ∧ (s.slot 0 1).taint = false ∧ (s.slot 0 1).pairCount < 8 ∧ (s.core 0).mmasPending = false) ∧
    (∀ w ∈ [Wait.mxq, .cpq, .tlbi [], .snap [], .skip, .pair, .confirm true],
      let s := st (fun t => { t with wait := w }) fun k => { k with halted := true }
      s.wr = [] ∧ (s.core 0).turnOf 1 = false ∧ (s.slot 0 1).wait = w) := by
  and_intros <;> decide +kernel

/-- The supervisor slot waits with a TLBI of one translation, or of all, or with a SNAP. -/
def waitingSup (j : Instr) (w : Wait) : State :=
  sup (fun t => { regs [(1, 0x10000), (2, 0), (3, 1)] t with wait := w }) (code j)

theorem witness_WaitsEnd_supervisor :
    (∀ e ∈ [(Instr.tlbi 1 2, Wait.tlbi [(0, 1, 160)]), (.tlbi 1 3, .tlbi [(0, 1, 160)]), (.snap 4, .snap [(0, 7)])],
      let s := waitingSup e.1 e.2
      let v := { s.modSlot 8 7 (fun t => { t with wait := .none }) with curCore := 8, curSlot := 7 }
      s.wr = [] ∧ s.islandStopped 8 = false ∧ (s.core 8).turnOf 7 = true ∧ (s.slot 8 7).running = true ∧ s.fetch 8 7 = (s, .ok e.1) ∧
        (s.slot 8 7).wait = e.2 ∧ asCurrent s 8 7 = v ∧ IsReady e.1 v ∧ s.privileged 8 7 = true ∧ readG v 1 = .ok (v, 0x10000) ∧
        readG v 2 = .ok (v, 0) ∧ readG v 3 = .ok (v, 1) ∧ s.corePart? 8 = some 0 ∧ (s.core 8).flight = [] ∧ (s.part 0).faults = [] ∧
        (v.pinned 0 fun _ => true) = false ∧ settable v 4 = true ∧ s.openWrites 0 = [] ∧ (s.part 0).cow = []) ∧
    field (0 : W64) 1 0 = 0 ∧ field (0x10000 : W64) 63 48 = 0 ∧ field (1 : W64) 1 0 = 1 := by
  and_intros <;> decide +kernel

theorem witness_WaitsEnd_results :
    (let s := st (k := fun k => { k with mxq := [{ cmd := 1, released := true }] }); s.wr = [] ∧ (s.core 0).mmasPending = true) ∧
    (let s := st fun t => { t with taint := true }; s.wr = [] ∧ (s.slot 0 1).taint = true) ∧
    (∀ bad ∈ [none, some (Cause.translate, 0)],
      let p : Pending := { gd := [3], left := 1, ready := true, gval := [7], bad := bad }
      let s := st fun t => { t with pend := [p], wait := .results }
      s.wr = [] ∧ s.primaryOf? 0 = none ∧ (s.slot 0 1).pend = [] ++ p :: [] ∧ p.ready = true ∧ p.arrived = false ∧ p.bad = bad ∧
        p.gd = [3] ∧ p.gval = [7]) := by
  and_intros <;> decide +kernel

/-- A core with one message in its run queue, and its image: class 0 with a routine at halfword 160 and 16 units. -/
def queued (m : Msg) : State :=
  st (fun t => { t with running := false }) fun k => { k with
    runq := [⟨m, 0, none⟩], inbox := [⟨0, 64, false, false, some m⟩], inHead := 64
    imem := [(9, 0x10), (64, 160), (66, 16)] }

theorem witness_TasksStart :
    (∀ m ∈ [msg0, { msg0 with kind := .byAddress, handler := 3 }],
      let s := queued m
      s.wr = [] ∧ s.dispatches 0 = true ∧ s.primaryOf? 0 = none ∧ s.mirrorOf? 0 = none ∧ s.freeSlot? 0 = some 1 ∧
        (s.core 0).runq.find? (s.dispatchable 0) = some ⟨m, 0, none⟩ ∧ s.dispatchable 0 ⟨m, 0, none⟩ = true ∧ m.comp = none) ∧
    routineBad ((queued msg0).core 0).imem { msg0 with kind := .byAddress, handler := 160 } = false ∧
    routineBad ((queued msg0).core 0).imem { msg0 with kind := .byAddress, handler := 3 } = true ∧
    (let s := st (k := fun k => { k with svcq := [{}] }); (s.core 0).serving = none ∧ (s.core 0).svcq = {} :: [] ∧ s.stopped 0 = false) ∧
    (let s := st (k := fun k => { k with svcq := [{}], halted := true }); (s.core 0).svcq = {} :: [] ∧ s.stopped 0 = true) := by
  and_intros <;> decide +kernel

/-- A partition whose trap queue holds one report of cause TRANSLATE, and one whose supervisor image has that class. -/
def report1 : TRec := { w0 := 0x8001000000000000#64, w1 := 0, w2 := 0, w3 := 0, payload := [], call := none, core := 0, slot := 1, launch := none, msgid := 0 }
def trapq (im : Tbl Byte) : State := (st).modPart 0 fun p => { p with trapq := [report1], supImem := im }

theorem witness_TasksStart_supervisor :
    (∀ im ∈ [[], [(9, 0x10), (68, 160), (70, 16)]],
      let s := trapq im
      s.wr = [] ∧ (s.part 0).en = true ∧ (s.part 0).resident = true ∧ (s.slot (s.part 0).supCore 7).running = false ∧
        (s.core (s.part 0).supCore).halted = false ∧ (s.part 0).switch = .none ∧ (s.part 0).halt = .running ∧
        nextRec (s.part 0).trapq = some report1 ∧ (s.part 0).onlySup = false ∧ (s.part 0).fatalHeld = none) ∧
    report1.call = none ∧ report1.type = 2 ∧ report1.cause = 1 ∧ classAbsent ((trapq []).part 0).supImem report1.cause = true ∧
    classAbsent ((trapq [(9, 0x10), (68, 160), (70, 16)]).part 0).supImem report1.cause = false ∧ nextRec [report1] = some report1 := by
  and_intros <;> decide +kernel

/-! ## Witnesses: messages at their places -/

/-- A core 0 whose flight holds the given entries. -/
def fly (l : List Flight) (k : Core → Core := id) (q : State → State := id) : State :=
  st id (fun c => k { c with flight := l }) q

/-- Two entries, the earlier a store: the later may not be released. -/
def behind (a : Act) : State :=
  fly [⟨{ id := 1, act := .store [⟨0, 1, true, true⟩] }, .waiting⟩, ⟨{ id := 2, act := a, order := .rel }, .waiting⟩]

def dmsg0 : Msg := { msg0 with defer := 1 }
def rq : RdxReq :=
  { cdev := 0, cpart := 0, dom := 0, quad := ⟨0xFFFE000000000040#64, 16, 0, 0x100⟩, requester := 0, rpart := 0, rdev := 0, msgid := 0,
    prio := 0, launch := none }
/-- The same in MODE 1, with notice. -/
def rq1 : RdxReq := { rq with quad := ⟨0xFFFE000000000040#64, 16, 0, 0x180⟩ }

/-- A lone entry of a list is at place 0. -/
theorem only {α : Type} {a x : α} {i : Nat} (h : ([a] : List α)[i]? = some x) : i = 0 ∧ a = x := by
  rcases i with _ | i
  · exact ⟨rfl, Option.some.inj h⟩
  · simp at h

theorem witness_MessagesTravel_leave :
    (∀ m ∈ [msg0, dmsg0], let s := fly [⟨{ act := .send m ([0, 16].map .core) }, .waiting⟩]
      s.wr = [] ∧ s.flying? 0 0 = some { act := .send m ([0, 16].map .core) } ∧ (s.core 0).mayRelease { act := .send m ([0, 16].map .core) } = true) ∧
    msg0.defer = 0 ∧ dmsg0.defer ≠ 0 ∧
    (let e : Entry := { id := 2, act := .send msg0 [.core 0], order := .rel }
     (behind (.send msg0 [.core 0])).flying? 0 1 = some e ∧ ((behind (.send msg0 [.core 0])).core 0).mayRelease e = false) ∧
    (∀ due ∈ [0, 1], let s := st (k := fun k => { k with deferred := [⟨due, msg0, .core 0⟩] })
      s.wr = [] ∧ s.time = 0 ∧ (s.core 0).deferred[0]? = some ⟨due, msg0, .core 0⟩) ∧
    (let s := fly [⟨{ act := .rdx rq (.spad 0 0x40) [.core 0] }, .waiting⟩]
     let e : Entry := { act := .rdx rq (.spad 0 0x40) [.core 0] }
     s.flying? 0 0 = some e ∧ (s.core 0).mayRelease e = true) := by
  and_intros <;> decide +kernel

/-- The order of deferrals, for one that is alone. -/
theorem witness_MessagesTravel_first (d : Deferred) : ∀ i x, ([d] : List Deferred)[i]? = some x → d.due < x.due ∨ (d.due = x.due ∧ 0 ≤ i) :=
  fun _ _ h => .inr ⟨congrArg _ (only h).2, Nat.zero_le _⟩

/-- An item on its way to core 0. -/
def under (n : List NetItem) (k : Core → Core := id) : State := st (fun t => { t with running := false }) k fun s => { s with net := n }

/-- An inbox without room, and a run queue that is full. -/
def noRoom (k : Core) : Core := { k with inbox := [⟨0, 32768, false, false, none⟩], inHead := 0 }
def fullQ (k : Core) : Core := { k with runq := List.replicate 56 ⟨msg0, 0, none⟩ }

theorem witness_MessagesTravel_arrive :
    (∀ f ∈ [id, noRoom, fullQ], let s := under [.task 16 0 msg0, .task 16 0 dmsg0] f
      s.wr = [] ∧ s.net[0]? = some (.task 16 0 msg0) ∧ s.net[1]? = some (.task 16 0 dmsg0) ∧ s.primaryOf? 0 = none ∧ s.mirrorOf? 0 = none ∧
        s.deadLaunch msg0 = false ∧ s.staleAt 0 msg0 = false) ∧
    (match (under []).acceptTask 0 msg0 with | .ok _ => true | .error _ => false) = true ∧
    ((under [] noRoom).core 0).inPlace (entryLen msg0) (some msg0) = none ∧
    (match ((under [] fullQ).core 0).inPlace (entryLen msg0) (some msg0) with | some (x, _) => x.runq.length == 56 | none => false) = true ∧
    56 ≤ ((under [] fullQ).core 0).runq.length ∧ ((under []).core 0).runq.length < 56 ∧
    (under [.bounce 0 msg0]).net[0]? = some (.bounce 0 msg0) ∧
    ((under [] fun k => { k with bounces := [msg0] }).core 0).bounces = [msg0] ∧
    (match (under [] noRoom).acceptTask 0 msg0 with | .ok _ => false | .error r => r == 1) = true := by
  and_intros <;> decide +kernel

/-- A paired launch on core 0 of cluster 0, whose mirror is core 0 of cluster 8. -/
def paired (f : Slot → Slot := id) (g : Slot → Slot := id) : State :=
  let t : Slot := { running := true, budg := 4096, repl := true, task := 1, pc := ⟨false, 160⟩, msg := some { msg0 with launch := some lid1 } }
  ((st (fun _ => f t) (fun c => { c with image := some lid1 })).setCore 128 { image := some lid1, slots := Tbl.set [] 1 (g t), tasks := 1 }).modCtx 1
    fun x => { x with launches := [(1, { launch1 with rcd := BitVec.ofNat 1024 (1 + 2 ^ 12 + 2 ^ 16 + 4 * 2 ^ 64 + 2 ^ 192 + 2 ^ 272) })] }

def item (n : NetItem) (k : Core → Core := id) : State := under [n] k

theorem witness_MessagesTravel_pair : paired.primaryOf? 128 ≠ none := by decide +kernel

theorem witness_MessagesTravel_spawn :
    (∀ f ∈ [id, noRoom, fun k => { k with halted := true }], let s := under [.spawn 16 1 5 (.core 0) msg0] f
      s.wr = [] ∧ s.net[0]? = some (.spawn 16 1 5 (.core 0) msg0) ∧ s.primaryOf? 0 = none) ∧
    (under [] fun k => { k with halted := true }).dispatches 0 = false ∧ ((under [] noRoom).core 0).inPlace 64 (some msg0) = none ∧
    (under []).dispatches 0 = true ∧ (under []).freeSlot? 0 = some 1 ∧ (under []).mirrorOf? 0 = none ∧ (under []).deadLaunch msg0 = false ∧
    (under []).staleAt 0 msg0 = false ∧ (((under []).core 0).inPlace 64 (some msg0)).isSome = true ∧
    (let m : Msg := { msg0 with launch := some lid1 }
     let s := (under [.spawn 16 1 5 (.core 0) m] fun k => { k with earlier := [lid1] }).modCtx 1 fun x => { x with launches := [(1, launch1)] }
     s.wr = [] ∧ s.net[0]? = some (.spawn 16 1 5 (.core 0) m) ∧ s.primaryOf? 0 = none ∧ s.deadLaunch m = false ∧ s.staleAt 0 m = true ∧
      (under []).deadLaunch m = true) ∧
    (let s := st; s.freeSlot? 0 = some 2) ∧
    (let s := (under []).modCluster 0 fun x => { x with tasks := [(0, msg0)] }
     s.wr = [] ∧ (s.cluster 0).tasks[0]? = some (0, msg0) ∧ (s.acceptOwn 0 msg0).isSome = true) ∧
    (let s := (under [] noRoom).modCluster 0 fun x => { x with tasks := [(0, msg0)] }
     (s.cluster 0).tasks[0]? = some (0, msg0) ∧ s.acceptOwn 0 msg0 = none) := by
  and_intros <;> decide +kernel

/-- Both stages of context 1 give the first GiB with every right: stage 2 by tables at 4096 and 8192, stage 1 by tables at 0x5000 and
0x6000; the partition has bit 24 of its QoS word, BORROW, set and so sends in every slot of the memory plane that no partition has; the
home of line 0 is in cluster 0. -/
def mapped (s : State) : State :=
  { (s.modCtx 1 (fun x => { x with s2root := 4096, root1 := 0x5001 })).modPart 0 (fun p => { p with qos := 2 ^ 24 }) with
    mem := [(4096, 0x03), (4097, 0x20), (8192, 0x1D), (0x5000, 0x03), (0x5001, 0x60), (0x6000, 0x1D)], lines := [(0, { home := some 0 })] }

def hbm0 : Loc := .hbm 0 0x40 0x40 0x40

theorem witness_MessagesTravel_reads :
    (let s := under [.rdx rq (.spad 0 0x40) ([0].map .core)]
     s.wr = [] ∧ s.net[0]? = some (.rdx rq (.spad 0 0x40) ([0].map .core)) ∧ s.planeShut (.spad 0 0x40) = false ∧
      ∃ bs, s.rdxRead rq (.spad 0 0x40) = (s, .bytes bs)) ∧
    (under [.rdx rq hbm0 ([0].map .core)]).planeShut hbm0 = true ∧
    (∀ mv ∈ [none, some 1],
      let s : State := { mapped (under [.rdx rq hbm0 ([0].map .core)]) with lines := [(0, { home := some 0, moving := mv })] }
      let x := s.xlateMem none 0 0x40 .fetch
      s.wr = [] ∧ s.net[0]? = some (.rdx rq hbm0 ([0].map .core)) ∧ s.planeShut hbm0 = false ∧ s.planeOpen 0 = true ∧
        1 ≤ rq.quad.b.toNat ∧ 0x40 % 65536 + rq.quad.b.toNat ≤ 65536 ∧ x.2 = .at_ hbm0 ∧
        x.1.busy 0 0x40 0x40 16 false = mv.isSome ∧ x.1.foreignIn 0 0x40 16 = none ∧
        (match (s.rdxRead rq hbm0).2 with | .parked _ _ => mv.isSome | .bytes _ => mv.isNone | _ => false) = true) ∧
    (∀ n ∈ [63, 64], let s := item (.delivery rq1 0 (List.replicate 16 1) 0 true) fun k => { k with cinbox := List.replicate n {} }
      s.wr = [] ∧ s.net[0]? = some (.delivery rq1 0 (List.replicate 16 1) 0 true) ∧ s.corePart? 0 = some 0 ∧ s.acceptsFrom 0 rq1 = true ∧
        rq1.rdev = s.fabric.devId ∧ rdxMode rq1.quad.d = 1 ∧ rdxNotify rq1.quad.d = true ∧ rdxDoff rq1.quad.d + 16 ≤ s.spadSize 0 ∧
        (s.core 0).records = n) ∧
    (∀ n ∈ [63, 64], let s := item (.notice rq1 0) fun k => { k with cinbox := List.replicate n {} }
      s.wr = [] ∧ s.net[0]? = some (.notice rq1 0) ∧ (s.core 0).records = n) := by
  refine ⟨⟨by decide +kernel, by decide +kernel, by decide +kernel, _, rfl⟩, ?_⟩
  and_intros <;> decide +kernel

/-! ## Witnesses: homes, service slots, engines -/

def oneByte : List NibByte := [⟨0, 7, true, true⟩]

theorem witness_WritesAtHomes_stores :
    hasNibble oneByte = false ∧ (0 : Nat) ≠ planeCore ∧
    (∀ e ∈ [({ act := .store oneByte, loc := .spad 0 0x40 } : Entry), { act := .store oneByte, loc := hbm0 }],
      let s := fly [⟨e, .waiting⟩] id mapped
      s.wr = [] ∧ (s.core 0).flight[0]? = some ⟨e, .waiting⟩ ∧ e.order = .weak ∧ (s.core 0).mayPerform e = true) ∧
    (∀ e ∈ [({ act := .store oneByte, loc := .spad 0 0x40, order := .rel } : Entry), { act := .store oneByte, loc := hbm0, order := .sc }],
      let s := fly [⟨e, .waiting⟩] id mapped
      s.wr = [] ∧ (s.core 0).flight[0]? = some ⟨e, .waiting⟩ ∧ (e.order = .rel ∨ e.order = .sc) ∧ (s.core 0).mayRelease e = true) ∧
    (let e : Entry := { act := .store oneByte, loc := hbm0 }
     ∀ full ∈ [0, 63, 64], ∀ mv ∈ [none, some 1],
      let s := fly [⟨e, .waiting⟩] id fun s => { mapped s with
        lines := [(0, { home := some 0, moving := mv })], clusters := [(0, { park := List.replicate full ⟨.entry, 0, 9, hbm0, 0, 0⟩ })] }
      s.planeOpen 0 = true ∧ s.snapHolds 0 0 e = false ∧ s.refusedAt 0 (s.homeOf 0 (0x40 / 128)) = false ∧ s.busy 0 0x40 0x40 e.span true = mv.isSome ∧
        ((s.startCow 0 0x40).cluster 0).park.length = full) ∧
    (let e : Entry := { act := .store oneByte, loc := .unmapped 0 0x40 0x40 }
     let s := fly [⟨e, .waiting⟩] id fun s => mapped (s.modCtx 1 fun x => { x with root1 := 0 })
     let s : State := s.modCtx 1 fun x => { x with root1 := 0 }
     s.planeOpen 0 = true ∧ s.snapHolds 0 0 e = false ∧ s.refusedAt 0 (s.dirSlice 0 (0x40 / 128)) = false ∧
      (match (s.xlateMem (some 0) 0 0x40 .write).2 with | .bad c => c == Cause.translate | _ => false) = true) ∧
    (let e : Entry := { act := .store oneByte, loc := hbm0 }
     let s := fly [⟨e, .waiting⟩]
     s.planeOpen 0 = false ∧ (s.modSlot 8 7 fun t => { t with wait := .snap [] }).snapHolds 0 0 e = true ∧
      (fly [⟨{ e with id := 1 }, .refused⟩, ⟨e, .waiting⟩] id mapped).refusedAt 0 0 = true) := by
  and_intros <;> decide +kernel

theorem witness_WritesAtHomes_others :
    (let e : Entry := { id := 2, act := .store oneByte, order := .rel }
     let s := fly [⟨{ id := 1, act := .fence, order := .rel }, .waiting⟩, ⟨e, .waiting⟩]
     (s.core 0).flight[1]? = some ⟨e, .waiting⟩ ∧ (s.core 0).mayPerform e = false ∧ e.mortar = false ∧ (s.core 0).mayRelease e = false) ∧
    (let e : Entry := { act := .red 0 8 1, loc := hbm0 }
     let s := fly [⟨e, .waiting⟩] id mapped
     (s.core 0).flight[0]? = some ⟨e, .waiting⟩ ∧ (s.core 0).mayPerform e = true ∧ s.planeOpen 0 = true ∧ s.snapHolds 0 0 e = false ∧
      s.refusedAt 0 (s.homeOf 0 (0x40 / 128)) = false ∧ s.busy 0 0x40 0x40 8 true = false) ∧
    (let e : Entry := { id := 2 }
     let s := fly [⟨e, .waiting⟩]
     s.flying? 0 0 = some e ∧ e.act = .fence ∧ (s.core 0).mayPass e = true ∧ (behind .fence).flying? 0 1 = some { e with order := .rel } ∧
      ((behind .fence).core 0).mayPass { e with order := .rel } = false) ∧
    (∀ ok ∈ [true, false],
      let e : Entry := { id := 2, act := .store oneByte, loc := .peer 1 0 0x40 0 }
      let s := fly [⟨e, .sent⟩] id fun s => { s with net := [.ack 0 2 ok 3 1] }
      (s.core 0).flight[0]? = some ⟨e, .sent⟩ ∧ s.net.find? (isAck 0 e.id ok) = some (.ack 0 e.id ok 3 1)) ∧
    (∀ l ∈ linesOf 0x40 0x40 1, ((st id id mapped).line l.1).partials = []) ∧ (oneByte.map (·.pos)).Nodup := by
  and_intros <;> decide +kernel

/-- A request in service at core 0, for a place of the scratchpad of core 0 or of line 0. -/
def served (a : Act) (loc : Loc) : State :=
  (st (k := fun k => { k with serving := some { src := 0, req := 5, act := a, loc := loc } })).setCore 8
    { serving := some { src := 0, req := 5, act := a, loc := loc } } |> mapped

theorem witness_ServiceSlots_arrive :
    (∀ n ∈ [7, 8], ∀ e ∈ [({ act := .amop 0 8 1, loc := .spad 0 0x40 } : Entry), { act := .amo 0 8 1 2 5, loc := .spad 0 0x40 }],
      let s := fly [⟨e, .waiting⟩] fun k => { k with svcq := List.replicate n {} }
      s.wr = [] ∧ (s.core 0).flight[0]? = some ⟨e, .waiting⟩ ∧ (s.core 0).mayPerform e = true ∧ (s.core 0).mayAmo e = true ∧ e.order ≠ .rel ∧
        (∀ f ∈ (s.core 0).flight, f.st ≠ .refused) ∧ (s.core 0).svcq.length = n) ∧
    (let e : Entry := { act := .store oneByte, loc := .spad 0 0x40 }
     let s := fly [⟨e, .refused⟩]
     s.wr = [] ∧ (s.core 0).flight[0]? = some ⟨e, .refused⟩ ∧ hasNibble oneByte = false) := by
  and_intros <;> decide +kernel

theorem witness_ServiceSlots_serve :
    (∀ a ∈ [Act.amo 0 8 1 2 5, .amo 9 8 0 2 5, .amo 9 8 1 2 5, .amop 0 8 1, .store oneByte], ∀ loc ∈ [Loc.spad 0 0x40, .imem 0 0x200, hbm0],
      let s := served a loc
      s.wr = [] ∧ (s.core 0).serving = some { src := 0, req := 5, act := a, loc := loc } ∧
        (s.core 8).serving = some { src := 0, req := 5, act := a, loc := loc }) ∧
    (let s := served (.amo 0 8 1 2 5) hbm0
     s.planeOpen 0 = true ∧ s.busy 0 0x40 0x40 8 true = false ∧ 16 * s.homeOf 0 (0x40 / 128) + 8 = 8 ∧ s.foreign 0 0x40 = false ∧
      ({ s with lines := [(0, { home := some 0, bad := true })] } : State).foreign 0 0x40 = true) ∧
    (∀ c ∈ [0, 8], let s := served (.amo 0 8 1 2 5) hbm0
      (s.core c).halted = false ∧ s.islandStopped c = false ∧ (s.core c).turnOf 0 = true ∧
        ((s.core c).serving.map (·.dev)) = some none ∧ s.serviceTurn c = true) ∧
    (let s := st (k := fun k => { k with halted := true, serving := some {} }); s.wr = [] ∧ s.serviceTurn 0 = false) ∧
    ((st).core 0).serving = none := by
  and_intros <;> decide +kernel

theorem witness_ServiceSlots_lines :
    (let s := st id id fun s => { s with lines := [(0, { moving := some 1 })] }; s.wr = [] ∧ (s.line 0).moving = some 1 ∧ s.partOf? 1 = some 0) ∧
    (∀ b ∈ [true, false], let s := st id id fun s => { s with lines := [(0, { scrub := b })] }; s.wr = [] ∧ (s.line 0).scrub = b) ∧
    (∀ mv ∈ [none, some 1],
      let r : Parked := ⟨.entry, 0, 9, hbm0, 0, 0⟩
      let s := st id (fun k => { k with flight := [⟨{ id := 9, act := .store oneByte, loc := hbm0 }, .parked⟩] }) fun s =>
        { mapped s with lines := [(0, { home := some 0, moving := mv })], clusters := [(0, { park := [r] })] }
      (s.cluster 0).park = r :: [] ∧ r.who = .entry ∧
        (s.core r.src).flight.find? (fun f => f.e.id == r.req) = some ⟨{ id := 9, act := .store oneByte, loc := hbm0 }, .parked⟩ ∧
        ((s.retryParked r).core 0).flight.isEmpty = mv.isNone) ∧
    ((st).cluster 0).park = [] := by
  and_intros <;> decide +kernel

/-- An engine command ends in this run. -/
def ended (r : MxEnd) : Bool := match r with | .done _ _ _ _ => true | _ => false

/-- A core whose matrix queue holds a released command; words of a command from its kind, options and completion word. -/
def mxWith (e : MxEntry) (k : Core → Core := id) : State := st id fun c => k { c with mxq := [{ e with released := true }] }
def cmd (w0 cmpl : Nat) (course : Nat := 0) : Vec := BitVec.ofNat 512 (w0 + 2 ^ 384 * cmpl + 2 ^ 448 * course)

theorem witness_MatrixCommands_run :
    (∀ e ∈ [(0x102, fun v e s => runAccz v e s), (0x03, runAccl), (0x1000004, runAccs), (0x05, runAccm fun k _ b i j => k.accAt b i j),
        (0x1000005, runAccm fun k a b i j => f32add (k.accAt a i j) (k.accAt b i j)), (0x2000005, runAccm fun k _ b i j => k.accAt b j i)],
      let q : MxEntry := { cmd := cmd e.1 0, released := true }
      let s := mxWith q
      s.wr = [] ∧ s.mxNext? 0 = some q ∧ s.corePart? 0 = some 0 ∧ q.zeroing = false ∧ Cmd.kind q.cmd = e.1 % 16 ∧ Cmd.opt q.cmd = e.1 / 2 ^ 24 ∧
        ended (e.2 ⟨0, 0, q.uid, q.fillFailed⟩ q s) = true) ∧
    (∀ e ∈ [0, 1], let q : MxEntry := { cmd := cmd e 0, released := true }; let s := mxWith q; s.mxNext? 0 = some q ∧ Cmd.kind q.cmd = e) ∧
    ((mxWith {} fun k => { k with mxHeld := some ⟨false, 0, {}, none, 0⟩ }).core 0).mxHeld ≠ none ∧
    ((mxWith {} fun k => { k with halted := true }).core 0).halted = true ∧ (st).mxNext? 0 = none := by
  and_intros <;> decide +kernel

/-- ACCL of an operand in partition memory, by a map of one element; its line moves, or the plane takes no request of the partition. -/
def acclMem : MxEntry := { cmd := BitVec.ofNat 512 (3 + 2 ^ 64), mapX := BitVec.ofNat 512 (2 ^ 64 + 2 ^ 384), released := true }

theorem witness_MatrixCommands_memory :
    (∀ full ∈ [0, 64],
      let s : State := { mapped (mxWith acclMem) with
        lines := [(0, { home := some 0, moving := some 1 })], clusters := [(0, { park := List.replicate full ⟨.entry, 0, 9, hbm0, 0, 0⟩ })] }
      s.wr = [] ∧ s.mxNext? 0 = some acclMem ∧ s.corePart? 0 = some 0 ∧ Cmd.kind acclMem.cmd = 3 ∧
        (match runAccl ⟨0, 0, acclMem.uid, acclMem.fillFailed⟩ acclMem s with | .parked w => w.loc == .hbm 0 0 0 0 | _ => false) = true ∧
        (let u := s.modMxHead 0 fun x => { x with parked := false, refused := none, begun := true }
         s.heldOff 0 0 0 128 = 0 ∧ u.refusedAt 0 (s.homeOf 0 0) = false ∧ (u.cluster (s.homeOf 0 0)).park.length = full ∧
          (s.modMxHead 0 fun x => { x with parked := false, refused := some 0 }).refusedAt 0 (s.homeOf 0 0) = true)) ∧
    (let s := (mapped (mxWith acclMem)).modPart 0 fun p => { p with qos := 0 }
     match runAccl ⟨0, 0, acclMem.uid, acclMem.fillFailed⟩ acclMem s with | .shut => true | _ => false) = true := by
  and_intros <;> decide +kernel

/-- A record of b8p4 elements in blocks of 16, without scales. -/
def fm8 : W32 := 0x801
def mma0 : MxEntry := { cmd := cmd 0 0, recA := fm8, recB := fm8, released := true }
def via0 : Via := ⟨0, 0, 0, false⟩
def okOf {ε α : Type} (e : Except ε α) : Bool := match e with | .ok _ => true | .error _ => false

theorem witness_MatrixCommands_mma :
    field (Cmd.ctl mma0.cmd 0) 1 0 = 0 ∧ field (Cmd.ctl mma0.cmd 1) 1 0 = 0 ∧ fmScale mma0.recA = 2 ∧ fmScale mma0.recB = 2 ∧
    (fmFmt? mma0.recA).isSome = true ∧ fmBlockLen mma0.recA = 16 ∧
    ended (runMma via0 mma0 (mxWith mma0)) = true ∧ ended (runMmas via0 { mma0 with cmd := cmd 1 0 } (mxWith mma0)) = true ∧
    okOf (readRows via0 (opndOf mma0.cmd 0 0 8) ((fmFmt? fm8).getD f32) ((upto 16).map (16 * 0 + ·)) (upto 32) ⟨mxWith mma0, [], []⟩) = true ∧
    okOf (readRows via0 (opndOf mma0.cmd 1 0 8) ((fmFmt? fm8).getD f32) ((upto 16).map (16 * 0 + ·)) (upto 32) ⟨mxWith mma0, [], []⟩) = true ∧
    okOf (readScales via0 2 (0 + BitVec.ofNat 64 (32 * (Cmd.soffa mma0.cmd + 0))) (upto 32) ⟨mxWith mma0, [], []⟩) = true ∧
    okOf (readRows via0 (opndOf (cmd 0x1000003 0) 0 0 32) (cFmt { cmd := cmd 0x1000003 0 }) (upto 32) (upto 32) ⟨mxWith mma0, [], []⟩) = true := by
  and_intros <;> decide +kernel

theorem witness_MatrixCommands_accs :
    ((accsWrites ((st).core 0) { cmd := cmd 0x1000004 0 }).all fun w =>
      match w.1 with | .spad off => decide (off < (st).spadSize 0) | _ => false) = true := by
  decide +kernel

theorem witness_MatrixCommands_end :
    (∀ md ∈ [0, 1, 2], ∀ cs ∈ [0, 0x10], ∀ n ∈ [63, 64],
      let e : MxEntry := { cmd := cmd 2 md cs, finished := true, released := true }
      let s := mxWith e fun k => { k with cinbox := List.replicate n {} }
      let u := s.modCore 0 fun k => { k with mxq := [], mxFreed := k.mxFreed + 1 }
      let rep : Report := ⟨decide (md = 2), 0, mxRecord e, none, 0⟩
      s.engineHeld 0 1 = false ∧ s.wr = [] ∧ (s.core 0).mxq = e :: [] ∧ e.finished = true ∧ e.status = 0 ∧ Cmd.mode e.cmd = md ∧ Cmd.courseEn e.cmd = decide (cs ≠ 0) ∧
        (u.giveReport 0 rep).isSome = (decide (n < 64) || decide (md = 2))) ∧
    (∀ n ∈ [63, 64],
      let r : Report := ⟨false, 0, {}, none, 0⟩
      let s := st (k := fun k => { k with mxHeld := some r, cinbox := List.replicate n {} })
      s.wr = [] ∧ (s.core 0).mxHeld = some r ∧ (s.core 0).cpHeld = [] ∧ r.handler = false ∧ (s.giveReport 0 r).isSome = decide (n < 64)) ∧
    (let r : Report := ⟨false, 0, {}, none, 0⟩
     let s := st (k := fun k => { k with cpHeld := [r] })
     s.wr = [] ∧ (s.core 0).mxHeld = none ∧ (s.core 0).cpHeld = [r] ∧ s.engineHeld 0 2 = false ∧ (s.giveReport 0 r).isSome = true) ∧
    (let s := (mxWith { finished := true }).modPart 0 fun p => { p with heldRecs := [{ slotRec 0 with engine := 1 }] }
     (s.core 0).mxq = { finished := true, released := true } :: [] ∧ s.engineHeld 0 1 = true) ∧
    (let s := st (k := fun k => { k with mxq := [{ zeroing := true, released := true }] })
     s.wr = [] ∧ (s.core 0).mxq = { zeroing := true, released := true } :: []) := by
  and_intros <;> decide +kernel

/-- A transfer at the head of channel 0. -/
def cpWith (e : CpEntry) (k : Core → Core := id) : State := st id fun c => k { c with cpq := [{ e with released := true }] }
def near : W64 := 0xFFFE000000000040#64
def far : W64 := 0xFFFE000000000080#64
def beyond : W64 := 0xFFFE000000090000#64

/-- Transfers of the six kinds, to a given place; the map has one dimension of 16 bytes. -/
def cpOf (b : W64) : List (Nat × CpEntry) :=
  [(0, { q := ⟨near, b, 16, 0⟩, released := true }), (1, { q := ⟨near, b, 0x0001001000010001#64, 1⟩, released := true }),
   (2, { q := ⟨near, b, 0x0000100000000010#64, 2⟩, released := true }), (3, { q := ⟨near, b, 0x0000000F00000001#64, 3⟩, released := true }),
   (4, { q := ⟨7, b, 16, 4⟩, released := true })]
def mapCp : CpEntry := { q := ⟨near, far, 0, 0x101⟩, map := BitVec.ofNat 512 (16 * 2 ^ 384), released := true }

theorem witness_CopyTransfers_step :
    (∀ k ∈ [true, false], ∀ x ∈ cpOf (if k then far else beyond),
      let s := cpWith x.2
      s.wr = [] ∧ s.cpNext? 0 0 = some x.2 ∧ Cp.kind x.2.q.d = x.1 ∧ Cp.map x.2.q.d = false ∧ x.2.off < Cp.total x.2.q x.2.map ∧
        (s.core 0).halted = false ∧
        (match s.nextChunk 0 x.2 with
          | some ch => match ((s.copyChunk 0 x.2 ch).core 0).cpq.find? fun y => y.uid == x.2.uid with
            | some y => (y.off == x.2.off) == !k
            | none => false
          | none => false) = true) ∧
    (let s := cpWith mapCp; s.cpNext? 0 0 = some mapCp ∧ Cp.map mapCp.q.d = true ∧ (s.nextChunk 0 mapCp).isSome = true) ∧
    (∀ x ∈ cpOf far, let e : CpEntry := { x.2 with off := 16 }; (cpWith e).cpNext? 0 0 = some e ∧ (cpWith e).nextChunk 0 e = none) ∧
    (∀ x ∈ cpOf far, let s := cpWith x.2 fun k => { k with halted := true }
      s.cpNext? 0 0 = some x.2 ∧ (s.core 0).halted = true ∧ x.2.under = none ∧ (s.nextChunk 0 x.2).isSome = true) ∧
    (st).cpNext? 0 0 = none ∧
    (∀ x ∈ cpOf far, let s := cpWith x.2
      (match ((s.cpStep 0 x.2).core 0).cpq.find? fun y => y.uid == x.2.uid with | some y => y.off != x.2.off | none => false) = true) := by
  and_intros <;> decide +kernel

/-- A chunk to a page that waits at device 1 for its bytes, or has them. -/
def underWay (got : Option (List Byte)) : CpEntry :=
  { q := ⟨7, far, 16, 4⟩, released := true, under := some (.peer 1 0 0x40 0, hbm0, 5), fetched := got }

theorem witness_CopyTransfers_under :
    (∀ g ∈ [none, some [1, 2]], (underWay g).under = some (.peer 1 0 0x40 0, hbm0, 5) ∧ (underWay g).fetched = g) ∧
    (some far : Option W64) ≠ none ∧ (cpWith (underWay none)).planeShut hbm0 = true ∧
    (mapped (cpWith (underWay none))).planeShut hbm0 = false ∧ (mapped (cpWith (underWay none))).pinHolds hbm0 = false ∧
    (let e : CpEntry := { q := ⟨near, far, 0x0000000F00000001#64, 3⟩, released := true }
     Cp.kind e.q.d = 3 ∧ e.gath = none ∧ e.off < Cp.total e.q e.map ∧
      Cp.kind { e with gath := some 0 }.q.d = 3 ∧ { e with gath := some 0 }.gath.isSome = true) := by
  and_intros <;> decide +kernel

theorem witness_CopyTransfers_chunks :
    (∀ x ∈ cpOf far, let s := cpWith x.2
      x.2 ∈ (s.core 0).cpq ∧ x.2.doomed = false ∧ x.2.under = none ∧ x.2.fetched = none ∧ x.2.olds = []) ∧
    (let e : CpEntry := { q := ⟨7, far, 16, 4⟩, released := true }
     let s := cpWith e
     s.nextChunk 0 e = some ⟨.pattern 7 0, some far, none, 16, 16⟩ ∧ s.cpXlate 0 e far 16 .write = (s, .at_ (.spad 0 0x80), far)) ∧
    (let e : CpEntry := { q := ⟨near, far, 16, 0⟩, released := true }
     let s := cpWith e
     s.nextChunk 0 e = some ⟨.mem near none, some far, none, 16, 16⟩ ∧ s.cpXlate 0 e near 16 .fetch = (s, .at_ (.spad 0 0x40), near) ∧
      s.cpXlate 0 e far 16 .write = (s, .at_ (.spad 0 0x80), far) ∧ 0x40 + 16 ≤ 0x80 ∧ 0x80 + 16 ≤ 2 ^ 18) := by
  and_intros <;> decide +kernel

theorem witness_CopyTransfers_end :
    (∀ fin ∈ [true, false], ∀ md ∈ [0, 1, 2], ∀ n ∈ [63, 64],
      let e : CpEntry := { q := ⟨7, far, 16, BitVec.ofNat 64 (4 + md * 2 ^ 40)⟩, released := true, finished := fin, off := 16 }
      let s := cpWith e fun k => { k with cinbox := List.replicate n {} }
      let u := ((s.modCore 0 fun k => { k with cpq := [] }).modCore 0 fun k => k.retire e.chan e.xid).cpDeliver 0 e
      let rep : Report := ⟨decide (md = 2), 0, cpRecord e, none, 0⟩
      s.wr = [] ∧ ((s.core 0).cpq.find? fun e => e.chan == 0 && e.released) = some e ∧ e.finished = fin ∧ e.status = 0 ∧ Cp.mode e.q.d = md ∧
        (u.core 0).cpHeld = [] ∧ u.engineHeld 0 2 = false ∧ (u.giveReport 0 rep).isSome = (decide (n < 64) || decide (md = 2))) ∧
    (∀ x ∈ [1, 2, 3], ∀ md ∈ [1, 2],
      let e : CpEntry := { q := ⟨7, far, 16, BitVec.ofNat 64 (4 + md * 2 ^ 40)⟩, released := true, finished := true, status := x }
      let s := cpWith e
      let u := s.modCore 0 fun k => { k with cpq := k.cpq.filter fun x => x.uid != e.uid }
      let rep : Report := ⟨decide (Cp.mode e.q.d = 2), Cp.cls e.q.d, cpRecord e, e.launch, e.prio⟩
      s.wr = [] ∧ ((s.core 0).cpq.find? fun e => e.chan == 0 && e.released) = some e ∧ e.finished = true ∧ e.status ≠ 0 ∧
        (u.core 0).cpHeld = [] ∧ u.engineHeld 0 2 = false ∧ (u.giveReport 0 rep).isSome = true) ∧
    (∀ id ∈ [0, 2 ^ 32 - 1], let k : Core := { cpdn := Tbl.set [] 0 id }
      k.retired = [] ∧ Tbl.find 0 k.cpdn 0 = id ∧ id < 2 ^ 32 ∧ Tbl.find 0 k.cpdn 0 ≠ id + 1) := by
  and_intros <;> decide +kernel

/-! ## Witnesses: pages, the front end, launches -/

/-- A pin of the page of 64 KiB at 0. -/
def pin0 : Pin := { part := 0, gva := 0x40, gpa := 0x40 }

theorem witness_PageEvents_fills :
    (let s := st fun t => { t with wait := .fill 0 }
     s.wr = [] ∧ s.net = [] ∧ (∀ k ∈ (s.part 0).clusters, (s.cluster k).park = []) ∧ 0 ∈ (s.part 0).cores ∧ (s.slot 0 1).wait = .fill 0) ∧
    (∀ l ∈ [[], [pin0]], let s := st id (fun k => { k with pins := l }) mapped
      s.wr = [] ∧ s.pinned 0 (fun q => q.uses2 0x40) = !l.isEmpty ∧ s.pinned 0 (fun _ => true) = !l.isEmpty) ∧
    (∀ q ∈ [id, mapped], let f : Flight := ⟨{ act := .store oneByte, loc := hbm0 }, .waiting⟩
      let s := fly [f] id q
      f ∈ (s.core 0).flight ∧ f.e.loc = hbm0 ∧ s.pinned 0 (fun q => q.uses2 0x40) = false) ∧
    ((st).dropTlb fun x => x.uses2 0 0x40).stage2 0 0x40 = (st, none) ∧
    (match (((st id id mapped).dropTlb fun x => x.uses2 0 0x40).stage2 0 0x40).2 with
      | some (pa, _, e) => pa == 0x40 && !lacks Access.write.needs (pteR e) (pteW e) (pteA e)
      | none => false) = true ∧
    128 * 2 ≤ 128 * 2 ∧ 128 * 2 + 128 ≤ 128 * 2 + 128 := by
  and_intros <;> decide +kernel

/-- Stage 2 with the page of 64 KiB at guest 0, through four levels, to frame 0x30000. -/
def small (s : State) : State :=
  { s.modCtx 1 (fun x => { x with s2root := 0x1000 }) with
    mem := [(0x1000, 0x03), (0x1001, 0x20), (0x2000, 0x03), (0x2001, 0x30), (0x3000, 0x03), (0x3001, 0x40), (0x4000, 0x1D), (0x4002, 0x03)] }

theorem witness_PageEvents_moves :
    (let s := st id id small
     ∃ e, s.wr = [] ∧ s.stage2 0 0x40 = (s, some (0x30040, 65536, e)) ∧ 0x50000 % 65536 = 0 ∧ 0x50000 + 65536 ≤ hbmBytes ∧
      (s.part 0).moves 0x40 = false ∧ (s.part 0).cow.contains (0x40 / 65536) = false ∧ (∀ l ∈ s.lines, l.2.partials = []) ∧
      (s.part 0).snapEntry? 0 = none ∧ leaf2 0 s (s.ctx (s.part 0).ctx).s2root levels = some (0x4000, 65536, e)) ∧
    (∀ l ∈ [[], [pin0]], let s := st id (fun k => { k with pins := l }) fun s => (small s).modPart 0 fun k => { k with migrating := [(0, (0x50000, 65536))] }
      s.wr = [] ∧ (s.part 0).migrating.find? (fun e => decide (e.1 ≤ 0x40 ∧ 0x40 < e.1 + e.2.2)) = some (0, 0x50000, 65536) ∧
        s.pinned 0 (fun q => q.uses2 0) = !l.isEmpty) ∧
    (∀ l ∈ [[], [pin0]], let s := st id (fun k => { k with pins := l }) fun s => (small s).modPart 0 fun k =>
        { k with cow := [0], snapEn := true, snapPages := 1, snapTable := 0x5000 }
      s.wr = [] ∧ (s.part 0).cow.contains 0 = true ∧ (s.part 0).moves (65536 * 0) = false ∧ (s.part 0).snapEntry? (65536 * 0) = some 0x5000 ∧
        s.pinned 0 (fun q => q.uses2 (65536 * 0)) = !l.isEmpty ∧ snapFrame (s.snapEntry 0x5000) (!bitAt (s.snapEntry 0x5000) 24) + 65536 ≤ hbmBytes ∧
        (let u : State := { s with mem := [(0x5008, 0xFF)] }
         hbmBytes < snapFrame (u.snapEntry 0x5000) (!bitAt (u.snapEntry 0x5000) 24) + 65536)) := by
  refine ⟨⟨0x3001D#64, ?_⟩, ?_⟩ <;> and_intros <;> decide +kernel

/-- Bytes of a word at an address. -/
def le (a n v : Nat) : Memory := (leBytes n v).zipIdx.map fun e => (a + e.2, e.1)

/-- A launch record of four tiles with the image at 0x10000, its CHECK filled in; the image's header, of 322 bytes, with class 0 at
halfword 160. -/
def rcd2 : Nat := 1 + 2 ^ 16 + 4 * 2 ^ 64 + 2 ^ 192 + 2 ^ 272 + 65536 * 2 ^ 320 + 0xE4BBD499 * 2 ^ 960
def image2 : Memory := [(65536, 0xB5), (65537, 1), (65540, 1), (65544, 0x42), (65545, 0x01), (65600, 160), (65602, 16)]
def ringD : RingD := { ctx := 1, en := true, served := true, log2n := 1, ctrl := 0x8000, status := 0x9000, base := 0xA000 }

/-- Context 1 maps the first GiB in both stages; ring 0 has PROD at 0x8000; the record lies in its first slot. -/
def fe (prod : Nat) (r : RingD := ringD) (q : State → State := id) : State :=
  q { st id id fun s => (mapped s).modCtx 1 fun x => { x with root1 := 0x1001, rings := Tbl.set [] 0 r } with
      plat := { State.reset.plat with stage := .running }
      mem := le 0x1000 2 0x2003 ++ le 0x2000 1 0x1D ++ le 0x8000 1 prod ++ (le 0xA000 128 rcd2).filter (fun e => e.2 != 0) ++ image2 }

def feGot (r : State × FeGot) (f : List Byte → Bool) : Bool := match r.2 with | .got bs => f bs | _ => false

theorem witness_LaunchEvents_visit :
    (∀ prod ∈ [1, 2, 3], let s := fe prod
      s.wr = [] ∧ s.residentIn? 1 = some 0 ∧ s.managed = true ∧ (s.ctx 1).ring 0 = ringD ∧ ringD.en = true ∧ ringD.served = true ∧ ringD.log2n ≠ 0 ∧
        ringD.ctx = 1 ∧ ringD.devq = [] ∧ feGot (s.feRead 0 (BitVec.ofNat 64 ringD.ctrl) 68) (fun bs =>
          decide ((leVal (bs.take 4) + 2 ^ 32 - leVal (bs.drop 64)) % 2 ^ 32 = prod)) = true) ∧
    (st).managed = false ∧ (fe 1 { ringD with en := false }).managed = true ∧ ((fe 1 { ringD with served := false }).ctx 1).ring 0 = { ringD with served := false } ∧
    (match (fe 1).accept 0 1 (BitVec.ofNat 64 (ringD.base + 128 * (1 % 2 ^ ringD.log2n))) 0 (1 % 2 ^ ringD.log2n) none with
      | (u, some (code, lid)) =>
        decide (code = 1 ∧ lid = 0) &&
        (match u.feWrite 0 (BitVec.ofNat 64 (ringD.status + 16 * (1 % 2 ^ ringD.log2n))) (statusBytes u.time 0 (decide (code ≠ 0)) true code lid) with
          | (v, .got []) => (match v.feWrite 0 (BitVec.ofNat 64 (ringD.ctrl + 64)) (leBytes 4 ((1 + 1) % 2 ^ 32)) with | (_, .got []) => true | _ => false)
          | _ => false)
      | _ => false) = true := by
  and_intros <;> decide +kernel

/-- Fifteen bytes of the record. -/
def rcdPart (i : Nat) : List Byte := ((leBytes 128 rcd2).drop (15 * i)).take 15

theorem crc_rcd2 : crc32c ((leBytes 128 rcd2).take 120) = 0xE4BBD499#32 := by
  have h0 : (rcdPart 0).foldl crc32cByte 0xFFFFFFFF#32 = 0x5E4D2B5A#32 := by decide +kernel
  have h1 : (rcdPart 1).foldl crc32cByte 0x5E4D2B5A#32 = 0x3AD62E07#32 := by decide +kernel
  have h2 : (rcdPart 2).foldl crc32cByte 0x3AD62E07#32 = 0x81DCD879#32 := by decide +kernel
  have h3 : (rcdPart 3).foldl crc32cByte 0x81DCD879#32 = 0xEE5282B3#32 := by decide +kernel
  have h4 : (rcdPart 4).foldl crc32cByte 0xEE5282B3#32 = 0xC5992D9A#32 := by decide +kernel
  have h5 : (rcdPart 5).foldl crc32cByte 0xC5992D9A#32 = 0x4CC15898#32 := by decide +kernel
  have h6 : (rcdPart 6).foldl crc32cByte 0x4CC15898#32 = 0xC3775220#32 := by decide +kernel
  have h7 : (rcdPart 7).foldl crc32cByte 0xC3775220#32 = 0x1B442B66#32 := by decide +kernel
  rw [show (leBytes 128 rcd2).take 120 =
    rcdPart 0 ++ rcdPart 1 ++ rcdPart 2 ++ rcdPart 3 ++ rcdPart 4 ++ rcdPart 5 ++ rcdPart 6 ++ rcdPart 7 from by decide +kernel]
  simp only [crc32c, List.foldl_append, h0, h1, h2, h3, h4, h5, h6, h7]
  decide

/-- The record passes every check of acceptance. -/
theorem case_rcd2 : recordCase ((fe 1).part 0) (BitVec.ofNat 1024 (leVal (leBytes 128 rcd2))) (leBytes 128 rcd2) = none := by
  unfold recordCase
  rw [crc_rcd2]
  decide +kernel

theorem witness_LaunchEvents_accept :
    feGot ((fe 1).feReadAll 0 3 0xA000#64 128 []) (fun bs => bs == leBytes 128 rcd2) = true ∧
    recordCase ((fe 1).part 0) (BitVec.ofNat 1024 (leVal (leBytes 128 rcd2))) (leBytes 128 rcd2) = none ∧
    Rec.signal (BitVec.ofNat 1024 rcd2) = 0 ∧
    feGot ((fe 1).feReadAll 0 3 0xA080#64 128 []) (fun bs => recordCase ((fe 1).part 0) (BitVec.ofNat 1024 (leVal bs)) bs == some 1) = true ∧
    feGot ((fe 1).readHead 0 (BitVec.ofNat 64 (Rec.image (BitVec.ofNat 1024 rcd2)))) (fun hd =>
      !headerBad (BitVec.ofNat 1024 rcd2) (hd.zipIdx.map fun e => (e.2, e.1)) &&
        !classAbsent (hd.zipIdx.map fun e => (e.2, e.1)) (Rec.cls (BitVec.ofNat 1024 rcd2))) = true ∧
    ((fe 1).ctx 1).lastLid + 1 < 2 ^ 32 := by
  refine ⟨?_, case_rcd2, ?_⟩ <;> [skip; and_intros] <;> decide +kernel

theorem witness_LaunchEvents_device :
    (let e : Entry := { act := .launch 0xA000 0 true true 1 }
     ∀ q ∈ [[], [(0, 0x80)]], ∀ n ∈ [15, 16],
      let s := fly [⟨e, .waiting⟩] id fun s => s.modCtx 1 fun x => { x with
        q1 := q, q2 := q, rings := Tbl.set [] 0 { ringD with devq := List.replicate n ⟨0, 0, 0, true, true, 0⟩ } }
      s.wr = [] ∧ s.flying? 0 0 = some e ∧ (s.core 0).mayRelease e = true ∧ s.corePart? 0 = some 0 ∧ (s.part 0).ctx = 1 ∧
        (s.ctx 1).route 0 = (if q = [] then none else some 0) ∧ ((s.ctx 1).ring 0).devq.length = n) ∧
    (∀ a ∈ [Act.launch 0xA000 0 true true 1, .trig], let e : Entry := { id := 2, act := a, order := .rel }
      (behind a).flying? 0 1 = some e ∧ ((behind a).core 0).mayRelease e = false) ∧
    (let e : Entry := { act := .trig, launch := some lid1 }
     let s := fly [⟨e, .waiting⟩]
     s.flying? 0 0 = some e ∧ (s.core 0).mayRelease e = true) := by
  and_intros <;> decide +kernel

/-- The launch of `rcd2`, at a stage. -/
def launch2 (g : LStage) (l : List Nat := []) (w : List Nat := []) : Launch := { launch1 with rcd := BitVec.ofNat 1024 rcd2, stage := g, loaded := l, waits := w }
def withLaunch (k : Launch) : State := fe 1 ringD fun s => (s.modCtx 1 fun x => { x with launches := [(1, k)] }).setCore 0 {}

theorem witness_LaunchEvents_release :
    (let s := withLaunch (launch2 .held)
     s.wr = [] ∧ s.residentIn? 1 = some 0 ∧ s.launch? lid1 = some (launch2 .held) ∧ s.managed = true ∧ (s.part 0).switch = .none ∧
      s.releasable 0 1 1 (launch2 .held) = true ∧ s.releaseTurn 0 1 1 (launch2 .held) = true ∧
      (match s.feRead 0 (BitVec.ofNat 64 (Rec.image (launch2 .held).rcd) + 8) 4 with
        | (s1, .got n) => decide (leVal n = 322) && feGot (s1.feReadAll 0 514 (BitVec.ofNat 64 (Rec.image (launch2 .held).rcd)) (Nat.min 65536 (leVal n)) [])
            (fun bs => bs.length == 322)
        | _ => false) = true) ∧
    (withLaunch (launch2 .running)).releasable 0 1 1 (launch2 .running) = false ∧
    (let k := launch2 .releasing
     let s := withLaunch k
     s.launch? lid1 = some k ∧ k.killed = false ∧ (occupied (s.part 0) k.rcd).contains 0 = true ∧ k.loaded.contains 0 = false ∧
      (s.core 0).freeFor lid1 = true ∧ (s.core 0).enginesFree lid1 = true) ∧
    (let k := launch2 .releasing [0]
     let s := withLaunch k
     s.launch? lid1 = some k ∧ Rec.pair k.rcd = false ∧ (gangClusters (s.part 0) k.rcd).contains 0 = true ∧ k.started.contains 0 = false ∧
      (maskCores k.rcd 0).all k.loaded.contains = true ∧ (gangClusters (s.part 0) k.rcd).all (0 :: k.started).contains = true) ∧
    (let k : Launch := { launch2 .releasing [0] with rcd := BitVec.ofNat 1024 (rcd2 + 2 ^ 264) }
     let s := withLaunch k
     s.launch? lid1 = some k ∧ (gangClusters (s.part 0) k.rcd).contains 0 = true ∧ (maskCores k.rcd 0).all k.loaded.contains = true ∧
      (gangClusters (s.part 0) k.rcd).all (0 :: k.started).contains = false) ∧
    (let k := launch2 .releasing
     let s := (withLaunch k).modCore 0 fun c => { c with runq := [⟨{ msg0 with launch := some { ctx := 1, lid := 9 } }, 0, none⟩] }
     s.launch? lid1 = some k ∧ (maskCores k.rcd 0).all k.loaded.contains = false ∧ (s.core 0).freeFor lid1 = false) ∧
    ((withLaunch (launch2 .held)).part 0).switchq = [] := by
  and_intros <;> decide +kernel

theorem witness_LaunchEvents_done :
    (let k := { launch2 .held with killed := true, final := 3 }
     let s := withLaunch k
     s.launch? lid1 = some k ∧ s.managed = true ∧ s.ending? 0 lid1 k = some (3, false) ∧
      ((s.setLaunch lid1 { k with stage := .done, final := 3, image := [], raised := some false }).finalStatus 0 lid1 k 3).isSome = true) ∧
    (let k := launch2 .held
     let s := withLaunch k
     s.launch? lid1 = some k ∧ s.ending? 0 lid1 k = none) := by
  and_intros <;> decide +kernel

/-! ## Witnesses: rounds, reductions, management -/

/-- No task runs; cluster 0 has the given verdicts to deliver. -/
def rounds (w : List (Nat × Bool)) : State :=
  st (fun t => { t with running := false }) id fun s => { s with clusters := [(0, { det := { round := 5, waiting := w } })] }

theorem witness_MortarRounds :
    (∀ w ∈ [[], [(4, true)], [(4, false)]], ∀ n ∈ [7, 8], let s := { rounds w with time := n }
      s.wr = [] ∧ s.ringsOf (.group 0) = [] ∧ (s.cluster 0).courses = [] ∧ (s.detector (.group 0)).late = [] ∧
        (∀ e ∈ s.parts, (s.slot e.2.supCore 7).wait = .none) ∧ (s.detector (.group 0)).waiting = w ∧ s.runningSlots = [] ∧
        (∀ x ∈ (s.detector (.group 0)).eaters, x.1 ≠ 4) ∧ (s.time < (s.detector (.group 0)).began + 8 ↔ n = 7) ∧
        s.roundDue (.group 0) = decide (n = 8)) ∧
    (∀ t, Wait.none ≠ .synld t) ∧
    (let r : Ring := { n := 2, k := 2 }
     2 ≤ r.n ∧ r.n ≤ r.k ∧ (∀ m < r.n, r.val m < r.k) ∧ r.held = [] ∧ r.rel = [] ∧ r.evidence = false ∧ r.privileged 0 = true) ∧
    (let p : Partition := { en := true, pw := 1, ph := 0 }
     let t : Trellis := { dist := [(1, 1)], parent := [(1, 0)] }
     0 ∈ p.clusters ∧ 1 ∈ p.clusters ∧ Tbl.find 31 t.parent 1 < 4) ∧
    (let c : Course := { mem := 2 }; c.mem.getLsbD 1 = true) := by
  and_intros <;> first | decide +kernel | exact fun _ h => by cases h

/-- The launch of `lw` with its generations and multicasts. -/
def coll (g : Tbl (List Contribution)) (m : List (Nat × Quad × Nat)) (e : Entry) : State :=
  ((lw).modCtx 1 fun x => { x with launches := [(1, { launch1 with gens := g, trmc := m })] }).modCore 0 fun k => { k with flight := [⟨e, .waiting⟩] }

theorem witness_ReductionsAndMulticasts :
    (let l : Launch := { launch1 with gens := [(0, [⟨0, 5, 0, 1, 0⟩])], trmc := [(1, ⟨0, 0, 0, 0⟩, 0)] }
     let s := coll l.gens l.trmc {}
     s.wr = [] ∧ s.launch? lid1 = some l ∧ s.residentIn? 1 = some 0 ∧ gangCores (s.part 0) l.rcd = [0] ∧
      (∀ c ∈ [(⟨0, 5, 0, 1, 0⟩ : Contribution)], c.op = 0) ∧ (0 : Nat) ≠ 8 ∧
      l.gens.find? (fun g => (gangCores (s.part 0) l.rcd).all fun c => g.2.any fun x => x.core == c) = some (0, [⟨0, 5, 0, 1, 0⟩])) ∧
    (coll [] [] {}).launch? lid1 = some launch1 ∧ launch1.trmc = [] ∧
    ({} : Trellis).children { pw := 1, ph := 1 } 0 0 = [] ∧
    (let e : Entry := { act := .trrd 5 1 0 0, launch := some lid1 }
     ∀ g ∈ [[], [(5, [])], [(0, []), (1, []), (2, []), (3, [])]], let s := coll g [] e
      s.wr = [] ∧ s.flying? 0 0 = some e ∧ (s.core 0).mayMortar e = true ∧ (s.launch? lid1).map (·.gens) = some g) ∧
    (let e : Entry := { act := .trmc 1 ⟨0, 0, 0, 0⟩, launch := some lid1 }
     ∀ m ∈ [[], [(1, ⟨0, 0, 0, 0⟩, 0)]], let s := coll [] m e
      s.flying? 0 0 = some e ∧ (s.core 0).mayMortar e = true ∧ (s.launch? lid1).map (·.trmc) = some m) ∧
    (∀ a ∈ [Act.trrd 5 1 0 0, .trmc 1 ⟨0, 0, 0, 0⟩], let e : Entry := { id := 2, act := a, order := .rel }
      (fly [⟨{ id := 1, act := .fence, order := .rel }, .waiting⟩, ⟨e, .waiting⟩]).flying? 0 1 = some e ∧
        ((fly [⟨{ id := 1, act := .fence, order := .rel }, .waiting⟩, ⟨e, .waiting⟩]).core 0).mayMortar e = false) ∧
    (match (lw).mfield 0 0x0400000000000000#64, (lw).mfield 0 1 with | .ok _, .error _ => true | _, _ => false) = true ∧
    (1 : Reg) ≠ 0 ∧ ((lw).slot 0 1).running = true ∧ ((lw).slot 0 2).running = false := by
  and_intros <;> decide +kernel

/-- The management cores run. -/
def man (q : State → State := id) : State := st id id fun s => q { s with plat := { s.plat with stage := .running } }

theorem witness_Management_descriptor :
    (man).wr = [] ∧ ((man).part 1).resident = false ∧ ((man).part 0).resident = true ∧ (st).plat.stage ≠ .running ∧ (man).plat.stage = .running ∧
    (let v : W64 := 0x000000000000010F#64; 15 < field v 3 0 + field v 11 8) ∧ (st).managed = false ∧ (man).managed = true ∧
    (let v : W64 := 0x0000000100000103#64
     bitAt v 49 = false ∧ ∃ e ∈ (man).parts, e.1 ≠ 1 ∧ e.2.en = true ∧ field v 3 0 ≤ e.2.px + e.2.pw ∧ e.2.px ≤ field v 3 0 + field v 11 8 ∧
      field v 7 4 ≤ e.2.py + e.2.ph ∧ e.2.py ≤ field v 7 4 + field v 15 12) ∧
    (let s := man fun s => { s with plat := { s.plat with stage := .stage3 } }; s.managed = true ∧ s.plat.stage ≠ .running) ∧
    (let v : W64 := 0x000000000000000E#64; bitAt v 49 = false ∧ field v 3 0 + field v 11 8 ≤ 15 ∧ field v 7 4 + field v 15 12 ≤ 15 ∧
      field v 48 46 < 5 ∧ field v 45 43 ≤ field v 48 46 ∧ ∀ e ∈ (man).parts, e.2.px + e.2.pw < field v 3 0) ∧
    (let v : W64 := 0x0002000100000103#64
     bitAt v 49 = true ∧ ∃ e ∈ (man).parts, e.1 ≠ 1 ∧ e.2.en = true ∧ field v 3 0 ≤ e.2.px + e.2.pw ∧ e.2.px ≤ field v 3 0 + field v 11 8 ∧
      field v 7 4 ≤ e.2.py + e.2.ph ∧ e.2.py ≤ field v 7 4 + field v 15 12) ∧
    (let v : W64 := 0x000200010000010E#64
     bitAt v 49 = true ∧ field v 3 0 + field v 11 8 ≤ 15 ∧ field v 7 4 + field v 15 12 ≤ 15 ∧ field v 48 46 < 5 ∧ field v 45 43 ≤ field v 48 46 ∧
      (∀ e ∈ (man).parts, e.2.px + e.2.pw < field v 3 0) ∧ ((man).ctx (field v 39 32)).alive = true) := by
  and_intros <;> decide +kernel

theorem witness_Management_sound (c : Nat) : ((man).cluster c).failed = false := rfl

/-- A device with domain 3's keys, and a frame of the domain that is not acknowledged. -/
def keyed (k : DomKeys) (q : State → State := id) : State := man fun s => q { s with fabric := { s.fabric with keys := [(3, k)] } }
def frame1 : Frame :=
  { ddev := 5, sdev := 0, tc := 0, ent := 0, opcode := 1, ackv := false, resend := false, seq := 0, ack := 0, domain := 3, length := 0, stream := 0,
    epoch := 0, payload := .empty, key := 0, tagGood := true, fcsGood := true, reservedZero := true, wire := 64, supported := true, count := 1 }
def flow1 : FlowId := ⟨0, 5, 0⟩

theorem witness_Management_writes :
    (man).managed = true ∧ (st).managed = false ∧ (63 : Nat) < 64 ∧ (255 : Nat) < 256 ∧ 0x48 + 8 ≤ hbmBytes ∧ ((man).line (0x48 / 128)).partials = [] ∧
    ((man).ctx 2).alive = false ∧ (man).residentIn? 1 = some 0 ∧ (man).residentIn? 2 = none ∧ ((man).part 0).px + ((man).part 0).pw ≤ 15 ∧
    ((man).part 0).py + ((man).part 0).ph ≤ 15 ∧ (man).hasKey 3 = false ∧ (keyed {}).hasKey 3 = true ∧
    Tbl.get? (keyed {}).fabric.keys 3 = some {} ∧ ({} : DomKeys).next = none ∧
    (∀ sw ∈ [true, false], ∀ l ∈ [[], [frame1]],
      let k : DomKeys := { next := some 1, switched := sw }
      let s := keyed k fun s => { s with fabric := { s.fabric with out := [(flow1, { unacked := l })] } }
      s.wr = [] ∧ Tbl.get? s.fabric.keys 3 = some k ∧ k.next = some 1 ∧ k.switched = sw ∧
        (l = [] → ∀ o ∈ s.fabric.out, ∀ f ∈ o.2.unacked, f.domain = 3 → f.key ≠ k.current) ∧
        (l ≠ [] → ∃ o ∈ s.fabric.out, ∃ f ∈ o.2.unacked, f.domain = 3 ∧ f.key = k.current)) := by
  and_intros <;> decide +kernel

/-- Partition 0 has a snapshot table of one page, whose entry stands at frame 0; its context is halted, with a debugger or not. -/
def snapped (h : Halt := .running) (d : Bool := false) : State :=
  (man).modPart 0 fun k => { k with snapEn := true, snapPages := 1, snapTable := 0x10000, halt := h, debugger := d }

theorem witness_Management_reads :
    ((snapped).part 0).snapEntry? 0 = some 0x10000 ∧ (snapped).wr = [] ∧ (snapped).managed = true ∧
    (∀ h ∈ [Halt.running, .halted], ∀ d ∈ [true, false],
      ((snapped h d).part 0).debugger = d ∧ ((snapped h d).part 0).halt = h ∧ (snapped h d).residentIn? 1 = some 0) ∧
    (snapped).residentIn? 2 = none ∧ (snapped).corePart? 0 = some 0 ∧ (7 : Nat) < 8 ∧ (1 : Reg) ≠ 0 ∧ 0 < (snapped).spadSize 0 ∧
    (65535 : Nat) < 65536 ∧ (4095 : Nat) < 4096 ∧ (63 : Nat) < 64 ∧
    ((man).part 0).peerEdits = [] := by
  and_intros <;> decide +kernel

/-- The slot table with one entry, and a partition that may borrow or not. -/
def slotted (e : Byte) (borrow : W64) (n : Nat) : State :=
  { (man).modPart 0 fun k => { k with qos := borrow } with
    time := n, fabric := { (man).fabric with slotTable := [(0, e)], frames := 1 } }

theorem witness_Management_plane :
    (∀ n ∈ [511, 512], let s := slotted 0x80 0 n
      s.wr = [] ∧ (s.time / 256 ≤ s.fabric.frames ↔ n = 511) ∧ (s.fabric.frames < s.time / 256 ↔ n = 512) ∧ s.fabric.slotPending = []) ∧
    (let s := slotted 0x80 0 256; bitAt (Tbl.find 0 s.fabric.slotTable (s.time % 256)) 7 = true ∧
      field (Tbl.find 0 s.fabric.slotTable (s.time % 256)) 5 0 = 0 ∧ field (Tbl.find 0 s.fabric.slotTable (s.time % 256)) 5 0 ≠ 1 ∧
      bitAt (s.part 1).qos 24 = false) ∧
    (let s := slotted 0 0x1000000 256; bitAt (Tbl.find 0 s.fabric.slotTable (s.time % 256)) 7 = false ∧ bitAt (s.part 0).qos 24 = true) := by
  and_intros <;> decide +kernel

/-! ## Witnesses: frames, links, streams -/

/-- Links 0 and 24 are up, and domain 3 has keys. -/
def linked (q : Fabric → Fabric := id) : State :=
  keyed {} fun s => { s with fabric := q { s.fabric with links := [(0, { up := true }), (24, { up := true })] } }

theorem witness_FramesAndLinks_receive :
    (linked).wr = [] ∧ ((linked).fabric.link 1).up = false ∧ ((linked).fabric.link 0).up = true ∧ (linked).managed = true ∧ (under []).managed = false ∧
    { frame1 with fcsGood := false }.fcsGood = false ∧ frame1.fcsGood = true ∧ linkFrame frame1 = false ∧
    frame1.count = ((linked).fabric.link 0).received + 1 ∧ ((linked).fabric.link 0).received + 1 < { frame1 with count := 2 }.count ∧
    { frame1 with count := 0 }.count ≤ ((linked).fabric.link 0).received ∧
    (let f : Frame := { frame1 with opcode := 0x0F, ddev := 0x3FFFF, payload := .link 0 true }
     linkFrame f = true ∧ (linked).frameOk 0 f = true ∧ f.payload = .link 0 true) ∧
    (let u := (linked).reportCount 0 false
     u.frameOk 0 { frame1 with wire := 63 } = false ∧ u.frameOk 0 frame1 = true ∧ u.frameOk 24 frame1 = true ∧ u.frameOk 24 { frame1 with udp := 1 } = false ∧
       u.frameOk 0 { frame1 with opcode := 3 } = true) ∧
    frame1.ddev ≠ 0x3FFFF ∧ frame1.ddev ≠ (linked).fabric.devId ∧ frame1.opcode ≠ 3 ∧ (linked).fabric.devId ≠ 0x3FFFF ∧
    Tbl.get? (linked).fabric.streams 0 = none ∧
    (let f : Frame := { frame1 with ddev := 0, sdev := 5 }
     f.ddev = (linked).fabric.devId ∧ (linked).tagOk { f with tagGood := false } = false ∧ (linked).tagOk f = true ∧ f.opcode ≠ 2 ∧ f.ackv = false ∧
      (linked).tagOk { f with opcode := 2, ackv := true } = true ∧ (linked).frameOk 0 { f with opcode := 2, ackv := true } = true ∧
      f.seq = ((linked).fabric.inOf ⟨5, 0, 0⟩).next ∧ (linked).takeable f = true ∧
      (∀ q ∈ [1, 4095], 1 ≤ seqDist 0 q ∧ seqDist 0 q < 4096 ∧ Tbl.get? ((linked).fabric.inOf ⟨5, 0, 0⟩).held q = none) ∧
      (let s := linked fun x => { x with inn := [(⟨5, 0, 0⟩, { held := [(1, (0, f))] })] }; Tbl.get? (s.fabric.inOf ⟨5, 0, 0⟩).held 1 ≠ none) ∧
      (∀ q ∈ [2 ^ 24 - 1, 2 ^ 23], 4096 ≤ seqDist 0 q ∧ seqBefore q 0 = true) ∧ 4096 ≤ seqDist 0 4096 ∧ seqBefore 4096 0 = false) ∧
    (let m : Frame := { frame1 with ddev := 0, sdev := 5, payload := .message 0 msg0 }
     let s := (linked).modPart 0 fun k => { k with halt := .halted, holdBytes := holdRoom }
     s.takeable m = false ∧ s.frameOk 0 m = true ∧ s.tagOk m = true ∧ (s.fabric.link 0).up = true) := by
  and_intros <;> decide +kernel

theorem witness_FramesAndLinks_links :
    (let s := linked fun f => { f with out := [(flow1, { unacked := [frame1, { frame1 with seq := 1 }], sentAt := [0, 0] })] }
     (s.fabric.outOf flow1).unacked.all (fun f => !seqBefore f.seq 1) = false ∧ (s.fabric.outOf flow1).queue = [] ∧ s.wr = [] ∧
      flow1.sdev = s.fabric.devId ∧ (s.fabric.outOf flow1).unacked ≠ [] ∧ (s.fabric.outOf flow1).broken = false ∧
      s.time < (s.fabric.outOf flow1).sentAt.headD 0 + s.fabric.e2et * 2700) ∧
    (∀ x ∈ [6, 7], let s := { linked (fun f => { f with out := [(flow1, { unacked := [frame1], sentAt := [0], expired := x })] }) with time := 135000 }
      (s.fabric.outOf flow1).sentAt.headD 0 + s.fabric.e2et * 2700 ≤ s.time ∧ (s.fabric.outOf flow1).expired = x) ∧
    (∀ b ∈ [true, false], let s := linked fun f => { f with out := [(flow1, { broken := b })] }
      s.managed = true ∧ flow1.sdev = s.fabric.devId ∧ flow1.ddev ≠ s.fabric.devId ∧ (s.fabric.outOf flow1).broken = b) ∧
    (let w : FlowId := ⟨5, 0, 0⟩; w.sdev ≠ (linked).fabric.devId ∧ w.ddev = (linked).fabric.devId) ∧
    (let s := linked fun f => { f with links := [(0, { up := true, replay := [frame1], sent := 2, freed := 1 })] }
     (s.fabric.link 0).freed ≤ 1 ∧ 2 ≤ (s.fabric.link 0).sent ∧ 0 < (s.fabric.link 0).freed ∧ (s.fabric.link 0).sent < 3) ∧
    ((linked).fabric.link 25).up = false ∧ (25 : Nat) < 26 ∧ (linked).plat.stage ≠ .recovery := by
  and_intros <;> decide +kernel

theorem witness_FramesAndLinks_sends :
    (∀ o, let s := linked fun f => { f with out := [(flow1, o)] }
      s.fabric.outOf flow1 = o ∧ flow1 = ⟨s.fabric.devId, 5, 0⟩ ∧ s.sealKey 3 = 0) ∧
    4096 ≤ (List.replicate 4096 frame1).length ∧ ({ keys := [(3, 0, 0)], epoch := 2 ^ 20 } : FlowOut).reuses 3 0 = true ∧
    (let o := (linked).fabric.outOf flow1
     o.queue = [] ∧ o.unacked.length < 4096 ∧ o.broken = false ∧ o.reuses 3 ((linked).sealKey 3) = false ∧ flow1.sdev = (linked).fabric.devId) ∧
    frame1.out = none ∧
    (∀ l ∈ [[], [0, 1]], let s := linked fun f => { f with routes := [(5, l)] }
      ((Tbl.get? s.fabric.routes frame1.ddev).getD []).filter (fun p => (s.fabric.link p).up && (decide (p < 24) || decide (frame1.length ≤ 9108))) =
        (if l = [] then [] else [0])) ∧
    (let s := (linked fun f => { f with egress := [(0, 0, frame1), (0, 64, { frame1 with tc := 1 })] })
     s.nextClass? 0 = some 64 ∧ s.weight 0 64 ≠ 0 ∧ s.nextFrame? 0 = some (64, { frame1 with tc := 1 })) ∧
    (let s := (linked fun f => { f with egress := [(0, 64, frame1)] }); s.nextFrame? 0 = some (64, frame1) ∧ frame1.tc = 0) := by
  refine ⟨fun o => ⟨rfl, rfl, rfl⟩, by rw [List.length_replicate], by decide +kernel, ?_⟩
  and_intros <;> decide +kernel

/-- A request of a stream ring: stream 7, one set from port 0 to port 1 with an operation; it releases when `act` is 1. -/
def sreq (act op : Nat) : BitVec 512 := BitVec.ofNat 512 (7 + act * 2 ^ 12 + (1 + 2 * 2 ^ 25 + op * 2 ^ 50) * 2 ^ 64)

/-- Partition 0 has a stream ring with one request in its first slot. -/
def sring (act : Nat) : State :=
  fe 0 ringD fun s => { s.modPart 0 (fun k => { k with streamRing := BitVec.ofNat 256 (0xA000 + 0x9000 * 2 ^ 64 + 0x8000 * 2 ^ 128 + 2 ^ 192 + 2 ^ 206) }) with
    mem := le 0x1000 2 0x2003 ++ le 0x2000 1 0x1D ++ le 0x8000 1 1 ++ (le 0xA000 64 (sreq act 0).toNat).filter (fun e => e.2 != 0) }

theorem witness_Streams_ring :
    (∀ act ∈ [0, 1],
      let s := sring act
      let w := (s.part 0).streamRing
      s.wr = [] ∧ s.managed = true ∧ (s.part 0).en = true ∧ (s.part 0).resident = true ∧ rdEn w = true ∧ rdLog2n w ≠ 0 ∧ s.streamAhead 0 = false ∧
        (match s.guestRead 0 (rdCtrl w) 68 with
          | (s1, some bs) =>
            let cons := leVal (bs.drop 64)
            let i := cons % 2 ^ rdLog2n w
            decide (leVal (bs.take 4) ≠ cons) &&
            (match s1.guestRead 0 (rdBase w + BitVec.ofNat 64 (128 * i)) 64 with
              | (s2, some rq) =>
                let r := s2.streamRequest 0 (BitVec.ofNat 512 (leVal rq))
                decide (sqAction (BitVec.ofNat 512 (leVal rq)) = act) && decide (r.1 = 0) &&
                (match r.2.guestWrite 0 (rdStatus w + BitVec.ofNat 64 (16 * i)) (statusBytes r.2.time 0 true true r.1 0) with
                  | (t1, true) => (t1.guestWrite 0 (rdCtrl w + 64) (leBytes 4 ((cons + 1) % 2 ^ 32))).2
                  | _ => false)
              | _ => false)
          | _ => false) = true) := by
  decide +kernel

def stream0 (sets : List StreamSet) (q : Tbl (List (StreamItem × Bool))) : Stream :=
  { part := 0, dom := 0, sets := sets, base := 0x100, notify := 0, cls := 0, queues := q }
def flowing (sets : List StreamSet) (q : Tbl (List (StreamItem × Bool))) : State := linked fun f => { f with streams := [(7, stream0 sets q)] }

/-- A request whose set has an operation and reaches no port of the fabric: it faces no switch, whichever ports do. -/
def inward : BitVec 512 := BitVec.ofNat 512 (7 + (2 ^ 24 + 2 ^ 49 + 2 ^ 50) * 2 ^ 64)

theorem witness_Streams_requests :
    sqReserved (BitVec.ofNat 512 (2 ^ 30)) = true ∧
    (∃ e, Tbl.get? (flowing [] []).fabric.streams 7 = some e ∧ e.part ≠ 1) ∧
    notifyOk ((linked).part 0) 0x10 = false ∧ notifyOk ((linked).part 0) 0 = true ∧
    (∀ act ∈ [0, 1], sqReserved (sreq act 1) = false ∧ sqAction (sreq act 1) = act ∧ Tbl.get? (linked).fabric.streams 7 = none ∧ sqNotify (sreq act 1) = 0) ∧
    (sqReserved inward = false ∧ sqAction inward = 0 ∧ sqNotify inward = 0 ∧ sqStream inward = 7 ∧ (∃ x ∈ sqSets inward, x.op ≠ 0) ∧
      (∀ x ∈ sqSets inward, ∀ port < 24, x.inp.getLsbD port = false ∧ x.out.getLsbD port = false)) ∧
    (linked).hasKey (((linked).ctx ((linked).part 0).ctx).domain) = false ∧ (∀ x ∈ sqSets (sreq 0 0), x.op = 0) ∧
    ((linked).modCtx 1 fun x => { x with domain := 3 }).hasKey 3 = true ∧
    (let s := linked fun f => { f with streams := [(7, { stream0 [] [] with entered := true })] }
     ∃ e, Tbl.get? s.fabric.streams 7 = some e ∧ e.entered = true ∧ e.part = 0) ∧
    (let s := linked fun f => { f with early := [7] }; Tbl.get? s.fabric.streams 7 = none ∧ 7 ∈ s.fabric.early) ∧
    (linked).slotsFit 7 (sqSets (sreq 0 0)) = true ∧
    (linked fun f => { f with streams := [(8, stream0 (List.replicate 32 { out := 2, op := 1 }) [])] }).slotsFit 7 (sqSets (sreq 0 1)) = false := by
  refine ⟨by decide +kernel, ⟨_, rfl, by decide⟩, by decide +kernel, by decide +kernel, by decide +kernel,
    ⟨by decide +kernel, by decide +kernel, by decide +kernel, by decide +kernel, ⟨⟨0x1000000, 0x1000000, 1⟩, by decide +kernel⟩, by decide +kernel⟩,
    by decide +kernel, by decide +kernel, by decide +kernel, ⟨_, rfl, by decide, by decide⟩, by decide +kernel, by decide +kernel, by decide +kernel⟩

/-- The set of `sreq 0 1` reaches port 0: it faces a switch where the configuration says that the port does. -/
theorem witness_Streams_facing (h : Config.facesSwitch 0 = true) :
    ∃ x ∈ sqSets (sreq 0 1), x.op ≠ 0 ∧ ∃ port < 24, (x.inp.getLsbD port = true ∨ x.out.getLsbD port = true) ∧ Config.facesSwitch port = true :=
  ⟨⟨1, 2, 1⟩, by decide +kernel, by decide, 0, by decide, Or.inl (by decide), h⟩

theorem witness_Streams_words :
    (∀ e ∈ [(({ out := 2 } : StreamSet), true), ({ inp := 1, out := 2 }, true), ({ inp := 1, out := 0x1000000 }, true), ({ inp := 1, out := 2, op := 1 }, true),
        ({ inp := 3, out := 2, op := 1 }, true)], ∀ gone ∈ [true, false],
      let q : Tbl (List (StreamItem × Bool)) := [(0, [(.word 0 9, gone)])]
      let s := flowing [e.1] q
      s.wr = [] ∧ Tbl.get? s.fabric.streams 7 = some (stream0 [e.1] q) ∧
        Tbl.find [] (stream0 [e.1] q).queues 0 = (.word 0 9, gone) :: []) ∧
    (let s := flowing [{ inp := 1, out := 0x1000000 }] [(0, [(.word 0 9, false)])]
     (match s.xlateMem none 0 ((0x100 + 8 * 0) % 2 ^ 48) .write with | (_, .bad _) => true | _ => false) = true) ∧
    (let s := fe 0
     (match s.xlateMem none 0 ((0x100 + 8 * 0) % 2 ^ 48) .write with | (_, .bad _) => false | _ => true) = true ∧
      (s.guestWrite 0 0x100 (leBytes 8 9)).2 = true ∧ (s.guestWrite 0 0x100 (leBytes 8 9)).1.fabric = s.fabric) ∧
    (let got : Tbl W64 := Tbl.set [] 0 9
     Tbl.get? got 1 = none ∧ Tbl.get? got 0 ≠ none ∧ (3 : BitVec 25).getLsbD 1 = true ∧ ∀ q < 25, (1 : BitVec 25).getLsbD q = true → Tbl.get? got q ≠ none) ∧
    (∀ o ∈ [false, true],
      let e := stream0 [{ inp := 1, out := if o then 0x1000000 else 2 }] [(0, [(.marker, false)])]
      (upto 25).filter (fun q => (1 : BitVec 25).getLsbD q) = [0] ∧ (Tbl.find [] e.queues 0).head?.map (·.1) = some .marker ∧
        (e.sets.getD e.cur {}).out.getLsbD 24 = o) := by
  and_intros <;> decide +kernel

/-- An entry of stream 7 with a set, and a frame of the stream for another device. -/
def passing (t : StreamSet) : State := flowing [t] []
def frame7 : Frame := { frame1 with opcode := 3, stream := 7, payload := .stream [.word 0 9] }

theorem witness_Streams_transit :
    Tbl.get? (linked).fabric.streams frame7.stream = none ∧
    (∀ t ∈ [({ inp := 1, out := 2, op := 1 } : StreamSet), { inp := 1, out := 2 }, { inp := 2, out := 1 }],
      Tbl.get? (passing t).fabric.streams frame7.stream = some (stream0 [t] []) ∧ (stream0 [t] []).sets.getD (stream0 [t] []).cur {} = t ∧
      (passing t).tagOk frame7 = true ∧ (passing t).tagOk { frame7 with tagGood := false } = false ∧
      (passing t).hasKey { frame7 with domain := 4 }.domain = false) := by
  and_intros <;> decide +kernel

/-! ## Witnesses: traps, replies, halts, switches, bring-up -/

theorem witness_TrapsAndReplies_traps :
    (let s := st fun t => { t with budg := 0 }
     s.wr = [] ∧ s.privileged 0 1 = false ∧ s.primaryOf? 0 = none ∧ s.mirrorOf? 0 = none ∧ s.corePart? 0 = some 0 ∧ (s.part 0).debugger = false ∧
      (s.part 0).ordinary < 252 ∧ (s.slot 0 1).running = true ∧ (s.slot 0 1).budg = 0 ∧ (s.slot 0 1).wait.issued = false ∧
      (s.slot 0 1).pairTrap = none ∧ (s.core 0).halted = false) ∧
    (let s := st (fun t => { t with buf := manyAmops 256, wait := .pool 577 }) fun k =>
       code .endOp { k with slots := k.slots ++ [(2, { running := true, buf := manyAmops 256, wait := .pool 577 }),
         (3, { running := true, buf := manyAmops 256, wait := .pool 577 })] }
     (s.core 0).poolVictim = some 1 ∧ (s.slot 0 1).stream = [] ∧ s.fetch 0 1 = (s, .ok .endOp) ∧ s.privileged 0 1 = false ∧ s.primaryOf? 0 = none ∧
      s.mirrorOf? 0 = none ∧ s.corePart? 0 = some 0 ∧ (s.part 0).ordinary < 252 ∧ (s.slot 0 1).running = true) ∧
    ((st).slot 0 1).budg ≠ 0 ∧ ((under []).slot 0 1).running = false ∧ ((st fun t => { t with wait := .fill 0, buf := manyAmops 256 }).core 0).poolVictim = none := by
  and_intros <;> decide +kernel

theorem witness_TrapsAndReplies_records :
    (∀ n ∈ [251, 252], let s := (st).modPart 0 fun p => { p with trapq := List.replicate n report1, heldRecs := [report1] }
      s.wr = [] ∧ (s.part 0).fatalHeld = none ∧ (s.part 0).heldRecs = report1 :: [] ∧ (s.part 0).ordinary = n) ∧
    (let s := (st).modPart 0 fun p => { p with supImem := [(9, 0x10)] }
     s.residentIn? 1 = some 0 ∧ imgLength (s.part 0).supImem / 2 = 2048 ∧ (s.part 0).ordinary < 252 ∧ s.residentIn? 2 = none ∧ (s.ctx 2).alive = false ∧
      (s.modCtx 2 fun x => { x with alive := true }).residentIn? 2 = none) ∧
    (∀ code ∈ [0, 1, 2, 3],
      let r : Reply := ⟨0, 1, code, 1, some 4⟩
      let s := (st).modPart 0 fun p => { p with replies := [r] }
      s.corePart? 0 = some 0 ∧ (s.part 0).halt = .running ∧ (s.part 0).replies = r :: [] ∧ s.replyReady 0 r.giver = true ∧
        (s.modCore 8 fun k => { k with flight := [⟨{ task := 4, act := .store oneByte }, .waiting⟩] }).replyReady 0 r.giver = false) ∧
    (∀ h ∈ [Halt.pending, .halted], ∀ l ∈ [[], [slotRec 1]],
      let s := (st).modPart 0 fun p => { p with halt := h, debugRecs := l }
      (s.part 0).halt ≠ .running ∧ (s.part 0).debugRecs = l ∧ (slotRec 1).core = 0 ∧ (slotRec 1).slot = 1) ∧
    (∀ r ∈ ((st).part 0).replies, r.core = 0 → r.slot = 1 → r.code ∉ [1]) ∧ (∀ r ∈ ((st).part 0).debugRecs, r.core = 0 → r.slot ≠ 1) := by
  and_intros <;> decide +kernel

theorem witness_TrapsAndReplies_reply :
    (∀ l ∈ [none, some lid1],
      let m : Msg := { msg0 with held := true, launch := l }
      let s := st (fun t => { t with running := false, parked := true, msg := some m }) fun k => { k with runq := [⟨m, 0, none⟩] }
      (s.slot 0 1).parked = true ∧ s.mirrorOf? 0 = none ∧ (s.slot 0 1).repl = true ∧ (s.core 0).heldMsg? (s.slot 0 1) = some ⟨m, 0, none⟩ ∧
        (s.slot 0 1).launch = l ∧ (s.slot 0 1).task ≠ 2) ∧
    (∀ h ∈ [5, 6],
      let s := paired (fun t => { t with hash := some 5, wait := .plumb false, hashTime := 0 }) fun t => { t with hash := some (BitVec.ofNat 64 h), wait := .plumb true }
      s.wr = [] ∧ s.pairCores? 0 = some (0, 128) ∧ s.pairCores? 128 = some (0, 128) ∧ (s.slot 0 1).pairEnd? = some (.hash 5 0) ∧
        (s.slot 128 1).pairEnd? = some (.hash (BitVec.ofNat 64 h) 0)) ∧
    (∀ n ∈ [4095, 4096],
      let s := { paired (fun t => { t with hash := some 5, wait := .plumb false, hashTime := 0 }) id with time := n }
      (s.slot 0 1).pairEnd? = some (.hash 5 0) ∧ (s.slot 128 1).pairEnd? = none ∧ s.time - (s.slot 0 1).hashTime = n) ∧
    (∀ b ∈ [true, false],
      let m : Msg := { msg0 with retried := b }
      let s := st fun t => { t with msg := some m }
      (s.slot 0 1).msg = some m ∧ (s.slot 0 1).repl = true ∧ s.corePart? 0 = some 0 ∧ m.retried = b ∧
        ((st fun t => { t with msg := some m, repl := false }).slot 0 1).repl = false) := by
  and_intros <;> decide +kernel

theorem witness_HaltsAndSwitches_halts :
    (∀ h ∈ [Halt.running, .pending, .halted], ∀ storm ∈ [true, false],
      let s := (st).modPart 0 fun p => { p with halt := h, storm := storm, debugger := true }
      s.wr = [] ∧ s.residentIn? 1 = some 0 ∧ (s.part 0).halt = h ∧ (s.part 0).storm = storm ∧ (s.part 0).debugger = true ∧
        (s.part 0).holding = [] ∧ (s.part 0).switchq = [] ∧ (s.part 0).fatalHeld = none ∧ s.corePart? 0 = some 0 ∧ (s.slot 0 1).running = true ∧
        (∀ r ∈ (s.part 0).trapq, r.fatal = false)) ∧
    ((st).part 0).debugger = false ∧
    (let s := (st).modPart 0 fun p => { p with trapq := [{ report1 with w0 := 0xA000000000000000#64 }] }
     ∃ r ∈ (s.part 0).trapq, r.fatal = true) := by
  and_intros <;> decide +kernel

/-- Partition 0 with its switch in a state, its context 1 resident or not; context 2 is alive. -/
def switching (w : Switch) (res : Bool) (k : Core → Core := id) : State :=
  ((under [] k).modPart 0 fun p => { p with switch := w, resident := res }).modCtx 2 fun x => { x with alive := true, key := some 4 }

theorem witness_HaltsAndSwitches_switch :
    (∀ w ∈ [Switch.none, .stopping 2], ∀ h ∈ [Halt.running, .halted],
      let s := (switching w true).modPart 0 fun p => { p with halt := h }
      s.wr = [] ∧ (s.part 0).en = true ∧ (s.ctx 2).alive = true ∧ (s.ctx 1).alive = true ∧ (s.part 0).switchq = [] ∧ (s.part 0).switch = w ∧ (s.part 0).halt = h ∧
        (s.part 0).resident = true ∧ (s.part 0).ctx = 1) ∧
    (switching (.stopping 2) true).drained 0 = true ∧ (switching (.stopping 2) true).lines = [] ∧
    (switching (.stopping 2) true fun k => { k with svcq := [{}] }).drained 0 = false ∧
    ((switching (.stopping 2) false).part 0).resident = false ∧
    (let s := switching (.testing 2) false
     (s.part 0).switch = .testing 2 ∧ (s.part 0).px + (s.part 0).pw ≤ 15 ∧ (s.part 0).switchq = [] ∧ 0 ∈ (s.part 0).clusters ∧
      ∀ k ∈ (s.part 0).clusters, k ∉ ([] : List Nat)) := by
  and_intros <;> decide +kernel

theorem witness_HaltsAndSwitches_sound (c : Nat) : ((switching (.testing 2) false).cluster c).failed = false := rfl

/-- A save of context 2. -/
def save2 (pw : Nat) (key : Option Nat) (seq : Nat := 1) (addr : Nat := 0) : Saved :=
  { pw := pw, ph := 3, cores := [(0, {})], clusters := [], part := {}, seq := seq, key := key, addr := addr }

theorem witness_HaltsAndSwitches_restore :
    (∀ v ∈ [none, some (save2 3 (some 4)), some (save2 2 (some 4)), some (save2 3 (some 5)), some (save2 3 (some 4) 2), some (save2 3 (some 4) 1 (2 ^ 30))],
      let s := { (switching (.restoring 2) false).modCtx 2 (fun x => { x with saveSeq := 1 }) with saves := match v with | some v => [(2, v)] | none => [] }
      s.wr = [] ∧ (s.part 0).switch = .restoring 2 ∧ (s.part 0).switchq = [] ∧ (s.ctx 2).calls = [] ∧ (s.ctx 2).alive = true ∧ s.residentIn? 2 = none ∧
        Tbl.get? s.saves 2 = v ∧ s.admits 0 2 = true ∧ (s.part 0).pw = 3 ∧ (s.part 0).ph = 3 ∧ (s.ctx 2).key = some 4 ∧ (s.ctx 2).saveSeq = 1 ∧ (s.ctx 2).saveArea = 0) ∧
    (save2 3 none).part.px = ((switching (.restoring 2) false).part 0).px ∧ (save2 3 none).part.py = ((switching (.restoring 2) false).part 0).py ∧
    (save2 3 none).cores = [(0, {})] ∧ ((switching (.restoring 3) false).ctx 3).alive = false := by
  and_intros <;> decide +kernel

/-- Four images, which stand together at the end of the flash: by their entries of one byte each, or of more than the flash has. -/
def entries (n : W32) : List ManifestEntry := [1, 2, 3, 4].map fun i => ⟨Config.shake256 [1], 0, n, 3140, 0, 1, i⟩

/-- A flash: the entries, the entry that ends them, a signature of zeros, the byte of the images. -/
def tail1 : List Byte := List.replicate 2884 0 ++ [1]
def flash1 (n : W32) : ImageSet := ⟨(entries n).flatMap ManifestEntry.toBytes ++ tail1⟩

theorem flash1_manifest (n : W32) : setManifest (flash1 n) = entries n := by
  have h : (entryOf (tail1.take 64)).id = 0 := by decide +kernel
  have g : ∀ e ∈ entries n, e.id ≠ 0 := by simp [entries]
  rw [setManifest, flash1, readEntries_toBytes (entries n) tail1 16 g h (by simp [entries])]

theorem flash1_entries (n : W32) : ((entries n).flatMap ManifestEntry.toBytes).length = 256 := by simp [entries]

theorem flash1_length (n : W32) : (flash1 n).bytes.length = 3141 := by
  rw [flash1, List.length_append, flash1_entries, tail1, List.length_append, List.length_replicate]; rfl

theorem flash1_end (n : W32) : endGood (flash1 n) = true := by
  have d : ((flash1 n).bytes.drop (64 * (entries n).length)).take 64 = tail1.take 64 := by
    rw [flash1, show 64 * (entries n).length = ((entries n).flatMap ManifestEntry.toBytes).length by rw [flash1_entries]; rfl, List.drop_left]
  have r : (entryOf (tail1.take 64)).reservedHi = 0 ∧ (entryOf (tail1.take 64)).reservedLo = 0 := by decide +kernel
  simp [endGood, flash1_manifest, d, r]

/-- The hypotheses of the clauses about good sets and good manifests: those sets are, wherever their signature passes. -/
theorem witness_BringUp_good
    (h : ∀ n, Config.xmssVerify Config.romKeyDigest (setManifestBytes (flash1 n)) (setSignature (flash1 n)) = true) :
    setGood [] (flash1 1) = true ∧ manifestGood [] (flash1 2) = true ∧ imagesGood (flash1 2) = false := by
  have last : ((flash1 1#32).bytes.drop 3140).take 1 = [1] := by
    rw [flash1, List.drop_append, List.drop_eq_nil_of_le (by rw [flash1_entries]; omega), List.nil_append, flash1_entries, tail1,
      List.drop_append, List.drop_eq_nil_of_le (by rw [List.length_replicate]), List.nil_append, List.length_replicate]
    rfl
  have e : imagesGood (flash1 1) = true := by
    rw [imagesGood, flash1_manifest, flash1_length]
    simp [entries, setImage, last]
  have m (n : W32) (p : 1 ≤ n.toNat ∧ n.toNat ≤ 16777216) : manifestGood [] (flash1 n) = true := by
    rw [manifestGood, h, flash1_end, flash1_manifest]
    simp [entries, imageIds, Tbl.find, p.1, p.2]
  refine ⟨by rw [setGood, m 1 (by decide), e]; rfl, m 2 (by decide), ?_⟩
  rw [imagesGood, flash1_manifest, flash1_length]
  simp [entries]

def atStage (b : BootStage) (f : Platform → Platform := id) : State := man fun s => { s with plat := f { s.plat with stage := b } }

/-- In recovery, with port 24 up or down, a request sent or not, at a time. -/
def recovering (up : Bool) (r : Option (BitVec 256 × List Byte × List Byte)) (n : Nat) : State :=
  { atStage .recovery fun p => { p with recoveryPort := some 0, request := r } with
    time := n, fabric := { (man).fabric with links := [(0, {}), (24, { up := up })] } }

theorem witness_BringUp :
    (atStage .off).plat.stage = .off ∧ (State.reset).plat.stage = .verifying ∧ setGood [] ⟨[]⟩ = false ∧
    (∀ x ∈ setManifest (flash1 1), ∀ y ∈ setManifest (flash1 1), x.id = y.id → x = y) ∧
    (let s := atStage .stage1 fun p => { p with fuses := [(1, 1), (2, 1), (3, 1), (4, 1)], versions := [(1, 2), (2, 2), (3, 2), (4, 2)] }
     s.plat.stage = .stage1 ∧ imageIds.all (fun j => decide (Tbl.find 0 s.plat.fuses j < Tbl.find 0 s.plat.versions j)) = true) ∧
    ((man).plat.stage.up = true ∧ (man).time < (man).plat.watchAt + 270000000 ∧
      (let s := { man with time := 270000000 }; s.plat.stage.up = true ∧ s.plat.watchAt + 270000000 ≤ s.time) ∧ (atStage .recovery).plat.stage.up = false) ∧
    (let s := recovering false none 2700000000
     s.wr = [] ∧ s.plat.stage = .recovery ∧ s.plat.recoveryPort = some 0 ∧ (s.fabric.link (24 + 0)).up = false ∧ s.plat.portAt + 2700000000 ≤ s.time ∧
       s.plat.request = none ∧ s.fabric.egress = []) ∧
    (∀ r ∈ [none, some (0, [], [])], let s := recovering true r (10 * 2700000000)
      (s.fabric.link (24 + 0)).up = true ∧ s.plat.request = r ∧ s.plat.askedAt + 10 * 2700000000 ≤ s.time) := by
  refine ⟨by decide +kernel, by decide +kernel, ?_, ?_, by decide +kernel, by decide +kernel, by decide +kernel, by decide +kernel⟩
  · have h : setManifest ⟨[]⟩ = [] := by decide +kernel
    simp [setGood, manifestGood, h, imageIds]
  · rw [flash1_manifest]
    intro x hx y hy h
    simp only [entries, List.map_cons, List.map_nil, List.mem_cons, List.not_mem_nil, or_false] at hx hy
    rcases hx with rfl | rfl | rfl | rfl <;> rcases hy with rfl | rfl | rfl | rfl <;> first | rfl | (exact absurd h (by decide))

theorem witness_QuotesAndFrequencies :
    (∀ c ∈ [0, 2 ^ 20 - 1, 2 ^ 20], let s := man fun s => { s with plat := { s.plat with quoteCounter := c } }
      s.wr = [] ∧ s.plat.stage ≠ .off ∧ s.plat.stage ≠ .verifying ∧ (s.plat.quoteCounter < 2 ^ 20 ↔ c < 2 ^ 20)) ∧
    (let s := man fun s => { s with plat := { s.plat with quoteNext := 3, quoteEnd := 256 } }; s.plat.quoteNext < s.plat.quoteEnd) ∧
    (900 % 100 = 0 ∧ 2700 % 100 = 0) ∧ (man).islandBusy 0 = false ∧ (man).plat.tgt 0 ≤ (man).plat.cur 0 ∧
    (let s := man fun s => { s.modCore 0 (fun k => { k with mxq := [{ released := true }] }) with
        time := 54000, plat := { s.plat with islandCur := [(0, 900)], islandStep := [(0, 0)] } }
     s.islandBusy 0 = true ∧ s.plat.cur 0 < s.plat.tgt 0 ∧ (∀ x, Tbl.get? s.plat.islandStep 0 = some x → x + 54000 ≤ s.time) ∧
      (∀ x, Tbl.get? s.plat.islandStep 0 = some x → s.time - 1 < x + 54000)) ∧
    900 < (man).plat.tgt 0 ∧ 900 < (man).plat.cur 0 ∧ (man).plat.cur 0 ≠ 900 ∧ (man).plat.cur 0 = 2700 ∧
    (let k : Platform := { islandStop := [(0, 100)] }
     Tbl.find 0 k.islandStop (islandOf (clusterOf 0)) ≤ 100 ∧ 99 < Tbl.find 0 k.islandStop (islandOf (clusterOf 0)) ∧ 99 ≤ Tbl.find 0 k.islandStop 0) := by
  refine ⟨by decide +kernel, by decide +kernel, by decide, by decide +kernel, by decide +kernel, ⟨by decide +kernel, by decide +kernel, ?_, ?_⟩,
    by decide +kernel, by decide +kernel, by decide +kernel, by decide +kernel, by decide +kernel⟩
  · intro x h
    rw [← Option.some.inj (show some 0 = some x from h)]; decide +kernel
  · intro x h
    rw [← Option.some.inj (show some 0 = some x from h)]; decide +kernel

/-! ## Witnesses: vector instructions -/

/-- Lanes and offsets in v1 and v2, mask m1 with lanes 0 and 2, a place of the own scratchpad in g1, odd ones in g4 and g5, the format
codes 0x01 and 0x2A in g6 and g7. -/
def vw (f : Slot → Slot := id) : State :=
  st fun t => f { regs [(1, near), (2, 3), (4, 0xFFFE000000000048#64), (5, 0xFFFE000000000041#64), (6, 1), (7, 0x2A)] t with
    v := [(1, BitVec.ofNat 512 0x3F80000040000000), (2, BitVec.ofNat 512 0x0000000400000000)], m := [(1, 5)] }

theorem witness_VectorFloat :
    (∀ j ∈ [.vfadd 3 1 2 1 0, .vfsub 3 1 2 1 1, .vfmul 3 1 2 0 0, .vfma 3 1 2 1 0, .vfms 3 1 2 1 0, .vfnma 3 1 2 1 0, .vrcp 3 1 1 0, .vrsq 3 1 1 0,
      .vexp2 1 1 7 1], (floatForm j).isSome = true ∧ IsReady j vw) ∧
    (∀ j ∈ [.vfmin 3 1 2 1 0, .vfmax 3 1 2 1 1, .vfabs 3 1 1 0, .vfneg 3 1 1 0, .vfcpy 3 1 2 1 0], (codeForm j).isSome = true ∧ IsReady j vw) := by
  decide +kernel

theorem witness_VectorInteger :
    ∀ ln ∈ [0, 1, 2, 3], ∀ j ∈ [.vadd 3 1 2 1 0 (BitVec.ofNat 2 ln), .vsub 3 1 2 1 0 (BitVec.ofNat 2 ln), .vmul 3 1 2 1 1 (BitVec.ofNat 2 ln),
      .vmulh 3 1 2 1 0 (BitVec.ofNat 2 ln), .vmin 3 1 2 1 0 (BitVec.ofNat 2 ln), .vmax 3 1 2 1 0 (BitVec.ofNat 2 ln), .vshl 3 1 2 1 0 (BitVec.ofNat 2 ln),
      .vshr 3 1 2 1 0 (BitVec.ofNat 2 ln), .vsha 3 1 2 1 0 (BitVec.ofNat 2 ln), .vand 3 1 2 1 0, .vor 3 1 2 1 0, .vxor 3 1 2 1 0],
      (laneForm j).isSome = true ∧ IsReady j vw := by
  decide +kernel

theorem witness_VectorCompare :
    ∀ j ∈ [.vfcmp 2 1 2 1 0 3, .vfcmp 0 1 2 1 0 0, .vcmp 2 1 2 1 1 0 2, .vcmp 2 1 2 1 1 3 5, .vsel 3 1 2 1 0, .mand 3 1 2, .mor 3 1 2, .mxor 0 1 2, .mnot 3 1, .mpop 3 1,
      .mset 3 1], IsReady j vw ∧ settable vw 3 = true ∧ readG vw 1 = .ok (vw, near) := by
  decide +kernel

theorem witness_VectorPermute :
    (∀ ln ∈ [1, 2, 3], IsReady (.vperm 3 1 2 1 0 (BitVec.ofNat 2 ln)) vw) ∧
    (∀ ln ∈ [0, 1, 2, 3], ∀ j ∈ [.vsld 3 1 2 1 0 (BitVec.ofNat 2 ln), .vbcast 3 2 1 1 (BitVec.ofNat 2 ln),
      .vins 3 1 2 (BitVec.ofNat 2 ln), .vext 3 1 2 (BitVec.ofNat 2 ln)], IsReady j vw) ∧
    (∀ op ∈ [0, 1, 2, 3, 4, 5], IsReady (.vred 3 1 1 3 (BitVec.ofNat 3 op)) vw ∧ IsReady (.vscan 3 1 1 3 (BitVec.ofNat 3 op)) vw) ∧
    readG vw 2 = .ok (vw, 3) ∧ readG vw 1 = .ok (vw, near) ∧ settable vw 3 = true ∧ ([1, 2, 3, 4] : List Nat).length = 2 ^ 2 := by
  and_intros <;> decide +kernel

theorem witness_VectorConvert :
    (∀ rnd ∈ [0, 1, 2, 3], IsReady (.vcvt 3 1 0x2A 0x01 (BitVec.ofNat 2 rnd)) vw ∧ IsReady (.vcvtSat 3 1 0x01 0x2A (BitVec.ofNat 2 rnd)) vw) ∧
    (fmtOf? 0x2A).isSome = true ∧ (fmtOf? 0x01).isSome = true ∧ fmtOf? 0x3F = none ∧ IsReady (.vcvt 3 1 0x3F 0x01 0) vw ∧ IsReady (.vcvtSat 3 1 0x01 0x3F 0) vw ∧
    (∀ k ∈ [0, 1, 2, 3], IsReady (.vbsc 3 2 6 1 (BitVec.ofNat 2 k)) vw ∧ IsReady (.vbsc 3 2 7 1 (BitVec.ofNat 2 k)) vw) ∧
    readG vw 6 = .ok (vw, 1) ∧ readG vw 7 = .ok (vw, 0x2A) ∧ (bscFmt? (field (1 : W64) 5 0)).isSome = true ∧ bscFmt? (field (0x2A : W64) 5 0) = none := by
  and_intros <;> decide +kernel

theorem witness_VectorMemory :
    (∀ j ∈ [.vld 3 1 0 0, .vldb 3 1 0 0, .vst 3 1 0, .vld 3 5 0 0, .vldb 3 4 1 0, .vst 3 4 0, .vldx 3 1 2 1 1 3, .vstx 3 1 2 1 3], IsReady j vw) ∧
    readG vw 1 = .ok (vw, near) ∧ readG vw 5 = .ok (vw, 0xFFFE000000000041#64) ∧ readG vw 4 = .ok (vw, 0xFFFE000000000048#64) ∧
    (∀ n ∈ [16, 64], (address near ((0 : BitVec 10).toInt * 64)).toNat % n = 0 ∧ (address 0xFFFE000000000041#64 ((0 : BitVec 10).toInt * 64)).toNat % n ≠ 0 ∧
      vw.xlateLoad near n .read = .ok (vw, .spad 0 0x40) ∧ mayRead vw (.spad 0 0x40) n = true ∧ Succeeds (readLoc (asks vw) (askNum vw) (.spad 0 0x40) n false)) ∧
    vw.xlate near 64 .write = .ok (vw, .spad 0 0x40) ∧ acquirePending vw.cur = false ∧ Succeeds (bufferSectors vw near (.spad 0 0x40) (vstBytes vw 3)) ∧ locKey (.spad 0 0x40) % 64 = 0 ∧
    holdsOf (xlateChunks .read vw (chunksOf vw near 2 (readM vw 1) 32)) (fun e => decide (e.2.length = 2) &&
      holdsOf (loadInto e.1 { vd := [3], left := 0, vval := readV e.1 3 } (e.2.map fun x => (x.1, x.2.1, 4, .vec x.2.2)) false) fun _ => true) = true ∧
    holdsOf (xlateChunks .write vw (chunksOf vw near 2 (readM vw 1) 32)) (fun e => decide (e.2.length = 2) &&
      holdsOf (bufferChunks (vecBytes (readV e.1 3)) e.1 e.2) fun _ => true) = true ∧
    (chunksOf vw near 2 (readM vw 1) 32).length = 2 := by
  and_intros <;> decide +kernel

/-! ## Witnesses: the whole machine -/

/-- A step whose turn is the task's, with an instruction at its program counter. -/
def turn (j : Instr) (q : State → State := id) : State := st id (code j) q

theorem witness_StepRunsDecoded :
    (let s := turn .nop fun s => { s with agenda := [.issue 0 1] }
     let u := State.select { s with agenda := [] } 0 1
     s.ticks = [] ∧ s.turnAt? 0 = some 1 ∧ s.agenda = .issue 0 1 :: [] ∧ u.cur.stream = [] ∧ (u.fetch 0 1).2 = .ok .nop ∧
      (u.slot 0 1).pc.carried = false ∧ (u.slot 0 1).record = none ∧ (u.slot 0 1).pc.off = 160 ∧ (u.slot 0 1).upset = [] ∧ (u.core 0).stale = [] ∧
      (u.core 0).badImem = []) ∧
    (let s := turn .nop fun s => { s with evs := 32 }
     s.ticks = [] ∧ s.agenda = [] ∧ s.dueRound? = none ∧ 32 ≤ s.evs ∧ s.turn? = some (0, 1) ∧ s.turnAt? 0 = some 1) ∧
    (let s := stAt 0 1 (fun t => { t with stream := [(.nop, {}, {})] }) (code .nop); s.cur.stream = (.nop, {}, {}) :: []) ∧
    (let s := (turn .nop).modCore 0 fun k => { k with imem := [(320, 0xFF), (321, 0xFF), (322, 0xFF), (323, 0xFF)] }
     (match (s.fetch 0 1).2 with | .error a => a == 0xFFFFFFFF#64 | .ok _ => false) = true ∧ (s.slot 0 1).budg ≠ 0) ∧
    (let s := turn .nop fun s => s.modSlot 0 1 fun t => { t with pc := ⟨false, 159⟩ }
     (match (s.fetch 0 1).2 with | .error a => a == 159 | .ok _ => false) = true) ∧ (32768 : Nat) ≤ 32768 ∧
    (let s := turn .nop fun s => { s with agenda := [.issue 0 2] }; s.turnAt? 0 ≠ some 2) ∧
    (let s := turn .nop fun s => (s.modCore 0 fun k => { k with serving := some {} }); s.turnAt? 0 = some 0 ∧ s.turn? = some (0, 0)) ∧
    (let s := turn .nop fun s => { s with agenda := [.debug 0 1] }; s.ticks = [] ∧ s.agenda = .debug 0 1 :: []) ∧
    (let s := turn .nop fun s => { s with agenda := [.event .correctedError] }; s.ticks = [] ∧ s.agenda = .event .correctedError :: [] ∧ isEvent .correctedError = true) ∧
    ({ turn .nop with time := 8 }).dueRound? = some (.group 0) ∧ (turn .nop).dueRound? = none ∧
    ((turn .nop fun s => s.modCore 0 fun k => { k with svcq := [{}] }).own?).isSome = true ∧
    ((turn .nop fun s => s.modCore 0 fun k => { k with halted := true }).turn? = none ∧ (turn .nop).own?.isNone = true) ∧
    ({ turn .nop with ticks := [5] }).ticks = [5] := by
  and_intros <;> decide +kernel

/-! ## Witnesses: further cases of the same hypotheses -/

/-- Transfers that fail their signature check: taken ones, and an untaken branch at the end of a body that goes round again. -/
theorem witness_Branches_signature :
    (let s := st fun t => { regs [(1, 5), (2, 7)] t with armed := true, exp := 0x1234 }
     IsReady (.bne 1 2 4) s ∧ readG s 1 = .ok (s, 5) ∧ readG s 2 = .ok (s, 7) ∧
      sigStops s (.bne 1 2 4) (.jump { s.cur.pc with off := 164 }) = true ∧
      (∀ j ∈ [.jmp 4, .jal 4], IsReady j s ∧ sigStops s j (.jump { s.cur.pc with off := 164 }) = true) ∧
      IsReady (.jalr 1 2 0) s ∧ sigStops s (.jalr 1 2 0) (.jump ⟨decide (32768 ≤ 7), 7 % 32768⟩) = true) ∧
    (let s := st fun t => { regs [(1, 5), (2, 7)] t with armed := true, exp := 0x1234, lact := true, lc := 2, ls := 158, le := 161 }
     IsReady (.beq 1 2 4) s ∧ sigStops s (.beq 1 2 4) .seq = true) := by
  and_intros <;> decide +kernel

/-- A walk of another slot for TLBI; addresses of SYNLD that name no mortar state or a cluster outside the partition; a SYNLD that waits. -/
theorem witness_SystemInstructions_walks :
    (let s := sv.modSlot 0 1 fun t => { t with running := true, wait := .fill 0x40 }
     IsReady (.tlbi 1 2) s ∧ s.corePart? s.curCore = some 0 ∧
      (s.walksOpen 0).filter (fun w => w.1 != 0 || w.2.1 != 8 * s.curCore + s.curSlot) ≠ []) ∧
    (sv.walksOpen 0).filter (fun w => w.1 != 0 || w.2.1 != 8 * sv.curCore + sv.curSlot) = [] ∧
    (∀ e ∈ [(0x0400000000000001#64, Cause.illegal), (0x7400000000000000#64, Cause.illegal), (0x0010000000000000#64, Cause.illegal),
        (0x0410000000000000#64, Cause.permission)],
      let s := sup (regs [(1, e.1), (3, 1)])
      IsReady (.synld 1 3) s ∧ readG s 1 = .ok (s, e.1) ∧ readG s 3 = .ok (s, 1) ∧
        (match s.mfield ((s.corePart? s.curCore).getD 0) (e.1 &&& 0x7FFFFFFFFFFFFFFF#64) with | .error c => c == e.2 | .ok _ => false) = true) ∧
    (let a : W64 := 0x040CF05500000000#64
     field a 31 0 = 0 ∧ field a 62 60 = 0 ∧ field a 59 58 = 1 ∧ field a 49 44 ≤ 15 ∧ field a 35 32 ≤ 11 ∧ field a 35 32 = 5 ∧ field a 43 36 ≤ 71 ∧
      field a 53 50 ≤ (sv.part 0).pw ∧ field a 57 54 ≤ (sv.part 0).ph) ∧
    (let a : W64 := 0x0410000000000000#64
     field a 43 36 = 0 ∧ (sv.part 0).pw < field a 53 50) := by
  and_intros <;> decide +kernel

/-- Supervisors of two partitions, the other of which waits with a SYNLD. -/
def svTwo : State := (sv.setPart 1 { en := true, resident := true, px := 5 }).modSlot (coreAt 5 0 8) 7 fun t => { t with wait := .synld 3 }

theorem witness_SystemInstructions_turn : IsReady (.synld 5 3) svTwo ∧ svTwo.cur.staged = [] ∧
    (svTwo.parts.any fun e => (svTwo.slot e.2.supCore 7).wait == .synld 3) = true := by
  and_intros <;> decide +kernel

/-- Marks of FNC with .sl behind a store that is not performed. -/
theorem witness_FencesAndLines_marks :
    (∀ o ∈ [Order.acq, .sc], let s := fly [⟨{ id := 1, task := 1, act := .store oneByte, loc := hbm0 }, .waiting⟩,
        ⟨{ id := 2, task := 1, act := .fence, order := o }, .waiting⟩]
      ∃ f ∈ (s.core s.curCore).flight, f.e.task = s.cur.task ∧ f.e.act = .fence ∧ (f.e.order = .acq ∨ f.e.order = .sc) ∧
        ∃ g ∈ (s.core s.curCore).before f.e, g.e.act = .store oneByte) := by
  decide +kernel

/-- PFX of a mapped line at every scope, CLN in a slot of the plane that is open and one that is not, and to a device by a core whose
partition's slot is not open; INVL at a scope that it does not have. -/
theorem witness_FencesAndLines_plane :
    (let s := st (regs [(3, 0x40)]) id mapped
     (∀ sc ∈ [0, 1, 2, 3], IsReady (.pfx 3 sc) s) ∧ readG s 3 = .ok (s, 0x40) ∧
      (match s.xlateAny s.curCore (s.privileged s.curCore s.curSlot) 0x40 1 .read with
        | (s2, .at_ (.hbm part phys _ gpa)) => !s2.busy part phys gpa 1 false && s2.planeOpen part &&
            !s2.nearOpen (clusterOf s.curCore) none (.hbm part phys 0 gpa) 1
        | _ => false) = true ∧
      holdsOf (s.xlate 0x40 1 .clean) (fun e => match e.2 with | .hbm part _ _ _ => e.1.planeOpen part | _ => false) = true) ∧
    holdsOf (w2.xlate 0x40 1 .clean) (fun e => match e.2 with | .hbm part _ _ _ => !e.1.planeOpen part | _ => false) = true ∧
    (holdsOf (peerState.xlate 0x0001000000000040#64 1 .clean) (fun e => !e.1.coreOpen e.1.curCore) = true) ∧
    (let s := peerState fun s => s.modPart 0 fun p => { p with qos := 2 ^ 24 }
     IsReady (.cln 3 2) s ∧ holdsOf (s.xlate 0x0001000000000040#64 1 .clean) (fun e => e.2 == .peer 1 0 0x40 0 &&
       e.1.flowRoom (e.1.flowTo 1 0) && e.1.coreOpen e.1.curCore) = true) ∧
    (2 ≤ (2 : BitVec 2).toNat ∧ w2.wr = [] ∧ w2.cur.running = true ∧ w2.cur.budg ≠ 0) ∧
    holdsOf (w2.xlate 0x40 1 .inval) (fun e => match e.2 with | .hbm _ _ _ _ => true | _ => false) = true := by
  and_intros <;> decide +kernel

/-- A task of a launch that another device accepted, whose record its messages brought; and coordinates of a task of none. -/
theorem witness_MapAddresses_launches :
    (let s := lw (regs [(3, 0xFFFE000000000040#64), (5, 0x8000000000000000#64), (6, 3), (7, 0x10000000)])
     (∀ b ∈ [5, 6, 7], IsReady (.tmad 1 3 b 0) s) ∧ s.rcdAny? s.cur.launch = some rcd1 ∧ field (3 : W64) 62 28 = 0 ∧
      field (0x10000000 : W64) 62 28 ≠ 0 ∧ bitAt (3 : W64) 63 = false) ∧
    (let l : LaunchId := { ctx := 1, lid := 1, dev := some 5 }
     let s := st (fun t => { regs [(3, 0xFFFE000000000040#64), (6, 3)] t with msg := some { msg0 with launch := some l } }) id fun s =>
       { s with fabric := { s.fabric with guests := [{ launch := l, dom := 0, rcd := some rcd1 }] } }
     IsReady (.tmad 1 3 6 0) s ∧ s.rcd? s.cur.launch = none ∧ s.rcdAny? s.cur.launch = some rcd1) ∧
    w1.rcdAny? w1.cur.launch = none := by
  and_intros <;> decide +kernel

/-- The operands of an atomic, of SPWN and of CARV, kept by the slot. -/
def kept (l : List W64) (s : State) : State := s.modCur fun t => { t with opnds := l }
def again (l : List W64) (buf : List Entry := []) : State :=
  mw.modCur fun t => { t with handed := true, opnds := l, g := [(3, 0xFFFE000000000040#64)], buf := buf }

theorem witness_Atomics_operands :
    (∃ s1 s2, readG w1 3 = .ok (s1, 0xFFFE000000000040#64) ∧ readG s1 1 = .ok (s2, 5) ∧ (if (0 : BitVec 4) = 9 then readG s2 (1 + 1) else .ok (s2, 0)) =
      .ok (w1, 0)) ∧ w1.cur.handed = false ∧
    (let u := kept [0xFFFE000000000040#64, 5, 0] w1
     u.xlateLoad 0xFFFE000000000040#64 8 .atomic = .ok (u, .spad 0 0x40) ∧ Commits u (committed u)) ∧
    (let s := again [0xFFFE000000000040#64, 5, 0]
     IsReady (.amo 9 3 1 0 0 1) s ∧ s.cur.handed = true ∧ s.cur.opnds = [0xFFFE000000000040#64, 5, 0] ∧
      s.xlateLoad 0xFFFE000000000040#64 8 .atomic = .ok (s, .spad 0 0x40) ∧ Commits s (complete s)) ∧
    (let s := handing.modCur fun t => { t with g := [(3, 0xFFFE000000000040#64)] }
     let u := kept [0xFFFE000000000040#64, 0, 0] s
     IsReady (.amo 9 3 1 0 0 1) s ∧ readG s 3 = .ok (s, 0xFFFE000000000040#64) ∧ readG s 1 = .ok (s, 0) ∧ s.cur.handed = false ∧
      u.xlateLoad 0xFFFE000000000040#64 8 .atomic = .ok (u, .spad 0 0x40) ∧ Commits.waits u) := by
  refine ⟨⟨w1, w1, by decide +kernel⟩, by decide +kernel, ⟨by decide +kernel, .inl ⟨mayDrain_of (by decide +kernel), rfl⟩⟩,
    ⟨by decide +kernel, by decide +kernel, by decide +kernel, by decide +kernel, .inr ⟨by decide +kernel, by decide +kernel, rfl⟩⟩,
    by decide +kernel, by decide +kernel, by decide +kernel, by decide +kernel, by decide +kernel, mayHandOn_of (by decide +kernel), by decide +kernel⟩

theorem witness_SpawnsAndReads_operands :
    (∃ q, readQuad lr 4 = .ok (lr, q) ∧ readG lr 10 = .ok (lr, 0) ∧ lr.cur.handed = false ∧
      let u := kept [q.a, q.b, q.c, q.d, 0] lr
      u.ownDevice (BitVec.ofNat 64 (field (0 : W64) 37 0)) = true ∧ placeTargets u (BitVec.ofNat 64 (field (0 : W64) 37 0)) = .ok [.core 0] ∧
        Commits u (committed u)) ∧
    (let s := again [0, 0, 0, 0, 0]
     IsReady (.spwn 9 4 10 0) s ∧ s.cur.handed = true ∧ s.cur.opnds = [0, 0, 0, 0, 0] ∧
      placeTargets s (BitVec.ofNat 64 (field (0 : W64) 37 0)) = .ok [.core 0] ∧ Commits s (complete s)) := by
  refine ⟨⟨⟨1, 2, 0, 0⟩, by decide +kernel, by decide +kernel, by decide +kernel, by decide +kernel, by decide +kernel,
    .inl ⟨mayDrain_of (by decide +kernel), rfl⟩⟩, by decide +kernel, by decide +kernel, by decide +kernel, by decide +kernel,
    .inr ⟨by decide +kernel, by decide +kernel, rfl⟩⟩

theorem witness_CourseInstructions_operands :
    (∃ q, readQuad mw 16 = .ok (mw, q) ∧ readG mw 5 = .ok (mw, 0x800) ∧ mw.cur.handed = false ∧
      let u := kept [q.a, q.b, q.c, q.d, 0x800] mw
      ((u.cluster (clusterOf mw.curCore)).course (field (0x800 : W64) 3 0)).mem.getLsbD (8 * indexOf mw.curCore + mw.curSlot) = true ∧
        Commits u (committed u)) ∧
    (let s := again [0, 0, 0, 0, 0x800]
     IsReady (.carv 16 5) s ∧ s.cur.handed = true ∧ s.cur.opnds = [0, 0, 0, 0, 0x800] ∧
      ((s.cluster (clusterOf s.curCore)).course (field (0x800 : W64) 3 0)).mem.getLsbD (8 * indexOf s.curCore + s.curSlot) = true ∧
      Commits s (complete s)) := by
  refine ⟨⟨⟨0, 0, 0, 0⟩, by decide +kernel, by decide +kernel, by decide +kernel, by decide +kernel,
    .inl ⟨mayDrain_of (by decide +kernel), rfl⟩⟩, by decide +kernel, by decide +kernel, by decide +kernel, by decide +kernel,
    .inr ⟨by decide +kernel, by decide +kernel, rfl⟩⟩

/-- A copy command of a slot and task. -/
def cpOwn (n t : Nat) : CpEntry :=
  { slot := n, task := t, q := ⟨0, 0, 0, 0⟩, map := 0, parity := 0, chan := 0, xid := 0, uid := 0, launch := none, prio := 0, released := false }

/-- Queues of which the task of slot 1 owns half and another, in slot 2, the rest: the number of that task and what it waits for. -/
def twoOwners (t : Nat) (w : Wait) (freed : Nat := 0) : State := ew fun k =>
  { k with slots := k.slots ++ [(2, { running := true, repl := true, task := t, wait := w })], mxFreed := freed
           mxq := List.replicate 4 { slot := 1, task := 1 } ++ List.replicate 4 { slot := 2, task := t }
           cpq := List.replicate 4 (cpOwn 1 1) ++ List.replicate 4 (cpOwn 2 t) }
def alone : State := ew fun k =>
  { k with mxq := List.replicate 8 { slot := 1, task := 1 }, cpq := List.replicate 8 (cpOwn 1 1) }

theorem witness_EngineQueues_full :
    (∀ s ∈ [alone, twoOwners 0 .mxq, twoOwners 2 .mxq, twoOwners 0 .none, twoOwners 0 .mxq 1], IsReady (.mxq 1) s ∧
      holdsOf (queueMatrix s (readV s 1) true) (fun e => !e.2 && e.1 == s) = true) ∧
    (∀ s ∈ [alone, twoOwners 0 .cpq, twoOwners 2 .cpq, twoOwners 0 .none], IsReady (.cpq 9 4 0) s ∧
      holdsOf (queueCopy s 4 true) (fun e => e.2 == none && e.1 == s) = true) ∧
    (∀ e ∈ (alone.core 0).mxq, e.released = false ∧ e.slot = 1 ∧ e.task = 1) ∧ (∀ e ∈ (alone.core 0).cpq, e.released = false ∧ e.slot = 1 ∧ e.task = 1) ∧
    (∀ t ∈ [0, 2], (∀ e ∈ ((twoOwners t .mxq).core 0).mxq, e.zeroing = false ∧ e.released = false ∧ (e.slot = 1 ∨ ((twoOwners t .mxq).slot 0 e.slot).wait = .mxq)) ∧
      (∀ e ∈ ((twoOwners t .cpq).core 0).cpq, e.released = false ∧ (e.slot = 1 ∨ ((twoOwners t .cpq).slot 0 e.slot).wait = .cpq)) ∧
      (((twoOwners t .mxq).core 0).mxq.any (fun e => e.slot != 1)) = true) ∧
    ((twoOwners 0 .mxq 1).core 0).mxFreed ≠ 0 ∧ ((twoOwners 0 .none).slot 0 2).wait ≠ .mxq ∧ ((twoOwners 0 .none).slot 0 2).wait ≠ .cpq := by
  and_intros <;> decide +kernel

theorem witness_EngineQueues_owners :
    (∀ w ∈ [Wait.mxq, .cpq], lastOwner (twoOwners 0 w) [1, 1, 1, 1, 2, 2, 2, 2] 1 ∧ laterOwner (twoOwners 2 w) [1, 1, 1, 1, 2, 2, 2, 2] 1) ∧
    ((((twoOwners 0 .mxq).core 0).mxq.filter fun e => !e.zeroing).map (·.slot)) = [1, 1, 1, 1, 2, 2, 2, 2] ∧
    (((twoOwners 0 .cpq).core 0).cpq.map (·.slot)) = [1, 1, 1, 1, 2, 2, 2, 2] := by
  refine ⟨?_, by decide +kernel, by decide +kernel⟩
  have at1 : ∀ m ∈ [1, 1, 1, 1, 2, 2, 2, 2], m ≠ 1 → m = 2 := by decide
  intro w h
  simp only [List.mem_cons, List.not_mem_nil, or_false] at h
  rcases h with rfl | rfl <;>
    refine ⟨⟨⟨by decide, fun _ => by decide +kernel⟩, fun m hm ne => ?_⟩, 2, ⟨by decide, fun _ => by decide +kernel⟩, .inl (by decide +kernel)⟩ <;>
    (rw [at1 m hm.1 ne]; decide +kernel)

/-- Walks that a TLBI noted, which are complete; a slot whose turn it is not. -/
theorem witness_WaitsEnd_walks :
    (let s := waitingSup (.tlbi 1 2) (.tlbi [(0, 1, 160), (1, 0, 9), (2, 0, 0)])
     ∀ w ∈ [(0, 1, 160), (1, 0, 9), (2, 0, 0)], s.walkOpen 0 w = false) ∧
    (let s := waiting (.mxq 1) .mxq; s.islandStopped 0 = false ∧ (s.core 0).turnOf 1 = true) ∧
    (let s := st (fun t => { t with wait := .mxq }) fun k => { k with halted := true }; ¬ (s.islandStopped 0 = false ∧ (s.core 0).turnOf 1 = true)) := by
  and_intros <;> decide +kernel

/-- A message behind a deferred one of the same core to the same target, whose deferral has ended, or has not, or to another; SPWN too. -/
theorem witness_MessagesTravel_deferred :
    (∀ d ∈ [([] : List Deferred), [⟨1, msg0, .core 0⟩], [⟨0, msg0, .core 5⟩]], ∀ a ∈ [Act.send msg0 ([0, 16].map .core), .spawn msg0 (.core 0) 7],
      let s := fly [⟨{ act := a }, .waiting⟩] fun k => { k with deferred := d }
      s.wr = [] ∧ s.flying? 0 0 = some { act := a } ∧ (s.core 0).mayRelease { act := a } = true ∧
        (∀ x ∈ (s.core 0).deferred, s.time < x.due ∨ ∀ t ∈ [0, 16], x.tgt.meets (.core t) = false)) ∧
    (∀ a ∈ [Act.send msg0 ([0, 16].map .core), .spawn msg0 (.core 0) 7],
      let s := fly [⟨{ act := a }, .waiting⟩] fun k => { k with deferred := [⟨0, msg0, .core 0⟩] }
      s.flying? 0 0 = some { act := a } ∧ (s.core 0).mayRelease { act := a } = true ∧
        ∃ x ∈ (s.core 0).deferred, x.due ≤ s.time ∧ ∃ t ∈ [0, 16], x.tgt.meets (.core t) = true) := by
  and_intros <;> decide +kernel

/-- Items behind others: of the same way, of another; a spawn into a gang's cluster whose release is complete, or is not. -/
theorem witness_MessagesTravel_order :
    (let s := under [.task 16 0 msg0, .spawn 16 1 5 (.core 0) msg0, .task 32 0 msg0]
     ∃ x, s.net[1]? = some x ∧ (∃ y ∈ s.net.take 1, y.sameWay x = true) ∧ ∀ y ∈ s.net.take 2, y.sameWay (.task 32 0 msg0) = false) ∧
    (∀ done ∈ [[], [0]],
      let m : Msg := { msg0 with launch := some lid1 }
      let s := (under [.spawn 16 1 5 (.core 0) m] fun k => { k with image := some lid1 }).modCtx 1 fun x =>
        { x with launches := [(1, { launch1 with stage := .releasing, started := done })] }
      s.wr = [] ∧ s.primaryOf? 0 = none ∧ s.deadLaunch m = false ∧ s.staleAt 0 m = false ∧ s.releasePending 0 m = done.isEmpty) := by
  refine ⟨⟨_, rfl, ?_⟩, ?_⟩ <;> decide +kernel

/-- RDX requests behind one of the same core, and behind one of another; one whose line a write of its cluster touches, and one that none does. -/
theorem witness_MessagesTravel_sources :
    (let s := under [.rdx rq (.spad 0 0x40) [.core 0], .rdx rq1 (.spad 0 0x40) ([0].map .core)]
     s.net[1]? = some (.rdx rq1 (.spad 0 0x40) ([0].map .core)) ∧ ¬ ∀ y ∈ s.net.take 1, sameRdxSource rq1 y = false) ∧
    (let r : RdxReq := { rq with requester := 1 }
     let s := under [.rdx r (.spad 0 0x40) [.core 0], .rdx rq1 (.spad 0 0x40) ([0].map .core)]
     ∀ y ∈ s.net.take 1, sameRdxSource rq1 y = false) ∧
    (let s := mapped (under [.rdx rq hbm0 ([0].map .core)])
     let x := s.xlateMem none 0 0x40 .fetch
     rq.rdev = s.fabric.devId ∧ x.1.nearOpen (clusterOf (s.rdxSource rq)) none hbm0 rq.quad.b.toNat = false) := by
  and_intros <;> decide +kernel

/-- A release of group scope to the scratchpad behind a store to partition memory; another task's store there that is performed for the
cluster alone. -/
def releases (e : Entry) (more : List Flight := []) : State :=
  fly ([⟨{ id := 1, task := 1, act := .store oneByte, loc := hbm0 }, .waiting⟩, ⟨e, .waiting⟩] ++ more) id mapped
def otherNear : List Flight := [⟨{ id := 3, task := 2, near := true, act := .store oneByte, loc := hbm0 }, .waiting⟩]

theorem witness_WritesAtHomes_near :
    (∀ loc ∈ [Loc.spad 0 0x80, .hbm 0 0x140 0x140 0x140], ∀ o ∈ [Order.rel, .sc], ∀ more ∈ [[], otherNear],
      let e : Entry := { id := 2, task := 1, order := o, scope := .grp, act := .store oneByte, loc := loc }
      let s := releases e more
      s.wr = [] ∧ (s.core 0).flight[1]? = some ⟨e, .waiting⟩ ∧ (s.core 0).mayRelease e = true ∧ (s.core 0).nears e ≠ [] ∧
        s.mayNear 0 e = more.isEmpty ∧ (s.nearNow 0 e).planeOpen 0 = true ∧ (s.nearNow 0 e).snapHolds 0 0 e = false ∧
        (s.nearNow 0 e).refusedAt 0 0 = false ∧ (s.nearNow 0 e).nearOpen (clusterOf 0) (some (0, e.task)) e.loc e.span = false) ∧
    (∀ a ∈ [Act.fence], ∀ more ∈ [[], otherNear],
      let e : Entry := { id := 2, task := 1, order := .rel, scope := .grp, act := a }
      let s := releases e more
      s.flying? 0 1 = some e ∧ (s.core 0).mayPass e = true ∧ s.mayNear 0 e = more.isEmpty) ∧
    (∀ a ∈ [Act.amo 0 8 1 2 5], ∀ more ∈ [[], otherNear],
      let e : Entry := { id := 2, task := 1, order := .sc, scope := .grp, act := a, loc := .spad 0 0x80, drain := 1 }
      let s := releases e more
      (s.core 0).flight[1]? = some ⟨e, .waiting⟩ ∧ (s.core 0).mayAmo e = true ∧ s.mayNear 0 e = more.isEmpty ∧ ∀ f ∈ (s.core 0).flight, f.st ≠ .refused) ∧
    (let e : Entry := { id := 2, task := 1, act := .store oneByte, loc := hbm0 }
     let s := fly (⟨e, .waiting⟩ :: otherNear) id mapped
     s.mayNear 0 e = true ∧ (s.core 0).nears e = [] ∧ s.nearOpen (clusterOf 0) (some (0, e.task)) e.loc e.span = true) ∧
    (let e : Entry := { act := .red 0 8 1, loc := hbm0 }
     let s := fly [⟨e, .waiting⟩] id mapped
     e.order = .weak ∧ s.nearOpen (clusterOf 0) (some (0, e.task)) e.loc e.span = false) ∧
    (let e : Entry := { id := 2, task := 1, order := .rel, scope := .grp, act := .store oneByte, loc := .unmapped 0 0x40 0x40 }
     let s := (releases e).modCtx 1 fun x => { x with root1 := 0 }
     s.mayNear 0 e = true) := by
  and_intros <;> decide +kernel

/-- A parked request of an item on the way. -/
theorem witness_ServiceSlots_items :
    (let r : Parked := ⟨.item (.rdx rq hbm0 [.core 0]), 0, 9, hbm0, 0, 0⟩; r.who = .item (.rdx rq hbm0 [.core 0])) := rfl

/-- A head command that has begun, under a debug halt; one that has not. A command whose page does not move. -/
theorem witness_MatrixCommands_begun :
    (let s := mxWith { begun := true } fun k => { k with halted := true }; (s.mxNext? 0).isSome = true) ∧
    (let s := mxWith {} fun k => { k with halted := true }
     (s.core 0).halted = true ∧ ∀ e ∈ (s.core 0).mxq.head?, e.begun = false) ∧
    ((mxWith acclMem).part 0).moves 0 = false := by
  and_intros <;> decide +kernel

/-- A chunk for a line that a release has gone before, and one for another. -/
theorem witness_CopyTransfers_near :
    (let s := mapped (cpWith (underWay (some [1, 2])) fun k => { k with flight := otherNear })
     s.planeShut hbm0 = false ∧ s.cpNear 0 16 hbm0 = true ∧ s.cpNear 0 16 (.hbm 0 0x140 0x140 0x140) = false) ∧
    (mapped (cpWith (underWay (some [1, 2])))).cpNear 0 16 hbm0 = false := by
  and_intros <;> decide +kernel

/-- Invalidations: a walk under way, an entry that a release has gone before, neither. Entries of a snapshot table within HBM and beyond. -/
theorem witness_PageEvents_waits :
    (let s := st fun t => { t with wait := .fill 0 }; s.walksOpen 0 ≠ []) ∧ (fly otherNear).nearIn 0 = true ∧
    (∀ l ∈ [[], [pin0]], let s := st id (fun k => { k with pins := l }) mapped; s.walksOpen 0 = [] ∧ s.nearIn 0 = false) ∧
    (let s := fly [⟨{ act := .store oneByte, loc := hbm0 }, .waiting⟩] id mapped; s.walksOpen 0 = [] ∧ s.nearIn 0 = false) ∧
    (∀ a ∈ [hbmBytes - 16, hbmBytes - 15], let s := (st).modPart 0 fun k => { k with snapEn := true, snapPages := 1, snapTable := a, cow := [0] }
      (s.part 0).snapEntry? 0 = some a ∧ (s.part 0).cow.contains 0 = true ∧ (a + 16 ≤ hbmBytes ↔ a = hbmBytes - 16)) := by
  and_intros <;> decide +kernel

/-- Contributions of a core of the gang and of one outside it; of one behind a line that another task's release has gone before. -/
theorem witness_ReductionsAndMulticasts_gang :
    (let e : Entry := { act := .trrd 5 1 0 0, launch := some lid1 }
     let s := coll [] [] e
     s.inGang 0 launch1 = true ∧ s.mayNear 0 e = true) ∧
    (let e : Entry := { act := .trrd 5 1 0 0, launch := some lid1 }
     let s := (coll [] [] {}).modCore 16 fun k => { k with flight := [⟨e, .waiting⟩] }
     s.flying? 16 0 = some e ∧ s.inGang 16 launch1 = false ∧ (s.core 16).mayMortar e = true ∧ s.mayNear 16 e = true) ∧
    (let e : Entry := { id := 2, task := 1, order := .rel, scope := .grp, act := .trrd 5 1 0 0 }
     let s := releases e otherNear
     s.flying? 0 1 = some e ∧ s.mayNear 0 e = false) := by
  and_intros <;> decide +kernel

/-- Sealed reads of an entry within HBM, of one beyond and of one that does not verify; a walker for the debugger. -/
theorem witness_Management_sealed :
    (let s := snapped; 0x10000 + 16 ≤ hbmBytes ∧ s.foreign 0 0x10000 = false) ∧
    (let s := (snapped).setLine (0x10000 / 128) { bad := true }; s.foreign 0 0x10000 = true) ∧
    (let s := (man).modPart 0 fun k => { k with snapEn := true, snapPages := 1, snapTable := hbmBytes }
     (s.part 0).snapEntry? 0 = some hbmBytes ∧ hbmBytes < hbmBytes + 16) ∧
    (let s := (snapped .halted true).modCluster 0 fun c => { c with walkers := [(0, {})] }
     (s.part 0).holds 0 = true ∧ Tbl.get? (s.cluster 0).walkers 0 = some {} ∧ (s.part 0).debugger = true ∧ (s.part 0).halt = .halted) := by
  and_intros <;> decide +kernel

/-- Frames of the same EPOCH, the next and the one before; of a message for a running, a halted and a waiting partition; link frames that pass
the checks and that do not. -/
theorem witness_FramesAndLinks_epochs :
    (let i : FlowIn := { next := 9, epoch := 3 }
     i.ahead { frame1 with epoch := 3, seq := 9 } = 0 ∧ i.ahead { frame1 with epoch := 3, seq := 10 } = 1 ∧
       i.ahead { frame1 with epoch := 3, seq := 9 + 4095 } = 4095 ∧ i.ahead { frame1 with epoch := 3, seq := 9 + 4096 } = 4096 ∧
       2 ^ 43 ≤ i.ahead { frame1 with epoch := 3, seq := 8 } ∧ 2 ^ 43 ≤ i.ahead { frame1 with epoch := 2, seq := 9 } ∧
       4096 ≤ i.ahead { frame1 with epoch := 4, seq := 0 } ∧ i.ahead { frame1 with epoch := 4, seq := 0 } < 2 ^ 43) := by
  and_intros <;> decide +kernel

/-- A message from device 5 to partition 0, which another waits before, or not, on the way in and out. -/
def inMsg : Frame := { frame1 with ddev := 0, sdev := 5, payload := .message 0 msg0 }
def taking (h : Halt) (q : W64) (l : List (Nat × Frame)) : State :=
  (linked fun f => { f with arrived := l, inject := l }).modPart 0 fun k => { k with halt := h, qos := q }

theorem witness_FramesAndLinks_taking :
    (let f : Frame := { frame1 with ddev := 0, sdev := 5 }; (linked).frameFor f = none ∧ f.ddev = (linked).fabric.devId) ∧
    (∀ s : State, s.frameFor inMsg = some 0) ∧
    (∀ h q l, ((taking h q l).part 0).halt = h ∧ (taking h q l).fabric.arrived = l ∧ (taking h q l).fabric.inject = l) ∧
    (taking .running 0 []).planeOpen 0 = false ∧ (taking .running 0x1000000 []).planeOpen 0 = true ∧ (0 : Nat) ≠ transitClass := by
  refine ⟨by decide +kernel, fun _ => rfl, fun _ _ _ => ⟨rfl, rfl, rfl⟩, by decide +kernel, by decide +kernel, by decide⟩

theorem witness_FramesAndLinks_form :
    (∀ b ∈ [true, false], let f : Frame := { frame1 with opcode := 0x0F, ddev := 0x3FFFF, payload := .link 0 true, reservedZero := b }
      linkFrame f = true ∧ (linked).frameOk 0 f = b) := by
  decide +kernel

theorem witness_FramesAndLinks_control :
    (∀ up ∈ [true, false], let s := linked fun f => { f with links := [(0, { up := up, replay := [frame1], sent := 2, freed := 1 })] }
      (s.fabric.link 0).up = up ∧ s.managed = true ∧ (s.fabric.link 0).freed ≤ 1 ∧ 1 ≤ (s.fabric.link 0).sent) ∧ (under []).managed = false ∧
    (let s := linked fun f => { f with egress := [(0, 5, frame1)] }
     (s.weight 0 5 = 0 ∧ ∀ j ∈ (s.fabric.queued 0).map (·.1), s.weight 0 j = 0)) ∧
    (let s := linked fun f => { f with egress := [(0, 64, frame1)] }
     s.classFrame? 0 64 = some (64, frame1) ∧ ∃ j ∈ (s.fabric.queued 0).map (·.1), s.weight 0 j ≠ 0) ∧
    (let o : FlowOut := { keys := [(3, 1, 0)] }; ∀ e ∈ o.keys, e.1 = 3 → e.2.1 ≠ 0) ∧
    (let o : FlowOut := { keys := [(3, 0, 7)] }; o.keys.find? (fun e => e.1 == 3 && e.2.1 == 0) = some (3, 0, 7)) := by
  and_intros <;> decide +kernel

/-- Markers that have all gone on already, that have not all; frames that an entry ends and frames that it lets pass; bytes of one word. -/
theorem witness_Streams_ends :
    (∀ g ∈ [true, false], let e := stream0 [{ inp := 3, out := 4 }] [(0, [(.marker, true)]), (1, [(.marker, g)])]
      let ins := (upto 25).filter fun q => (3 : BitVec 25).getLsbD q
      ins ≠ [] ∧ (∀ q ∈ ins, (Tbl.find [] e.queues q).head?.map (·.1) = some .marker) ∧
        ((∀ q ∈ ins, (Tbl.find [] e.queues q).head?.map (·.2) = some true) ↔ g = true)) ∧
    (let m : Frame := { frame7 with payload := .stream [.marker] }
     (stream0 [{ inp := 3, out := 4 }] []).ends m = true ∧ (stream0 [{ inp := 1, out := 4 }] []).ends m = false ∧ marksSet m = true ∧
       (stream0 [{ inp := 3, out := 4 }] []).ends frame7 = false ∧ (stream0 [{ inp := 1, out := 4, op := 1 }] []).ends frame7 = true ∧
       (flowing [{ inp := 3, out := 4 }] []).tagOk m = true ∧ (flowing [{ inp := 3, out := 4 }] []).tagOk { m with tagGood := false } = false) ∧
    (let bs : List NibByte := [⟨0, 1, true, true⟩, ⟨3, 2, true, true⟩]; bs ≠ [] ∧ ∀ b ∈ bs, (12 + b.pos) / 8 = 12 / 8) := by
  and_intros <;> decide +kernel

theorem witness_HaltsAndSwitches_slice :
    ∀ n ∈ [53999, 54000], let s := { switching (.testing 2) false with time := n }
      s.wr = [] ∧ (s.part 0).switch = .testing 2 ∧ (s.time < (s.part 0).testFrom + 54000 ↔ n = 53999) ∧
        ((s.part 0).testFrom + 54000 ≤ s.time ↔ n = 54000) := by
  decide +kernel

/-- In recovery: a port that is not the recovery's, an answer that has come, one that has not. -/
theorem witness_BringUp_answers :
    (let s := recovering true (some (0, [], [])) 0; s.plat.recoveryPort = some 0 ∧ (0 : Nat) ≠ 24 + 0 ∧ (25 : Nat) ≠ 24 + 0 ∧
      s.plat.request ≠ none ∧ s.plat.answered = false ∧ (s.fabric.link (24 + 0)).up = true) ∧
    (let s := { recovering true (some (0, [], [])) 0 with plat := { (recovering true (some (0, [], [])) 0).plat with answered := true } }
     s.plat.stage = .recovery ∧ s.plat.answered = true) ∧
    (let s := man fun s => { s with plat := { s.plat with stage := .recovery } }; s.managed = false) := by
  and_intros <;> decide +kernel

theorem witness_VectorMemory_words : ∀ e ∈ [(near, Loc.spad 0 0x40, oneByte), (far, .hbm 0 0 0 0, oneByte)], ∀ n o, e.2.1 ≠ .stream n o := by
  simp

/-- A supervisor's task, whose image has no bad halfword. -/
theorem witness_StepRunsDecoded_supervisor :
    let s := (trapq [(320, 1)]).modSlot 8 7 fun t => { t with running := true, record := some report1, pc := ⟨false, 160⟩ }
    (s.slot 8 7).record ≠ none ∧ (s.corePart? 8).isSome = true ∧ (s.part ((s.corePart? 8).getD 0)).badSup = [] ∧ (s.slot 8 7).pc.off = 160 ∧
      (s.slot 8 7).upset = [] ∧ (s.core 8).stale = [] := by
  and_intros <;> decide +kernel

/-! ## Witnesses: encodings and invariants -/

theorem witness_EncodeDecode : WellFormed (.add 31 30 29) ∧ WellFormed (.folw) := by decide +kernel

/-- The invariant holds of a state whose step runs an instruction. -/
theorem witness_StepKeepsInvariant : Kept (turn .nop) ∧ (match step (turn .nop) with | .next _ => true | _ => false) = true := by
  refine ⟨⟨by decide +kernel, by decide +kernel, fun i => ?_, by decide +kernel, by decide +kernel⟩, by decide +kernel⟩
  have h : (turn .nop).plat.cur i = 2700 ∧ (turn .nop).plat.tgt i = 2700 := ⟨rfl, rfl⟩
  rw [h.1, h.2]
  exact ⟨⟨by decide, by decide, by decide⟩, ⟨by decide, by decide, by decide⟩⟩

/-- The same state is one for the statement about quote indices. -/
theorem witness_QuoteIndicesOnce : Kept (turn .nop) ∧ (match step (turn .nop) with | .next _ => true | _ => false) = true :=
  witness_StepKeepsInvariant

/-! ## Small tests against the examples of the manual -/

/-- The register of the running task after an instruction. -/
def regAfter (j : Instr) (s : State) (r : Nat) : Option W64 :=
  match exec j s with
  | .next t => some (Tbl.find 0 (t.slot s.curCore s.curSlot).g r)
  | _ => none

/-- 07 R113: ADD wraps, and a result for g0 is discarded. -/
theorem test_add_wraps : regAfter (.add 3 1 2) (st (regs [(1, 0xFFFFFFFFFFFFFFFF#64), (2, 2)])) 3 = some 1 := by decide +kernel
theorem test_add_g0 : regAfter (.add 0 1 2) (st (regs [(1, 5), (2, 2)])) 0 = some 0 := by decide +kernel

/-- 07 R113: SEL reads its destination as the condition. -/
theorem test_sel : regAfter (.sel 3 1 2) (st (regs [(1, 5), (2, 6), (3, 0)])) 3 = some 6 := by decide +kernel

/-- 07 R116: ADDI extends the sign of its immediate. -/
theorem test_addi_sign : regAfter (.addi 3 1 0x3FFF) (st (regs [(1, 5)])) 3 = some 4 := by decide +kernel

/-- The value that a multiply or divide gives. -/
def mulOf (j : Instr) (x y : Int) : Option W64 := (mulForm j).map fun e => e.2.2.2.2 (BitVec.ofInt 64 x) (BitVec.ofInt 64 y)

/-- 07 R114: the table of quotients and remainders. -/
theorem test_divide_table :
    mulOf (.div 1 2 3 0) 7 (-2) = some (BitVec.ofInt 64 (-3)) ∧ mulOf (.divn 1 2 3 0) 7 (-2) = some 0 ∧
    mulOf (.rem 1 2 3 0) 7 (-2) = some 1 ∧ mulOf (.remn 1 2 3 0) 7 (-2) = some 7 ∧
    mulOf (.div 1 2 3 0) (-7) 2 = some (BitVec.ofInt 64 (-3)) ∧ mulOf (.divn 1 2 3 0) (-7) 2 = some 0x7FFFFFFFFFFFFFFC#64 ∧
    mulOf (.rem 1 2 3 0) (-7) 2 = some (BitVec.ofInt 64 (-1)) ∧ mulOf (.remn 1 2 3 0) (-7) 2 = some 1 ∧
    mulOf (.mulh 1 2 3 0) (-1) (-1) = some 0 ∧ mulOf (.mulhn 1 2 3 0) (-1) (-1) = some 0xFFFFFFFFFFFFFFFE#64 := by
  decide +kernel

/-- 07 R119: a taken branch goes to the sum of its own address and the offset. -/
theorem test_branch_taken : (match exec (.bne 1 2 4) (st (regs [(1, 5)])) with | .next t => (t.slot 0 1).pc.off | _ => 0) = 164 := by decide +kernel

/-- 10 R189: the four 16-byte sectors of a VST are entries of their own. -/
theorem test_vst_sectors : (match exec (.vst 2 1 0) vw with | .next t => (t.slot 0 1).buf.length | _ => 0) = 4 := by decide +kernel

/-- 09 R168: the LFSR from 1. -/
theorem test_lfsr : nextWord 1 = 0xB6DB68A3#32 := by decide +kernel

/-- 02 R29: the CRC-32C of the nine digits. -/
theorem test_crc32c : crc32c [0x31, 0x32, 0x33, 0x34, 0x35, 0x36, 0x37, 0x38, 0x39] = 0xE3069283#32 := by decide +kernel

/-- 09 R165, R169: 1.3125 in b8p4, to nearest and with the word of the LFSR at 1. -/
theorem test_convert : roundTo (.b8 4 false false) 0 false 0 (.fin false 21 (-4)) = 0x42 ∧
    roundTo (.b8 4 false false) 4 false (nextWord 1) (.fin false 21 (-4)) = 0x43 := by decide +kernel

/-- 04 R59: twenty tiles over three walkers. -/
theorem test_walker_shares : (upto 3).map (fun w => (w * 20 / 3, (w + 1) * 20 / 3)) = [(0, 6), (6, 13), (13, 20)] := by decide

/-- 03 R54: core 7 of cluster (3,2), in a gang of three by two clusters at (2,1) with cores 0 and 7, has rank 9. -/
theorem test_rank : rankOf { en := true, pw := 15, ph := 15 }
    (BitVec.ofNat 1024 (2 * 2 ^ 256 + 1 * 2 ^ 260 + 2 * 2 ^ 264 + 1 * 2 ^ 268 + 0x81 * 2 ^ 272)) (16 * clusterAt 3 2 + 7) = 9 := by decide +kernel

/-- 08 R140: AMO.ADD of 1 returns the old value and stores the sum. -/
theorem test_atomic_wraps : atomicOp 0 4 0xFFFFFFFF#64 1 0 = some 0 := by decide +kernel

/-- 17 R262, 18: a token passes to the next member; the counters of the chapter's trace. -/
theorem test_ring_fires : (upto 5).map ({ n := 5, k := 8, x := [(0, 6), (1, 3), (2, 3), (3, 6), (4, 6)] } : Ring).fire.val = [7, 6, 3, 3, 6] := by
  decide +kernel

end Tests
end Sys2Proof
end

section
/-! SUPPORT. Words: the functions of the integer instructions as the tables of 07 give them (07_isa_scalar_control_system.md R113, R115 to
R117). -/

namespace Sys2Proof
namespace Machine

open Safety

/-! ## Counts over the 64 bit numbers -/

/-- The bit numbers from `k` on. -/
theorem count64_le (k : Nat) : count64 (fun i => decide (k ≤ i)) = BitVec.ofNat 64 (64 - k) := by
  rw [count64, ← List.Ico.zero_bot, List.Ico.filter_le, List.Ico.length, Nat.zero_max]

/-- The bit numbers below `k`. -/
theorem count64_lt {k : Nat} (h : k ≤ 64) : count64 (fun i => decide (i < k)) = BitVec.ofNat 64 k := by
  rw [count64, ← List.Ico.zero_bot, List.Ico.filter_lt, List.Ico.length, Nat.min_eq_right h, Nat.sub_zero]

theorem count64_congr {p q : Nat → Bool} (h : ∀ i < 64, p i = q i) : count64 p = count64 q := by
  rw [count64, count64, List.filter_congr fun i hi => h i (List.mem_range.1 hi)]

theorem clzW_eq_count64 (x : W64) : clzW x = count64 fun i => decide (x.toNat < 2 ^ i) := by
  unfold clzW
  split
  · next h =>
    subst h
    rw [count64_congr (q := fun i => decide (0 ≤ i)) fun i _ => by simp, count64_le]
    rfl
  · next h =>
    have hx : x.toNat ≠ 0 := fun e => h (BitVec.eq_of_toNat_eq e)
    have hlt : ∀ i, x.toNat < 2 ^ i ↔ Nat.log2 x.toNat + 1 ≤ i := fun i => by
      rw [← Nat.log2_lt hx, Nat.lt_iff_add_one_le]
    rw [count64_congr fun i _ => decide_eq_decide.2 (hlt i), count64_le, w64, Nat.sub_add_eq, Nat.sub_right_comm]

/-- The low bits of a word are all 0 when its remainder is. -/
theorem mod_two_pow_eq_zero_iff (x : W64) (n : Nat) : x.toNat % 2 ^ n = 0 ↔ ∀ i < n, x.getLsbD i = false := by
  constructor
  · intro h i hi
    have := congrArg (Nat.testBit · i) h
    simpa [Nat.testBit_mod_two_pow, hi, BitVec.getLsbD] using this
  · intro h
    apply Nat.eq_of_testBit_eq
    intro i
    by_cases hi : i < n
    · simpa [Nat.testBit_mod_two_pow, hi, BitVec.getLsbD] using h i hi
    · simp [Nat.testBit_mod_two_pow, hi]

theorem ctzW_eq_count64 (x : W64) : ctzW x = count64 fun i => decide (x.toNat % 2 ^ (i + 1) = 0) := by
  unfold ctzW upto
  cases hf : (List.range 64).find? fun i => x.getLsbD i with
  | none =>
    have hz : ∀ i < 64, x.getLsbD i = false := by simpa using hf
    rw [count64_congr (q := fun i => decide (i < 64)), count64_lt le_rfl]
    · rfl
    · intro i hi
      rw [decide_eq_decide, mod_two_pow_eq_zero_iff]
      exact ⟨fun _ => hi, fun _ k hk => hz k (by omega)⟩
  | some t =>
    obtain ⟨ht, hm, hlow⟩ := List.find?_range_eq_some.1 hf
    have ht64 : t < 64 := List.mem_range.1 hm
    rw [count64_congr (q := fun i => decide (i < t)), count64_lt ht64.le]
    · rfl
    · intro i hi
      rw [decide_eq_decide, mod_two_pow_eq_zero_iff]
      constructor
      · intro h
        by_contra hn
        exact absurd (h t (by omega)) (by simp [ht])
      · exact fun h k hk => by simpa using hlow k (by omega)

theorem popc_eq_length (n v : Nat) : popc n v = ((List.range n).filter fun i => v.testBit i).length := by
  induction n generalizing v with
  | zero => rfl
  | succ n ih =>
    rw [popc, ih, List.range_succ_eq_map, List.filter_cons, List.filter_map, Nat.testBit_zero]
    have hs : ((fun i => v.testBit i) ∘ Nat.succ) = fun i => (v / 2).testBit i := by
      funext i; exact Nat.testBit_succ v i
    rw [hs]
    rcases Nat.mod_two_eq_zero_or_one v with h | h <;> simp [h, Nat.add_comm]

theorem popcW_eq_count64 (x : W64) : popcW x = count64 fun i => x.getLsbD i := by
  rw [popcW, popc_eq_length]
  rfl

/-! ## Bit fields -/

theorem bfxW_eq_extract (p w : Nat) (x : W64) : bfxW p w x = (x.extractLsb' p w).zeroExtend 64 := by
  apply BitVec.eq_of_toNat_eq
  simp [bfxW, w64, Nat.shiftRight_eq_div_pow]

/-- SExt of R21 is the signed value of the low bits. -/
theorem sext_extract (p w : Nat) (x : W64) : sext (x.toNat / 2 ^ p % 2 ^ (w + 1)) (w + 1) = (x.extractLsb' p (w + 1)).toInt := by
  have hp : 2 ^ (w + 1) = 2 * 2 ^ w := by rw [Nat.pow_succ, Nat.mul_comm]
  have half : ∀ y, y < 2 ^ w ↔ 2 * y < 2 ^ (w + 1) := fun y => by omega
  rw [BitVec.toInt_eq_toNat_cond, BitVec.extractLsb'_toNat, Nat.shiftRight_eq_div_pow, sext, Nat.mod_mod, Nat.add_sub_cancel]
  simp only [half]
  push_cast
  rfl

theorem bfxsW_eq_extract (p w : Nat) (x : W64) : bfxsW p (w + 1) x = (x.extractLsb' p (w + 1)).signExtend 64 := by
  rw [bfxsW, sext_extract]
  rfl

theorem getLsbD_bfiW {p w i : Nat} (d a : W64) (hi : i < 64) :
    (bfiW p w d a).getLsbD i = if p ≤ i ∧ i < p + w then a.getLsbD (i - p) else d.getLsbD i := by
  simp only [bfiW, w64, BitVec.getLsbD_or, BitVec.getLsbD_and, BitVec.getLsbD_not, BitVec.getLsbD_ofNat, hi,
    Nat.testBit_mul_two_pow, Nat.testBit_two_pow_sub_one, Nat.testBit_mod_two_pow]
  by_cases h1 : p ≤ i
  · have h3 : i < p + w ↔ i - p < w := by omega
    by_cases h2 : i - p < w
    · simp [h1, h2, h3, BitVec.getLsbD]
    · simp [h2, h3, BitVec.getLsbD]
  · simp [h1]

/-! ## Shifts, sums and comparisons -/

theorem shiftLeft_eq_ofNat (x : W64) (n : Nat) : x <<< n = BitVec.ofNat 64 (x.toNat * 2 ^ n) := by
  apply BitVec.eq_of_toNat_eq
  simp [Nat.shiftLeft_eq]

theorem ushiftRight_eq_ofNat (x : W64) (n : Nat) : x >>> n = BitVec.ofNat 64 (x.toNat / 2 ^ n) := by
  apply BitVec.eq_of_toNat_eq
  rw [BitVec.toNat_ushiftRight, Nat.shiftRight_eq_div_pow, BitVec.toNat_ofNat, Nat.mod_eq_of_lt]
  exact lt_of_le_of_lt (Nat.div_le_self _ _) x.isLt

theorem sshiftRight_eq_ofInt (x : W64) (n : Nat) : x.sshiftRight n = BitVec.ofInt 64 (x.toInt / 2 ^ n) := by
  rw [BitVec.sshiftRight, Int.shiftRight_eq_div_pow]
  push_cast
  rfl

theorem add_signExtend {w : Nat} (x : W64) (k : BitVec w) : x + k.signExtend 64 = BitVec.ofInt 64 (x.toInt + k.toInt) := by
  rw [BitVec.ofInt_add, BitVec.ofInt_toInt]
  rfl

theorem flagW_decide (p : Prop) [Decidable p] : flagW (decide p) = one p := by
  unfold flagW one
  simp

theorem slt64_signExtend {w : Nat} (h : w ≤ 64) (x : W64) (k : BitVec w) :
    flagW (slt64 x (k.signExtend 64)) = one (x.toInt < k.toInt) := by
  rw [slt64, flagW_decide, BitVec.toInt_signExtend_of_le h]

/-- The word of LIH: the immediate over the low 45 bits. -/
theorem lih_word (k : BitVec 19) (x : W64) :
    (k.zeroExtend 64 <<< 45) ||| (x &&& 0x1FFFFFFFFFFF#64) = BitVec.ofNat 64 (k.toNat * 2 ^ 45 + x.toNat % 2 ^ 45) := by
  have hm : x.toNat % 2 ^ 45 < 2 ^ 45 := Nat.mod_lt _ (by decide)
  have hx : x &&& 0x1FFFFFFFFFFF#64 = BitVec.ofNat 64 (x.toNat % 2 ^ 45) := by
    apply BitVec.eq_of_toNat_eq
    rw [BitVec.toNat_ofNat, Nat.mod_eq_of_lt (hm.trans (by decide))]
    exact Nat.and_two_pow_sub_one_eq_mod x.toNat 45
  rw [hx, shiftLeft_eq_ofNat]
  apply BitVec.eq_of_toNat_eq
  rw [Nat.mul_comm k.toNat, Nat.two_pow_add_eq_or_of_lt hm]
  simp [BitVec.toNat_or, Nat.mul_comm]

end Machine
end Sys2Proof
end

section
/-! SUPPORT. What an instruction does, by the body that its meaning issues, and the refusals at decode (05_encoding.md R80, R85, R93). -/

namespace Sys2Proof
namespace Machine

open Safety

/-! ## An instruction by the body that its meaning issues -/

/-- The instruction is neither SIG nor one whose taking is known only by its effect. -/
def Plain (j : Instr) : Prop := isSig j = false ∧ preIssue.isTransfer j = false

/-- A body that leaves `u` and goes on with the next instruction is what a plain instruction does. -/
theorem does_of_body {j : Instr} {s u : State} {body : State → Effect} (he : exec j s = issue j body s) (hj : Plain j)
    (h : Ready j s) (hb : body s = .ok (u, .seq)) : Does j s u .seq := by
  rw [Does, he]
  exact issue_answers h hb nofun (sigStops_seq h hj.1 hj.2)

theorem halts_of_body {j : Instr} {s : State} {e : Stop} {body : State → Effect} (he : exec j s = issue j body s)
    (h : Ready j s) (hb : body s = .error e) : Halts j s e := by
  rw [Halts, he]
  exact issue_halts h hb

/-- With BUDGET passed or out of account, an instruction that decodes to a refused form stops before anything else (05 R85). -/
theorem preIssue_forbidden {j : Instr} {s : State} (hb : s.cur.budg ≠ 0 ∨ s.cur.checked = true ∨ s.cur.handed = true)
    (hf : (forbidden j).isSome = true) : preIssue s j = .error (.trap Cause.illegal none) := by
  have h1 : (decide (s.cur.budg ≠ 0) || s.cur.checked || s.cur.handed) = true := by simpa [or_assoc] using hb
  have h2 : (forbidden j).isNone = false := by rw [Option.isNone_eq_false_iff]; exact hf
  simp only [preIssue, require, h1, h2]
  rfl

theorem halts_of_forbidden {j : Instr} {s : State} {body : State → Effect} (he : exec j s = issue j body s)
    (hf : (forbidden j).isSome = true) (hw : s.wr = []) (hr : s.cur.running = true)
    (hb : s.cur.budg ≠ 0 ∨ s.cur.checked = true ∨ s.cur.handed = true) : Halts j s (.trap Cause.illegal none) := by
  rw [Halts, he]
  exact issue_halts_early hw hr (preIssue_forbidden hb hf)

end Machine
end Sys2Proof
end

section
/-! SUPPORT. What a read of a register, and what a port pops by it, leaves in place (01_notation.md R21; 06_issuing.md R103, R104; 04_placing.md
R64, R67, R70). -/

namespace Sys2Proof
namespace Machine

open Safety

/-! ## What a read of a register leaves (01 R21) -/

/-- The same slot issues in `t`, at the same place of code. -/
structure SamePlace (s t : State) : Prop where
  core : t.curCore = s.curCore
  slot : t.curSlot = s.curSlot
  pc : t.cur.pc = s.cur.pc

theorem SamePlace.refl (s : State) : SamePlace s s := ⟨rfl, rfl, rfl⟩

theorem SamePlace.trans {s t u : State} (h : SamePlace s t) (g : SamePlace t u) : SamePlace s u :=
  ⟨g.core.trans h.core, g.slot.trans h.slot, g.pc.trans h.pc⟩

/-- What leaves the cores alone leaves the current slot alone. -/
theorem SamePlace.of_cores {s t : State} (hk : t.cores = s.cores) (hc : t.curCore = s.curCore) (hn : t.curSlot = s.curSlot) :
    SamePlace s t :=
  ⟨hc, hn, by simp only [State.cur, State.slot, State.core, hk, hc, hn]⟩

theorem SamePlace.modCur (s : State) (f : Slot → Slot) (hf : (f s.cur).pc = s.cur.pc := by rfl) :
    SamePlace s (s.modCur f) :=
  ⟨rfl, rfl, by rw [State.cur_modCur, hf]⟩

theorem SamePlace.modCore (s : State) (c : Nat) (f : Core → Core) (hf : (f (s.core c)).slots = (s.core c).slots := by rfl) :
    SamePlace s (s.modCore c f) :=
  ⟨rfl, rfl, congrArg Slot.pc (State.slot_modCore s c _ _ f hf)⟩

theorem l1Invalidate_samePlace (s : State) (c : Nat) : SamePlace s (s.l1Invalidate c) := by
  have fold : ∀ (f : Core → Core) (l : List Nat), (∀ k, (f k).slots = k.slots) → ∀ s : State,
      SamePlace s (l.foldl (fun s o => s.modCore o f) s) := by
    intro f l hf
    induction l with
    | nil => exact SamePlace.refl
    | cons o l ih => exact fun s => (SamePlace.modCore s o f (hf _)).trans (ih _)
  unfold State.l1Invalidate
  split
  · exact fold _ _ (by exact fun _ => rfl) s
  · exact SamePlace.modCore s c _

theorem qpay_samePlace (s : State) : SamePlace s s.qpay.1 := by
  unfold State.qpay
  dsimp only
  split
  · exact SamePlace.modCur s (fun t => { t with qpe := true })
  · exact SamePlace.modCur s (fun t => { t with qpos := t.qpos + 8 })

theorem takeRecord_samePlace {s t : State} {r : CRec} (h : s.takeRecord = some (r, t)) : SamePlace s t := by
  unfold State.takeRecord at h
  split at h <;> cases h
  exact (SamePlace.modCore s _ _).trans (SamePlace.modCur _ _)

theorem qcmp_samePlace (s : State) : SamePlace s s.qcmp.1 := by
  unfold State.qcmp
  split
  · dsimp only
    split
    · exact (SamePlace.modCur s _).trans (l1Invalidate_samePlace _ _)
    · exact SamePlace.modCur s _
  · split
    · exact SamePlace.modCur s (fun t => { t with qce := true })
    · next h => exact (takeRecord_samePlace h).trans (SamePlace.modCur _ (fun t => { t with bound := some (_, 1), qce := false }))

/-! ### A read of qtile takes from a walker (04 R64, R67, R70) -/

theorem takeAt_samePlace (s : State) (r : BitVec 1024) (k n : Nat) : SamePlace s (s.takeAt r k n).2 := by
  unfold State.takeAt
  split <;> exact SamePlace.of_cores rfl rfl rfl

theorem cleaveAt_samePlace {s t : State} {r : BitVec 1024} {v w : Nat × Nat × Walker} {m : Nat}
    (h : s.cleaveAt r v w = .ok (t, m)) : SamePlace s t := by
  unfold State.cleaveAt at h
  split at h <;> cases h
  exact SamePlace.of_cores rfl rfl rfl

theorem nearestTries_samePlace (s : State) (r : BitVec 1024) (t : Nat × Nat × Walker) (l : List (Nat × Nat × Walker)) :
    SamePlace s (nearestTries s r t l).1 := by
  induction l with
  | nil => exact SamePlace.refl s
  | cons v q ih =>
    unfold nearestTries
    split
    · next h => exact cleaveAt_samePlace h
    · exact SamePlace.refl s
    · exact ih

theorem cleaveNearest_samePlace (s : State) (r : BitVec 1024) (t : Nat × Nat × Walker) : SamePlace s (s.cleaveNearest r t).1 := by
  unfold State.cleaveNearest
  split
  · exact SamePlace.refl s
  · dsimp only [State.nextFree]
    refine SamePlace.trans ?_ (nearestTries_samePlace _ r t _)
    exact SamePlace.of_cores rfl rfl rfl

theorem growBuffer_samePlace {s t : State} {l : List Entry} (h : growBuffer s l = .ok t) : SamePlace s t := by
  unfold growBuffer at h
  dsimp only at h
  split at h
  · cases h
  · split at h <;> cases h
    exact SamePlace.modCur s _

theorem addEntry_samePlace {s t : State} {ea : W64} {loc : Loc} {o : Order} {sc : Scope} {a : Act}
    (h : addEntry s ea loc o sc a = .ok t) : SamePlace s t :=
  (SamePlace.modCore s _ _).trans (growBuffer_samePlace h)

theorem walkRead_samePlace {s t : State} {kind : Nat} {act : State → State × W64} {v : W64}
    (ha : SamePlace s (act s).1) (h : s.walkRead kind act = .ok (t, v)) : SamePlace s t := by
  unfold State.walkRead at h
  dsimp only at h
  split at h
  · split at h <;> cases h
    exact SamePlace.modCur s _
  · split at h <;> cases h
    · exact ha.trans (SamePlace.modCur _ _)
    · exact ha

theorem bind_ok {ε α β : Type} {x : Except ε α} {f : α → Except ε β} {b : β} (h : x >>= f = .ok b) :
    ∃ a, x = .ok a ∧ f a = .ok b := by
  cases x with
  | error e => cases h
  | ok a => exact ⟨a, rfl, h⟩

theorem wknx_samePlace {s t : State} {ask : Bool} {v : W64} (h : s.wknx ask = .ok (t, v)) : SamePlace s t := by
  unfold State.wknx at h
  split at h
  · exact walkRead_samePlace (SamePlace.refl s) h
  · next k n w r _ =>
    dsimp only at h
    obtain ⟨_, -, h⟩ := bind_ok h
    obtain ⟨⟨u, x⟩, hr, h⟩ := bind_ok h
    have hu : SamePlace s u := by
      refine walkRead_samePlace ?_ hr
      have ht := takeAt_samePlace s r k n
      split
      · next e => rw [e] at ht; exact ht
      · next e =>
        rw [e] at ht
        split
        · next u' _ =>
          have hc := (cleaveNearest_samePlace u' r (k, n, w)).trans (takeAt_samePlace _ r k n)
          split
          · next e' => rw [e'] at hc; exact ht.trans hc
          · next e' => rw [e'] at hc; exact ht.trans hc
        · exact ht
    dsimp only at h
    split at h
    · cases h; exact hu
    · obtain ⟨q, hq, h⟩ := bind_ok h
      cases h
      exact hu.trans (addEntry_samePlace hq)

/-- A read of a register, and what a port pops by it, leave the place of code. -/
theorem readG_samePlace {s t : State} {n : Reg} {x : W64} (h : readG s n = .ok (t, x)) : SamePlace s t := by
  unfold readG at h
  split at h
  · cases h; exact SamePlace.refl s
  · have e : s.qpay.1 = t := congrArg Prod.fst (Except.ok.inj h)
    exact e ▸ qpay_samePlace s
  · cases h; exact SamePlace.refl s
  · have e : s.qcmp.1 = t := congrArg Prod.fst (Except.ok.inj h)
    exact e ▸ qcmp_samePlace s
  · exact wknx_samePlace h
  · cases h; exact SamePlace.refl s

end Machine
end Sys2Proof
end

section
/-! SUPPORT. A trap of an ordinary task, in the four steps of 22_interruption.md R314, with its record (R315, R317). -/

namespace Sys2Proof
namespace Machine

open Safety

/-! ## What an abort and a trap leave alone (22 R314) -/

/-- Every slot is as it was, and so are memory, the partitions and TIME. -/
structure SlotsKept (s t : State) : Prop where
  mem : t.mem = s.mem
  wr : t.wr = s.wr
  parts : t.parts = s.parts
  time : t.time = s.time
  slots : ∀ d m, t.slot d m = s.slot d m

/-- What lies apart from slot `n` of the cores of `c`'s cluster is as it was. -/
structure Spares (c n : Nat) (s t : State) : Prop where
  mem : t.mem = s.mem
  wr : t.wr = s.wr
  parts : t.parts = s.parts
  time : t.time = s.time
  others : ∀ d m, clusterOf d ≠ clusterOf c ∨ m ≠ n → t.slot d m = s.slot d m

theorem SlotsKept.refl (s : State) : SlotsKept s s := ⟨rfl, rfl, rfl, rfl, fun _ _ => rfl⟩

theorem SlotsKept.trans {s t u : State} (h : SlotsKept s t) (g : SlotsKept t u) : SlotsKept s u where
  mem := g.mem.trans h.mem
  wr := g.wr.trans h.wr
  parts := g.parts.trans h.parts
  time := g.time.trans h.time
  slots d m := (g.slots d m).trans (h.slots d m)

theorem SlotsKept.modCore (s : State) (k : Nat) (f : Core → Core) (hf : (f (s.core k)).slots = (s.core k).slots) :
    SlotsKept s (s.modCore k f) :=
  ⟨rfl, rfl, rfl, rfl, fun d m => State.slot_modCore s k d m f hf⟩

theorem SlotsKept.spares {s t : State} (h : SlotsKept s t) (c n : Nat) : Spares c n s t :=
  ⟨h.mem, h.wr, h.parts, h.time, fun d m _ => h.slots d m⟩

theorem Spares.trans {c n : Nat} {s t u : State} (h : Spares c n s t) (g : Spares c n t u) : Spares c n s u where
  mem := g.mem.trans h.mem
  wr := g.wr.trans h.wr
  parts := g.parts.trans h.parts
  time := g.time.trans h.time
  others d m hd := (g.others d m hd).trans (h.others d m hd)

theorem Spares.setSlot (s : State) (c n : Nat) (u : Slot) : Spares c n s (s.setSlot c n u) := by
  refine ⟨rfl, rfl, rfl, rfl, fun d m hd => ?_⟩
  rw [State.slot_setSlot, if_neg]
  rintro ⟨rfl, rfl⟩
  simp at hd

theorem Spares.of_led {c n : Nat} {s t : State} (h : Led c n s t) : Spares c n s t where
  mem := by rw [← h.rest]
  wr := by rw [← h.rest]
  parts := by rw [← h.rest]
  time := by rw [← h.rest]
  others d m hd := h.apart d m hd.symm

theorem Spares.corePart? {c n : Nat} {s t : State} (h : Spares c n s t) (k : Nat) : t.corePart? k = s.corePart? k := by
  simp only [State.corePart?, State.partOf?, h.parts]

theorem Spares.part {c n : Nat} {s t : State} (h : Spares c n s t) (p : Nat) : t.part p = s.part p := by
  simp only [State.part, h.parts]

theorem Spares.placeWord {c n : Nat} {s t : State} (h : Spares c n s t) (k : Nat) : t.placeWord k = s.placeWord k := by
  simp only [State.placeWord, h.corePart?, h.part]

/-! ## Transfers that are retired (12 R213) -/

/-- A core's slots and run queue are as they were. -/
def QueueKept (k l : Core) : Prop := l.slots = k.slots ∧ l.runq = k.runq

theorem QueueKept.trans {k l m : Core} (h : QueueKept k l) (g : QueueKept l m) : QueueKept k m :=
  ⟨g.1.trans h.1, g.2.trans h.2⟩

theorem advanceCpdn_queueKept (fuel : Nat) (k : Core) (chan : Nat) : QueueKept k (advanceCpdn fuel k chan) := by
  induction fuel generalizing k with
  | zero => exact ⟨rfl, rfl⟩
  | succ fuel ih =>
    unfold advanceCpdn
    dsimp only
    split
    · exact .trans ⟨rfl, rfl⟩ (ih _)
    · exact ⟨rfl, rfl⟩

theorem retire_queueKept (k : Core) (chan id : Nat) : QueueKept k (k.retire chan id) :=
  .trans ⟨rfl, rfl⟩ (advanceCpdn_queueKept _ _ chan)

theorem retireTie_queueKept (k : Core) (t : MsgTie) : QueueKept k (k.retireTie t) := by
  cases t with
  | none => exact ⟨rfl, rfl⟩
  | transfer chan id => exact retire_queueKept k chan id

theorem dropUnreleased_queueKept (k : Core) (n task : Nat) : QueueKept k (k.dropUnreleased n task) := by
  have fold : ∀ (l : List CpEntry) (k : Core), QueueKept k (l.foldl (fun k e => k.retire e.chan e.xid) k) := by
    intro l
    induction l with
    | nil => exact fun _ => ⟨rfl, rfl⟩
    | cons e l ih => exact fun k => (retire_queueKept k e.chan e.xid).trans (ih _)
  exact .trans ⟨rfl, rfl⟩ (fold _ _)

/-! ## The abort of a task (22 R314 step 1) -/

/-- The tiles of an aborted task return to their walkers, which are no core's. -/
theorem returnTiles_clusters (l : List (Nat × Nat × Nat)) (s : State) :
    ∃ k, l.foldl (fun s e => s.returnTile e.1 e.2.1 e.2.2) s = { s with clusters := k } := by
  induction l generalizing s with
  | nil => exact ⟨s.clusters, rfl⟩
  | cons e l ih =>
    obtain ⟨k, hk⟩ : ∃ k, s.returnTile e.1 e.2.1 e.2.2 = { s with clusters := k } := by
      unfold State.returnTile
      split
      · exact ⟨_, rfl⟩
      · exact ⟨s.clusters, rfl⟩
    rw [List.foldl_cons, hk]
    exact ih _

/-- An abort: tiles, commands and records go back, which leaves every slot and the run queue; the followers leave; the slot is
written. -/
theorem abortTask_eq (s : State) (c n : Nat) : ∃ u : State, SlotsKept s u ∧ (u.core c).runq = (s.core c).runq ∧
    s.abortTask c n = (u.dropFollowers c n).setSlot c n ((s.abortTask c n).slot c n) := by
  have hs : (s.abortTask c n).slot c n = _ := State.slot_setSlot_self _ _ _ _
  rw [hs]
  obtain ⟨k, hk⟩ := returnTiles_clusters (tileEntries (s.slot c n).buf) s
  have hq := dropUnreleased_queueKept (s.core c) n (s.slot c n).task
  refine ⟨State.modCore { s with clusters := k } c fun x => (x.dropUnreleased n (s.slot c n).task).giveBack (s.slot c n),
    ?_, ?_, ?_⟩
  · exact .trans (t := { s with clusters := k }) ⟨rfl, rfl, rfl, rfl, fun _ _ => rfl⟩ (.modCore _ c _ hq.1)
  · rw [State.core_modCore_self]
    exact hq.2
  · rw [← hk]
    rfl

theorem abortTask_spares (s : State) (c n : Nat) : Spares c n s (s.abortTask c n) := by
  obtain ⟨u, hu, -, h⟩ := abortTask_eq s c n
  rw [h]
  exact ((hu.spares c n).trans (.of_led (dropFollowers_led c n c rfl u))).trans (.setSlot _ c n _)

theorem abortTask_runq (s : State) (c n : Nat) : ((s.abortTask c n).core c).runq = (s.core c).runq := by
  obtain ⟨u, -, hq, h⟩ := abortTask_eq s c n
  have hl := congrArg Core.runq ((dropFollowers_led c n c rfl u).core c)
  rw [h, State.setSlot, State.core_setCore_self]
  exact hl.trans hq

/-! ## The message of a trapping task (22 R314 step 2) -/

theorem SlotsKept.of_queueKept (s : State) (c : Nat) (f : Core → Core) (hf : QueueKept (s.core c) (f (s.core c))) :
    SlotsKept s (s.modCore c f) ∧ ((s.modCore c f).core c).runq = (s.core c).runq :=
  ⟨.modCore s c f hf.1, by rw [State.core_modCore_self, hf.2]⟩

theorem freeMsg_kept (s : State) (c : Nat) (t : Slot) :
    SlotsKept s (s.freeMsg c t) ∧ ((s.freeMsg c t).core c).runq = (s.core c).runq := by
  unfold State.freeMsg
  split
  · split
    · exact SlotsKept.of_queueKept s c (fun k => k.inFree _) ⟨rfl, rfl⟩
    · exact ⟨.refl s, rfl⟩
  · exact ⟨.refl s, rfl⟩

theorem returnMsg_slotsKept (s : State) (c : Nat) (t : Slot) (f : Msg → Msg) : SlotsKept s (s.returnMsg c t f) := by
  unfold State.returnMsg
  split
  · exact .modCore s c _ rfl
  · exact .refl s

theorem returnMsg_runq (s : State) (c : Nat) {t : Slot} {m : Msg} (f : Msg → Msg) (h : t.msg = some m) :
    ∃ off, ((s.returnMsg c t f).core c).runq = enqueueHead (s.core c).runq { msg := f m, off := off } := by
  refine ⟨((s.core c).inbox.find? fun e => e.msg == some m && !e.freed).elim 0 (·.off), ?_⟩
  unfold State.returnMsg
  simp only [h, State.core_modCore_self]

/-! ## The park of a trap (22 R314 steps 1, 2 and 4) -/

/-- A trap parks: after the abort the message returns or is consumed, which leaves every slot, and the slot is marked. -/
theorem trapPark_eq (s : State) (c n cause code : Nat) (addr : W64) :
    ∃ (u : State) (msg : Option Msg), SlotsKept (s.abortTask c n) u ∧
    s.trapPark c n cause code addr = u.modSlot c n (fun x => { x with
      parked := true, tcause := tcauseWord (!(s.slot c n).repl) code n cause, taddr := addr, msg := msg,
      repl := (s.slot c n).repl }) ∧
    ((s.slot c n).repl = true → ∀ m, (s.slot c n).msg = some m → ∃ off, (u.core c).runq = enqueueHead (s.core c).runq
      { msg := { m with held := true, tcause := tcauseWord (!(s.slot c n).repl) code n cause, taddr := addr }, off := off }) ∧
    ((s.slot c n).repl = false → (u.core c).runq = (s.core c).runq) := by
  unfold State.trapPark
  cases hr : (s.slot c n).repl with
  | true =>
    simp only [hr, Bool.not_true, Bool.false_eq_true, if_false, Bool.false_and, Bool.not_false]
    refine ⟨_, _, returnMsg_slotsKept _ c _ _, rfl, fun _ m hm => ?_, nofun⟩
    rw [← abortTask_runq s c n]
    exact returnMsg_runq _ c _ hm
  | false =>
    obtain ⟨hv, hq⟩ := freeMsg_kept (s.abortTask c n) c (s.slot c n)
    rw [abortTask_runq] at hq
    simp only [hr, Bool.not_false, Bool.not_true, if_true, Bool.true_and]
    generalize (s.abortTask c n).freeMsg c (s.slot c n) = v at hv hq ⊢
    split
    · split
      · next m _ =>
        obtain ⟨hr, hrq⟩ := SlotsKept.of_queueKept v c (fun k => k.retireTie m.tie) (retireTie_queueKept _ _)
        exact ⟨_, _, hv.trans hr, rfl, nofun, fun _ => hrq.trans hq⟩
      · exact ⟨_, _, hv, rfl, nofun, fun _ => hq⟩
    · exact ⟨_, _, hv, rfl, nofun, fun _ => hq⟩

theorem trapPark_spares (s : State) (c n cause code : Nat) (addr : W64) : Spares c n s (s.trapPark c n cause code addr) := by
  obtain ⟨u, msg, hu, h, -, -⟩ := trapPark_eq s c n cause code addr
  rw [h]
  exact ((abortTask_spares s c n).trans (hu.spares c n)).trans (.setSlot _ c n _)

/-- The slot that a trap parks: as its abort left it, but for what the trap says of it. -/
theorem trapPark_slot (s : State) (c n cause code : Nat) (addr : W64) : ∃ msg, (s.trapPark c n cause code addr).slot c n =
    { (s.abortTask c n).slot c n with
      parked := true, tcause := tcauseWord (!(s.slot c n).repl) code n cause, taddr := addr, msg := msg,
      repl := (s.slot c n).repl } := by
  obtain ⟨u, msg, hu, h, -, -⟩ := trapPark_eq s c n cause code addr
  exact ⟨msg, by rw [h, State.slot_modSlot_self, hu.slots]⟩

theorem runq_modSlot (s : State) (c n : Nat) (f : Slot → Slot) : ((s.modSlot c n f).core c).runq = (s.core c).runq := by
  rw [State.modSlot, State.setSlot, State.core_setCore_self]
  rfl

/-- The message of a replayable task is at the head of its level, held. -/
theorem trapPark_runq_returned {s : State} {c n : Nat} {m : Msg} (cause code : Nat) (addr : W64) (hr : (s.slot c n).repl = true)
    (hm : (s.slot c n).msg = some m) :
    ∃ off, ((s.trapPark c n cause code addr).core c).runq = enqueueHead (s.core c).runq
      { msg := { m with held := true, tcause := tcauseWord (!(s.slot c n).repl) code n cause, taddr := addr }, off := off } := by
  obtain ⟨u, msg, -, h, hret, -⟩ := trapPark_eq s c n cause code addr
  rw [h, runq_modSlot]
  exact hret hr m hm

/-- The message of a task that is no longer replayable does not return. -/
theorem trapPark_runq_consumed {s : State} {c n : Nat} (cause code : Nat) (addr : W64) (hr : (s.slot c n).repl = false) :
    ((s.trapPark c n cause code addr).core c).runq = (s.core c).runq := by
  obtain ⟨u, msg, -, h, -, hcon⟩ := trapPark_eq s c n cause code addr
  rw [h, runq_modSlot, hcon hr]

/-! ## The record of a trap (22 R315, R317) -/

/-- With an ordinary entry free and no debugger attached, a record enters its partition's trap queue. -/
theorem report_eq {s : State} {c p : Nat} (r : TRec) (hp : s.corePart? c = some p) (hd : (s.part p).debugger = false)
    (ho : (s.part p).ordinary < 252) : s.report c r = s.setPart p { s.part p with
      trapq := enterRec { r with core := c, at_ := s.time, reserve := false } (s.part p).trapq } := by
  simp only [State.report, hp, State.postRec, hd, ho, Bool.false_eq_true, false_and, if_false, if_true]

theorem takeTrap_plain {s : State} {c n : Nat} (cause code : Nat) (addr : W64) (h1 : s.privileged c n = false)
    (h2 : s.primaryOf? c = none) (h3 : s.mirrorOf? c = none) :
    s.takeTrap c n cause code addr = s.trapNow c n cause code addr (s.slot c n).pc false := by
  simp only [State.takeTrap, h1, h2, h3]
  rfl

theorem pcWord_eq (pc : Pc) : pcWord pc = routine pc % 65536 := by
  unfold pcWord routine ofBool
  cases pc.carried <;> simp

theorem ofBool_not_mul (b : Bool) (k : Nat) : ofBool (!b) * k = if b then 0 else k := by
  cases b <;> simp [ofBool]

/-- The first word of a trap's record: TYPE 1, not fatal. -/
theorem mkRec_trap_w0 (repl : Bool) (n cause code : Nat) (msgid : W32) (pc : Nat) (place addr detail : W64) :
    (mkRec 1 (ofBool false) (ofBool (!repl)) n cause code msgid pc place addr detail).w0 = BitVec.ofNat 64
      (2 ^ 62 + (if repl then 0 else 2 ^ 59) + n % 8 * 2 ^ 56 + cause % 256 * 2 ^ 48 + code % 65536 * 2 ^ 32 + msgid.toNat) := by
  rw [← ofBool_not_mul]
  simp only [mkRec, w64, ofBool, Bool.false_eq_true, if_false, Nat.zero_mul, Nat.one_mul, Nat.add_zero]

/-- A trap of an ordinary task, in its four steps. -/
theorem takeTrap_trapped {s : State} {c n p : Nat} (cause code : Nat) (addr : W64) (h1 : s.privileged c n = false)
    (h2 : s.primaryOf? c = none) (h3 : s.mirrorOf? c = none) (hp : s.corePart? c = some p)
    (hd : (s.part p).debugger = false) (ho : (s.part p).ordinary < 252) :
    Trapped s c n p cause code addr (s.takeTrap c n cause code addr) := by
  have hk := trapPark_spares s c n cause code addr
  have hret := fun m => trapPark_runq_returned (s := s) (c := c) (n := n) (m := m) cause code addr
  have hcon := trapPark_runq_consumed (s := s) (c := c) (n := n) cause code addr
  obtain ⟨msg, hslot⟩ := trapPark_slot s c n cause code addr
  have habort : (s.abortTask c n).slot c n = _ := State.slot_setSlot_self _ _ _ _
  rw [habort] at hslot
  have hpart := hk.part p
  rw [takeTrap_plain cause code addr h1 h2 h3, State.trapNow,
    report_eq _ ((hk.corePart? c).trans hp) (by rw [hpart, hd]) (by rw [hpart]; exact ho), hpart, hk.placeWord, hk.time]
  generalize s.trapPark c n cause code addr = v at hk hslot hret hcon ⊢
  -- the record that is posted changes the partition alone
  have hs : ∀ d m k, (v.setPart p k).slot d m = v.slot d m := fun _ _ _ => rfl
  have hc : ∀ d k, (v.setPart p k).core d = v.core d := fun _ _ => rfl
  constructor
  case others => exact fun d m _ hdm => hk.others d m hdm
  case memory => exact ⟨hk.mem, hk.wr⟩
  case posted =>
    rw [State.part_setPart_self]
    refine ⟨_, rfl, rfl, rfl, rfl, rfl, ?_, ?_, rfl, rfl⟩
    · exact mkRec_trap_w0 _ n cause code _ (pcWord (s.slot c n).pc) (s.placeWord c) addr 0
    · simp only [mkRec, pcWord_eq, Nat.mod_mod, w64]
  case message =>
    intro hr m hm
    rw [hc, hs, hslot]
    exact hret m hr hm
  case consumed => exact hcon
  all_goals rw [hs, hslot]
  case tcause => simp only [tcauseWord, ofBool_not_mul, w64]
  case registers => exact ⟨rfl, rfl, rfl⟩
  case parked => exact ⟨rfl, rfl⟩
  case discarded => exact ⟨rfl, rfl, rfl, rfl, rfl, rfl, rfl, rfl, rfl, rfl, rfl⟩

/-- What enters memory at the end of a move is the same where nothing was written. -/
theorem trapped_settleMem {s t : State} {c n p cause code : Nat} {addr : W64} (h : Trapped s c n p cause code addr t)
    (hw : s.wr = []) : Trapped s c n p cause code addr (State.settleMem { t with mem := s.mem, plat := s.plat }) where
  parked := h.parked
  tcause := h.tcause
  taddr := h.taddr
  registers := h.registers
  restored := h.restored
  discarded := h.discarded
  message := h.message
  consumed := h.consumed
  posted := h.posted
  memory := by
    have ht : t.wr = [] := h.memory.2.trans hw
    exact ⟨by rw [State.settleMem_mem, ht]; rfl, hw.symm⟩
  others := h.others

end Machine
end Sys2Proof
end

section
/-! PROOF. The integer instructions of one source, multiply and divide: O2 and O3. -/

namespace Sys2Proof
namespace Machine

open Safety

/-! ## Instructions of one source (07 R113, R115 to R117) -/

theorem setG_settable {s : State} {d : Reg} (x : W64) (h : settable s d = true) : setG s d x = .ok (putG s d x, .seq) := by
  rw [setG, writeG_settable x h]
  rfl

/-- The instructions of `unaryForm` are plain, and their meaning computes the form's function of its source. -/
theorem exec_unaryForm {j : Instr} {d a : Reg} {f : W64 → W64} (h : unaryForm j = some (d, a, f)) :
    Plain j ∧ ∃ g, (∀ s, exec j s = issue j (bodyA d a g) s) ∧ ∀ x, g x = f x := by
  unfold unaryForm at h
  split at h <;> cases h <;> refine ⟨⟨rfl, rfl⟩, ?_⟩
  · exact ⟨clzW, fun _ => rfl, clzW_eq_count64⟩
  · exact ⟨ctzW, fun _ => rfl, ctzW_eq_count64⟩
  · exact ⟨popcW, fun _ => rfl, popcW_eq_count64⟩
  · exact ⟨_, fun _ => rfl, bfxW_eq_extract _ _⟩
  · exact ⟨_, fun _ => rfl, bfxsW_eq_extract _ _⟩
  · exact ⟨_, fun _ => rfl, fun x => add_signExtend x _⟩
  · exact ⟨_, fun _ => rfl, fun _ => rfl⟩
  · exact ⟨_, fun _ => rfl, fun _ => rfl⟩
  · exact ⟨_, fun _ => rfl, fun _ => rfl⟩
  · exact ⟨_, fun _ => rfl, fun x => shiftLeft_eq_ofNat x _⟩
  · exact ⟨_, fun _ => rfl, fun x => ushiftRight_eq_ofNat x _⟩
  · exact ⟨_, fun _ => rfl, fun x => sshiftRight_eq_ofInt x _⟩
  · exact ⟨_, fun _ => rfl, fun x => slt64_signExtend (by decide) x _⟩
  · exact ⟨_, fun _ => rfl, fun x => add_signExtend x _⟩
  · exact ⟨_, fun _ => rfl, fun x => shiftLeft_eq_ofNat x _⟩

theorem unary_does {j : Instr} {d a : Reg} {f : W64 → W64} {s s1 : State} {x : W64} (hj : unaryForm j = some (d, a, f))
    (h : Ready j s) (ha : readG s a = .ok (s1, x)) (hd : settable s1 d = true) : Does j s (putG s1 d (f x)) .seq := by
  obtain ⟨hp, g, he, hg⟩ := exec_unaryForm hj
  exact does_of_body (he s) hp h (by rw [← hg]; exact bodyA_ok g ha hd)

theorem bodyBfi_ok {s s1 s2 : State} {d a : Reg} {p w : Nat} {x y : W64} (ha : readG s a = .ok (s1, x))
    (hy : readG s1 d = .ok (s2, y)) (hd : settable s2 d = true) :
    bodyBfi d a p w s = .ok (putG s2 d (bfiW p w y x), .seq) := by
  simp only [bodyBfi, ha, hy, setG_settable _ hd, Bind.bind, Except.bind]

/-- The word whose bits are those of R115 is the one that BFI computes. -/
theorem bfiW_unique {p w : Nat} {x y z : W64}
    (hz : ∀ i < 64, z.getLsbD i = if p ≤ i ∧ i < p + w then x.getLsbD (i - p) else y.getLsbD i) : bfiW p w y x = z := by
  apply BitVec.eq_of_getLsbD_eq
  intro i hi
  rw [getLsbD_bfiW y x hi, hz i hi]

theorem bodyLih_ok {s s1 : State} {d : Reg} {k : BitVec 19} {x : W64} (hx : readG s d = .ok (s1, x)) (hd : settable s1 d = true) :
    bodyLih d k s = .ok (putG s1 d (BitVec.ofNat 64 (k.toNat * 2 ^ 45 + x.toNat % 2 ^ 45)), .seq) := by
  simp only [bodyLih, hx, Bind.bind, Except.bind, lih_word, setG_settable _ hd]

theorem bodyAdr_ok {s : State} {d : Reg} {k : BitVec 19} {t : Nat} (ht : (t : Int) = s.cur.pc.off + k.toInt) (h : t ≤ 32767)
    (hd : settable s d = true) :
    bodyAdr d k s = .ok (putG s d (BitVec.ofNat 64 ((if s.cur.pc.carried then 32768 else 0) + t)), .seq) := by
  have hr : ¬ ((t : Int) < 0 ∨ 32767 < (t : Int)) := by omega
  have hc : ofBool s.cur.pc.carried * 32768 = if s.cur.pc.carried then 32768 else 0 := by cases s.cur.pc.carried <;> rfl
  simp only [bodyAdr, ← ht, if_neg hr, Int.toNat_natCast, hc, w64, setG_settable _ hd]

theorem bodyAdr_range {s : State} {d : Reg} {k : BitVec 19} (h : s.cur.pc.off + k.toInt < 0 ∨ 32767 < s.cur.pc.off + k.toInt) :
    bodyAdr d k s = .error (.trap Cause.illegal none) := by
  simp only [bodyAdr, if_pos h]
  rfl

/-- Settles O2: each meaning issues a body whose value is the table's. -/
theorem aluOneSource : Obligations.AluOneSource := by
  unfold Obligations.AluOneSource
  refine ⟨?_, ?_, ?_, ?_, ?_, ?_, ?_⟩
  · intro j d a f s s1 x hj h ha hd
    exact unary_does hj h ha hd
  · intro d a p w s s1 s2 x y z h ha hy hd hz
    have hv : bfiW p.toNat (w.toNat + 1) y x = z := bfiW_unique hz
    rw [← hv]
    exact does_of_body rfl ⟨rfl, rfl⟩ h (bodyBfi_ok ha hy hd)
  · intro d k s h hd
    exact does_of_body rfl ⟨rfl, rfl⟩ h (setG_settable _ hd)
  · intro d k s h hd
    exact does_of_body rfl ⟨rfl, rfl⟩ h (setG_settable _ hd)
  · intro d k s s1 x h hx hd
    exact does_of_body rfl ⟨rfl, rfl⟩ h (bodyLih_ok hx hd)
  · intro d k s t h hd ht hr
    exact does_of_body rfl ⟨rfl, rfl⟩ h (bodyAdr_ok ht hr hd)
  · intro d k s h hr
    exact halts_of_body rfl h (bodyAdr_range hr)

/-! ## Multiply and divide (07 R114) -/

theorem mulW_eq_ofNat (x y : W64) : x * y = BitVec.ofNat 64 (x.toNat * y.toNat) := by
  apply BitVec.eq_of_toNat_eq
  simp

/-- The quotient that leaves the range wraps to the dividend, so that R114's exception agrees with the wrapped quotient. -/
theorem divW_eq (x y : W64) : divW x y = if y = 0 then 0xFFFFFFFFFFFFFFFF#64
    else if x.toInt = -2 ^ 63 ∧ y.toInt = -1 then x else BitVec.ofInt 64 (x.toInt.tdiv y.toInt) := by
  unfold divW
  split
  · rfl
  · split
    · next h =>
      have hx : x = BitVec.ofInt 64 (-2 ^ 63) := by rw [← h.1, BitVec.ofInt_toInt]
      rw [h.1, h.2, hx]
      decide
    · rfl

theorem remW_eq (x y : W64) : remW x y = if y = 0 then x
    else if x.toInt = -2 ^ 63 ∧ y.toInt = -1 then 0 else BitVec.ofInt 64 (x.toInt.tmod y.toInt) := by
  unfold remW
  split
  · rfl
  · split
    · next h => rw [h.1, h.2]; decide
    · rfl

/-- The instructions of `mulForm` are plain long-latency ones with the one destination, and their meaning computes the form's
function. -/
theorem exec_mulForm {j : Instr} {d a b : Reg} {la : BitVec 4} {f : W64 → W64 → W64} (h : mulForm j = some (d, a, b, la, f)) :
    Plain j ∧ (lookahead j).isSome = true ∧ (uses j).gdst = [d.toNat] ∧
      ∃ g, (∀ s, exec j s = issue j (bodyLate d a b la.toNat g) s) ∧ ∀ x y, g x y = f x y := by
  unfold mulForm at h
  split at h <;> cases h <;> refine ⟨⟨rfl, rfl⟩, rfl, rfl, ?_⟩
  · exact ⟨_, fun _ => rfl, mulW_eq_ofNat⟩
  · exact ⟨mulhW, fun _ => rfl, fun _ _ => rfl⟩
  · exact ⟨mulhnW, fun _ => rfl, fun _ _ => rfl⟩
  · exact ⟨divW, fun _ => rfl, divW_eq⟩
  · exact ⟨divnW, fun _ => rfl, fun _ _ => rfl⟩
  · exact ⟨remW, fun _ => rfl, remW_eq⟩
  · exact ⟨remnW, fun _ => rfl, fun _ _ => rfl⟩

/-- A long-latency instruction with a port as destination is refused at decode (05 R80 case 2). -/
theorem forbidden_of_port_dest {j : Instr} {d : Nat} (hl : (lookahead j).isSome = true) (hd : (uses j).gdst = [d]) (h : 28 ≤ d) :
    (forbidden j).isSome = true := by
  have hp : ((lookahead j).isSome && (uses j).gdst.any fun r => decide (28 ≤ r)) = true := by simp [hl, hd, h]
  simp only [forbidden, hp, if_true]
  split <;> rfl

/-- Settles O3: the table's cases of division are those of the wrapped quotient and remainder. -/
theorem multiplyDivide : Obligations.MultiplyDivide := by
  unfold Obligations.MultiplyDivide
  intro j d a b la f s hj
  obtain ⟨hp, hl, hd, g, he, hg⟩ := exec_mulForm hj
  constructor
  · intro s1 s2 x y h ha hb
    exact does_of_body (he s) hp h (by rw [← hg]; exact bodyLate_ok g ha hb)
  · intro h28 hw hr hbudget
    exact halts_of_forbidden (he s) (forbidden_of_port_dest hl hd h28) hw hr hbudget

end Machine
end Sys2Proof
end

section
/-! PROOF. Conditional branches: O4. -/

namespace Sys2Proof
namespace Machine

open Safety

/-! ## Conditional branches (07 R118, R119; 05 R93) -/

/-- The effect of a branch whose condition holds, or does not, on the values read. -/
theorem bodyBranch_eq {s s1 s2 : State} {d a : Reg} {off : Int} {cond : W64 → W64 → Bool} {x y : W64}
    (hd : readG s d = .ok (s1, x)) (ha : readG s1 a = .ok (s2, y)) :
    bodyBranch d a off cond s = if cond x y then transfer s2 (s2.cur.pc.off + off) else .ok (s2, .seq) := by
  simp only [bodyBranch, hd, ha, Bind.bind, Except.bind]

theorem transfer_ok {s : State} {i : Int} {t : Nat} (ht : (t : Int) = i) (h : t ≤ 32767) :
    transfer s i = .ok (s, .jump { s.cur.pc with off := t }) := by
  subst ht
  rw [transfer, if_neg (by omega), Int.toNat_natCast]

theorem transfer_range {s : State} {i : Int} (h : i < 0 ∨ 32767 < i) : transfer s i = .error (.trap Cause.illegal none) := by
  rw [transfer, if_pos h]
  rfl

/-- A transfer or back edge whose signature check fails is stopped as it retires, and what it did is discarded (05 R93 rule 3). -/
theorem issue_sigStops {j : Instr} {s u : State} {nx : Next} {body : State → Effect} (h : Ready j s) (hb : body s = .ok (u, nx))
    (hn : nx ≠ .ended) (hs : sigStops s j nx = true) :
    Answers (issue j body s) fun t => t = State.settleMem { s.stopAt j (sigTrap s j) with mem := s.mem, plat := s.plat } := by
  refine ⟨_, by rw [issue, if_pos h.running], ?_⟩
  rw [State.perform_fresh _ _ h.fresh]
  have hs' : (feeds s.cur && takenBy s.cur j nx && sigBad s.cur (crcAfter s.cur j)) = true := hs
  simp only [State.issueRun, h.checks, hb, State.retireIns, if_neg hn, hs', if_true]
  rfl

/-- What a body that goes on gives: its effect, or the trap of its signature check. -/
theorem does_or_sigTrap {j : Instr} {s u : State} {nx : Next} {body : State → Effect} (he : exec j s = issue j body s)
    (h : Ready j s) (hb : body s = .ok (u, nx)) (hn : nx ≠ .ended) :
    (sigStops s j nx = false → Does j s u nx) ∧ (sigStops s j nx = true → Halts j s (sigTrap s j)) := by
  rw [Does, Halts, he]
  exact ⟨issue_answers h hb hn, issue_sigStops h hb hn⟩

/-- The register that a compact form names: g8 to g15 (05 R81). -/
theorem compact_reg (d : BitVec 3) : BitVec.ofNat 5 (8 + d.toNat) = 8 + d.zeroExtend 5 := by
  apply BitVec.eq_of_toNat_eq
  simp

/-- The meaning of an instruction of `branchForm` branches on the form's condition. -/
theorem exec_branchForm {j : Instr} {d a : Reg} {off : Int} {cond : W64 → W64 → Prop}
    (h : branchForm j = some (d, a, off, cond)) :
    ∃ c : W64 → W64 → Bool, (∀ s, exec j s = issue j (bodyBranch d a off c) s) ∧ ∀ x y, c x y = true ↔ cond x y := by
  unfold branchForm at h
  split at h <;> cases h
  · exact ⟨_, fun _ => rfl, fun _ _ => beq_iff_eq⟩
  · exact ⟨_, fun _ => rfl, fun _ _ => bne_iff_ne⟩
  · exact ⟨slt64, fun _ => rfl, fun _ _ => decide_eq_true_iff⟩
  · exact ⟨_, fun _ => rfl, fun _ _ => by simp [slt64]⟩
  · exact ⟨ult64, fun _ => rfl, fun _ _ => decide_eq_true_iff⟩
  · exact ⟨_, fun _ => rfl, fun _ _ => by simp [ult64]⟩
  · rw [compact_reg]
    exact ⟨_, fun _ => rfl, fun _ _ => beq_iff_eq⟩
  · rw [compact_reg]
    exact ⟨_, fun _ => rfl, fun _ _ => bne_iff_ne⟩

/-- A port in both fields of a branch is refused at decode (05 R80 case 1); the compact forms name none. -/
theorem forbidden_of_branch_port_twice {j : Instr} {d a : Reg} {off : Int} {cond : W64 → W64 → Prop}
    (h : branchForm j = some (d, a, off, cond)) (h28 : 28 ≤ d.toNat) (hda : d = a) : (forbidden j).isSome = true := by
  have twice : namesTwice [28, 29, 30, 31] [d.toNat, d.toNat] = true := by
    have : d.toNat = 28 ∨ d.toNat = 29 ∨ d.toNat = 30 ∨ d.toNat = 31 := by omega
    rcases this with e | e | e | e <;> rw [e] <;> decide
  have full : uses j = { gsrc := [d.toNat, a.toNat] } → (forbidden j).isSome = true := by
    intro hu
    subst hda
    simp [forbidden, hu, twice]
  unfold branchForm at h
  split at h <;> cases h
  · exact full rfl
  · exact full rfl
  · exact full rfl
  · exact full rfl
  · exact full rfl
  · exact full rfl
  · rw [BitVec.toNat_ofNat] at h28; omega
  · rw [BitVec.toNat_ofNat] at h28; omega

/-- Settles O4: the reads leave the place of code, so that the target is counted from the branch's own address. -/
theorem branches : Obligations.Branches := by
  unfold Obligations.Branches
  intro j d a off cond s hj
  obtain ⟨c, he, hc⟩ := exec_branchForm hj
  constructor
  · intro s1 s2 x y h hd ha
    have hpc : s2.cur.pc = s.cur.pc := ((readG_samePlace hd).trans (readG_samePlace ha)).pc
    have hb := bodyBranch_eq (off := off) (cond := c) hd ha
    rw [hpc] at hb
    refine ⟨fun ht t hto hr => ?_, fun ht hr => ?_, fun hf => ?_⟩
    · rw [if_pos ((hc x y).2 ht), transfer_ok hto hr, hpc] at hb
      exact does_or_sigTrap (he s) h hb nofun
    · rw [if_pos ((hc x y).2 ht), transfer_range hr] at hb
      exact halts_of_body (he s) h hb
    · rw [if_neg (mt (hc x y).1 hf)] at hb
      exact does_or_sigTrap (he s) h hb nofun
  · intro h28 hda hw hr hbudget
    exact halts_of_forbidden (he s) (forbidden_of_branch_port_twice hj h28 hda) hw hr hbudget

end Machine
end Sys2Proof
end

section
/-! PROOF. TRAP, BKPT and the privileged instructions outside the supervisor slot: O10. -/

namespace Sys2Proof
namespace Machine

open Safety

/-! ## TRAP, BKPT and the privileged instructions (07 R126, R128) -/

/-- The stop of TRAP and BKPT is the trap with the instruction's own address. -/
theorem exec_trap_answers {j : Instr} {s : State} {cause code : Nat} (h : Ready j s)
    (hj : (∃ k, j = .trap k ∧ cause = 18 ∧ code = k.toNat) ∨ (j = .bkpt ∧ cause = 17 ∧ code = 0)) :
    Answers (exec j s) fun t => t = State.settleMem
      { s.takeTrap s.curCore s.curSlot cause code (BitVec.ofNat 64 (routine s.cur.pc % 65536)) with
        mem := s.mem, plat := s.plat } := by
  rw [← pcWord_eq]
  obtain ⟨k, rfl, rfl, rfl⟩ | ⟨rfl, rfl, rfl⟩ := hj
  · exact halts_of_body (e := .trapCode k.toNat) rfl h rfl
  · exact halts_of_body (e := .trap Cause.breakpoint (some (w64 (pcWord s.cur.pc)))) rfl h rfl

/-- A body that first asks for the supervisor slot traps PERMISSION outside it. -/
theorem privileged_bind {α : Type} {s : State} {f : Unit → Except Stop α} (h : s.privileged s.curCore s.curSlot = false) :
    (privileged s >>= f) = .error (.trap Cause.permission none) := by
  simp only [privileged, require, h]
  rfl

/-- Settles O10: TRAP and BKPT stop with their trap, which an ordinary task takes by R314; the others ask for the
supervisor slot first. -/
theorem trapInstructions : Obligations.TrapInstructions := by
  unfold Obligations.TrapInstructions
  constructor
  · rintro j cause code hj s h pc rfl
    have ha := exec_trap_answers h hj
    refine ⟨ha, fun p hplain hp hd ho => ?_⟩
    obtain ⟨t, ht, rfl⟩ := ha
    simp only [plainTask, Bool.and_eq_true, Bool.not_eq_true', Option.isNone_iff_eq_none] at hplain
    obtain ⟨⟨h1, h2⟩, h3⟩ := hplain
    exact ⟨_, ht, trapped_settleMem (takeTrap_trapped cause code _ h1 h2 h3 hp hd ho) h.fresh⟩
  · rintro j hj s h hp
    obtain ⟨a, b, rfl⟩ | ⟨d, rfl⟩ | rfl | ⟨a, b, rfl⟩ := hj
    · exact halts_of_body rfl h (privileged_bind hp)
    · exact halts_of_body rfl h (privileged_bind hp)
    · exact halts_of_body rfl h (privileged_bind hp)
    · exact halts_of_body rfl h (privileged_bind hp)

end Machine
end Sys2Proof
end

section
/-! SUPPORT. Vector registers by their lanes, and what a write of lanes under a mask leaves (01_notation.md R21; 10_isa_vector.md R177). -/

namespace Sys2Proof
namespace Machine

open Safety

/-! ## A register from its lanes -/

theorem joinLanes_lt (w : Nat) (l : List Nat) : joinLanes w l < 2 ^ (l.length * w) := by
  induction l with
  | nil => exact Nat.two_pow_pos _
  | cons x r ih =>
    have hx : x % 2 ^ w < 2 ^ w := Nat.mod_lt _ (Nat.two_pow_pos w)
    calc joinLanes w (x :: r) < 2 ^ w * (joinLanes w r + 1) := by rw [joinLanes, Nat.mul_succ]; omega
      _ ≤ 2 ^ w * 2 ^ (r.length * w) := Nat.mul_le_mul_left _ ih
      _ = 2 ^ ((x :: r).length * w) := by rw [← Nat.pow_add, List.length_cons, Nat.succ_mul, Nat.add_comm]

theorem joinLanes_cons_div (w x : Nat) (r : List Nat) : joinLanes w (x :: r) / 2 ^ w = joinLanes w r := by
  rw [joinLanes, Nat.add_mul_div_left _ _ (Nat.two_pow_pos w), Nat.div_eq_of_lt (Nat.mod_lt _ (Nat.two_pow_pos w)), Nat.zero_add]

theorem joinLanes_lane (w : Nat) {l : List Nat} {i : Nat} (h : i < l.length) :
    joinLanes w l / 2 ^ (i * w) % 2 ^ w = l[i] % 2 ^ w := by
  induction l generalizing i with
  | nil => cases h
  | cons x r ih =>
    cases i with
    | zero => simp [joinLanes]
    | succ i =>
      rw [Nat.succ_mul, Nat.add_comm, Nat.pow_add, ← Nat.div_div_eq_div_mul, joinLanes_cons_div, List.getElem_cons_succ]
      exact ih (Nat.lt_of_succ_lt_succ h)

/-- Lanes that fit into a register are joined without loss. -/
theorem toNat_ofNat_joinLanes {n w : Nat} {l : List Nat} (h : l.length * w ≤ n) :
    (BitVec.ofNat n (joinLanes w l)).toNat = joinLanes w l := by
  rw [BitVec.toNat_ofNat, Nat.mod_eq_of_lt]
  exact (joinLanes_lt w l).trans_le (Nat.pow_le_pow_right Nat.two_pos h)

theorem laneOf_mkVec {w i : Nat} (f : Nat → Nat) (h : i < 512 / w) : laneOf (mkVec w f) i w = f i % 2 ^ w := by
  have hl : ((upto (laneCount w)).map f).length = 512 / w := by simp [upto, laneCount]
  rw [laneOf, mkVec, toNat_ofNat_joinLanes (hl ▸ Nat.div_mul_le_self 512 w), joinLanes_lane w (hl ▸ h)]
  simp [upto]

theorem laneOf_lt (x : Vec) (i w : Nat) : laneOf x i w < 2 ^ w := Nat.mod_lt _ (Nat.two_pow_pos w)

/-! ## A write of lanes under a mask (10 R177) -/

/-- The register that SetV gives: each lane takes its result modulo the lane's width. -/
theorem lanesAre_lanesOf {s : State} {d : Reg} {mk : BitVec 3} {zr : BitVec 1} {w : Nat} {f g : Nat → Nat}
    (h : ∀ i, f i % 2 ^ w = g i) :
    LanesAre s d mk zr w g (lanesOf (readV s d) w (readM s mk.toNat) (decide (zr = 1)) f) := by
  intro i hi
  rw [lanesOf, laneOf_mkVec _ hi]
  split
  · exact h i
  · simp only [decide_eq_true_eq]
    split
    · exact Nat.zero_mod _
    · exact Nat.mod_eq_of_lt (laneOf_lt _ i w)

/-- An instruction whose body writes lanes of the state as it is. -/
theorem does_setLanes {j : Instr} {s : State} {d : Reg} {mk : BitVec 3} {zr : BitVec 1} {w : Nat} {f g : Nat → Nat}
    {body : State → Effect} (he : exec j s = issue j body s) (hj : Plain j) (h : Ready j s)
    (hb : body s = .ok (setLanes s d w mk zr f, .seq)) (hf : ∀ i, f i % 2 ^ w = g i) :
    ∃ x, Does j s (writeV s d x) .seq ∧ LanesAre s d mk zr w g x :=
  ⟨_, does_of_body he hj h hb, lanesAre_lanesOf hf⟩

end Machine
end Sys2Proof
end

section
/-! PROOF. The integer instructions of vectors: O50. -/

namespace Sys2Proof
namespace Machine

open Safety

/-! ## The tables of R182 and R183 on lanes below 2^w -/

theorem sext_eq_signedLane {w x : Nat} (h : x < 2 ^ w) : sext x w = signedLane w x := by
  simp only [sext, signedLane, Nat.mod_eq_of_lt h, ← Nat.not_le, ite_not]

/-- Lanes of the same signed value are the same. -/
theorem signedLane_inj {w x y : Nat} (hx : x < 2 ^ w) (hy : y < 2 ^ w) (h : signedLane w x = signedLane w y) : x = y := by
  have hx' : (x : Int) < 2 ^ w := by exact_mod_cast hx
  have hy' : (y : Int) < 2 ^ w := by exact_mod_cast hy
  unfold signedLane at h
  split at h <;> split at h <;> omega

theorem wrapLane_lt (w : Nat) (z : Int) : wrapLane w z < 2 ^ w := by
  have hp : (0 : Int) < 2 ^ w := by positivity
  rw [wrapLane, Int.toNat_lt (Int.emod_nonneg z hp.ne')]
  exact_mod_cast Int.emod_lt_of_pos z hp

theorem wrapLane_natCast (w n : Nat) : wrapLane w n = n % 2 ^ w := by
  rw [wrapLane]
  exact_mod_cast Int.toNat_natCast (n % 2 ^ w)

theorem vSub_eq_wrapLane {w x y : Nat} (hy : y < 2 ^ w) : vSub w x y = wrapLane w ((x : Int) - y) := by
  have hc : ((x + (2 ^ w - y) : Nat) : Int) = (x : Int) - y + 2 ^ w := by
    push_cast [Nat.cast_sub hy.le]
    ring
  rw [vSub, ← wrapLane_natCast, hc, wrapLane, Int.add_emod_right, wrapLane]

theorem vMulh_eq_wrapLane {w x y : Nat} (hx : x < 2 ^ w) (hy : y < 2 ^ w) :
    vMulh w x y = wrapLane w (signedLane w x * signedLane w y / 2 ^ w) := by
  rw [vMulh, sext_eq_signedLane hx, sext_eq_signedLane hy, toLane, wrapLane]

theorem vSha_eq_wrapLane {w x : Nat} (y : Nat) (hx : x < 2 ^ w) :
    vSha w x y = wrapLane w (signedLane w x / 2 ^ Nat.min y (w - 1)) := by
  rw [vSha, sext_eq_signedLane hx, toLane, wrapLane]

theorem vMin_eq {w x y : Nat} (hx : x < 2 ^ w) (hy : y < 2 ^ w) :
    vMin w x y = if signedLane w x ≤ signedLane w y then x else y := by
  simp only [vMin, sext_eq_signedLane hx, sext_eq_signedLane hy, ← Int.not_le, ite_not]

/-- At equal lanes the model's VMAX takes va where the table takes vb: they are the same lane. -/
theorem vMax_eq {w x y : Nat} (hx : x < 2 ^ w) (hy : y < 2 ^ w) :
    vMax w x y = if signedLane w x ≤ signedLane w y then y else x := by
  rw [vMax, sext_eq_signedLane hx, sext_eq_signedLane hy]
  rcases lt_trichotomy (signedLane w x) (signedLane w y) with h | h | h
  · rw [if_pos h, if_pos h.le]
  · rw [if_neg h.not_lt, if_pos h.le, signedLane_inj hx hy h]
  · rw [if_neg h.asymm, if_neg (Int.not_le.2 h)]

/-! ## The instructions -/

/-- The instructions of `laneForm` are plain, and their meaning computes the form's function of two lanes, which is
a lane. -/
theorem exec_laneForm {j : Instr} {d a b : Reg} {mk : BitVec 3} {zr : BitVec 1} {w : Nat} {f : Nat → Nat → Nat → Nat}
    (h : laneForm j = some (d, a, b, mk, zr, w, f)) :
    Plain j ∧ ∃ g, (∀ s, exec j s = issue j (bodyVInt g d a b mk zr w) s) ∧
      ∀ x y, x < 2 ^ w → y < 2 ^ w → g w x y = f w x y ∧ f w x y < 2 ^ w := by
  unfold laneForm at h
  split at h <;> cases h <;> refine ⟨⟨rfl, rfl⟩, _, fun _ => rfl, fun x y hx hy => ?_⟩ <;> beta_reduce
  · exact ⟨by rw [vAdd, ← wrapLane_natCast, Nat.cast_add], wrapLane_lt _ _⟩
  · exact ⟨vSub_eq_wrapLane hy, wrapLane_lt _ _⟩
  · exact ⟨by rw [vMul, ← wrapLane_natCast, Nat.cast_mul], wrapLane_lt _ _⟩
  · exact ⟨vMulh_eq_wrapLane hx hy, wrapLane_lt _ _⟩
  · exact ⟨vMin_eq hx hy, by split <;> assumption⟩
  · exact ⟨vMax_eq hx hy, by split <;> assumption⟩
  · exact ⟨rfl, Nat.and_lt_two_pow x hy⟩
  · exact ⟨rfl, Nat.or_lt_two_pow hx hy⟩
  · exact ⟨rfl, Nat.xor_lt_two_pow hx hy⟩
  · refine ⟨rfl, ?_⟩
    split
    · exact Nat.mod_lt _ (Nat.two_pow_pos _)
    · exact Nat.two_pow_pos _
  · refine ⟨rfl, ?_⟩
    split
    · exact (Nat.div_le_self x _).trans_lt hx
    · exact Nat.two_pow_pos _
  · exact ⟨vSha_eq_wrapLane y hx, wrapLane_lt _ _⟩

/-- Settles O50: each meaning writes the lanes that the table computes; as lanes they are below 2^w, so that the write cuts nothing. -/
theorem vectorInteger : Obligations.VectorInteger := by
  unfold Obligations.VectorInteger
  intro j d a b mk zr w f s hj h
  obtain ⟨hp, g, he, hg⟩ := exec_laneForm hj
  refine does_setLanes (he s) hp h rfl fun i => ?_
  obtain ⟨hv, hlt⟩ := hg _ _ (laneOf_lt (readV s a) i w) (laneOf_lt (readV s b) i w)
  rw [hv, Nat.mod_eq_of_lt hlt]

end Machine
end Sys2Proof
end

section
/-! PROOF. The floating-point instructions of vectors: O49. -/

namespace Sys2Proof
namespace Machine

open Safety

/-! ## Rounded lanes (09 R168; 10 R178, R181) -/

theorem drawWords_eq (s : State) (mode n : Nat) : drawWords s mode n = (wordsDrawn s mode n, drew s mode n) := by
  unfold drawWords wordsDrawn drew
  split <;> rfl

/-- A draw of words changes the LFSR alone. -/
theorem cur_drew (s : State) (mode n : Nat) : ∃ x, (drew s mode n).cur = { s.cur with regs := { s.cur.regs with lfsr := x } } := by
  unfold drew
  split
  · exact ⟨_, State.cur_modCur _ _⟩
  · exact ⟨s.cur.regs.lfsr, rfl⟩

theorem readV_drew (s : State) (mode n : Nat) (r : Reg) : readV (drew s mode n) r = readV s r := by
  obtain ⟨x, h⟩ := cur_drew s mode n
  rw [readV, h, readV]

theorem readM_drew (s : State) (mode n k : Nat) : readM (drew s mode n) k = readM s k := by
  obtain ⟨x, h⟩ := cur_drew s mode n
  rw [readM, h, readM]

/-- The code of an encoded value is a lane of 32 bits. -/
theorem enc32_toNat_mod (mode : Nat) (word : W32) (x : Val) : (enc32 mode word x).toNat % 2 ^ 32 = (enc32 mode word x).toNat :=
  Nat.mod_eq_of_lt (enc32 mode word x).isLt

/-- Rounding the lanes draws the words of the selected ones and writes the rounded values under the mask. -/
theorem roundLanes_eq (s : State) (d : Reg) (mk : BitVec 3) (zr : BitVec 1) (f : Nat → Val) :
    let m := readM s mk.toNat
    let n := selRank m 16
    ∃ x, roundLanes s d mk zr f = writeV (drew s s.roundMode n) d x ∧
      LanesAre s d mk zr 32 (fun i => (enc32 s.roundMode ((wordsDrawn s s.roundMode n).getD (selRank m i) 0) (f i)).toNat) x := by
  refine ⟨_, ?_, lanesAre_lanesOf fun i => enc32_toNat_mod _ _ _⟩
  simp only [roundLanes, drawWords_eq, setLanes, readV_drew, readM_drew]

/-- The body of an operation on the exact values of the lanes of va, vb and vd that rounds its result. -/
def roundBody (f : Nat → Val → Val → Val → Val) (d a b : Reg) (mk : BitVec 3) (zr : BitVec 1) (s : State) : Effect :=
  .ok (roundLanes s d mk zr fun i =>
    f s.roundMode (f32Lane (readV s a) i) (f32Lane (readV s b) i) (f32Lane (readV s d) i), .seq)

/-- The instructions of `floatForm` are plain, and their meaning rounds the form's function of each lane. -/
theorem exec_floatForm {j : Instr} {d a b : Reg} {mk : BitVec 3} {zr : BitVec 1} {f : Nat → Val → Val → Val → Val}
    (h : floatForm j = some (d, a, b, mk, zr, f)) :
    Plain j ∧ ∀ s, exec j s = issue j (roundBody f d a b mk zr) s := by
  unfold floatForm at h
  split at h <;> cases h <;> exact ⟨⟨rfl, rfl⟩, fun _ => rfl⟩

/-! ## Operations on the codes (10 R178, R179) -/

/-- A change of the highest bit is the addition of its weight, modulo 2^(n+1). -/
theorem xor_two_pow_of_lt {n x : Nat} (h : x < 2 ^ (n + 1)) : x ^^^ 2 ^ n = (x + 2 ^ n) % 2 ^ (n + 1) := by
  have hp : 2 ^ (n + 1) = 2 * 2 ^ n := by rw [Nat.pow_succ, Nat.mul_comm]
  have hm : (x ^^^ 2 ^ n) % 2 ^ n = x % 2 ^ n := by rw [Nat.xor_mod_two_pow, Nat.mod_self, Nat.xor_zero]
  have hd : (x ^^^ 2 ^ n) / 2 ^ n = x / 2 ^ n ^^^ 1 := by rw [Nat.xor_div_two_pow, Nat.div_self (Nat.two_pow_pos n)]
  rw [← Nat.div_add_mod (x ^^^ 2 ^ n) (2 ^ n), hm, hd]
  rcases Nat.lt_or_ge x (2 ^ n) with hx | hx
  · rw [Nat.div_eq_of_lt hx, Nat.mod_eq_of_lt hx, Nat.mod_eq_of_lt (by omega)]
    rw [Nat.zero_xor, Nat.mul_one, Nat.add_comm]
  · have hq : x / 2 ^ n = 1 := Nat.div_eq_of_lt_le (by omega) (by omega)
    rw [hq, Nat.mod_eq_sub_mod hx, Nat.mod_eq_of_lt (by omega), Nat.mod_eq_sub_mod (by omega), Nat.mod_eq_of_lt (by omega)]
    rw [Nat.xor_self, Nat.mul_zero, Nat.zero_add]
    omega

theorem xor_ofNat_two_pow {n : Nat} (x : BitVec (n + 1)) :
    x ^^^ BitVec.ofNat (n + 1) (2 ^ n) = BitVec.ofNat (n + 1) (x.toNat + 2 ^ n) := by
  have hn : 2 ^ n < 2 ^ (n + 1) := Nat.pow_lt_pow_succ Nat.one_lt_two
  apply BitVec.eq_of_toNat_eq
  rw [BitVec.toNat_xor, BitVec.toNat_ofNat, BitVec.toNat_ofNat, Nat.mod_eq_of_lt hn, xor_two_pow_of_lt x.isLt]

/-- The highest bit alone. -/
theorem and_two_pow_of_lt {n x : Nat} (h : x < 2 ^ (n + 1)) : x &&& 2 ^ n = x / 2 ^ n * 2 ^ n := by
  have hq : x / 2 ^ n < 2 := Nat.div_lt_of_lt_mul (by rwa [← Nat.pow_succ])
  rw [Nat.and_two_pow, Nat.toNat_testBit, Nat.mod_eq_of_lt hq]

theorem and_magnitude (x : W32) : x &&& 0x7FFFFFFF#32 = BitVec.ofNat 32 (x.toNat % 2 ^ 31) := by
  rw [← Nat.and_two_pow_sub_one_eq_mod, BitVec.ofNat_and, BitVec.ofNat_toNat]
  rfl

theorem and_sign (x : W32) : x &&& 0x80000000#32 = BitVec.ofNat 32 (x.toNat / 2 ^ 31 * 2 ^ 31) := by
  rw [← and_two_pow_of_lt x.isLt, BitVec.ofNat_and, BitVec.ofNat_toNat]
  rfl

theorem xor_sign (x : W32) : x ^^^ 0x80000000#32 = BitVec.ofNat 32 (x.toNat + 2 ^ 31) :=
  xor_ofNat_two_pow (n := 31) x

theorem magnitude_or_sign (x y : W32) : (x &&& 0x7FFFFFFF#32) ||| (y &&& 0x80000000#32) =
    BitVec.ofNat 32 (x.toNat % 2 ^ 31 + y.toNat / 2 ^ 31 * 2 ^ 31) := by
  have hd : (x &&& 0x7FFFFFFF#32) &&& (y &&& 0x80000000#32) = 0#32 := by
    rw [BitVec.and_assoc, BitVec.and_comm _ (y &&& _), BitVec.and_assoc]
    simp
  rw [← BitVec.add_eq_or_of_and_eq_zero _ _ hd, and_magnitude, and_sign, BitVec.ofNat_add]

/-- The instructions of `codeForm` are plain, and their meaning computes the form's function of each lane's code. -/
theorem exec_codeForm {j : Instr} {d a b : Reg} {mk : BitVec 3} {zr : BitVec 1} {f : W32 → W32 → W32}
    (h : codeForm j = some (d, a, b, mk, zr, f)) :
    Plain j ∧ ∃ g, (∀ s, exec j s = issue j (bodyVfPick g d a b mk zr) s) ∧ ∀ x y, g x y = f x y := by
  unfold codeForm at h
  split at h <;> cases h <;> refine ⟨⟨rfl, rfl⟩, _, fun _ => rfl, fun x y => ?_⟩
  · rfl
  · rfl
  · simp only [signOp, and_magnitude]
  · simp only [signOp, xor_sign]
  · simp only [signOp, magnitude_or_sign]

/-- Settles O49: an operation that rounds draws one word for each selected lane before the lanes are written; the others
write the code that their table gives. -/
theorem vectorFloat : Obligations.VectorFloat := by
  unfold Obligations.VectorFloat
  constructor
  · intro j d a b mk zr f s hj h
    obtain ⟨hp, he⟩ := exec_floatForm hj
    obtain ⟨x, hx, hl⟩ := roundLanes_eq s d mk zr fun i =>
      f s.roundMode (f32Lane (readV s a) i) (f32Lane (readV s b) i) (f32Lane (readV s d) i)
    exact ⟨x, does_of_body (he s) hp h (by rw [roundBody, hx]), hl⟩
  · intro j d a b mk zr f s hj h
    obtain ⟨hp, g, he, hg⟩ := exec_codeForm hj
    refine does_setLanes (he s) hp h rfl fun i => ?_
    rw [hg]
    exact Nat.mod_eq_of_lt (BitVec.isLt _)

end Machine
end Sys2Proof
end

section
/-! PROOF. The platform of bring-up over a step: what every step keeps, and the indices of the identity key (25_bring_up.md R348 to
R355): O59 and O60. -/

namespace Sys2Proof
namespace Machine

open Safety

/-! ## What every operation of bring-up keeps (25 R353, R354) -/

/-- The part of the invariant that speaks of the platform. -/
structure PlatKept (k : Platform) : Prop where
  islands : ∀ i, islandRate (k.cur i) ∧ islandRate (k.tgt i)
  block : k.quoteNext ≤ k.quoteEnd ∧ k.quoteEnd = k.quoteCounter
  counter : k.quoteCounter % 256 = 0 ∧ k.quoteCounter ≤ 2 ^ 20

/-- From a platform to one that meets the invariant no index and no minimum version goes back, and a new quote uses up an index that
was not used before (R353). -/
structure Onward (k l : Platform) : Prop where
  kept : PlatKept l
  next : k.quoteNext ≤ l.quoteNext
  counter : k.quoteCounter ≤ l.quoteCounter
  fuses : ∀ i, Tbl.find 0 k.fuses i ≤ Tbl.find 0 l.fuses i
  signed : ∀ body sig, l.quote = some (body, sig) → l.quote ≠ k.quote →
    ∃ i, k.quoteNext ≤ i ∧ i < l.quoteNext ∧ sig = Config.xmssSign i body

theorem Onward.trans {k l m : Platform} (h : Onward k l) (g : Onward l m) : Onward k m where
  kept := g.kept
  next := h.next.trans g.next
  counter := h.counter.trans g.counter
  fuses i := (h.fuses i).trans (g.fuses i)
  signed body sig hq hne := by
    by_cases e : m.quote = l.quote
    · obtain ⟨i, h1, h2, h3⟩ := h.signed body sig (e ▸ hq) (e ▸ hne)
      exact ⟨i, h1, h2.trans_le g.next, h3⟩
    · obtain ⟨i, h1, h2, h3⟩ := g.signed body sig hq e
      exact ⟨i, h.next.trans h1, h2, h3⟩

/-- A change of what the invariant and the indices say nothing of. -/
theorem Onward.of_eq {k l : Platform} (h : PlatKept k) (hc : l.islandCur = k.islandCur := by rfl) (ht : l.islandTgt = k.islandTgt := by rfl)
    (hn : l.quoteNext = k.quoteNext := by rfl) (he : l.quoteEnd = k.quoteEnd := by rfl)
    (hk : l.quoteCounter = k.quoteCounter := by rfl) (hf : l.fuses = k.fuses := by rfl) (hq : l.quote = k.quote := by rfl) :
    Onward k l where
  kept := ⟨fun i => by rw [Platform.cur, Platform.tgt, hc, ht]; exact h.islands i, by rw [hn, he, hk]; exact h.block,
    by rw [hk]; exact h.counter⟩
  next := hn.ge
  counter := hk.ge
  fuses i := by rw [hf]
  signed body sig _ hne := absurd hq hne

theorem Onward.refl {k : Platform} (h : PlatKept k) : Onward k k := .of_eq h

/-! ### Islands (R354, R355) -/

theorem islandRate_reset : islandRate 2700 := ⟨by decide, by decide, by decide⟩

theorem mhzGood_iff {f : Nat} : mhzGood f = true ↔ islandRate f := decide_eq_true_iff

/-- Frequencies change, and nothing else that the invariant or the indices speak of. -/
theorem Onward.of_islands {k l : Platform} (h : PlatKept k) (hi : ∀ i, islandRate (l.cur i) ∧ islandRate (l.tgt i))
    (hn : l.quoteNext = k.quoteNext := by rfl) (he : l.quoteEnd = k.quoteEnd := by rfl)
    (hk : l.quoteCounter = k.quoteCounter := by rfl) (hf : l.fuses = k.fuses := by rfl) (hq : l.quote = k.quote := by rfl) :
    Onward k l where
  kept := ⟨hi, by rw [hn, he, hk]; exact h.block, by rw [hk]; exact h.counter⟩
  next := hn.ge
  counter := hk.ge
  fuses i := by rw [hf]
  signed body sig _ hne := absurd hq hne

theorem change_onward {k : Platform} (h : PlatKept k) {i f time : Nat} (hf : islandRate f) : Onward k (k.change i f time) := by
  unfold Platform.change
  split
  · exact .refl h
  · refine .of_islands h fun j => ⟨?_, (h.islands j).2⟩
    rw [Platform.cur, Tbl.find_put]
    split
    · exact hf
    · exact (h.islands j).1

/-- A step up by 300 MHz at most, below the target, goes to a frequency. -/
theorem islandRate_step {c t : Nat} (hc : islandRate c) (ht : islandRate t) (h : c < t) : islandRate (Nat.min t (c + 300)) := by
  have e : Nat.min t (c + 300) = if t ≤ c + 300 then t else c + 300 := Nat.min_def ..
  unfold islandRate at *
  split at e <;> omega

theorem step_onward {k : Platform} (h : PlatKept k) (i : Nat) (busy : Bool) (time : Nat) : Onward k (k.step i busy time) := by
  have up (hb : (busy && decide (k.cur i < k.tgt i)) = true) :
      Onward k { k.change i (Nat.min (k.tgt i) (k.cur i + 300)) time with islandStep := Tbl.set k.islandStep i time } := by
    have hlt := of_decide_eq_true (Bool.and_eq_true_iff.1 hb).2
    have hc := change_onward h (i := i) (time := time) (islandRate_step (h.islands i).1 (h.islands i).2 hlt)
    exact hc.trans (.of_eq hc.kept)
  unfold Platform.step
  split
  · exact .refl h
  · split
    · next hb =>
      split
      · split
        · exact .refl h
        · exact up hb
      · exact up hb
    · exact change_onward h (h.islands i).2

theorem target_onward {k : Platform} (h : PlatKept k) (i f : Nat) : Onward k (k.target i f) := by
  unfold Platform.target
  split
  · next hf =>
    refine .of_islands h fun j => ⟨(h.islands j).1, ?_⟩
    rw [Platform.tgt, Tbl.find_put]
    split
    · exact mhzGood_iff.1 hf.2
    · exact (h.islands j).2
  · exact .refl h

theorem throttle_onward {k : Platform} (h : PlatKept k) (i f time : Nat) : Onward k (k.throttle i f time) := by
  unfold Platform.throttle
  split
  · next hf => exact change_onward h (mhzGood_iff.1 hf.2.1)
  · exact .refl h

/-! ### Quotes (R352, R353) -/

/-- A reserved block has an index left, and the next index does not fall. -/
theorem reserve_kept {k : Platform} (h : PlatKept k) (hl : k.quoteCounter < 2 ^ 20) :
    PlatKept k.reserve ∧ k.reserve.quoteNext < k.reserve.quoteEnd ∧ k.quoteNext ≤ k.reserve.quoteNext ∧
      k.quoteCounter ≤ k.reserve.quoteCounter ∧ k.reserve.fuses = k.fuses := by
  obtain ⟨hn, he⟩ := h.block
  obtain ⟨hm, -⟩ := h.counter
  unfold Platform.reserve quoteBlock
  split
  · next hlt => exact ⟨h, hlt, le_rfl, le_rfl, rfl⟩
  · refine ⟨⟨h.islands, ⟨?_, rfl⟩, ?_, ?_⟩, ?_, ?_, ?_, rfl⟩ <;> dsimp only <;> omega

theorem giveQuote_onward {k : Platform} (h : PlatKept k) (devId : Nat) (nonce : BitVec 256) : Onward k (k.giveQuote devId nonce) := by
  unfold Platform.giveQuote quoteLimit
  split
  · exact ⟨⟨h.islands, h.block, h.counter⟩, le_rfl, le_rfl, fun _ => le_rfl, nofun⟩
  · next hl =>
    obtain ⟨hk, hlt, hn, hc, hf⟩ := reserve_kept h (Nat.not_le.1 hl)
    refine ⟨⟨hk.islands, ⟨hlt, hk.block.2⟩, hk.counter⟩, Nat.le_succ_of_le hn, hc, fun i => (congrArg (Tbl.find 0 · i) hf).ge, ?_⟩
    intro body sig hq _
    obtain ⟨rfl, rfl⟩ := Prod.mk.inj (Option.some.inj hq)
    exact ⟨_, hn, Nat.lt_succ_self _, rfl⟩

theorem attest_onward {k : Platform} (h : PlatKept k) (devId : Nat) (nonce : BitVec 256) : Onward k (k.attest devId nonce) := by
  unfold Platform.attest
  split
  · exact .refl h
  · exact giveQuote_onward h devId nonce

theorem askRecovery_onward {k : Platform} (h : PlatKept k) (devId time : Nat) : Onward k (k.askRecovery devId time) := by
  have hq := giveQuote_onward h devId (Config.recoveryNonce k.recoveryRequests)
  exact hq.trans (.of_eq hq.kept)

theorem portTrained_onward {k : Platform} (h : PlatKept k) (port time devId : Nat) : Onward k (k.portTrained port time devId) := by
  unfold Platform.portTrained
  split
  · exact askRecovery_onward h devId time
  · exact .refl h

/-! ### Stages and restarts (R347, R350, R351) -/

/-- Abandoned indices are used up, and no quote stands. -/
theorem abandon_onward {k : Platform} (h : PlatKept k) : Onward k { k.abandon with quote := none } := by
  obtain ⟨hn, he⟩ := h.block
  exact ⟨⟨h.islands, ⟨le_rfl, rfl⟩, h.counter⟩, hn.trans_eq he, le_rfl, fun _ => le_rfl, nofun⟩

/-- The platform as it starts to judge its flash: every island at 2.7 GHz. -/
theorem boot_onward {k : Platform} (h : PlatKept k) (time : Nat) : Onward k (k.boot time) := by
  have ha := abandon_onward h
  have rates (i : Nat) : islandRate 2700 ∧ islandRate 2700 := ⟨islandRate_reset, islandRate_reset⟩
  unfold Platform.boot Platform.recover
  extract_lets l
  split
  · exact ha.trans (.of_islands ha.kept rates)
  · exact ha.trans (.of_islands ha.kept rates)

/-- Writing the versions over the minimum versions of the listed images leaves each at its version or as it was. -/
theorem find_raised (v : Tbl Nat) (l : List Nat) (i : Nat) : ∀ m : Tbl Nat,
    Tbl.find 0 (l.foldl (fun m i => Tbl.put 0 m i (Tbl.find 0 v i)) m) i = if i ∈ l then Tbl.find 0 v i else Tbl.find 0 m i := by
  induction l with
  | nil => exact fun m => rfl
  | cons j l ih =>
    intro m
    rw [List.foldl_cons, ih, Tbl.find_put]
    by_cases hl : i ∈ l
    · simp [hl]
    · by_cases hj : i = j <;> simp [hl, hj]

theorem raiseFuses_onward {k : Platform} (h : PlatKept k) : Onward k k.raiseFuses := by
  unfold Platform.raiseFuses
  split
  · next hv =>
    refine ⟨⟨h.islands, h.block, h.counter⟩, le_rfl, le_rfl, fun i => ?_, fun _ _ _ hne => absurd rfl hne⟩
    dsimp only
    rw [find_raised]
    split
    · next hi => exact (of_decide_eq_true (List.all_eq_true.1 hv i hi)).le
    · exact le_rfl
  · exact .refl h

theorem ready_onward {k : Platform} (h : PlatKept k) (stage : Nat) : Onward k (k.ready stage) := by
  have hr := raiseFuses_onward h
  unfold Platform.ready
  split
  · exact hr.trans (.of_eq hr.kept)
  · exact .of_eq h
  · exact .of_eq h
  · exact .refl h

/-! ## What a step keeps -/

theorem kept_iff {s : State} : Kept s ↔ s.mem.wf = true ∧ s.wr = [] ∧ PlatKept s.plat :=
  ⟨fun h => ⟨h.memory, h.pending, h.islands, h.block, h.counter⟩, fun ⟨hm, hw, hp⟩ => ⟨hm, hw, hp.islands, hp.block, hp.counter⟩⟩

theorem perform_kept {s : State} (h : Kept s) (f : State → State) : Kept (State.perform f s) := by
  obtain ⟨hm, -, hp⟩ := kept_iff.1 h
  exact kept_iff.2 ⟨Memory.wf_writeAll _ _ hm, rfl, hp⟩

/-- An operation on the platform alone, and a device that starts again, keep the invariant where the platform's part of it is kept. -/
theorem performPlat_kept {s : State} (h : Kept s) {f : Platform → Platform} (hf : PlatKept (f s.plat)) : Kept (s.performPlat f) :=
  kept_iff.2 ⟨h.memory, h.pending, hf⟩

theorem after_kept (s : State) {k : Platform} (h : PlatKept k) : Kept (s.after k) := kept_iff.2 ⟨rfl, rfl, h⟩

theorem formed_onward {s t : State} (h : Formed s t) (hs : Kept s) : Kept t ∧ Onward s.plat t.plat := by
  obtain ⟨-, -, hp⟩ := kept_iff.1 hs
  have plat {f : Platform → Platform} (hf : Onward s.plat (f s.plat)) : Kept (s.performPlat f) ∧ Onward s.plat (f s.plat) :=
    ⟨performPlat_kept hs hf.kept, hf⟩
  have again {k : Platform} (hk : Onward s.plat k) : Kept (s.after k) ∧ Onward s.plat k := ⟨after_kept s hk.kept, hk⟩
  cases h with
  | device f => exact ⟨perform_kept hs f, .refl hp⟩
  | powerOn _ => exact again (boot_onward hp 0)
  | ready n => exact plat (ready_onward hp n)
  | watchdog _ => exact plat (.of_eq hp)
  | port p => exact plat (.of_eq hp)
  | answer set _ =>
    have hf : Onward s.plat { s.plat with flash := set } := .of_eq hp
    exact again (hf.trans (boot_onward hf.kept 0))
  | answered => exact plat (.of_eq hp)
  | retry _ => exact plat (askRecovery_onward hp _ _)
  | attest nonce => exact plat (attest_onward hp _ _)
  | off =>
    have ha := abandon_onward hp
    exact again (ha.trans (.of_eq ha.kept))
  | target i f => exact plat (target_onward hp i f)
  | frequency i busy => exact plat (step_onward hp i busy _)
  | throttle i f => exact plat (throttle_onward hp i f _)
  | trained f port =>
    have ht : Onward s.plat (s.plat.portTrained port s.time s.fabric.devId) := portTrained_onward hp _ _ _
    exact ⟨performPlat_kept (perform_kept hs f) ht.kept, ht⟩
  | same => exact ⟨hs, .refl hp⟩

theorem Alike.kept {s t : State} (h : Alike s t) (hs : Kept s) : Kept t := by
  obtain ⟨hm, hw, hp⟩ := kept_iff.1 hs
  exact kept_iff.2 ⟨h.mem ▸ hm, h.wr.trans hw, h.plat ▸ hp⟩

theorem step_onward_of_kept {s t : State} (hs : Kept s) (h : step s = .next t) : Kept t ∧ Onward s.plat t.plat := by
  obtain ⟨u, v, hu, hv, ht⟩ := step_from h
  obtain ⟨hk, ho⟩ := formed_onward hv (hu.kept hs)
  rw [hu.plat, ← ht.plat] at ho
  exact ⟨ht.kept hk, ho⟩

/-- Settles O59: every form of a step's answer keeps the canonical memory and the platform's part of the invariant. -/
theorem stepKeepsInvariant : Obligations.StepKeepsInvariant := fun _ _ hs h => (step_onward_of_kept hs h).1

/-- Settles O60: quotes are given by `giveQuote` alone, which takes the next index of the block and moves on. -/
theorem quoteIndicesOnce : Obligations.QuoteIndicesOnce := by
  intro s t hs h
  obtain ⟨-, ho⟩ := step_onward_of_kept hs h
  exact ⟨ho.next, ho.counter, ho.fuses, ho.signed⟩

end Machine
end Sys2Proof
end

section
/-! PROOF. The word of a well-formed instruction decodes to it (05_encoding.md R76, R81, R83): O58. -/

namespace Sys2Proof
namespace Laws
namespace RoundTrip

/-- Every constructor of Instr has its round trip; a row without words is not well-formed. -/
theorem statement (j : Instr) : Statement j := by
  cases j with
  | add d a b => exact add d a b
  | sub d a b => exact sub d a b
  | andOp d a b => exact andOp d a b
  | orOp d a b => exact orOp d a b
  | xorOp d a b => exact xorOp d a b
  | andn d a b => exact andn d a b
  | shl d a b => exact shl d a b
  | shr d a b => exact shr d a b
  | sha d a b => exact sha d a b
  | rol d a b => exact rol d a b
  | min d a b => exact min d a b
  | max d a b => exact max d a b
  | minn d a b => exact minn d a b
  | maxn d a b => exact maxn d a b
  | slt d a b => exact slt d a b
  | sltn d a b => exact sltn d a b
  | seq d a b => exact seq d a b
  | clz d a => exact clz d a
  | ctz d a => exact ctz d a
  | popc d a => exact popc d a
  | sel d a b => exact sel d a b
  | nop => exact nop
  | mul d a b la => exact mul d a b la
  | mulh d a b la => exact mulh d a b la
  | mulhn d a b la => exact mulhn d a b la
  | div d a b la => exact div d a b la
  | divn d a b la => exact divn d a b la
  | rem d a b la => exact rem d a b la
  | remn d a b la => exact remn d a b la
  | bfx d a pos wid => exact bfx d a pos wid
  | bfxs d a pos wid => exact bfxs d a pos wid
  | bfi d a pos wid => exact bfi d a pos wid
  | addi d a imm => exact addi d a imm
  | andi d a imm => exact andi d a imm
  | ori d a imm => exact ori d a imm
  | xori d a imm => exact xori d a imm
  | shli d a imm => exact shli d a imm
  | shri d a imm => exact shri d a imm
  | shai d a imm => exact shai d a imm
  | slti d a imm => exact slti d a imm
  | li d imm => exact li d imm
  | lih d imm => exact lih d imm
  | adr d imm => exact adr d imm
  | beq d a off => exact beq d a off
  | bne d a off => exact bne d a off
  | blt d a off => exact blt d a off
  | bge d a off => exact bge d a off
  | bltn d a off => exact bltn d a off
  | bgen d a off => exact bgen d a off
  | jmp off => exact jmp off
  | jal off => exact jal off
  | jalr d a imm => exact jalr d a imm
  | loop a len => exact loop a len
  | endOp => exact endOp
  | endd => exact endd
  | cmt => exact cmt
  | folw => exact folw
  | sig w => exact sig w
  | sigShort sig => exact sigShort sig
  | rdc d num => exact rdc d num
  | wrc a num => exact wrc a num
  | trap code => exact trap code
  | bkpt => exact bkpt
  | fnci => exact fnci
  | tlbi a b => exact tlbi a b
  | snap d => exact snap d
  | dbgh => exact dbgh
  | synld a b => exact synld a b
  | ldB d a la off => exact ldB d a la off
  | ldH d a la off => exact ldH d a la off
  | ldW d a la off => exact ldW d a la off
  | ldD d a la off => exact ldD d a la off
  | ldBS d a la off => exact ldBS d a la off
  | ldHS d a la off => exact ldHS d a la off
  | ldWS d a la off => exact ldWS d a la off
  | stB d a off => exact stB d a off
  | stH d a off => exact stH d a off
  | stW d a off => exact stW d a off
  | stD d a off => exact stD d a off
  | ldp d a la off => exact ldp d a la off
  | stp d a off => exact stp d a off
  | lds d a sc la sz sgn ord => exact lds d a sc la sz sgn ord
  | sts d a sc sz ord => exact sts d a sc sz ord
  | fnc kinds sc => exact fnc kinds sc
  | pfx a sc => exact pfx a sc
  | cln a sc => exact cln a sc
  | invl a sc => exact invl a sc
  | tmad d a b la => exact tmad d a b la
  | amo d a b la op sz => exact amo d a b la op sz
  | amop a b op sz => exact amop a b op sz
  | red a b op sz => exact red a b op sz
  | send d a b => exact send d a b
  | sendk d a cls bnc => exact sendk d a cls bnc
  | sendx d a b => exact sendx d a b
  | spwn d a b la => exact spwn d a b la
  | rdx a => exact rdx a
  | deq d la => exact deq d la
  | mxq a => exact mxq a
  | mxqt d a la => exact mxqt d a la
  | cpq d a la => exact cpq d a la
  | cpqt d a la => exact cpqt d a la
  | wknx d a la => exact wknx d a la
  | clv d a la => exact clv d a la
  | wkrd d a b la => exact wkrd d a b la
  | lnch d a b => exact lnch d a b
  | trig => exact trig
  | vfadd d a b mk zr => exact vfadd d a b mk zr
  | vfsub d a b mk zr => exact vfsub d a b mk zr
  | vfmul d a b mk zr => exact vfmul d a b mk zr
  | vfma d a b mk zr => exact vfma d a b mk zr
  | vfms d a b mk zr => exact vfms d a b mk zr
  | vfnma d a b mk zr => exact vfnma d a b mk zr
  | vfmin d a b mk zr => exact vfmin d a b mk zr
  | vfmax d a b mk zr => exact vfmax d a b mk zr
  | vfabs d a mk zr => exact vfabs d a mk zr
  | vfneg d a mk zr => exact vfneg d a mk zr
  | vfcpy d a b mk zr => exact vfcpy d a b mk zr
  | vfcmp d a b mk zr cond => exact vfcmp d a b mk zr cond
  | vrcp d a mk zr => exact vrcp d a mk zr
  | vrsq d a mk zr => exact vrsq d a mk zr
  | vexp2 d a mk zr => exact vexp2 d a mk zr
  | vadd d a b mk zr lane => exact vadd d a b mk zr lane
  | vsub d a b mk zr lane => exact vsub d a b mk zr lane
  | vmul d a b mk zr lane => exact vmul d a b mk zr lane
  | vmulh d a b mk zr lane => exact vmulh d a b mk zr lane
  | vmin d a b mk zr lane => exact vmin d a b mk zr lane
  | vmax d a b mk zr lane => exact vmax d a b mk zr lane
  | vand d a b mk zr => exact vand d a b mk zr
  | vor d a b mk zr => exact vor d a b mk zr
  | vxor d a b mk zr => exact vxor d a b mk zr
  | vshl d a b mk zr lane => exact vshl d a b mk zr lane
  | vshr d a b mk zr lane => exact vshr d a b mk zr lane
  | vsha d a b mk zr lane => exact vsha d a b mk zr lane
  | vcmp d a b mk zr lane cond => exact vcmp d a b mk zr lane cond
  | vsel d a b mk lane => exact vsel d a b mk lane
  | vld d a la off => exact vld d a la off
  | vst d a off => exact vst d a off
  | vldb d a la off => exact vldb d a la off
  | vldx d a b la mk lane => exact vldx d a b la mk lane
  | vstx d a b mk lane => exact vstx d a b mk lane
  | vperm d a b mk zr lane => exact vperm d a b mk zr lane
  | vsld d a b mk zr lane => exact vsld d a b mk zr lane
  | vins d a b lane => exact vins d a b lane
  | vext d a b lane => exact vext d a b lane
  | vbcast d a mk zr lane => exact vbcast d a mk zr lane
  | vred d a mk lane op => exact vred d a mk lane op
  | vscan d a mk lane op => exact vscan d a mk lane op
  | vcvt d a dst src rnd => exact vcvt d a dst src rnd
  | vcvtSat d a dst src rnd => exact vcvtSat d a dst src rnd
  | vbsc d a b mk knd => exact vbsc d a b mk knd
  | mand d a b => exact mand d a b
  | mor d a b => exact mor d a b
  | mxor d a b => exact mxor d a b
  | mnot d a => exact mnot d a
  | mpop d a => exact mpop d a
  | mset d a => exact mset d a
  | carv a b => exact carv a b
  | cexp a b => exact cexp a b
  | cmis d a b la => exact cmis d a b la
  | cjoin a => exact cjoin a
  | cquit a => exact cquit a
  | tkrq a b sc => exact tkrq a b sc
  | tkps a sc => exact tkps a sc
  | scrd d la sc => exact scrd d la sc
  | lgrd d a la sc => exact lgrd d a la sc
  | trmc a b => exact trmc a b
  | trrd d a b la => exact trrd d a b la
  | cMv d a => exact cMv d a
  | cAdd d b => exact cAdd d b
  | cSub d b => exact cSub d b
  | cAnd d b => exact cAnd d b
  | cAddi d imm => exact cAddi d imm
  | cShli d imm => exact cShli d imm
  | cLi d imm => exact cLi d imm
  | cLd d a off => exact cLd d a off
  | cSt b a off => exact cSt b a off
  | cBeqz d off => exact cBeqz d off
  | cBnez d off => exact cBnez d off
  | cJ off => exact cJ off
  | cEnd => exact cEnd
  | cCmt => exact cCmt
  | cSig sig => exact cSig sig
  | cNop => exact cNop
  | _ => exact fun h => Bool.noConfusion (show false = true from Codec.has_word h)

end RoundTrip
end Laws

/-- What the decoder reads at the program counter does not depend on what follows it. -/
theorem decode_append {bs : List Byte} {j : Instr} {n : Nat} (h : decode bs = .ok (j, n)) (r : List Byte) :
    decode (bs ++ r) = .ok (j, n) := by
  match bs, h with
  | [b0, b1], h =>
    by_cases hc : b0.toNat % 2 = 0
    · simpa only [decode, List.cons_append, hc, if_true] using h
    · simp only [decode, hc, if_false] at h
      cases h
  | [b0, b1, b2], h =>
    by_cases hc : b0.toNat % 2 = 0
    · simpa only [decode, List.cons_append, hc, if_true] using h
    · simp only [decode, hc, if_false] at h
      cases h
  | _ :: _ :: _ :: _ :: _, h => exact h

/-- A row has a word of 16 or of 32 bits, or none. -/
theorem encode_size (j : Instr) : (encode j).1 = 16 ∨ (encode j).1 = 32 ∨ (encode j).1 = 0 := by
  cases j <;> exact of_decide_eq_true rfl

/-- A decoded instruction has one halfword or two. -/
theorem decode_length {bs : List Byte} {j : Instr} {n : Nat} (h : decode bs = .ok (j, n)) : n ≠ 0 := by
  unfold decode at h
  repeat' split at h
  all_goals cases h
  · exact one_ne_zero
  · exact two_ne_zero

/-- Settles O58: by the round trip of each constructor; what the decoder reads from a table word is what it reads from its bytes. -/
theorem encodeDecode : Obligations.EncodeDecode := by
  intro j h
  have hd := Laws.RoundTrip.statement j h
  refine ⟨hd, by rw [decodeTableWord, decode_append hd], ?_⟩
  rcases encode_size j with e | e | e
  · exact .inl e
  · exact .inr e
  · exact absurd (by rw [e]) (decode_length hd)

end Sys2Proof
end

section
/-! PROOF. The integer instructions of two sources and SEL: O1. -/

namespace Sys2Proof
namespace Machine

open Safety

/-! ## Instructions of two sources (07 R113) -/

theorem addW_eq_ofNat (x y : W64) : x + y = BitVec.ofNat 64 (x.toNat + y.toNat) :=
  BitVec.eq_of_toNat_eq (by rw [BitVec.toNat_add, BitVec.toNat_ofNat])

theorem subW_eq_ofInt (x y : W64) : x - y = BitVec.ofInt 64 (x.toInt - y.toInt) :=
  BitVec.eq_of_toInt_eq (by rw [BitVec.toInt_sub, BitVec.toInt_ofInt])

theorem shlW_eq (x y : W64) : shlW x y = if y.toNat < 64 then BitVec.ofNat 64 (x.toNat * 2 ^ y.toNat) else 0 := by
  rw [shlW, shiftLeft_eq_ofNat]

theorem shrW_eq (x y : W64) : shrW x y = if y.toNat < 64 then BitVec.ofNat 64 (x.toNat / 2 ^ y.toNat) else 0 := by
  rw [shrW, ushiftRight_eq_ofNat]

theorem rolW_eq (x y : W64) : rolW x y = (x <<< (y.toNat % 64)) ||| (x >>> (64 - y.toNat % 64)) := by
  rw [rolW, BitVec.rotateLeft_def, Nat.mod_mod]

theorem minW_eq (x y : W64) : minW x y = if x.toInt ≤ y.toInt then x else y := by
  simp only [minW, slt64, decide_eq_true_eq, ← Int.not_le, ite_not]

/-- At equal values the model's MAX takes A where the table takes B: they are the same word. -/
theorem maxW_eq (x y : W64) : maxW x y = if x.toInt ≤ y.toInt then y else x := by
  simp only [maxW, slt64, decide_eq_true_eq]
  rcases lt_trichotomy x.toInt y.toInt with h | h | h
  · rw [if_pos h, if_pos h.le]
  · rw [if_neg h.not_lt, if_pos h.le, BitVec.toInt_inj.1 h]
  · rw [if_neg h.asymm, if_neg h.not_ge]

theorem minnW_eq (x y : W64) : minnW x y = if x.toNat ≤ y.toNat then x else y := by
  simp only [minnW, ult64, decide_eq_true_eq, ← Nat.not_le, ite_not]

theorem maxnW_eq (x y : W64) : maxnW x y = if x.toNat ≤ y.toNat then y else x := by
  simp only [maxnW, ult64, decide_eq_true_eq]
  rcases lt_trichotomy x.toNat y.toNat with h | h | h
  · rw [if_pos h, if_pos h.le]
  · rw [if_neg h.not_lt, if_pos h.le, BitVec.toNat_inj.1 h]
  · rw [if_neg h.asymm, if_neg h.not_ge]

/-- The instructions of `aluForm` are plain, and their meaning computes the form's function of its sources. -/
theorem exec_aluForm {j : Instr} {d a b : Reg} {f : W64 → W64 → W64} (h : aluForm j = some (d, a, b, f)) :
    Plain j ∧ ∃ g, (∀ s, exec j s = issue j (bodyAB d a b g) s) ∧ ∀ x y, g x y = f x y := by
  unfold aluForm at h
  split at h <;> cases h <;> refine ⟨⟨rfl, rfl⟩, _, fun _ => rfl, ?_⟩
  · exact addW_eq_ofNat
  · exact subW_eq_ofInt
  · exact fun _ _ => rfl
  · exact fun _ _ => rfl
  · exact fun _ _ => rfl
  · exact fun _ _ => rfl
  · exact shlW_eq
  · exact shrW_eq
  · exact fun x y => sshiftRight_eq_ofInt x _
  · exact rolW_eq
  · exact minW_eq
  · exact maxW_eq
  · exact minnW_eq
  · exact maxnW_eq
  · exact fun x y => flagW_decide (x.toInt < y.toInt)
  · exact fun x y => flagW_decide (x.toNat < y.toNat)
  · exact fun x y => flagW_decide (x = y)
  · exact addW_eq_ofNat
  · exact addW_eq_ofNat
  · exact subW_eq_ofInt
  · exact fun _ _ => rfl

theorem bodySel_ok {s s1 s2 s3 : State} {d a b : Reg} {x y z : W64} (ha : readG s a = .ok (s1, x)) (hb : readG s1 b = .ok (s2, y))
    (hz : readG s2 d = .ok (s3, z)) (hd : settable s3 d = true) :
    bodySel d a b s = .ok (putG s3 d (if z = 0 then y else x), .seq) := by
  simp only [bodySel, ha, hb, hz, Bind.bind, Except.bind, setG_settable _ hd, ne_eq, ite_not]

/-- Settles O1: each meaning issues a body whose value is the table's. -/
theorem aluTwoSource : Obligations.AluTwoSource := by
  constructor
  · intro j d a b f s s1 s2 x y hj h ha hb hd
    obtain ⟨hp, g, he, hg⟩ := exec_aluForm hj
    exact does_of_body (he s) hp h (by rw [← hg]; exact bodyAB_ok g ha hb hd)
  · intro d a b s s1 s2 s3 x y z h ha hb hz hd
    exact does_of_body rfl ⟨rfl, rfl⟩ h (bodySel_ok ha hb hz hd)

end Machine
end Sys2Proof
end

section
/-! PROOF. Jumps, the counted loop, SIG, FOLW and NOP: O5, O6 and O8. -/

namespace Sys2Proof
namespace Machine

open Safety

/-! ## Jumps (07 R118, R120; 05 R93) -/

theorem linkOf_eq (s : State) : linkOf s = BitVec.ofNat 64 (routine s.cur.pc + 2) := by
  have hc : ofBool s.cur.pc.carried * 32768 = if s.cur.pc.carried then 32768 else 0 := by cases s.cur.pc.carried <;> rfl
  rw [linkOf, w64, hc, routine]

theorem settable_link (s : State) : settable s 1 = true := rfl

theorem bodyJal_ok {s : State} {off : Int} {t : Nat} (ht : (t : Int) = s.cur.pc.off + off) (h : t ≤ 32767) :
    bodyJal off s = .ok (putG s 1 (BitVec.ofNat 64 (routine s.cur.pc + 2)), .jump { s.cur.pc with off := t }) := by
  simp only [bodyJal, transfer_ok ht h, Bind.bind, Except.bind, writeG_settable _ (settable_link s), linkOf_eq]

theorem bodyJal_range {s : State} {off : Int} (h : s.cur.pc.off + off < 0 ∨ 32767 < s.cur.pc.off + off) :
    bodyJal off s = .error (.trap Cause.illegal none) := by
  simp only [bodyJal, transfer_range h, Bind.bind, Except.bind]

theorem bodyJalr_ok {s s1 : State} {d a : Reg} {k : BitVec 14} {x : W64} {t : Nat} (ha : readG s a = .ok (s1, x))
    (hd : settable s1 d = true) (ht : (t : Int) = x.toNat + k.toInt) (h : t ≤ 65535) :
    bodyJalr d a k s = .ok (putG s1 d (BitVec.ofNat 64 (routine s.cur.pc + 2)), .jump ⟨decide (32768 ≤ t), t % 32768⟩) := by
  have hr : ¬ ((t : Int) < 0 ∨ 0xFFFF < (t : Int)) := by omega
  simp only [bodyJalr, ha, Bind.bind, Except.bind, ← ht, if_neg hr, writeG_settable _ hd, linkOf_eq, Int.toNat_natCast]

theorem bodyJalr_range {s s1 : State} {d a : Reg} {k : BitVec 14} {x : W64} (ha : readG s a = .ok (s1, x))
    (h : (x.toNat : Int) + k.toInt < 0 ∨ 65535 < (x.toNat : Int) + k.toInt) :
    bodyJalr d a k s = .error (.trap Cause.illegal none) := by
  simp only [bodyJalr, ha, Bind.bind, Except.bind, if_pos h]
  rfl

/-- Settles O5: the target is checked before the link is written, and the signature as the transfer retires. -/
theorem jumps : Obligations.Jumps := by
  refine ⟨?_, ?_, ?_⟩
  · intro j off hj s h
    have he : exec j s = issue j (fun s => transfer s (s.cur.pc.off + off)) s := by
      rcases hj with ⟨o, rfl, rfl⟩ | ⟨o, rfl, rfl⟩ <;> rfl
    exact ⟨fun t ht hr => does_or_sigTrap he h (transfer_ok ht hr) nofun, fun hr => halts_of_body he h (transfer_range hr)⟩
  · intro o s h
    exact ⟨fun t ht hr => does_or_sigTrap rfl h (bodyJal_ok ht hr) nofun, fun hr => halts_of_body rfl h (bodyJal_range hr)⟩
  · intro d a k s s1 x h ha hd
    exact ⟨fun t ht hr => does_or_sigTrap rfl h (bodyJalr_ok ha hd ht hr) nofun,
      fun hr => halts_of_body rfl h (bodyJalr_range ha hr)⟩

/-! ## The counted loop (07 R121) -/

/-- An effect that no signature check follows is what the instruction does. -/
theorem does_of_unchecked {j : Instr} {s u : State} {nx : Next} {body : State → Effect} (he : exec j s = issue j body s)
    (h : Ready j s) (hb : body s = .ok (u, nx)) (hn : nx ≠ .ended) (hs : sigStops s j nx = false) : Does j s u nx := by
  rw [Does, he]
  exact issue_answers h hb hn hs

theorem sigStops_over (s : State) (j : Instr) (off : Nat) : sigStops s j (.over off) = false := by
  simp [sigStops, takenBy]

/-- Place and loop of the slot after an instruction are those of `advancePc`. -/
theorem slotAfter_place (t u : Slot) (j : Instr) (nx : Next) :
    (slotAfter t j nx u).pc = (advancePc t j nx u).pc ∧ (slotAfter t j nx u).lact = (advancePc t j nx u).lact ∧
      (slotAfter t j nx u).lc = (advancePc t j nx u).lc := by
  have key : ∀ v : Slot, v.pc = u.pc → v.lact = u.lact → v.lc = u.lc →
      (advancePc t j nx v).pc = (advancePc t j nx u).pc ∧ (advancePc t j nx v).lact = (advancePc t j nx u).lact ∧
        (advancePc t j nx v).lc = (advancePc t j nx u).lc := by
    intro v hp hl hc
    rcases nx with - | pc | off | -
    case seq =>
      simp only [advancePc]
      split
      · exact ⟨rfl, hl, rfl⟩
      · split
        · exact ⟨rfl, rfl, rfl⟩
        · exact ⟨rfl, hl, hc⟩
    case jump => exact ⟨rfl, by simp only [advancePc, hl], hc⟩
    case ended => exact ⟨hp, hl, hc⟩
    exact ⟨rfl, hl, hc⟩
  refine key _ ?_ ?_ ?_ <;> split <;> rfl

theorem retires_place {s u t : State} {j : Instr} {nx : Next} (h : Retires s j u nx t) :
    (t.slot s.curCore s.curSlot).pc = (advancePc s.cur j nx (u.slot s.curCore s.curSlot)).pc ∧
      (t.slot s.curCore s.curSlot).lact = (advancePc s.cur j nx (u.slot s.curCore s.curSlot)).lact ∧
      (t.slot s.curCore s.curSlot).lc = (advancePc s.cur j nx (u.slot s.curCore s.curSlot)).lc := by
  obtain ⟨f, st, e⟩ := h.slot
  rw [e]
  exact slotAfter_place _ _ _ _

theorem atLoopEnd_iff {t : Slot} {j : Instr} : atLoopEnd t j = true ↔ t.lact = true ∧ t.pc.off + instrLen j - 1 = t.le := by
  simp [atLoopEnd]

theorem bodyLoop_zero {s s1 : State} {a : Reg} {len : BitVec 8} (hl : s.cur.lact = false) (ha : readG s a = .ok (s1, 0)) :
    bodyLoop a len s = .ok (s1, .over (s.cur.pc.off + 2 + len.toNat)) := by
  simp only [bodyLoop, hl, ha, Bind.bind, Except.bind, if_true, Bool.false_eq_true, if_false]

theorem bodyLoop_start {s s1 : State} {a : Reg} {len : BitVec 8} {x : W64} (hl : s.cur.lact = false) (ha : readG s a = .ok (s1, x))
    (hx : x ≠ 0) : bodyLoop a len s = .ok (s1.modCur fun t => { t with
      lact := true, lc := x.toNat, ls := s.cur.pc.off + 2, le := s.cur.pc.off + 2 + len.toNat - 1 }, .seq) := by
  simp only [bodyLoop, hl, ha, Bind.bind, Except.bind, if_neg hx, Bool.false_eq_true, if_false]

/-- Inside or outside a loop, away from the last halfword of its body. -/
theorem advancePc_seq {t u : Slot} {j : Instr} (h : atLoopEnd t j = false) :
    advancePc t j .seq u = { u with pc := { t.pc with off := t.pc.off + instrLen j } } := by
  simp only [advancePc, backEdge, h, Bool.false_and, Bool.false_eq_true, if_false]

theorem advancePc_back {t u : Slot} {j : Instr} (h : atLoopEnd t j = true) (hc : t.lc ≠ 1) :
    advancePc t j .seq u = { u with pc := { t.pc with off := t.ls }, lc := (t.lc + 2 ^ 64 - 1) % 2 ^ 64 } := by
  rw [advancePc, backEdge, h, Bool.true_and, if_pos (decide_eq_true hc)]

theorem advancePc_last {t u : Slot} {j : Instr} (h : atLoopEnd t j = true) (hc : t.lc = 1) :
    advancePc t j .seq u = { u with pc := { t.pc with off := t.pc.off + instrLen j }, lc := 0, lact := false } := by
  rw [advancePc, backEdge, h, Bool.true_and, if_neg (by simp [hc]), if_pos rfl]

/-- Settles O6: `advancePc` by its cases. -/
theorem loopStarts : Obligations.LoopStarts := by
  constructor
  · intro a len s h
    refine ⟨fun hl => halts_of_body rfl h (by rw [bodyLoop, if_pos hl, trapBits]), fun s1 x hl ha => ⟨fun hx => ?_, fun hx => ?_⟩⟩
    · subst hx
      exact does_of_unchecked rfl h (bodyLoop_zero hl ha) nofun (sigStops_over _ _ _)
    · exact does_of_body rfl ⟨rfl, rfl⟩ h (bodyLoop_start hl ha hx)
  · intro s j u nx t h
    dsimp only
    obtain ⟨h1, h2, h3⟩ := retires_place h
    rw [h1, h2, h3]
    refine ⟨?_, ?_, ?_, ?_, ?_⟩
    · rintro rfl hn
      rw [advancePc_seq (Bool.eq_false_iff.2 (mt atLoopEnd_iff.1 hn))]
      exact ⟨rfl, rfl, rfl⟩
    · rintro rfl hl he hc
      rw [advancePc_back (atLoopEnd_iff.2 ⟨hl, he⟩) hc]
      exact ⟨rfl, rfl, rfl⟩
    · rintro rfl hl he hc
      rw [advancePc_last (atLoopEnd_iff.2 ⟨hl, he⟩) hc]
      exact ⟨rfl, rfl, rfl⟩
    · rintro pc rfl
      refine ⟨rfl, rfl, ?_⟩
      simp only [advancePc]
      split
      · next hi => rw [hi, Bool.not_true, Bool.and_false]
      · next hi => rw [Bool.eq_false_iff.2 hi, Bool.not_false, Bool.and_true]
    · rintro off rfl
      exact ⟨rfl, rfl, rfl⟩

/-! ## SIG, FOLW and NOP (05 R90, R93; 07 R123, R124) -/

/-- A SIG whose check of the running block does not fail is not stopped as a back edge follows it. -/
theorem sigStops_sig {s : State} {j : Instr} (hj : isSig j = true) (h : ¬ (feeds s.cur = true ∧ sigBad s.cur s.cur.crc = true)) :
    sigStops s j .seq = false := by
  have hc : crcAfter s.cur j = s.cur.crc := by rw [crcAfter, if_pos hj]
  rw [sigStops, hc]
  by_contra hn
  simp only [Bool.not_eq_false, Bool.and_eq_true] at hn
  exact h ⟨hn.1.1, hn.2⟩

/-- The instructions of `sigForm` are SIGs, and their meaning arms the form's signature. -/
theorem exec_sigForm {j : Instr} {x : Half} {short : Bool} (h : sigForm j = some (x, short)) :
    isSig j = true ∧ ∀ s, exec j s = issue j (bodySig x short) s := by
  have ext (w : BitVec 11) : w.zeroExtend 16 = BitVec.ofNat 16 w.toNat := BitVec.eq_of_toNat_eq (by simp)
  unfold sigForm at h
  split at h <;> cases h <;> refine ⟨rfl, fun s => ?_⟩
  · rfl
  · rw [← ext]
    rfl
  · rw [← ext]
    rfl

/-- FOLW where the slot leads itself, follows already, or could not follow. -/
theorem bodyFolw_none {s : State} (h : s.leaderOf? s.curCore s.curSlot = none ∨ s.leaderOf? s.curCore s.curSlot = some s.curCore ∨
    s.cur.pc.carried = true ∨ (s.core s.curCore).imemDirty = true ∨ s.cur.follow ≠ none ∨
      ∃ l, s.leaderOf? s.curCore s.curSlot = some l ∧ (s.core l).imemDirty = true) : bodyFolw s = .ok (s, .seq) := by
  unfold bodyFolw
  dsimp only
  split
  · rfl
  · next l hl =>
    rw [if_pos]
    rw [hl] at h
    rcases h with h | h | h | h | h | ⟨k, h, hk⟩
    · cases h
    · exact .inl (Option.some.inj h)
    · exact .inr (.inl h)
    · exact .inr (.inr (.inl h))
    · exact .inr (.inr (.inr (.inr (Option.isSome_iff_ne_none.2 h))))
    · cases h
      exact .inr (.inr (.inr (.inl hk)))

/-- Settles O8: SIG checks and arms by `does_of_unchecked`, and FOLW answers nothing of its own (`bodyFolw_none`). -/
theorem signaturesAndNops : Obligations.SignaturesAndNops := by
  refine ⟨?_, ?_, ?_⟩
  · intro j x short s hj h
    obtain ⟨hs, he⟩ := exec_sigForm hj
    refine ⟨fun hf hb => halts_of_body (he s) h ?_, fun hn hf => ?_, fun hf => ?_⟩
    · simp only [bodySig, hf, hb, Bool.and_self, if_true]
      rfl
    · refine does_of_unchecked (he s) h ?_ nofun (sigStops_sig hs hn)
      have hn' : ¬ (feeds s.cur && sigBad s.cur s.cur.crc) = true := by rwa [Bool.and_eq_true]
      simp only [bodySig, if_neg hn', hf, Option.isSome_none, Bool.false_eq_true, if_false]
    · have hfeeds : feeds s.cur = false := by
        rw [feeds, Option.isNone_eq_false_iff.2 (Option.isSome_iff_ne_none.2 hf), Bool.and_false]
      refine does_of_unchecked (he s) h ?_ nofun (sigStops_sig hs (by simp [hfeeds]))
      simp only [bodySig, hfeeds, Bool.false_and, Bool.false_eq_true, if_false, Option.isSome_iff_ne_none.2 hf, if_true]
  · rintro j (rfl | rfl) s h
    · exact does_of_body rfl ⟨rfl, rfl⟩ h rfl
    · exact does_of_body rfl ⟨rfl, rfl⟩ h rfl
  · intro s h
    constructor
    · intro l hl hlc hcar hd hld hf
      refine does_of_body rfl ⟨rfl, rfl⟩ h ?_
      simp only [bodyFolw, hl, hcar, hd, hld, hf, hlc, Bool.false_eq_true, Option.isSome_none, or_self, if_false]
    · intro hn
      exact does_of_body rfl ⟨rfl, rfl⟩ h (bodyFolw_none hn)

end Machine
end Sys2Proof
end

section
/-! SUPPORT. What a drain hands on, performs at once and leaves alone (06_issuing.md R104, R109; 14_ordering.md R245; 24_protection.md R335). -/

namespace Sys2Proof
namespace Machine

open Safety

/-! ## Units of a core that leave its flight alone -/

theorem advanceCpdn_flight (fuel : Nat) (k : Core) (chan : Nat) : (advanceCpdn fuel k chan).flight = k.flight := by
  induction fuel generalizing k with
  | zero => rfl
  | succ fuel ih =>
    unfold advanceCpdn
    dsimp only
    split
    · exact ih _
    · rfl

theorem retire_flight (k : Core) (chan id : Nat) : (k.retire chan id).flight = k.flight := advanceCpdn_flight _ _ chan

theorem retireTie_flight (k : Core) (t : MsgTie) : (k.retireTie t).flight = k.flight := by
  cases t with
  | none => rfl
  | transfer chan id => exact retire_flight k chan id

/-- A fold of updates of a core that each keep something of it keeps it. -/
theorem foldl_keeps {α β : Type} (p : Core → β) (f : Core → α → Core) (h : ∀ k x, p (f k x) = p k) (l : List α) (k : Core) :
    p (l.foldl f k) = p k := by
  induction l generalizing k with
  | nil => rfl
  | cons x l ih => rw [List.foldl_cons, ih, h]

theorem takeForGood_flight (k : Core) (l : List CRec) : (k.takeForGood l).flight = k.flight :=
  foldl_keeps Core.flight (fun k (r : CRec) => k.retireTie r.tie) (fun k r => retireTie_flight k r.tie) l k

theorem takeForGood_slots (k : Core) (l : List CRec) : (k.takeForGood l).slots = k.slots :=
  foldl_keeps Core.slots (fun k (r : CRec) => k.retireTie r.tie) (fun k r => (retireTie_queueKept k r.tie).1) l k

theorem dropUnreleased_flight (k : Core) (n task : Nat) : (k.dropUnreleased n task).flight = k.flight :=
  foldl_keeps Core.flight (fun k (e : CpEntry) => k.retire e.chan e.xid) (fun k e => retire_flight k e.chan e.xid) _ _

theorem imemWrite_flight (k : Core) (a : Nat) (bs : List NibByte) : (k.imemWrite a bs).flight = k.flight :=
  foldl_keeps Core.flight _ (by exact fun _ _ => rfl) _ _

theorem releaseMx_kept (k : Core) (uid after : Nat) :
    (k.releaseMx uid after).flight = k.flight ∧ (k.releaseMx uid after).slots = k.slots := by
  unfold Core.releaseMx
  split <;> exact ⟨rfl, rfl⟩

theorem releaseCp_kept (k : Core) (uid after : Nat) :
    (k.releaseCp uid after).flight = k.flight ∧ (k.releaseCp uid after).slots = k.slots := by
  unfold Core.releaseCp
  split <;> exact ⟨rfl, rfl⟩

theorem countTrrd_kept (k : Core) (l : Option LaunchId) : (k.countTrrd l).flight = k.flight ∧ (k.countTrrd l).slots = k.slots := by
  cases l <;> exact ⟨rfl, rfl⟩

/-! ## The slots of a core whose IMEM is written (05 R91) -/

theorem get?_map_snd {α : Type} (f : α → α) (m : Tbl α) (n : Nat) :
    Tbl.get? (m.map fun e => (e.1, f e.2)) n = (Tbl.get? m n).map f := by
  induction m with
  | nil => rfl
  | cons e m ih =>
    obtain ⟨j, v⟩ := e
    simp only [List.map_cons, Tbl.get?_cons, ih]
    split <;> rfl

/-- A slot is as it was but for what it follows. -/
def Unled (t u : Slot) : Prop := ∃ f st, u = { t with follow := f, stream := st }

theorem Unled.refl (t : Slot) : Unled t t := ⟨t.follow, t.stream, rfl⟩

theorem Unled.trans {t u v : Slot} (h : Unled t u) (g : Unled u v) : Unled t v := by
  obtain ⟨f, st, rfl⟩ := h
  obtain ⟨f', st', rfl⟩ := g
  exact ⟨f', st', rfl⟩

theorem imemWrite_slot (k : Core) (a : Nat) (bs : List NibByte) (n : Nat) : Unled (k.slot n) ((k.imemWrite a bs).slot n) := by
  unfold Core.imemWrite
  induction bs generalizing k with
  | nil => exact .refl _
  | cons b bs ih =>
    rw [List.foldl_cons]
    refine Unled.trans ?_ (ih _)
    simp only [Core.slot, get?_map_snd (fun t : Slot => { t with follow := none, stream := [] })]
    cases Tbl.get? k.slots n with
    | none => exact ⟨none, [], rfl⟩
    | some t => exact ⟨none, [], rfl⟩

/-! ## What drains leave alone -/

/-- Memory and the issuing slot are as they were, and every slot but for what it follows. -/
structure SlotsUnled (s t : State) : Prop where
  mem : t.mem = s.mem
  place : t.curCore = s.curCore ∧ t.curSlot = s.curSlot
  slots : ∀ d m, Unled (s.slot d m) (t.slot d m)

theorem SlotsUnled.refl (s : State) : SlotsUnled s s := ⟨rfl, ⟨rfl, rfl⟩, fun _ _ => .refl _⟩

theorem SlotsUnled.trans {s t u : State} (h : SlotsUnled s t) (g : SlotsUnled t u) : SlotsUnled s u :=
  ⟨g.mem.trans h.mem, ⟨g.place.1.trans h.place.1, g.place.2.trans h.place.2⟩, fun d m => (h.slots d m).trans (g.slots d m)⟩

theorem SlotsUnled.modCore (s : State) (c : Nat) (f : Core → Core) (h : ∀ m, Unled ((s.core c).slot m) ((f (s.core c)).slot m)) :
    SlotsUnled s (s.modCore c f) := by
  refine ⟨rfl, ⟨rfl, rfl⟩, fun d m => ?_⟩
  simp only [State.slot, State.core_modCore]
  split
  · next e => rw [e]; exact h m
  · exact .refl _

/-- A change of a core that leaves its slots as they are. -/
theorem SlotsUnled.of_slots (s : State) (c : Nat) (f : Core → Core) (h : (f (s.core c)).slots = (s.core c).slots) :
    SlotsUnled s (s.modCore c f) :=
  .modCore s c f fun m => by simp only [Core.slot, h]; exact .refl _

theorem SlotsUnled.foldl {α : Type} {f : State → α → State} (h : ∀ s x, SlotsUnled s (f s x)) (l : List α) (s : State) :
    SlotsUnled s (l.foldl f s) := by
  induction l generalizing s with
  | nil => exact .refl s
  | cons x l ih => exact (h s x).trans (ih _)

theorem localStore_slotsUnled (s : State) (loc : Loc) (bs : List NibByte) : SlotsUnled s (s.localStore loc bs) := by
  cases loc with
  | spad c a => exact .of_slots s c (fun k => k.spadMerge a bs) rfl
  | imem c a => exact .modCore s c (fun k => k.imemWrite a bs) (imemWrite_slot _ a bs)
  | _ => exact .refl s

theorem drainEntry_slotsUnled (s : State) (c : Nat) (e : Entry) : SlotsUnled s (s.drainEntry c e) := by
  unfold State.drainEntry
  split
  · exact .refl s
  · exact .of_slots s c _ (releaseMx_kept _ _ _).2
  · exact .of_slots s c _ (releaseCp_kept _ _ _).2
  · exact .of_slots s c _ (countTrrd_kept _ _).2
  · exact .of_slots s c _ rfl
  · split
    · exact localStore_slotsUnled s _ _
    · exact .of_slots s c _ rfl
  · split
    · exact .refl s
    · exact .of_slots s c _ rfl
  · exact .of_slots s c _ rfl

theorem drainMirror_slotsUnled (s : State) (c n : Nat) : SlotsUnled s (s.drainMirror c n) := by
  unfold State.drainMirror
  refine SlotsUnled.trans (.foldl (fun s e => ?_) _ s) (.of_slots _ c _ (dropUnreleased_queueKept _ _ _).1)
  split
  · split
    · exact localStore_slotsUnled s _ _
    · exact .refl s
  · exact .of_slots s c _ (countTrrd_kept _ _).2
  · exact .of_slots s c _ rfl
  · exact .refl s

theorem localStore_flight (s : State) (loc : Loc) (bs : List NibByte) (c : Nat) :
    ((s.localStore loc bs).core c).flight = (s.core c).flight := by
  unfold State.localStore
  split
  · rw [State.core_modCore]
    split
    · next e => rw [e]; rfl
    · rfl
  · rw [State.core_modCore]
    split
    · next e => rw [e, imemWrite_flight]
    · rfl
  · rfl

/-! ## The flight that a drain leaves (06 R109; 14 R245) -/

/-- The drain hands the entry on: it is neither performed at once nor without a trace outside the core. -/
def Core.handsEntry (k : Core) (c : Nat) (e : Entry) : Bool :=
  match e.act with
  | .tile _ _ _ => false
  | .mxRelease _ => false
  | .cpRelease _ => false
  | .store _ => !(e.own c && k.mayArrive e && (k.nears e).isEmpty)
  | .fence => !decide (e.order = .weak ∨ (e.order = .acq ∧ k.mayPass e = true))
  | _ => true

/-- What is handed on depends on the flight alone. -/
theorem handsEntry_congr {k l : Core} (h : k.flight = l.flight) (c : Nat) (e : Entry) : k.handsEntry c e = l.handsEntry c e := by
  change ({ flight := k.flight } : Core).handsEntry c e = ({ flight := l.flight } : Core).handsEntry c e
  rw [h]

/-- The flight with an entry behind it. -/
def Core.withEntry (k : Core) (e : Entry) : Core := { k with flight := k.flight ++ [⟨e, .waiting⟩] }

/-- The entries of a buffer that a drain hands on, in their order. -/
def Core.handsAll (k : Core) (c : Nat) : List Entry → List Entry
  | [] => []
  | e :: r => if k.handsEntry c e then e :: (k.withEntry e).handsAll c r else k.handsAll c r

theorem handsAll_congr {k l : Core} (h : k.flight = l.flight) (c : Nat) (b : List Entry) : k.handsAll c b = l.handsAll c b := by
  induction b generalizing k l with
  | nil => rfl
  | cons e b ih =>
    have hw : (k.withEntry e).flight = (l.withEntry e).flight := by simp only [Core.withEntry, h]
    simp only [Core.handsAll, handsEntry_congr h, ih h, ih hw]

theorem drainEntry_flight (s : State) (c : Nat) (e : Entry) : ((s.drainEntry c e).core c).flight =
    if (s.core c).handsEntry c e then ((s.core c).withEntry e).flight else (s.core c).flight := by
  cases h : e.act with
  | tile _ _ _ => simp only [State.drainEntry, Core.handsEntry, h, Bool.false_eq_true, if_false]
  | mxRelease uid =>
    simp only [State.drainEntry, Core.handsEntry, h, Bool.false_eq_true, if_false, State.core_modCore_self, (releaseMx_kept _ _ _).1]
  | cpRelease uid =>
    simp only [State.drainEntry, Core.handsEntry, h, Bool.false_eq_true, if_false, State.core_modCore_self, (releaseCp_kept _ _ _).1]
  | store bs =>
    simp only [State.drainEntry, Core.handsEntry, h]
    split
    · next hp => rw [hp, localStore_flight]; rfl
    · next hp => rw [Bool.eq_false_iff.2 hp, State.core_modCore_self]; rfl
  | fence =>
    simp only [State.drainEntry, Core.handsEntry, h]
    split
    · next hp => rw [decide_eq_true hp]; rfl
    · next hp => rw [decide_eq_false hp, State.core_modCore_self]; rfl
  | _ => simp only [State.drainEntry, Core.handsEntry, h, if_true, State.core_modCore_self, Core.withEntry]

theorem drainAll_flight (b : List Entry) (s : State) (c : Nat) : ((b.foldl (fun s e => s.drainEntry c e) s).core c).flight =
    (s.core c).flight ++ ((s.core c).handsAll c b).map fun e => ⟨e, .waiting⟩ := by
  induction b generalizing s with
  | nil => simp [Core.handsAll]
  | cons e b ih =>
    rw [List.foldl_cons, ih, Core.handsAll, drainEntry_flight]
    split
    · next h =>
      have hw : ((s.drainEntry c e).core c).flight = ((s.core c).withEntry e).flight := by rw [drainEntry_flight, if_pos h]
      rw [handsAll_congr hw]
      simp [Core.withEntry]
    · next h =>
      have hw : ((s.drainEntry c e).core c).flight = (s.core c).flight := by rw [drainEntry_flight, if_neg h]
      rw [handsAll_congr hw]

theorem handsAll_sublist (k : Core) (c : Nat) (b : List Entry) : (k.handsAll c b).Sublist b := by
  induction b generalizing k with
  | nil => exact .slnil
  | cons e b ih =>
    rw [Core.handsAll]
    split
    · exact (ih _).cons_cons e
    · exact (ih _).cons e

/-- But for stores to the core's own memory and marks of FNC.sl without .ss, every entry that must be handed on is. -/
theorem handsEntry_filter (k : Core) (c : Nat) (e : Entry) :
    (k.handsEntry c e && (!e.own c && !loadMark e)) = handedOn c e := by
  unfold Core.handsEntry handedOn loadMark Entry.fenceSl Entry.fenceSs Entry.own
  cases e.act with
  | store bs => cases e.loc <;> simp +contextual
  | fence => cases e.order <;> simp
  | _ => rfl

theorem handsAll_filter (k : Core) (c : Nat) (b : List Entry) :
    (k.handsAll c b).filter (fun e => !e.own c && !loadMark e) = b.filter (handedOn c) := by
  induction b generalizing k with
  | nil => rfl
  | cons e b ih =>
    have he := handsEntry_filter k c e
    rw [Core.handsAll]
    split
    · next h =>
      rw [h, Bool.true_and] at he
      simp only [List.filter_cons, he, ih]
    · next h =>
      rw [Bool.eq_false_iff.2 h, Bool.false_and] at he
      simp only [List.filter_cons, ← he, Bool.false_eq_true, if_false, ih]

end Machine
end Sys2Proof
end

section
/-! PROOF. Commit points, task ends and what a drain hands on: O7. -/

namespace Sys2Proof
namespace Machine

open Safety

/-! ## The waits of a commit point (07 R122; 14 R245 case 4; 17 R270; 24 R337) -/

theorem awaitResults_ok {s : State} {need : Pending → Bool} (h : ∀ p ∈ s.cur.pend, need p = true → p.arrived = true ∧ p.bad = none) :
    awaitResults s need = .ok () := by
  have hf : (s.cur.pend.find? fun p => need p && p.arrived && p.bad.isSome) = none := by
    rw [List.find?_eq_none]
    intro p hp hn
    simp only [Bool.and_eq_true] at hn
    rw [(h p hp hn.1.1).2] at hn
    exact absurd hn.2 nofun
  have ha : (s.cur.pend.any fun p => need p && !p.arrived) = false := by
    rw [List.any_eq_false]
    intro p hp hn
    simp only [Bool.and_eq_true, Bool.not_eq_true'] at hn
    rw [(h p hp hn.1).1] at hn
    exact absurd hn.2 nofun
  simp only [awaitResults, hf, ha, Bool.false_eq_true, if_false]

theorem awaitAll_ok {s : State} (h : ResultsIn s) : awaitAll s = .ok () := awaitResults_ok fun p hp _ => h p hp

theorem commitWaits_ok {s : State} (h : MayHandOn s) (fin : Bool) : commitWaits s fin = .ok () := by
  have hc : (!(s.cur.taint && !s.eager s.cur.launch)) = true := by
    cases ht : s.cur.taint
    · rfl
    · rw [h.confirmed ht]; rfl
  have hp : (!(s.paired s.curCore s.curSlot && !s.cur.checked)) = true := by
    cases ht : s.paired s.curCore s.curSlot
    · rfl
    · rw [h.plumbed ht]; rfl
  simp only [commitWaits, awaitAll_ok h.results, require, hc, hp, Bind.bind, Except.bind, if_true]

theorem drained_ok {s : State} (h : MayDrain s) (fin : Bool) : drained s fin = .ok (handsOn s) := by
  have hp := h.performed
  rw [handsOn] at hp ⊢
  simp only [drained, h.fresh, commitWaits_ok h.toMayHandOn, hp, require, Bind.bind, Except.bind, Bool.false_eq_true, if_false,
    Bool.not_false, if_true]

theorem drained_handed {s : State} (h : s.cur.handed = true) (ho : s.ownOpen s.curCore s.curSlot = false) (fin : Bool) :
    drained s fin = .ok s := by
  simp only [drained, h, ho, require, Bind.bind, Except.bind, Bool.not_false, if_true]

theorem drained_waits {s : State} (h : MayHandOn s) (ho : (handsOn s).ownOpen s.curCore s.curSlot = true) (fin : Bool) :
    drained s fin = .error (.handed (handsOn s) (.handing fin)) := by
  rw [handsOn] at ho ⊢
  simp only [drained, h.fresh, commitWaits_ok h, ho, require, Bind.bind, Except.bind, Bool.false_eq_true, if_false, Bool.not_true]

theorem commitPoint_ok {s u : State} (h : Commits s u) : commitPoint s = .ok u := by
  rcases h with ⟨h, rfl⟩ | ⟨hh, ho, rfl⟩
  · simp only [commitPoint, drained_ok h, Bind.bind, Except.bind, committed, complete]
  · simp only [commitPoint, drained_handed hh ho, Bind.bind, Except.bind, complete]

theorem commitPoint_waits {s : State} (h : Commits.waits s) :
    commitPoint s = .error (.handed (handsOn s) (.handing false)) := by
  simp only [commitPoint, drained_waits h.1 h.2, Bind.bind, Except.bind]

/-! ## What a drain leaves -/

theorem foldl_of_step {σ α : Type} (R : σ → σ → Prop) (hr : ∀ s, R s s) (ht : ∀ s t u, R s t → R t u → R s u) {f : σ → α → σ}
    (hf : ∀ s x, R s (f s x)) (l : List α) (s : σ) : R s (l.foldl f s) := by
  induction l generalizing s with
  | nil => exact hr s
  | cons x l ih => exact ht _ _ _ (hf s x) (ih _)

/-- Cores, memory and the issuing slot are as they were. -/
structure CoresKept (s t : State) : Prop where
  cores : t.cores = s.cores
  mem : t.mem = s.mem
  place : t.curCore = s.curCore ∧ t.curSlot = s.curSlot

theorem CoresKept.refl (s : State) : CoresKept s s := ⟨rfl, rfl, rfl, rfl⟩

theorem CoresKept.trans {s t u : State} (h : CoresKept s t) (g : CoresKept t u) : CoresKept s u :=
  ⟨g.cores.trans h.cores, g.mem.trans h.mem, g.place.1.trans h.place.1, g.place.2.trans h.place.2⟩

theorem modDetector_coresKept (s : State) (i : Inst) (f : Detector → Detector) : CoresKept s (s.modDetector i f) := by
  cases i <;> exact ⟨rfl, rfl, rfl, rfl⟩

/-- The notes about an eager task's commits are the detectors', but for the pairs that the task keeps for them. -/
theorem noteEager_eq (s : State) (c n : Nat) : ∃ u, CoresKept s u ∧
    (s.noteEager c n = u ∨ s.noteEager c n = u.modSlot c n fun t => { t with eaten := [] }) := by
  have fold := @foldl_of_step State Completion CoresKept .refl fun _ _ _ => .trans
  unfold State.noteEager
  extract_lets t add u v
  split
  · refine ⟨v, ?_, .inr rfl⟩
    have hu : CoresKept s u := fold (fun s x => modDetector_coresKept s _ _) _ s
    have hv : CoresKept u v := fold (fun s x => modDetector_coresKept s _ _) _ u
    exact hu.trans hv
  · exact ⟨s, .refl s, .inl rfl⟩

theorem modSlot_flight (s : State) (c n d : Nat) (f : Slot → Slot) : ((s.modSlot c n f).core d).flight = (s.core d).flight := by
  unfold State.modSlot State.setSlot
  rw [State.core_setCore]
  split
  · next e => rw [e]; rfl
  · rfl

theorem noteEager_flight (s : State) (c n d : Nat) : ((s.noteEager c n).core d).flight = (s.core d).flight := by
  obtain ⟨u, hu, e⟩ := noteEager_eq s c n
  have hc : u.core d = s.core d := by rw [State.core, State.core, hu.cores]
  rcases e with e | e
  · rw [e, hc]
  · rw [e, modSlot_flight, hc]

/-- A slot is as it was but for the pairs kept for the notes of an eager task. -/
theorem noteEager_slot (s : State) (c n : Nat) : ∃ x, (s.noteEager c n).slot c n = { s.slot c n with eaten := x } := by
  obtain ⟨u, hu, e⟩ := noteEager_eq s c n
  have hc : u.slot c n = s.slot c n := by simp only [State.slot, State.core, hu.cores]
  rcases e with e | e
  · exact ⟨(s.slot c n).eaten, by rw [e, hc]⟩
  · exact ⟨[], by rw [e, State.slot_modSlot_self, hc]⟩

theorem noteEager_mem (s : State) (c n : Nat) : (s.noteEager c n).mem = s.mem := by
  obtain ⟨u, hu, e | e⟩ := noteEager_eq s c n
  · rw [e, hu.mem]
  · rw [e, State.modSlot_mem, hu.mem]

theorem drainMirror_flight (s : State) (c n : Nat) : ((s.drainMirror c n).core c).flight = (s.core c).flight := by
  have fold := @foldl_of_step State Entry (fun s t => (t.core c).flight = (s.core c).flight) (fun _ => rfl)
    fun _ _ _ h g => g.trans h
  unfold State.drainMirror
  dsimp only
  rw [State.core_modCore_self, dropUnreleased_flight]
  refine fold (fun s e => ?_) _ s
  split
  · split
    · exact localStore_flight s _ _ c
    · rfl
  · rw [State.core_modCore_self, (countTrrd_kept _ _).1]
  · rw [State.core_modCore_self]
    rfl
  · rfl

/-- The number of records that a drain takes for good: all, but for one that is read in part. -/
def takenWhole (t : Slot) : Nat := if t.bound.isSome then t.taken.length - 1 else t.taken.length

/-- The entries of a slot's buffer performed or handed on, before the drain's own notes. -/
def State.drainBuf (s : State) (c n : Nat) : State :=
  if (s.primaryOf? c).isSome then s.drainMirror c n else (s.slot c n).buf.foldl (fun s e => s.drainEntry c e) s

/-- A drain by its parts. -/
theorem drain_eq (s : State) (c n : Nat) : s.drain c n =
    (if (s.primaryOf? c).isSome then (s.drainBuf c n).modCore c fun k => k.takeForGood ((s.slot c n).taken.take (takenWhole (s.slot c n)))
      else ((s.drainBuf c n).modCore c fun k => k.takeForGood ((s.slot c n).taken.take (takenWhole (s.slot c n)))).noteEager c n).modSlot c n
    fun t => { t with buf := [], taken := t.taken.drop (takenWhole (s.slot c n)), checked := false, hash := none, drains := t.drains + 1 } := rfl

theorem drainBuf_slotsUnled (s : State) (c n : Nat) : SlotsUnled s (s.drainBuf c n) := by
  unfold State.drainBuf
  split
  · exact drainMirror_slotsUnled s c n
  · exact .foldl (fun s e => drainEntry_slotsUnled s c e) _ s

theorem drain_flight (s : State) (c n : Nat) : ((s.drain c n).core c).flight = (s.core c).flight ++
    if (s.primaryOf? c).isSome then [] else ((s.core c).handsAll c (s.slot c n).buf).map fun e => ⟨e, .waiting⟩ := by
  rw [drain_eq, modSlot_flight]
  split
  · next h =>
    rw [State.core_modCore_self, takeForGood_flight, State.drainBuf, if_pos h, drainMirror_flight, List.append_nil]
  · next h =>
    rw [noteEager_flight, State.core_modCore_self, takeForGood_flight, State.drainBuf, if_neg h, drainAll_flight]

/-- What a drain leaves of the slot: its buffer empty, the records that it has read whole gone. -/
theorem drain_slot (s : State) (c n : Nat) : ∃ f st x, (s.drain c n).slot c n = { s.slot c n with
    follow := f, stream := st, eaten := x, buf := [], taken := (s.slot c n).taken.drop (takenWhole (s.slot c n)), checked := false,
    hash := none, drains := (s.slot c n).drains + 1 } := by
  obtain ⟨f, st, hb⟩ := (drainBuf_slotsUnled s c n).slots c n
  have ht : ((s.drainBuf c n).modCore c fun k => k.takeForGood ((s.slot c n).taken.take (takenWhole (s.slot c n)))).slot c n =
      { s.slot c n with follow := f, stream := st } := by
    rw [State.slot_modCore _ _ _ _ _ (takeForGood_slots _ _), hb]
  rw [drain_eq, State.slot_modSlot_self]
  split
  · exact ⟨f, st, (s.slot c n).eaten, by rw [ht]⟩
  · obtain ⟨x, hx⟩ := noteEager_slot ((s.drainBuf c n).modCore c fun k =>
      k.takeForGood ((s.slot c n).taken.take (takenWhole (s.slot c n)))) c n
    exact ⟨f, st, x, by rw [hx, ht]⟩

theorem drain_mem (s : State) (c n : Nat) : (s.drain c n).mem = s.mem := by
  rw [drain_eq, State.modSlot_mem]
  split
  · rw [State.modCore_mem, (drainBuf_slotsUnled s c n).mem]
  · rw [noteEager_mem, State.modCore_mem, (drainBuf_slotsUnled s c n).mem]

/-- A drain after which no store to the core's own memory is open has handed on none of its task. -/
theorem handsAll_own {s : State} {c n : Nat} (hp : s.primaryOf? c = none) (ht : ∀ e ∈ (s.slot c n).buf, e.task = (s.slot c n).task)
    (ho : (s.drain c n).ownOpen c n = false) : ∀ e ∈ (s.core c).handsAll c (s.slot c n).buf, e.own c = false := by
  intro e he
  obtain ⟨f, st, x, hs⟩ := drain_slot s c n
  have htask : ((s.drain c n).slot c n).task = (s.slot c n).task := by rw [hs]
  rw [State.ownOpen, List.any_eq_false, drain_flight, htask, hp] at ho
  have hm : (⟨e, .waiting⟩ : Flight) ∈ (s.core c).flight ++
      if (none : Option Nat).isSome then [] else ((s.core c).handsAll c (s.slot c n).buf).map fun e => ⟨e, .waiting⟩ :=
    List.mem_append_right _ (List.mem_map_of_mem he)
  have hn := ho _ hm
  rw [ht e ((handsAll_sublist _ _ _).subset he)] at hn
  simpa using hn

theorem drop_takenWhole (t : Slot) :
    t.taken.drop (takenWhole t) = if t.bound = none then [] else t.taken.drop (t.taken.length - 1) := by
  unfold takenWhole
  cases h : t.bound with
  | none => simp
  | some b => simp

/-- What a drain of a core that is no mirror core hands on. -/
theorem drain_hands {s : State} {c n : Nat} (hp : s.primaryOf? c = none) : ∃ l : List Entry,
    ((s.drain c n).core c).flight = (s.core c).flight ++ l.map (fun e => ⟨e, .waiting⟩) ∧
    l.Sublist (s.slot c n).buf ∧ l.filter (fun e => !e.own c && !loadMark e) = (s.slot c n).buf.filter (handedOn c) ∧
    ((∀ e ∈ (s.slot c n).buf, e.task = (s.slot c n).task) → (s.drain c n).ownOpen c n = false →
      l.filter (fun e => !loadMark e) = (s.slot c n).buf.filter (handedOn c)) := by
  refine ⟨(s.core c).handsAll c (s.slot c n).buf, by rw [drain_flight, hp]; rfl, handsAll_sublist _ _ _, handsAll_filter _ _ _, ?_⟩
  intro ht ho
  rw [← handsAll_filter (s.core c) c]
  refine List.filter_congr fun e he => ?_
  rw [handsAll_own hp ht ho e he]
  rfl

/-! ## What a task end leaves of its slot -/

/-- Slot and buffer after the release of a slot. -/
theorem Unled.buf {t u : Slot} (h : Unled t u) : u.buf = t.buf := by
  obtain ⟨f, st, rfl⟩ := h
  rfl

theorem setLaunch_slot (s : State) (l : LaunchId) (x : Launch) (c n : Nat) : (s.setLaunch l x).slot c n = s.slot c n := rfl

theorem noteExit_cores (s : State) (c : Nat) (l : Option LaunchId) : (s.noteExit c l).cores = s.cores := by
  have early (s : State) (l : LaunchId) : (s.reachEarly l).cores = s.cores := by
    unfold State.reachEarly
    split
    · split <;> rfl
    · rfl
  unfold State.noteExit
  split
  · rfl
  · split
    · dsimp only
      split
      · unfold State.triggerAt
        split
        · split
          · rw [early]; rfl
          · rfl
        · rfl
      · rfl
    · rfl

theorem dropFollowers_slot (s : State) (c n d m : Nat) : Unled (s.slot d m) ((s.dropFollowers c n).slot d m) := by
  refine foldl_of_step (fun s t : State => Unled (s.slot d m) (t.slot d m)) (fun _ => .refl _) (fun _ _ _ h g => h.trans g)
    (fun s j => ?_) _ s
  split
  · rw [State.slot_modSlot]
    split
    · next h => rw [h.1, h.2]; exact ⟨none, [], rfl⟩
    · exact .refl _
  · exact .refl _

theorem slot_of_cores {s t : State} (h : t.cores = s.cores) (c n : Nat) : t.slot c n = s.slot c n := by
  simp only [State.slot, State.core, h]

theorem freeSlot_slot (s : State) (c n : Nat) :
    ((s.freeSlot c n).slot c n).running = false ∧ ((s.freeSlot c n).slot c n).buf = (s.slot c n).buf := by
  have hb := (dropFollowers_slot s c n c n).buf
  rw [State.freeSlot, slot_of_cores (noteExit_cores _ _ _), State.slot_modSlot_self]
  generalize (s.dropFollowers c n).slot c n = u at hb
  exact ⟨rfl, hb⟩

theorem endMsg_slotsKept (s : State) (c n task : Nat) (m : Msg) (d k : Nat) : (s.endMsg c n task m).slot d k = s.slot d k := by
  unfold State.endMsg
  split
  · rfl
  · have ht : (s.modCore c fun k => k.retireTie m.tie).slot d k = s.slot d k :=
      State.slot_modCore _ _ _ _ _ (retireTie_queueKept _ _).1
    dsimp only
    split
    · unfold State.passToken State.nextReq
      dsimp only
      rw [State.slot_modCore _ _ _ _ _ rfl, State.slot_modCore _ _ _ _ _ rfl, ht]
    · exact ht

theorem consumeMsg_slot (s : State) (c n d k : Nat) : (s.consumeMsg c n).slot d k = s.slot d k := by
  unfold State.consumeMsg
  dsimp only
  split
  · rw [endMsg_slotsKept, (freeMsg_kept s c _).1.slots]
  · rfl

theorem endRecord_slot (s : State) (c n d k : Nat) : (s.endRecord c n).slot d k = s.slot d k := by
  unfold State.endRecord
  dsimp only
  split <;> rfl

theorem endTask_slot (s : State) (c n : Nat) :
    ((s.endTask c n).slot c n).running = false ∧ ((s.endTask c n).slot c n).buf = (s.slot c n).buf := by
  unfold State.endTask
  extract_lets u v
  have hu : (u.slot c n).buf = (s.slot c n).buf := by
    simp only [u, State.slot_modSlot_self]
    rw [State.slot_modCore _ _ _ _ _ (takeForGood_slots _ _)]
  have hv : v.slot c n = u.slot c n := by
    simp only [v]
    split
    · exact endRecord_slot u c n c n
    · exact consumeMsg_slot u c n c n
  obtain ⟨h1, h2⟩ := freeSlot_slot v c n
  exact ⟨h1, by rw [h2, hv, hu]⟩

theorem discardTask_buf (s : State) (c n : Nat) : ((s.discardTask c n).slot c n).buf = [] := by
  unfold State.discardTask
  dsimp only
  rw [State.slot_modSlot_self]
  unfold State.abortTask
  dsimp only
  rw [State.slot_setSlot_self]

theorem dropTask_slot (s : State) (c n : Nat) :
    ((s.dropTask c n).slot c n).running = false ∧ ((s.dropTask c n).slot c n).buf = [] := by
  unfold State.dropTask
  extract_lets t u v
  have hb : (u.slot c n).buf = [] := discardTask_buf _ c n
  clear_value u
  have hv : v.slot c n = u.slot c n := by
    simp only [v]
    split
    · exact slot_of_cores rfl c n
    · exact consumeMsg_slot u c n c n
  obtain ⟨h1, h2⟩ := freeSlot_slot v c n
  exact ⟨h1, by rw [h2, hv, hb]⟩

/-! ## The signature check of a task end (05 R93; 07 R122) -/

/-- What enters memory at the end of a move leaves every slot. -/
theorem slot_settled (u : State) (m : Memory) (k : Platform) (c n : Nat) :
    (State.settleMem { u with mem := m, plat := k }).slot c n = u.slot c n := rfl

theorem setSlot_rest (k : Core) (n : Nat) (t : Slot) : { k.setSlot n t with slots := k.slots } = k := rfl

theorem modCur_core_rest (s : State) (f : Slot → Slot) (d : Nat) :
    { (s.modCur f).core d with slots := (s.core d).slots } = s.core d := by
  unfold State.modCur State.setCur State.setSlot
  rw [State.core_setCore]
  split
  · next e => rw [e, setSlot_rest]
  · rfl

/-- The state differs in the signature unit of the current slot alone. -/
structure SigOnly (s t : State) : Prop where
  rest : { t with cores := s.cores } = s
  core : ∀ d, { t.core d with slots := (s.core d).slots } = s.core d
  cur : ∃ x y, t.cur = { s.cur with crc := x, armed := y }

theorem sigDone_sigOnly (s : State) (j : Instr) : SigOnly s (sigDone s j) := by
  unfold sigDone
  split
  · exact ⟨rfl, modCur_core_rest s _, _, _, State.cur_modCur s _⟩
  · exact ⟨rfl, fun d => rfl, s.cur.crc, s.cur.armed, rfl⟩

variable {s t : State}

theorem SigOnly.curCore (h : SigOnly s t) : t.curCore = s.curCore := by rw [← h.rest]
theorem SigOnly.curSlot (h : SigOnly s t) : t.curSlot = s.curSlot := by rw [← h.rest]
theorem SigOnly.flight (h : SigOnly s t) (c : Nat) : (t.core c).flight = (s.core c).flight := by rw [← h.core c]

theorem SigOnly.pairOf? (h : SigOnly s t) (c : Nat) : t.pairOf? c = s.pairOf? c := by
  have hi : (t.core c).image = (s.core c).image := by rw [← h.core c]
  have hx : t.ctxs = s.ctxs := by rw [← h.rest]
  have hq : t.parts = s.parts := by rw [← h.rest]
  simp only [State.pairOf?, hi, State.launch?, State.residentIn?, State.ctx, State.part, hx, hq]

theorem SigOnly.primaryOf? (h : SigOnly s t) (c : Nat) : t.primaryOf? c = s.primaryOf? c := by
  simp only [State.primaryOf?, h.pairOf?]

theorem SigOnly.mirrorOf? (h : SigOnly s t) (c : Nat) : t.mirrorOf? c = s.mirrorOf? c := by
  simp only [State.mirrorOf?, h.pairOf?]

theorem SigOnly.eager (h : SigOnly s t) (l : Option LaunchId) : t.eager l = s.eager l := by
  have hx : t.ctxs = s.ctxs := by rw [← h.rest]
  have hf : t.fabric = s.fabric := by rw [← h.rest]
  simp only [State.eager, State.rcdAny?, State.rcd?, State.launch?, State.guest?, State.ctx, hx, hf]

theorem SigOnly.slot (h : SigOnly s t) : ∃ x y, t.slot s.curCore s.curSlot = { s.cur with crc := x, armed := y } := by
  obtain ⟨x, y, e⟩ := h.cur
  exact ⟨x, y, by rw [← e, State.cur, h.curCore, h.curSlot]⟩

theorem SigOnly.resultsIn (h : SigOnly s t) (hr : ResultsIn s) : ResultsIn t := by
  obtain ⟨x, y, e⟩ := h.cur
  rw [ResultsIn, e]
  exact hr

theorem SigOnly.mayHandOn (h : SigOnly s t) (hm : MayHandOn s) : MayHandOn t := by
  obtain ⟨x, y, e⟩ := h.cur
  obtain ⟨x', y', e'⟩ := h.slot
  refine ⟨h.resultsIn hm.results, by rw [e]; exact hm.fresh, ?_, ?_⟩
  · rw [h.eager, e]
    exact hm.confirmed
  · rw [h.curCore, h.curSlot, State.paired, h.primaryOf?, h.mirrorOf?, e, e']
    exact hm.plumbed

/-- Whether a store to the core's own memory is open after the drain does not depend on the signature unit. -/
theorem SigOnly.ownOpen_handsOn (h : SigOnly s t) :
    (handsOn t).ownOpen t.curCore t.curSlot = (handsOn s).ownOpen s.curCore s.curSlot := by
  have key (u : State) : (handsOn u).ownOpen u.curCore u.curSlot =
      ((u.core u.curCore).flight ++ if (u.primaryOf? u.curCore).isSome then []
        else ((u.core u.curCore).handsAll u.curCore u.cur.buf).map fun e => (⟨e, .waiting⟩ : Flight)).any
        fun f => f.e.task == u.cur.task && f.e.own u.curCore := by
    obtain ⟨f, st, x, hs⟩ := drain_slot u u.curCore u.curSlot
    rw [handsOn, State.handOn, State.ownOpen, modSlot_flight, drain_flight, State.slot_modSlot_self, hs]
    rfl
  obtain ⟨x, y, e⟩ := h.cur
  rw [key t, key s, h.flight, h.primaryOf?, h.curCore, e, handsAll_congr (h.flight _)]

theorem SigOnly.ownOpen (h : SigOnly s t) : t.ownOpen t.curCore t.curSlot = s.ownOpen s.curCore s.curSlot := by
  obtain ⟨x, y, e⟩ := h.slot
  rw [State.ownOpen, State.ownOpen, h.curCore, h.curSlot, h.flight, e]
  rfl

theorem SigOnly.mayDrain (h : SigOnly s t) (hm : MayDrain s) : MayDrain t :=
  ⟨h.mayHandOn hm.toMayHandOn, by rw [h.ownOpen_handsOn]; exact hm.performed⟩

theorem sigCheck_ok {j : Instr} (h : (feeds s.cur && sigBad s.cur (crcAfter s.cur j)) = false) : sigCheck s j = .ok (sigDone s j) := by
  unfold sigCheck sigDone
  dsimp only
  split
  · next hf =>
    rw [hf, Bool.true_and] at h
    rw [if_neg (by rw [h]; exact Bool.false_ne_true)]
  · rfl

theorem sigCheck_bad {j : Instr} (h : (feeds s.cur && sigBad s.cur (crcAfter s.cur j)) = true) :
    sigCheck s j = .error (.trap Cause.signature (some (BitVec.ofNat 64 (crcAfter s.cur j).toNat))) := by
  obtain ⟨hf, hb⟩ := Bool.and_eq_true_iff.1 h
  simp only [sigCheck, hf, hb, if_true]
  rfl

/-! ## The task ends (07 R122) -/

theorem bodyEnd_ok {j : Instr} {u : State} (hr : ResultsIn s) (h : (feeds s.cur && sigBad s.cur (crcAfter s.cur j)) = false)
    (hd : drained (sigDone s j) true = .ok u) : bodyEnd j s = .ok (u.endTask u.curCore u.curSlot, .ended) := by
  simp only [bodyEnd, awaitAll_ok hr, sigCheck_ok h, hd, Bind.bind, Except.bind]

/-- An instruction that ends its task answers the state that its effect gives. -/
theorem answers_ended {j : Instr} {u : State} {body : State → Effect} (he : exec j s = issue j body s) (h : Ready j s)
    (hb : body s = .ok (u, .ended)) : exec j s = .next (State.settleMem { u with mem := s.mem, plat := s.plat }) := by
  rw [he, issue, if_pos h.running, State.perform_fresh _ _ h.fresh]
  simp only [State.issueRun, h.checks, hb, State.retireIns, if_true]

theorem exec_end {j : Instr} (hj : j = .endOp ∨ j = .cEnd) : exec j s = issue j (bodyEnd j) s := by
  rcases hj with rfl | rfl <;> rfl

theorem exec_cmt {j : Instr} (hj : j = .cmt ∨ j = .cCmt) : Plain j ∧ exec j s = issue j bodyCmt s := by
  rcases hj with rfl | rfl <;> exact ⟨⟨rfl, rfl⟩, rfl⟩

theorem bodyCmt_ok {u : State} (h : Commits s u) : bodyCmt s = .ok (u, .seq) := by
  simp only [bodyCmt, commitPoint_ok h, Bind.bind, Except.bind]

theorem noteEager_place (s : State) (c n : Nat) : (s.noteEager c n).curCore = s.curCore ∧ (s.noteEager c n).curSlot = s.curSlot := by
  obtain ⟨u, hu, e | e⟩ := noteEager_eq s c n <;> rw [e] <;> exact hu.place

theorem handsOn_place (s : State) : (handsOn s).curCore = s.curCore ∧ (handsOn s).curSlot = s.curSlot := by
  have hb := (drainBuf_slotsUnled s s.curCore s.curSlot).place
  have hd : (s.drain s.curCore s.curSlot).curCore = s.curCore ∧ (s.drain s.curCore s.curSlot).curSlot = s.curSlot := by
    rw [drain_eq, State.modSlot_curCore, State.modSlot_curSlot]
    split
    · exact hb
    · rw [(noteEager_place _ _ _).1, (noteEager_place _ _ _).2]
      exact hb
  exact hd

/-- Settles O7: a commit point waits or hands the buffer on (`commitPoint_waits`, `drained_ok`), END then frees the slot (`endTask_slot`), ENDD drops the task
(`dropTask_slot`). -/
theorem commitPoints : Obligations.CommitPoints := by
  refine ⟨?_, ?_, ?_, ?_, ?_, ?_, ?_⟩
  · intro j hj s h hm
    obtain ⟨hp, he⟩ := exec_cmt hj (s := s)
    exact does_of_body he hp h (bodyCmt_ok (.inl ⟨hm, rfl⟩))
  · intro j hj s h hm hs
    have ho := sigDone_sigOnly s j
    have hb := bodyEnd_ok hm.results hs (drained_ok (ho.mayDrain hm) true)
    obtain ⟨hc, hn⟩ := handsOn_place (sigDone s j)
    rw [hc, hn, ho.curCore, ho.curSlot] at hb
    refine ⟨_, answers_ended (exec_end hj) h hb, rfl, ?_⟩
    obtain ⟨h1, h2⟩ := endTask_slot (handsOn (sigDone s j)) s.curCore s.curSlot
    rw [slot_settled]
    refine ⟨h1, h2.trans ?_⟩
    obtain ⟨f, st, x, e⟩ := drain_slot (sigDone s j) s.curCore s.curSlot
    rw [handsOn, State.handOn, ho.curCore, ho.curSlot, State.slot_modSlot_self, e]
  · intro s h hr hs
    have ho := sigDone_sigOnly s .endd
    have hb : bodyEndd .endd s = .ok ((sigDone s .endd).dropTask s.curCore s.curSlot, .ended) := by
      simp only [bodyEndd, awaitAll_ok hr, sigCheck_ok hs, Bind.bind, Except.bind, ho.curCore, ho.curSlot]
    refine ⟨_, answers_ended rfl h hb, rfl, ?_⟩
    rw [slot_settled]
    exact dropTask_slot _ _ _
  · intro j hj s h hr hs
    rcases hj with rfl | rfl | rfl
    all_goals refine halts_of_body rfl h ?_
    · simp only [bodyEnd, awaitAll_ok hr, sigCheck_bad hs, Bind.bind, Except.bind]
    · simp only [bodyEnd, awaitAll_ok hr, sigCheck_bad hs, Bind.bind, Except.bind]
    · simp only [bodyEndd, awaitAll_ok hr, sigCheck_bad hs, Bind.bind, Except.bind]
  · intro j s hh ho
    constructor
    · intro hj h
      obtain ⟨hp, he⟩ := exec_cmt hj (s := s)
      exact does_of_body he hp h (bodyCmt_ok (.inr ⟨hh, ho, rfl⟩))
    · intro hj h hr hs
      have hd := sigDone_sigOnly s j
      obtain ⟨x, y, e⟩ := hd.cur
      have hb := bodyEnd_ok hr hs (drained_handed (s := sigDone s j) (by rw [e]; exact hh) (hd.ownOpen.trans ho) true)
      rw [hd.curCore, hd.curSlot] at hb
      exact ⟨_, answers_ended (exec_end hj) h hb, rfl⟩
  · intro j s h hm
    constructor
    · intro hj ho
      obtain ⟨-, he⟩ := exec_cmt hj (s := s)
      rw [he]
      refine issue_halts (e := .handed (handsOn s) (.handing false)) h ?_
      simp only [bodyCmt, commitPoint_waits ⟨hm, ho⟩, Bind.bind, Except.bind]
    · intro hj hs ho
      have hd := sigDone_sigOnly s j
      rw [exec_end hj]
      refine issue_halts (e := .handed (handsOn (sigDone s j)) (.handing true)) h ?_
      rw [← hd.curCore, ← hd.curSlot] at ho
      simp only [bodyEnd, awaitAll_ok hm.results, sigCheck_ok hs, drained_waits (hd.mayHandOn hm) ho, Bind.bind, Except.bind]
  · intro s c n hp
    obtain ⟨l, h1, h2, h3, h4⟩ := drain_hands (n := n) hp
    obtain ⟨f, st, x, e⟩ := drain_slot s c n
    refine ⟨l, h1, h2, h3, h4, by rw [e], ?_, by rw [e], drain_mem s c n⟩
    rw [e]
    exact drop_takenWhole _

end Machine
end Sys2Proof
end

section
/-! PROOF. The order of trap records and the checks before an instruction: O9 and O11. -/

namespace Sys2Proof
namespace Machine

open Safety

/-! ## The place of a record in the trap queue (22 R317 case 4) -/

/-- A lower slot's record of the same core and cycle goes before a trap record already there. -/
def goesBefore (r x : TRec) : Bool :=
  r.call.isNone && x.call.isNone && decide (r.type = 1 ∧ x.type = 1) && x.core == r.core && x.at_ == r.at_ && decide (r.slot < x.slot)

theorem enterRec_cons (r x : TRec) (l : List TRec) :
    enterRec r (x :: l) = if goesBefore r x then r :: x :: l else x :: enterRec r l := rfl

theorem goesBefore_false {r x : TRec} (h : x.core ≠ r.core ∨ x.at_ ≠ r.at_ ∨ x.slot ≤ r.slot) : goesBefore r x = false := by
  rw [Bool.eq_false_iff]
  intro hb
  simp only [goesBefore, Bool.and_eq_true, beq_iff_eq, decide_eq_true_eq] at hb
  obtain ⟨⟨⟨-, hc⟩, ha⟩, hs⟩ := hb
  rcases h with h | h | h
  · exact h hc
  · exact h ha
  · exact absurd hs (Nat.not_lt.2 h)

/-- Records that the new one does not go before stay in front of it. -/
theorem enterRec_append (r : TRec) (l q : List TRec) (h : ∀ y ∈ l, y.core ≠ r.core ∨ y.at_ ≠ r.at_ ∨ y.slot ≤ r.slot) :
    enterRec r (l ++ q) = l ++ enterRec r q := by
  induction l with
  | nil => rfl
  | cons y l ih =>
    rw [List.cons_append, enterRec_cons, goesBefore_false (h y List.mem_cons_self), if_neg Bool.false_ne_true,
      ih fun z hz => h z (List.mem_cons_of_mem y hz), List.cons_append]

/-- Settles O9: a trap of an ordinary task is the four steps of R314, and the place of its record the one that `enterRec` finds. -/
theorem trapEntry : Obligations.TrapEntry := by
  refine ⟨?_, ?_, ?_⟩
  · intro s c n p cause code addr h1 h2 h3 hp hd ho
    exact takeTrap_trapped cause code addr h1 h2 h3 hp hd ho
  · intro r q h
    have ha := enterRec_append r q [] h
    rwa [List.append_nil] at ha
  · intro r x q l hr hrt hx hxt hc ha hs hl
    have hb : goesBefore r x = true := by simp [goesBefore, hr, hrt, hx, hxt, hc, ha, hs]
    rw [enterRec_append r l _ hl, enterRec_cons, if_pos hb]

/-! ## The checks before an instruction (05 R85; 06 R100, R102; 07 R121; 08 R133) -/

/-- The meaning of a row with words issues a body; a row without words has no word. -/
theorem exec_issues (j : Instr) (h : (encode j).1 ≠ 0) : ∃ body, ∀ s, exec j s = issue j body s := by
  cases j
  all_goals first
    | exact absurd rfl h
    | exact ⟨_, fun _ => rfl⟩

theorem halts_early {j : Instr} {s : State} {e : Stop} (hj : (encode j).1 ≠ 0) (hw : s.wr = []) (hr : s.cur.running = true)
    (hb : preIssue s j = .error e) : Halts j s e := by
  obtain ⟨body, he⟩ := exec_issues j hj
  rw [Halts, he]
  exact issue_halts_early hw hr hb

section
variable {s : State} {j : Instr}

/-- What BUDGET lets pass. -/
def InBudget (s : State) : Prop := s.cur.budg ≠ 0 ∨ s.cur.checked = true ∨ s.cur.handed = true

theorem require_true {b : Bool} {e : Except Stop Unit} (h : b = true) : require b e = .ok () := if_pos h

theorem require_false {b : Bool} {e : Except Stop Unit} (h : b = false) : require b e = e := if_neg (by rw [h]; exact Bool.false_ne_true)

theorem inBudget_check (h : InBudget s) : (decide (s.cur.budg ≠ 0) || s.cur.checked || s.cur.handed) = true := by
  simpa [InBudget, or_assoc] using h

theorem preIssue_budget (h0 : s.cur.budg = 0) (h1 : s.cur.checked = false) (h2 : s.cur.handed = false) :
    preIssue s j = .error (.trap Cause.budget (some 0)) := by
  have h : (decide (s.cur.budg ≠ 0) || s.cur.checked || s.cur.handed) = false := by simp [h0, h1, h2]
  simp only [preIssue, require_false h, trapAt, Bind.bind, Except.bind]

theorem preIssue_lookahead (hb : InBudget s) (hf : forbidden j = none) (hc : isCommit s j = false) (hl : lookaheadTrap s.cur j = true) :
    preIssue s j = .error (.trap Cause.lookahead none) := by
  have h : (isCommit s j || !lookaheadTrap s.cur j) = false := by rw [hc, hl]; rfl
  have hn : (forbidden j).isNone = true := by rw [hf]; rfl
  simp only [preIssue, require_true (inBudget_check hb), require_true hn, require_false h, trapBits, Bind.bind, Except.bind]

/-- The checks up to LOOKAHEAD pass. -/
structure Decoded (s : State) (j : Instr) : Prop where
  budget : InBudget s
  allowed : forbidden j = none
  window : isCommit s j = true ∨ lookaheadTrap s.cur j = false

theorem Decoded.windowed (h : Decoded s j) : (isCommit s j || !lookaheadTrap s.cur j) = true := by
  rcases h.window with hc | hl
  · rw [hc, Bool.true_or]
  · rw [hl, Bool.not_false, Bool.or_true]

theorem preIssue_misfit (h : Decoded s j) (hm : loopMisfit s.cur j = true) : preIssue s j = .error (.trap Cause.illegal none) := by
  have hn : (forbidden j).isNone = true := by rw [h.allowed]; rfl
  have hl : (!loopMisfit s.cur j) = false := by rw [hm]; rfl
  simp only [preIssue, require_true (inBudget_check h.budget), require_true hn, require_true h.windowed, require_false hl, trapBits,
    Bind.bind, Except.bind]

/-- What comes after the check of the loop's body. -/
theorem preIssue_results {e : Stop} (h : Decoded s j) (hm : loopMisfit s.cur j = false)
    (hr : (awaitResults s (fun p => isCommit s j || decide (p.left = 0)) >>= fun _ => awaitOldest s.cur j) = .error e) :
    preIssue s j = .error e := by
  have hn : (forbidden j).isNone = true := by rw [h.allowed]; rfl
  have hl : (!loopMisfit s.cur j) = true := by rw [hm]; rfl
  simp only [preIssue, require_true (inBudget_check h.budget), require_true hn, require_true h.windowed, require_true hl]
  cases ha : awaitResults s (fun p => isCommit s j || decide (p.left = 0)) with
  | error e' =>
    rw [ha] at hr
    exact hr
  | ok _ =>
    rw [ha] at hr
    cases ho : awaitOldest s.cur j with
    | error e' =>
      rw [ho] at hr
      exact hr
    | ok _ =>
      rw [ho] at hr
      cases hr

theorem due_iff (p : Pending) : (isCommit s j || decide (p.left = 0)) = true ↔ Due s j p := by
  rw [Bool.or_eq_true, decide_eq_true_eq, Due]

/-- The first due result that brought a fault is trapped. -/
theorem awaitResults_bad {need : Pending → Bool} {l r : List Pending} {p : Pending} {cause : Nat} {a : W64}
    (hp : s.cur.pend = l ++ p :: r) (hn : need p = true) (ha : p.arrived = true) (hb : p.bad = some (cause, a))
    (hl : ∀ q ∈ l, need q = true → q.arrived = true → q.bad = none) : awaitResults s need = .error (.trap cause (some a)) := by
  have hf : (s.cur.pend.find? fun p => need p && p.arrived && p.bad.isSome) = some p := by
    rw [hp, List.find?_eq_some_iff_append]
    refine ⟨by rw [hn, ha, hb]; rfl, l, r, rfl, fun q hq => ?_⟩
    rw [Bool.not_eq_true', ← Bool.not_eq_true]
    intro h
    simp only [Bool.and_eq_true] at h
    rw [hl q hq h.1.1 h.1.2] at h
    exact absurd h.2 nofun
  simp only [awaitResults, hf, hb, trapAt]

theorem awaitResults_hold {need : Pending → Bool} (hn : ∀ q ∈ s.cur.pend, need q = true → q.arrived = true → q.bad = none)
    (h : ∃ p ∈ s.cur.pend, need p = true ∧ p.arrived = false) : awaitResults s need = .error (.hold .results) := by
  have hf : (s.cur.pend.find? fun p => need p && p.arrived && p.bad.isSome) = none := by
    rw [List.find?_eq_none]
    intro p hp hb
    simp only [Bool.and_eq_true] at hb
    rw [hn p hp hb.1.1 hb.1.2] at hb
    exact absurd hb.2 nofun
  have ha : (s.cur.pend.any fun p => need p && !p.arrived) = true := by
    obtain ⟨p, hp, h1, h2⟩ := h
    exact List.any_eq_true.2 ⟨p, hp, by rw [h1, h2]; rfl⟩
  simp only [awaitResults, hf, ha, if_true]

theorem awaitOldest_hold {t : Slot} {p : Pending} {r : List Pending} (h : (t.pend.filter fun q => !q.arrived) = p :: r)
    (hr : 3 ≤ r.length) (hl : (lookahead j).isSome = true) : awaitOldest t j = .error (.hold (.oldest p.uid)) := by
  simp only [awaitOldest, h, hl, decide_eq_true hr, Bool.and_self, if_true]

end

/-- Settles O11: each check is reached only where those before it pass. -/
theorem checksBeforeIssue : Obligations.ChecksBeforeIssue := by
  intro j s hj hw hr
  refine ⟨fun h0 h1 h2 => halts_early hj hw hr (preIssue_budget h0 h1 h2), fun hb => ⟨fun hf => ?_, fun hf => ⟨fun hc hl => ?_, fun hx => ?_⟩⟩⟩
  · exact halts_early hj hw hr (preIssue_forbidden hb (Option.isSome_iff_ne_none.2 hf))
  · exact halts_early hj hw hr (preIssue_lookahead hb hf hc hl)
  · have hd : Decoded s j := ⟨hb, hf, hx⟩
    refine ⟨fun hm => halts_early hj hw hr (preIssue_misfit hd hm), fun hm => ⟨?_, fun hgood => ⟨?_, ?_⟩⟩⟩
    · intro l p r cause a hp hdue ha hbad hl
      refine halts_early hj hw hr (preIssue_results hd hm ?_)
      rw [awaitResults_bad hp ((due_iff p).2 hdue) ha hbad fun q hq hn => hl q hq ((due_iff q).1 hn)]
      rfl
    · intro p hp hdue ha
      refine halts_early hj hw hr (preIssue_results hd hm ?_)
      rw [awaitResults_hold (fun q hq hn => hgood q hq ((due_iff q).1 hn)) ⟨p, hp, (due_iff p).2 hdue, ha⟩]
      rfl
    · intro harr p r hp h3 hl
      refine halts_early hj hw hr (preIssue_results hd hm ?_)
      have hq : ∀ q ∈ s.cur.pend, (isCommit s j || decide (q.left = 0)) = true → q.arrived = true ∧ q.bad = none := fun q hq hn =>
        ⟨harr q hq ((due_iff q).1 hn), hgood q hq ((due_iff q).1 hn) (harr q hq ((due_iff q).1 hn))⟩
      rw [awaitResults_ok hq]
      exact awaitOldest_hold hp h3 hl

end Machine
end Sys2Proof
end

section
/-! PROOF. The privileged instructions and FNCI: O12. -/

namespace Sys2Proof
namespace Machine

open Safety

/-! ## Walks that have not completed (07 R129) -/

/-- A walk that is listed as open is open. -/
theorem walkOpen_of_mem {s : State} {p : Nat} {w : Nat × Nat × Nat} (h : w ∈ s.walksOpen p) : s.walkOpen p w = true := by
  rw [State.walkOpen, List.contains_iff_mem.2 h, Bool.true_or]

/-! ## TLBI (07 R129) -/

theorem privileged_ok {α : Type} {s : State} {f : Unit → Except Stop α} (h : s.privileged s.curCore s.curSlot = true) :
    (privileged s >>= f) = f () := by
  simp only [privileged, require, h]
  rfl

/-- The operands that TLBI takes: one address below 2^48, or the whole partition. -/
theorem tlbi_operands {x y : W64} (h : field y 1 0 = 1 ∨ (field y 1 0 = 0 ∧ field x 63 48 = 0)) :
    (decide (field y 1 0 ≤ 1) && !(decide (field y 1 0 = 0) && decide (field x 63 48 ≠ 0))) = true := by
  rcases h with h | ⟨h, h'⟩
  · simp [h]
  · simp [h, h']

section
variable {s s1 s2 : State} {a b : Reg} {x y : W64} {p : Nat}

/-- What TLBI does once its operands are read and pass. -/
theorem bodyTlbi_eq (hp : s.privileged s.curCore s.curSlot = true) (ha : readG s a = .ok (s1, x)) (hb : readG s1 b = .ok (s2, y))
    (hc : s2.corePart? s2.curCore = some p) (h : field y 1 0 = 1 ∨ (field y 1 0 = 0 ∧ field x 63 48 = 0)) :
    let walks := (s2.walksOpen p).filter fun w => w.1 != 0 || w.2.1 != 8 * s2.curCore + s2.curSlot
    bodyTlbi none a b s = (require (!(s2.core s2.curCore).flight.any (fun f => f.e.task == s2.cur.task && f.e.writes) && walks.isEmpty
        && !s2.pinned p fun q => decide (field y 1 0 = 1) || s2.oneTranslation p (field x 47 0) q.gva) (.error (.hold (.tlbi walks)))
      >>= fun _ =>
        let u := s2.dropTlb fun t => t.part == p && (decide (field y 1 0 = 1) ||
          decide (t.va ≤ field x 47 0 ∧ field x 47 0 < t.va + t.size))
        .ok (if field y 1 0 = 1 then u.sampleRoot (u.part p).ctx else u, .seq)) := by
  intro walks
  have hw : walks.filter (s2.walkOpen p) = walks :=
    List.filter_eq_self.2 fun w hw => walkOpen_of_mem (List.mem_filter.1 hw).1
  rw [bodyTlbi, privileged_ok hp]
  simp only [ha, hb, hc, require_true (tlbi_operands h), Bind.bind, Except.bind, Option.getD_none]
  rw [hw]

theorem bodyTlbi_illegal (hp : s.privileged s.curCore s.curSlot = true) (ha : readG s a = .ok (s1, x)) (hb : readG s1 b = .ok (s2, y))
    (h : 1 < field y 1 0) : bodyTlbi none a b s = .error (.trap Cause.illegal none) := by
  have hn : (decide (field y 1 0 ≤ 1) && !(decide (field y 1 0 = 0) && decide (field x 63 48 ≠ 0))) = false := by
    rw [decide_eq_false (Nat.not_le.2 h), Bool.false_and]
  rw [bodyTlbi, privileged_ok hp]
  simp only [ha, hb, require_false hn, Bind.bind, Except.bind, trapBits]

end

/-! ## SYNLD (07 R132; 17 R275) -/

/-- The turn of a new SYNLD that waits is behind every one that waits already. -/
theorem lt_synldTurn {s : State} {e : Nat × Partition} (he : e ∈ s.parts) {t : Nat} (ht : (s.slot e.2.supCore 7).wait = .synld t) :
    t < s.synldTurn := by
  have mono : ∀ (l : Tbl Partition) (m : Nat), m ≤ l.foldl (fun m e =>
      match (s.slot e.2.supCore 7).wait with | .synld t => Nat.max m t | _ => m) m := by
    intro l
    induction l with
    | nil => exact fun m => le_rfl
    | cons e l ih =>
      intro m
      rw [List.foldl_cons]
      refine le_trans ?_ (ih _)
      split
      · exact Nat.le_max_left _ _
      · exact le_rfl
  have key : ∀ (l : Tbl Partition) (m : Nat), e ∈ l → t ≤ l.foldl (fun m e =>
      match (s.slot e.2.supCore 7).wait with | .synld t => Nat.max m t | _ => m) m := by
    intro l
    induction l with
    | nil => exact fun m h => absurd h List.not_mem_nil
    | cons f l ih =>
      intro m h
      rw [List.foldl_cons]
      rcases List.mem_cons.1 h with rfl | h
      · rw [ht]
        exact (Nat.le_max_right m t).trans (mono l _)
      · exact ih _ h
  exact Nat.lt_one_add_iff.2 (key _ 0 he)

/-- An address that names no mortar state: bits that must be 0, an unknown type, no scope. -/
theorem mfield_illegal {s : State} {p : Nat} {a : W64} (h : field a 31 0 ≠ 0 ∨ 5 ≤ field a 62 60 ∨ field a 59 58 = 0) :
    s.mfield p a = .error Cause.illegal := by
  rcases h with h | h | h
  · simp only [State.mfield, ne_eq, h, not_false_eq_true, if_true]
  · unfold State.mfield
    extract_lets k type
    have ht : 5 ≤ type := h
    clear_value type
    split
    · rfl
    · split
      · omega
      · omega
      · omega
      · omega
      · omega
      · rfl
  · unfold State.mfield
    extract_lets k type scope yy xx idx mem fld inside cl dom ringOk sysOk
    have hs : scope = 0 := h
    have hr : ringOk = false := by simp [ringOk, hs]
    have hy : sysOk = false := by simp [sysOk, hs]
    clear_value type ringOk sysOk scope
    split
    · rfl
    · split <;> simp [hs, hr, hy]

/-- A field of a course (17 R275). -/
theorem mfield_course {s : State} {p : Nat} {a : W64} (h0 : field a 31 0 = 0) (ht : field a 62 60 = 0) (hs : field a 59 58 = 1)
    (hi : field a 49 44 ≤ 15) (hf : field a 35 32 ≤ 11) (hm : field a 43 36 = 0 ∨ (field a 35 32 = 5 ∧ field a 43 36 ≤ 71)) :
    s.mfield p a = if decide (field a 53 50 ≤ (s.part p).pw) && decide (field a 57 54 ≤ (s.part p).ph) then
      .ok (.course (clusterAt ((s.part p).px + field a 53 50) ((s.part p).py + field a 57 54)) (field a 49 44) (field a 35 32) (field a 43 36))
      else .error Cause.permission := by
  have hc : field a 59 58 = 1 ∧ field a 49 44 ≤ 15 ∧ field a 43 36 ≤ 71 ∧ field a 35 32 ≤ 11 ∧ (field a 35 32 = 5 ∨ field a 43 36 = 0) := by
    omega
  simp only [State.mfield, ne_eq, h0, not_true_eq_false, if_false, ht, if_pos hc]

section
variable {s s1 s2 : State} {a b : Reg} {x v : W64}

/-- The operands of a SYNLD in a supervisor slot are read and name a field. -/
theorem bodySynld_field {f : MField} (hp : s.privileged s.curCore s.curSlot = true) (ha : readG s a = .ok (s1, x))
    (hb : readG s1 b = .ok (s2, v)) (hf : s2.mfield ((s2.corePart? s2.curCore).getD 0) (x &&& 0x7FFFFFFFFFFFFFFF#64) = .ok f) :
    bodySynld a b none s =
      if bitAt x 63 then
        if 16 ≤ s2.cur.staged.length then trapBits Cause.illegal
        else .ok (s2.modCur fun t => { t with staged := t.staged ++ [(x &&& 0x7FFFFFFFFFFFFFFF#64, v)] }, .seq)
      else require (s2.cur.staged.all fun e => field e.1 59 58 == field (x &&& 0x7FFFFFFFFFFFFFFF#64) 59 58) (trapBits Cause.illegal)
        >>= fun _ => .error (.hold (.synld s2.synldTurn)) := by
  rw [bodySynld, privileged_ok hp]
  simp only [ha, hb, hf, Bind.bind, Except.bind, Option.any_none, Bool.false_eq_true, if_false, Option.map_none, Option.getD_none]

theorem bodySynld_trap {cause : Nat} (hp : s.privileged s.curCore s.curSlot = true) (ha : readG s a = .ok (s1, x))
    (hb : readG s1 b = .ok (s2, v)) (hf : s2.mfield ((s2.corePart? s2.curCore).getD 0) (x &&& 0x7FFFFFFFFFFFFFFF#64) = .error cause) :
    bodySynld a b none s = .error (.trap cause none) := by
  rw [bodySynld, privileged_ok hp]
  simp only [ha, hb, hf, Bind.bind, Except.bind, trapBits]

end

/-! ## SNAP and DBGH (07 R130, R131) -/

theorem bodySnap_eq {d : Reg} {s : State} {p : Nat} (hp : s.privileged s.curCore s.curSlot = true)
    (hc : s.corePart? s.curCore = some p) :
    bodySnap none d s = (require ((s.openWrites p).isEmpty && (s.part p).cow.isEmpty) (.error (.hold (.snap (s.openWrites p))))
      >>= fun _ => setG (s.modPart p fun k => { k with snapEpoch := ((s.part p).snapEpoch + 1) % 2 ^ 32 }) d
        (w64 (((s.part p).snapEpoch + 1) % 2 ^ 32))) := by
  have ho : (s.openWrites p).filter (s.openWrites p).contains = s.openWrites p :=
    List.filter_eq_self.2 fun w hw => List.contains_iff_mem.2 hw
  rw [bodySnap, privileged_ok hp]
  simp only [hc, Option.getD_none, ho]

theorem bodyDbgh_ok {s : State} {p : Nat} (hp : s.privileged s.curCore s.curSlot = true) (hc : s.corePart? s.curCore = some p) :
    bodyDbgh s = .ok ((s.askHalt p).modCore s.curCore fun k => { k with halted := true }, .seq) := by
  rw [bodyDbgh, privileged_ok hp]
  simp only [hc]

/-- Settles O12: each body by its equation (`bodyTlbi_eq`, `bodySnap_eq`, `bodyDbgh_ok`), SYNLD by the table of mortar state (`mfield_course`). -/
theorem systemInstructions : Obligations.SystemInstructions := by
  refine ⟨?_, ?_, ?_, ?_, ?_, ?_, ?_, ?_⟩
  · intro s h
    exact does_of_body rfl ⟨rfl, rfl⟩ h rfl
  · intro a b s s1 s2 x y p h hp ha hb hc
    extract_lets writing held walks
    refine ⟨fun hy => halts_of_body rfl h (bodyTlbi_illegal hp ha hb hy), fun hy => ?_⟩
    have he : bodyTlbi none a b s = _ := bodyTlbi_eq hp ha hb hc hy
    refine ⟨fun hn => halts_of_body rfl h ?_, fun hw hh hk => ?_⟩
    · rw [he, require_false]
      · rfl
      · rw [Bool.eq_false_iff]
        intro hall
        simp only [Bool.and_eq_true, Bool.not_eq_true', List.isEmpty_iff] at hall
        obtain ⟨⟨h1, h2⟩, h3⟩ := hall
        rcases hn with hn | hn | hn
        · exact Bool.false_ne_true (h1.symm.trans hn)
        · exact Bool.false_ne_true (h3.symm.trans hn)
        · exact hn h2
    · have hr : (!(s2.core s2.curCore).flight.any (fun f => f.e.task == s2.cur.task && f.e.writes) && walks.isEmpty
          && !s2.pinned p fun q => decide (field y 1 0 = 1) || s2.oneTranslation p (field x 47 0) q.gva) = true := by
        simp only [Bool.and_eq_true, Bool.not_eq_true', List.isEmpty_iff]
        exact ⟨⟨hw, hk⟩, hh⟩
      rw [require_true hr] at he
      constructor
      · intro h0
        refine does_of_body rfl ⟨rfl, rfl⟩ h (he.trans ?_)
        simp only [Bind.bind, Except.bind, h0, zero_ne_one, decide_false, Bool.false_or, if_false]
      · intro h1
        refine does_of_body rfl ⟨rfl, rfl⟩ h (he.trans ?_)
        simp only [Bind.bind, Except.bind, h1, decide_true, Bool.true_or, Bool.and_true, if_true]
        rfl
  · intro d s p h hp hc hd
    have he := bodySnap_eq (d := d) hp hc
    refine ⟨fun ho hw => ?_, fun hn => halts_of_body rfl h ?_⟩
    · refine does_of_body rfl ⟨rfl, rfl⟩ h (he.trans ?_)
      rw [require_true (by rw [ho, hw]; rfl)]
      exact setG_settable _ hd
    · rw [he, require_false]
      · rfl
      · rw [Bool.eq_false_iff]
        intro hall
        simp only [Bool.and_eq_true, List.isEmpty_iff] at hall
        exact hn.elim (fun hn => hn hall.1) (fun hn => hn hall.2)
  · intro s p h hp hc
    exact does_of_body rfl ⟨rfl, rfl⟩ h (bodyDbgh_ok hp hc)
  · intro a b s s1 s2 x v f h hp ha hb hf
    have he := bodySynld_field hp ha hb hf
    refine ⟨fun hx hl => halts_of_body rfl h ?_, fun hx hl => ?_, fun hx hall => ⟨s2.synldTurn, halts_of_body rfl h ?_, ?_⟩,
      fun hx hne => halts_of_body rfl h ?_⟩
    · rw [he, if_pos hx, if_pos hl]
      rfl
    · exact does_of_body rfl ⟨rfl, rfl⟩ h (by rw [he, if_pos hx, if_neg (Nat.not_le.2 hl)])
    · have hr := List.all_eq_true.2 fun e hm => beq_iff_eq.2 (hall e hm)
      rw [he, if_neg (Bool.not_eq_true _ ▸ hx), require_true hr]
      rfl
    · exact fun e hm t ht => lt_synldTurn hm ht
    · obtain ⟨e, hm, hne⟩ := hne
      have hr : (s2.cur.staged.all fun e => field e.1 59 58 == field (x &&& 0x7FFFFFFFFFFFFFFF#64) 59 58) = false :=
        List.all_eq_false.2 ⟨e, hm, mt beq_iff_eq.1 hne⟩
      rw [he, if_neg (Bool.not_eq_true _ ▸ hx), require_false hr]
      rfl
  · intro a b s s1 s2 x v cause h hp ha hb hf
    exact halts_of_body rfl h (bodySynld_trap hp ha hb hf)
  · intro s p a h
    exact mfield_illegal h
  · intro s p a h0 ht hs hi hf hm
    have he := mfield_course (s := s) (p := p) h0 ht hs hi hf hm
    refine ⟨fun hin => ⟨_, he.trans (if_pos (by simpa using hin))⟩, fun hout => he.trans (if_neg ?_)⟩
    simp only [Bool.and_eq_true, decide_eq_true_eq]
    omega

end Machine
end Sys2Proof
end

section
/-! PROOF. RDC, WRC and the numbers of the control registers: O13. -/

namespace Sys2Proof
namespace Machine

open Safety

/-! ## RDC and WRC (06 R105; 07 R125; 11 R206) -/

/-- An event on a settled state takes the effect of its operation. -/
theorem occurs_event {j : Instr} {s : State} {f : State → State} (he : exec j s = event f s) (h : s.wr = []) : Occurs j s (f s) := by
  rw [Occurs, he, event, State.perform_fresh f s h]

section
variable {s s1 : State} {a : Reg} {num : BitVec 12} {x : W64}

theorem bodyWrc_none (ha : readG s a = .ok (s1, x)) (h : s1.writeCR num.toNat x = none) :
    bodyWrc a num s = .error (.trap Cause.illegal none) := by
  simp only [bodyWrc, ha, h, Bind.bind, Except.bind, trapBits]

theorem bodyWrc_some {u : State} (ha : readG s a = .ok (s1, x)) (h : s1.writeCR num.toNat x = some u) :
    bodyWrc a num s =
      if num = 0x008 ∧ (s1.core s1.curCore).mmasPending = true then .error (.hold .skip) else .ok (u, .seq) := by
  simp only [bodyWrc, ha, h, Bind.bind, Except.bind]

end

theorem readCR_isSome (s : State) (num : Nat) : s.readCR num ≠ none ↔
    (num ∈ [0x000, 0x001, 0x002, 0x003, 0x004, 0x009, 0x00A, 0x010, 0x011, 0x012, 0x013, 0x014, 0x015, 0x018, 0x019, 0x020, 0x021,
      0x022, 0x023, 0x024, 0x025] ∨ (num = 0x008 ∧ indexOf s.curCore ≠ 8)) := by
  unfold State.readCR
  dsimp only
  split
  case h_23 =>
    simp only [List.mem_cons, List.not_mem_nil]
    tauto
  all_goals simp

theorem writeCR_lfsr (s : State) (x : W64) : s.writeCR 0x00A x = some (s.modCur fun t => { t with
    regs := { t.regs with lfsr := if x.toNat % 2 ^ 32 = 0 then 1 else BitVec.ofNat 32 x.toNat } }) := by
  have hz : BitVec.ofNat 32 x.toNat = 0 ↔ x.toNat % 2 ^ 32 = 0 := by
    rw [← BitVec.toNat_inj, BitVec.toNat_ofNat]
    rfl
  simp only [State.writeCR, hz]

/-- Settles O13: the numbers that are listed (`readCR_isSome`), and a WRC as `writeCR` takes or refuses it (`bodyWrc_some`, `bodyWrc_none`). -/
theorem controlRegisters : Obligations.ControlRegisters := by
  refine ⟨?_, ?_, ?_, readCR_isSome, writeCR_lfsr, ?_⟩
  · intro d num s x h hx hd
    refine does_of_body rfl ⟨rfl, rfl⟩ h ?_
    simp only [bodyRdc, hx, setG_settable _ hd]
  · intro d num s h hx
    refine halts_of_body rfl h ?_
    simp only [bodyRdc, hx, trapBits]
  · intro a num s s1 x h ha
    refine ⟨fun u hu hp => ?_, fun hn => halts_of_body rfl h (bodyWrc_none ha hn), fun hnum hn hp => ?_⟩
    · refine does_of_body rfl ⟨rfl, rfl⟩ h ((bodyWrc_some ha hu).trans (if_neg ?_))
      rintro ⟨hnum, hpend⟩
      exact Bool.false_ne_true ((hp hnum).symm.trans hpend)
    · obtain ⟨u, hu⟩ := Option.ne_none_iff_exists'.1 hn
      exact halts_of_body rfl h ((bodyWrc_some ha hu).trans (if_pos ⟨hnum, hp⟩))
  · intro s v hw _
    have ho := occurs_event (j := .lfsrWrite v) (f := fun s => (s.writeCR 0x00A v).getD s) rfl hw
    rwa [writeCR_lfsr, Option.getD_some] at ho

end Machine
end Sys2Proof
end

section
/-! PROOF. What the registers read as, the commit buffer's room, and what a load sees of the task's own stores: O15, O16 and O17. -/

namespace Sys2Proof
namespace Machine

open Safety

/-! ## Registers and ports (01 R20, R21; 06 R103, R104) -/

theorem readG_ordinary (s : State) {n : Reg} (h1 : 1 ≤ n.toNat) (h2 : n.toNat ≤ 27) :
    readG s n = .ok (s, Tbl.find 0 s.cur.g n.toNat) := by
  unfold readG
  split
  case h_6 => rfl
  all_goals omega

theorem qpay_left {s : State} {m : Msg} (hm : s.cur.msg = some m) (h : s.cur.qpos < m.payload.length) :
    s.qpay = (s.modCur fun t => { t with qpos := t.qpos + 8 }, BitVec.ofNat 64 (leVal ((m.payload.drop s.cur.qpos).take 8))) := by
  simp only [State.qpay, hm, Option.map_some, Option.getD_some, if_neg (Nat.not_le.2 h), w64]

theorem qpay_exhausted {s : State} {m : Msg} (hm : s.cur.msg = some m) (h : m.payload.length ≤ s.cur.qpos) :
    s.qpay = (s.modCur fun t => { t with qpe := true }, 0) := by
  simp only [State.qpay, hm, Option.map_some, Option.getD_some, if_pos h]

theorem qcmp_empty {s : State} (hb : s.cur.bound = none) (hq : (s.core s.curCore).cinbox = []) :
    s.qcmp = (s.modCur fun t => { t with qce := true }, 0) := by
  simp only [State.qcmp, hb, State.takeRecord, hq]

/-- Two changes of the current slot are one. -/
theorem tbl_set_set {α : Type} (m : Tbl α) (k : Nat) (v w : α) : Tbl.set (Tbl.set m k v) k w = Tbl.set m k w := by
  have hd : Tbl.del (Tbl.insert k v (Tbl.del m k)) k = Tbl.del m k := by
    have hno : ∀ e ∈ Tbl.del m k, (e.1 != k) = true := fun e he => (List.mem_filter.1 he).2
    generalize Tbl.del m k = r at hno
    induction r with
    | nil => simp [Tbl.insert, Tbl.del]
    | cons e r ih =>
      have hr : ∀ e ∈ r, (e.1 != k) = true := fun f hf => hno f (List.mem_cons_of_mem _ hf)
      have he := hno e List.mem_cons_self
      rw [Tbl.insert]
      split
      · rw [Tbl.del, List.filter_cons_of_neg (by simp)]
        exact List.filter_eq_self.2 hno
      · rw [Tbl.del, List.filter_cons_of_pos (by exact he)]
        exact congrArg _ (ih hr)
  rw [Tbl.set, Tbl.set, hd, Tbl.set]

theorem setCore_setCore (s : State) (c : Nat) (k l : Core) : (s.setCore c k).setCore c l = s.setCore c l := by
  simp only [State.setCore, tbl_set_set]

theorem setSlot_setSlot (s : State) (c n : Nat) (t u : Slot) : (s.setSlot c n t).setSlot c n u = s.setSlot c n u := by
  unfold State.setSlot
  rw [State.core_setCore_self, setCore_setCore, Core.setSlot, Core.setSlot, Core.setSlot, tbl_set_set]

theorem modCur_modCur (s : State) (f g : Slot → Slot) : (s.modCur f).modCur g = s.modCur fun t => g (f t) := by
  have h : (s.modCur f).cur = f s.cur := State.cur_modCur s f
  unfold State.modCur at h ⊢
  rw [h]
  exact setSlot_setSlot s s.curCore s.curSlot (f s.cur) (g (f s.cur))

theorem qcmp_first {s : State} {r : CRec} {q : List CRec} (hb : s.cur.bound = none) (hq : (s.core s.curCore).cinbox = r :: q) :
    s.qcmp = ((s.modCore s.curCore fun k => { k with cinbox := q }).modCur
      fun t => { t with taken := t.taken ++ [r], bound := some (r, 1), qce := false }, r.w0) := by
  simp only [State.qcmp, hb, State.takeRecord, hq, modCur_modCur]

theorem qcmp_next {s : State} {r : CRec} {k : Nat} (hb : s.cur.bound = some (r, k)) (hk : k < 3) :
    s.qcmp = (s.modCur fun t => { t with bound := some (r, k + 1), qce := false }, r.word k) := by
  simp only [State.qcmp, hb, if_neg (Nat.ne_of_lt hk)]

theorem qcmp_last {s : State} {r : CRec} (hb : s.cur.bound = some (r, 3)) :
    s.qcmp = ((s.modCur fun t => { t with bound := none, qce := false }).l1Invalidate s.curCore, r.w3) := by
  simp only [State.qcmp, hb, if_true]
  rfl

theorem cur_modCore (s : State) (c : Nat) (f : Core → Core) (hf : (f (s.core c)).slots = (s.core c).slots) : (s.modCore c f).cur = s.cur :=
  State.slot_modCore s c _ _ f hf

theorem l1Invalidate_cur (s : State) (c : Nat) : (s.l1Invalidate c).cur = s.cur := by
  unfold State.l1Invalidate
  split
  · exact foldl_of_step (fun s t : State => t.cur = s.cur) (fun _ => rfl) (fun _ _ _ h g => g.trans h)
      (fun s o => cur_modCore s o _ rfl) _ s
  · exact cur_modCore s c _ rfl

theorem cinbox_modCur (s : State) (f : Slot → Slot) (c : Nat) : ((s.modCur f).core c).cinbox = (s.core c).cinbox := by
  rw [← modCur_core_rest s f c]

theorem writeG_readOnly (s : State) {d : Reg} (x : W64) (h : d = 28 ∨ d = 30 ∨ d = 31) :
    writeG s d x = .error (.trap Cause.illegal none) := by
  rcases h with rfl | rfl | rfl <;> rfl

theorem writeG_builderFull {s : State} (x : W64) (h : 256 ≤ s.cur.qbld.length) : writeG s 29 x = .error (.trap Cause.ringlen none) :=
  if_pos h

theorem find_putG {s : State} {d : Reg} (x : W64) (e : Reg) (h0 : d ≠ 0) (h29 : d ≠ 29) :
    Tbl.find 0 (putG s d x).cur.g e.toNat = if e = d then x else Tbl.find 0 s.cur.g e.toNat := by
  rw [putG, if_neg h0, if_neg h29, State.cur_modCur, Tbl.find_put]
  simp only [BitVec.toNat_inj]

/-- Settles O15: the ports by what is left of them (`qpay_left`, `qcmp_next`, `qcmp_last`), the other registers by `readG_ordinary`. -/
theorem registerPorts : Obligations.RegisterPorts := by
  refine ⟨fun s => rfl, fun s n h1 h2 => readG_ordinary s h1 h2, fun s => rfl, ?_, ?_, ?_, ?_, ?_, fun s d x h => writeG_settable x h,
    fun s d x h => writeG_readOnly s x h, fun s x h => writeG_builderFull x h, fun s d e x h0 h29 => find_putG x e h0 h29, fun s x => rfl⟩
  · intro s m hm
    exact ⟨fun h => congrArg Except.ok (qpay_left hm h), fun h => congrArg Except.ok (qpay_exhausted hm h)⟩
  · intro s hb hq
    exact congrArg Except.ok (qcmp_empty hb hq)
  · intro s r q hb hq
    refine ⟨_, congrArg Except.ok (qcmp_first hb hq), ?_, ?_, ?_⟩
    · rw [State.cur_modCur]
    · rw [State.cur_modCur, cur_modCore _ _ _ (by rfl)]
    · rw [cinbox_modCur, State.core_modCore_self]
  · intro s r k hb hk
    exact ⟨_, congrArg Except.ok (qcmp_next hb hk), by rw [State.cur_modCur]⟩
  · intro s r hb
    exact ⟨_, congrArg Except.ok (qcmp_last hb), by rw [l1Invalidate_cur, State.cur_modCur]⟩

/-! ## The commit buffer (06 R107) -/

theorem asks_cur (s : State) : (asks s).cur = s.cur := cur_modCore s _ _ rfl

theorem asks_curCore (s : State) : (asks s).curCore = s.curCore := rfl

theorem poolUsed_asks (s : State) : poolUsed ((asks s).core s.curCore) = poolUsed (s.core s.curCore) := by
  have h : ((asks s).core s.curCore).slots = (s.core s.curCore).slots := by
    rw [asks, State.nextReq, State.core_modCore_self]
  rw [poolUsed, poolUsed, h]

theorem addEntry_eq (s : State) (ea : W64) (loc : Loc) (o : Order) (sc : Scope) (act : Act) :
    addEntry s ea loc o sc act = growBuffer (asks s) (s.cur.buf ++ [theEntry s ea loc o sc act]) := by
  rw [← asks_cur s]
  rfl

/-- A buffer with room takes the entry. -/
theorem addEntry_ok {s : State} {ea : W64} {loc : Loc} {o : Order} {sc : Scope} {act : Act} (h : Room s (theEntry s ea loc o sc act)) :
    addEntry s ea loc o sc act = .ok ((asks s).modCur fun t => { t with buf := t.buf ++ [theEntry s ea loc o sc act] }) := by
  obtain ⟨h1, h2, h3⟩ := h
  have hp : ¬ (poolShare s.cur.buf < poolShare (s.cur.buf ++ [theEntry s ea loc o sc act]) ∧
      576 < poolUsed (s.core s.curCore) - poolShare s.cur.buf + poolShare (s.cur.buf ++ [theEntry s ea loc o sc act])) :=
    fun hn => absurd hn.2 (Nat.not_lt.2 (h3 hn.1))
  rw [addEntry_eq, growBuffer]
  simp only [asks_cur, asks_curCore, poolUsed_asks]
  rw [if_neg (by omega), if_neg hp, State.modCur, State.modCur, asks_cur]

theorem addEntry_cbfull {s : State} {ea : W64} {loc : Loc} {o : Order} {sc : Scope} {act : Act}
    (h : 256 < sectors (s.cur.buf ++ [theEntry s ea loc o sc act]) ∨ 8 < tiles (s.cur.buf ++ [theEntry s ea loc o sc act])) :
    addEntry s ea loc o sc act = .error (.trap Cause.cbfull none) := by
  rw [addEntry_eq, growBuffer, if_pos h]
  rfl

theorem addEntry_pool {s : State} {ea : W64} {loc : Loc} {o : Order} {sc : Scope} {act : Act}
    (h1 : sectors (s.cur.buf ++ [theEntry s ea loc o sc act]) ≤ 256) (h2 : tiles (s.cur.buf ++ [theEntry s ea loc o sc act]) ≤ 8)
    (h : ¬ Room s (theEntry s ea loc o sc act)) : ∃ k, 0 < k ∧ addEntry s ea loc o sc act = .error (.hold (.pool k)) := by
  have hp : poolShare s.cur.buf < poolShare (s.cur.buf ++ [theEntry s ea loc o sc act]) ∧
      576 < poolUsed (s.core s.curCore) - poolShare s.cur.buf + poolShare (s.cur.buf ++ [theEntry s ea loc o sc act]) := by
    by_contra hn
    exact h ⟨h1, h2, fun hlt => Nat.not_lt.1 fun hb => hn ⟨hlt, hb⟩⟩
  refine ⟨_, Nat.sub_pos_of_lt hp.1, ?_⟩
  rw [addEntry_eq, growBuffer]
  simp only [asks_cur, asks_curCore, poolUsed_asks]
  rw [if_neg (by omega), if_pos hp]

/-- Settles O16: `addEntry` by its three answers. -/
theorem bufferEntry : Obligations.BufferEntry := by
  intro s ea loc o sc act
  refine ⟨fun h => ⟨_, addEntry_ok h, ?_, rfl, rfl, rfl, rfl, rfl, rfl⟩, addEntry_cbfull, addEntry_pool⟩
  rw [State.cur_modCur, asks_cur]

/-! ## A load over the task's own stores (06 R108) -/

theorem beside_self (e : Entry) {loc : Loc} (h : ∀ p gva gpa, loc ≠ .unmapped p gva gpa) : e.beside loc = e := by
  have hb : e.loc.beside loc = e.loc := by
    unfold Loc.beside
    split
    · exact absurd rfl (h _ _ _)
    · rfl
  rw [Entry.beside, hb]

/-- What a byte of memory becomes under the bytes that a buffer holds for it, if it holds any. -/
def underByte (a : Option NibByte) (v : Byte) : Byte := a.elim v fun b => mergeNib b v

/-- The bits of a byte merged by nibbles. -/
theorem getLsbD_mergeNib (b : NibByte) (v : Byte) {i : Nat} (hi : i < 8) : (mergeNib b v).getLsbD i =
    if i < 4 then (if b.lo then b.val else v).getLsbD i else (if b.hi then b.val else v).getLsbD i := by
  have hl : ∀ i < 8, (0x0F#8).getLsbD i = decide (i < 4) := by decide
  have hh : ∀ i < 8, (0xF0#8).getLsbD i = !decide (i < 4) := by decide
  have hlo : (if b.lo then b.val &&& 0x0F#8 else v &&& 0x0F#8) = (if b.lo then b.val else v) &&& 0x0F#8 := by split <;> rfl
  have hhi : (if b.hi then b.val &&& 0xF0#8 else v &&& 0xF0#8) = (if b.hi then b.val else v) &&& 0xF0#8 := by split <;> rfl
  rw [mergeNib, hlo, hhi, BitVec.getLsbD_or, BitVec.getLsbD_and, BitVec.getLsbD_and, hl i hi, hh i hi]
  by_cases h4 : i < 4 <;> simp [h4]

/-- A later byte over an earlier one, nibble by nibble. -/
theorem mergeNib_merged (b x : NibByte) (i : Nat) (v : Byte) :
    mergeNib ⟨i, mergeNib b x.val, x.lo || b.lo, x.hi || b.hi⟩ v = mergeNib b (mergeNib x v) := by
  apply BitVec.eq_of_getLsbD_eq
  intro k hk
  rw [getLsbD_mergeNib _ _ hk, getLsbD_mergeNib _ _ hk]
  split
  · next h4 =>
    cases hb : b.lo <;> cases hx : x.lo <;>
      simp only [hb, hx, Bool.or_false, Bool.or_true, if_true, Bool.false_eq_true, if_false, getLsbD_mergeNib _ _ hk, if_pos h4]
  · next h4 =>
    cases hb : b.hi <;> cases hx : x.hi <;>
      simp only [hb, hx, Bool.or_false, Bool.or_true, if_true, Bool.false_eq_true, if_false, getLsbD_mergeNib _ _ hk, if_neg h4]

/-- The bytes that a buffer holds for one place, the later over the earlier: a step of `bufferedOver`. -/
def overByte (loc : Loc) (i : Nat) (a : Option NibByte) (e : Entry) : Option NibByte :=
  match storeByte? (e.beside loc) (locKey loc + i) with
  | none => a
  | some b =>
    match a with
    | none => some { b with pos := i }
    | some x => some ⟨i, mergeNib b x.val, x.lo || b.lo, x.hi || b.hi⟩

theorem bufferedOver_eq (buf : List Entry) (loc : Loc) (n : Nat) :
    bufferedOver buf loc n = (List.range n).filterMap fun i => buf.foldl (overByte loc i) none := rfl

theorem mergeNib_pos (b : NibByte) (i : Nat) (v : Byte) : mergeNib { b with pos := i } v = mergeNib b v := rfl

theorem underByte_overByte (loc : Loc) (i : Nat) (a : Option NibByte) (e : Entry) (v : Byte) : underByte (overByte loc i a e) v =
    match storeByte? (e.beside loc) (locKey loc + i) with | some b => mergeNib b (underByte a v) | none => underByte a v := by
  unfold overByte
  cases storeByte? (e.beside loc) (locKey loc + i) with
  | none => rfl
  | some b =>
    cases a with
    | none => exact mergeNib_pos b i v
    | some x => exact mergeNib_merged b x i v

/-- Under what the buffer holds for a place memory's byte becomes the one that is forwarded. -/
theorem underByte_foldl (buf : List Entry) (loc : Loc) (i : Nat) (a : Option NibByte) (v : Byte) :
    underByte (buf.foldl (overByte loc i) a) v = forwardByte (buf.map fun e => e.beside loc) (locKey loc + i) (underByte a v) := by
  induction buf generalizing a with
  | nil => rfl
  | cons e buf ih =>
    rw [List.foldl_cons, ih, underByte_overByte, forwardByte, forwardByte, List.map_cons, List.foldl_cons] <;> rfl

/-- The byte that a step of the merge leaves stands at the place that it is for. -/
theorem overByte_pos (loc : Loc) (i : Nat) (e : Entry) (a : Option NibByte) (ha : ∀ x, a = some x → x.pos = i) :
    ∀ x, overByte loc i a e = some x → x.pos = i := by
  intro x hx
  unfold overByte at hx
  split at hx
  · exact ha x hx
  · split at hx <;> cases hx <;> rfl

theorem foldl_overByte_pos (buf : List Entry) (loc : Loc) (i : Nat) (a : Option NibByte) (ha : ∀ x, a = some x → x.pos = i) :
    ∀ x, buf.foldl (overByte loc i) a = some x → x.pos = i := by
  induction buf generalizing a with
  | nil => exact ha
  | cons e buf ih => exact ih _ (overByte_pos loc i e a ha)

theorem getElem?_modifyAt {α : Type} (f : α → α) (k : Nat) (l : List α) (i : Nat) :
    (modifyAt f k l)[i]? = if i = k then l[i]?.map f else l[i]? := by
  induction l generalizing k i with
  | nil => simp [modifyAt]
  | cons x l ih =>
    cases k with
    | zero => cases i <;> simp [modifyAt]
    | succ k => cases i <;> simp [modifyAt, ih]

/-- Bytes put over a list, one for each listed place that has one. -/
theorem getElem?_foldl_modifyAt (g : Nat → Option NibByte) (hg : ∀ i b, g i = some b → b.pos = i) (places : List Nat)
    (hp : places.Nodup) (l : List Byte) (i : Nat) :
    ((places.filterMap g).foldl (fun l b => modifyAt (fun old => mergeNib b old) b.pos l) l)[i]? =
      if i ∈ places then l[i]?.map (underByte (g i)) else l[i]? := by
  induction places generalizing l with
  | nil => rfl
  | cons k places ih =>
    obtain ⟨hk, hn⟩ := List.nodup_cons.1 hp
    cases hb : g k with
    | none =>
      rw [List.filterMap_cons_none hb, ih hn]
      by_cases hik : i = k
      · subst hik
        rw [if_neg hk, if_pos List.mem_cons_self, hb]
        cases l[i]? <;> rfl
      · simp [hik]
    | some b =>
      rw [List.filterMap_cons_some hb, List.foldl_cons, ih hn, getElem?_modifyAt, hg k b hb]
      by_cases hik : i = k
      · subst hik
        rw [if_neg hk, if_pos List.mem_cons_self, if_pos rfl, hb]
        rfl
      · simp [hik]

/-- Settles O17: place by place, the merged bytes of the buffer over memory's byte are its stores over it in their order. -/
theorem loadsSeeOwnStores : Obligations.LoadsSeeOwnStores := by
  have all (s : State) (loc : Loc) (bs : List Byte) :
      overlaid s loc bs.length bs = forward (s.cur.buf.map fun e => e.beside loc) loc bs := by
    apply List.ext_getElem?
    intro i
    rw [overlaid, bufferedOver_eq, getElem?_foldl_modifyAt _ (fun i b h => foldl_overByte_pos _ _ i none nofun b h) _ List.nodup_range, forward,
      List.getElem?_map, List.getElem?_zipIdx]
    by_cases hi : i < bs.length
    · rw [if_pos (List.mem_range.2 hi), List.getElem?_eq_getElem hi]
      simp only [Option.map_some, Nat.zero_add]
      rw [underByte_foldl]
      rfl
    · rw [if_neg (mt List.mem_range.1 hi), List.getElem?_eq_none (Nat.not_lt.1 hi)]
      rfl
  refine ⟨fun s loc bs h => ?_, all⟩
  rw [all, List.map_congr_left fun e _ => beside_self e h, List.map_id']

end Machine
end Sys2Proof
end

section
/-! SUPPORT. What a translation leaves in place: it merges lines and fills caches, and nothing else changes (13_memory_hierarchy.md R236,
R239). -/

namespace Sys2Proof
namespace Machine

open Safety

/-- From `s` to `t` lines have been merged or fetched and caches filled; the slots, the partitions and all the rest are as they were. -/
structure Walked (s t : State) : Prop where
  rest : { t with wr := s.wr, lines := s.lines, free := s.free, cores := s.cores, clusters := s.clusters } = s
  slot : ∀ c n, t.slot c n = s.slot c n

theorem Walked.refl (s : State) : Walked s s := ⟨rfl, fun _ _ => rfl⟩

theorem Walked.trans {s t u : State} (h : Walked s t) (g : Walked t u) : Walked s u where
  rest := (congrArg (fun x : State => { x with wr := s.wr, lines := s.lines, free := s.free, cores := s.cores, clusters := s.clusters })
    g.rest).trans h.rest
  slot c n := (g.slot c n).trans (h.slot c n)

theorem Walked.foldl {α : Type} {f : State → α → State} (h : ∀ s x, Walked s (f s x)) (l : List α) (s : State) : Walked s (l.foldl f s) :=
  foldl_of_step Walked .refl (fun _ _ _ => .trans) h l s

section
variable {s t : State} (h : Walked s t)
include h

theorem Walked.parts : t.parts = s.parts := by have e := congrArg State.parts h.rest; exact e
theorem Walked.curCore : t.curCore = s.curCore := by have e := congrArg State.curCore h.rest; exact e
theorem Walked.curSlot : t.curSlot = s.curSlot := by have e := congrArg State.curSlot h.rest; exact e
theorem Walked.mem : t.mem = s.mem := by have e := congrArg State.mem h.rest; exact e
theorem Walked.fabric : t.fabric = s.fabric := by have e := congrArg State.fabric h.rest; exact e

theorem Walked.cur : t.cur = s.cur := by
  rw [State.cur, State.cur, h.curCore, h.curSlot, h.slot]

theorem Walked.corePart? (c : Nat) : t.corePart? c = s.corePart? c := by
  rw [State.corePart?, State.corePart?, State.partOf?, State.partOf?, h.parts]

theorem Walked.part (p : Nat) : t.part p = s.part p := by
  rw [State.part, State.part, h.parts]

end

theorem wrBytes_walked (s : State) (a : Nat) (bs : List Byte) : Walked s (s.wrBytes a bs) := by
  refine .foldl (f := fun s (e : Byte × Nat) => s.wrByte (a + e.2) e.1) (fun s e => ?_) _ s
  exact ⟨rfl, fun _ _ => rfl⟩

theorem setLine_walked (s : State) (a : Nat) (k : Line) : Walked s (s.setLine a k) := ⟨rfl, fun _ _ => rfl⟩

theorem tagLines_walked (s : State) (p phys n : Nat) : Walked s (s.tagLines p phys n) := by
  refine .foldl (fun s l => ?_) _ s
  extract_lets whole k new
  clear_value new
  split
  · exact .refl s
  · exact setLine_walked _ _ _

theorem mergeLine_walked (s : State) (ln : Nat) : Walked s (s.mergeLine ln) := by
  unfold State.mergeLine
  extract_lets l
  split
  · exact .refl s
  · refine .trans (t := s.nextFree.2) ⟨rfl, fun _ _ => rfl⟩ (.trans (.foldl (fun s e => ?_) _ _) (setLine_walked _ _ _))
    exact (wrBytes_walked _ _ _).trans (tagLines_walked _ _ _ _)

theorem touchLine_walked (s : State) (p ln gpa : Nat) (src : Option Nat) (red : Bool) : Walked s (s.touchLine p ln gpa src red) := by
  unfold State.touchLine
  cases src with
  | none => exact .refl s
  | some k =>
    dsimp only
    split
    · split
      · exact .refl s
      · exact setLine_walked _ _ _
    · exact setLine_walked _ _ _

theorem openLines_walked (s : State) (src : Option Nat) (p phys gpa n : Nat) : Walked s (s.openLines src p phys gpa n) :=
  .foldl (fun _ _ => (mergeLine_walked _ _).trans (touchLine_walked _ _ _ _ _ _)) _ s

theorem homeRead_walked (s : State) (src : Option Nat) (p phys gpa n : Nat) : Walked s (s.homeRead src p phys gpa n).1 :=
  openLines_walked s src p phys gpa n

theorem homeWord_walked (s : State) (phys : Nat) : Walked s (s.homeWord phys).1 := mergeLine_walked s _

theorem walk2_walked (gpa : Nat) (s : State) (table : Nat) (l : List (Nat × Nat × Nat)) : Walked s (walk2 gpa s table l).1 := by
  induction l generalizing s table with
  | nil => exact .refl s
  | cons x l ih =>
    obtain ⟨lvl, shift, n⟩ := x
    have h := homeWord_walked s (table + 8 * (gpa / 2 ^ shift % n))
    unfold walk2
    split
    next s' e hw =>
    rw [hw] at h
    split
    · exact h
    · split
      · exact h.trans (ih _ _)
      · exact h

theorem stage2_walked (s : State) (p gpa : Nat) : Walked s (s.stage2 p gpa).1 := by
  have h := walk2_walked gpa s (s.ctx (s.part p).ctx).s2root levels
  unfold State.stage2
  extract_lets k
  split
  · next s' hw =>
    rw [hw] at h
    exact h
  · next s' e size hw =>
    rw [hw] at h
    extract_lets base inSnap
    clear_value base inSnap
    split
    · exact h
    split
    · split
      · exact h
      · split
        · split
          · exact h
          · extract_lets f
            split <;> exact h
        · exact h
    · exact h

theorem walk1_walked (p gva : Nat) (s : State) (table : Nat) (via : List (Nat × Nat)) (l : List (Nat × Nat × Nat)) :
    Walked s (walk1 p gva s table via l).1 := by
  induction l generalizing s table via with
  | nil => exact .refl s
  | cons x l ih =>
    obtain ⟨lvl, shift, n⟩ := x
    unfold walk1
    extract_lets a
    split
    · exact .refl s
    split
    · exact .refl s
    have h := stage2_walked s p a
    split
    · next s' hs =>
      rw [hs] at h
      exact h
    · next s' pa size e2 hs =>
      rw [hs] at h
      split
      · exact h
      split
      · exact h
      split
      · exact h
      have g := homeWord_walked s' pa
      split
      next s2 e hw =>
      rw [hw] at g
      split
      · exact h.trans g
      · split
        · exact (h.trans g).trans (ih _ _ _)
        · exact h.trans g

theorem cacheTlb_walked (s : State) (c : Option Nat) (e : TlbEnt) : Walked s (s.cacheTlb c e) := by
  unfold State.cacheTlb
  cases c with
  | none => exact ⟨rfl, fun _ _ => rfl⟩
  | some c =>
    have h : Walked s (s.modCore c fun k => { k with tlb := tlbAdd 64 k.tlb e }) := ⟨rfl, fun d n => State.slot_modCore s c d n _ rfl⟩
    exact h.trans ⟨rfl, fun _ _ => rfl⟩

theorem walkBoth_walked (s : State) (c : Option Nat) (p gva : Nat) (again : Bool) : Walked s (s.walkBoth c p gva again).1 := by
  unfold State.walkBoth
  extract_lets root
  split
  · exact .refl s
  split
  · exact .refl s
  have h := walk1_walked p gva s (field root 47 12 * 4096) [] levels
  split
  case h_5 s' e size1 via hw =>
    rw [hw] at h
    extract_lets gpa
    split
    · exact h
    split
    · exact h
    have g := stage2_walked s' p gpa
    split
    · next s2 hs =>
      rw [hs] at g
      exact h.trans g
    · next s2 pa size2 e2 hs =>
      rw [hs] at g
      exact (h.trans g).trans (cacheTlb_walked _ _ _)
  all_goals
    next s' hw =>
    rw [hw] at h
    exact h

theorem checkTag_fst (acc : Access) (x : State × Xl) : (checkTag acc x).1 = x.1 := by
  unfold checkTag
  split
  · split <;> rfl
  · rfl

theorem xlateMem_walked (s : State) (c : Option Nat) (p gva : Nat) (acc : Access) (again : Bool) :
    Walked s (s.xlateMem c p gva acc again).1 := by
  unfold State.xlateMem
  extract_lets hit walk
  have hw : Walked s walk.1 := by
    have h := walkBoth_walked s c p gva again
    unfold walk
    split
    all_goals
      next s' x hb =>
      rw [hb] at h
      exact h
  clear_value walk
  rw [checkTag_fst]
  clear_value hit
  cases hit with
  | none => exact hw
  | some t =>
    dsimp only
    split
    · exact hw
    · exact cacheTlb_walked _ _ _

theorem xlateAny_walked (s : State) (c : Nat) (sup : Bool) (ea : W64) (n : Nat) (acc : Access) :
    Walked s (s.xlateAny c sup ea n acc).1 := by
  unfold State.xlateAny
  extract_lets place off
  split
  · split <;> exact .refl s
  · split
    · exact xlateMem_walked _ _ _ _ _ _
    · split
      · exact .refl s
      · split <;> exact .refl s

end Machine
end Sys2Proof
end

section
/-! PROOF. Loads, stores, pairs and strong accesses: O18, O19 and O20. -/

namespace Sys2Proof
namespace Machine

open Safety

/-! ## One read of a load (08 R134; 06 R108) -/

theorem aligned_ok {ea : W64} {n : Nat} (h : ea.toNat % n = 0) : aligned ea n = .ok () := require_true (decide_eq_true h)

theorem aligned_bad {ea : W64} {n : Nat} (h : ea.toNat % n ≠ 0) : aligned ea n = .error (.trap Cause.align (some ea)) :=
  require_false (decide_eq_false h)

theorem asks_eq_nextReq (s : State) : s.nextReq s.curCore = (askNum s, asks s) := rfl

theorem mayRead_iff {s : State} {loc : Loc} {n : Nat} :
    mayRead s loc n = true ↔ acquirePending s.cur = false ∧ mustWait s loc n = false := by
  rw [mayRead, Bool.and_eq_true, Bool.not_eq_true', Bool.not_eq_true']

theorem fill_want (p : Pending) (shape : Shape) (bs : List Byte) : (p.fill shape bs).want = p.want := by
  cases shape
  case tmad c ea =>
    unfold Pending.fill
    dsimp only
    split <;> rfl
  all_goals rfl

theorem fill_acq (p : Pending) (shape : Shape) (bs : List Byte) : (p.fill shape bs).acq = p.acq := by
  cases shape
  case tmad c ea =>
    unfold Pending.fill
    dsimp only
    split <;> rfl
  all_goals rfl

section
variable {s : State} {p : Pending} {ea : W64} {loc : Loc} {n : Nat} {shape : Shape} {strong : Bool}

theorem readPiece_waits (h : mustWait s loc n = true) : readPiece strong (s, p) (ea, loc, n, shape) = .error (.hold .order) := by
  simp only [readPiece, h, Bool.not_true, require_false, Bind.bind, Except.bind]

theorem readPiece_error {e : Stop} (h : mustWait s loc n = false) (hr : readLoc (asks s) (askNum s) loc n strong = .error e) :
    readPiece strong (s, p) (ea, loc, n, shape) = .error e := by
  simp only [readPiece, h, Bool.not_false, require_true, asks_eq_nextReq, hr, Bind.bind, Except.bind]

/-- What a read leaves of the pending result before the load says whether it is complete. -/
def pieceRead (s : State) (p : Pending) (ea : W64) (loc : Loc) (n : Nat) (shape : Shape) : Option (List Byte) → Pending
  | some bs => p.fill shape (overlaid s loc n bs)
  | none => { p with want := p.want ++ [⟨askNum s, ea, n, shape, bufferedOver s.cur.buf loc n, none⟩] }

theorem readPiece_ok {s3 : State} {got : Option (List Byte)} (h : mustWait s loc n = false)
    (hr : readLoc (asks s) (askNum s) loc n strong = .ok (s3, got)) :
    readPiece strong (s, p) (ea, loc, n, shape) = .ok (s3, pieceRead s p ea loc n shape got) := by
  simp only [readPiece, h, Bool.not_false, require_true, asks_eq_nextReq, hr, Bind.bind, Except.bind]
  cases got <;> rfl

theorem loadInto_waits {xs : List (W64 × Loc × Nat × Shape)} (h : acquirePending s.cur = true) :
    loadInto s p xs strong = .error (.hold .order) := by
  simp only [loadInto, h, Bool.not_true, require_false, Bind.bind, Except.bind]

theorem loadInto_mayNot (h : mayRead s loc n = false) : loadInto s p [(ea, loc, n, shape)] strong = .error (.hold .order) := by
  cases ha : acquirePending s.cur with
  | true => exact loadInto_waits ha
  | false =>
    have hw : mustWait s loc n = true := by
      rw [mayRead, ha] at h
      simpa using h
    simp only [loadInto, ha, Bool.not_false, require_true, readPieces, readPiece_waits hw, Bind.bind, Except.bind]

theorem loadInto_error {e : Stop} (h : mayRead s loc n = true) (hr : readLoc (asks s) (askNum s) loc n strong = .error e) :
    loadInto s p [(ea, loc, n, shape)] strong = .error e := by
  obtain ⟨ha, hw⟩ := mayRead_iff.1 h
  simp only [loadInto, ha, Bool.not_false, require_true, readPieces, readPiece_error hw hr, Bind.bind, Except.bind]

/-- A load of one read: its result is complete when the bytes are there, and an acquire that is complete invalidates. -/
theorem loadInto_ok {s3 : State} {got : Option (List Byte)} (hp : p.want = []) (h : mayRead s loc n = true)
    (hr : readLoc (asks s) (askNum s) loc n strong = .ok (s3, got)) : loadInto s p [(ea, loc, n, shape)] strong =
      .ok (addPending (if got ≠ none ∧ 2 ≤ p.acq then s3.l1Invalidate s3.curCore else s3) (readResult s p ea loc n shape got)) := by
  obtain ⟨ha, hw⟩ := mayRead_iff.1 h
  simp only [loadInto, ha, Bool.not_false, require_true, readPieces, readPiece_ok hw hr, Bind.bind, Except.bind]
  cases got with
  | none => simp [pieceRead, readResult, hp]
  | some bs => simp [pieceRead, readResult, fill_want, fill_acq, hp]

theorem loadInto_plain {g : List Nat} {l : Nat} {x : List W64} {s3 : State} {got : Option (List Byte)}
    (h : mayRead s loc n = true) (hr : readLoc (asks s) (askNum s) loc n strong = .ok (s3, got)) :
    loadInto s { gd := g, left := l, gval := x } [(ea, loc, n, shape)] strong =
      .ok (addPending s3 (readResult s { gd := g, left := l, gval := x } ea loc n shape got)) := by
  rw [loadInto_ok rfl h hr, if_neg fun hq => absurd hq.2 (show ¬ 2 ≤ 0 by decide)]

end

/-! ## The forms of LD and ST (08 R134; 05 R81) -/

theorem effAddr_eq (x : W64) (off : BitVec 10) (n : Nat) : effAddr x off n = address x (off.toInt * n) := rfl

theorem toInt_zeroExtend_short (off : BitVec 5) : (off.zeroExtend 10).toInt = off.toNat := by
  rw [BitVec.toInt_eq_toNat_of_lt (by rw [BitVec.toNat_setWidth]; omega), BitVec.toNat_setWidth, Nat.mod_eq_of_lt (by omega)]

theorem exec_loadForm {j : Instr} {d a : Reg} {la n : Nat} {off : Int} {sgn : Bool} (h : loadForm j = some (d, a, la, off, n, sgn)) :
    Plain j ∧ ∃ lb k, (∀ s, exec j s = issue j (bodyLd d a lb k n sgn) s) ∧ lb.toNat = la ∧ k.toInt * n = off := by
  unfold loadForm at h
  split at h <;> cases h
  case h_8 d a off =>
    refine ⟨⟨rfl, rfl⟩, 0, off.zeroExtend 10, fun s => ?_, rfl, by rw [toInt_zeroExtend_short]; rfl⟩
    rw [compactReg, compactReg, compact_reg, compact_reg]
    rfl
  all_goals exact ⟨⟨rfl, rfl⟩, _, _, fun _ => rfl, rfl, by simp⟩

theorem exec_storeForm {j : Instr} {d a : Reg} {n : Nat} {off : Int} (h : storeForm j = some (d, a, off, n)) :
    Plain j ∧ ∃ k, (∀ s, exec j s = issue j (bodySt d a k n) s) ∧ k.toInt * n = off := by
  unfold storeForm at h
  split at h <;> cases h
  case h_5 d a off =>
    refine ⟨⟨rfl, rfl⟩, off.zeroExtend 10, fun s => ?_, by rw [toInt_zeroExtend_short]; rfl⟩
    rw [compactReg, compactReg, compact_reg, compact_reg]
    rfl
  all_goals exact ⟨⟨rfl, rfl⟩, _, fun _ => rfl, by simp⟩

/-! ## LD (08 R134, R133 case 5) -/

section
variable {d a : Reg} {la : BitVec 4} {off : BitVec 10} {n : Nat} {sgn : Bool} {s s1 : State} {x : W64}

/-- LD once its base is read. -/
theorem bodyLd_eq (ha : readG s a = .ok (s1, x)) : bodyLd d a la off n sgn s = (do
    aligned (effAddr x off n) n
    let (s, loc) ← s1.xlateLoad (effAddr x off n) n .scalarRead
    let s ← loadInto s { gd := [d.toNat], left := la.toNat } [(effAddr x off n, loc, n, .int n sgn)] false
    .ok (s, .seq)) := by
  simp only [bodyLd, ha, Bind.bind, Except.bind]

end

theorem part_noteFill (s : State) (p gpa : Nat) : gpa ∈ ((s.noteFill p gpa).part p).faults := by
  unfold State.noteFill
  split
  · next h => exact List.contains_iff_mem.1 h
  · show gpa ∈ ((s.modPart p fun k => { k with faults := k.faults ++ [gpa] }).part p).faults
    rw [State.part_modPart_self]
    exact List.mem_append_right _ List.mem_cons_self

theorem noteFill_mem (s : State) (p gpa : Nat) : (s.noteFill p gpa).mem = s.mem := by
  unfold State.noteFill
  split <;> rfl

theorem leVal_lt (bs : List Byte) : leVal bs < 256 ^ bs.length := by
  induction bs with
  | nil => exact Nat.one_pos
  | cons b bs ih =>
    rw [leVal, List.length_cons, Nat.pow_succ]
    have hb : b.toNat < 256 := b.isLt
    omega

/-- The number of a reply's bytes as the statement writes it. -/
theorem intOf_eq_numberOf {n : Nat} (sgn : Bool) (bs : List Byte) : intOf n sgn bs = numberOf n sgn bs := by
  have hv : leVal (bs.take n) < 2 ^ (8 * n) := by
    rw [Nat.pow_mul]
    exact (leVal_lt _).trans_le (Nat.pow_le_pow_right (by decide) (List.length_take_le n bs))
  cases sgn with
  | false => simp only [intOf, numberOf, w64, Bool.false_eq_true, if_false, false_and]
  | true =>
    simp only [intOf, numberOf, if_true, true_and, sext, Nat.mod_eq_of_lt hv, wrap]
    by_cases h : leVal (bs.take n) < 2 ^ (8 * n - 1)
    · rw [if_pos h, if_neg (Nat.not_le.2 h)]
      rfl
    · rw [if_neg h, if_pos (Nat.not_lt.1 h)]

/-- Settles O18: `loadInto` gives the value that the translated place holds (`loadInto_plain`), and `intOf_eq_numberOf` its extension. -/
theorem loads : Obligations.Loads := by
  refine ⟨?_, ?_, ?_⟩
  · intro j d a la off n sgn s s1 x hj h ha
    obtain ⟨hp, lb, k, he, hla, hoff⟩ := exec_loadForm hj
    have hb := bodyLd_eq (d := d) (la := lb) (off := k) (n := n) (sgn := sgn) ha
    rw [effAddr_eq, hoff] at hb
    refine ⟨fun hal => ?_, fun hal => ⟨fun e hx => ?_, fun s2 loc hx => ⟨fun hm => ?_, fun hm => ⟨fun e hr => ?_, fun s3 got hr => ?_⟩⟩⟩⟩
    · exact halts_of_body (he s) h (by rw [hb, aligned_bad hal]; rfl)
    all_goals rw [aligned_ok hal] at hb
    · exact halts_of_body (he s) h (by rw [hb, hx]; rfl)
    all_goals rw [hx] at hb
    · exact halts_of_body (he s) h (by simp only [hb, loadInto_mayNot hm, Bind.bind, Except.bind])
    · exact halts_of_body (he s) h (by simp only [hb, loadInto_error hm hr, Bind.bind, Except.bind])
    · refine does_of_body (he s) hp h ?_
      simp only [hb, loadInto_plain hm hr, Bind.bind, Except.bind, hla]
  · intro s t ea n acc gpa hx
    refine ⟨t.noteFill ((s.corePart? s.curCore).getD 0) gpa, ?_, noteFill_mem t _ _, part_noteFill t _ _⟩
    have hp := (xlateAny_walked s s.curCore (s.privileged s.curCore s.curSlot) ea n acc).corePart? s.curCore
    rw [hx] at hp
    simp only [State.xlateLoad, hx, hp]
  · intro s p ea loc n sgn bs _
    exact congrArg (fun v => [v]) (intOf_eq_numberOf sgn _)

/-! ## ST, LDP and STP (08 R134) -/

theorem bufferStore_free {s : State} {ea : W64} {loc : Loc} {bs : List NibByte} {o : Order} {sc : Scope}
    (h : acquirePending s.cur = false) : bufferStore s ea loc bs o sc = addEntry s ea loc o sc (.store bs) := by
  simp only [bufferStore, h, Bool.not_false, require_true, Bind.bind, Except.bind]

theorem bufferStore_waits {s : State} {ea : W64} {loc : Loc} {bs : List NibByte} {o : Order} {sc : Scope}
    (h : acquirePending s.cur = true) : bufferStore s ea loc bs o sc = .error (.hold .order) := by
  simp only [bufferStore, h, Bool.not_true, require_false, Bind.bind, Except.bind]

theorem growBuffer_ok {s u : State} {l : List Entry} (h : growBuffer s l = .ok u) : u = s.modCur fun t => { t with buf := l } := by
  unfold growBuffer at h
  dsimp only at h
  split at h
  · cases h
  · split at h
    · cases h
    · exact (Except.ok.inj h).symm

theorem addEntry_grows {s u : State} {ea : W64} {loc : Loc} {o : Order} {sc : Scope} {act : Act}
    (h : addEntry s ea loc o sc act = .ok u) :
    u = (asks s).modCur fun t => { t with buf := s.cur.buf ++ [theEntry s ea loc o sc act] } := by
  rw [addEntry_eq] at h
  exact growBuffer_ok h

theorem addEntry_wr {s u : State} {ea : W64} {loc : Loc} {o : Order} {sc : Scope} {act : Act}
    (h : addEntry s ea loc o sc act = .ok u) : u.wr = s.wr := by
  rw [addEntry_grows h]
  rfl

/-- An entry takes no acquire away and adds none. -/
theorem addEntry_pend {s u : State} {ea : W64} {loc : Loc} {o : Order} {sc : Scope} {act : Act}
    (h : addEntry s ea loc o sc act = .ok u) : acquirePending u.cur = acquirePending s.cur := by
  rw [addEntry_grows h, State.cur_modCur, acquirePending, asks_cur, acquirePending]

section
variable {s s1 s2 s3 : State} {x v w ea : W64} {loc : Loc} {n k : Nat} {o : Order} {sc : Scope} {e : Stop} {u : State}

theorem storeAt_untranslated (hx : s.xlate ea n .write = .error e) : storeAt s ea n k o sc = .error e := by
  simp only [storeAt, hx, Bind.bind, Except.bind]

theorem storeAt_waits (hx : s.xlate ea n .write = .ok (s1, loc)) (h : acquirePending s1.cur = true) :
    storeAt s ea n k o sc = .error (.hold .order) := by
  simp only [storeAt, hx, bufferStore_waits h, Bind.bind, Except.bind]

theorem storeAt_error (hx : s.xlate ea n .write = .ok (s1, loc)) (h : acquirePending s1.cur = false)
    (hs : stores s1 ea loc n k o sc = .error e) : storeAt s ea n k o sc = .error e := by
  simp only [storeAt, hx, bufferStore_free h, (show addEntry .. = _ from hs), Bind.bind, Except.bind]

theorem storeAt_ok (hx : s.xlate ea n .write = .ok (s1, loc)) (h : acquirePending s1.cur = false)
    (hs : stores s1 ea loc n k o sc = .ok u) : storeAt s ea n k o sc = .ok (u, .seq) := by
  simp only [storeAt, hx, bufferStore_free h, (show addEntry .. = _ from hs), Bind.bind, Except.bind]

theorem bodySt_eq {d a : Reg} {off : BitVec 10} (ha : readG s a = .ok (s1, x)) (hd : readG s1 d = .ok (s2, v)) :
    bodySt d a off n s = (aligned (effAddr x off n) n >>= fun _ => storeAt s2 (effAddr x off n) n v.toNat .weak .core) := by
  simp only [bodySt, ha, hd, Bind.bind, Except.bind]

/-- A pair is one access, at an address in the own spaces or a multiple of 16. -/
theorem splitPair_whole (h : ea.toNat % 16 = 0 ∨ (ea.toNat % 8 = 0 ∧ 0xFFFE ≤ field ea 63 48)) : splitPair ea = false := by
  rw [splitPair, Bool.and_eq_false_iff, decide_eq_false_iff_not, decide_eq_false_iff_not]
  omega

theorem splitPair_split (h : ea.toNat % 16 = 8) (hf : field ea 63 48 < 0xFFFE) : splitPair ea = true := by
  rw [splitPair, Bool.and_eq_true, decide_eq_true_iff, decide_eq_true_iff]
  omega

theorem pair_aligned (h : ea.toNat % 16 = 0 ∨ (ea.toNat % 8 = 0 ∧ 0xFFFE ≤ field ea 63 48)) : ea.toNat % 8 = 0 := by omega

/-- LDP once its base is read. -/
def ldpAt (s : State) (ea : W64) (p : Pending) : Effect := do
  aligned ea 8
  if splitPair ea then
    let (s, l0) ← s.xlateLoad ea 8 .read
    let (s, l1) ← s.xlateLoad (ea + 8) 8 .read
    let s ← loadInto s p [(ea, l0, 8, .dword 0), (ea + 8, l1, 8, .dword 1)] false
    .ok (s, .seq)
  else
    let (s, loc) ← s.xlateLoad ea 16 .read
    let s ← loadInto s p [(ea, loc, 16, .pair)] false
    .ok (s, .seq)

theorem bodyLdp_eq {d a : Reg} {la : BitVec 4} {off : BitVec 10} (ha : readG s a = .ok (s1, x)) (hea : ea = address x (off.toInt * 16)) :
    bodyLdp d a la off s = ldpAt s1 ea { gd := [d.toNat, d.toNat + 1], left := la.toNat, gval := [0, 0] } := by
  subst hea
  simp only [bodyLdp, ha, Bind.bind, Except.bind]
  rfl

/-- STP once its base and the pair are read. -/
def stpAt (s : State) (ea v w : W64) : Effect := do
  aligned ea 8
  if splitPair ea then
    let (s, l0) ← s.xlate ea 8 .write
    let (s, l1) ← s.xlate (ea + 8) 8 .write
    let s ← bufferStore s ea l0 (fullBytes (leBytes 8 v.toNat)) .weak .core
    let s ← bufferStore s (ea + 8) l1 (fullBytes (leBytes 8 w.toNat)) .weak .core
    .ok (s, .seq)
  else storeAt s ea 16 (v.toNat + 2 ^ 64 * w.toNat) .weak .core

theorem bodyStp_eq {d a : Reg} {off : BitVec 10} (ha : readG s a = .ok (s1, x)) (hd : readG s1 d = .ok (s2, v))
    (hw : readG s2 (d + 1) = .ok (s3, w)) (hea : ea = address x (off.toInt * 16)) : bodyStp d a off s = stpAt s3 ea v w := by
  subst hea
  simp only [bodyStp, ha, hd, hw, Bind.bind, Except.bind]
  rfl

end

/-- Settles O19: `storeAt` translates and buffers (`storeAt_ok`), and a pair is one access or two (`splitPair_whole`, `splitPair_split`). -/
theorem stores : Obligations.Stores := by
  refine ⟨?_, ?_, ?_⟩
  · intro j d a off n s s1 s2 x v hj h ha hd
    obtain ⟨hp, k, he, hoff⟩ := exec_storeForm hj
    have hb := bodySt_eq (n := n) (off := k) ha hd
    rw [effAddr_eq, hoff] at hb
    refine ⟨fun hal => ?_, fun hal => ⟨fun e hx => ?_, fun s3 loc hx hq => ⟨fun e hs => ?_, fun u hs => ⟨?_, addEntry_wr hs⟩⟩⟩⟩
    · exact halts_of_body (he s) h (by rw [hb, aligned_bad hal]; rfl)
    all_goals rw [aligned_ok hal] at hb
    · exact halts_of_body (he s) h (hb.trans (storeAt_untranslated hx))
    · exact halts_of_body (he s) h (hb.trans (storeAt_error hx hq hs))
    · exact does_of_body (he s) hp h (hb.trans (storeAt_ok hx hq hs))
  · intro d a la off s s1 x h ha ea hea
    have hb := bodyLdp_eq (d := d) (la := la) ha hea
    refine ⟨fun hal => ?_, fun hw e hx => ?_, fun h8 hf e hx => ?_, fun hw s2 loc hx hm s3 got hr => ?_, fun h8 hf s2 s3 l0 l1 u h0 h1 hl => ?_⟩
    · exact halts_of_body rfl h (by rw [hb, ldpAt, aligned_bad hal]; rfl)
    · refine halts_of_body rfl h ?_
      simp only [hb, ldpAt, aligned_ok (pair_aligned hw), splitPair_whole hw, hx, Bind.bind, Except.bind, Bool.false_eq_true, if_false]
    · refine halts_of_body rfl h ?_
      rw [hb, ldpAt, aligned_ok (by omega), splitPair_split h8 hf]
      rcases hx with hx | ⟨s2, l0, h0, hx⟩
      · simp only [hx, Bind.bind, Except.bind, if_true]
      · simp only [h0, hx, Bind.bind, Except.bind, if_true]
    · refine does_of_body rfl ⟨rfl, rfl⟩ h ?_
      simp only [hb, ldpAt, aligned_ok (pair_aligned hw), splitPair_whole hw, hx, loadInto_plain hm hr, Bind.bind, Except.bind,
        Bool.false_eq_true, if_false]
    · refine does_of_body rfl ⟨rfl, rfl⟩ h ?_
      rw [hb, ldpAt, aligned_ok (by omega), splitPair_split h8 hf]
      simp only [h0, h1, hl, Bind.bind, Except.bind, if_true]
  · intro d a off s s1 s2 s3 x v w h ha hd hw ea hea
    have hb := bodyStp_eq ha hd hw hea
    refine ⟨fun hal => ?_, fun hq e hx => ?_, fun h8 hf e hx => ?_, fun hq s4 loc u hx hp hs => ?_,
      fun h8 hf s4 s5 l0 l1 u1 u2 h0 h1 hp hs1 hs2 => ?_⟩
    · exact halts_of_body rfl h (by rw [hb, stpAt, aligned_bad hal]; rfl)
    · refine halts_of_body rfl h ?_
      rw [hb, stpAt, aligned_ok (pair_aligned hq), splitPair_whole hq]
      exact storeAt_untranslated hx
    · refine halts_of_body rfl h ?_
      rw [hb, stpAt, aligned_ok (by omega), splitPair_split h8 hf]
      rcases hx with hx | ⟨s2, l0, h0, hx⟩
      · simp only [hx, Bind.bind, Except.bind, if_true]
      · simp only [h0, hx, Bind.bind, Except.bind, if_true]
    · refine does_of_body rfl ⟨rfl, rfl⟩ h ?_
      rw [hb, stpAt, aligned_ok (pair_aligned hq), splitPair_whole hq]
      exact storeAt_ok hx hp hs
    · refine does_of_body rfl ⟨rfl, rfl⟩ h ?_
      have hp1 : acquirePending u1.cur = false := (addEntry_pend hs1).trans hp
      rw [hb, stpAt, aligned_ok (by omega), splitPair_split h8 hf]
      simp only [h0, h1, bufferStore_free hp, bufferStore_free hp1, (show addEntry .. = _ from hs1), (show addEntry .. = _ from hs2),
        Bind.bind, Except.bind, if_true]

/-! ## LDS and STS (08 R135; 14 R246, R248) -/

/-- LDS once its address is read. -/
def ldsAt (s : State) (ea : W64) (n : Nat) (d : Reg) (sc : BitVec 2) (la : BitVec 4) (sgn ord : BitVec 1) : Effect := do
  aligned ea n
  let (s, loc) ← s.xlateLoad ea n .scalarRead
  require (!(decide (ord = 1) && drainedOpen s)) (.error (.hold .order))
  let s ← loadInto s { gd := [d.toNat], left := la.toNat, acq := acquires loc sc } [(ea, loc, n, .int n (decide (sgn = 1)))]
    (decide (1 ≤ sc.toNat))
  .ok (s, .seq)

theorem bodyLds_eq {d a : Reg} {sc : BitVec 2} {la : BitVec 4} {sz : BitVec 2} {sgn ord : BitVec 1} {s s1 : State} {ea : W64}
    (ha : readG s a = .ok (s1, ea)) : bodyLds d a sc la sz sgn ord s = ldsAt s1 ea (2 ^ sz.toNat) d sc la sgn ord := by
  simp only [bodyLds, ha, Bind.bind, Except.bind]
  rfl

theorem bodySts_eq {d a : Reg} {sc sz : BitVec 2} {ord : BitVec 1} {s s1 s2 : State} {ea v : W64}
    (ha : readG s a = .ok (s1, ea)) (hd : readG s1 d = .ok (s2, v)) : bodySts d a sc sz ord s =
      (aligned ea (2 ^ sz.toNat) >>= fun _ => storeAt s2 ea (2 ^ sz.toNat) v.toNat (if ord = 1 then .sc else .rel) (scopeOf sc)) := by
  simp only [bodySts, ha, hd, Bind.bind, Except.bind]
  rfl

/-- Settles O20: loads by `loadInto`, stores by `storeAt`, each after its checks. -/
theorem strongAccesses : Obligations.StrongAccesses := by
  refine ⟨?_, ?_⟩
  · rintro d a sc la sz sgn ord s s1 ea h ha n rfl
    have hb := bodyLds_eq (d := d) (sc := sc) (la := la) (sz := sz) (sgn := sgn) (ord := ord) ha
    refine ⟨fun hal => ?_, fun hal e hx => ?_, fun hal s2 loc hx => ⟨fun ho hd => ?_, fun hm => ?_, fun ho hm s3 got hr => ?_⟩⟩
    · exact halts_of_body rfl h (by rw [hb, ldsAt, aligned_bad hal]; rfl)
    · exact halts_of_body rfl h (by rw [hb, ldsAt, aligned_ok hal, hx]; rfl)
    · refine halts_of_body rfl h ?_
      rw [hb, ldsAt, aligned_ok hal, hx]
      simp only [ho, hd, decide_true, Bool.and_self, Bool.not_true, require_false, Bind.bind, Except.bind]
    · refine halts_of_body rfl h ?_
      rw [hb, ldsAt, aligned_ok hal, hx]
      cases ho : (decide (ord = 1) && drainedOpen s2) with
      | true => simp only [ho, Bool.not_true, require_false, Bind.bind, Except.bind]
      | false => simp only [ho, Bool.not_false, require_true, loadInto_mayNot hm, Bind.bind, Except.bind]
    · refine does_of_body rfl ⟨rfl, rfl⟩ h ?_
      have hr0 : (!(decide (ord = 1) && drainedOpen s2)) = true := by
        rw [Bool.not_eq_true', Bool.and_eq_false_iff, decide_eq_false_iff_not]
        rcases not_and_or.1 ho with h1 | h1
        · exact .inl h1
        · exact .inr (Bool.eq_false_iff.2 h1)
      rw [hb, ldsAt, aligned_ok hal, hx]
      simp only [hr0, require_true, Bind.bind, Except.bind]
      rw [loadInto_ok rfl hm hr]
  · rintro d a sc sz ord s s1 s2 ea v h ha hd n rfl
    have hb := bodySts_eq (sc := sc) (sz := sz) (ord := ord) ha hd
    refine ⟨fun hal => ?_, fun hal e hx => ?_, fun hal s3 loc hx => ⟨fun hq => ?_, fun hq => ⟨fun e hs => ?_, fun u hs => ?_⟩⟩⟩
    · exact halts_of_body rfl h (by rw [hb, aligned_bad hal]; rfl)
    all_goals rw [aligned_ok hal] at hb
    · exact halts_of_body rfl h (hb.trans (storeAt_untranslated hx))
    · exact halts_of_body rfl h (hb.trans (storeAt_waits hx hq))
    · exact halts_of_body rfl h (hb.trans (storeAt_error hx hq hs))
    · exact does_of_body rfl ⟨rfl, rfl⟩ h (hb.trans (storeAt_ok hx hq hs))

end Machine
end Sys2Proof
end

section
/-! PROOF. Fences, lines, map elements and atomics: O21, O22 and O23. -/

namespace Sys2Proof
namespace Machine

open Safety

/-! ## FNC (08 R136) -/

theorem bitAt_eq_getLsbD {n : Nat} (w : BitVec n) (k : Nat) : bitAt w k = w.getLsbD k := by
  rw [bitAt, BitVec.getLsbD, Nat.testBit_eq_decide_div_mod_eq]

theorem awaitAll_hold {s : State} {p : Pending} (hp : p ∈ s.cur.pend) (ha : p.arrived = false)
    (hb : ∀ q ∈ s.cur.pend, q.arrived = true → q.bad = none) : awaitAll s = .error (.hold .results) :=
  awaitResults_hold (fun q hq _ => hb q hq) ⟨p, hp, rfl, ha⟩

/-- The order of the mark of an FNC, by the bits of its kinds. -/
def markOrder (kinds : BitVec 4) : Order :=
  if kinds.getLsbD 3 then (if kinds.getLsbD 2 then .sc else .rel) else if kinds.getLsbD 2 then .acq else .weak

theorem fenceOrder_eq (kinds : BitVec 4) : fenceOrder kinds = markOrder kinds := by
  rw [fenceOrder, markOrder, bitAt_eq_getLsbD, bitAt_eq_getLsbD]

theorem bodyFnc_hold {kinds : BitVec 4} {sc : BitVec 2} {s : State} (hr : ResultsIn s) (h2 : kinds.getLsbD 2 = true)
    (ho : storesOpen s = true) : bodyFnc kinds sc s = .error (.hold .order) := by
  simp only [bodyFnc, awaitAll_ok hr, bitAt_eq_getLsbD, h2, ho, Bool.and_self, Bool.not_true, require_false, Bind.bind, Except.bind]

theorem bodyFnc_ok {kinds : BitVec 4} {sc : BitVec 2} {s u : State} (hr : ResultsIn s)
    (ho : kinds.getLsbD 2 = true → storesOpen s = false)
    (he : addEntry s 0 (.spad 0 0) (markOrder kinds) (scopeOf sc) .fence = .ok u) : bodyFnc kinds sc s =
      .ok (if kinds.getLsbD 0 ∨ kinds.getLsbD 2 then u.acquire u.curCore (scopeOf sc) else u, .seq) := by
  have hw : (!(kinds.getLsbD 2 && storesOpen s)) = true := by
    cases h2 : kinds.getLsbD 2
    · rfl
    · rw [ho h2]; rfl
  simp only [bodyFnc, awaitAll_ok hr, bitAt_eq_getLsbD, hw, require_true, fenceOrder_eq, he, Bind.bind, Except.bind, Bool.or_eq_true]

theorem mayRead_mark {s : State} {loc : Loc} {n : Nat} {f g : Flight} {bs : List NibByte} (hf : f ∈ (s.core s.curCore).flight)
    (ht : f.e.task = s.cur.task) (ha : f.e.act = .fence) (ho : f.e.order = .acq ∨ f.e.order = .sc)
    (hg : g ∈ (s.core s.curCore).before f.e) (hs : g.e.act = .store bs) : mayRead s loc n = false := by
  have hsl : f.e.fenceSl = true := by
    rw [Entry.fenceSl, ha]
    rcases ho with ho | ho <;> rw [ho] <;> rfl
  have hst : g.e.isStore = true := by rw [Entry.isStore, hs]
  have hopen : slOpen (s.core s.curCore) s.cur.task = true := by
    refine List.any_eq_true.2 ⟨f, hf, ?_⟩
    rw [ht, hsl, beq_self_eq_true, Bool.true_and, Bool.true_and]
    exact List.any_eq_true.2 ⟨g, hg, hst⟩
  simp only [mayRead, mustWait, hopen, Bool.or_true, Bool.true_or, Bool.not_true, Bool.and_false]

/-! ## PFX, CLN and INVL (08 R137) -/

section
variable {a : Reg} {sc : BitVec 2} {s s1 s2 : State} {ea : W64} {loc : Loc} {part phys gva gpa : Nat}

theorem bodyPfx_ok (ha : readG s a = .ok (s1, ea)) : ∃ u, bodyPfx a sc s = .ok (u, .seq) := by
  simp only [bodyPfx, ha, Bind.bind, Except.bind]
  split
  · split
    · exact ⟨_, rfl⟩
    · split <;> exact ⟨_, rfl⟩
  · exact ⟨_, rfl⟩

theorem bodyPfx_fetch (ha : readG s a = .ok (s1, ea))
    (hx : s1.xlateAny s1.curCore (s1.privileged s1.curCore s1.curSlot) ea 1 .read = (s2, .at_ (.hbm part phys gva gpa)))
    (hb : s2.busy part phys gpa 1 false = false) (hp : s2.planeOpen part = true)
    (hn : s2.nearOpen (clusterOf s1.curCore) none (.hbm part phys 0 gpa) 1 = false) : bodyPfx a sc s =
      if sc.toNat < 2 then .ok (if s2.l1Lines s1.curCore = 0 then s2 else s2.l1Fetch s1.curCore part (phys / 128) gpa, .seq)
      else .ok (s2.openLines (some (clusterOf s1.curCore)) part phys gpa 1, .seq) := by
  simp only [bodyPfx, ha, hx, hb, hp, hn, Bind.bind, Except.bind, Bool.not_true, Bool.or_self, Bool.false_eq_true, if_false]

theorem bodyCln_error {e : Stop} (ha : readG s a = .ok (s1, ea)) (hx : s1.xlate ea 1 .clean = .error e) : bodyCln a sc s = .error e := by
  simp only [bodyCln, ha, hx, Bind.bind, Except.bind]

theorem bodyCln_home (ha : readG s a = .ok (s1, ea)) (hx : s1.xlate ea 1 .clean = .ok (s2, .hbm part phys gva gpa)) :
    bodyCln a sc s = if s2.planeOpen part then .ok (s2.mergeLine (phys / 128), .seq) else .error (.hold .order) := by
  simp only [bodyCln, ha, hx, Bind.bind, Except.bind]
  cases s2.planeOpen part <;> rfl

theorem bodyCln_peer {dev prt off dom : Nat} (ha : readG s a = .ok (s1, ea)) (hx : s1.xlate ea 1 .clean = .ok (s2, .peer dev prt off dom)) :
    bodyCln a sc s = if s2.flowRoom (s2.flowTo dev 0) && s2.coreOpen s2.curCore then
        .ok (((asks s2).modCore s2.curCore fun k => { k with
          flight := k.flight ++ [⟨theEntry s2 ea (.peer dev prt off dom) .weak (scopeOf sc) .clean, .sent⟩] }).sendService dev 0 dom
            s2.curCore (askNum s2) (.load prt off 1), .seq)
      else .error (.hold .order) := by
  simp only [bodyCln, ha, hx, Bind.bind, Except.bind]
  cases s2.flowRoom (s2.flowTo dev 0) && s2.coreOpen s2.curCore <;> rfl

theorem bodyCln_other (ha : readG s a = .ok (s1, ea)) (hx : s1.xlate ea 1 .clean = .ok (s2, loc))
    (hh : ∀ part phys gva gpa, loc ≠ .hbm part phys gva gpa) (hp : ∀ dev part off dom, loc ≠ .peer dev part off dom) :
    bodyCln a sc s = .ok (s2, .seq) := by
  simp only [bodyCln, ha, hx, Bind.bind, Except.bind]

/-- An address that translates gives its rights. -/
theorem noRight_of_xlate (hx : s1.xlate ea 1 .inval = .ok (s2, loc)) : noRight s1 ea = false := by
  unfold State.xlate at hx
  dsimp only at hx
  unfold noRight
  split at hx
  · next h => rw [h]
  · cases hx
  · split at hx <;> cases hx
  · cases hx
  · cases hx

theorem bodyInvl_noRight (ha : readG s a = .ok (s1, ea)) (hn : noRight s1 ea = true) : bodyInvl a sc s = .ok (s1, .seq) := by
  simp only [bodyInvl, ha, hn, Bind.bind, Except.bind, if_true]

theorem bodyInvl_error {e : Stop} (ha : readG s a = .ok (s1, ea)) (hn : noRight s1 ea = false) (hx : s1.xlate ea 1 .inval = .error e) :
    bodyInvl a sc s = .error e := by
  simp only [bodyInvl, ha, hn, hx, Bind.bind, Except.bind, Bool.false_eq_true, if_false]

theorem bodyInvl_core (ha : readG s a = .ok (s1, ea)) (hx : s1.xlate ea 1 .inval = .ok (s2, .hbm part phys gva gpa))
    (hf : (s2.core s2.curCore).fused = false) : bodyInvl a 0 s = .ok (s2.l1Drop s2.curCore (phys / 128), .seq) := by
  simp only [bodyInvl, ha, noRight_of_xlate hx, hx, hf, Bind.bind, Except.bind, Bool.false_eq_true, if_false, if_true]

theorem bodyInvl_fused {l : L1Line} (ha : readG s a = .ok (s1, ea)) (hx : s1.xlate ea 1 .inval = .ok (s2, .hbm part phys gva gpa))
    (hf : (s2.core s2.curCore).fused = true)
    (hl : Tbl.get? (s2.core (s2.portion s2.curCore (phys / 128))).l1 (phys / 128) = some l) : bodyInvl a 0 s =
      .ok (s2.modCore (s2.portion s2.curCore (phys / 128)) fun k =>
        { k with l1 := Tbl.set k.l1 (phys / 128) { l with valid := l.valid.filter (· != s2.curCore) } }, .seq) := by
  simp only [bodyInvl, ha, noRight_of_xlate hx, hx, hf, Bind.bind, Except.bind, Bool.false_eq_true, if_false, if_true, State.modCore, hl]

theorem bodyInvl_group (ha : readG s a = .ok (s1, ea)) (hx : s1.xlate ea 1 .inval = .ok (s2, .hbm part phys gva gpa)) :
    bodyInvl a 1 s = .ok ((coresOf (clusterOf s2.curCore)).foldl (fun s k => s.l1Drop k (phys / 128)) s2, .seq) := by
  simp only [bodyInvl, ha, noRight_of_xlate hx, hx, Bind.bind, Except.bind, Bool.false_eq_true, if_false,
    if_neg (show ¬ (1 : BitVec 2) = 0 by decide)]

theorem bodyInvl_other (ha : readG s a = .ok (s1, ea)) (hx : s1.xlate ea 1 .inval = .ok (s2, loc))
    (hh : ∀ part phys gva gpa, loc ≠ .hbm part phys gva gpa) : bodyInvl a sc s = .ok (s2, .seq) := by
  simp only [bodyInvl, ha, noRight_of_xlate hx, hx, Bind.bind, Except.bind, Bool.false_eq_true, if_false]

theorem isSome_ite {α : Type} {c : Prop} [Decidable c] {x y : Option α} (hx : x.isSome = true) (hy : y.isSome = true) :
    (if c then x else y).isSome = true := by
  split
  · exact hx
  · exact hy

/-- A reserved field makes an instruction a refused form, whatever else is wrong with it. -/
theorem forbidden_of_field {j : Instr} (h : (forbiddenField j).isSome = true) : (forbidden j).isSome = true :=
  isSome_ite rfl (isSome_ite rfl (isSome_ite rfl (isSome_ite rfl h)))

theorem forbidden_invl (h : 2 ≤ sc.toNat) : (forbidden (.invl a sc)).isSome = true :=
  forbidden_of_field (by rw [forbiddenField, if_pos h]; rfl)

end

/-- Settles O21: each instruction by the scope that it names (`bodyPfx_ok`, `bodyInvl_group`, `bodyCln_home`). -/
theorem fencesAndLines : Obligations.FencesAndLines := by
  refine ⟨?_, ?_, ?_, ?_, ?_, ?_, ?_, ?_, ?_, ?_, ?_, ?_, ?_⟩
  · intro kinds sc s h hr h2 ho
    exact halts_of_body rfl h (bodyFnc_hold hr h2 ho)
  · intro kinds sc s u h hr ho he
    exact does_of_body rfl ⟨rfl, rfl⟩ h (bodyFnc_ok hr ho he)
  · intro kinds sc s p h hp ha hb
    exact halts_of_body rfl h (by simp only [bodyFnc, awaitAll_hold hp ha hb, Bind.bind, Except.bind])
  · intro s loc n f g bs hf ht ha ho hg hs
    exact mayRead_mark hf ht ha ho hg hs
  · intro a sc s s1 ea h ha
    obtain ⟨u, hu⟩ := bodyPfx_ok (sc := sc) ha
    exact ⟨u, does_of_body rfl ⟨rfl, rfl⟩ h hu⟩
  · intro a sc s s1 ea s2 part phys gva gpa h ha hx hb hp hn
    have hu := bodyPfx_fetch (sc := sc) ha hx hb hp hn
    exact ⟨fun h2 => does_of_body rfl ⟨rfl, rfl⟩ h (by rw [hu, if_neg (Nat.not_lt.2 h2)]),
      fun h2 => does_of_body rfl ⟨rfl, rfl⟩ h (by rw [hu, if_pos h2])⟩
  · intro a sc s s1 ea s2 part phys gva gpa h ha hx
    have hu := bodyCln_home (sc := sc) ha hx
    exact ⟨fun hp => does_of_body rfl ⟨rfl, rfl⟩ h (by rw [hu, if_pos hp]), fun hp => halts_of_body rfl h (by rw [hu, hp]; rfl)⟩
  · intro a sc s s1 ea s2 part phys gva gpa h ha hx
    refine ⟨?_, ?_, ?_⟩
    · rintro rfl hf
      exact does_of_body rfl ⟨rfl, rfl⟩ h (bodyInvl_core ha hx hf)
    · rintro rfl hf l hl
      exact does_of_body rfl ⟨rfl, rfl⟩ h (bodyInvl_fused ha hx hf hl)
    · rintro rfl
      exact does_of_body rfl ⟨rfl, rfl⟩ h (bodyInvl_group ha hx)
  · intro a sc s s1 ea s2 loc ha hh
    refine ⟨fun h hx hp => does_of_body rfl ⟨rfl, rfl⟩ h (bodyCln_other ha hx hh hp), fun h hx dev part off dom hl => ?_,
      fun h hx => does_of_body rfl ⟨rfl, rfl⟩ h (bodyInvl_other ha hx hh)⟩
    subst hl
    have hu := bodyCln_peer (sc := sc) ha hx
    refine ⟨fun ho => halts_of_body rfl h ?_, fun hf hc => does_of_body rfl ⟨rfl, rfl⟩ h ?_⟩
    · rcases ho with ho | ho <;> simp only [hu, ho, Bool.false_and, Bool.and_false, Bool.false_eq_true, if_false]
    · simp only [hu, hf, hc, Bool.and_self, if_true]
  · intro a sc s s1 ea h ha hn
    exact does_of_body rfl ⟨rfl, rfl⟩ h (bodyInvl_noRight ha hn)
  · intro a sc s s1 ea e h ha hn hx
    exact halts_of_body rfl h (bodyInvl_error ha hn hx)
  · intro a sc s hsc hw hr hb
    exact halts_of_forbidden rfl (forbidden_invl hsc) hw hr hb
  · intro a sc s s1 ea e h ha hx
    exact halts_of_body rfl h (bodyCln_error ha hx)

/-! ## TMAD (08 R138) -/

section
variable {d a b : Reg} {la : BitVec 4} {s s1 s2 s3 : State} {ea w : W64} {loc : Loc}

theorem bodyTmad_untranslated {e : Stop} (ha : readG s a = .ok (s1, ea)) (hb : readG s1 b = .ok (s2, w)) (hal : ea.toNat % 64 = 0)
    (hx : s2.xlateLoad ea 64 .read = .error e) : bodyTmad d a b la s = .error e := by
  simp only [bodyTmad, ha, hb, aligned_ok hal, hx, Bind.bind, Except.bind]

/-- TMAD once its map is translated. -/
theorem bodyTmad_eq (ha : readG s a = .ok (s1, ea)) (hb : readG s1 b = .ok (s2, w)) (hal : ea.toNat % 64 = 0)
    (hx : s2.xlateLoad ea 64 .read = .ok (s3, loc)) : bodyTmad d a b la s = (do
      let c ← tmadCoords s3 w
      let s ← loadInto s3 { gd := [d.toNat], left := la.toNat } [(ea, loc, 64, .tmad c ea)] false
      .ok (s, .seq)) := by
  simp only [bodyTmad, ha, hb, aligned_ok hal, hx, Bind.bind, Except.bind]

theorem tmadCoords_illegal
    (h : (bitAt w 63 = true ∧ field w 62 60 ≠ 0) ∨ (bitAt w 63 = false ∧ (s3.rcdAny? s3.cur.launch = none ∨ field w 62 28 ≠ 0))) :
    tmadCoords s3 w = .error (.trap Cause.illegal none) := by
  rcases h with ⟨hb, hf⟩ | ⟨hb, hr⟩
  · rw [tmadCoords, if_pos hb, if_pos hf]
    rfl
  · rw [tmadCoords, if_neg (by rw [hb]; exact Bool.false_ne_true)]
    split
    · rfl
    · next r hs =>
      rw [if_pos (hr.resolve_left (by rw [hs]; nofun))]
      rfl

theorem tmadCoords_ok {c : List Nat}
    (h : (bitAt w 63 = true ∧ field w 62 60 = 0 ∧ c = [field w 14 0, field w 29 15, field w 44 30, field w 59 45]) ∨
      (bitAt w 63 = false ∧ field w 62 28 = 0 ∧ ∃ r, s3.rcdAny? s3.cur.launch = some r ∧
        c = [Rec.coord r (field w 27 0) 0, Rec.coord r (field w 27 0) 1, Rec.coord r (field w 27 0) 2, Rec.coord r (field w 27 0) 3])) :
    tmadCoords s3 w = .ok c := by
  rcases h with ⟨hb, hf, rfl⟩ | ⟨hb, hf, r, hr, rfl⟩
  · rw [tmadCoords, if_pos hb, if_neg (not_not.2 hf)]
    rfl
  · rw [tmadCoords, if_neg (by rw [hb]; exact Bool.false_ne_true), hr]
    exact if_neg (not_not.2 hf)

end

/-- Settles O22: the coordinates that G(b) gives (`tmadCoords_ok`), then the read of the map (`bodyTmad_eq`). -/
theorem mapAddresses : Obligations.MapAddresses := by
  intro d a b la s s1 s2 ea w h ha hb
  refine ⟨fun hal => ?_, fun hal e hx => halts_of_body rfl h (bodyTmad_untranslated ha hb hal hx), fun hal s3 loc hx => ⟨fun hc => ?_, ?_⟩⟩
  · exact halts_of_body rfl h (by simp only [bodyTmad, ha, hb, aligned_bad hal, Bind.bind, Except.bind])
  · refine halts_of_body rfl h ?_
    rw [bodyTmad_eq ha hb hal hx, tmadCoords_illegal hc]
    rfl
  · intro c hc hm s4 got hr
    refine does_of_body rfl ⟨rfl, rfl⟩ h ?_
    rw [bodyTmad_eq ha hb hal hx, tmadCoords_ok hc]
    simp only [loadInto_plain hm hr, Bind.bind, Except.bind]

/-! ## AMO, AMOP and RED (08 R139 to R142) -/

/-- The operands of an instruction that is a commit point of its own, read or kept (01 R9). -/
theorem operandsOnce_ok {s u : State} {reads : State → List W64 → Prop} {l : List W64} {read : State → Except Stop (State × List W64)}
    (hr : ∀ v, reads v l → read s = .ok (v, l)) (h : Operands s reads l u) : operandsOnce s read = .ok (u, l) := by
  rcases h with ⟨hh, v, hv, rfl⟩ | ⟨hh, rfl, rfl⟩
  · simp only [operandsOnce, hh, hr v hv, Bind.bind, Except.bind, Bool.false_eq_true, if_false]
  · simp only [operandsOnce, hh, if_true]

theorem operands_curCore {s u : State} {reads : State → List W64 → Prop} {l : List W64} (hr : ∀ v, reads v l → v.curCore = s.curCore)
    (h : Operands s reads l u) : u.curCore = s.curCore := by
  rcases h with ⟨-, v, hv, rfl⟩ | ⟨-, -, rfl⟩
  · exact hr v hv
  · rfl

theorem commits_curCore {s u : State} (h : Commits s u) : u.curCore = s.curCore := by
  rcases h with ⟨-, rfl⟩ | ⟨-, -, rfl⟩
  · exact (handsOn_place s).1
  · rfl

theorem noteFill_curCore (s : State) (p gpa : Nat) : (s.noteFill p gpa).curCore = s.curCore := by
  unfold State.noteFill
  split <;> rfl

theorem xlateLoad_curCore {s t : State} {ea : W64} {n : Nat} {acc : Access} {loc : Loc} (h : s.xlateLoad ea n acc = .ok (t, loc)) :
    t.curCore = s.curCore := by
  have hw := (xlateAny_walked s s.curCore (s.privileged s.curCore s.curSlot) ea n acc).curCore
  unfold State.xlateLoad at h
  dsimp only at h
  split at h
  · next u l hx =>
    cases h
    rwa [hx] at hw
  · cases h
  · next u gpa hx =>
    cases h
    rw [hx] at hw
    exact (noteFill_curCore _ _ _).trans hw
  · next u gpa hx =>
    cases h
    rwa [hx] at hw
  · cases h

/-- The reads of the operands of an AMO. -/
def AmoReads (a b : Reg) (op : BitVec 4) (s : State) (ea p q : W64) (v : State) (l : List W64) : Prop :=
  ∃ s1 s2, readG s a = .ok (s1, ea) ∧ readG s1 b = .ok (s2, p) ∧ (if op = 9 then readG s2 (b + 1) else .ok (s2, 0)) = .ok (v, q) ∧
    l = [ea, p, q]

theorem amoOperands_ok {a b : Reg} {op : BitVec 4} {s v : State} {ea p q : W64} {l : List W64} (h : AmoReads a b op s ea p q v l) :
    amoOperands a b op s = .ok (v, l) := by
  obtain ⟨s1, s2, ha, hb, hq, rfl⟩ := h
  rw [amoOperands, ha]
  simp only [hb, Bind.bind, Except.bind]
  split at hq
  · next h9 => rw [if_pos h9, hq]
  · next h9 =>
    cases hq
    rw [if_neg h9]

theorem amoReads_curCore {a b : Reg} {op : BitVec 4} {s v : State} {ea p q : W64} {l : List W64} (h : AmoReads a b op s ea p q v l) :
    v.curCore = s.curCore := by
  obtain ⟨s1, s2, ha, hb, hq, -⟩ := h
  have h2 : s2.curCore = s.curCore := ((readG_samePlace ha).trans (readG_samePlace hb)).core
  split at hq
  · exact (readG_samePlace hq).core.trans h2
  · cases hq
    exact h2

section
variable {d a b : Reg} {la op : BitVec 4} {sz : BitVec 1} {s s1 s2 s3 s4 u : State} {ea p q : W64} {loc : Loc}

theorem nextReq_eq_asks {c : Nat} (h : s.curCore = c) : s.nextReq c = (askNum s, asks s) := by rw [← h, asks_eq_nextReq]

/-- What a committed AMO leaves: its request handed on, but of a mirror core, and its result outstanding. -/
def amoSent (c : Nat) (u : State) (ea p q : W64) (loc : Loc) (n : Nat) (d : Reg) (la op : BitVec 4) : State :=
  let e := theEntry u ea loc .sc (coveringScope c loc) (.amo op.toNat n p q ((asks u).core c).reqs)
  let v := addPending (asks u) { gd := [d.toNat], left := la.toNat, acq := scopeNum (coveringScope c loc) + 1 }
  if (u.primaryOf? c).isSome then v else v.modCore c fun k => { k with flight := k.flight ++ [⟨e, .waiting⟩] }

theorem bodyAmo_misaligned (ho : operandsOnce s (amoOperands a b op) = .ok (s3, [ea, p, q])) (hal : ea.toNat % atomicSize sz ≠ 0) :
    bodyAmo d a b la op sz s = .error (.trap Cause.align (some ea)) := by
  simp only [bodyAmo, ho, List.getD_cons_zero, aligned_bad hal, Bind.bind, Except.bind]

theorem bodyAmo_untranslated {e : Stop} (ho : operandsOnce s (amoOperands a b op) = .ok (s3, [ea, p, q]))
    (hal : ea.toNat % atomicSize sz = 0) (hx : s3.xlateLoad ea (atomicSize sz) .atomic = .error e) :
    bodyAmo d a b la op sz s = .error e := by
  simp only [bodyAmo, ho, List.getD_cons_zero, aligned_ok hal, hx, Bind.bind, Except.bind]

theorem bodyAmo_stops {e : Stop} (ho : operandsOnce s (amoOperands a b op) = .ok (s3, [ea, p, q]))
    (hal : ea.toNat % atomicSize sz = 0) (hx : s3.xlateLoad ea (atomicSize sz) .atomic = .ok (s4, loc)) (hc : commitPoint s4 = .error e) :
    bodyAmo d a b la op sz s = .error e := by
  simp only [bodyAmo, ho, List.getD_cons_zero, aligned_ok hal, hx, hc, Bind.bind, Except.bind]

theorem bodyAmo_ok (ho : operandsOnce s (amoOperands a b op) = .ok (s3, [ea, p, q]))
    (hal : ea.toNat % atomicSize sz = 0) (hx : s3.xlateLoad ea (atomicSize sz) .atomic = .ok (s4, loc)) (hc : commitPoint s4 = .ok u)
    (hu : u.curCore = s.curCore) :
    bodyAmo d a b la op sz s = .ok (amoSent s.curCore u ea p q loc (atomicSize sz) d la op, .seq) := by
  simp only [bodyAmo, ho, List.getD_cons_zero, List.getD_cons_succ, aligned_ok hal, hx, hc, nextReq_eq_asks hu, Bind.bind, Except.bind]
  rfl

/-! ### Entries of AMOP and RED -/

/-- An update at an address, once its operands are read: translated, and buffered behind no pending acquire. -/
def updateAt (s : State) (ea : W64) (n : Nat) (acc : Access) (act : Act) : Effect := do
  aligned ea n
  let (s, loc) ← s.xlate ea n acc
  require (!acquirePending s.cur) (.error (.hold .order))
  let s ← addEntry s ea loc .weak .core act
  .ok (s, .seq)

theorem updateAt_misaligned {n : Nat} {acc : Access} {act : Act} (hal : ea.toNat % n ≠ 0) :
    updateAt s ea n acc act = .error (.trap Cause.align (some ea)) := by
  simp only [updateAt, aligned_bad hal, Bind.bind, Except.bind]

theorem updateAt_untranslated {n : Nat} {acc : Access} {act : Act} {e : Stop} (hal : ea.toNat % n = 0) (hx : s.xlate ea n acc = .error e) :
    updateAt s ea n acc act = .error e := by
  simp only [updateAt, aligned_ok hal, hx, Bind.bind, Except.bind]

theorem updateAt_ok {n : Nat} {acc : Access} {act : Act} (hal : ea.toNat % n = 0) (hx : s.xlate ea n acc = .ok (s1, loc))
    (hq : acquirePending s1.cur = false) (he : addEntry s1 ea loc .weak .core act = .ok u) : updateAt s ea n acc act = .ok (u, .seq) := by
  simp only [updateAt, aligned_ok hal, hx, hq, Bool.not_false, require_true, he, Bind.bind, Except.bind]

theorem bodyAmop_eq (ha : readG s a = .ok (s1, ea)) (hb : readG s1 b = .ok (s2, p)) :
    bodyAmop a b op sz s = updateAt s2 ea (atomicSize sz) .atomic (.amop op.toNat (atomicSize sz) p) := by
  simp only [bodyAmop, ha, hb, Bind.bind, Except.bind]
  rfl

theorem bodyRed_undeclared {op : BitVec 2} (h : redAdmitted s op = false) : bodyRed a b op sz s = .error (.trap Cause.illegal none) := by
  simp only [bodyRed, h, require_false, Bind.bind, Except.bind, trapBits]

theorem bodyRed_local {op : BitVec 2} (h : redAdmitted s op = true) (ha : readG s a = .ok (s1, ea)) (hb : readG s1 b = .ok (s2, p))
    (hf : 0xFFFE ≤ field ea 63 48) : bodyRed a b op sz s = .error (.trap Cause.illegal none) := by
  simp only [bodyRed, h, require_true, ha, hb, decide_eq_false (Nat.not_lt.2 hf), require_false, Bind.bind, Except.bind, trapBits]

theorem bodyRed_eq {op : BitVec 2} (h : redAdmitted s op = true) (ha : readG s a = .ok (s1, ea)) (hb : readG s1 b = .ok (s2, p))
    (hf : field ea 63 48 < 0xFFFE) : bodyRed a b op sz s = updateAt s2 ea (atomicSize sz) .red (.red op.toNat (atomicSize sz) p) := by
  simp only [bodyRed, h, require_true, ha, hb, decide_eq_true hf, Bind.bind, Except.bind]
  rfl

end

/-- Settles O23: the operands are read once (`operandsOnce_ok`), AMO hands its request on at a commit point, AMOP and RED buffer theirs (`updateAt_ok`). -/
theorem atomics : Obligations.Atomics := by
  refine ⟨?_, ?_, ?_⟩
  · rintro d a b la op sz s s3 ea p q h hop n rfl
    have ho := operandsOnce_ok (reads := AmoReads a b op s ea p q) (fun v hv => amoOperands_ok hv) hop
    have hc := operands_curCore (reads := AmoReads a b op s ea p q) (fun v hv => amoReads_curCore hv) hop
    refine ⟨fun hal => halts_of_body rfl h (bodyAmo_misaligned ho hal), fun hal e hx => halts_of_body rfl h (bodyAmo_untranslated ho hal hx),
      fun hal s4 loc hx hw => ?_, fun hal s4 loc u hx hu => ?_⟩
    · exact issue_halts (e := .handed (handsOn s4) (.handing false)) h (bodyAmo_stops ho hal hx (commitPoint_waits hw))
    · have hcu := (commits_curCore hu).trans ((xlateLoad_curCore hx).trans hc)
      exact does_of_body rfl ⟨rfl, rfl⟩ h (bodyAmo_ok ho hal hx (commitPoint_ok hu) hcu)
  · rintro a b op sz s s1 s2 ea p h ha hb n rfl
    have he := bodyAmop_eq (op := op) (sz := sz) ha hb
    exact ⟨fun hal => halts_of_body rfl h (he.trans (updateAt_misaligned hal)),
      fun hal e hx => halts_of_body rfl h (he.trans (updateAt_untranslated hal hx)),
      fun hal s3 loc u hx hq hu => does_of_body rfl ⟨rfl, rfl⟩ h (he.trans (updateAt_ok hal hx hq hu))⟩
  · intro a b op sz s h
    refine ⟨fun hr => halts_of_body rfl h (bodyRed_undeclared hr), ?_⟩
    rintro hr s1 s2 ea p ha hb n rfl
    refine ⟨fun hf => halts_of_body rfl h (bodyRed_local hr ha hb hf), fun hf hal => ?_, fun hf hal e hx => ?_, fun hf hal s3 loc u hx hq hu => ?_⟩
    all_goals have he := bodyRed_eq (sz := sz) hr ha hb hf
    · exact halts_of_body rfl h (he.trans (updateAt_misaligned hal))
    · exact halts_of_body rfl h (he.trans (updateAt_untranslated hal hx))
    · exact does_of_body rfl ⟨rfl, rfl⟩ h (he.trans (updateAt_ok hal hx hq hu))

end Machine
end Sys2Proof
end

section
/-! PROOF. Messages, spawned children, records and reads for others: O24 and O25. -/

namespace Sys2Proof
namespace Machine

open Safety

/-! ## SENDK, SEND and SENDX (08 R146, R147) -/

section
variable {d a b : Reg} {s s1 s2 s3 u : State} {w x : W64} {q : Quad} {tg : List Target} {region : List Byte} {e : Stop}

theorem bufferMsg_ok {m : Msg} (hn : m.payload.length ≤ 2048) (hq : acquirePending s.cur = false)
    (he : addEntry s m.target (.spad 0 0) .rel .sys (.send m tg) = .ok u) :
    bufferMsg s m tg = .ok (u.modCur fun t => { t with qbld := [] }, .seq) := by
  simp only [bufferMsg, decide_eq_true hn, hq, Bool.not_false, require_true, he, Bind.bind, Except.bind]

theorem bodySendk_ok {cls bnc : BitVec 6} (hd : readG s d = .ok (s1, w)) (ht : placeTargets s1 w = .ok tg) (ha : readQuad s1 a = .ok (s2, q)) :
    bodySendk d a cls bnc s = bufferMsg s2 (taskMsg s2 .byClass w cls.toNat bnc.toNat 0 q (builtBytes s2.cur) []) tg := by
  simp only [bodySendk, hd, ht, ha, Bind.bind, Except.bind]

/-- SEND once its place, quad and word are read. -/
def sendAt (s : State) (w : W64) (tg : List Target) (q : Quad) (x : W64) : Effect := do
  require (!bitAt x 15) (trapBits Cause.illegal)
  let len := field x 49 38
  let built := builtBytes s.cur
  require (!(decide (built ≠ []) && decide (0 < len))) (trapBits Cause.ringlen)
  require (decide (len ≤ 2048)) (trapBits Cause.ringlen)
  let region ← if len = 0 then .ok [] else spadRegion s (16 * field x 63 50) len
  bufferMsg s (taskMsg s .byAddress w (field x 15 0) (field x 37 32) (field x 31 16) q (built ++ region) []) tg

theorem bodySend_eq (hd : readG s d = .ok (s1, w)) (ht : placeTargets s1 w = .ok tg) (ha : readQuad s1 a = .ok (s2, q))
    (hb : readG s2 b = .ok (s3, x)) : bodySend d a b s = sendAt s3 w tg q x := by
  simp only [bodySend, hd, ht, ha, hb, Bind.bind, Except.bind]
  rfl

theorem sendAt_carried (h : bitAt x 15 = true) : sendAt s w tg q x = .error (.trap Cause.illegal none) := by
  simp only [sendAt, h, Bool.not_true, require_false, Bind.bind, Except.bind, trapBits]

theorem sendAt_long (h : bitAt x 15 = false) (hl : (builtBytes s.cur ≠ [] ∧ 0 < field x 49 38) ∨ 2048 < field x 49 38) :
    sendAt s w tg q x = .error (.trap Cause.ringlen none) := by
  by_cases hb : builtBytes s.cur ≠ [] ∧ 0 < field x 49 38
  · simp only [sendAt, h, Bool.not_false, require_true, decide_eq_true hb.1, decide_eq_true hb.2, Bool.and_self, Bool.not_true,
      require_false, Bind.bind, Except.bind, trapBits]
  · have hw : (!(decide (builtBytes s.cur ≠ []) && decide (0 < field x 49 38))) = true := by
      rw [Bool.not_eq_true', ← Bool.decide_and, decide_eq_false_iff_not]
      exact hb
    simp only [sendAt, h, Bool.not_false, require_true, hw, decide_eq_false (Nat.not_le.2 (hl.resolve_left hb)), require_false,
      Bind.bind, Except.bind, trapBits]

/-- The region of the scratchpad that a message carries, if it has a length. -/
theorem sendAt_region (h : bitAt x 15 = false) (hb : builtBytes s.cur = [] ∨ field x 49 38 = 0) (hl : field x 49 38 ≤ 2048) :
    sendAt s w tg q x = ((if field x 49 38 = 0 then .ok [] else spadRegion s (16 * field x 63 50) (field x 49 38)) >>= fun region =>
      bufferMsg s (taskMsg s .byAddress w (field x 15 0) (field x 37 32) (field x 31 16) q (builtBytes s.cur ++ region) []) tg) := by
  have hw : (!(decide (builtBytes s.cur ≠ []) && decide (0 < field x 49 38))) = true := by
    rw [Bool.not_eq_true', ← Bool.decide_and, decide_eq_false_iff_not]
    rcases hb with hb | hb
    · exact fun hn => hn.1 hb
    · exact fun hn => absurd hn.2 (by omega)
  simp only [sendAt, h, Bool.not_false, require_true, hw, decide_eq_true hl, Bind.bind, Except.bind]
  split <;> rfl

/-- SENDX once its place, quad and word are read. -/
def sendxAt (s : State) (w : W64) (tg : List Target) (q : Quad) (x : W64) : Effect := do
  let len := field x 49 38
  require (bitAt x 15 && decide (field x 14 0 < len / 2)) (trapBits Cause.illegal)
  require (decide (len ≤ 256) && decide (len % 2 = 0)) (trapBits Cause.ringlen)
  let region ← spadRegion s (16 * field x 63 50) len
  bufferMsg s (taskMsg s .carried w (field x 15 0) (field x 37 32) (field x 31 16) q (builtBytes s.cur) (halvesOf region)) tg

theorem bodySendx_eq (hd : readG s d = .ok (s1, w)) (ht : placeTargets s1 w = .ok tg) (ha : readQuad s1 a = .ok (s2, q))
    (hb : readG s2 b = .ok (s3, x)) : bodySendx d a b s = sendxAt s3 w tg q x := by
  simp only [bodySendx, hd, ht, ha, hb, Bind.bind, Except.bind]
  rfl

theorem sendxAt_illegal (h : bitAt x 15 = false ∨ field x 49 38 / 2 ≤ field x 14 0) :
    sendxAt s w tg q x = .error (.trap Cause.illegal none) := by
  have hw : (bitAt x 15 && decide (field x 14 0 < field x 49 38 / 2)) = false := by
    rcases h with h | h
    · rw [h, Bool.false_and]
    · rw [decide_eq_false (Nat.not_lt.2 h), Bool.and_false]
  simp only [sendxAt, hw, require_false, Bind.bind, Except.bind, trapBits]

theorem sendxAt_long (h : bitAt x 15 = true) (ho : field x 14 0 < field x 49 38 / 2) (hl : 256 < field x 49 38 ∨ field x 49 38 % 2 ≠ 0) :
    sendxAt s w tg q x = .error (.trap Cause.ringlen none) := by
  have hw : (decide (field x 49 38 ≤ 256) && decide (field x 49 38 % 2 = 0)) = false := by
    rw [← Bool.decide_and, decide_eq_false_iff_not]
    omega
  simp only [sendxAt, h, decide_eq_true ho, Bool.and_self, require_true, hw, require_false, Bind.bind, Except.bind, trapBits]

theorem sendxAt_region (h : bitAt x 15 = true) (ho : field x 14 0 < field x 49 38 / 2) (hl : field x 49 38 ≤ 256)
    (h2 : field x 49 38 % 2 = 0) : sendxAt s w tg q x = (spadRegion s (16 * field x 63 50) (field x 49 38) >>= fun region =>
      bufferMsg s (taskMsg s .carried w (field x 15 0) (field x 37 32) (field x 31 16) q (builtBytes s.cur) (halvesOf region)) tg) := by
  simp only [sendxAt, h, decide_eq_true ho, decide_eq_true hl, decide_eq_true h2, Bool.and_self, require_true, Bind.bind, Except.bind]

end

/-- Settles O24: the three sends by the message that they buffer (`bufferMsg_ok`). -/
theorem sends : Obligations.Sends := by
  refine ⟨?_, ?_, ?_, ?_, ?_⟩
  · intro d a cls bnc s s1 s2 w q tg u h hd ht ha hn hq m he
    exact does_of_body rfl ⟨rfl, rfl⟩ h ((bodySendk_ok hd ht ha).trans (bufferMsg_ok hn hq he))
  · intro d a b s s1 s2 s3 w q x tg region u h hd ht ha hb h15 hbl hl hr hn hq m he
    refine does_of_body rfl ⟨rfl, rfl⟩ h ?_
    rw [bodySend_eq hd ht ha hb, sendAt_region h15 hbl hl, hr]
    exact bufferMsg_ok hn hq he
  · intro d a b s s1 s2 s3 w q x tg region u h hd ht ha hb h15 ho hl h2 hr hn hq m he
    refine does_of_body rfl ⟨rfl, rfl⟩ h ?_
    rw [bodySendx_eq hd ht ha hb, sendxAt_region h15 ho hl h2, hr]
    exact bufferMsg_ok hn hq he
  · rintro j d (⟨a, b, rfl | rfl⟩ | ⟨a, c, b, rfl⟩) s s1 w e h hd ht
    all_goals refine halts_of_body rfl h ?_
    · simp only [bodySend, hd, ht, Bind.bind, Except.bind]
    · simp only [bodySendx, hd, ht, Bind.bind, Except.bind]
    · simp only [bodySendk, hd, ht, Bind.bind, Except.bind]
  · intro d a b s s1 s2 s3 w q x tg hd ht ha hb len
    have hs := bodySend_eq hd ht ha hb
    have hx := bodySendx_eq hd ht ha hb
    refine ⟨fun h => ⟨fun h15 => halts_of_body rfl h (hs.trans (sendAt_carried h15)), fun h15 hl =>
        halts_of_body rfl h (hs.trans (sendAt_long h15 hl)), fun h15 hbl h0 hl e hr => ?_⟩,
      fun h => ⟨fun hi => halts_of_body rfl h (hx.trans (sendxAt_illegal hi)), fun h15 ho hl =>
        halts_of_body rfl h (hx.trans (sendxAt_long h15 ho hl)), fun h15 ho hl h2 e hr => ?_⟩⟩
    · refine halts_of_body rfl h ?_
      rw [hs, sendAt_region h15 (.inl hbl) hl, if_neg (Nat.ne_of_gt h0), hr]
      rfl
    · refine halts_of_body rfl h ?_
      rw [hx, sendxAt_region h15 ho hl h2, hr]
      rfl

/-! ## SPWN (08 R150) -/

/-- The reads of a quad and a word of an instruction that is a commit point of its own. -/
def QuadReads (a b : Reg) (s : State) (q : Quad) (x : W64) (v : State) (l : List W64) : Prop :=
  ∃ s1, readQuad s a = .ok (s1, q) ∧ readG s1 b = .ok (v, x) ∧ l = [q.a, q.b, q.c, q.d, x]

theorem quadOperands_ok {a b : Reg} {s v : State} {q : Quad} {x : W64} {l : List W64} (h : QuadReads a b s q x v l) :
    quadOperands a b s = .ok (v, l) := by
  obtain ⟨s1, ha, hb, rfl⟩ := h
  simp only [quadOperands, ha, hb, Bind.bind, Except.bind]

theorem readQuad_samePlace {s t : State} {a : Reg} {q : Quad} (h : readQuad s a = .ok (t, q)) : SamePlace s t := by
  obtain ⟨⟨s1, x⟩, h1, h⟩ := bind_ok h
  obtain ⟨⟨s2, y⟩, h2, h⟩ := bind_ok h
  obtain ⟨⟨s3, z⟩, h3, h⟩ := bind_ok h
  obtain ⟨⟨s4, w⟩, h4, h⟩ := bind_ok h
  cases h
  exact (((readG_samePlace h1).trans (readG_samePlace h2)).trans (readG_samePlace h3)).trans (readG_samePlace h4)

theorem quadReads_curCore {a b : Reg} {s v : State} {q : Quad} {x : W64} {l : List W64} (h : QuadReads a b s q x v l) :
    v.curCore = s.curCore := by
  obtain ⟨s1, ha, hb, -⟩ := h
  exact ((readQuad_samePlace ha).trans (readG_samePlace hb)).core

section
variable {d a b : Reg} {la : BitVec 4} {s s2 u : State} {q : Quad} {x : W64} {tg : List Target} {e : Stop}

/-- What a committed SPWN leaves: its child's message handed on, but of a mirror core, and its result outstanding. -/
def spwnSent (c : Nat) (u : State) (x : W64) (q : Quad) (tg : List Target) (d : Reg) (la : BitVec 4) : State :=
  let w := w64 (field x 37 0)
  let m := taskMsg (asks u) .spawn w (field x 63 48) 0 0 q [] []
  let e := theEntry u w (.spad 0 0) .rel .dev (.spawn m (tg.headD (.core c)) ((asks u).core c).reqs)
  let v := addPending (asks u) { gd := [d.toNat], left := la.toNat }
  if (u.primaryOf? c).isSome then v else v.modCore c fun k => { k with flight := k.flight ++ [⟨e, .waiting⟩] }

theorem bodySpwn_illegal (ho : operandsOnce s (quadOperands a b) = .ok (s2, [q.a, q.b, q.c, q.d, x]))
    (h : bitAt x 63 = true ∨ field x 47 38 ≠ 0 ∨ plKind (w64 (field x 37 0)) = 1 ∨ plKind (w64 (field x 37 0)) = 2) :
    bodySpwn d a b la s = .error (.trap Cause.illegal none) := by
  simp only [bodySpwn, ho, Bind.bind, Except.bind, List.getD_cons_zero, List.getD_cons_succ]
  by_cases hw : bitAt x 63 = false ∧ field x 47 38 = 0
  · have hk : (!(decide (plKind (w64 (field x 37 0)) = 1) || decide (plKind (w64 (field x 37 0)) = 2))) = false := by
      rw [Bool.not_eq_false', ← Bool.decide_or, decide_eq_true_iff]
      rcases h with h | h | h
      · exact absurd (h.symm.trans hw.1) (by decide)
      · exact absurd hw.2 h
      · exact h
    simp only [hw.1, decide_eq_true hw.2, Bool.not_false, Bool.and_self, require_true, hk, require_false, trapBits]
  · have hc : (!bitAt x 63 && decide (field x 47 38 = 0)) = false := by
      rw [Bool.and_eq_false_iff, Bool.not_eq_false', decide_eq_false_iff_not]
      by_cases h63 : bitAt x 63 = true
      · exact .inl h63
      · exact .inr fun h0 => hw ⟨Bool.eq_false_iff.2 h63, h0⟩
    simp only [hc, require_false, trapBits]

/-- SPWN with a word and a kind of place that it admits. -/
theorem bodySpwn_eq (ho : operandsOnce s (quadOperands a b) = .ok (s2, [q.a, q.b, q.c, q.d, x])) (h63 : bitAt x 63 = false)
    (h0 : field x 47 38 = 0) (h1 : plKind (w64 (field x 37 0)) ≠ 1) (h2 : plKind (w64 (field x 37 0)) ≠ 2) : bodySpwn d a b la s = (do
      require (s2.ownDevice (w64 (field x 37 0))) (trapAt Cause.permission (w64 (field x 37 0)))
      let tg ← placeTargets s2 (w64 (field x 37 0))
      let u ← commitPoint s2
      let v := u.nextReq s.curCore
      let m := taskMsg v.2 .spawn (w64 (field x 37 0)) (field x 63 48) 0 0 q [] []
      let e := newEntry v.2 v.1 (w64 (field x 37 0)) (.spad 0 0) .rel .dev (.spawn m (tg.headD (.core s.curCore)) (v.2.core s.curCore).reqs)
      let y := addPending v.2 { gd := [d.toNat], left := la.toNat }
      .ok (if (u.primaryOf? s.curCore).isSome then y else y.modCore s.curCore fun k => { k with flight := k.flight ++ [⟨e, .waiting⟩] },
        .seq)) := by
  simp only [bodySpwn, ho, Bind.bind, Except.bind, List.getD_cons_zero, List.getD_cons_succ, h63, decide_eq_true h0, Bool.not_false,
    Bool.and_self, require_true, decide_eq_false h1, decide_eq_false h2, Bool.or_self]
  rfl

theorem bodySpwn_away (ho : operandsOnce s (quadOperands a b) = .ok (s2, [q.a, q.b, q.c, q.d, x])) (h63 : bitAt x 63 = false)
    (h0 : field x 47 38 = 0) (h1 : plKind (w64 (field x 37 0)) ≠ 1) (h2 : plKind (w64 (field x 37 0)) ≠ 2)
    (hd : s2.ownDevice (w64 (field x 37 0)) = false) :
    bodySpwn d a b la s = .error (.trap Cause.permission (some (w64 (field x 37 0)))) := by
  rw [bodySpwn_eq ho h63 h0 h1 h2, require_false hd]
  rfl

theorem bodySpwn_misplaced (ho : operandsOnce s (quadOperands a b) = .ok (s2, [q.a, q.b, q.c, q.d, x])) (h63 : bitAt x 63 = false)
    (h0 : field x 47 38 = 0) (h1 : plKind (w64 (field x 37 0)) ≠ 1) (h2 : plKind (w64 (field x 37 0)) ≠ 2)
    (hd : s2.ownDevice (w64 (field x 37 0)) = true) (ht : placeTargets s2 (w64 (field x 37 0)) = .error e) :
    bodySpwn d a b la s = .error e := by
  rw [bodySpwn_eq ho h63 h0 h1 h2, require_true hd, ht]
  rfl

theorem bodySpwn_ok (ho : operandsOnce s (quadOperands a b) = .ok (s2, [q.a, q.b, q.c, q.d, x])) (h63 : bitAt x 63 = false)
    (h0 : field x 47 38 = 0) (h1 : plKind (w64 (field x 37 0)) ≠ 1) (h2 : plKind (w64 (field x 37 0)) ≠ 2)
    (hd : s2.ownDevice (w64 (field x 37 0)) = true) (ht : placeTargets s2 (w64 (field x 37 0)) = .ok tg) (hc : commitPoint s2 = .ok u)
    (hu : u.curCore = s.curCore) : bodySpwn d a b la s = .ok (spwnSent s.curCore u x q tg d la, .seq) := by
  rw [bodySpwn_eq ho h63 h0 h1 h2]
  simp only [hd, require_true, ht, hc, nextReq_eq_asks hu, Bind.bind, Except.bind]
  rfl

end

/-! ## DEQ and RDX (08 R152 to R154) -/

theorem bodyDeq_bound {d : Reg} {la : BitVec 4} {s : State} (h : s.cur.bound ≠ none) :
    bodyDeq d la s = .error (.trap Cause.illegal none) := by
  have hb : s.cur.bound.isNone = false := Bool.eq_false_iff.2 fun hn => h (Option.isNone_iff_eq_none.1 hn)
  simp only [bodyDeq, hb, require_false, trapBits, Bind.bind, Except.bind]

theorem bodyDeq_none {d : Reg} {la : BitVec 4} {s : State} (hb : s.cur.bound = none) (ht : s.takeRecord = none) : bodyDeq d la s =
    .ok (laterG s la.toNat [d.toNat, d.toNat + 1, d.toNat + 2, d.toNat + 3] [0, 0, 0, 0], .seq) := by
  simp only [bodyDeq, hb, Option.isNone_none, require_true, ht, Bind.bind, Except.bind]
  rfl

theorem bodyDeq_some {d : Reg} {la : BitVec 4} {s u : State} {r : CRec} (hb : s.cur.bound = none) (ht : s.takeRecord = some (r, u)) :
    bodyDeq d la s = .ok (laterG (u.l1Invalidate u.curCore) la.toNat [d.toNat, d.toNat + 1, d.toNat + 2, d.toNat + 3]
      [r.w0, r.w1, r.w2, r.w3], .seq) := by
  simp only [bodyDeq, hb, Option.isNone_none, require_true, ht, Bind.bind, Except.bind]
  rfl

/-- What RDX asks of its quad. -/
def rdxGood (q : Quad) : Prop :=
  1 ≤ q.b.toNat ∧ q.b.toNat ≤ 65536 ∧ rdxMode q.d ≠ 3 ∧ field q.d 45 32 = 0 ∧ bitAt q.d 6 = false ∧ rdxDoff q.d % 16 = 0 ∧ plKind q.c ≠ 2

theorem rdxGood_check (q : Quad) : (decide (1 ≤ q.b.toNat) && decide (q.b.toNat ≤ 65536) && decide (rdxMode q.d ≠ 3)
    && decide (field q.d 45 32 = 0) && !bitAt q.d 6 && decide (rdxDoff q.d % 16 = 0) && decide (plKind q.c ≠ 2)) = true ↔ rdxGood q := by
  simp only [Bool.and_eq_true, decide_eq_true_iff, Bool.not_eq_true', and_assoc, rdxGood]

section
variable {a : Reg} {s s1 s2 u : State} {q : Quad} {loc : Loc} {tg : List Target} {e : Stop}

theorem bodyRdx_illegal (ha : readQuad s a = .ok (s1, q)) (h : ¬ rdxGood q) : bodyRdx a s = .error (.trap Cause.illegal none) := by
  have hw := Bool.eq_false_iff.2 (mt (rdxGood_check q).1 h)
  simp only [bodyRdx, ha, hw, require_false, trapBits, Bind.bind, Except.bind]

theorem bodyRdx_long (ha : readQuad s a = .ok (s1, q)) (h : rdxGood q) (h0 : rdxMode q.d = 0) (hl : 2048 < q.b.toNat) :
    bodyRdx a s = .error (.trap Cause.ringlen none) := by
  simp only [bodyRdx, ha, (rdxGood_check q).2 h, require_true, decide_eq_true h0, decide_eq_true hl, Bool.and_self, Bool.not_true,
    require_false, trapBits, Bind.bind, Except.bind]

/-- The consumer of a read at another device is of the domain of its source. -/
def rdxDomains (loc : Loc) (tg : List Target) : Bool :=
  tg.all fun t => match t, locDomain loc with | .device _ _ d, some e => d == e | _, _ => true

theorem bodyRdx_eq (ha : readQuad s a = .ok (s1, q)) (h : rdxGood q) (hl : ¬ (rdxMode q.d = 0 ∧ 2048 < q.b.toNat)) : bodyRdx a s = (do
    let (s, loc) ← xlateRange q.a q.b.toNat 2 s1
    let tg ← placeTargets s q.c
    require (rdxDomains loc tg) (trapAt Cause.permission q.c)
    require (!acquirePending s.cur) (.error (.hold .order))
    let s ← addEntry s q.a loc .rel .sys (.rdx (rdxRequest s q tg) loc tg)
    .ok (s, .seq)) := by
  have hw : (!(decide (rdxMode q.d = 0) && decide (2048 < q.b.toNat))) = true := by
    rw [Bool.not_eq_true', ← Bool.decide_and, decide_eq_false_iff_not]
    exact hl
  simp only [bodyRdx, ha, (rdxGood_check q).2 h, require_true, hw, Bind.bind, Except.bind]
  rfl

theorem rdxDomains_ok (h : ∀ t ∈ tg, ∀ dev part dom e, t = .device dev part dom → locDomain loc = some e → dom = e) :
    rdxDomains loc tg = true := by
  refine List.all_eq_true.2 fun t ht => ?_
  split
  · next d e he => exact beq_iff_eq.2 (h _ ht _ _ _ _ rfl he)
  · rfl

end

/-- Settles O25: SPWN hands its child on at a commit point (`bodySpwn_ok`), DEQ takes a whole record (`bodyDeq_some`), RDX buffers its request (`bodyRdx_eq`). -/
theorem spawnsAndReads : Obligations.SpawnsAndReads := by
  refine ⟨?_, ?_, ?_, ?_⟩
  · intro d a b la s s2 q x tg u h hop h63 h0 h1 h2 hd ht hc w c m e v
    have ho := operandsOnce_ok (reads := QuadReads a b s q x) (fun v hv => quadOperands_ok hv) hop
    have hcu := (commits_curCore hc).trans (operands_curCore (reads := QuadReads a b s q x) (fun v hv => quadReads_curCore hv) hop)
    exact does_of_body rfl ⟨rfl, rfl⟩ h (bodySpwn_ok ho h63 h0 h1 h2 hd ht (commitPoint_ok hc) hcu)
  · intro d a b la s s2 q x h hop w
    have ho := operandsOnce_ok (reads := QuadReads a b s q x) (fun v hv => quadOperands_ok hv) hop
    refine ⟨fun hi => halts_of_body rfl h (bodySpwn_illegal ho hi), fun h63 h0 h1 h2 =>
      ⟨fun hd => halts_of_body rfl h (bodySpwn_away ho h63 h0 h1 h2 hd), fun hd e ht =>
        halts_of_body rfl h (bodySpwn_misplaced ho h63 h0 h1 h2 hd ht)⟩⟩
  · intro d la s h
    exact ⟨fun hb => halts_of_body rfl h (bodyDeq_bound hb), fun hb ht => does_of_body rfl ⟨rfl, rfl⟩ h (bodyDeq_none hb ht),
      fun r u hb ht => does_of_body rfl ⟨rfl, rfl⟩ h (bodyDeq_some hb ht)⟩
  · intro a s s1 q h ha
    refine ⟨fun hi => halts_of_body rfl h (bodyRdx_illegal ha ?_), fun g1 g2 g3 g4 g5 g6 g7 => ?_⟩
    · rintro ⟨g1, g2, g3, g4, g5, g6, g7⟩
      rcases hi with hi | hi | hi | hi | hi | hi | hi
      · rw [hi] at g1
        exact absurd g1 (by decide)
      · exact absurd g2 (Nat.not_le.2 hi)
      · exact g3 hi
      · exact hi g4
      · exact absurd (hi.symm.trans g5) (by decide)
      · exact hi g6
      · exact g7 hi
    · have hg : rdxGood q := ⟨g1, g2, g3, g4, g5, g6, g7⟩
      refine ⟨fun h0 hl => halts_of_body rfl h (bodyRdx_long ha hg h0 hl), fun hl e hx => ?_, fun hl s2 loc hx e ht => ?_,
        fun hl s2 loc tg hx ht hdom hq u he => ?_⟩
      · exact halts_of_body rfl h (by rw [bodyRdx_eq ha hg hl, hx]; rfl)
      · refine halts_of_body rfl h ?_
        rw [bodyRdx_eq ha hg hl, hx]
        simp only [ht, Bind.bind, Except.bind]
      · refine does_of_body rfl ⟨rfl, rfl⟩ h ?_
        rw [bodyRdx_eq ha hg hl, hx]
        simp only [ht, rdxDomains_ok hdom, hq, Bool.not_false, require_true, he, Bind.bind, Except.bind]

end Machine
end Sys2Proof
end

section
/-! PROOF. Launches and the instructions of the mortar plane: O27, O28 and O29. -/

namespace Sys2Proof
namespace Machine

open Safety

theorem bind_of_ok {ε α β : Type} {x : Except ε α} {f : α → Except ε β} {a : α} (h : x = .ok a) : (x >>= f) = f a := by
  rw [h]
  rfl

theorem bind_of_error {ε α β : Type} {x : Except ε α} {f : α → Except ε β} {e : ε} (h : x = .error e) : (x >>= f) = .error e := by
  rw [h]
  rfl

/-! ## LNCH and TRIG (03 R52, R53) -/

theorem bodyLnch_ok {d a b : Reg} {s s1 s2 u : State} {addr q : W64} {ticket : Nat} (ha : readG s a = .ok (s1, addr))
    (hb : readG s1 b = .ok (s2, q)) (hal : addr.toNat % 128 = 0)
    (ht : ticket = ((s2.core s2.curCore).launchCount + 1 +
      (s2.cur.buf.filter fun e => match e.act with | .launch _ _ _ _ _ => true | _ => false).length) % 2 ^ 32)
    (he : addEntry s2 addr (.spad s2.curCore 0) .rel .dev (.launch addr (field q 5 0) (q.getLsbD 8) (q.getLsbD 9) ticket) = .ok u)
    (hd : settable u d = true) : bodyLnch d a b s = .ok (putG u d (BitVec.ofNat 64 ticket), .seq) := by
  subst ht
  rw [← bitAt_eq_getLsbD, ← bitAt_eq_getLsbD] at he
  unfold bodyLnch
  exact (bind_of_ok ha).trans ((bind_of_ok hb).trans ((bind_of_ok (aligned_ok hal)).trans ((bind_of_ok he).trans (setG_settable _ hd))))

theorem any_trig_iff (l : List Entry) : (l.any fun e => match e.act with | .trig => true | _ => false) = true ↔ ∃ e ∈ l, e.act = .trig := by
  rw [List.any_eq_true]
  refine exists_congr fun e => and_congr_right fun _ => ?_
  cases e.act <;> simp

/-- Settles O27: LNCH by `bodyLnch_ok`; TRIG is in the buffer or not (`any_trig_iff`). -/
theorem launchInstructions : Obligations.LaunchInstructions := by
  refine ⟨?_, ?_⟩
  · intro d a b s s1 s2 addr q h ha hb
    refine ⟨fun hal => halts_of_body rfl h ?_, fun u ticket hal ht he hd => does_of_body rfl ⟨rfl, rfl⟩ h (bodyLnch_ok ha hb hal ht he hd)⟩
    simp only [bodyLnch, ha, hb, aligned_bad hal, Bind.bind, Except.bind]
  · intro s h
    refine ⟨fun ht => does_of_body rfl ⟨rfl, rfl⟩ h (if_pos ((any_trig_iff _).2 ht)), fun ht u he => does_of_body rfl ⟨rfl, rfl⟩ h ?_⟩
    have hn : ¬ (s.cur.buf.any fun e => match e.act with | .trig => true | _ => false) = true := by
      rw [any_trig_iff]
      rintro ⟨e, hm, hact⟩
      exact ht e hm hact
    refine (if_neg hn).trans ?_
    simp only [he, Bind.bind, Except.bind]

/-! ## CARV (17 R277) -/

theorem primaryOf?_asks (s : State) (c : Nat) : (asks s).primaryOf? c = s.primaryOf? c := by
  have hi : ((asks s).core c).image = (s.core c).image := by
    rw [asks, State.nextReq, State.core_modCore]
    split
    · next h => rw [h]
    · rfl
  have hp : (asks s).pairOf? c = s.pairOf? c := by
    unfold State.pairOf?
    rw [hi]
    rfl
  rw [State.primaryOf?, State.primaryOf?, hp]

section
variable {d a b : Reg} {la : BitVec 4} {sc : BitVec 2} {s s1 s2 u : State} {q : Quad} {x y : W64} {e : Stop}

/-- CARV once it has its operands. -/
theorem bodyCarv_eq (ho : operandsOnce s (quadOperands a b) = .ok (s2, [q.a, q.b, q.c, q.d, x])) : bodyCarv a b s = (do
    require (decide (field x 63 12 = 0)) (trapBits Cause.illegal)
    require (((s2.cluster (clusterOf s.curCore)).course (field x 3 0)).mem.getLsbD (memberBit s.curCore s.curSlot)) (trapBits Cause.illegal)
    if bitAt x 11 then
      let s3 ← commitPoint s2
      let v := s3.nextReq s.curCore
      let e := newEntry v.2 v.1 0 (.spad 0 0) .rel .grp (.arrive (field x 3 0) (field x 9 4) (!bitAt x 10) q)
      .ok (if (v.2.primaryOf? s.curCore).isSome then v.2
        else v.2.modCore s.curCore fun k => { k with flight := k.flight ++ [⟨e, .waiting⟩] }, .seq)
    else
      let s ← addEntry s2 0 (.spad 0 0) .rel .grp (.arrive (field x 3 0) (field x 9 4) (!bitAt x 10) q)
      .ok (s, .seq)) := by
  simp only [bodyCarv, ho, Bind.bind, Except.bind, List.getD_cons_zero, List.getD_cons_succ]
  rfl

theorem bodyCarv_illegal (ho : operandsOnce s (quadOperands a b) = .ok (s2, [q.a, q.b, q.c, q.d, x])) (h : field x 63 12 ≠ 0) :
    bodyCarv a b s = .error (.trap Cause.illegal none) := by
  rw [bodyCarv_eq ho, decide_eq_false h, require_false rfl]
  rfl

theorem bodyCarv_stranger (ho : operandsOnce s (quadOperands a b) = .ok (s2, [q.a, q.b, q.c, q.d, x])) (h : field x 63 12 = 0)
    (hm : ((s2.cluster (clusterOf s.curCore)).course (field x 3 0)).mem.getLsbD (memberBit s.curCore s.curSlot) = false) :
    bodyCarv a b s = .error (.trap Cause.illegal none) := by
  rw [bodyCarv_eq ho, decide_eq_true h, require_true rfl, hm, require_false rfl]
  rfl

theorem bodyCarv_buffered (ho : operandsOnce s (quadOperands a b) = .ok (s2, [q.a, q.b, q.c, q.d, x])) (h : field x 63 12 = 0)
    (hm : ((s2.cluster (clusterOf s.curCore)).course (field x 3 0)).mem.getLsbD (memberBit s.curCore s.curSlot) = true)
    (hi : bitAt x 11 = false)
    (he : addEntry s2 0 (.spad 0 0) .rel .grp (.arrive (field x 3 0) (field x 9 4) (!bitAt x 10) q) = .ok u) :
    bodyCarv a b s = .ok (u, .seq) := by
  rw [bodyCarv_eq ho, decide_eq_true h, require_true rfl, hm, require_true rfl, hi, he]
  rfl

theorem bodyCarv_handed (ho : operandsOnce s (quadOperands a b) = .ok (s2, [q.a, q.b, q.c, q.d, x])) (h : field x 63 12 = 0)
    (hm : ((s2.cluster (clusterOf s.curCore)).course (field x 3 0)).mem.getLsbD (memberBit s.curCore s.curSlot) = true)
    (hi : bitAt x 11 = true) (hc : commitPoint s2 = .ok u) (hu : u.curCore = s.curCore) : bodyCarv a b s =
      .ok (if (u.primaryOf? s.curCore).isSome then asks u
        else (asks u).modCore s.curCore fun k => { k with flight := k.flight ++
          [⟨theEntry u 0 (.spad 0 0) .rel .grp (.arrive (field x 3 0) (field x 9 4) (!bitAt x 10) q), .waiting⟩] }, .seq) := by
  rw [bodyCarv_eq ho, decide_eq_true h, require_true rfl, hm, require_true rfl, hi, hc]
  simp only [nextReq_eq_asks hu, primaryOf?_asks, Bind.bind, Except.bind, if_true]
  rfl

/-! ## Operands that name a course or a ring (17 R278) -/

theorem smallIndex_ok (ha : readG s a = .ok (s1, x)) (h : x.toNat ≤ 15) : smallIndex s a = .ok (s1, x.toNat) := by
  simp only [smallIndex, ha, decide_eq_true h, require_true, Bind.bind, Except.bind]

theorem smallIndex_large (ha : readG s a = .ok (s1, x)) (h : 15 < x.toNat) : smallIndex s a = .error (.trap Cause.illegal none) := by
  simp only [smallIndex, ha, decide_eq_false (Nat.not_le.2 h), require_false, trapBits, Bind.bind, Except.bind]

theorem bodyScrd_eq (hr : sc = 2 → (s.rcd? s.cur.launch).isSome) : bodyScrd d la sc s = (do
    require (decide (s.cur.pairCount < 8)) (.error (.hold .pair))
    let i := s.instOf s.curCore sc.toNat
    let r := (s.detector i).round
    let v := BitVec.ofNat 64 (r % 2 ^ 32 * 2 ^ 32 + s.clockOf s.curCore sc.toNat s.cur.launch % 2 ^ 32)
    .ok (addPending s { gd := [d.toNat], left := la.toNat, ready := true, comp := some ⟨.clock, i, r⟩, gval := [v] }, .seq)) := by
  have hw : (decide (sc.toNat ≠ 2) || (s.rcd? s.cur.launch).isSome) = true := by
    rw [Bool.or_eq_true, decide_eq_true_iff]
    by_cases h : sc = 2
    · exact .inr (hr h)
    · exact .inl fun h2 => h (BitVec.eq_of_toNat_eq h2)
  simp only [bodyScrd, hw, require_true, Bind.bind, Except.bind]
  rfl

end

/-- Settles O28: the checks of each operand in their order (`bind_of_ok`, `require_true`), then the entry that is buffered or handed on (`bodyCarv_handed`). -/
theorem courseInstructions : Obligations.CourseInstructions := by
  refine ⟨?_, ?_, ?_, ?_, ?_, ?_, ?_, ?_⟩
  · intro a b s s2 q x h hop bit act
    have ho := operandsOnce_ok (reads := QuadReads a b s q x) (fun v hv => quadOperands_ok hv) hop
    have hcur := operands_curCore (reads := QuadReads a b s q x) (fun v hv => quadReads_curCore hv) hop
    refine ⟨fun hf => halts_of_body rfl h (bodyCarv_illegal ho hf), fun hf => ⟨fun hm => halts_of_body rfl h (bodyCarv_stranger ho hf hm),
      fun hm => ⟨fun hi u he => does_of_body rfl ⟨rfl, rfl⟩ h (bodyCarv_buffered ho hf hm hi he), fun hi u hc => ?_⟩⟩⟩
    exact does_of_body rfl ⟨rfl, rfl⟩ h (bodyCarv_handed ho hf hm hi (commitPoint_ok hc) ((commits_curCore hc).trans hcur))
  · intro a b s s1 s2 x y h ha hx hb k bit
    have hi := smallIndex_ok ha hx
    refine ⟨fun hy => halts_of_body rfl h ?_, fun hy u he => does_of_body rfl ⟨rfl, rfl⟩ h ?_⟩
    · simp only [bodyCexp, hi, hb, decide_eq_false (Nat.not_lt.2 hy), require_false, trapBits, Bind.bind, Except.bind]
    · unfold bodyCexp
      exact (bind_of_ok hi).trans ((bind_of_ok hb).trans ((bind_of_ok (require_true (decide_eq_true hy))).trans (bind_of_ok he)))
  · intro a s s1 x ha
    refine ⟨fun h hx u he => does_of_body rfl ⟨rfl, rfl⟩ h ?_, fun h hx u he => does_of_body rfl ⟨rfl, rfl⟩ h ?_, fun hx => ?_⟩
    · simp only [bodyCjoin, smallIndex_ok ha hx, he, Bind.bind, Except.bind]
    · simp only [bodyCquit, smallIndex_ok ha hx, he, Bind.bind, Except.bind]
    · have hi := smallIndex_large ha hx
      refine ⟨fun h => halts_of_body rfl h ?_, fun h => halts_of_body rfl h ?_, fun b h => halts_of_body rfl h ?_,
        fun d b la h => halts_of_body rfl h ?_⟩
      · simp only [bodyCjoin, hi, Bind.bind, Except.bind]
      · simp only [bodyCquit, hi, Bind.bind, Except.bind]
      · simp only [bodyCexp, hi, Bind.bind, Except.bind]
      · simp only [bodyCmis, hi, Bind.bind, Except.bind]
  · intro d a b la s s1 s2 x y h ha hx hb hy
    refine halts_of_body rfl h ?_
    simp only [bodyCmis, smallIndex_ok ha hx, hb, decide_eq_false (Nat.not_le.2 hy), require_false, trapBits, Bind.bind, Except.bind]
  · intro d a b la s s1 s2 x y h ha hx hb hy k miss
    refine does_of_body rfl ⟨rfl, rfl⟩ h ?_
    simp only [bodyCmis, smallIndex_ok ha hx, hb, decide_eq_true hy, require_true, Bind.bind, Except.bind]
    split <;> rfl
  · rintro d la sc s h rfl hr
    refine halts_of_body rfl h ?_
    simp only [bodyScrd, hr, Option.isSome_none, Bool.or_false, show decide ((2 : BitVec 2).toNat ≠ 2) = false from rfl, require_false,
      trapBits, Bind.bind, Except.bind]
  · intro d la sc s h hr
    refine ⟨fun hp => halts_of_body rfl h ?_, fun hp => does_of_body rfl ⟨rfl, rfl⟩ h ?_⟩
    · rw [bodyScrd_eq hr, decide_eq_false (Nat.not_lt.2 hp), require_false rfl]
      rfl
    · rw [bodyScrd_eq hr, decide_eq_true hp, require_true rfl]
      rfl
  · intro d a la sc s s1 x h ha
    refine ⟨fun hx => halts_of_body rfl h ?_, ?_, ?_⟩
    · simp only [bodyLgrd, ha, decide_eq_false (Nat.not_le.2 hx), require_false, trapBits, Bind.bind, Except.bind]
    · rintro rfl
      exact does_of_body rfl ⟨rfl, rfl⟩ h (by simp only [bodyLgrd, ha, Bind.bind, Except.bind]; rfl)
    · rintro rfl
      exact does_of_body rfl ⟨rfl, rfl⟩ h (by simp only [bodyLgrd, ha, Bind.bind, Except.bind]; rfl)

/-! ## TKRQ, TKPS, TRMC and TRRD (17 R280, R282, R283) -/

theorem ringMember_error {s : State} {ring sc : Nat} {e : Stop} (h : ringMember s ring sc = .error e) : e = .trap Cause.illegal none := by
  unfold ringMember at h
  dsimp only at h
  split at h
  · cases h
    rfl
  · unfold require at h
    split at h
    · cases h
    · cases h
      rfl

section
variable {a b : Reg} {sc : BitVec 2} {s s1 u : State} {x : W64} {m : Nat} {i : Inst} {round : Nat}

/-- A task without the ring's privilege passes none. -/
theorem bodyTkps_illegal (ha : readG s a = .ok (s1, x)) (hx : x.toNat ≤ 15) (hr : ringMember s1 x.toNat sc.toNat = .ok ())
    (hm : ∀ m i round, s1.cur.msg.bind (·.comp) ≠ some ⟨.grant x.toNat m, i, round⟩) :
    bodyTkps a sc s = .error (.trap Cause.illegal none) := by
  simp only [bodyTkps, smallIndex_ok ha hx, hr, Bind.bind, Except.bind]
  split
  · next r m i round hc =>
    have hn : r ≠ x.toNat := by
      rintro rfl
      exact hm m i round hc
    rw [if_pos hn]
    rfl
  · rfl

theorem bodyTkps_again (ha : readG s a = .ok (s1, x)) (hx : x.toNat ≤ 15) (hr : ringMember s1 x.toNat sc.toNat = .ok ())
    (hm : s1.cur.msg.bind (·.comp) = some ⟨.grant x.toNat m, i, round⟩) (hp : s1.cur.passed = true) : bodyTkps a sc s = .ok (s1, .seq) := by
  simp only [bodyTkps, smallIndex_ok ha hx, hr, hm, hp, Bind.bind, Except.bind, ne_eq, not_true, if_false, if_true]

theorem bodyTkps_ok (ha : readG s a = .ok (s1, x)) (hx : x.toNat ≤ 15) (hr : ringMember s1 x.toNat sc.toNat = .ok ())
    (hm : s1.cur.msg.bind (·.comp) = some ⟨.grant x.toNat m, i, round⟩) (hp : s1.cur.passed = false)
    (he : addEntry s1 0 (.spad 0 0) .rel (scopeOf sc) (.tkps x.toNat m round) = .ok u) :
    bodyTkps a sc s = .ok (u.modCur fun t => { t with passed := true }, .seq) := by
  simp only [bodyTkps, smallIndex_ok ha hx, hr, hm, hp, he, Bind.bind, Except.bind, ne_eq, not_true, Bool.false_eq_true, if_false]

end

theorem trmc_check (s : State) (x : W64) :
    (decide (x.toNat < 64) && (s.rcd? s.cur.launch).isSome) = true ↔ x.toNat < 64 ∧ s.rcd? s.cur.launch ≠ none := by
  rw [Bool.and_eq_true, decide_eq_true_iff, Option.isSome_iff_ne_none]

/-- Settles O29: the checks of each operand in their order (`bind_of_ok`, `require_true`), then the entry that is buffered (`bodyTkps_ok`). -/
theorem tokensAndTrellises : Obligations.TokensAndTrellises := by
  refine ⟨?_, ?_, ?_, fun s ring sc e h => ringMember_error h, ?_, ?_, ?_, ?_, ?_⟩
  · intro a b sc s s1 s2 x y h ha hx hb hf hr u he
    refine does_of_body rfl ⟨rfl, rfl⟩ h ?_
    unfold bodyTkrq
    exact (bind_of_ok (smallIndex_ok ha hx)).trans ((bind_of_ok hb).trans ((bind_of_ok (require_true (decide_eq_true hf))).trans
      ((bind_of_ok hr).trans (bind_of_ok he))))
  · intro a b sc s s1 s2 x y h ha hx hb
    refine ⟨fun hf => halts_of_body rfl h ?_, fun hf e hr => halts_of_body rfl h ?_⟩
    · simp only [bodyTkrq, smallIndex_ok ha hx, hb, decide_eq_false hf, require_false, trapBits, Bind.bind, Except.bind]
    · simp only [bodyTkrq, smallIndex_ok ha hx, hb, decide_eq_true hf, require_true, hr, Bind.bind, Except.bind]
  · intro a sc s s1 x ha
    refine ⟨fun hx => ⟨fun b h => halts_of_body rfl h ?_, fun h => halts_of_body rfl h ?_⟩, fun hx h =>
      ⟨fun e hr => halts_of_body rfl h ?_, fun hr hm => halts_of_body rfl h (bodyTkps_illegal ha hx hr hm)⟩⟩
    · simp only [bodyTkrq, smallIndex_large ha hx, Bind.bind, Except.bind]
    · simp only [bodyTkps, smallIndex_large ha hx, Bind.bind, Except.bind]
    · simp only [bodyTkps, smallIndex_ok ha hx, hr, Bind.bind, Except.bind]
  · intro a sc s s1 x h ha hx hr m i round hm
    exact ⟨fun hp => does_of_body rfl ⟨rfl, rfl⟩ h (bodyTkps_again ha hx hr hm hp),
      fun hp u he => does_of_body rfl ⟨rfl, rfl⟩ h (bodyTkps_ok ha hx hr hm hp he)⟩
  · intro a b s s1 s2 q x h ha hb
    refine ⟨fun hx => halts_of_body rfl h ?_, fun hx hl u he => does_of_body rfl ⟨rfl, rfl⟩ h ?_⟩
    · have hw := Bool.eq_false_iff.2 fun hc => (trmc_check s2 x).1 hc |>.elim fun h1 h2 => hx.elim (fun h3 => absurd h1 (Nat.not_lt.2 h3)) h2
      simp only [bodyTrmc, ha, hb, hw, require_false, trapBits, Bind.bind, Except.bind]
    · simp only [bodyTrmc, ha, hb, (trmc_check s2 x).2 ⟨hx, hl⟩, require_true, he, Bind.bind, Except.bind]
  · intro d a b la s s1 s2 v x h ha hb hf
    refine halts_of_body rfl h ?_
    simp only [bodyTrrd, ha, hb, decide_eq_false hf, require_false, trapBits, Bind.bind, Except.bind]
  · intro d a b la s s1 s2 v x h ha hb hf hl
    refine halts_of_body rfl h ?_
    simp only [bodyTrrd, ha, hb, decide_eq_true hf, require_true, hl, trapBits, Bind.bind, Except.bind]
  · intro d a b la s s1 s2 v x l h ha hb hf hl
    refine ⟨fun hq => halts_of_body rfl h ?_, ?_⟩
    · simp only [bodyTrrd, ha, hb, decide_eq_true hf, require_true, hl, hq, require_false, trapBits, Bind.bind, Except.bind]
    · rintro hq k u rfl he
      refine does_of_body rfl ⟨rfl, rfl⟩ h ?_
      simp only [bodyTrrd, ha, hb, decide_eq_true hf, require_true, hl, hq, he, Bind.bind, Except.bind, w64]

end Machine
end Sys2Proof
end

section
/-! PROOF. The queues of the engines: O30. -/

namespace Sys2Proof
namespace Machine

open Safety

/-! ## The task that a full queue traps (11 R196; 12 R214) -/

/-- The slot of a list with the greatest number, the earliest of several: what `mxVictim` and `cpVictim` take of the owners. -/
def latest (f : Nat → Nat) (l : List Nat) (b : Option Nat) : Option Nat :=
  l.foldl (fun best n => match best with | none => some n | some b => if f b < f n then some n else some b) b

theorem latest_some (f : Nat → Nat) (l : List Nat) (b : Nat) :
    ∃ r, latest f l (some b) = some r ∧ r ∈ b :: l ∧ ∀ m ∈ b :: l, f m ≤ f r := by
  induction l generalizing b with
  | nil => exact ⟨b, rfl, List.mem_cons_self, fun m hm => by rw [List.mem_singleton.1 hm]⟩
  | cons n l ih =>
    by_cases h : f b < f n
    · obtain ⟨r, hr, hm, hle⟩ := ih n
      refine ⟨r, (congrArg (latest f l) (if_pos h)).trans hr, List.mem_cons_of_mem _ hm, fun m hm => ?_⟩
      rcases List.mem_cons.1 hm with rfl | hm
      · exact h.le.trans (hle n List.mem_cons_self)
      · exact hle m hm
    · obtain ⟨r, hr, hm, hle⟩ := ih b
      refine ⟨r, (congrArg (latest f l) (if_neg h)).trans hr, ?_, fun m hm => ?_⟩
      · rcases List.mem_cons.1 hm with rfl | hm
        · exact List.mem_cons_self
        · exact List.mem_cons_of_mem _ (List.mem_cons_of_mem _ hm)
      · rcases List.mem_cons.1 hm with rfl | hm
        · exact hle _ List.mem_cons_self
        · rcases List.mem_cons.1 hm with rfl | hm
          · exact (Nat.not_lt.1 h).trans (hle b List.mem_cons_self)
          · exact hle m (List.mem_cons_of_mem _ hm)

theorem latest_spec {f : Nat → Nat} {l : List Nat} {n : Nat} (h : n ∈ l) :
    ∃ r, latest f l none = some r ∧ r ∈ l ∧ ∀ m ∈ l, f m ≤ f r := by
  cases l with
  | nil => cases h
  | cons b l => exact latest_some f l b

/-- The owners that the trap may go to: the replayable ones, or all where none is. -/
def trapPool (s : State) (own : List Nat) : List Nat :=
  if (own.filter fun n => (s.slot s.curCore n).repl).isEmpty then own else own.filter fun n => (s.slot s.curCore n).repl

theorem mem_trapPool {s : State} {own : List Nat} {n : Nat} : n ∈ trapPool s own ↔ mayYield s own n := by
  simp only [trapPool, List.isEmpty_iff, mayYield]
  split
  · next h =>
    have hnone : ∀ m ∈ own, (s.slot s.curCore m).repl ≠ true := fun m hm => List.filter_eq_nil_iff.1 h m hm
    exact ⟨fun hn => ⟨hn, fun ⟨m, hm, hr⟩ => absurd hr (hnone m hm)⟩, fun hn => hn.1⟩
  · next h =>
    obtain ⟨m, hm⟩ := List.exists_mem_of_ne_nil _ h
    rw [List.mem_filter]
    exact ⟨fun hn => ⟨hn.1, fun _ => hn.2⟩, fun hn => ⟨hn.1, hn.2 ⟨m, (List.mem_filter.1 hm).1, (List.mem_filter.1 hm).2⟩⟩⟩

theorem latest_lastOwner {s : State} {own : List Nat} {n : Nat} (h : lastOwner s own n) :
    latest (fun n => (s.slot s.curCore n).task) (trapPool s own) none = some n := by
  obtain ⟨hy, hlt⟩ := h
  obtain ⟨r, hr, hm, hle⟩ := latest_spec (f := fun n => (s.slot s.curCore n).task) (mem_trapPool.2 hy)
  by_contra hne
  have hrn : r ≠ n := by
    rintro rfl
    exact hne hr
  exact absurd (hle n (mem_trapPool.2 hy)) (Nat.not_le.2 (hlt r (mem_trapPool.1 hm) hrn))

theorem latest_laterOwner {s : State} {own : List Nat} {n : Nat} (h : laterOwner s own n) :
    latest (fun n => (s.slot s.curCore n).task) (trapPool s own) none ≠ some n := by
  obtain ⟨m, hy, hm⟩ := h
  obtain ⟨r, hr, hmem, hle⟩ := latest_spec (f := fun n => (s.slot s.curCore n).task) (mem_trapPool.2 hy)
  rw [hr]
  rintro ⟨⟩
  rcases hm with hm | ⟨hm, hn⟩
  · exact absurd (hle m (mem_trapPool.2 hy)) (Nat.not_le.2 hm)
  · rw [(mem_trapPool.1 hmem).2 ⟨m, hy.1, hm⟩] at hn
    exact absurd hn (by decide)

section
variable {s : State}

/-- The entries of the matrix unit's queue that count. -/
def mxOwn (s : State) : List MxEntry := (s.core s.curCore).mxq.filter fun e => !e.zeroing

theorem mxVictim_eq (s : State) : mxVictim s = latest (fun n => (s.slot s.curCore n).task) (trapPool s ((mxOwn s).map (·.slot))) none := rfl

theorem cpVictim_eq (s : State) :
    cpVictim s = latest (fun n => (s.slot s.curCore n).task) (trapPool s ((s.core s.curCore).cpq.map (·.slot))) none := rfl

theorem mx_mine_iff : ((mxOwn s).all fun e => !e.released && e.slot == s.curSlot && e.task == s.cur.task) = true ↔
    ∀ e ∈ mxOwn s, e.released = false ∧ e.slot = s.curSlot ∧ e.task = s.cur.task := by
  simp only [List.all_eq_true, Bool.and_eq_true, Bool.not_eq_true', beq_iff_eq, and_assoc]

theorem mx_stuck_iff : ((mxOwn s).all fun e => !e.released && ownerWaits s e) = true ↔
    ∀ e ∈ mxOwn s, e.released = false ∧ (e.slot = s.curSlot ∨ (s.slot s.curCore e.slot).wait = .mxq) := by
  simp only [List.all_eq_true, Bool.and_eq_true, Bool.not_eq_true', ownerWaits, Bool.or_eq_true, beq_iff_eq]

theorem cp_mine_iff : ((s.core s.curCore).cpq.all fun e => !e.released && e.slot == s.curSlot && e.task == s.cur.task) = true ↔
    ∀ e ∈ (s.core s.curCore).cpq, e.released = false ∧ e.slot = s.curSlot ∧ e.task = s.cur.task := by
  simp only [List.all_eq_true, Bool.and_eq_true, Bool.not_eq_true', beq_iff_eq, and_assoc]

theorem cp_stuck_iff : ((s.core s.curCore).cpq.all fun e => !e.released && cpOwnerWaits s e) = true ↔
    ∀ e ∈ (s.core s.curCore).cpq, e.released = false ∧ (e.slot = s.curSlot ∨ (s.slot s.curCore e.slot).wait = .cpq) := by
  simp only [List.all_eq_true, Bool.and_eq_true, Bool.not_eq_true', cpOwnerWaits, Bool.or_eq_true, beq_iff_eq]

theorem mxFull_freed (h : (s.core s.curCore).mxFreed ≠ 0) : mxFull s = .error (.hold .mxq) := if_pos h

theorem mxFull_mine (h0 : (s.core s.curCore).mxFreed = 0)
    (h : ∀ e ∈ mxOwn s, e.released = false ∧ e.slot = s.curSlot ∧ e.task = s.cur.task) : mxFull s = .error (.trap Cause.engq none) :=
  (if_neg (not_not.2 h0)).trans (if_pos (mx_mine_iff.2 h))

/-- A full queue traps the task or makes it wait, by whose turn it is to give way. -/
theorem mxFull_stuck (h0 : (s.core s.curCore).mxFreed = 0)
    (h : ∀ e ∈ mxOwn s, e.released = false ∧ (e.slot = s.curSlot ∨ (s.slot s.curCore e.slot).wait = .mxq))
    (hl : lastOwner s ((mxOwn s).map (·.slot)) s.curSlot) : mxFull s = .error (.trap Cause.engq none) := by
  refine (if_neg (not_not.2 h0)).trans ?_
  split
  · rfl
  · refine if_pos (Bool.and_eq_true_iff.2 ⟨mx_stuck_iff.2 h, ?_⟩)
    rw [mxVictim_eq, latest_lastOwner hl]
    exact beq_self_eq_true _

theorem mxFull_hold (hm : ¬ ∀ e ∈ mxOwn s, e.released = false ∧ e.slot = s.curSlot ∧ e.task = s.cur.task)
    (h : (¬ ∀ e ∈ mxOwn s, e.released = false ∧ (e.slot = s.curSlot ∨ (s.slot s.curCore e.slot).wait = .mxq)) ∨
      laterOwner s ((mxOwn s).map (·.slot)) s.curSlot) : mxFull s = .error (.hold .mxq) := by
  by_cases h0 : (s.core s.curCore).mxFreed = 0
  · refine (if_neg (not_not.2 h0)).trans ((if_neg (mt mx_mine_iff.1 hm)).trans (if_neg ?_))
    rw [Bool.and_eq_true_iff]
    rintro ⟨hs, hv⟩
    rcases h with h | h
    · exact h (mx_stuck_iff.1 hs)
    · rw [mxVictim_eq] at hv
      exact latest_laterOwner h (beq_iff_eq.1 hv)
  · exact mxFull_freed h0

theorem cpFull_mine (h : ∀ e ∈ (s.core s.curCore).cpq, e.released = false ∧ e.slot = s.curSlot ∧ e.task = s.cur.task) :
    cpFull s = .error (.trap Cause.engq none) := if_pos (cp_mine_iff.2 h)

theorem cpFull_stuck
    (h : ∀ e ∈ (s.core s.curCore).cpq, e.released = false ∧ (e.slot = s.curSlot ∨ (s.slot s.curCore e.slot).wait = .cpq))
    (hl : lastOwner s ((s.core s.curCore).cpq.map (·.slot)) s.curSlot) : cpFull s = .error (.trap Cause.engq none) := by
  unfold cpFull
  dsimp only
  split
  · rfl
  · refine if_pos (Bool.and_eq_true_iff.2 ⟨cp_stuck_iff.2 h, ?_⟩)
    rw [cpVictim_eq, latest_lastOwner hl]
    exact beq_self_eq_true _

theorem cpFull_hold (hm : ¬ ∀ e ∈ (s.core s.curCore).cpq, e.released = false ∧ e.slot = s.curSlot ∧ e.task = s.cur.task)
    (h : (¬ ∀ e ∈ (s.core s.curCore).cpq, e.released = false ∧ (e.slot = s.curSlot ∨ (s.slot s.curCore e.slot).wait = .cpq)) ∨
      laterOwner s ((s.core s.curCore).cpq.map (·.slot)) s.curSlot) : cpFull s = .error (.hold .cpq) := by
  refine (if_neg (mt cp_mine_iff.1 hm)).trans (if_neg ?_)
  rw [Bool.and_eq_true_iff]
  rintro ⟨hs, hv⟩
  rcases h with h | h
  · exact h (cp_stuck_iff.1 hs)
  · rw [cpVictim_eq] at hv
    exact latest_laterOwner h (beq_iff_eq.1 hv)

end

/-! ## A command of the matrix unit (11 R195, R196) -/

/-- A checked command, with the records and maps that its checks read: it enters the queue, or finds it full. -/
def mxPlace (s : State) (t : Slot) (c : Vec) (ra rb rc : W32) (mx my : Vec) (tryOnly : Bool) : Except Stop (State × Bool) := do
  if 8 ≤ (s.core s.curCore).mxOcc + (s.core s.curCore).mxFreed then
    if tryOnly then .ok (s, false)
    else
      mxFull s
      .ok (s, false)
  else
    let (uid, s) := s.nextReq s.curCore
    let s ← addEntry s 0 (.spad 0 0) .weak .core (.mxRelease uid)
    let (words, s) := if Cmd.kind c = 4 ∧ (decide (Cmd.kind c = 3 ∨ Cmd.kind c = 4) && !Cmd.raw c) = true then
      drawWords s (fmRound rc) 1024 else ([], s)
    let e : MxEntry := {
      uid := uid, slot := s.curSlot, task := t.task, launch := t.launch, prio := (t.msg.map (·.prio)).getD 0, cmd := c
      recA := ra, recB := rb, recC := rc, scla := t.regs.scla, sclb := t.regs.sclb, mapX := mx, mapY := my, words := words
      start := if t.launch == (s.core s.curCore).image then (s.core s.curCore).mxStart else 0
      parity := if Cmd.courseEn c then s.courseParity s.curCore s.curSlot (Cmd.courseIdx c) else 0 }
    .ok (s.modCore s.curCore fun k => { k with mxq := k.mxq ++ [e] }, true)

theorem bind_ok_ite {ε α β : Type} {c : Prop} [Decidable c] {x y : Except ε α} {f : α → Except ε β} {b : β}
    (h : (if c then x >>= f else y >>= f) = .ok b) : ∃ a, (if c then x else y) = .ok a ∧ f a = .ok b := by
  split at h
  · next hc => exact (bind_ok h).imp fun a ha => ⟨(if_pos hc).trans ha.1, ha.2⟩
  · next hc => exact (bind_ok h).imp fun a ha => ⟨(if_neg hc).trans ha.1, ha.2⟩

theorem bind_of_ok_ite {ε α β : Type} {c : Prop} [Decidable c] {x y : Except ε α} {f : α → Except ε β} {a : α}
    (h : (if c then x else y) = .ok a) : (if c then x >>= f else y >>= f) = f a := by
  split at h
  · next hc => rw [if_pos hc, bind_of_ok h]
  · next hc => rw [if_neg hc, bind_of_ok h]

/-- A command whose queueing answers has passed its checks, which do not ask whether it may be told that the queue is full. -/
theorem queueMatrix_checked {s : State} {c : Vec} {b : Bool} {r : State × Bool} (h : queueMatrix s c b = .ok r) :
    ∃ s' ra rb rc mx my, ∀ b', queueMatrix s c b' = mxPlace s' s.cur c ra rb rc mx my b' := by
  unfold queueMatrix at h
  dsimp only at h
  obtain ⟨_, h1, h⟩ := bind_ok h
  obtain ⟨⟨s1, ra⟩, h2, h⟩ := bind_ok h
  obtain ⟨⟨s2, rb⟩, h3, h⟩ := bind_ok h
  obtain ⟨⟨s3, rc⟩, h4, h⟩ := bind_ok h
  obtain ⟨_, h5, h⟩ := bind_ok h
  obtain ⟨_, h6, h⟩ := bind_ok h
  obtain ⟨⟨s4, mx⟩, h7, h⟩ := bind_ok_ite h
  obtain ⟨⟨s5, my⟩, h8, h⟩ := bind_ok_ite h
  obtain ⟨_, h9, h⟩ := bind_ok h
  obtain ⟨_, h10, h⟩ := bind_ok h
  obtain ⟨_, h11, h⟩ := bind_ok h
  refine ⟨s5, ra, rb, rc, mx, my, fun b' => ?_⟩
  unfold queueMatrix
  exact (bind_of_ok h1).trans <| (bind_of_ok h2).trans <| (bind_of_ok h3).trans <| (bind_of_ok h4).trans <| (bind_of_ok h5).trans <|
    (bind_of_ok h6).trans <| (bind_of_ok_ite h7).trans <| (bind_of_ok_ite h8).trans <| (bind_of_ok h9).trans <|
    (bind_of_ok h10).trans (bind_of_ok h11)

section
variable {s s1 : State} {t : Slot} {c : Vec} {ra rb rc : W32} {mx my : Vec} {b : Bool}

/-- A full queue, and the same command where it may not be told so. -/
theorem mxPlace_full (h : mxPlace s t c ra rb rc mx my true = .ok (s1, false)) : s1 = s ∧
    8 ≤ (s1.core s1.curCore).mxOcc + (s1.core s1.curCore).mxFreed ∧
    mxPlace s t c ra rb rc mx my false = (mxFull s1 >>= fun _ => .ok (s1, false)) := by
  unfold mxPlace at h
  split at h
  · next hf =>
    cases h
    exact ⟨rfl, hf, if_pos hf⟩
  · obtain ⟨u, -, h⟩ := bind_ok h
    cases h

theorem drawWords_buf (s : State) (mode n : Nat) : (drawWords s mode n).2.cur.buf = s.cur.buf := by
  unfold drawWords
  split
  · dsimp only
    rw [State.cur_modCur]
  · rfl

theorem drawn_buf (s : State) (p : Prop) [Decidable p] (mode n : Nat) :
    (if p then drawWords s mode n else ([], s)).2.cur.buf = s.cur.buf := by
  split
  · exact drawWords_buf s mode n
  · rfl

theorem addEntry_buf {s u : State} {ea : W64} {loc : Loc} {o : Order} {sc : Scope} {act : Act} (h : addEntry s ea loc o sc act = .ok u) :
    u.cur.buf = s.cur.buf ++ [theEntry s ea loc o sc act] := by
  rw [addEntry_grows h, State.cur_modCur]

/-- A command that enters the queue stands at its end, unreleased, with its mark in the task's buffer. -/
theorem mxPlace_queued (h : mxPlace s t c ra rb rc mx my b = .ok (s1, true)) : ∃ q e, (s1.core s1.curCore).mxq = q ++ [e] ∧ e.cmd = c ∧
    e.released = false ∧ e.slot = s1.curSlot ∧ ∃ x ∈ s1.cur.buf, x.act = .mxRelease e.uid := by
  unfold mxPlace at h
  split at h
  · split at h
    · cases h
    · obtain ⟨u, -, h⟩ := bind_ok h
      cases h
  · obtain ⟨u, hu, h⟩ := bind_ok h
    dsimp only at h
    have hb := drawn_buf u (Cmd.kind c = 4 ∧ (decide (Cmd.kind c = 3 ∨ Cmd.kind c = 4) && !Cmd.raw c) = true) (fmRound rc) 1024
    generalize (if Cmd.kind c = 4 ∧ (decide (Cmd.kind c = 3 ∨ Cmd.kind c = 4) && !Cmd.raw c) = true then drawWords u (fmRound rc) 1024
      else ([], u)) = v at h hb
    cases h
    refine ⟨_, _, by rw [State.modCore_curCore, State.core_modCore_self], rfl, rfl, rfl, theEntry (asks s) 0 (.spad 0 0) .weak .core (.mxRelease (askNum s)), ?_, rfl⟩
    rw [cur_modCore _ _ _ (by rfl), hb, addEntry_buf hu]
    exact List.mem_append_right _ List.mem_cons_self

end

theorem bodyMxq_ok {a : Reg} {s s1 : State} {ok : Bool} (h : queueMatrix s (readV s a) false = .ok (s1, ok)) :
    bodyMxq a s = .ok (s1, .seq) := bind_of_ok h

theorem bodyMxqt_ok {d a : Reg} {la : BitVec 4} {s s1 : State} {ok : Bool} (h : queueMatrix s (readV s a) true = .ok (s1, ok)) :
    bodyMxqt d a la s = .ok (laterG s1 la.toNat [d.toNat] [if ok then 0 else 1], .seq) := bind_of_ok h

/-- MXQ where MXQT would say that the queue is full. -/
theorem bodyMxq_full {a : Reg} {s s1 : State} {e : Stop} (h : queueMatrix s (readV s a) true = .ok (s1, false)) (hf : mxFull s1 = .error e) :
    bodyMxq a s = .error e := by
  obtain ⟨s', ra, rb, rc, mx, my, hq⟩ := queueMatrix_checked h
  obtain ⟨rfl, -, hp⟩ := mxPlace_full ((hq true).symm.trans h)
  exact bind_of_error ((hq false).trans (hp.trans (bind_of_error hf)))

/-! ## A transfer of the copy engine (12 R213, R214) -/

/-- A checked transfer enters the queue, or finds it full. -/
def cpPlace (s : State) (c : Nat) (q : Quad) (m : Vec) (tryOnly : Bool) : Except Stop (State × Option Nat) := do
  if 8 ≤ (s.core c).cpq.length then
    if tryOnly then .ok (s, none)
    else
      cpFull s
      .ok (s, none)
  else
    let (uid, s) := s.nextReq c
    let s ← addEntry s 0 (.spad 0 0) .weak .core (.cpRelease uid)
    let chan := Cp.chan q.d
    let id := Tbl.find 0 (s.core c).cpIds chan
    let e : CpEntry := {
      uid := uid, slot := s.curSlot, task := s.cur.task, launch := s.cur.launch, prio := (s.cur.msg.map (·.prio)).getD 0
      q := q, map := m, parity := if Cp.cen q.d then s.courseParity c s.curSlot (Cp.cindex q.d) else 0, chan := chan, xid := id }
    .ok (s.modCore c fun k => { k with cpq := k.cpq ++ [e], cpIds := Tbl.put 0 k.cpIds chan ((id + 1) % 2 ^ 32) }, some id)

theorem l1Install_curCore (s : State) (c ln : Nat) (bs : List Byte) : (s.l1Install c ln bs).curCore = s.curCore := by
  unfold State.l1Install
  extract_lets o old s1 valid
  refine (State.modCore_curCore s1 o _).trans ?_
  unfold s1
  split
  · rfl
  · dsimp only
    split <;> rfl

theorem l1Fetch_curCore (s : State) (c p ln gpa : Nat) : (s.l1Fetch c p ln gpa).curCore = s.curCore := by
  unfold State.l1Fetch
  split
  · rfl
  · exact (l1Install_curCore _ _ _ _).trans (homeRead_walked s _ _ _ _ _).curCore

theorem weakRead_curCore (s : State) (c p phys gpa n : Nat) : (s.weakRead c p phys gpa n).1.curCore = s.curCore := by
  unfold State.weakRead
  split
  · exact (homeRead_walked s _ _ _ _ _).curCore
  · exact foldl_of_step (fun s t : State => t.curCore = s.curCore) (fun _ => rfl) (fun _ _ _ h g => g.trans h)
      (f := fun s (l : Nat × Nat) => s.l1Fetch c p l.1 l.2) (fun s l => l1Fetch_curCore s c p l.1 l.2) _ s

theorem syncRead_curCore {s t : State} {ea : W64} {n : Nat} {bs : List Byte} (h : syncRead s ea n = .ok (t, bs)) :
    t.curCore = s.curCore := by
  obtain ⟨⟨s1, loc⟩, h1, h⟩ := bind_ok h
  obtain ⟨_, -, h⟩ := bind_ok h
  refine Eq.trans ?_ (xlateLoad_curCore h1)
  dsimp only at h
  split at h
  · split at h <;> cases h
    rfl
  · split at h
    case h_3 p phys gva gpa _ =>
      split at h
      · cases h
      · split at h
        · cases h
        · cases h
          exact weakRead_curCore s1 _ _ _ _ _
    all_goals cases h <;> rfl

theorem readMap_curCore {s t : State} {q : Quad} {m : Vec} (h : readMap s q = .ok (t, m)) : t.curCore = s.curCore := by
  unfold readMap at h
  split at h
  · obtain ⟨_, -, h⟩ := bind_ok h
    obtain ⟨⟨s1, bs⟩, h1, h⟩ := bind_ok h
    obtain ⟨_, -, h⟩ := bind_ok h
    obtain ⟨_, -, h⟩ := bind_ok h
    cases h
    exact syncRead_curCore h1
  · cases h
    rfl

/-- A transfer whose queueing answers has passed its checks, which do not ask whether it may be told that the queue is full. -/
theorem queueCopy_checked {s : State} {a : Reg} {b : Bool} {r : State × Option Nat} (h : queueCopy s a b = .ok r) :
    ∃ s' q m, s'.curCore = s.curCore ∧ ∀ b', queueCopy s a b' = cpPlace s' s'.curCore q m b' := by
  unfold queueCopy at h
  dsimp only at h
  obtain ⟨⟨s1, q⟩, h1, h⟩ := bind_ok h
  obtain ⟨_, h2, h⟩ := bind_ok h
  obtain ⟨⟨s2, m⟩, h3, h⟩ := bind_ok h
  obtain ⟨_, h4, h⟩ := bind_ok h
  obtain ⟨_, h5, h⟩ := bind_ok h
  have hc : s2.curCore = s1.curCore := readMap_curCore h3
  refine ⟨s2, q, m, hc.trans (readQuad_samePlace h1).core, fun b' => ?_⟩
  unfold queueCopy
  rw [hc]
  exact (bind_of_ok h1).trans <| (bind_of_ok h2).trans <| (bind_of_ok h3).trans <| (bind_of_ok h4).trans (bind_of_ok h5)

section
variable {s s1 : State} {q : Quad} {m : Vec} {b : Bool} {id : Nat}

theorem cpPlace_full (h : cpPlace s s.curCore q m true = .ok (s1, none)) : s1 = s ∧ 8 ≤ (s1.core s1.curCore).cpq.length ∧
    cpPlace s s.curCore q m false = (cpFull s1 >>= fun _ => .ok (s1, none)) := by
  unfold cpPlace at h
  split at h
  · next hf =>
    cases h
    exact ⟨rfl, hf, if_pos hf⟩
  · obtain ⟨u, -, h⟩ := bind_ok h
    cases h

/-- A transfer that enters the queue stands at its end, unreleased, with its mark in the task's buffer. -/
theorem cpPlace_queued (h : cpPlace s s.curCore q m b = .ok (s1, some id)) : ∃ q e, (s1.core s1.curCore).cpq = q ++ [e] ∧ e.xid = id ∧
    e.released = false ∧ ∃ x ∈ s1.cur.buf, x.act = .cpRelease e.uid := by
  unfold cpPlace at h
  split at h
  · split at h
    · cases h
    · obtain ⟨u, -, h⟩ := bind_ok h
      cases h
  · obtain ⟨u, hu, h⟩ := bind_ok h
    have hc : u.curCore = s.curCore := by
      rw [addEntry_grows hu]
      rfl
    have hb := addEntry_buf hu
    rw [← hc] at h
    dsimp only at h
    rw [hc] at h
    cases h
    refine ⟨_, _, by rw [State.modCore_curCore, hc, State.core_modCore_self], rfl, rfl, theEntry (asks s) 0 (.spad 0 0) .weak .core (.cpRelease (askNum s)), ?_, rfl⟩
    rw [cur_modCore _ _ _ (by rfl), hb]
    exact List.mem_append_right _ List.mem_cons_self

end

theorem bodyCpq_ok {d a : Reg} {la : BitVec 4} {s s1 : State} {id : Nat} (h : queueCopy s a false = .ok (s1, some id)) :
    bodyCpq d a la s = .ok (laterG s1 la.toNat [d.toNat] [BitVec.ofNat 64 id], .seq) := bind_of_ok h

/-- CPQ where CPQT would say that the queue is full. -/
theorem bodyCpq_full {d a : Reg} {la : BitVec 4} {s s1 : State} {e : Stop} (h : queueCopy s a true = .ok (s1, none))
    (hf : cpFull s1 = .error e) : bodyCpq d a la s = .error e := by
  obtain ⟨s', q, m, -, hq⟩ := queueCopy_checked h
  obtain ⟨rfl, -, hp⟩ := cpPlace_full ((hq true).symm.trans h)
  exact bind_of_error ((hq false).trans (hp.trans (bind_of_error hf)))

/-- Settles O30: a checked command is queued (`bodyMxq_ok`, `bodyCpq_ok`) or finds the queue full, which is mine, stuck or to be waited for (`mxFull_mine`,
`mxFull_stuck`, `mxFull_hold`). -/
theorem engineQueues : Obligations.EngineQueues := by
  refine ⟨?_, ?_, ?_, ?_, fun a s e h hq => halts_of_body rfl h (bind_of_error hq), fun d a la s e h hq => halts_of_body rfl h (bind_of_error hq),
    fun d a la s e h hq => halts_of_body rfl h (bind_of_error hq), fun d a la s e h hq => halts_of_body rfl h (bind_of_error hq), ?_,
    fun s h => mxFull_freed h, ?_, ?_, ?_⟩
  · intro a s s1 h hq
    obtain ⟨s', ra, rb, rc, mx, my, he⟩ := queueMatrix_checked hq
    exact ⟨does_of_body rfl ⟨rfl, rfl⟩ h (bodyMxq_ok hq), mxPlace_queued ((he false).symm.trans hq)⟩
  · intro d a la s s1 ok h hq
    refine ⟨does_of_body rfl ⟨rfl, rfl⟩ h (bodyMxqt_ok hq), ?_⟩
    rintro rfl
    obtain ⟨s', ra, rb, rc, mx, my, he⟩ := queueMatrix_checked hq
    exact (mxPlace_full ((he true).symm.trans hq)).2.1
  · intro d a la s s1 id h hq
    obtain ⟨s', q, m, -, he⟩ := queueCopy_checked hq
    exact ⟨does_of_body rfl ⟨rfl, rfl⟩ h (bodyCpq_ok hq), cpPlace_queued ((he false).symm.trans hq)⟩
  · intro d a la s s1 r h hq
    refine ⟨does_of_body rfl ⟨rfl, rfl⟩ h (bind_of_ok hq), ?_⟩
    rintro rfl
    obtain ⟨s', q, m, -, he⟩ := queueCopy_checked hq
    exact (cpPlace_full ((he true).symm.trans hq)).2.1
  · rintro s - ⟨e, he, hz, hr⟩
    have hm : e ∈ mxOwn s := List.mem_filter.2 ⟨he, by rw [hz]; rfl⟩
    refine mxFull_hold (fun h => ?_) (.inl fun h => ?_)
    · exact absurd (hr.symm.trans (h e hm).1) (by decide)
    · exact absurd (hr.symm.trans (h e hm).1) (by decide)
  · intro s h0 h
    refine mxFull_mine h0 fun e he => ?_
    obtain ⟨hm, hz⟩ := List.mem_filter.1 he
    exact h e hm ((Bool.not_eq_true' _).mp hz)
  · intro a s s1 h hq q own mine stuck
    refine ⟨fun h0 hm => halts_of_body rfl h (bodyMxq_full hq ?_), fun hm => halts_of_body rfl h (bodyMxq_full hq ?_)⟩
    · rcases hm with hm | ⟨hs, hl⟩
      · exact mxFull_mine h0 hm
      · exact mxFull_stuck h0 hs hl
    · rcases hm with h0 | ⟨hm, hs⟩
      · exact mxFull_freed h0
      · exact mxFull_hold hm hs
  · intro d a la s s1 h hq q own mine stuck
    refine ⟨fun hm => halts_of_body rfl h (bodyCpq_full hq ?_), fun hm hs => halts_of_body rfl h (bodyCpq_full hq (cpFull_hold hm hs))⟩
    rcases hm with hm | ⟨hs, hl⟩
    · exact cpFull_mine hm
    · exact cpFull_stuck hs hl

end Machine
end Sys2Proof
end

section
/-! PROOF. The queue ports as steps of their own: O14. -/

namespace Sys2Proof
namespace Machine

open Safety

/-! ## The window of a walker (04 R61) -/

/-- The window of a walker says of each of its places whether `P` holds of the index there, and beyond the window `P` is what a shift
brings in. -/
structure WindowSays (r : BitVec 1024) (P : Nat → Prop) (v : Walker) : Prop where
  window : ∀ b < 8, v.taken.getLsbD b = true ↔ P (v.lo + b)
  beyond : ∀ i, v.lo + 8 ≤ i → (windowBit r v.hi i = true ↔ P i)
  range : v.lo ≤ v.hi

/-- The window after a shift by one place. -/
def shifted (r : BitVec 1024) (v : Walker) : Walker :=
  { v with lo := v.lo + 1, taken := (v.taken >>> 1) ||| (if windowBit r v.hi (v.lo + 8) then 0x80#8 else 0#8) }

theorem getLsbD_shifted (x : BitVec 8) (c : Bool) {b : Nat} (hb : b < 8) :
    ((x >>> 1) ||| (if c then 0x80#8 else 0#8)).getLsbD b = if b < 7 then x.getLsbD (b + 1) else c := by
  have h80 : ∀ b < 8, (0x80#8).getLsbD b = decide (b = 7) := by decide
  rw [BitVec.getLsbD_or, BitVec.getLsbD_ushiftRight, Nat.add_comm 1 b]
  by_cases h7 : b < 7
  · rw [if_pos h7]
    cases c
    · simp
    · simp [h80 b hb, Nat.ne_of_lt h7]
  · obtain rfl : b = 7 := by omega
    cases c <;> simp

theorem WindowSays.shift {r : BitVec 1024} {P : Nat → Prop} {v : Walker} (h : WindowSays r P v) (hlt : v.lo < v.hi) :
    WindowSays r P (shifted r v) where
  window b hb := by
    rw [shifted, getLsbD_shifted _ _ hb]
    split
    · next h7 => rw [h.window (b + 1) (by omega), Nat.add_assoc, Nat.add_comm 1 b]
    · next h7 =>
      obtain rfl : b = 7 := by omega
      exact h.beyond _ le_rfl
  beyond i hi := h.beyond i (by rw [shifted] at hi; dsimp only at hi; omega)
  range := hlt

/-- What a slide leaves of a window: it stops at the first index that is not taken, or at the end of the range. -/
structure SlideLeaves (P : Nat → Prop) (v u : Walker) : Prop where
  rest : { u with lo := v.lo, taken := v.taken } = v
  low : v.lo ≤ u.lo
  high : u.lo ≤ v.hi
  passed : ∀ i, v.lo ≤ i → i < u.lo → P i
  empty : u.lo = v.hi → u.taken = 0xFF#8
  stops : u.lo < v.hi → ¬ P u.lo ∧ ∀ b < 8, u.taken.getLsbD b = true ↔ P (u.lo + b)

theorem slide_leaves {r : BitVec 1024} {P : Nat → Prop} {fuel : Nat} {v : Walker} (h : WindowSays r P v) (hf : v.hi - v.lo < fuel) :
    SlideLeaves P v (slide r fuel v) := by
  induction fuel generalizing v with
  | zero => omega
  | succ fuel ih =>
    unfold slide
    split
    · next hc =>
      obtain ⟨hlt, ht⟩ := hc
      have g := ih (h.shift hlt) (by rw [shifted]; dsimp only; omega)
      have hlow : v.lo + 1 ≤ (slide r fuel (shifted r v)).lo := g.low
      refine ⟨?_, (Nat.le_succ v.lo).trans hlow, g.high, fun i h1 h2 => ?_, g.empty, g.stops⟩
      · exact congrArg (fun u : Walker => { u with lo := v.lo, taken := v.taken }) g.rest
      · rcases Nat.eq_or_lt_of_le h1 with rfl | h1
        · exact (h.window 0 (by decide)).1 ht
        · exact g.passed i h1 h2
    · next hc =>
      split
      · next he => exact ⟨rfl, le_rfl, h.range, fun i h1 h2 => absurd h2 (Nat.not_lt.2 h1), fun _ => rfl, fun hl => absurd he (Nat.ne_of_lt hl)⟩
      · next he =>
        refine ⟨rfl, le_rfl, h.range, fun i h1 h2 => absurd h2 (Nat.not_lt.2 h1), fun hl => absurd hl he, fun hlt => ⟨fun hp => ?_, h.window⟩⟩
        exact hc ⟨hlt, (h.window 0 (by decide)).2 hp⟩

/-- A take of a place of the window leaves the walker slid over what it counts as taken (04 R64). -/
theorem slid_take {r : BitVec 1024} {w : Walker} {j : Nat} (hj : j < 8) (h : w.lo < w.hi) :
    Slid r w j (slide r (w.hi - w.lo + 1) { w with taken := w.taken ||| (1#8 <<< j) }) := by
  have hbit : ∀ j < 8, ∀ b < 8, (1#8 <<< j).getLsbD b = decide (b = j) := by decide
  have hw : WindowSays r (passedOver r w j) { w with taken := w.taken ||| (1#8 <<< j) } := by
    refine ⟨fun b hb => ?_, fun i hi => ?_, h.le⟩
    · show _ ↔ passedOver r w j (w.lo + b)
      rw [passedOver, if_pos (by omega), BitVec.getLsbD_or, hbit j hj b hb, Bool.or_eq_true, decide_eq_true_iff, Nat.add_sub_cancel_left,
        Nat.add_right_inj]
    · rw [passedOver, if_neg (by dsimp only at hi; omega), windowBit, Bool.or_eq_true, decide_eq_true_iff, Bool.not_eq_true']
  have g := slide_leaves hw (fuel := w.hi - w.lo + 1) (by dsimp only; omega)
  obtain ⟨hr, hl, hh, hp, he, hs⟩ := g
  exact ⟨congrArg (fun u : Walker => { u with lo := w.lo, taken := w.taken }) hr, hl, hh, hp, he, hs⟩

theorem pickPlace_open {n : Nat} {w : Walker} (h : ∃ j < 8, w.taken.getLsbD j = false) :
    pickPlace n w < 8 ∧ w.taken.getLsbD (pickPlace n w) = false := by
  obtain ⟨j, hj, ht⟩ := h
  have hm : j ∈ (upto 8).filter fun i => !w.taken.getLsbD i := List.mem_filter.2 ⟨List.mem_range.2 hj, by rw [ht]; rfl⟩
  obtain ⟨i, hi, hmem, -⟩ := latest_spec (f := fun i => (Config.hint n (w.lo + i)).toNat) hm
  have hp : pickPlace n w = i := congrArg (fun o : Option Nat => o.getD 0) hi
  obtain ⟨h8, hb⟩ := List.mem_filter.1 hmem
  rw [hp]
  exact ⟨List.mem_range.1 h8, (Bool.not_eq_true' _).mp hb⟩

/-! ## A take of the task's walker (04 R64, R67, R68) -/

theorem walkRead_unpaired {s : State} (h : unpaired s) (kind : Nat) (act : State → State × W64) : s.walkRead kind act = .ok (act s) := by
  simp only [State.walkRead, h.1, h.2, Option.isSome_none, Bool.false_eq_true, if_false]

theorem takeAt_eq {s : State} {r : BitVec 1024} {k n : Nat} {w : Walker} (h : Tbl.get? (s.cluster k).walkers n = some w) :
    s.takeAt r k n = ((takeTile s.free r w).1, (s.nextFree.2).setWalker k n (takeTile s.free r w).2) := by
  simp only [State.takeAt, h]
  rfl

theorem sectors_tile (l : List Entry) (e f : Entry) (he : ∃ k n i, e.act = .tile k n i) (hf : ∃ k n i, f.act = .tile k n i) :
    sectors (l ++ [e]) = sectors (l ++ [f]) ∧ tiles (l ++ [e]) = tiles (l ++ [f]) := by
  obtain ⟨k, n, i, he⟩ := he
  obtain ⟨k', n', i', hf⟩ := hf
  simp [sectors, tiles, storeSectors, otherSectors, he, hf]

theorem cur_setWalker (s : State) (k n : Nat) (w : Walker) : ((s.nextFree.2).setWalker k n w).cur = s.cur := rfl

/-- Room for one tile entry is room for another, once the walker is changed. -/
theorem room_setWalker {s : State} {k n i : Nat} (w : Walker) (h : Room s (theEntry s 0 (.spad 0 0) .weak .core (.tile k n 0))) :
    Room ((s.nextFree.2).setWalker k n w) (theEntry ((s.nextFree.2).setWalker k n w) 0 (.spad 0 0) .weak .core (.tile k n i)) := by
  obtain ⟨h1, h2, h3⟩ := h
  obtain ⟨e1, e2⟩ := sectors_tile s.cur.buf (theEntry ((s.nextFree.2).setWalker k n w) 0 (.spad 0 0) .weak .core (.tile k n i))
    (theEntry s 0 (.spad 0 0) .weak .core (.tile k n 0)) ⟨k, n, i, rfl⟩ ⟨k, n, 0, rfl⟩
  refine ⟨e1.le.trans h1, e2.le.trans h2, ?_⟩
  have ep : poolShare (s.cur.buf ++ [theEntry ((s.nextFree.2).setWalker k n w) 0 (.spad 0 0) .weak .core (.tile k n i)]) =
      poolShare (s.cur.buf ++ [theEntry s 0 (.spad 0 0) .weak .core (.tile k n 0)]) := by rw [poolShare, poolShare, e1]
  rw [cur_setWalker, ep]
  exact h3

theorem get?_setWalker (s : State) (k n : Nat) (w : Walker) : Tbl.get? ((s.setWalker k n w).cluster k).walkers n = some w := by
  rw [State.setWalker, State.cluster_modCluster_self, Tbl.get?_set, if_pos rfl]

theorem cluster_asks (s : State) (k : Nat) : (asks s).cluster k = s.cluster k := rfl

theorem cluster_modCur (s : State) (f : Slot → Slot) (k : Nat) : (s.modCur f).cluster k = s.cluster k := rfl

theorem addEntry_cluster {s u : State} {ea : W64} {loc : Loc} {o : Order} {sc : Scope} {act : Act} (h : addEntry s ea loc o sc act = .ok u)
    (k : Nat) : u.cluster k = s.cluster k := by
  rw [addEntry_grows h, cluster_modCur, cluster_asks]

theorem addEntry_qbld {s u : State} {ea : W64} {loc : Loc} {o : Order} {sc : Scope} {act : Act} (h : addEntry s ea loc o sc act = .ok u) :
    u.cur.qbld = s.cur.qbld := by
  rw [addEntry_grows h, State.cur_modCur, asks_cur]

/-- The tile entry of a take enters the buffer, and changes no walker. -/
theorem tile_entered {s : State} {k n i : Nat} (w : Walker) (h : Room s (theEntry s 0 (.spad 0 0) .weak .core (.tile k n 0))) :
    ∃ u, addEntry ((s.nextFree.2).setWalker k n w) 0 (.spad 0 0) .weak .core (.tile k n i) = .ok u ∧
      Tbl.get? (u.cluster k).walkers n = some w ∧ u.cur.qbld = s.cur.qbld ∧ ∃ e, u.cur.buf = s.cur.buf ++ [e] ∧ e.act = .tile k n i := by
  obtain ⟨u, hu⟩ : ∃ u, addEntry ((s.nextFree.2).setWalker k n w) 0 (.spad 0 0) .weak .core (.tile k n i) = .ok u :=
    ⟨_, addEntry_ok (room_setWalker w h)⟩
  have hb := addEntry_buf hu
  have hq := addEntry_qbld hu
  rw [cur_setWalker] at hb hq
  exact ⟨u, hu, by rw [addEntry_cluster hu, get?_setWalker], hq, _, hb, rfl⟩

theorem tile_not_dry (i : Nat) : w64 (i % 2 ^ 28) ≠ dryValue := by
  intro h
  have e := congrArg BitVec.toNat h
  rw [w64, dryValue, BitVec.toNat_ofNat, BitVec.toNat_ofNat] at e
  omega

theorem tile_toNat (i : Nat) : (w64 (i % 2 ^ 28)).toNat = i % 2 ^ 28 := by
  rw [w64, BitVec.toNat_ofNat]
  omega

/-- A take of the current task gives what R64 says, and its read answers. -/
theorem wknx_takes {s : State} {k n : Nat} {w : Walker} {r : BitVec 1024} (hp : unpaired s) (hw : HasWalker s k n w r) (ho : windowOpen w)
    (h : Room s (theEntry s 0 (.spad 0 0) .weak .core (.tile k n 0))) : ∃ u v, s.wknx false = .ok (u, v) ∧
      u.cur.qbld = s.cur.qbld ∧ Takes s k n w r u v := by
  obtain ⟨hm, hg⟩ := hw
  have ht := takeAt_eq (r := r) hg
  have hfirst := addEntry_ok h
  have take (i : Nat) (w' : Walker) (hi : takeTile s.free r w = (some i, w')) : ∃ u, s.wknx false = .ok (u, w64 (i % 2 ^ 28)) ∧
      u.cur.qbld = s.cur.qbld ∧ Tbl.get? (u.cluster k).walkers n = some w' ∧ ∃ e, u.cur.buf = s.cur.buf ++ [e] ∧ e.act = .tile k n (i % 2 ^ 28) := by
    obtain ⟨u, hu, hwk, hq, he⟩ := tile_entered (i := i % 2 ^ 28) w' h
    refine ⟨u, ?_, hq, hwk, he⟩
    rw [hi] at ht
    simp only [State.wknx, hm, hp.1, Option.isSome_none, Bool.false_eq_true, if_false, hfirst, walkRead_unpaired hp, ht, Bind.bind,
      Except.bind, if_neg (tile_not_dry i), tile_toNat, hu]
  cases hret : w.ret with
  | cons i q =>
    obtain ⟨u, hu, hq, hwk, he⟩ := take i { w with ret := q } (by rw [takeTile, hret])
    exact ⟨u, _, hu, hq, by rw [Takes, hret]; exact ⟨rfl, hwk, he⟩⟩
  | nil =>
    by_cases hlh : w.lo = w.hi
    · refine ⟨_, _, ?_, congrArg Slot.qbld (cur_setWalker s k n w), by rw [Takes, hret]; exact (if_pos hlh).mpr ⟨rfl, rfl⟩⟩
      have hn : takeTile s.free r w = (none, w) := by
        rw [takeTile, hret]
        exact if_pos hlh
      rw [hn] at ht
      simp only [State.wknx, hm, hp.1, Option.isSome_none, Bool.false_eq_true, if_false, hfirst, walkRead_unpaired hp, ht, Bind.bind,
        Except.bind]
      rfl
    · obtain ⟨h8, hfree⟩ := pickPlace_open (n := s.free) (ho hret hlh)
      have hn : takeTile s.free r w = (some (w.lo + pickPlace s.free w),
          slide r (w.hi - w.lo + 1) { w with taken := w.taken ||| (1#8 <<< pickPlace s.free w) }) := by
        rw [takeTile, hret]
        exact if_neg hlh
      obtain ⟨u, hu, hq, hwk, e, hb, he⟩ := take _ _ hn
      refine ⟨u, _, hu, hq, ?_⟩
      rw [Takes, hret]
      exact (if_neg hlh).mpr ⟨_, e, _, h8, hfree, rfl, hb, he, hwk, fun hlt => slid_take h8 hlt⟩

/-! ## The steps of the ports (06 R103, R104; 12 R224) -/

section
variable {j : Instr} {s t : State} {body : State → Except Stop State}

theorem portStep_ok (hw : s.wr = []) (hr : s.cur.running = true) (hb : body s = .ok t) :
    Answers (portStep j body s) fun u => u = State.settleMem { t with mem := s.mem, plat := s.plat } := by
  refine ⟨_, if_pos hr, ?_⟩
  rw [State.perform_fresh _ _ hw, hb]

theorem portStep_stops {e : Stop} (hw : s.wr = []) (hr : s.cur.running = true) (hb : body s = .error e) :
    Answers (portStep j body s) fun u => u = State.settleMem { s.stopAt j e with mem := s.mem, plat := s.plat } := by
  refine ⟨_, if_pos hr, ?_⟩
  rw [State.perform_fresh _ _ hw, hb]

end

/-- The steps that read a port into a register: the instruction's number and the port that it reads. -/
def PortRead (j : Instr) (port d : Reg) : Prop := (j = .qpayRead d ∧ port = 28) ∨ (j = .qcmpRead d ∧ port = 30) ∨ (j = .qtileRead d ∧ port = 31)

section
variable {j : Instr} {port d a : Reg} {s s1 : State} {x : W64}

theorem exec_portRead (hj : PortRead j port d) (s : State) : exec j s = portStep (.add d port 0) (bodyPortRead port d) s := by
  rcases hj with ⟨rfl, rfl⟩ | ⟨rfl, rfl⟩ | ⟨rfl, rfl⟩ <;> rfl

theorem bodyPortRead_ok (ha : readG s port = .ok (s1, x)) (hd : settable s1 d = true) : bodyPortRead port d s = .ok (putG s1 d x) :=
  (bind_of_ok ha).trans (writeG_settable x hd)

theorem portRead_gives (hj : PortRead j port d) (hw : s.wr = []) (hr : s.cur.running = true) (ha : readG s port = .ok (s1, x))
    (hd : settable s1 d = true) :
    Answers (exec j s) fun t => t = State.settleMem { putG s1 d x with mem := s.mem, plat := s.plat } := by
  rw [exec_portRead hj]
  exact portStep_ok hw hr (bodyPortRead_ok ha hd)

/-- What the register may be written with does not depend on more than the words built. -/
theorem settable_of_built {t : State} (h : t.cur.qbld = s.cur.qbld) (hd : settable s d = true) : settable t d = true := by
  rw [settable, h]
  exact hd

theorem settable_builder (h : s.cur.qbld.length < 256) : settable s 29 = true := by
  rw [settable, decide_eq_true h]
  rfl

end

/-! ### The status word of a channel (12 R224) -/

theorem overlaid_length (s : State) (loc : Loc) (bs : List Byte) : (overlaid s loc bs.length bs).length = bs.length := by
  rw [loadsSeeOwnStores.2, forward, List.length_map, List.length_zipIdx]

theorem statusWord_asks (s : State) (c chan : Nat) :
    (statusWord ((asks s).core c) chan).toNat = Tbl.find 0 (s.core c).cpdn chan % 2 ^ 32 := by
  have h : ((asks s).core c).cpdn = (s.core c).cpdn := by
    rw [asks, State.nextReq, State.core_modCore]
    split
    · next h => rw [h]
    · rfl
  rw [statusWord, h, w64, BitVec.toNat_ofNat]
  omega

theorem bodyStatusRead_ok {s : State} {chan : BitVec 2} {acq : Bool} {d : Reg} (h : mayRead s (.status s.curCore chan.toNat) 8 = true) :
    bodyStatusRead chan acq d s = .ok (addPending (if acq then (asks s).l1Invalidate s.curCore else asks s)
      { gd := [d.toNat], acq := if acq then 2 else 0, ready := true, gval := [BitVec.ofNat 64 (leVal (overlaid s
        (.status s.curCore chan.toNat) 8 (leBytes 8 (Tbl.find 0 (s.core s.curCore).cpdn chan.toNat % 2 ^ 32))))] }) := by
  have hr : readLoc (asks s) (askNum s) (.status s.curCore chan.toNat) 8 acq =
      .ok (asks s, some (leBytes 8 (Tbl.find 0 (s.core s.curCore).cpdn chan.toNat % 2 ^ 32))) := by
    rw [← statusWord_asks]
    rfl
  have hl := overlaid_length s (.status s.curCore chan.toNat) (leBytes 8 (Tbl.find 0 (s.core s.curCore).cpdn chan.toNat % 2 ^ 32))
  rw [leBytes_length] at hl
  rw [bodyStatusRead, loadInto_ok rfl h hr]
  have hv (bs : List Byte) (hb : bs.length = 8) : intOf 8 false bs = BitVec.ofNat 64 (leVal bs) := by
    rw [intOf, List.take_of_length_le hb.le]
    rfl
  cases acq
  · rw [if_neg (fun hq => absurd hq.2 (show ¬ 2 ≤ 0 by decide)), readResult, Pending.fill, hv _ hl]
    rfl
  · rw [if_pos ⟨nofun, le_rfl⟩, readResult, Pending.fill, hv _ hl]
    rfl

theorem overlaid_no_store {s : State} (h : ∀ e ∈ s.cur.buf, ∀ bs, e.act ≠ .store bs) (loc : Loc) (bs : List Byte) :
    overlaid s loc bs.length bs = bs := by
  have hn : ∀ e ∈ s.cur.buf, ∀ key, storeByte? (e.beside loc) key = none := by
    intro e he key
    unfold storeByte?
    split
    · next l hl => exact absurd hl (h e he l)
    · rfl
  have hf (key : Nat) (v : Byte) : forwardByte (s.cur.buf.map fun e => e.beside loc) key v = v := by
    rw [forwardByte, List.foldl_map]
    generalize s.cur.buf = l at hn
    induction l with
    | nil => rfl
    | cons e l ih =>
      rw [List.foldl_cons, hn e List.mem_cons_self]
      exact ih fun f hm => hn f (List.mem_cons_of_mem _ hm)
  rw [loadsSeeOwnStores.2, forward]
  simp only [hf]
  exact List.zipIdx_map_fst _ _

theorem addPending_pend {s : State} {c n : Nat} (hc : s.curCore = c) (hn : s.curSlot = n) (p : Pending) :
    ((addPending s p).slot c n).pend = s.cur.pend ++ [{ p with uid := askNum s }] := by
  subst hc hn
  refine (congrArg Slot.pend (State.cur_modCur (asks s) _)).trans ?_
  rw [asks_cur]
  rfl

theorem l1Invalidate_wr (s : State) (c : Nat) : (s.l1Invalidate c).wr = s.wr := by
  unfold State.l1Invalidate
  split
  · exact foldl_of_step (fun s t : State => t.wr = s.wr) (fun _ => rfl) (fun _ _ _ h g => g.trans h)
      (f := fun s o => s.modCore o fun k => { k with l1 := k.l1.map fun e => (e.1, { e.2 with valid := e.2.valid.filter (· != c) }) })
      (fun _ _ => rfl) _ s
  · rfl

theorem acquired_place (s : State) (acq : Bool) : SamePlace s (if acq then (asks s).l1Invalidate s.curCore else asks s) := by
  have h : SamePlace s (asks s) := ⟨rfl, rfl, congrArg Slot.pc (asks_cur s)⟩
  split
  · exact h.trans (l1Invalidate_samePlace _ _)
  · exact h

theorem acquired_wr (s : State) (acq : Bool) : (if acq then (asks s).l1Invalidate s.curCore else asks s).wr = s.wr := by
  split
  · exact l1Invalidate_wr _ _
  · rfl

theorem acquired_cur (s : State) (acq : Bool) : (if acq then (asks s).l1Invalidate s.curCore else asks s).cur = s.cur := by
  split
  · rw [l1Invalidate_cur, asks_cur]
  · exact asks_cur s

/-- Settles O14: a step of a port is the read or write of its register (`portRead_gives`), the status word a load (`bodyStatusRead_ok`). -/
theorem portSteps : Obligations.PortSteps := by
  refine ⟨?_, ?_, ?_, ?_, ?_, ?_, ?_, ?_, ?_, ?_⟩
  · intro j port d hj s s1 x hw hr ha hd
    exact portRead_gives hj hw hr ha hd
  · intro a s s1 x hw hr ha hl
    exact portStep_ok hw hr (bodyPortRead_ok ha (settable_builder hl))
  · intro chan acq d s hw hr hq hm hb
    obtain ⟨t, ht, rfl⟩ := portStep_ok (j := .lds d 0 0 0 3 0 0) hw hr (bodyStatusRead_ok (acq := acq) (d := d) (mayRead_iff.2 ⟨hq, hm⟩))
    refine ⟨_, ht, ?_⟩
    have hv : BitVec.ofNat 64 (leVal (leBytes 8 (Tbl.find 0 (s.core s.curCore).cpdn chan.toNat % 2 ^ 32))) =
        BitVec.ofNat 64 (Tbl.find 0 (s.core s.curCore).cpdn chan.toNat % 2 ^ 32) := by
      rw [leVal_leBytes, Nat.mod_eq_of_lt (by omega)]
    have ho := overlaid_no_store hb (.status s.curCore chan.toNat) (leBytes 8 (Tbl.find 0 (s.core s.curCore).cpdn chan.toNat % 2 ^ 32))
    rw [leBytes_length] at ho
    rw [ho, hv]
    have hpl := acquired_place s acq
    beta_reduce
    rw [slot_settled, addPending_pend hpl.core hpl.slot, acquired_cur]
    exact ⟨_, rfl, rfl, rfl, rfl, congrArg (Memory.writeAll s.mem) ((acquired_wr s acq).trans hw)⟩
  · intro d s m hw hr hm hd left
    exact ⟨fun hl => portRead_gives (.inl ⟨rfl, rfl⟩) hw hr (congrArg Except.ok (qpay_left hm hl))
        (settable_of_built (by rw [State.cur_modCur]) hd),
      fun hl => portRead_gives (.inl ⟨rfl, rfl⟩) hw hr (congrArg Except.ok (qpay_exhausted hm hl))
        (settable_of_built (by rw [State.cur_modCur]) hd)⟩
  · intro a s hw hr ha hl
    have hx : readG s a = .ok (s, if a = 0 then 0 else Tbl.find 0 s.cur.g a.toNat) := by
      split
      · next h => rw [h] <;> rfl
      · next h => exact readG_ordinary s (Nat.pos_of_ne_zero fun h0 => h (BitVec.eq_of_toNat_eq h0)) (by omega)
    exact portStep_ok hw hr (bodyPortRead_ok hx (settable_builder hl))
  · intro d s hw hr hd Gives
    refine ⟨fun hb hq => ?_, fun r q hb hq => ?_, fun r k hb hk => ?_, fun r hb => ?_⟩
    · exact portRead_gives (.inr (.inl ⟨rfl, rfl⟩)) hw hr (congrArg Except.ok (qcmp_empty hb hq))
        (settable_of_built (by rw [State.cur_modCur]) hd)
    · exact portRead_gives (.inr (.inl ⟨rfl, rfl⟩)) hw hr (congrArg Except.ok (qcmp_first hb hq))
        (settable_of_built (by rw [State.cur_modCur, cur_modCore _ _ _ (by rfl)]) hd)
    · exact portRead_gives (.inr (.inl ⟨rfl, rfl⟩)) hw hr (congrArg Except.ok (qcmp_next hb hk))
        (settable_of_built (by rw [State.cur_modCur]) hd)
    · exact portRead_gives (.inr (.inl ⟨rfl, rfl⟩)) hw hr (congrArg Except.ok (qcmp_last hb))
        (settable_of_built (by rw [l1Invalidate_cur, State.cur_modCur]) hd)
  · intro d s hw hr hp hd Gives
    refine ⟨fun hn => ?_, fun k n w r hk ho hroom => ?_⟩
    · have hx : readG s 31 = .ok (s, allOnes) := by
        show s.wknx false = _
        simp only [State.wknx, hn, walkRead_unpaired hp]
        rfl
      exact portRead_gives (.inr (.inr ⟨rfl, rfl⟩)) hw hr hx hd
    · obtain ⟨u, v, hx, hq, ht⟩ := wknx_takes hp hk ho hroom
      exact ⟨u, v, ht, portRead_gives (.inr (.inr ⟨rfl, rfl⟩)) hw hr hx (settable_of_built hq hd)⟩
  · intro chan acq d s hw hr hm word
    exact portStep_ok hw hr (bodyStatusRead_ok hm)
  · intro j port d hj hd s s1 x hw hr ha
    rw [exec_portRead hj]
    exact portStep_stops hw hr ((bind_of_ok ha).trans (writeG_readOnly s1 x hd))
  · intro a s s1 x hw hr ha hl
    exact portStep_stops hw hr ((bind_of_ok ha).trans (writeG_builderFull x hl))

end Machine
end Sys2Proof
end

section
/-! PROOF. Comparison, permutes, reductions and conversions of vectors: O51, O52 and O53. -/

namespace Sys2Proof
namespace Machine

open Safety

/-! ## Mask registers (10 R177, R180, R183, R191) -/

/-- The bits of a word that is built bit by bit from the lowest. -/
theorem getLsbD_foldl_or (p : Nat → Bool) (n i : Nat) (hi : i < 64) :
    ((upto n).foldl (fun w j => if p j then w ||| (1#64 <<< j) else w) (0 : W64)).getLsbD i = (decide (i < n) && p i) := by
  induction n with
  | zero => simp [upto]
  | succ n ih =>
    rw [upto, List.range_succ, List.foldl_append, List.foldl_cons, List.foldl_nil]
    rw [upto] at ih
    have hbit : (1#64 <<< n).getLsbD i = decide (i = n) := by
      rw [BitVec.getLsbD_shiftLeft, BitVec.getLsbD_one]
      simp only [hi, decide_true, Bool.true_and]
      rcases Nat.lt_trichotomy i n with h | h | h
      · simp [h, Nat.ne_of_lt h]
      · simp [h]
      · simp [Nat.not_lt.2 h.le, Nat.ne_of_gt h, Nat.sub_ne_zero_of_lt h]
    have hlt : decide (i < n + 1) = (decide (i < n) || decide (i = n)) := by
      rw [← Bool.decide_or, decide_eq_decide, Nat.lt_succ_iff_lt_or_eq]
    split
    · next h =>
      rw [BitVec.getLsbD_or, ih, hbit, hlt]
      by_cases hn : i = n
      · simp [hn, h]
      · simp [hn]
    · next h =>
      rw [ih, hlt]
      by_cases hn : i = n
      · simp [hn, h]
      · simp [hn]

/-- A mask that `maskOf` builds has the bits of the compare in the lanes and 0 above them. -/
theorem bitsAre_maskOf (s : State) (d mk : BitVec 3) (zr : BitVec 1) {n : Nat} {f g : Nat → Bool} (h : ∀ i, f i = g i) :
    BitsAre s d mk zr n g (maskOf (readM s d.toNat) (readM s mk.toNat) (decide (zr = 1)) n f) := by
  intro i hi
  rw [maskOf, getLsbD_foldl_or _ _ _ hi, h]
  by_cases hn : n ≤ i
  · simp [hn, Nat.not_lt.2 hn]
  · simp [hn, Nat.not_le.1 hn]

theorem eqVal_comm (a b : Val) : eqVal a b = eqVal b a := by
  cases a with
  | nan => cases b <;> rfl
  | inf _ =>
    cases b with
    | nan => rfl
    | _ => exact Bool.and_comm _ _
  | fin _ _ _ =>
    cases b with
    | nan => rfl
    | _ => exact Bool.and_comm _ _

theorem vfCond_eq (cond : Nat) (a b : Val) : vfCond cond a b = condOf cond (eqVal a b) (ltVal a b) (ltVal b a) :=
  match cond with
  | 0 | 1 | 2 | 3 | 4 => rfl
  | _ + 5 => congrArg (ltVal b a || ·) (eqVal_comm b a)

/-- The conditions of VCMP on integers are those on the outcome of the comparison. -/
theorem vCond_eq (cond : Nat) (a b : Int) :
    vCond cond a b = condOf cond (decide (a = b)) (decide (a < b)) (decide (b < a)) :=
  have hle (x y : Int) (q : Prop) [Decidable q] (hq : x = y ↔ q) : decide (x ≤ y) = (decide (x < y) || decide q) := by
    rw [← Bool.decide_or, decide_eq_decide, Int.le_iff_lt_or_eq, hq]
  match cond with
  | 0 | 2 | 4 => rfl
  | 1 => decide_not
  | 3 => hle a b _ Iff.rfl
  | _ + 5 => hle b a _ eq_comm

theorem sLane_eq (x : Vec) (i w : Nat) : sLane x i w = signedLane w (laneOf x i w) := sext_eq_signedLane (laneOf_lt x i w)

/-- Settles O51: each mask bit is the condition of its lane (`vfCond_eq`, `vCond_eq`, `bitsAre_maskOf`). -/
theorem vectorCompare : Obligations.VectorCompare := by
  refine ⟨?_, ?_, ?_, ?_, ?_, ?_, ?_, ?_⟩
  · intro d a b mk zr cond s h
    exact ⟨_, does_of_body rfl ⟨rfl, rfl⟩ h rfl, bitsAre_maskOf s d mk zr fun i => vfCond_eq _ _ _⟩
  · intro d a b mk zr ln cond s h w hold
    refine ⟨_, does_of_body rfl ⟨rfl, rfl⟩ h rfl, bitsAre_maskOf s d mk zr fun i => ?_⟩
    simp only [vCond_eq, sLane_eq]
    rfl
  · intro d a b mk ln s h
    refine ⟨_, does_of_body rfl ⟨rfl, rfl⟩ h rfl, fun i hi => ?_⟩
    refine (laneOf_mkVec _ hi).trans ?_
    split
    · exact Nat.mod_eq_of_lt (laneOf_lt _ _ _)
    · exact Nat.mod_eq_of_lt (laneOf_lt _ _ _)
  · exact fun s x => ⟨rfl, rfl⟩
  · intro d a b s
    exact ⟨fun h => does_of_body rfl ⟨rfl, rfl⟩ h rfl, fun h => does_of_body rfl ⟨rfl, rfl⟩ h rfl,
      fun h => does_of_body rfl ⟨rfl, rfl⟩ h rfl⟩
  · intro d a s h
    exact does_of_body rfl ⟨rfl, rfl⟩ h rfl
  · intro d a s h hd
    exact does_of_body rfl ⟨rfl, rfl⟩ h ((congrArg _ (popcW_eq_count64 _)).trans (setG_settable _ hd))
  · intro d a s s1 x h ha
    exact does_of_body rfl ⟨rfl, rfl⟩ h (bind_of_ok ha)

/-! ## Reductions (10 R184) -/

/-- One level of a sum halves the list and keeps its sum modulo 2^w. -/
theorem redLevel_sum (w m : Nat) (l : List Nat) (ws : List W32) (h : l.length = 2 * m) :
    (redLevel (redStep 3 w 0) l ws).1.length = m ∧ (redLevel (redStep 3 w 0) l ws).1.sum % 2 ^ w = l.sum % 2 ^ w := by
  induction m generalizing l ws with
  | zero =>
    obtain rfl : l = [] := List.length_eq_zero_iff.1 h
    exact ⟨rfl, rfl⟩
  | succ m ih =>
    match l, h with
    | a :: b :: r, h =>
      obtain ⟨hl, hs⟩ := ih r ws.tail (by simp only [List.length_cons] at h; omega)
      refine ⟨by simp only [redLevel, List.length_cons, hl], ?_⟩
      simp only [redLevel, redStep, vAdd, List.sum_cons]
      rw [Nat.mod_add_mod, Nat.add_mod, hs, ← Nat.add_mod, Nat.add_assoc]

/-- A tree of sums gives the sum modulo 2^w. -/
theorem redTree_sum (w k : Nat) (l : List Nat) (ws : List W32) (h : l.length = 2 ^ k) :
    redTree (redStep 3 w 0) k l ws % 2 ^ w = l.sum % 2 ^ w := by
  induction k generalizing l ws with
  | zero =>
    obtain ⟨x, rfl⟩ := List.length_eq_one_iff.1 h
    simp [redTree]
  | succ k ih =>
    obtain ⟨hl, hs⟩ := redLevel_sum w (2 ^ k) l ws (by rw [h, Nat.pow_succ, Nat.mul_comm])
    exact (ih _ _ hl).trans hs

theorem redLanes_get (s : State) (a : Reg) (mk : BitVec 3) (w op i : Nat) (h : i < 512 / w) : (redLanes s a mk w op)[i]? =
    some (if laneSel (readM s mk.toNat) i then laneOf (readV s a) i w else redUnit op w) := by
  simp [redLanes, upto, laneCount, h]

theorem op_toNat_eq_zero {n : Nat} {op : BitVec n} : op.toNat = 0 ↔ op = 0 := by
  rw [← BitVec.toNat_inj]
  simp

/-- The words of a sum of f32 lanes are drawn before the register is written; the other operations draw none. -/
theorem drawn_if (s : State) (op : BitVec 3) (n : Nat) :
    (if op.toNat = 0 then drawWords s s.roundMode n else ([], s)) =
      (if op = 0 then wordsDrawn s s.roundMode (if op = 0 then n else 0) else [],
        if op = 0 then drew s s.roundMode (if op = 0 then n else 0) else s) := by
  by_cases h : op = 0
  · rw [if_pos (op_toNat_eq_zero.2 h), if_pos h, if_pos h, if_pos h, drawWords_eq]
  · rw [if_neg (mt op_toNat_eq_zero.1 h), if_neg h, if_neg h]

theorem ite_mod_of_lt {p : Prop} [Decidable p] {x y m : Nat} (h : y < m) : (if p then x else y) % m = if p then x % m else y := by
  rw [apply_ite (· % m), Nat.mod_eq_of_lt h]

/-! ## Settling O52 -/

/-- Settles O52: lane by lane; a reduction is the sum of its tree (`redTree_sum`). -/
theorem vectorPermute : Obligations.VectorPermute := by
  refine ⟨?_, ?_, ?_, ?_, ?_, ?_, ?_, ?_, ?_⟩
  · intro d a b mk zr ln s h
    exact does_setLanes rfl ⟨rfl, rfl⟩ h rfl fun i => Nat.mod_eq_of_lt (laneOf_lt _ _ _)
  · intro d a b mk zr ln s s1 g h hb
    refine ⟨_, does_of_body rfl ⟨rfl, rfl⟩ h (bind_of_ok hb), lanesAre_lanesOf fun i => Nat.mod_eq_of_lt ?_⟩
    extract_lets j
    split
    · exact laneOf_lt _ _ _
    · exact Nat.two_pow_pos _
  · intro d a mk zr ln s s1 g h ha
    exact ⟨_, does_of_body rfl ⟨rfl, rfl⟩ h (bind_of_ok ha), lanesAre_lanesOf fun i => Nat.mod_mod _ _⟩
  · intro d a b ln s s1 s2 x y h ha hb
    refine ⟨_, does_of_body rfl ⟨rfl, rfl⟩ h ((bind_of_ok ha).trans (bind_of_ok hb)), fun i hi => ?_⟩
    exact (laneOf_mkVec _ hi).trans (ite_mod_of_lt (laneOf_lt _ _ _))
  · intro d a b ln s s1 y h hb hd
    exact does_of_body rfl ⟨rfl, rfl⟩ h ((bind_of_ok hb).trans (setG_settable _ hd))
  · intro d a mk ln op s h w l n ws
    refine does_of_body rfl ⟨rfl, rfl⟩ h ?_
    simp only [bodyVred, drawn_if]
    rfl
  · intro d a mk ln op s h w l n ws
    refine does_of_body rfl ⟨rfl, rfl⟩ h ?_
    simp only [bodyVscan, drawn_if, scanHead]
    rfl
  · exact redLanes_get
  · exact fun w k l h => redTree_sum w k l [] h

/-! ## Conversions (10 R186, R187) -/

theorem cvtMode_eq (s : State) (rnd : BitVec 2) :
    cvtMode s rnd = if rnd = 0 then s.roundMode else if rnd = 1 then 0 else if rnd = 2 then 1 else 4 := by
  have hr : rnd = 0 ∨ rnd = 1 ∨ rnd = 2 ∨ rnd = 3 := by
    revert rnd
    decide
  rcases hr with rfl | rfl | rfl | rfl <;> rfl

/-- Both VCVT are plain and have the same body, with and without saturation. -/
theorem exec_vcvtForm {j : Instr} {d a : Reg} {dst src : BitVec 6} {rnd : BitVec 2} {sat : Bool}
    (h : (j = .vcvt d a dst src rnd ∧ sat = false) ∨ (j = .vcvtSat d a dst src rnd ∧ sat = true)) :
    Plain j ∧ ∀ s, exec j s = issue j (bodyVcvt d a dst src rnd sat) s := by
  rcases h with ⟨rfl, rfl⟩ | ⟨rfl, rfl⟩ <;> exact ⟨⟨rfl, rfl⟩, fun _ => rfl⟩

theorem bodyVcvt_noFormat {d a : Reg} {dst src : BitVec 6} {rnd : BitVec 2} {sat : Bool} {s : State}
    (h : fmtOf? dst.toNat = none ∨ fmtOf? src.toNat = none) : bodyVcvt d a dst src rnd sat s = trapBits Cause.format := by
  unfold bodyVcvt
  split
  · next h1 h2 => simp [h1, h2] at h
  · rfl

/-- Settles O53: VCVT by its mode word (`cvtMode_eq`), and no format without its code (`bodyVcvt_noFormat`). -/
theorem vectorConvert : Obligations.VectorConvert := by
  refine ⟨?_, ?_, ?_, ?_⟩
  · intro j d a dst src rnd sat hj s ft fs h ht hs n mode
    obtain ⟨hp, he⟩ := exec_vcvtForm hj
    refine does_of_body (he s) hp h ?_
    simp only [bodyVcvt, ht, hs, drawWords_eq, cvtMode_eq]
    rfl
  · intro j d a dst src rnd hj s h hf
    obtain ⟨sat, hj⟩ : ∃ sat, (j = .vcvt d a dst src rnd ∧ sat = false) ∨ (j = .vcvtSat d a dst src rnd ∧ sat = true) := by
      rcases hj with hj | hj
      · exact ⟨false, .inl ⟨hj, rfl⟩⟩
      · exact ⟨true, .inr ⟨hj, rfl⟩⟩
    exact halts_of_body ((exec_vcvtForm hj).2 s) h (bodyVcvt_noFormat hf)
  · intro d a b mk knd s s1 g h hb hf
    exact halts_of_body rfl h ((bind_of_ok hb).trans (by simp only [hf]; rfl))
  · intro d a b mk knd s s1 g f h hb hf n sf vals code
    exact does_of_body rfl ⟨rfl, rfl⟩ h ((bind_of_ok hb).trans (by simp only [hf]; rfl))

end Machine
end Sys2Proof
end

section
/-! PROOF. Vector memory: O54. -/

namespace Sys2Proof
namespace Machine

open Safety

/-! ## The bytes of a register and their sectors (10 R188) -/

theorem leBytes_eq (n v : Nat) : leBytes n v = (List.range n).map fun i => BitVec.ofNat 8 (v / 256 ^ i) := by
  induction n generalizing v with
  | zero => rfl
  | succ n ih =>
    rw [leBytes, ih, List.range_succ_eq_map, List.map_cons, List.map_map, Nat.pow_zero, Nat.div_one]
    congr 2
    funext i
    rw [Function.comp_apply, Nat.pow_succ', Nat.div_div_eq_div_mul]

/-- Byte `i` of a register, whole. -/
def vstByte (s : State) (d : Reg) (i : Nat) : NibByte := ⟨i, BitVec.ofNat 8 ((readV s d).toNat / 256 ^ i), true, true⟩

theorem vstBytes_eq (s : State) (d : Reg) : vstBytes s d = (List.range 64).map (vstByte s d) := by
  rw [vstBytes, fullBytes, leBytes_eq]
  apply List.ext_getElem
  · simp
  · intro i h1 h2
    simp [vstByte]

/-- The sectors of 64 bytes at a multiple of 64: four of 16 bytes, in order. -/
theorem bySector_range {loc : Loc} (f : Nat → NibByte) (hf : ∀ i, (f i).pos = i) (h : locKey loc % 64 = 0) :
    bySector loc ((List.range 64).map f) = (List.range 4).map fun k => (((List.range 64).map f).drop (16 * k)).take 16 := by
  have hsec (i : Nat) : (locKey loc + (f i).pos) / 16 = locKey loc / 16 + i / 16 := by
    rw [hf]
    omega
  have hkeys : (((List.range 64).map f).map fun b => (locKey loc + b.pos) / 16).dedup =
      (List.range 4).map (locKey loc / 16 + ·) := by
    have hm : (((List.range 64).map f).map fun b => (locKey loc + b.pos) / 16) =
        ((List.range 64).map (· / 16)).map (locKey loc / 16 + ·) := by
      simp only [List.map_map, Function.comp_def, hsec]
    rw [hm, List.dedup_map_of_injective fun _ _ => Nat.add_left_cancel]
    rfl
  rw [bySector, hkeys, List.map_map]
  refine List.map_congr_left fun k hk => ?_
  have hrange : ∀ k < 4, (List.range 64).filter (fun i => i / 16 == k) = ((List.range 64).drop (16 * k)).take 16 := by decide
  rw [Function.comp_apply, List.filter_map, ← List.map_drop, ← List.map_take, ← hrange k (List.mem_range.1 hk)]
  refine congrArg _ (List.filter_congr fun i _ => ?_)
  simp only [Function.comp_apply, hsec, Nat.add_right_inj, beq_eq_beq]

/-! ## The chunks of a gather and a scatter (10 R190) -/

/-- Without a stream's bytes no entries are joined. -/
theorem joinChunks_id (l : List (W64 × Loc × List NibByte)) (h : ∀ e ∈ l, ∀ n o, e.2.1 ≠ .stream n o) : joinChunks l = l := by
  induction l with
  | nil => rfl
  | cons e r ih =>
    obtain ⟨ea, loc, bs⟩ := e
    have hr := ih fun e he => h e (List.mem_cons_of_mem _ he)
    cases loc with
    | stream n o => exact absurd rfl (h _ List.mem_cons_self n o)
    | _ => rw [joinChunks, hr]; nofun

theorem mem_chunksOf {s : State} {base : W64} {b : Reg} {m : W64} {w : Nat} {ea : W64} {bs : List VByte}
    (h : (ea, bs) ∈ chunksOf s base b m w) :
    ∃ j < 16, ea = address base (signedLane 32 (laneOf (readV s b) j 32)) ∧ bs ≠ [] ∧ bs = chunkBytes m w j := by
  obtain ⟨j, hj, he⟩ := List.mem_filterMap.1 h
  dsimp only at he
  split at he
  · cases he
  · next hne =>
    cases he
    refine ⟨j, List.mem_range.1 hj, ?_, fun hq => hne (List.isEmpty_iff.2 hq), rfl⟩
    rw [sLane_eq]
    rfl

/-! ## VLD, VLDB and VST (10 R188) -/

/-- VLD and VLDB are plain, and differ in the number of the bytes that they read. -/
theorem exec_vldForm {j : Instr} {d a : Reg} {la : BitVec 4} {off : BitVec 10} {n : Nat}
    (h : (j = .vld d a la off ∧ n = 64) ∨ (j = .vldb d a la off ∧ n = 16)) :
    Plain j ∧ ∀ s, exec j s = issue j (bodyVld d a la off n) s := by
  rcases h with ⟨rfl, rfl⟩ | ⟨rfl, rfl⟩ <;> exact ⟨⟨rfl, rfl⟩, fun _ => rfl⟩

theorem loadInto_vector {s s3 : State} {d : Reg} {la : BitVec 4} {ea : W64} {loc : Loc} {n : Nat} {shape : Shape}
    {got : Option (List Byte)} (h : mayRead s loc n = true) (hr : readLoc (asks s) (askNum s) loc n false = .ok (s3, got)) :
    loadInto s { vd := [d.toNat], left := la.toNat } [(ea, loc, n, shape)] false =
      .ok (addPending s3 (readResult s { vd := [d.toNat], left := la.toNat } ea loc n shape got)) := by
  rw [loadInto_ok rfl h hr, if_neg fun hq => absurd hq.2 (show ¬ 2 ≤ 0 by decide)]

/-- Settles O54: the access by its forms, the bytes sector by sector (`bySector_range`, `vstBytes_eq`) and chunk by chunk (`joinChunks_id`). -/
theorem vectorMemory : Obligations.VectorMemory := by
  refine ⟨?_, ?_, ?_, ?_, ?_, ?_, ?_, ?_, ?_, ?_⟩
  · intro j d a la off n hj s s1 x h ha
    obtain ⟨hp, he⟩ := exec_vldForm hj
    refine ⟨fun hal => ?_, fun hal e hx => ?_, fun hal s2 loc hx hm s3 got hr => ?_⟩
    · exact halts_of_body (he s) h ((bind_of_ok ha).trans (bind_of_error (aligned_bad hal)))
    · exact halts_of_body (he s) h ((bind_of_ok ha).trans ((bind_of_ok (aligned_ok hal)).trans (bind_of_error hx)))
    · exact does_of_body (he s) hp h ((bind_of_ok ha).trans ((bind_of_ok (aligned_ok hal)).trans ((bind_of_ok hx).trans
        (bind_of_ok (loadInto_vector hm hr)))))
  · intro d a off s s1 x h ha
    refine ⟨fun hal => ?_, fun hal e hx => ?_, fun hal s2 loc u hx _ hs => ?_⟩
    · exact halts_of_body rfl h ((bind_of_ok ha).trans (bind_of_error (aligned_bad hal)))
    · exact halts_of_body rfl h ((bind_of_ok ha).trans ((bind_of_ok (aligned_ok hal)).trans (bind_of_error hx)))
    · exact does_of_body rfl ⟨rfl, rfl⟩ h ((bind_of_ok ha).trans ((bind_of_ok (aligned_ok hal)).trans ((bind_of_ok hx).trans
        (bind_of_ok hs))))
  · intro s d loc h
    rw [vstBytes_eq]
    exact bySector_range _ (fun _ => rfl) h
  · intro s d i hi
    simp [vstBytes_eq, vstByte, hi]
  · intro d a b la mk ln s s1 s2 s3 x l h ha hx hl
    exact does_of_body rfl ⟨rfl, rfl⟩ h ((bind_of_ok ha).trans ((bind_of_ok hx).trans (bind_of_ok hl)))
  · intro d a b mk ln s s1 s2 s3 x l h ha hx hl
    exact does_of_body rfl ⟨rfl, rfl⟩ h ((bind_of_ok ha).trans ((bind_of_ok hx).trans (bind_of_ok hl)))
  · intro d a b la mk ln s s1 x e h ha hx
    exact halts_of_body rfl h ((bind_of_ok ha).trans (bind_of_error hx))
  · intro d a b mk ln s s1 x e h ha hx
    exact halts_of_body rfl h ((bind_of_ok ha).trans (bind_of_error hx))
  · exact joinChunks_id
  · exact fun s base b m w ea bs h => mem_chunksOf h

end Machine
end Sys2Proof
end

section
/-! PROOF. What the fabric's sending changes. -/

namespace Sys2Proof
namespace Machine

open Safety

/-- The state but for the fabric and the number of the free values that were taken. -/
def FabricStep (s t : State) : Prop := ∃ f k, t = { s with fabric := f, free := k }

theorem FabricStep.refl (s : State) : FabricStep s s := ⟨s.fabric, s.free, rfl⟩

theorem FabricStep.trans {s t u : State} (h : FabricStep s t) (g : FabricStep t u) : FabricStep s u := by
  obtain ⟨f, k, rfl⟩ := h
  obtain ⟨f', k', rfl⟩ := g
  exact ⟨f', k', rfl⟩

theorem fabricStep_with (s : State) (f : Fabric) : FabricStep s { s with fabric := f } := ⟨f, s.free, rfl⟩

theorem nextFree_fabricStep (s : State) : FabricStep s s.nextFree.2 := ⟨s.fabric, s.free + 1, rfl⟩

theorem pumpPort_fabricStep (port fuel : Nat) (s : State) : FabricStep s (s.pumpPort port fuel) := by
  induction fuel generalizing s with
  | zero => exact .refl s
  | succ n ih =>
    unfold State.pumpPort
    split
    · exact .refl s
    · dsimp only
      split
      · exact (fabricStep_with s _).trans (ih _)
      · exact .refl s

theorem forwardFrame_fabricStep (s : State) (k : Nat) (fr : Frame) : FabricStep s (s.forwardFrame k fr) := by
  unfold State.forwardFrame
  extract_lets all ports
  split
  · exact fabricStep_with s _
  · refine (nextFree_fabricStep s).trans ?_
    dsimp only
    split
    · exact (fabricStep_with _ _).trans (pumpPort_fabricStep _ _ _)
    · exact .refl _

theorem inject_fabricStep (s : State) (k : Nat) (fr : Frame) : FabricStep s (s.inject k fr) := by
  unfold State.inject
  split
  · exact forwardFrame_fabricStep _ _ _
  · exact fabricStep_with s _

theorem emit_fabricStep (s : State) (w : FlowId) (dom strm : Nat) (out : Option Nat) (pl : Payload) :
    FabricStep s (s.emit w dom strm out pl) :=
  ((nextFree_fabricStep s).trans (fabricStep_with _ _)).trans (inject_fabricStep _ _ _)

theorem sendVia_fabricStep (s : State) (dev tc dom strm : Nat) (out : Option Nat) (pl : Payload) :
    FabricStep s (s.sendVia dev tc dom strm out pl) := by
  unfold State.sendVia
  dsimp only
  split
  · exact emit_fabricStep _ _ _ _ _ _
  · exact fabricStep_with s _

theorem acksOut_fabricStep (fuel : Nat) (s : State) : FabricStep s (State.acksOut fuel s) := by
  induction fuel generalizing s with
  | zero => exact .refl s
  | succ n ih =>
    unfold State.acksOut
    split
    · exact .refl s
    · next dev dom core _ _ _ =>
      refine FabricStep.trans ?_ (ih _)
      split <;> exact (fabricStep_with s _).trans (sendVia_fabricStep _ _ _ _ _ _ _)

theorem sendAcks_fabricStep (s : State) : FabricStep s s.sendAcks := acksOut_fabricStep _ s

end Machine
end Sys2Proof
end

section
/-! PROOF. Decoding, steps and reset: O55, O56 and O57. -/

namespace Sys2Proof
namespace Machine

open Safety

/-- Settles O55: the decoder evaluates on each word. -/
theorem decodedWords : Obligations.DecodedWords := by
  unfold Obligations.DecodedWords
  decide

theorem cur_asCurrent_reset (c n : Nat) : (asCurrent State.reset c n).cur = {} := by
  show (State.reset.modSlot c n fun t => { t with wait := .none }).slot c n = {}
  rw [State.slot_modSlot_self]
  rfl

theorem core_asCurrent_reset (c n : Nat) : (asCurrent State.reset c n).core (asCurrent State.reset c n).curCore = Core.setSlot {} n {} :=
  State.core_setCore_self (s := State.reset) c _

theorem eqstWord_idle {k : Core} {n : Nat} {t : Slot} (hr : k.records = 0) (hm : k.mxq = []) (hc : k.cpq = []) (he : t.qce = false)
    (hp : t.qpe = false) : eqstWord k n t = 0 := by
  simp [eqstWord, Core.cpUnrel, Core.mxUnrel, Core.mxOcc, ofBool, w64, hr, hm, hc, he, hp]

theorem cbufWord_idle {k : Core} {t : Slot} (hk : coreSectors k = 0) (hb : t.buf = []) (ht : t.taint = false) (hr : t.repl = false) :
    cbufWord k t = 0 := by
  simp [cbufWord, tiles, sectors, ofBool, w64, hk, hb, ht, hr]

theorem reset_rate : islandRate 2700 := by
  unfold islandRate
  decide

/-- Settles O57: field by field, each read of the reset state. -/
theorem resetState : Obligations.ResetState := by
  refine ⟨?_, ?_, ?_, ?_, ?_, ?_, ?_, ?_, ?_, ?_, ?_⟩
  · intro c n num hn
    simp only [List.mem_cons, List.not_mem_nil, or_false] at hn
    rcases hn with rfl | rfl | rfl | rfl | rfl | rfl | rfl | rfl | rfl | rfl | rfl | rfl | rfl | rfl | rfl | rfl | rfl | rfl | rfl | rfl
    all_goals simp only [State.readCR, cur_asCurrent_reset, core_asCurrent_reset, Nat.zero_mod, eqstWord_idle (k := Core.setSlot {} n {}) (t := {}) rfl rfl rfl rfl rfl,
      cbufWord_idle (k := Core.setSlot {} n {}) (t := {}) rfl rfl rfl rfl]
    all_goals rfl
  · intro c n hc
    simp only [State.readCR, core_asCurrent_reset]
    exact if_neg hc
  · exact fun c n => ⟨rfl, rfl⟩
  · exact fun p => ⟨rfl, rfl, rfl⟩
  · exact fun x => rfl
  · rfl
  · rfl
  · rfl
  · rfl
  · exact fun i => ⟨rfl, rfl⟩
  · exact ⟨rfl, rfl, fun _ => ⟨reset_rate, reset_rate⟩, by decide, by decide⟩

end Machine
end Sys2Proof
end

section
/-! PROOF. A step runs the decoded instruction: O56. -/

namespace Sys2Proof
namespace Machine

open Safety

/-! ## Fetch (05 R76, R77, R83, R89) -/

/-- The code space that a slot fetches from: the core's IMEM, or the partition's for a supervisor task. -/
def codeMem (u : State) (c n : Nat) : Tbl Byte :=
  match (u.slot c n).record with
  | none => (u.core c).imem
  | some _ => (u.part ((u.corePart? c).getD 0)).supImem

/-- The halfwords of that space. -/
def codeTop (u : State) (c n : Nat) : Nat :=
  match (u.slot c n).record with
  | none => 32768
  | some _ => 16384

section
variable {u : State} {c n : Nat}

theorem codeByte?_eq (hp : (u.slot c n).record ≠ none → (u.corePart? c).isSome = true) (a : Nat) :
    u.codeByte? c n false a = if 320 ≤ a ∧ a < 2 * codeTop u c n then some (Tbl.find 0 (codeMem u c n) a) else none := by
  cases hr : (u.slot c n).record with
  | none => simp [State.codeByte?, codeTop, codeMem, hr]
  | some r =>
    obtain ⟨p, hc⟩ := Option.isSome_iff_exists.1 (hp (by rw [hr]; nofun))
    simp [State.codeByte?, codeTop, codeMem, hr, hc]

/-- Outside its space nothing is fetched. -/
theorem fetchHalf_outside (hp : (u.slot c n).record ≠ none → (u.corePart? c).isSome = true) {pc : Pc} (hc : pc.carried = false)
    {off : Nat} (h : off < 160 ∨ codeTop u c n ≤ off) : u.fetchHalf c n pc off = (u, []) := by
  have h0 : u.codeByte? c n false (2 * off) = none := by
    rw [codeByte?_eq hp, if_neg (by omega)]
  simp only [State.fetchHalf, hc, h0]

theorem fetchHalf_inside (hp : (u.slot c n).record ≠ none → (u.corePart? c).isSome = true) {pc : Pc} (hc : pc.carried = false)
    (hs : (u.core c).stale = []) {off : Nat} (h0 : 160 ≤ off) (h1 : off < codeTop u c n) : u.fetchHalf c n pc off =
      (u, [Tbl.find 0 (codeMem u c n) (2 * off), Tbl.find 0 (codeMem u c n) (2 * off + 1)]) := by
  have hb (i : Nat) (hi : i < 2) : u.codeByte? c n false (2 * off + i) = some (Tbl.find 0 (codeMem u c n) (2 * off + i)) := by
    rw [codeByte?_eq hp, if_pos (by omega)]
  have hst (a : Nat) : (u.core c).staleByte? n a = none := by
    rw [Core.staleByte?, hs]
    rfl
  simp [State.fetchHalf, hc, hb 1 (by decide), show u.codeByte? c n false (2 * off) = _ from hb 0 (by decide), hst]

theorem badHalf_false (hr : (u.slot c n).record = none → (u.core c).badImem = [])
    (hp : (u.slot c n).record ≠ none → (u.corePart? c).isSome = true)
    (hs : (u.slot c n).record ≠ none → (u.part ((u.corePart? c).getD 0)).badSup = []) (pc : Pc) (off : Nat) :
    u.badHalf c n pc off = false := by
  cases hq : (u.slot c n).record with
  | none => simp [State.badHalf, hq, hr hq]
  | some r =>
    have hne : (u.slot c n).record ≠ none := by rw [hq]; nofun
    obtain ⟨p, hc⟩ := Option.isSome_iff_exists.1 (hp hne)
    have hb := hs hne
    rw [hc] at hb
    simp [State.badHalf, hq, hc, show (u.part p).badSup = [] from hb]

theorem upsetBytes_nil (l : List Nat) : upsetBytes l [] = [] := by
  induction l with
  | nil => rfl
  | cons b l ih => rw [upsetBytes, List.foldl_cons, modifyAt]; exact ih

/-- Where nothing is fetched the routine address is the trap's address. -/
theorem fetch_nothing (h : u.fetchBytes c n = (u, [])) : u.fetch c n = (u, .error (w64 (pcWord (u.slot c n).pc))) := by
  simp only [State.fetch, h, upsetBytes_nil]
  split
  · rfl
  · rfl

end

/-- What a fetch gives for the bytes that it found. -/
def fetched (pc : Pc) (bs : List Byte) : Except W64 Instr :=
  match decode bs with
  | .ok (j, _) => .ok j
  | .error (.tooShort, _) => .error (w64 (pcWord pc))
  | .error (_, bits) => .error (w64 bits)

section
variable {u : State} {c n : Nat}

theorem fetch_good {bs : List Byte} (h : u.fetchBytes c n = (u, bs)) (hb : u.fetchBad c n = false) (hu : (u.slot c n).upset = []) :
    u.fetch c n = (u, fetched (u.slot c n).pc bs) := by
  simp only [State.fetch, h, hb, hu, Bool.false_eq_true, if_false, upsetBytes, List.foldl_nil, fetched]
  rcases decode bs with ⟨e, bits⟩ | ⟨j, k⟩
  · cases e <;> rfl
  · rfl

/-- The length of an instruction is in its first bit: what follows two bytes of a short one does not matter. -/
theorem decode_short {b0 b1 b2 b3 : Byte} (h : b0.toNat % 2 = 0) : decode [b0, b1, b2, b3] = decode [b0, b1] := by
  simp only [decode, if_pos h]

theorem fetchBad_false (h : ∀ pc off, u.badHalf c n pc off = false) : u.fetchBad c n = false := by
  simp only [State.fetchBad, h, Bool.and_false, Bool.false_or]
  split <;> rfl

end

/-! ## Turns (06 R99) -/

theorem turnAt?_some {s : State} {c n : Nat} (h : s.turnAt? c = some n) :
    s.islandStopped c = false ∧ (s.core c).mayIssue = true ∧ (s.core c).turns.find? (s.core c).slotReady = some n := by
  unfold State.turnAt? at h
  split at h
  · cases h
  · next hi =>
    unfold Core.turn? at h
    split at h
    · next hm => exact ⟨Bool.eq_false_iff.2 hi, hm, h⟩
    · cases h

/-- The slot that a core's turn finds is the ready one that follows the last issuer soonest. -/
theorem first_in_turns {k : Core} {n : Nat} (h : k.turns.find? k.slotReady = some n) : k.slotReady n = true ∧ n < 8 ∧
    ∀ m, m < 8 → k.slotReady m = true → (n + 7 - k.last % 8) % 8 ≤ (m + 7 - k.last % 8) % 8 := by
  obtain ⟨hn, as, bs, hl, has⟩ := List.find?_eq_some_iff_append.1 h
  have hat (i : Nat) (hi : i < 8) : k.turns[i]? = some ((k.last + 1 + i) % 8) := by
    simp [Core.turns, upto, hi]
  have hlen : as.length < 8 := by
    have := congrArg List.length hl
    simp [Core.turns, upto] at this
    omega
  have hj : (k.last + 1 + as.length) % 8 = n := by
    have := hat as.length hlen
    rw [hl] at this
    simpa using this.symm
  refine ⟨hn, by omega, fun m hm hr => ?_⟩
  have hpos : (k.last + 1 + (m + 7 - k.last % 8) % 8) % 8 = m := by omega
  have hge : as.length ≤ (m + 7 - k.last % 8) % 8 := by
    by_contra hlt
    have hget := hat ((m + 7 - k.last % 8) % 8) (by omega)
    rw [hl, List.getElem?_append_left (by omega), hpos] at hget
    have := has m (List.mem_of_getElem? hget)
    rw [hr] at this
    cases this
  omega

/-! ## The cycles that pass before a step (log entry 11) -/

/-- A running minimum is at most its start and every value, and is one of them. -/
theorem foldl_min_spec {α : Type} (f : α → Nat) (l : List α) (n : Nat) :
    l.foldl (fun m i => Nat.min m (f i)) n ≤ n ∧ (∀ i ∈ l, l.foldl (fun m i => Nat.min m (f i)) n ≤ f i) ∧
      (l.foldl (fun m i => Nat.min m (f i)) n < n → ∃ i ∈ l, l.foldl (fun m i => Nat.min m (f i)) n = f i) := by
  induction l generalizing n with
  | nil => exact ⟨Nat.le_refl n, nofun, fun h => absurd h (Nat.lt_irrefl n)⟩
  | cons x l ih =>
    obtain ⟨h0, h1, h2⟩ := ih (Nat.min n (f x))
    have hn : Nat.min n (f x) ≤ n := Nat.min_le_left _ _
    have hx : Nat.min n (f x) ≤ f x := Nat.min_le_right _ _
    refine ⟨h0.trans hn, fun i hi => ?_, fun h => ?_⟩
    · rcases List.mem_cons.1 hi with rfl | hi
      · exact h0.trans hx
      · exact h1 i hi
    · rw [List.foldl_cons] at h ⊢
      rcases Nat.lt_or_ge (l.foldl (fun m i => Nat.min m (f i)) (Nat.min n (f x))) (Nat.min n (f x)) with hlt | hge
      · obtain ⟨i, hi, he⟩ := h2 hlt
        exact ⟨i, List.mem_cons_of_mem x hi, he⟩
      · have he := Nat.le_antisymm h0 hge
        refine ⟨x, List.mem_cons_self, ?_⟩
        rw [he] at h ⊢
        exact (min_choice n (f x)).resolve_left fun hq => Nat.lt_irrefl n (hq.symm.trans_lt h)

theorem slack_spec (s : State) (n : Nat) : s.slack n ≤ n ∧
    (∀ i ∈ s.insts, s.time + s.slack n ≤ Nat.max s.time ((s.detector i).began + roundLength i)) ∧
    (s.slack n < n → ∃ i ∈ s.insts, s.time + s.slack n = Nat.max s.time ((s.detector i).began + roundLength i)) := by
  obtain ⟨h0, h1, h2⟩ := foldl_min_spec (fun i => (s.detector i).began + roundLength i - s.time) s.insts n
  refine ⟨h0, fun i hi => ?_, fun h => ?_⟩
  · have hle := h1 i hi
    rw [State.slack]
    exact (show _ ≤ max s.time _ by omega)
  · obtain ⟨i, hi, he⟩ := h2 h
    refine ⟨i, hi, ?_⟩
    rw [State.slack, he]
    exact (show _ = max s.time _ by omega)

theorem sendAcks_ticks (s : State) : s.sendAcks.ticks = s.ticks := by
  obtain ⟨f, k, h⟩ := sendAcks_fabricStep s
  rw [h]

/-! ## The step -/

section
variable {s : State}

theorem tick_none (h : s.ticks = []) : s.tick = s := by
  simp only [State.tick, h]

theorem step_move {m : Move} {rest : List Move} (ht : s.ticks = []) (ha : s.agenda = m :: rest) :
    step s = State.move { s with agenda := rest } m := by
  simp only [step, tick_none ht, ha]

theorem step_proceeds (ht : s.ticks = []) (ha : s.agenda = []) : step s = s.proceed := by
  simp only [step, tick_none ht, ha]

theorem proceed_round {i : Inst} (h : s.dueRound? = some i) : s.proceed = execMortarRound i s := by
  simp only [State.proceed, h]

theorem proceed_own {j : Event} (hd : s.dueRound? = none) (he : s.evs < 32) (hj : s.own? = some j) :
    s.proceed = j { s with evs := s.evs + 1 } := by
  simp only [State.proceed, hd, if_pos he, hj]

theorem proceed_issues (hd : s.dueRound? = none) (h : 32 ≤ s.evs ∨ s.own? = none) : s.proceed = s.issueTurn := by
  simp only [State.proceed, hd]
  split
  · next he => rw [h.resolve_left (Nat.not_le.2 he)]
  · rfl

theorem issueSlot_instr {c n : Nat} (hn : n ≠ 0) : s.issueSlot c n = thenTurn c n (s.select c n).issueNow := by
  rw [State.issueSlot, if_neg hn]
  rfl

/-- The step of a slot's turn is its instruction, and the core's turn that goes on. -/
theorem step_of_issues {c n : Nat} {u : State} (h : Issues s c n u) : step s = thenTurn c n u.issueNow ∧ u.curCore = c ∧ u.curSlot = n := by
  obtain ⟨ht, htn, hn, ⟨rest, ha, rfl⟩ | ⟨ha, hd, ho, hq, rfl⟩⟩ := h
  · refine ⟨?_, rfl, rfl⟩
    rw [step_move ht ha, State.move, if_pos (show State.turnAt? { s with agenda := rest } c = some n from htn), issueSlot_instr hn]
  · refine ⟨?_, rfl, rfl⟩
    rw [step_proceeds ht ha, proceed_issues hd ho, State.issueTurn, hq]
    exact issueSlot_instr hn

theorem issueNow_stream {e : Instr × Pc × Pc} {rest : List (Instr × Pc × Pc)} (h : s.cur.stream = e :: rest) :
    s.issueNow = exec e.1 s := by
  simp only [State.issueNow, State.nextInstr, h]

theorem issueNow_fetched {w : State} {j : Instr} (h : s.cur.stream = []) (hf : s.fetch s.curCore s.curSlot = (w, .ok j)) :
    s.issueNow = exec j w := by
  simp only [State.issueNow, State.nextInstr, h, hf]

theorem issueNow_unfetched {w : State} {a : W64} (h : s.cur.stream = []) (hf : s.fetch s.curCore s.curSlot = (w, .error a)) :
    s.issueNow = event (State.fetchTrap a) w := by
  simp only [State.issueNow, State.nextInstr, h, hf]

end

theorem fetchHalf_fabricStep (s : State) (c n : Nat) (pc : Pc) (off : Nat) : FabricStep s (s.fetchHalf c n pc off).1 := by
  unfold State.fetchHalf
  split
  · dsimp only
    split
    · split <;> exact nextFree_fabricStep s
    · exact .refl s
  · exact .refl s

theorem fetchBytes_fabricStep (s : State) (c n : Nat) : FabricStep s (s.fetchBytes c n).1 := by
  unfold State.fetchBytes
  dsimp only
  have h1 := fetchHalf_fabricStep s c n (s.slot c n).pc (s.slot c n).pc.off
  split
  · next u e => rw [e] at h1; exact h1
  · next u bs _ e =>
    rw [e] at h1
    split
    · exact h1
    · exact h1.trans (fetchHalf_fabricStep u c n (s.slot c n).pc ((s.slot c n).pc.off + 1))

theorem fetch_fabricStep (s : State) (c n : Nat) : FabricStep s (s.fetch c n).1 := by
  have h := fetchBytes_fabricStep s c n
  unfold State.fetch
  rcases hb : s.fetchBytes c n with ⟨u, bs⟩
  rw [hb] at h
  dsimp only
  split
  · exact h
  · split <;> exact h

/-- The bytes at a program counter inside the space: those of one halfword at its end, else of two. -/
theorem fetchBytes_inside {u : State} {c n : Nat} (hp : (u.slot c n).record ≠ none → (u.corePart? c).isSome = true)
    (hc : (u.slot c n).pc.carried = false) (hs : (u.core c).stale = []) (h0 : 160 ≤ (u.slot c n).pc.off)
    (h1 : (u.slot c n).pc.off < codeTop u c n) :
    let byte (i : Nat) : Byte := Tbl.find 0 (codeMem u c n) (2 * (u.slot c n).pc.off + i)
    u.fetchBytes c n = (u, if (byte 0).toNat % 2 = 0 ∨ (u.slot c n).pc.off + 1 = codeTop u c n then [byte 0, byte 1]
      else [byte 0, byte 1, byte 2, byte 3]) := by
  intro byte
  have hin := fetchHalf_inside hp hc hs h0 h1
  simp only [State.fetchBytes, hin]
  by_cases he : (byte 0).toNat % 2 = 0
  · exact (if_pos he).trans (congrArg (Prod.mk u) (if_pos (Or.inl he)).symm)
  · refine (if_neg he).trans ?_
    by_cases ht : (u.slot c n).pc.off + 1 = codeTop u c n
    · rw [if_pos (.inr ht), fetchHalf_outside hp hc (.inr ht.ge)]
      rfl
    · rw [if_neg (not_or.2 ⟨he, ht⟩), fetchHalf_inside hp hc hs (by omega) (by omega)]
      rfl

/-- A fetch inside the space gives what the bytes there decode to. -/
theorem fetch_inside {u : State} {c n : Nat} (hp : (u.slot c n).record ≠ none → (u.corePart? c).isSome = true)
    (hc : (u.slot c n).pc.carried = false) (hs : (u.core c).stale = []) (h0 : 160 ≤ (u.slot c n).pc.off)
    (h1 : (u.slot c n).pc.off < codeTop u c n) (hbad : u.fetchBad c n = false) (hu : (u.slot c n).upset = []) :
    let byte (i : Nat) : Byte := Tbl.find 0 (codeMem u c n) (2 * (u.slot c n).pc.off + i)
    u.fetch c n = (u, fetched (u.slot c n).pc (if (u.slot c n).pc.off + 1 = codeTop u c n then [byte 0, byte 1]
      else [byte 0, byte 1, byte 2, byte 3])) := by
  intro byte
  rw [fetch_good (fetchBytes_inside hp hc hs h0 h1) hbad hu]
  by_cases ht : (u.slot c n).pc.off + 1 = codeTop u c n
  · rw [if_pos (.inr ht), if_pos ht]
  · rw [if_neg ht]
    by_cases he : (byte 0).toNat % 2 = 0
    · rw [if_pos (.inl he), fetched, fetched, ← decode_short he]
    · rw [if_neg (not_or.2 ⟨he, ht⟩)]

/-- An event depends on what its function makes of the state that it starts from. -/
theorem event_congr {s : State} {f g : State → State} (h : f { s with wr := [] } = g { s with wr := [] }) : event f s = event g s := by
  rw [event, event, State.perform, State.perform, h]

/-- Settles O56: the turn that a step finds is a slot's, an event's or the round's (`step_of_issues`, `step_move`, `step_proceeds`), and what a slot runs is what it
fetches (`issueNow_fetched`). -/
theorem stepRunsDecoded : Obligations.StepRunsDecoded := by
  refine ⟨?_, ?_, ?_, ?_, ?_, ?_, ?_, ?_, ?_⟩
  · intro s c n u h
    obtain ⟨hs, hc, hn⟩ := step_of_issues h
    refine ⟨fun e rest he => ?_, fun he => ⟨fun w j hf => ?_, fun w a hf => ?_⟩⟩
    · rw [hs, issueNow_stream he]
    · rw [hs, issueNow_fetched he (by rw [hc, hn, hf])]
    · rw [hs, issueNow_unfetched he (by rw [hc, hn, hf])]
      have hw := fetch_fabricStep u c n
      rw [hf] at hw
      have hwc : w.curCore = c := by obtain ⟨f, k, rfl⟩ := hw; exact hc
      have hwn : w.curSlot = n := by obtain ⟨f, k, rfl⟩ := hw; exact hn
      refine congrArg (thenTurn c n) (event_congr ?_)
      subst hwc hwn
      rfl
  · intro u c n k t m top byte bs hc hp
    refine ⟨fun h => ?_, fun h0 h1 hu hs hi hb => ?_⟩
    · have hout : u.fetchHalf c n t.pc t.pc.off = (u, []) := fetchHalf_outside hp hc h
      exact fetch_nothing (by simp only [State.fetchBytes, show u.fetchHalf c n (u.slot c n).pc (u.slot c n).pc.off = _ from hout])
    · have hf := fetch_inside hp hc hs h0 h1 (fetchBad_false (badHalf_false hi hp hb)) hu
      exact hf
  · intro s c n rest ht ha
    refine ⟨fun h => ?_, fun hn h => ?_⟩
    · rw [step_move ht ha]
      exact if_neg h
    · subst hn
      rw [step_move ht ha]
      exact if_pos h
  · intro s c n rest ht ha
    exact step_move ht ha
  · intro s j rest ht ha
    exact step_move ht ha
  · intro s ht ha
    rw [step_proceeds ht ha]
    refine ⟨fun i hi => proceed_round hi, fun hd he j hj => proceed_own hd he hj, fun hd ho => ⟨fun c hc => ?_, fun hc => ?_⟩⟩
    · rw [proceed_issues hd ho, State.issueTurn, hc]
      rfl
    · rw [proceed_issues hd ho, State.issueTurn, hc]
      rfl
  · intro s n ht
    obtain ⟨h0, h1, h2⟩ := slack_spec s n
    refine ⟨s.slack n, h0, h1, h2, ?_⟩
    have hk : s.tick = State.advance (State.sendAcks { s with ticks := [] }) (s.slack n) := by
      simp only [State.tick, ht]
      rfl
    have hn : (State.advance (State.sendAcks { s with ticks := [] }) (s.slack n)).ticks = [] := sendAcks_ticks _
    rw [step, hk, step, tick_none hn]
  · intro s c n h
    obtain ⟨hi, hm, hf⟩ := turnAt?_some h
    rw [Core.mayIssue, Bool.and_eq_true, Bool.not_eq_true', decide_eq_true_iff] at hm
    exact ⟨hm.1, hi, hm.2, first_in_turns hf⟩
  · intro s c n _
    refine ⟨?_, ?_⟩
    · simp [Core.issued, Core.mayIssue]
    · simp [Core.notReady, Core.slotReady]

end Machine
end Sys2Proof
end

section
/-! PROOF. What ends the wait of an instruction: O31. -/

namespace Sys2Proof
namespace Machine

open Safety

/-! ## What a read of a register leaves alone -/

/-- The partitions, what each core has drained, and the current task and what it waits for are kept. -/
structure ReadKeeps (s t : State) : Prop where
  parts : t.parts = s.parts
  flight : ∀ c, (t.core c).flight = (s.core c).flight
  task : t.cur.task = s.cur.task
  wait : t.cur.wait = s.cur.wait

theorem ReadKeeps.refl (s : State) : ReadKeeps s s := ⟨rfl, fun _ => rfl, rfl, rfl⟩

theorem ReadKeeps.trans {s t u : State} (h : ReadKeeps s t) (g : ReadKeeps t u) : ReadKeeps s u :=
  ⟨g.parts.trans h.parts, fun c => (g.flight c).trans (h.flight c), g.task.trans h.task, g.wait.trans h.wait⟩

theorem ReadKeeps.of_cores {s t : State} (hp : t.parts = s.parts) (hk : t.cores = s.cores) (hc : t.curCore = s.curCore)
    (hn : t.curSlot = s.curSlot) : ReadKeeps s t where
  parts := hp
  flight c := by simp only [State.core, hk]
  task := by simp only [State.cur, State.slot, State.core, hk, hc, hn]
  wait := by simp only [State.cur, State.slot, State.core, hk, hc, hn]

theorem ReadKeeps.modCur (s : State) (f : Slot → Slot) (ht : (f s.cur).task = s.cur.task := by rfl)
    (hw : (f s.cur).wait = s.cur.wait := by rfl) : ReadKeeps s (s.modCur f) where
  parts := rfl
  flight c := modSlot_flight s _ _ c f
  task := by rw [State.cur_modCur, ht]
  wait := by rw [State.cur_modCur, hw]

theorem ReadKeeps.modCore (s : State) (c : Nat) (f : Core → Core) (hs : (f (s.core c)).slots = (s.core c).slots := by rfl)
    (hf : (f (s.core c)).flight = (s.core c).flight := by rfl) : ReadKeeps s (s.modCore c f) where
  parts := rfl
  flight d := by
    rw [State.core_modCore]
    split
    · next h => rw [h, hf]
    · rfl
  task := by rw [cur_modCore _ _ _ hs]
  wait := by rw [cur_modCore _ _ _ hs]

theorem l1Invalidate_readKeeps (s : State) (c : Nat) : ReadKeeps s (s.l1Invalidate c) := by
  unfold State.l1Invalidate
  split
  · exact foldl_of_step ReadKeeps .refl (fun _ _ _ => .trans) (fun s o => .modCore s o _) _ s
  · exact .modCore s c _

theorem walkRead_readKeeps {s t : State} {kind : Nat} {act : State → State × W64} {v : W64} (ha : ReadKeeps s (act s).1)
    (h : s.walkRead kind act = .ok (t, v)) : ReadKeeps s t := by
  unfold State.walkRead at h
  dsimp only at h
  split at h
  · split at h <;> cases h
    exact .modCur s _
  · split at h <;> cases h
    · exact ha.trans (.modCur _ _)
    · exact ha

theorem takeAt_readKeeps (s : State) (r : BitVec 1024) (k n : Nat) : ReadKeeps s (s.takeAt r k n).2 := by
  unfold State.takeAt
  split <;> exact .of_cores rfl rfl rfl rfl

theorem addEntry_readKeeps {s t : State} {ea : W64} {loc : Loc} {o : Order} {sc : Scope} {a : Act}
    (h : addEntry s ea loc o sc a = .ok t) : ReadKeeps s t := by
  rw [addEntry_grows h]
  exact ReadKeeps.trans (.modCore s s.curCore fun k => { k with reqs := k.reqs + 1 }) (.modCur _ _)

theorem wknx_readKeeps {s t : State} {v : W64} (h : s.wknx false = .ok (t, v)) : ReadKeeps s t := by
  unfold State.wknx at h
  split at h
  · exact walkRead_readKeeps (.refl s) h
  · next k n w r _ =>
    dsimp only at h
    obtain ⟨_, -, h⟩ := bind_ok h
    obtain ⟨⟨u, x⟩, hr, h⟩ := bind_ok h
    have hu : ReadKeeps s u := by
      refine walkRead_readKeeps ?_ hr
      have ht := takeAt_readKeeps s r k n
      split
      · next e => rw [e] at ht; exact ht
      · next e => rw [e] at ht; exact ht
    dsimp only at h
    split at h
    · cases h; exact hu
    · obtain ⟨q, hq, h⟩ := bind_ok h
      cases h
      exact hu.trans (addEntry_readKeeps hq)

theorem takeRecord_readKeeps {s t : State} {r : CRec} (h : s.takeRecord = some (r, t)) : ReadKeeps s t := by
  unfold State.takeRecord at h
  split at h
  · cases h
  · next r q _ =>
    cases h
    exact ReadKeeps.trans (.modCore s s.curCore fun k => { k with cinbox := q }) (.modCur _ _)

theorem qcmp_readKeeps (s : State) : ReadKeeps s s.qcmp.1 := by
  unfold State.qcmp
  split
  · dsimp only
    split
    · exact (ReadKeeps.modCur s _).trans (l1Invalidate_readKeeps _ _)
    · exact .modCur s _
  · split
    · exact ReadKeeps.modCur s fun t => { t with qce := true }
    · next r u h =>
      exact (takeRecord_readKeeps h).trans (ReadKeeps.modCur u fun t => { t with bound := some (r, 1), qce := false })

theorem qpay_readKeeps (s : State) : ReadKeeps s s.qpay.1 := by
  unfold State.qpay
  dsimp only
  split
  · exact ReadKeeps.modCur s fun t => { t with qpe := true }
  · exact ReadKeeps.modCur s fun t => { t with qpos := t.qpos + 8 }

theorem readG_readKeeps {s t : State} {n : Reg} {x : W64} (h : readG s n = .ok (t, x)) : ReadKeeps s t := by
  unfold readG at h
  split at h
  · cases h; exact .refl s
  · have e : s.qpay.1 = t := congrArg Prod.fst (Except.ok.inj h)
    exact e ▸ qpay_readKeeps s
  · cases h; exact .refl s
  · have e : s.qcmp.1 = t := congrArg Prod.fst (Except.ok.inj h)
    exact e ▸ qcmp_readKeeps s
  · exact wknx_readKeeps h
  · cases h; exact .refl s

theorem corePart?_of_parts {s t : State} (h : t.parts = s.parts) (c : Nat) : t.corePart? c = s.corePart? c := by
  simp only [State.corePart?, State.partOf?, h]

theorem part_of_parts {s t : State} (h : t.parts = s.parts) (p : Nat) : t.part p = s.part p := by
  simp only [State.part, h]

/-! ## An instruction that waits issues again, or completes -/

/-- An event whose operation leaves the state alone. -/
theorem occurs_nothing {j : Instr} {s : State} {f : State → State} (he : exec j s = event f s) (h : s.wr = []) (hf : f s = s) :
    Occurs j s s := by
  have ho := occurs_event he h
  rwa [hf] at ho

theorem settleMem_fresh {s : State} (h : s.wr = []) : State.settleMem s = s := by
  obtain ⟨⟩ := s
  cases h
  rfl

section
variable {s : State} {c n : Nat} {j : Instr} {e : Instr} {w : Wait → Bool} {table : Instr → Option (State → Effect)} {body : State → Effect}

theorem reissue_turn (h : Turn s c n) : s.reissue c n w table = s.runWaiting c n w table fun t => t.afterIssue c n := by
  unfold State.reissue
  rw [h.1, h.2]
  rfl

theorem reissue_noTurn (h : ¬ Turn s c n) : s.reissue c n w table = s := by
  unfold State.reissue
  rw [if_neg]
  simpa [Turn] using h

/-- The waiting instruction runs from the state in which it issues again; one that waits on keeps its wait. -/
theorem runWaiting_again {after : State → State} {t : State} (h : Waiting s c n j) (hw : w (s.slot c n).wait = true) (hj : table j = some body)
    (ht : State.issueRun j body (asCurrent s c n) = t) (hq : ((t.slot c n).running && w (t.slot c n).wait) = true) :
    s.runWaiting c n w table after = s.modSlot c n fun x => { x with wait := (t.slot c n).wait } := by
  subst ht
  unfold State.runWaiting
  simp only [h.running, hw, h.fetched, hj, Bool.and_self, if_true]
  exact if_pos hq

theorem runWaiting_done {after : State → State} {t : State} (h : Waiting s c n j) (hw : w (s.slot c n).wait = true) (hj : table j = some body)
    (ht : State.issueRun j body (asCurrent s c n) = t) (hq : ((t.slot c n).running && w (t.slot c n).wait) = false) :
    s.runWaiting c n w table after = { after t with curCore := s.curCore, curSlot := s.curSlot } := by
  subst ht
  unfold State.runWaiting
  simp only [h.running, hw, h.fetched, hj, Bool.and_self, if_true]
  exact if_neg (Bool.eq_false_iff.1 hq)

theorem resumes_of_reissue {f : State → State} (he : exec e s = event f s) (hf : f s = s.reissue c n w table)
    (hex : exec j (asCurrent s c n) = issue j body (asCurrent s c n)) (hj : table j = some body) (hwt : Waiting s c n j) (ht : Turn s c n)
    (hw : w (s.slot c n).wait = true) : Resumes e s c n j w := by
  have hfresh : (asCurrent s c n).wr = [] := hwt.fresh
  have hrun : (asCurrent s c n).cur.running = true :=
    (congrArg Slot.running (State.slot_modSlot_self (s := s) c n fun t => { t with wait := .none })).trans hwt.running
  obtain ⟨t, hrn⟩ : ∃ t, State.issueRun j body (asCurrent s c n) = t := ⟨_, rfl⟩
  refine ⟨State.settleMem { t with mem := s.mem, plat := s.plat }, ?_, ?_⟩
  · rw [hex, issue, if_pos hrun, State.perform_fresh _ _ hfresh, hrn]
    rfl
  · rw [he, event, State.perform_fresh _ _ hwt.fresh, hf, reissue_turn ht]
    cases hq : (t.slot c n).running && w (t.slot c n).wait with
    | true =>
      rw [runWaiting_again hwt hw hj hrn hq]
      refine (congrArg Host.Outcome.next (settleMem_fresh ?_)).trans (congrArg Host.Outcome.next (if_pos hq).symm)
      exact hwt.fresh
    | false =>
      rw [runWaiting_done hwt hw hj hrn hq]
      exact congrArg Host.Outcome.next (if_neg (Bool.eq_false_iff.1 hq)).symm

theorem slotAfter_wait (t u : Slot) (j : Instr) (nx : Next) : (slotAfter t j nx u).wait = u.wait := by
  unfold slotAfter advancePc
  dsimp only
  split
  · split <;> rfl
  · split <;> rfl
  · split <;> rfl
  · split
    · split <;> rfl
    · split <;> (split <;> rfl)

/-- An instruction that has issued and waits takes its effect, once its body gives one: its slot then waits no more. -/
theorem completes_of_finish {f : State → State} {u : State} (he : exec e s = event f s) (hf : f s = s.finish c n w table)
    (hj : table j = some body) (hp : Plain j) (hwt : Waiting s c n j) (hw : w (s.slot c n).wait = true)
    (hr : Ready j (asCurrent s c n)) (hb : body (asCurrent s c n) = .ok (u, .seq)) (hn : w .none = false) (hu : (u.slot c n).wait = .none) :
    Completes e s c n j u .seq := by
  have hs := sigStops_seq hr hp.1 hp.2
  have hret := retires (asCurrent s c n) u j .seq nofun hs
  obtain ⟨t, ht⟩ : ∃ t, (asCurrent s c n).retireIns j u .seq = t := ⟨_, rfl⟩
  rw [ht] at hret
  have hrn : State.issueRun j body (asCurrent s c n) = t := by
    simp [State.issueRun, hr.checks, hb, ht]
  obtain ⟨g, st, hslot⟩ := hret.slot
  have hwait : (t.slot c n).wait = (u.slot c n).wait := (congrArg Slot.wait hslot).trans (slotAfter_wait _ _ _ _)
  refine ⟨_, hret, ?_⟩
  rw [he, event, State.perform_fresh _ _ hwt.fresh, hf, State.finish,
    runWaiting_done hwt hw hj hrn (by rw [hwait, hu, hn, Bool.and_false])]
  rfl

end

/-! ## TLBI and SNAP that wait (07 R129, R130) -/

theorem slot_dropTlb (s : State) (drop : TlbEnt → Bool) (c n : Nat) : (s.dropTlb drop).slot c n = s.slot c n := by
  show (((Tbl.get? (s.cores.map fun e : Nat × Core => (e.1, { e.2 with tlb := e.2.tlb.filter fun t => !drop t })) c)).getD {}).slot n = _
  rw [get?_map_snd fun k : Core => { k with tlb := k.tlb.filter fun t => !drop t }]
  cases hk : Tbl.get? s.cores c with
  | none => simp [State.slot, State.core, hk]
  | some k => simp [State.slot, State.core, hk, Core.slot]

theorem slot_sampleRoot (s : State) (ctx c n : Nat) : (s.sampleRoot ctx).slot c n = s.slot c n := by
  unfold State.sampleRoot
  split
  · rfl
  · next p _ =>
    have h := (stage2_walked s p (s.ctx ctx).tcb).slot c n
    dsimp only
    split
    · next e =>
      rw [e] at h
      split
      · exact h
      · exact ((homeWord_walked _ _).slot c n).trans h
    · next e =>
      rw [e] at h
      exact h

section
variable {s s1 s2 : State} {a b : Reg} {x y : W64} {p : Nat}

/-- A TLBI that waits, once the walks that had begun before it have completed. -/
theorem bodyTlbi_begun {walks : List (Nat × Nat × Nat)} (hp : s.privileged s.curCore s.curSlot = true) (ha : readG s a = .ok (s1, x))
    (hb : readG s1 b = .ok (s2, y)) (hc : s2.corePart? s2.curCore = some p) (h : field y 1 0 = 1 ∨ (field y 1 0 = 0 ∧ field x 63 48 = 0))
    (hf : ∀ f ∈ (s2.core s2.curCore).flight, f.e.task = s2.cur.task → f.e.writes = false) (hw : ∀ w ∈ walks, s2.walkOpen p w = false)
    (hpin : (s2.pinned p fun q => decide (field y 1 0 = 1) || s2.oneTranslation p (field x 47 0) q.gva) = false) :
    let u := s2.dropTlb fun t => t.part == p && (decide (field y 1 0 = 1) || decide (t.va ≤ field x 47 0 ∧ field x 47 0 < t.va + t.size))
    bodyTlbi (some walks) a b s = .ok (if field y 1 0 = 1 then u.sampleRoot (s2.part p).ctx else u, .seq) := by
  intro u
  have hnone : walks.filter (s2.walkOpen p) = [] := List.filter_eq_nil_iff.2 fun w hm => Bool.eq_false_iff.1 (hw w hm)
  have hfl : (s2.core s2.curCore).flight.any (fun f => f.e.task == s2.cur.task && f.e.writes) = false := by
    rw [List.any_eq_false]
    intro f hm hq
    rw [Bool.and_eq_true, beq_iff_eq] at hq
    exact Bool.false_ne_true ((hf f hm hq.1).symm.trans hq.2)
  rw [bodyTlbi, privileged_ok hp]
  simp only [ha, hb, hc, require_true (tlbi_operands h), Bind.bind, Except.bind, Option.getD_some, hnone, hfl, hpin, Bool.not_false,
    List.isEmpty_nil, Bool.and_self, require_true]
  rfl

end

/-- A SNAP that waits, once the drains that had begun before it are complete and no copy on write is under way. -/
theorem bodySnap_begun {d : Reg} {s : State} {p : Nat} {left : List (Nat × Nat)} (hp : s.privileged s.curCore s.curSlot = true)
    (hc : s.corePart? s.curCore = some p) (hl : ∀ w ∈ left, w ∉ s.openWrites p) (hw : (s.part p).cow = []) :
    bodySnap (some left) d s = setG (s.modPart p fun k => { k with snapEpoch := ((s.part p).snapEpoch + 1) % 2 ^ 32 }) d
        (w64 (((s.part p).snapEpoch + 1) % 2 ^ 32)) := by
  have hnone : left.filter (s.openWrites p).contains = [] :=
    List.filter_eq_nil_iff.2 fun w hm hq => hl w hm (List.contains_iff_mem.1 hq)
  rw [bodySnap, privileged_ok hp]
  simp only [hc, Option.getD_some, hnone, hw, List.isEmpty_nil, Bool.and_self, require_true, Bind.bind, Except.bind]

theorem wait_putG (s : State) (d : Reg) (x : W64) (c n : Nat) : ((putG s d x).slot c n).wait = (s.slot c n).wait := by
  have hmod (f : Slot → Slot) (hf : ∀ t, (f t).wait = t.wait) : ((s.modCur f).slot c n).wait = (s.slot c n).wait := by
    show ((s.modSlot s.curCore s.curSlot f).slot c n).wait = _
    rw [State.slot_modSlot]
    split
    · next h => rw [hf, h.1, h.2]
    · rfl
  unfold putG
  split
  · rfl
  · split
    · exact hmod _ fun _ => rfl
    · exact hmod _ fun _ => rfl

theorem cur_asCurrent (s : State) (c n : Nat) : (asCurrent s c n).cur = { s.slot c n with wait := .none } := by
  show (s.modSlot c n fun t => { t with wait := .none }).slot c n = _
  rw [State.slot_modSlot_self]

theorem flight_asCurrent (s : State) (c n d : Nat) : ((asCurrent s c n).core d).flight = (s.core d).flight := by
  show ((s.modSlot c n fun t => { t with wait := .none }).core d).flight = _
  rw [modSlot_flight]

/-! ## Results (06 R100) -/

theorem indexOf?_append {α : Type} {f : α → Bool} {l r : List α} {x : α} (hl : ∀ y ∈ l, f y = false) (hx : f x = true) :
    indexOf? f (l ++ x :: r) = some l.length := by
  induction l with
  | nil => simp [indexOf?, hx]
  | cons y l ih =>
    rw [List.cons_append, indexOf?, hl y List.mem_cons_self, ih fun z hz => hl z (List.mem_cons_of_mem y hz)]
    rfl

theorem removeAt_append {α : Type} (l r : List α) (x : α) : removeAt l.length (l ++ x :: r) = l ++ r := by
  induction l with
  | nil => rfl
  | cons y l ih => exact congrArg (y :: ·) ih

theorem modifyAt_append {α : Type} (f : α → α) (l r : List α) (x : α) : modifyAt f l.length (l ++ x :: r) = l ++ f x :: r := by
  induction l with
  | nil => rfl
  | cons y l ih => exact congrArg (y :: ·) ih

theorem resultArrives_eq {s : State} {c n : Nat} {p : Pending} {l r : List Pending} (hm : s.primaryOf? c = none)
    (ht : (s.slot c n).pend = l ++ p :: r) (hl : ∀ q ∈ l, q.ready = true → q.arrived = true) (hr : p.ready = true) (ha : p.arrived = false) :
    let w := if (s.slot c n).wait = .results ∨ (s.slot c n).wait = .oldest p.uid then .none else (s.slot c n).wait
    let t := if p.bad.isNone then (s.slot c n).takeResult p else s.slot c n
    let u := s.setSlot c n { t with
      pend := if p.bad.isNone = true ∧ p.left = 0 then l ++ r else l ++ { p with arrived := true } :: r, wait := w }
    s.resultArrives c n = match p.comp with
      | some x => if p.bad.isNone then u.consume c n x else u
      | none => u := by
  intro w t u
  have hi : indexOf? (fun p : Pending => p.ready && !p.arrived) (s.slot c n).pend = some l.length := by
    rw [ht]
    refine indexOf?_append (fun q hq => ?_) (by rw [hr, ha]; rfl)
    cases hqr : q.ready with
    | false => rfl
    | true => rw [hl q hq hqr]; rfl
  have hg : (s.slot c n).pend[l.length]? = some p := by rw [ht]; simp
  have hpend : t.pend = l ++ p :: r := by
    show (if p.bad.isNone then (s.slot c n).takeResult p else s.slot c n).pend = _
    split
    · exact ht
    · exact ht
  have hwait : t.wait = (s.slot c n).wait := by
    show (if p.bad.isNone then (s.slot c n).takeResult p else s.slot c n).wait = _
    split <;> rfl
  unfold State.resultArrives
  simp only [State.mirrorResult, hm, hi, hg]
  have hset : { t with
      pend := if (p.bad.isNone && decide (p.left = 0)) = true then removeAt l.length t.pend else modifyAt (fun p => { p with arrived := true }) l.length t.pend
      wait := if t.wait = .results ∨ t.wait = .oldest p.uid then .none else t.wait } = { t with
      pend := if p.bad.isNone = true ∧ p.left = 0 then l ++ r else l ++ { p with arrived := true } :: r, wait := w } := by
    rw [hpend, removeAt_append, modifyAt_append, hwait]
    simp only [Bool.and_eq_true, decide_eq_true_eq]
    rfl
  rw [show (if p.bad.isNone = true then (s.slot c n).takeResult p else s.slot c n) = t from rfl, hset] <;> rfl

section
variable {s : State} {c n : Nat} {p : Pending} {l r : List Pending}

/-- A result that brings a fault is kept for the instruction that waits on it. -/
theorem resultArrives_faulty {f : Nat × W64} (hm : s.primaryOf? c = none) (ht : (s.slot c n).pend = l ++ p :: r)
    (hl : ∀ q ∈ l, q.ready = true → q.arrived = true) (hr : p.ready = true) (ha : p.arrived = false) (hb : p.bad = some f) :
    s.resultArrives c n = s.setSlot c n { s.slot c n with
      pend := l ++ { p with arrived := true } :: r
      wait := if (s.slot c n).wait = .results ∨ (s.slot c n).wait = .oldest p.uid then .none else (s.slot c n).wait } := by
  have hn : p.bad.isNone = false := by rw [hb]; rfl
  have ho := resultArrives_eq hm ht hl hr ha
  simp only [hn, Bool.false_eq_true, if_false, false_and] at ho
  refine ho.trans ?_
  split <;> rfl

/-- A result without a fault is written. -/
theorem resultArrives_good (hm : s.primaryOf? c = none) (ht : (s.slot c n).pend = l ++ p :: r)
    (hl : ∀ q ∈ l, q.ready = true → q.arrived = true) (hr : p.ready = true) (ha : p.arrived = false) (hb : p.bad = none) :
    let u := s.setSlot c n { (s.slot c n).takeResult p with
      pend := if p.left = 0 then l ++ r else l ++ { p with arrived := true } :: r
      wait := if (s.slot c n).wait = .results ∨ (s.slot c n).wait = .oldest p.uid then .none else (s.slot c n).wait }
    s.resultArrives c n = match p.comp with | some x => u.consume c n x | none => u := by
  have hn : p.bad.isNone = true := by rw [hb]; rfl
  have ho := resultArrives_eq hm ht hl hr ha
  simp only [hn, if_true, true_and] at ho
  exact ho

end

/-! ## Settling O31 -/

/-- Settles O31: a slot that waits issues again where its wait has ended (`resumes_of_reissue`), and a result that arrives is written or kept
(`resultArrives_good`, `resultArrives_faulty`). -/
theorem waitsEnd : Obligations.WaitsEnd := by
  refine ⟨?_, ?_, ?_, ?_, ?_, ?_, ?_, ?_, ?_, ?_, ?_⟩
  · intro s c n d hw hd
    have ho := occurs_event (j := .followWaitExpiry c n) rfl hw
    simp only [hd] at ho
    refine ⟨fun h => ?_, fun h => ?_⟩
    · rwa [if_pos h] at ho
    · rwa [if_neg (Nat.not_lt.2 h)] at ho
  · intro s c n need hw hd
    have ho := occurs_event (j := .bufferPoolWaitEnd c n) rfl hw
    simp only [State.poolWaitEnd, State.wake, Core.poolReady, hd, decide_eq_true_eq] at ho
    refine ⟨fun h => ?_, fun h => ?_⟩
    · rwa [if_pos h] at ho
    · rwa [if_neg (Nat.not_le.2 h)] at ho
  · intro s c n e j w hwt ht hww he
    rcases he with ⟨rfl, rfl, a, rfl⟩ | ⟨rfl, rfl, d, a, la, rfl⟩ | ⟨rfl, rfl, hm, a, num, rfl⟩ | ⟨rfl, rfl, hm, d, la, sc, rfl⟩ | ⟨rfl, rfl, hm, hj⟩
    · exact resumes_of_reissue rfl rfl rfl rfl hwt ht hww
    · exact resumes_of_reissue rfl rfl rfl rfl hwt ht hww
    · refine resumes_of_reissue rfl (if_neg ?_) rfl rfl hwt ht hww
      rw [hm]
      exact Bool.false_ne_true
    · exact resumes_of_reissue rfl (if_pos hm) rfl rfl hwt ht hww
    · have hf : s.confirmedDrain c n = _ := if_neg (by rw [hm]; exact Bool.false_ne_true)
      rcases hj with rfl | rfl | rfl | rfl | ⟨d, a, b, la, op, sz, rfl⟩ | ⟨d, a, b, la, rfl⟩ | ⟨a, b, rfl⟩
      · exact resumes_of_reissue rfl hf rfl rfl hwt ht hww
      · exact resumes_of_reissue rfl hf rfl rfl hwt ht hww
      · exact resumes_of_reissue rfl hf rfl rfl hwt ht hww
      · exact resumes_of_reissue rfl hf rfl rfl hwt ht hww
      · exact resumes_of_reissue rfl hf rfl rfl hwt ht hww
      · exact resumes_of_reissue rfl hf rfl rfl hwt ht hww
      · exact resumes_of_reissue rfl hf rfl rfl hwt ht hww
  · intro s c n a b walks s1 s2 x y p hwt hw hr hp ha hb hc hy hfl hwk hpin u
    have hf : s.tlbiComplete c n = s.finish c n (fun w => match w with | .tlbi _ => true | _ => false)
        fun j => match j with | .tlbi a b => some (bodyTlbi (some walks) a b) | _ => none := by
      unfold State.tlbiComplete
      rw [hw] <;> rfl
    have hk := (readG_readKeeps ha).trans (readG_readKeeps hb)
    have hpl := (readG_samePlace ha).trans (readG_samePlace hb)
    have hcc : s2.curCore = c := hpl.core
    have hcn : s2.curSlot = n := hpl.slot
    have hcur := cur_asCurrent s c n
    have hparts : s2.parts = s.parts := hk.parts
    have hflight : (s2.core s2.curCore).flight = (s.core c).flight := by
      rw [hcc, hk.flight c, flight_asCurrent]
    have htask : s2.cur.task = (s.slot c n).task := by rw [hk.task, hcur]
    have hbody := bodyTlbi_begun (s := asCurrent s c n) hp ha hb (by rw [corePart?_of_parts hparts, hcc, hc]) hy
      (by rw [hflight, htask]; exact hfl) hwk hpin
    rw [part_of_parts hparts] at hbody
    refine completes_of_finish rfl hf rfl ⟨rfl, rfl⟩ hwt (by rw [hw]) hr hbody rfl ?_
    have hwait : (s2.slot c n).wait = .none := by
      have hq := hk.wait
      rw [hcur, State.cur, hcc, hcn] at hq
      exact hq
    split
    · rw [slot_sampleRoot, slot_dropTlb, hwait]
    · rw [slot_dropTlb, hwait]
  · intro s c n d left p hwt hw hr hp hc hd hl hcow
    have hf : s.snapFlip c n = s.finish c n (fun w => match w with | .snap _ => true | _ => false)
        fun j => match j with | .snap d => some (bodySnap (some left) d) | _ => none := by
      unfold State.snapFlip
      rw [hw] <;> rfl
    have hopen : (asCurrent s c n).openWrites p = s.openWrites p := by
      unfold State.openWrites
      refine congrArg (fun g => List.flatMap g (s.part p).cores) (funext fun k => ?_)
      rw [flight_asCurrent]
    have hbody := (bodySnap_begun (s := asCurrent s c n) (d := d) hp hc (by rw [hopen]; exact hl) hcow).trans (setG_settable _ hd)
    refine completes_of_finish rfl hf rfl ⟨rfl, rfl⟩ hwt (by rw [hw]) hr hbody rfl ?_
    exact (wait_putG _ _ _ _ _).trans (congrArg Slot.wait (cur_asCurrent s c n))
  · intro s c n e w hw ht hwait he
    rcases he with ⟨rfl, rfl⟩ | ⟨rfl, rfl⟩ | rfl | rfl | rfl
    · exact occurs_nothing rfl hw (reissue_noTurn ht)
    · exact occurs_nothing rfl hw (reissue_noTurn ht)
    · exact occurs_nothing rfl hw (ite_eq_left_iff.2 fun _ => reissue_noTurn ht)
    · exact occurs_nothing rfl hw (ite_eq_right_iff.2 fun _ => reissue_noTurn ht)
    · exact occurs_nothing rfl hw (ite_eq_left_iff.2 fun _ => reissue_noTurn ht)
  · intro s c n hw hm
    exact occurs_nothing rfl hw (if_pos hm)
  · intro s c n hw ht
    exact occurs_nothing rfl hw (if_pos ht)
  · intro s c n p l r hw hm ht hl hr ha w
    have ho := occurs_event (j := .longLatencyResult c n) rfl hw
    refine ⟨fun f hb => ?_, fun hb => ?_⟩
    · rwa [resultArrives_faulty hm ht hl hr ha hb] at ho
    · rwa [resultArrives_good hm ht hl hr ha hb] at ho
  · intro t p d x r hg hv hd
    simp only [Slot.takeResult, hg, hv, List.zip_cons_cons, List.zip_nil_left, List.foldl_cons, List.foldl_nil, if_neg hd]
    rw [Tbl.find_put]
  · intro t p d r hv
    simp only [Slot.takeResult, hv, List.foldl_cons, List.foldl_nil]
    rw [Tbl.find_put]

end Machine
end Sys2Proof
end

section
/-! PROOF. How messages start tasks: O32 does not hold. -/

namespace Sys2Proof
namespace Machine

open Safety

/-- A message whose routine address lies below the image: its task traps ILLEGAL at its start. -/
def badMsg : Msg := ⟨.byAddress, 0, 0, 0, 0, 0, 0, 0, 0, 0, ⟨0, 0, 0, 0⟩, [], [], none, none, false, false, 0, 0, .none, none⟩

/-- A record of a launch with pairs: its gang is the fourth cluster of a partition's first row. -/
def pairRcd : BitVec 1024 := BitVec.ofNat 1024 (2 ^ 12 + 3 * 2 ^ 256 + 511 * 2 ^ 272)

def pairLaunch : Launch := { rcd := pairRcd, prio := 0, waits := [], ring := 0, slotIdx := 0, device := none }

/-- The partition of cores 48 and 176. -/
def widePart : Partition := { en := true, resident := true, px := 1, pw := 14 }

/-- A partition of one cluster with the same context: seen from it, core 48 is in the gang. -/
def smallPart : Partition := { en := true, resident := true }

/-- A state whose table of partitions does not rise: partition 2 stands before partition 1. -/
def fallingParts : State := { State.reset with
  parts := [(2, widePart), (1, smallPart)]
  ctxs := [(0, { launches := [(0, pairLaunch)] })]
  cores := [(48, { image := some ⟨0, 0, none⟩, runq := [⟨badMsg, 0, none⟩] }), (176, { runq := [⟨badMsg, 0, none⟩] })] }

/-- What the dispatch leaves of it. -/
def afterDispatch : State := fallingParts.perform fun s => s.dispatchTask 48

/-! ## The record of a trap is the last that its partition has -/

theorem length_enterRec (r : TRec) (l : List TRec) : (enterRec r l).length = l.length + 1 := by
  induction l with
  | nil => rfl
  | cons x l ih =>
    unfold enterRec
    split
    · rfl
    · rw [List.length_cons, ih, List.length_cons]

/-- Of two records of which the one has just entered, the second is of its core. -/
theorem enterRec_pair {r a b : TRec} {l : List TRec} (h : enterRec r l = [a, b]) : b.core = r.core := by
  have hlen := congrArg List.length h
  rw [length_enterRec] at hlen
  obtain ⟨x, rfl⟩ : ∃ x, l = [x] := List.length_eq_one_iff.1 (by simpa using hlen)
  simp only [enterRec] at h
  split at h
  · next hq =>
    cases h
    simp only [Bool.and_eq_true, beq_iff_eq] at hq
    exact hq.1.1.2
  · cases h
    rfl

theorem enterRec_ne_nil (r : TRec) (l : List TRec) : enterRec r l ≠ [] := by
  intro h
  have hlen := congrArg List.length h
  rw [length_enterRec] at hlen
  cases hlen

/-- The first word of a trap's record has the bit of a fatal one clear. -/
theorem fatal_trapRec (repl : Bool) (n cause code : Nat) (msgid : W32) (pc : Nat) (place addr detail : W64) :
    (mkRec 1 (ofBool false) (ofBool (!repl)) n cause code msgid pc place addr detail).fatal = false := by
  have hw : bitAt (mkRec 1 (ofBool false) (ofBool (!repl)) n cause code msgid pc place addr detail).w0 61 = false := by
    rw [mkRec_trap_w0, bitAt, decide_eq_false_iff_not, BitVec.toNat_ofNat]
    have hm := msgid.isLt
    have hr : (if repl then 0 else 2 ^ 59) ≤ 2 ^ 59 := by split <;> simp
    omega
  simp only [TRec.fatal, hw, Bool.and_false]

/-- The last record of a partition's queue, or of those that wait for it, is of core `c`; or a debugger has one. -/
def Entered (c : Nat) (k : Partition) : Prop :=
  (∃ x l, x.core = c ∧ (k.trapq = enterRec x l ∨ k.heldRecs = enterRec x l)) ∨ k.debugRecs ≠ []

/-- A record that is not fatal enters the queue of its core's partition, or what waits for it. -/
theorem report_enters {s : State} {c p : Nat} {r : TRec} (hp : s.corePart? c = some p) (hf : r.fatal = false) :
    Entered c ((s.report c r).part p) := by
  have hfatal : ¬ ({ { r with core := c } with at_ := s.time } : TRec).fatal = true := fun h => Bool.false_ne_true (hf.symm.trans h)
  simp only [State.report, hp, State.postRec, if_neg hfatal]
  split
  · exact .inr (by rw [State.part_modPart_self]; exact List.append_ne_nil_of_right_ne_nil _ (List.cons_ne_nil _ _))
  · split
    · exact .inl ⟨_, _, rfl, .inl (by rw [State.part_setPart_self])⟩
    · exact .inl ⟨_, _, rfl, .inr (by rw [State.part_setPart_self])⟩

/-- A trap that ends the task of an ordinary slot of a core with a partition leaves the trap's record the last of some partition. -/
theorem takeTrap_enters {s t : State} {c n cause code : Nat} {addr : W64} (h : s.takeTrap c n cause code addr = t) (hn : n ≠ 7)
    (hr : (s.slot c n).running = true) (ht : (t.slot c n).running = false) (hp : (t.corePart? c).isSome = true) :
    ∃ p, Entered c (t.part p) := by
  have hpriv : s.privileged c n = false := by
    unfold State.privileged
    split
    · rw [decide_eq_false hn, Bool.false_and]
    · rfl
  unfold State.takeTrap at h
  simp only [hpriv, Bool.false_eq_true, if_false] at h
  split at h
  · rw [← h, State.slot_setSlot_self] at ht
    exact absurd (ht.symm.trans hr) Bool.false_ne_true
  · unfold State.trapNow at h
    cases hq : (s.trapPark c n cause code addr).corePart? c with
    | none =>
      simp only [State.report, hq] at h
      rw [← h, hq] at hp
      cases hp
    | some p =>
      rw [← h]
      exact ⟨p, report_enters hq (fatal_trapRec (s.slot c n).repl n cause code (s.slot c n).msgid (pcWord (s.slot c n).pc)
        ((s.trapPark c n cause code addr).placeWord c) addr 0)⟩

theorem mem_of_get? {α : Type} {m : Tbl α} {k : Nat} {v : α} (h : Tbl.get? m k = some v) : (k, v) ∈ m := by
  induction m with
  | nil => cases h
  | cons e m ih =>
    obtain ⟨j, w⟩ := e
    rw [Tbl.get?_cons] at h
    split at h
    · next hj => cases h; subst hj; exact List.mem_cons_self
    · exact List.mem_cons_of_mem _ (ih h)

/-! ## The state with two partitions (22 R314; 24 R336) -/

theorem afterDispatch_parts : ∀ e ∈ afterDispatch.parts,
    e.2.debugRecs = [] ∧ e.2.heldRecs = [] ∧ (e.2.trapq = [] ∨ e.2.trapq.map (·.core) = [48, 176]) := by decide +kernel

/-- No partition has the record of core 48 as its last one. -/
theorem afterDispatch_notEntered (p : Nat) : ¬ Entered 48 (afterDispatch.part p) := by
  have hpart : (afterDispatch.part p).debugRecs = [] ∧ (afterDispatch.part p).heldRecs = [] ∧
      ((afterDispatch.part p).trapq = [] ∨ (afterDispatch.part p).trapq.map (·.core) = [48, 176]) := by
    unfold State.part
    cases hg : Tbl.get? afterDispatch.parts p with
    | none => exact ⟨rfl, rfl, .inl rfl⟩
    | some k => exact afterDispatch_parts _ (mem_of_get? hg)
  obtain ⟨hd, hh, hq⟩ := hpart
  rintro (⟨x, l, hx, he | he⟩ | hne)
  · rcases hq with hq | hq
    · exact enterRec_ne_nil x l (he.symm.trans hq)
    · obtain ⟨a, r, ha, -, hr⟩ := List.map_eq_cons_iff.1 hq
      obtain ⟨b, r', hb, hcore, hnil⟩ := List.map_eq_cons_iff.1 hr
      obtain rfl := List.map_eq_nil_iff.1 hnil
      subst hb
      have hlast := enterRec_pair (he.symm.trans ha)
      rw [hcore, hx] at hlast
      exact absurd hlast (by decide)
  · exact enterRec_ne_nil x l (he.symm.trans hh)
  · exact hne hd

/-- Refutes O32: the table of partitions need not rise, and the record of a trap puts its partition in its place of the table. In
`fallingParts` core 48 has no mirror before its task traps and has one afterwards, on which the task starts and traps too: its record
comes after that of core 48, which the trap of no state leaves as the last. -/
theorem not_tasksStart : ¬ Obligations.TasksStart := by
  intro h
  obtain ⟨u, hstart, -, -, -, -, -, -, hbad⟩ := h.1 fallingParts 48 1 ⟨badMsg, 0, none⟩ rfl (by decide +kernel) (by decide +kernel)
    (by decide +kernel) (by decide +kernel) (by decide +kernel) rfl
  have ho := hbad (by decide +kernel)
  obtain ⟨t, ht⟩ : ∃ t, u.takeTrap 48 1 Cause.illegal 0
    (BitVec.ofNat 64 (routine (routineOf (fallingParts.core 48).imem badMsg) % 65536)) = t := ⟨_, rfl⟩
  have hF : afterDispatch = State.settleMem { t with mem := fallingParts.mem, plat := fallingParts.plat } := by
    rw [← ht]
    exact Host.Outcome.next.inj ho
  have hslot : (t.slot 48 1).running = false := by
    rw [show t.slot 48 1 = afterDispatch.slot 48 1 by rw [hF]; rfl]
    decide +kernel
  have hcore : (t.corePart? 48).isSome = true := by
    rw [show t.corePart? 48 = afterDispatch.corePart? 48 by rw [hF]; rfl]
    decide +kernel
  obtain ⟨p, hp⟩ := takeTrap_enters ht (by decide) hstart.runs.1 hslot hcore
  exact afterDispatch_notEntered p (by rw [hF]; exact hp)

end Machine
end Sys2Proof
end

section
/-! PROOF. Quotes of the identity key and the frequencies of the islands (25_bring_up.md R352 to R355): O48. -/

namespace Sys2Proof
namespace Machine

open Safety

/-! ## Quotes -/

theorem minimums_length (k : Platform) : (imageIds.flatMap fun i => leBytes 1 (Tbl.find 0 k.fuses i)).length = 4 := rfl

theorem quoteBody_length (k : Platform) (dev i : Nat) (nonce : BitVec 256) : (quoteBody k dev i nonce).length = 76 := by
  simp only [quoteBody, List.length_append, leBytes_length, minimums_length]

theorem quoteBody_nonce (k : Platform) (dev i : Nat) (nonce : BitVec 256) :
    leVal ((quoteBody k dev i nonce).take 32) = nonce.toNat := by
  simp only [quoteBody, List.append_assoc]
  rw [List.take_left' (leBytes_length _ _), leVal_leBytes]
  exact Nat.mod_eq_of_lt nonce.isLt

theorem quoteBody_manifest (k : Platform) (dev i : Nat) (nonce : BitVec 256) :
    leVal (((quoteBody k dev i nonce).drop 32).take 32) = k.manifestDigest.toNat := by
  simp only [quoteBody, List.append_assoc]
  rw [List.drop_left' (leBytes_length _ _), List.take_left' (leBytes_length _ _), leVal_leBytes]
  exact Nat.mod_eq_of_lt k.manifestDigest.isLt

theorem quoteBody_index (k : Platform) (dev i : Nat) (nonce : BitVec 256) :
    leVal ((quoteBody k dev i nonce).drop 72) = i % 2 ^ 32 := by
  rw [quoteBody, List.drop_left' (by simp only [List.length_append, leBytes_length, minimums_length]), leVal_leBytes]
  norm_num

/-- The index that a quote takes: the next of the block, or the first of a new one. -/
theorem reserve_spec (k : Platform) :
    k.reserve = { k with
      quoteNext := if k.quoteNext < k.quoteEnd then k.quoteNext else k.quoteCounter
      quoteCounter := if k.quoteNext < k.quoteEnd then k.quoteCounter else k.quoteCounter + 256
      quoteEnd := if k.quoteNext < k.quoteEnd then k.quoteEnd else k.quoteCounter + 256 } := by
  unfold Platform.reserve
  split <;> rfl

theorem giveQuote_exhausted {k : Platform} {devId : Nat} {nonce : BitVec 256} (h : 2 ^ 20 ≤ k.quoteCounter) :
    k.giveQuote devId nonce = { k with quote := none, exhausted := true } := if_pos h

theorem giveQuote_gives {k : Platform} {devId : Nat} {nonce : BitVec 256} (h : k.quoteCounter < 2 ^ 20) :
    k.giveQuote devId nonce = { k.reserve with
      quote := some (quoteBody k.reserve devId k.reserve.quoteNext nonce,
        Config.xmssSign k.reserve.quoteNext (quoteBody k.reserve devId k.reserve.quoteNext nonce))
      quoteNext := k.reserve.quoteNext + 1 } := if_neg (Nat.not_le.2 h)

theorem attestationRequest_spec (s : State) (nonce : BitVec 256) : Answers (exec (.attestationRequest nonce) s) fun t =>
    { t with plat := s.plat } = s ∧
    let k := s.plat
    (k.stage = .off ∨ k.stage = .verifying → t.plat = k) ∧
    (k.stage ≠ .off → k.stage ≠ .verifying →
      (2 ^ 20 ≤ k.quoteCounter → t.plat.quote = none ∧ t.plat.exhausted = true ∧ t.plat.quoteNext = k.quoteNext ∧
        t.plat.quoteCounter = k.quoteCounter) ∧
      (k.quoteCounter < 2 ^ 20 →
        let i := if k.quoteNext < k.quoteEnd then k.quoteNext else k.quoteCounter
        let body := quoteBody k s.fabric.devId i nonce
        t.plat.quote = some (body, Config.xmssSign i body) ∧ t.plat.quoteNext = i + 1 ∧
          t.plat.quoteCounter = (if k.quoteNext < k.quoteEnd then k.quoteCounter else k.quoteCounter + 256) ∧
          t.plat.quoteEnd = (if k.quoteNext < k.quoteEnd then k.quoteEnd else k.quoteCounter + 256))) := by
  refine ⟨_, rfl, rfl, fun h => if_pos h, fun h₁ h₂ => ?_⟩
  have hgive : s.plat.attest s.fabric.devId nonce = s.plat.giveQuote s.fabric.devId nonce := if_neg (not_or.2 ⟨h₁, h₂⟩)
  refine ⟨fun h => ?_, fun h => ?_⟩
  · rw [State.performPlat, hgive, giveQuote_exhausted h]
    exact ⟨rfl, rfl, rfl, rfl⟩
  · rw [State.performPlat, hgive, giveQuote_gives h, reserve_spec]
    exact ⟨rfl, rfl, rfl, rfl⟩

/-! ## Frequencies -/

theorem mhzGood_eq {f : Nat} : mhzGood f = true ↔ 900 ≤ f ∧ f ≤ 2700 ∧ f % 100 = 0 := decide_eq_true_iff

theorem tgt_target (k : Platform) (i f j : Nat) :
    (k.target i f).tgt j = if j = i ∧ i < 64 ∧ 900 ≤ f ∧ f ≤ 2700 ∧ f % 100 = 0 then f else k.tgt j := by
  unfold Platform.target
  by_cases hg : i < 64 ∧ mhzGood f = true
  · rw [if_pos hg, Platform.tgt, Tbl.find_put]
    have hf := mhzGood_eq.1 hg.2
    by_cases hj : j = i
    · rw [if_pos hj, if_pos ⟨hj, hg.1, hf⟩]
    · rw [if_neg hj, if_neg fun h => hj h.1]; rfl
  · rw [if_neg hg, if_neg fun h => hg ⟨h.2.1, mhzGood_eq.2 h.2.2⟩]

theorem cur_target (k : Platform) (i f j : Nat) : (k.target i f).cur j = k.cur j := by
  unfold Platform.target
  split <;> rfl

theorem change_tgt (k : Platform) (i f time j : Nat) : (k.change i f time).tgt j = k.tgt j := by
  unfold Platform.change
  split <;> rfl

theorem change_cur (k : Platform) (i f time j : Nat) : (k.change i f time).cur j = if j = i then f else k.cur j := by
  unfold Platform.change
  by_cases h : k.cur i = f
  · rw [if_pos h]
    split
    · next hj => rw [hj, h]
    · rfl
  · rw [if_neg h, Platform.cur, Tbl.find_put]; rfl

/-- A change stops the island's cores for at most 10 microseconds (R354). -/
theorem change_stop {k : Platform} {i f time : Nat} (h : k.cur i ≠ f) : ∃ x, time ≤ x ∧ x ≤ time + 27000 ∧
    (k.change i f time).cur i = f ∧ (k.change i f time).islandStop = Tbl.set k.islandStop i x := by
  refine ⟨time + Config.islandPause i time % 27001, Nat.le_add_right _ _, ?_, ?_, ?_⟩
  · exact Nat.add_le_add_left (Nat.le_of_lt_succ (Nat.mod_lt _ (by decide))) _
  · rw [change_cur, if_pos rfl]
  · rw [Platform.change, if_neg h]

theorem throttle_tgt (k : Platform) (i f time j : Nat) : (k.throttle i f time).tgt j = k.tgt j := by
  unfold Platform.throttle
  split
  · exact change_tgt _ _ _ _ _
  · rfl

theorem throttle_cur (k : Platform) (i f time j : Nat) : (k.throttle i f time).cur j =
    if j = i ∧ i < 64 ∧ 900 ≤ f ∧ f ≤ 2700 ∧ f % 100 = 0 ∧ f < k.tgt i ∧ f < k.cur i then f else k.cur j := by
  unfold Platform.throttle
  by_cases hg : i < 64 ∧ mhzGood f = true ∧ f < k.tgt i ∧ f < k.cur i
  · obtain ⟨hi, hf, ht, hc⟩ := hg
    obtain ⟨h₁, h₂, h₃⟩ := mhzGood_eq.1 hf
    rw [if_pos ⟨hi, hf, ht, hc⟩, change_cur]
    by_cases hj : j = i
    · rw [if_pos hj, if_pos ⟨hj, hi, h₁, h₂, h₃, ht, hc⟩]
    · rw [if_neg hj, if_neg fun h => hj h.1]
  · rw [if_neg hg, if_neg]
    rintro ⟨-, hi, h₁, h₂, h₃, ht, hc⟩
    exact hg ⟨hi, mhzGood_eq.2 ⟨h₁, h₂, h₃⟩, ht, hc⟩

/-- The step up of an island with matrix work under way. -/
def Platform.rise (k : Platform) (i time : Nat) : Platform :=
  { k.change i (Nat.min (k.tgt i) (k.cur i + 300)) time with islandStep := Tbl.set k.islandStep i time }

/-- FREQUENCY_STEP does one of four things. -/
theorem step_cases (k : Platform) (i : Nat) (busy : Bool) (time : Nat) :
    (64 ≤ i ∧ k.step i busy time = k) ∨
    (i < 64 ∧ (busy = false ∨ k.tgt i ≤ k.cur i) ∧ k.step i busy time = k.change i (k.tgt i) time) ∨
    (i < 64 ∧ busy = true ∧ k.cur i < k.tgt i ∧ (∃ x, Tbl.get? k.islandStep i = some x ∧ time < x + 54000) ∧ k.step i busy time = k) ∨
    (i < 64 ∧ busy = true ∧ k.cur i < k.tgt i ∧ (∀ x, Tbl.get? k.islandStep i = some x → x + 54000 ≤ time) ∧
      k.step i busy time = k.rise i time) := by
  unfold Platform.step
  split
  · next hi => exact .inl ⟨hi, rfl⟩
  next hi =>
  have hi := Nat.not_le.1 hi
  split
  · next hb =>
    obtain ⟨hb, hlt⟩ := Bool.and_eq_true_iff.1 hb
    have hlt := of_decide_eq_true hlt
    split
    · next x hx =>
      split
      · next ht => exact .inr (.inr (.inl ⟨hi, hb, hlt, ⟨x, hx, ht⟩, rfl⟩))
      · next ht => exact .inr (.inr (.inr ⟨hi, hb, hlt, fun y hy => Option.some.inj (hx.symm.trans hy) ▸ Nat.not_lt.1 ht, rfl⟩))
    · next hx => exact .inr (.inr (.inr ⟨hi, hb, hlt, fun y hy => by simp [hx] at hy, rfl⟩))
  · next hb =>
    refine .inr (.inl ⟨hi, ?_, rfl⟩)
    cases busy
    · exact .inl rfl
    · exact .inr (Nat.not_lt.1 fun h => hb (by rw [Bool.true_and]; exact decide_eq_true h))

theorem step_tgt (k : Platform) (i : Nat) (busy : Bool) (time j : Nat) : (k.step i busy time).tgt j = k.tgt j := by
  rcases step_cases k i busy time with ⟨-, h⟩ | ⟨-, -, h⟩ | ⟨-, -, -, -, h⟩ | ⟨-, -, -, -, h⟩ <;> rw [h]
  · exact change_tgt _ _ _ _ _
  · exact change_tgt _ _ _ _ _

theorem step_cur_other {i j : Nat} (hj : j ≠ i) (k : Platform) (busy : Bool) (time : Nat) : (k.step i busy time).cur j = k.cur j := by
  have other (f : Nat) : (k.change i f time).cur j = k.cur j := by rw [change_cur, if_neg hj]
  rcases step_cases k i busy time with ⟨-, h⟩ | ⟨-, -, h⟩ | ⟨-, -, -, -, h⟩ | ⟨-, -, -, -, h⟩ <;> rw [h]
  · exact other _
  · exact other _

theorem step_straight {k : Platform} {i : Nat} {busy : Bool} (time : Nat) (hi : i < 64) (hb : busy = false ∨ k.tgt i ≤ k.cur i) :
    (k.step i busy time).cur i = k.tgt i := by
  have bad (h₁ : busy = true) (h₂ : k.cur i < k.tgt i) : False := by
    rcases hb with hb | hb
    · exact Bool.false_ne_true (hb.symm.trans h₁)
    · exact Nat.not_lt.2 hb h₂
  rcases step_cases k i busy time with ⟨h, -⟩ | ⟨-, -, h⟩ | ⟨-, h₁, h₂, -⟩ | ⟨-, h₁, h₂, -⟩
  · exact absurd hi (Nat.not_lt.2 h)
  · rw [h, change_cur, if_pos rfl]
  · exact (bad h₁ h₂).elim
  · exact (bad h₁ h₂).elim

theorem step_busy {k : Platform} {i : Nat} (time : Nat) (hi : i < 64) (hlt : k.cur i < k.tgt i) :
    (∀ x, Tbl.get? k.islandStep i = some x → time < x + 54000 → k.step i true time = k) ∧
    ((∀ x, Tbl.get? k.islandStep i = some x → x + 54000 ≤ time) → k.step i true time = k.rise i time) := by
  rcases step_cases k i true time with ⟨h, -⟩ | ⟨-, h, -⟩ | ⟨-, -, -, ⟨x, hx, ht⟩, h⟩ | ⟨-, -, -, hx, h⟩
  · exact absurd hi (Nat.not_lt.2 h)
  · exact absurd hlt (Nat.not_lt.2 (h.resolve_left (by decide)))
  · exact ⟨fun _ _ _ => h, fun hall => absurd ht (Nat.not_lt.2 (hall x hx))⟩
  · exact ⟨fun x h₁ ht => absurd ht (Nat.not_lt.2 (hx x h₁)), fun _ => h⟩

/-- An event of power management takes place where the management cores run. -/
theorem managedPlat_eq (f : Platform → Platform) (s : State) :
    managedPlat f s = .next { s with plat := if s.managed = true then f s.plat else s.plat } := by
  unfold managedPlat
  split <;> rfl

theorem turnAt?_stopped {s : State} {c : Nat} (h : s.time < Tbl.find 0 s.plat.islandStop (islandOf (clusterOf c))) :
    s.turnAt? c = none := if_pos (decide_eq_true h)

theorem cycles_running {k : Platform} {i t0 t1 : Nat} (h : Tbl.find 0 k.islandStop i ≤ t0) (ht : t0 ≤ t1) :
    k.cycles i t0 t1 = t1 * k.cur i / 2700 - t0 * k.cur i / 2700 := by
  have hmax : Nat.max t0 (Tbl.find 0 k.islandStop i) = t0 := Nat.max_eq_left h
  have hmin : Nat.min t1 t0 = t0 := Nat.min_eq_right ht
  rw [Platform.cycles, hmax, hmin, islandCycles]

theorem cycles_stopped {k : Platform} {i t0 t1 : Nat} (ht : t0 ≤ t1) (h : t1 ≤ Tbl.find 0 k.islandStop i) : k.cycles i t0 t1 = 0 := by
  have hmax : Nat.max t0 (Tbl.find 0 k.islandStop i) = Tbl.find 0 k.islandStop i := Nat.max_eq_right (ht.trans h)
  have hmin : Nat.min t1 (Tbl.find 0 k.islandStop i) = t1 := Nat.min_eq_left h
  rw [Platform.cycles, hmax, hmin, islandCycles, Nat.sub_self]

/-- Settles O48: each operation of the keystone core and of power management is a function of the platform alone, and each of those
functions has its equation above. -/
theorem quotesAndFrequencies : Obligations.QuotesAndFrequencies := by
  refine ⟨fun s nonce _ => attestationRequest_spec s nonce, fun k dev i nonce => ⟨quoteBody_length k dev i nonce,
    quoteBody_nonce k dev i nonce, quoteBody_manifest k dev i nonce, quoteBody_index k dev i nonce⟩, ?_, ?_, ?_,
    fun s c => turnAt?_stopped, fun k i t0 t1 => cycles_running, fun k i t0 t1 => cycles_stopped, ?_⟩
  · refine fun s i f _ => ⟨_, managedPlat_eq _ s, rfl, ?_⟩
    cases s.managed
    · exact ⟨fun j => rfl, fun j => (if_neg fun h => Bool.false_ne_true h.1).symm⟩
    · exact ⟨cur_target s.plat i f, fun j => (tgt_target s.plat i f j).trans (by simp only [true_and])⟩
  · refine fun s i _ => ⟨_, rfl, rfl, step_tgt s.plat i _ s.time, fun j hj => step_cur_other hj s.plat _ s.time, fun hi => ⟨?_, ?_⟩⟩
    · exact step_straight s.time hi
    · intro hb hlt
      obtain ⟨hstay, hrise⟩ := step_busy s.time hi hlt
      have heq : (s.performPlat fun k => k.step i (s.islandBusy i) s.time).plat = s.plat.step i true s.time := by rw [hb] <;> rfl
      rw [heq]
      refine ⟨hstay, fun hx => ?_⟩
      rw [hrise hx]
      exact ⟨(change_cur _ _ _ _ _).trans (if_pos rfl), Tbl.get?_set_self _ _ _⟩
  · intro k i f time
    exact ⟨fun h => if_pos h, change_stop⟩
  · refine fun s i f _ => ⟨_, managedPlat_eq _ s, rfl, ?_⟩
    cases s.managed
    · exact ⟨fun j => rfl, fun j => (if_neg fun h => Bool.false_ne_true h.1).symm⟩
    · exact ⟨throttle_tgt s.plat i f s.time, fun j => (throttle_cur s.plat i f s.time j).trans (by simp only [true_and])⟩

end Machine
end Sys2Proof
end

section
/-! PROOF. Power-on, stages, recovery and minimum versions (25_bring_up.md R347 to R351, R353): O47. -/

namespace Sys2Proof
namespace Machine

open Safety

/-! ## The images of a set -/

/-- No two entries of a manifest have one ID. -/
def DistinctIds (l : List ManifestEntry) : Prop := ∀ e ∈ l, ∀ f ∈ l, e.id = f.id → e = f

theorem DistinctIds.tail {e : ManifestEntry} {l : List ManifestEntry} (h : DistinctIds (e :: l)) : DistinctIds l :=
  fun a ha b hb => h a (List.mem_cons_of_mem _ ha) b (List.mem_cons_of_mem _ hb)

/-- The version that runs under a number is that of its entry; without one, what was there. -/
theorem find_versions {l : List ManifestEntry} (h : DistinctIds l) (i : Nat) : ∀ m : Tbl Nat,
    Tbl.find 0 (l.foldl (fun m e => Tbl.put 0 m e.id.toNat e.version.toNat) m) i =
      match l.find? fun e => e.id.toNat == i with | some e => e.version.toNat | none => Tbl.find 0 m i := by
  induction l with
  | nil => exact fun m => rfl
  | cons e l ih =>
    intro m
    rw [List.foldl_cons, ih h.tail]
    by_cases he : e.id.toNat = i
    · have hfirst : (e :: l).find? (fun e => e.id.toNat == i) = some e := List.find?_cons_of_pos (beq_iff_eq.2 he)
      rw [hfirst]
      split
      · next f hf =>
        have hid : e.id = f.id := BitVec.eq_of_toNat_eq (he.trans (beq_iff_eq.1 (List.find?_some (p := fun e : ManifestEntry => e.id.toNat == i) hf)).symm)
        rw [h e (List.mem_cons_self ..) f (List.mem_cons_of_mem _ (List.mem_of_find?_eq_some hf)) hid]
      · rw [Tbl.find_put, if_pos he.symm]
    · have hlater : (e :: l).find? (fun e => e.id.toNat == i) = l.find? fun e => e.id.toNat == i :=
        List.find?_cons_of_neg fun hb => he (beq_iff_eq.1 hb)
      rw [hlater, Tbl.find_put, if_neg (Ne.symm he)]

theorem get?_loaded_of_absent {k : ImageSet} {i : Nat} (l : List ManifestEntry) : ∀ m : Tbl (List Byte), (∀ e ∈ l, e.id.toNat ≠ i) →
    Tbl.get? (l.foldl (fun m e => Tbl.set m e.id.toNat (setImage k e)) m) i = Tbl.get? m i := by
  induction l with
  | nil => exact fun m _ => rfl
  | cons f l ih =>
    intro m h
    rw [List.foldl_cons, ih _ fun e he => h e (List.mem_cons_of_mem _ he), Tbl.get?_set, if_neg (h f (List.mem_cons_self ..)).symm]

/-- The image that is loaded under an entry's ID is the entry's. -/
theorem get?_loaded {k : ImageSet} {e : ManifestEntry} {l : List ManifestEntry} (h : DistinctIds l) (he : e ∈ l) : ∀ m : Tbl (List Byte),
    Tbl.get? (l.foldl (fun m e => Tbl.set m e.id.toNat (setImage k e)) m) e.id.toNat = some (setImage k e) := by
  induction l with
  | nil => cases he
  | cons f l ih =>
    intro m
    rw [List.foldl_cons]
    by_cases hl : e ∈ l
    · exact ih h.tail hl _
    · obtain rfl : e = f := (List.mem_cons.1 he).resolve_right hl
      rw [get?_loaded_of_absent, Tbl.get?_set_self]
      intro g hg hid
      exact hl (h e he g (List.mem_cons_of_mem _ hg) (BitVec.eq_of_toNat_eq hid.symm) ▸ hg)

/-! ## The judgement of the flash -/

/-- A platform that starts to judge its flash: every quote and request gone, every island at 2.7 GHz. -/
def Platform.judging (k : Platform) : Platform :=
  { k.abandon with
    manifestDigest := Config.shake256 (setManifestBytes k.flash), quote := none, exhausted := false, recoveryPort := none,
    recoveryRequests := 0, request := none, versions := [], loaded := [], islandCur := [], islandTgt := [], islandStep := [],
    islandStop := [], stage := .verifying }

theorem boot_good {k : Platform} {time : Nat} (h : setGood k.fuses k.flash = true) : k.boot time = { k.judging with
    stage := .stage1, watchAt := time
    versions := (setManifest k.flash).foldl (fun m e => Tbl.put 0 m e.id.toNat e.version.toNat) []
    loaded := (setManifest k.flash).foldl (fun m e => Tbl.set m e.id.toNat (setImage k.flash e)) [] } := if_pos h

theorem boot_bad {k : Platform} {time : Nat} (h : setGood k.fuses k.flash = false) : k.boot time = k.judging.recover time :=
  if_neg (ne_true_of_eq_false h)

theorem boot_cases {P : Platform → Prop} {k : Platform} {time : Nat} (hg : setGood k.fuses k.flash = true → P (k.boot time))
    (hb : setGood k.fuses k.flash = false → P (k.boot time)) : P (k.boot time) := by
  cases h : setGood k.fuses k.flash
  · exact hb h
  · exact hg h

/-- What the flash and the fuses hold stays (R353), and every island runs at 2.7 GHz. -/
theorem boot_keeps (k : Platform) (time : Nat) : (k.boot time).flash = k.flash ∧ (k.boot time).fuses = k.fuses ∧
    (k.boot time).quoteCounter = k.quoteCounter ∧ ∀ i, (k.boot time).cur i = 2700 ∧ (k.boot time).tgt i = 2700 := by
  refine boot_cases (P := fun l => l.flash = k.flash ∧ l.fuses = k.fuses ∧ l.quoteCounter = k.quoteCounter ∧
    ∀ i, l.cur i = 2700 ∧ l.tgt i = 2700) (fun h => ?_) fun h => ?_
  · rw [boot_good h]; exact ⟨rfl, rfl, rfl, fun i => ⟨rfl, rfl⟩⟩
  · rw [boot_bad h]; exact ⟨rfl, rfl, rfl, fun i => ⟨rfl, rfl⟩⟩

theorem after_reset (s : State) (k : Platform) :
    { s.after k with plat := State.reset.plat, free := State.reset.free, agenda := [], ticks := [] } = State.reset := rfl

theorem powerOn_spec (s : State) (h : s.plat.stage = .off ∨ s.plat.stage = .verifying) : Answers (exec .powerOn s) fun t =>
    { t with plat := State.reset.plat, free := State.reset.free, agenda := [], ticks := [] } = State.reset ∧
    t.plat.flash = s.plat.flash ∧ t.plat.fuses = s.plat.fuses ∧ t.plat.quoteCounter ≥ s.plat.quoteCounter ∧
    (setGood s.plat.fuses s.plat.flash = true → t.plat.stage = .stage1 ∧
      (DistinctIds (setManifest s.plat.flash) →
        (∀ i, Tbl.find 0 t.plat.versions i =
          match (setManifest s.plat.flash).find? fun e => e.id.toNat == i with | some e => e.version.toNat | none => 0) ∧
        ∀ e ∈ setManifest s.plat.flash, Tbl.get? t.plat.loaded e.id.toNat = some (setImage s.plat.flash e))) ∧
    (setGood s.plat.fuses s.plat.flash = false → t.plat.stage = .recovery ∧ t.plat.versions = [] ∧ t.plat.loaded = [] ∧
      t.plat.recoveryPort = some 0 ∧ t.plat.request = none ∧ t.plat.recoveryRequests = 0) ∧
    (∀ i, t.plat.cur i = 2700 ∧ t.plat.tgt i = 2700) := by
  refine ⟨_, congrArg Host.Outcome.next (if_pos h), after_reset _ _, ?_⟩
  show (s.plat.boot 0).flash = _ ∧ _
  obtain ⟨hflash, hfuses, hcount, hrate⟩ := boot_keeps s.plat 0
  refine ⟨hflash, hfuses, hcount.ge, fun hg => ?_, fun hb => ?_, hrate⟩
  · show (s.plat.boot 0).stage = _ ∧ (_ → (∀ i, Tbl.find 0 (s.plat.boot 0).versions i = _) ∧
      ∀ e ∈ _, Tbl.get? (s.plat.boot 0).loaded _ = _)
    rw [boot_good hg]
    refine ⟨rfl, fun hd => ⟨fun i => (find_versions hd i []).trans ?_, fun e he => get?_loaded hd he []⟩⟩
    split <;> rfl
  · show (s.plat.boot 0).stage = _ ∧ (s.plat.boot 0).versions = _ ∧ (s.plat.boot 0).loaded = _ ∧
      (s.plat.boot 0).recoveryPort = _ ∧ (s.plat.boot 0).request = _ ∧ (s.plat.boot 0).recoveryRequests = _
    rw [boot_bad hb]
    exact ⟨rfl, rfl, rfl, rfl, rfl, rfl⟩

/-! ## Stages -/

theorem ready_first {k : Platform} (h : k.stage = .stage1) : k.ready 1 = { k.raiseFuses with stage := .stage2 } := by
  simp only [Platform.ready, h]

theorem ready_second {k : Platform} (h : k.stage = .stage2) : k.ready 2 = { k with stage := .stage3 } := by
  simp only [Platform.ready, h]

theorem ready_third {k : Platform} (h : k.stage = .stage3) : k.ready 3 = { k with stage := .running } := by
  simp only [Platform.ready, h]

/-- A report that is no stage's own has no effect. -/
theorem ready_other {k : Platform} {n : Nat} (h₁ : ¬ (k.stage = .stage1 ∧ n = 1)) (h₂ : ¬ (k.stage = .stage2 ∧ n = 2))
    (h₃ : ¬ (k.stage = .stage3 ∧ n = 3)) : k.ready n = k := by
  unfold Platform.ready
  split
  · next h => exact absurd ⟨h, rfl⟩ h₁
  · next h => exact absurd ⟨h, rfl⟩ h₂
  · next h => exact absurd ⟨h, rfl⟩ h₃
  · rfl

theorem ready_stage (k : Platform) (n : Nat) : (k.ready n).stage = match k.stage, n with
    | .stage1, 1 => .stage2
    | .stage2, 2 => .stage3
    | .stage3, 3 => .running
    | x, _ => x := by
  by_cases h₁ : k.stage = .stage1 ∧ n = 1
  · obtain ⟨h, rfl⟩ := h₁
    simp only [ready_first h, h]
  by_cases h₂ : k.stage = .stage2 ∧ n = 2
  · obtain ⟨h, rfl⟩ := h₂
    simp only [ready_second h, h]
  by_cases h₃ : k.stage = .stage3 ∧ n = 3
  · obtain ⟨h, rfl⟩ := h₃
    simp only [ready_third h, h]
  rw [ready_other h₁ h₂ h₃]
  split
  · next h => exact absurd ⟨h, rfl⟩ h₁
  · next h => exact absurd ⟨h, rfl⟩ h₂
  · next h => exact absurd ⟨h, rfl⟩ h₃
  · rfl

theorem raiseFuses_spec (k : Platform) {i : Nat} (hi : i ∈ imageIds) : Tbl.find 0 k.raiseFuses.fuses i =
    if (imageIds.all fun j => decide (Tbl.find 0 k.fuses j < Tbl.find 0 k.versions j)) = true then Tbl.find 0 k.versions i
    else Tbl.find 0 k.fuses i := by
  unfold Platform.raiseFuses
  split
  · rw [find_raised, if_pos hi]
  · rfl

theorem ready_fuses_later {k : Platform} {n : Nat} (h : ¬ (k.stage = .stage1 ∧ n = 1)) : (k.ready n).fuses = k.fuses := by
  unfold Platform.ready
  split
  · next h₁ => exact absurd ⟨h₁, rfl⟩ h
  · rfl
  · rfl
  · rfl

/-- The minimum versions rise at the first stage's report alone (R350). -/
theorem ready_fuses (k : Platform) (n : Nat) {i : Nat} (hi : i ∈ imageIds) : Tbl.find 0 (k.ready n).fuses i =
    if k.stage = .stage1 ∧ n = 1 ∧ (imageIds.all fun j => decide (Tbl.find 0 k.fuses j < Tbl.find 0 k.versions j)) = true
    then Tbl.find 0 k.versions i else Tbl.find 0 k.fuses i := by
  by_cases h : k.stage = .stage1 ∧ n = 1
  · obtain ⟨hs, rfl⟩ := h
    rw [ready_first hs]
    refine (raiseFuses_spec k hi).trans ?_
    simp only [hs, true_and]
  · rw [ready_fuses_later h, if_neg fun g => h ⟨g.1, g.2.1⟩]

/-! ## Recovery -/

theorem giveQuote_keeps (k : Platform) (devId : Nat) (nonce : BitVec 256) :
    (k.giveQuote devId nonce).stage = k.stage ∧ (k.giveQuote devId nonce).recoveryRequests = k.recoveryRequests := by
  rcases Nat.lt_or_ge k.quoteCounter (2 ^ 20) with h | h
  · rw [giveQuote_gives h, reserve_spec]; exact ⟨rfl, rfl⟩
  · rw [giveQuote_exhausted h]; exact ⟨rfl, rfl⟩

/-- A recovery request that was sent at `time` (R351). -/
structure Requested (k l : Platform) (time : Nat) : Prop where
  stage : l.stage = .recovery
  count : l.recoveryRequests = k.recoveryRequests + 1
  at_ : l.askedAt = time
  request : ∃ body sign, l.request = some (Config.identityDigest, body, sign)

theorem askRecovery_requested {k : Platform} (h : k.stage = .recovery) (devId time : Nat) : Requested k (k.askRecovery devId time) time where
  stage := (giveQuote_keeps k devId _).1.trans h
  count := congrArg (· + 1) (giveQuote_keeps k devId _).2
  at_ := rfl
  request := ⟨_, _, rfl⟩

theorem recoveryLink_iff {s : State} :
    s.recoveryLink = true ↔ ∃ p, s.plat.recoveryPort = some p ∧ (s.fabric.link (24 + p)).up = true := by
  unfold State.recoveryLink
  cases h : s.plat.recoveryPort with
  | none => exact ⟨fun hf => absurd hf Bool.false_ne_true, fun ⟨p, hp, _⟩ => nomatch hp⟩
  | some q =>
    refine ⟨fun hu => ⟨q, rfl, hu⟩, ?_⟩
    rintro ⟨p, hp, hu⟩
    obtain rfl := Option.some.inj hp
    exact hu

theorem recoveryRetry_spec (s : State) : Answers (exec .recoveryRetry s) fun t => { t with plat := s.plat } = s ∧
    let due := s.plat.stage = .recovery ∧ (∃ p, s.plat.recoveryPort = some p ∧ (s.fabric.link (24 + p)).up = true) ∧
      (s.plat.request = none ∨ s.plat.askedAt + 10 * 2700000000 ≤ s.time)
    (due → Requested s.plat t.plat s.time) ∧ (¬due → t.plat = s.plat) := by
  refine ⟨_, rfl, rfl, fun h => ?_, fun h => ?_⟩
  · obtain ⟨hs, hp, hr⟩ := h
    have heq := (if_pos ⟨hs, recoveryLink_iff.2 hp, hr⟩ : (if s.plat.stage = .recovery ∧ s.recoveryLink = true ∧
      (s.plat.request = none ∨ s.plat.askedAt + 10 * cyclesPerSec ≤ s.time) then s.plat.askRecovery s.fabric.devId s.time else s.plat) = _)
    rw [State.performPlat, heq]
    exact askRecovery_requested hs _ _
  · exact if_neg fun ⟨hs, hp, hr⟩ => h ⟨hs, recoveryLink_iff.1 hp, hr⟩

theorem portTrained_other {k : Platform} {port p time devId : Nat} (hp : k.recoveryPort = some p) (hne : port ≠ 24 + p) :
    k.portTrained port time devId = k := by
  refine if_neg fun h => hne ?_
  have he := h.2.1
  rw [hp, Option.map_some] at he
  exact (Option.some.inj he).symm.trans (Nat.add_comm _ _)

theorem managed_recovery {s : State} (h : s.plat.stage = .recovery) : s.managed = false := by
  rw [State.managed, h]
  rfl

/-- In recovery only the recovery port trains (R351). -/
theorem linkTrain_other {s : State} {port p : Nat} (h : s.plat.stage = .recovery) (hp : s.plat.recoveryPort = some p)
    (hne : port ≠ 24 + p) : s.linkTrain port = s := by
  unfold State.linkTrain
  split
  · rfl
  · refine if_pos (.inr ?_)
    have hport : decide (s.plat.recoveryPort.map (· + 24) = some port) = false := by
      rw [hp, Option.map_some]
      exact decide_eq_false fun he => hne ((Option.some.inj he).symm.trans (Nat.add_comm _ _))
    rw [managed_recovery h, hport, Bool.and_false]
    rfl

theorem linkTraining_eq {s : State} (port : Nat) (h : s.wr = []) : exec (.linkTraining port) s =
    .next ((State.settleMem { s.linkTrain port with mem := s.mem, plat := s.plat }).performPlat fun k =>
      k.portTrained port s.time s.fabric.devId) := by
  show execLinkTraining port s = _
  rw [execLinkTraining, State.perform_fresh _ s h]

theorem linkTraining_other {s : State} {port p : Nat} (hw : s.wr = []) (h : s.plat.stage = .recovery) (hp : s.plat.recoveryPort = some p)
    (hne : port ≠ 24 + p) : Occurs (.linkTraining port) s s := by
  rw [Occurs, linkTraining_eq port hw, linkTrain_other h hp hne]
  refine congrArg Host.Outcome.next ?_
  show State.performPlat _ _ = _
  rw [State.performPlat, show (State.settleMem { s with mem := s.mem, plat := s.plat }).plat = s.plat from rfl, portTrained_other hp hne]
  rfl

theorem link_setLink (f : Fabric) (port : Nat) (l : Link) : (f.setLink port l).link port = l := by
  rw [Fabric.link, Fabric.setLink, Tbl.get?_set_self]
  rfl

/-- The recovery port's link comes up; nothing waits for it. -/
theorem linkTrain_recovery {s : State} {p : Nat} (h : s.plat.stage = .recovery) (hp : s.plat.recoveryPort = some p) (hlt : p < 2)
    (hd : (s.fabric.link (24 + p)).up = false) (he : s.fabric.egress = []) :
    s.linkTrain (24 + p) = { s with fabric := s.fabric.setLink (24 + p) { up := true } } := by
  unfold State.linkTrain
  have hport : decide (s.plat.recoveryPort.map (· + 24) = some (24 + p)) = true := by
    rw [hp, Option.map_some, Nat.add_comm]
    exact decide_eq_true rfl
  have hstage : decide (s.plat.stage = .recovery) = true := decide_eq_true h
  have hgo : ¬ (26 ≤ 24 + p ∨ (!(s.managed || (decide (s.plat.stage = .recovery) &&
      decide (s.plat.recoveryPort.map (· + 24) = some (24 + p))))) = true) := by
    rw [hstage, hport, Bool.and_true, Bool.or_true]
    rintro (hb | hb)
    · omega
    · exact Bool.false_ne_true hb
  rw [if_neg (ne_true_of_eq_false hd), if_neg hgo, State.pump]
  show State.pumpPort _ s.fabric.egress.length _ = _
  rw [he]
  rfl

theorem linkTraining_recovery {s : State} {p : Nat} (hw : s.wr = []) (h : s.plat.stage = .recovery) (hp : s.plat.recoveryPort = some p)
    (hlt : p < 2) (hr : s.plat.request = none) (hd : (s.fabric.link (24 + p)).up = false) (he : s.fabric.egress = []) :
    Answers (exec (.linkTraining (24 + p)) s) fun t =>
      (t.fabric.link (24 + p)).up = true ∧ Requested s.plat t.plat s.time := by
  refine ⟨_, linkTraining_eq _ hw, ?_⟩
  rw [linkTrain_recovery h hp hlt hd he]
  have hask : s.plat.portTrained (24 + p) s.time s.fabric.devId = s.plat.askRecovery s.fabric.devId s.time :=
    if_pos ⟨h, by rw [hp, Option.map_some, Nat.add_comm], hr⟩
  refine ⟨congrArg Link.up (link_setLink _ _ _), ?_⟩
  show Requested s.plat (s.plat.portTrained (24 + p) s.time s.fabric.devId) s.time
  rw [hask]
  exact askRecovery_requested h _ _

theorem mayAnswer_iff {s : State} : s.mayAnswer = true ↔ s.plat.stage = .recovery ∧ s.plat.request ≠ none ∧ s.plat.answered = false ∧
    ∃ p, s.plat.recoveryPort = some p ∧ (s.fabric.link (24 + p)).up = true := by
  simp only [State.mayAnswer, Bool.and_eq_true, decide_eq_true_eq, recoveryLink_iff, Bool.not_eq_true', Option.isSome_iff_ne_none]
  constructor
  · rintro ⟨⟨⟨hs, hl⟩, hr⟩, ha⟩
    exact ⟨hs, hr, ha, hl⟩
  · rintro ⟨hs, hr, ha, hl⟩
    exact ⟨⟨⟨hs, hl⟩, hr⟩, ha⟩

theorem setGood_iff {fuses : Tbl Nat} {set : ImageSet} :
    setGood fuses set = true ↔ manifestGood fuses set = true ∧ imagesGood set = true := Bool.and_eq_true_iff

theorem recoveryAnswer_refused {s : State} {set : ImageSet} (h : ¬ (s.mayAnswer = true ∧ manifestGood s.plat.fuses set = true)) :
    exec (.recoveryAnswer set) s = .next s := congrArg Host.Outcome.next (if_neg h)

theorem recoveryAnswer_bad {s : State} {set : ImageSet} (h : s.mayAnswer = true) (hm : manifestGood s.plat.fuses set = true)
    (hi : imagesGood set = false) :
    exec (.recoveryAnswer set) s = .next { s with plat := { s.plat with answered := true } } :=
  congrArg Host.Outcome.next ((if_pos ⟨h, hm⟩).trans (if_neg (ne_true_of_eq_false hi)))

theorem recoveryAnswer_good {s : State} {set : ImageSet} (h : s.mayAnswer = true) (hg : setGood s.plat.fuses set = true) :
    exec (.recoveryAnswer set) s = .next (s.restart { s.plat with flash := set }) :=
  congrArg Host.Outcome.next ((if_pos ⟨h, (setGood_iff.1 hg).1⟩).trans (if_pos (setGood_iff.1 hg).2))

theorem recoveryAnswer_restarts {s : State} {set : ImageSet} (h : s.mayAnswer = true) (hg : setGood s.plat.fuses set = true) :
    Answers (exec (.recoveryAnswer set) s) fun t =>
      { t with plat := State.reset.plat, free := State.reset.free, agenda := [], ticks := [] } = State.reset ∧
      t.plat.flash = set ∧ t.plat.stage = .stage1 ∧ t.plat.fuses = s.plat.fuses := by
  refine ⟨_, recoveryAnswer_good h hg, after_reset _ _, ?_⟩
  obtain ⟨hflash, hfuses, -, -⟩ := boot_keeps { s.plat with flash := set } 0
  refine ⟨hflash, ?_, hfuses⟩
  exact congrArg Platform.stage (boot_good (k := { s.plat with flash := set }) (time := 0) hg)

theorem watchdogExpiry_spec (s : State) : Answers (exec .watchdogExpiry s) fun t => { t with plat := s.plat } = s ∧
    (s.plat.stage.up = false ∨ s.time < s.plat.watchAt + 270000000 → t.plat = s.plat) ∧
    (s.plat.stage.up = true → s.plat.watchAt + 270000000 ≤ s.time → t.plat = s.plat.recover s.time) := by
  refine ⟨_, rfl, rfl, fun h => if_neg ?_, fun hu ht => if_pos ?_⟩
  · rw [Bool.and_eq_true]
    rintro ⟨hu, ht⟩
    rcases h with h | h
    · exact Bool.false_ne_true (h.symm.trans hu)
    · exact Nat.not_lt.2 (of_decide_eq_true ht) h
  · rw [Bool.and_eq_true]
    exact ⟨hu, decide_eq_true ht⟩

/-- Settles O47, event by event. -/
theorem bringUp : Obligations.BringUp := by
  refine ⟨fun s h => powerOn_spec s h, fun s h₁ h₂ => ⟨s, congrArg Host.Outcome.next (if_neg (not_or.2 ⟨h₁, h₂⟩)), rfl⟩,
    fun s n _ => ⟨_, rfl, rfl, ready_stage s.plat n, fun i hi => ready_fuses s.plat n hi⟩,
    fun s _ => watchdogExpiry_spec s, fun s _ => ⟨_, rfl, rfl⟩, ?_, ?_,
    fun s port p hw h hp hne => linkTraining_other hw h hp hne, ?_,
    fun s => ⟨_, rfl, after_reset _ _, rfl, rfl, rfl, rfl, rfl⟩⟩
  · intro s _
    obtain ⟨t, ht, hs, hdue, hnot⟩ := recoveryRetry_spec s
    exact ⟨t, ht, hs, fun h => ⟨(hdue h).stage, (hdue h).count, (hdue h).at_, (hdue h).request⟩, hnot⟩
  · intro s p hw h hp hlt hr hd he
    obtain ⟨t, ht, hup, ha⟩ := linkTraining_recovery hw h hp hlt hr hd he
    exact ⟨t, ht, hup, ha.stage, ha.count, ha.at_, ha.request⟩
  · intro s set
    refine ⟨fun h => recoveryAnswer_refused ?_, fun hs ha hm hi => recoveryAnswer_bad (mayAnswer_iff.2 ⟨hs, ha⟩) hm hi,
      fun hs ha hg => recoveryAnswer_restarts (mayAnswer_iff.2 ⟨hs, ha⟩) hg⟩
    rintro ⟨hmay, hm⟩
    obtain ⟨hs, ha⟩ := mayAnswer_iff.1 hmay
    rcases h with h | h | h
    · exact h hs
    · exact h ha
    · exact Bool.false_ne_true (h.symm.trans hm)

end Machine
end Sys2Proof
end

section
/-! PROOF. Reductions, multicasts and soft errors of the mortar plane (17_mortar_plane.md R258, R267, R282, R283): O41. -/

namespace Sys2Proof
namespace Machine

open Safety

/-! ## What a near release leaves -/

theorem nearNow_ctxs (s : State) (c : Nat) (e : Entry) : (s.nearNow c e).ctxs = s.ctxs := by
  unfold State.nearNow
  split <;> rfl

theorem nearNow_parts (s : State) (c : Nat) (e : Entry) : (s.nearNow c e).parts = s.parts := by
  unfold State.nearNow
  split <;> rfl

theorem launch?_of_ctxs {s t : State} (h : t.ctxs = s.ctxs) (l : LaunchId) : t.launch? l = s.launch? l := by
  rw [State.launch?, State.ctx, h]
  rfl

theorem inGang_of_parts {s t : State} (h : t.parts = s.parts) (c : Nat) (l : Launch) : t.inGang c l = s.inGang c l := by
  rw [State.inGang, corePart?_of_parts h, State.inGang]
  split
  · rw [part_of_parts h]
  · rfl

/-! ## Generations and multicasts (R282, R283) -/

/-- Every gang core has contributed to a generation. -/
def wholeGang (gang : List Nat) (g : Nat × List Contribution) : Bool := gang.all fun c => g.2.any fun x => x.core == c

section
variable {s : State} {l : LaunchId} {k : Launch} {pn : Nat}

theorem closeTrrd_none (hk : s.launch? l = some k) (hp : s.residentIn? l.ctx = some pn)
    (h : k.gens.find? (wholeGang (gangCores (s.part pn) k.rcd)) = none) : s.closeTrrd l = s := by
  unfold wholeGang at h
  simp only [State.closeTrrd, hk, hp, h]

/-- Cores that name one operation, which is no sum of f32 words, get the result of the tree. -/
theorem trrdResult_same {t : Trellis} {p : Partition} {root op : Nat} {cs : List Contribution} (h8 : op ≠ 8) (hop : ∀ c ∈ cs, c.op = op)
    (hne : cs ≠ []) : s.trrdResult t p root cs = ((trrdNode op t p root cs (p.cap + 1) root).getD 0, s) := by
  obtain ⟨x, r, rfl⟩ := List.exists_cons_of_ne_nil hne
  have hx : ((x :: r).head?.map (·.op)).getD 0 = op := hop x (List.mem_cons_self ..)
  have hall : ((x :: r).all fun c => c.op == op) = true := List.all_eq_true.2 fun c hc => beq_iff_eq.2 (hop c hc)
  simp only [State.trrdResult, hx, hall, if_true, if_neg h8]

theorem closeTrrd_some {g op : Nat} {cs : List Contribution} (hk : s.launch? l = some k) (hp : s.residentIn? l.ctx = some pn)
    (h : k.gens.find? (wholeGang (gangCores (s.part pn) k.rcd)) = some (g, cs)) (h8 : op ≠ 8) (hop : ∀ c ∈ cs, c.op = op)
    (hne : cs ≠ []) : s.closeTrrd l = (gangCores (s.part pn) k.rcd).foldl (fun u c =>
        match cs.find? fun x => x.core == c with
        | some x => u.startBy c x.cls x.prio ⟨(trrdNode op k.trellis (s.part pn) (trellisRoot (s.part pn) k.rcd) cs
              ((s.part pn).cap + 1) (trellisRoot (s.part pn) k.rcd)).getD 0, BitVec.ofNat 64 g, BitVec.ofNat 64 cs.length,
              BitVec.ofNat 64 (s.part pn).det.round⟩ [] (some l) (some ⟨.reduction g, .device pn, (s.part pn).det.round⟩)
        | none => u) (s.setLaunch l { k with gens := Tbl.del k.gens g, closed := k.closed ++ [(g, (s.part pn).det.round, cs)] }) := by
  unfold wholeGang at h
  simp only [State.closeTrrd, hk, hp, h, trrdResult_same h8 hop hne] <;> rfl

theorem deliverTrmc_none (hk : s.launch? l = some k) (hp : s.residentIn? l.ctx = some pn) (h : k.trmc = []) : s.deliverTrmc l = s := by
  simp only [State.deliverTrmc, hk, hp, h]

theorem deliverTrmc_some {cls : Nat} {q : Quad} {prio : Nat} {rest : List (Nat × Quad × Nat)} (hk : s.launch? l = some k)
    (hp : s.residentIn? l.ctx = some pn) (h : k.trmc = (cls, q, prio) :: rest) : s.deliverTrmc l =
      (gangCores (s.part pn) k.rcd).foldl (fun u c =>
        u.startBy c cls prio q (leBytes 8 (s.part pn).det.round) (some l) (some ⟨.multicast, .device pn, (s.part pn).det.round⟩))
      (s.setLaunch l { k with trmc := rest, trmcSent := k.trmcSent ++ [((s.part pn).det.round, (cls, q, prio))] }) := by
  simp only [State.deliverTrmc, hk, hp, h] <;> rfl

end

theorem trrdNode_leaf {op : Nat} {t : Trellis} {p : Partition} {root : Nat} {cs : List Contribution} {fuel k : Nat}
    (h : t.children p root k = []) : trrdNode op t p root cs (fuel + 1) k =
      trrdFold op ((coresOf k).filterMap fun c => (cs.find? fun x => x.core == c).map (·.v)) := by
  simp only [trrdNode, h, List.filterMap_nil, List.append_nil]

/-! ## Drained contributions and multicasts -/

section
variable {s : State} {c : Nat} {e : Entry}

theorem mortarPerform_some {t : State} (hm : (s.core c).mayMortar e = true) (hn : s.mayNear c e = true)
    (h : (s.nearNow c e).mortarEffect c e = some t) : s.mortarPerform c e = t.land c e.id := by
  rw [State.mortarPerform, hm, hn, Bool.and_self, if_pos rfl, h]

theorem mortarPerform_none (h : (s.nearNow c e).mortarEffect c e = none) : s.mortarPerform c e = s := by
  rw [State.mortarPerform, h]
  exact ite_self s

theorem mortarPerform_waits (h : (s.core c).mayMortar e = false ∨ s.mayNear c e = false) : s.mortarPerform c e = s := by
  refine if_neg fun hb => ?_
  obtain ⟨h₁, h₂⟩ := Bool.and_eq_true_iff.1 hb
  rcases h with h | h
  · exact Bool.false_ne_true (h.symm.trans h₁)
  · exact Bool.false_ne_true (h.symm.trans h₂)

theorem mortarWaitEnd_waits {sel : Act → Bool} {k : Nat} (hf : s.flying? c k = some e)
    (h : (s.core c).mayMortar e = false ∨ s.mayNear c e = false) : s.mortarWaitEnd sel c k = s := by
  simp only [State.mortarWaitEnd, hf, mortarPerform_waits h]
  exact ite_self s

theorem mortarWaitEnd_selected {sel : Act → Bool} {k : Nat} (hf : s.flying? c k = some e) (h : sel e.act = true) :
    s.mortarWaitEnd sel c k = s.mortarPerform c e := by
  simp only [State.mortarWaitEnd, hf, h, if_true]

variable {i : LaunchId} {l : Launch}

theorem mortarEffect_trrd {g op cls : Nat} {v : W64} (he : e.launch = some i) (hl : s.launch? i = some l) (ha : e.act = .trrd g v op cls) :
    s.mortarEffect c e = if !s.inGang c l then some s else if l.trrdRoom g then
      some (s.setLaunch i { l with gens := Tbl.set l.gens g (Tbl.find [] l.gens g ++ [⟨c, v, op, cls, e.prio⟩]) }) else none := by
  simp only [State.mortarEffect, ha, he, Option.bind_some, hl]

theorem mortarEffect_trmc {cls : Nat} {q : Quad} (he : e.launch = some i) (hl : s.launch? i = some l) (ha : e.act = .trmc cls q) :
    s.mortarEffect c e = if l.trmc.isEmpty then some (s.setLaunch i { l with trmc := [(cls, q, e.prio)] }) else none := by
  simp only [State.mortarEffect, ha, he, Option.bind_some, hl]

end

/-! ## Soft errors (R258) -/

theorem getLsbD_flip (x : W64) (b j : Nat) : (x ^^^ (1#64 <<< b)).getLsbD j = if j = b ∧ j < 64 then !x.getLsbD j else x.getLsbD j := by
  rw [BitVec.getLsbD_xor, BitVec.getLsbD_shiftLeft, BitVec.getLsbD_one]
  by_cases h : j = b ∧ j < 64
  · obtain ⟨rfl, hj⟩ := h
    simp [hj]
  · rw [if_neg h]
    have hoff : (decide (j < 64) && !decide (j < b) && (decide (0 < 64) && decide (j - b = 0))) = false := by
      rw [Bool.eq_false_iff]
      simp only [ne_eq, Bool.and_eq_true, decide_eq_true_eq, Bool.not_eq_true', decide_eq_false_iff_not]
      omega
    rw [hoff, Bool.xor_false]

theorem getLsbD_softError_greg {s : State} {c n : Nat} {r : Reg} (b i j : Nat) (hr : r ≠ 0) :
    (Tbl.find 0 ((s.softError (.greg c n r b)).slot c n).g i).getLsbD j =
      if i = r.toNat ∧ j = b ∧ j < 64 then !(Tbl.find 0 (s.slot c n).g i).getLsbD j else (Tbl.find 0 (s.slot c n).g i).getLsbD j := by
  have hs : s.softError (.greg c n r b) = s.modSlot c n fun t =>
      { t with g := Tbl.put 0 t.g r.toNat (Tbl.find 0 t.g r.toNat ^^^ (1#64 <<< b)) } := if_neg hr
  rw [hs, State.slot_modSlot_self, Tbl.find_put]
  by_cases hi : i = r.toNat
  · rw [if_pos hi, getLsbD_flip, hi]
    simp only [true_and]
  · rw [if_neg hi, if_neg fun h => hi h.1]

theorem mem_softError_greg {s : State} {c n b : Nat} {r : Reg} (hr : r ≠ 0) : (s.softError (.greg c n r b)).mem = s.mem := by
  rw [State.softError, if_neg hr]
  rfl

theorem occurs_softError {s : State} (t : SoftTarget) (hw : s.wr = []) : Occurs (.softError t) s (s.softError t) :=
  occurs_event (j := .softError t) rfl hw

/-- Settles O41: generations close or wait (`closeTrrd_some`, `closeTrrd_none`), multicasts are delivered in turn, and a soft error changes one bit. -/
theorem reductionsAndMulticasts : Obligations.ReductionsAndMulticasts := by
  refine ⟨?_, fun op t p root cs fuel k => trrdNode_leaf, ?_, ?_, ?_, ?_, ?_⟩
  · intro s ctx lid k pn hw hk hp l p gang whole
    have hclose := occurs_event (j := .trrdGenerationClose ctx lid) rfl hw
    have hsend := occurs_event (j := .trmcDelivery ctx lid) rfl hw
    refine ⟨fun h => ?_, fun g cs op h h8 hop hne => ?_, fun h => ?_, fun cls q prio rest h => ?_⟩
    · rwa [closeTrrd_none hk hp h] at hclose
    · rwa [closeTrrd_some hk hp h h8 hop hne] at hclose
    · rwa [deliverTrmc_none hk hp h] at hsend
    · rwa [deliverTrmc_some hk hp h] at hsend
  · intro s c k e l i hw hf hm hn he hl z
    have hlz : z.launch? i = some l := (launch?_of_ctxs (nearNow_ctxs s c e) i).trans hl
    have hgang : z.inGang c l = s.inGang c l := inGang_of_parts (nearNow_parts s c e) c l
    refine ⟨fun g v op cls ha => ?_, fun cls q ha => ?_⟩
    · have ho := occurs_event (j := .trrdDrainWaitEnd c k) rfl hw
      rw [mortarWaitEnd_selected hf (by rw [ha])] at ho
      have heff := mortarEffect_trrd (c := c) he hlz ha
      rw [hgang] at heff
      refine ⟨fun hg => ?_, fun hg hroom => ?_, fun hg hroom => ?_⟩
      · rwa [mortarPerform_some hm hn (heff.trans (if_pos (by rw [hg]; rfl)))] at ho
      · have hr : l.trrdRoom g = true := by rw [Launch.trrdRoom, Bool.or_eq_true, decide_eq_true_eq]; exact hroom
        rwa [mortarPerform_some hm hn (heff.trans ((if_neg (by rw [hg]; decide)).trans (if_pos hr)))] at ho
      · have hr : ¬ l.trrdRoom g = true := by
          rw [Launch.trrdRoom, hroom.1, Bool.or_eq_true, decide_eq_true_eq]
          exact fun h => h.elim Bool.false_ne_true (Nat.not_lt.2 hroom.2)
        rwa [mortarPerform_none (heff.trans ((if_neg (by rw [hg]; decide)).trans (if_neg hr)))] at ho
    · have ho := occurs_event (j := .trmcDrainWaitEnd c k) rfl hw
      rw [mortarWaitEnd_selected hf (by rw [ha])] at ho
      have heff := mortarEffect_trmc (c := c) he hlz ha
      refine ⟨fun ht => ?_, fun ht => ?_⟩
      · rwa [mortarPerform_some hm hn (heff.trans (if_pos (List.isEmpty_iff.2 ht)))] at ho
      · rwa [mortarPerform_none (heff.trans (if_neg fun h => ht (List.isEmpty_iff.1 h)))] at ho
  · intro s c k e hw hf h
    have ho₁ := occurs_event (j := .trrdDrainWaitEnd c k) rfl hw
    have ho₂ := occurs_event (j := .trmcDrainWaitEnd c k) rfl hw
    rw [mortarWaitEnd_waits hf h] at ho₁ ho₂
    exact ⟨ho₁, ho₂⟩
  · intro s p a v hw
    have ho := occurs_softError (.mortar p a v) hw
    refine ⟨fun f hf => ?_, fun e he => ?_⟩
    · simpa only [State.softError, hf] using ho
    · simpa only [State.softError, he] using ho
  · intro s c n r b hw
    refine ⟨fun hr => ⟨_, occurs_softError _ hw, mem_softError_greg hr, fun i j => getLsbD_softError_greg b i j hr⟩, fun hr => ?_⟩
    have ho := occurs_softError (.greg c n r b) hw
    rwa [show s.softError (.greg c n r b) = s from if_pos hr] at ho
  · intro s c n h ln b hw
    have ho := occurs_softError (.upset c n b) hw
    refine ⟨occurs_softError (.imem c h) hw, fun p => occurs_softError (.supImem p h) hw, occurs_softError (.hbm ln) hw, fun hr => ?_,
      fun hr => ?_⟩
    · rwa [show s.softError (.upset c n b) = _ from if_pos hr] at ho
    · rwa [show s.softError (.upset c n b) = s from if_neg (ne_true_of_eq_false hr)] at ho

end Machine
end Sys2Proof
end

section
/-! PROOF. Stream requests and the words of collective streams (20_fabric.md R306 to R309): O44. -/

namespace Sys2Proof
namespace Machine

open Safety

theorem mem_upto {k n : Nat} : k ∈ upto n ↔ k < n := List.mem_range

theorem mem_portsOf {b : BitVec 25} {k : Nat} : k ∈ portsOf b ↔ k < 25 ∧ b.getLsbD k = true := by
  rw [portsOf, List.mem_filter, mem_upto]

/-! ## Requests (R306, R309) -/

theorem switchOp_iff {sets : List StreamSet} : switchOp sets = true ↔ ∃ x ∈ sets, x.op ≠ 0 ∧
    ∃ port < 24, (x.inp.getLsbD port = true ∨ x.out.getLsbD port = true) ∧ Config.facesSwitch port = true := by
  simp only [switchOp, List.any_eq_true, Bool.and_eq_true, Bool.or_eq_true, decide_eq_true_eq, mem_upto]

theorem anyOp_iff {sets : List StreamSet} : (sets.any fun t => decide (t.op ≠ 0)) = true ↔ ∃ x ∈ sets, x.op ≠ 0 := by
  simp only [List.any_eq_true, decide_eq_true_eq]

/-- A stream's entry is put in its place. -/
def State.putStream (s : State) (n : Nat) (e : Stream) : State :=
  { s with fabric := { s.fabric with streams := Tbl.set s.fabric.streams n e } }

/-- The entry that a configure makes. -/
def newStream (s : State) (p : Nat) (q : BitVec 512) : Stream :=
  { part := p, dom := (s.ctx (s.part p).ctx).domain, sets := sqSets q, base := sqBase q, notify := sqNotify q, cls := sqClass q }

/-- A request that is ill-formed, or whose stream another partition holds (code 4). -/
def IllRequest (s : State) (p : Nat) (q : BitVec 512) : Prop :=
  sqReserved q = true ∨ (∃ e, Tbl.get? s.fabric.streams (sqStream q) = some e ∧ e.part ≠ p) ∨
    (sqAction q ≠ 1 ∧ (notifyOk (s.part p) (sqNotify q) = false ∨ ∃ x ∈ sqSets q, x.op ≠ 0 ∧
      ∃ port < 24, (x.inp.getLsbD port = true ∨ x.out.getLsbD port = true) ∧ Config.facesSwitch port = true))

/-- Words of a request's stream have come already (code 3). -/
def WordsCame (s : State) (n : Nat) : Prop :=
  (∃ e, Tbl.get? s.fabric.streams n = some e ∧ e.entered = true) ∨ Tbl.get? s.fabric.streams n = none ∧ n ∈ s.fabric.early

theorem heldElsewhere_iff {s : State} {p n : Nat} :
    (match Tbl.get? s.fabric.streams n with | some e => decide (e.part ≠ p) | none => false) = true ↔
      ∃ e, Tbl.get? s.fabric.streams n = some e ∧ e.part ≠ p := by
  cases Tbl.get? s.fabric.streams n with
  | none => exact ⟨fun h => absurd h Bool.false_ne_true, fun ⟨e, he, _⟩ => nomatch he⟩
  | some e => exact ⟨fun h => ⟨e, rfl, of_decide_eq_true h⟩, fun ⟨_, he, hp⟩ => Option.some.inj he ▸ decide_eq_true hp⟩

theorem wordsCame_iff {s : State} {n : Nat} :
    (match Tbl.get? s.fabric.streams n with | some e => e.entered | none => s.fabric.early.contains n) = true ↔ WordsCame s n := by
  unfold WordsCame
  cases Tbl.get? s.fabric.streams n with
  | none =>
    refine ⟨fun h => .inr ⟨rfl, List.contains_iff_mem.1 h⟩, ?_⟩
    rintro (⟨e, he, -⟩ | ⟨-, h⟩)
    · cases he
    · exact List.contains_iff_mem.2 h
  | some e =>
    refine ⟨fun h => .inl ⟨e, rfl, h⟩, ?_⟩
    rintro (⟨_, he, h⟩ | ⟨he, -⟩)
    · exact Option.some.inj he ▸ h
    · cases he

theorem illRequest_iff {s : State} {p : Nat} {q : BitVec 512} :
    (sqReserved q || (match Tbl.get? s.fabric.streams (sqStream q) with | some e => decide (e.part ≠ p) | none => false) ||
      (sqAction q != 1 && (!notifyOk (s.part p) (sqNotify q) || switchOp (sqSets q)))) = true ↔ IllRequest s p q := by
  rw [Bool.or_eq_true, Bool.or_eq_true, heldElsewhere_iff, Bool.and_eq_true, Bool.or_eq_true, switchOp_iff, Bool.not_eq_true',
    bne_iff_ne, or_assoc]
  rfl

section
variable {s : State} {p : Nat} {q : BitVec 512}

theorem streamRequest_ill (h : IllRequest s p q) : s.streamRequest p q = (4, s) := if_pos (illRequest_iff.2 h)

theorem streamRequest_release (h : ¬ IllRequest s p q) (ha : sqAction q = 1) :
    s.streamRequest p q = (0, { s with fabric := { s.fabric with
      streams := Tbl.del s.fabric.streams (sqStream q), early := s.fabric.early.filter (· != sqStream q) } }) :=
  (if_neg (mt illRequest_iff.1 h)).trans (if_pos ha)

theorem streamRequest_keyless (h : ¬ IllRequest s p q) (ha : sqAction q ≠ 1) (hop : ∃ x ∈ sqSets q, x.op ≠ 0)
    (hk : s.hasKey (s.ctx (s.part p).ctx).domain = false) : s.streamRequest p q = (2, s) := by
  refine ((if_neg (mt illRequest_iff.1 h)).trans (if_neg ha)).trans (if_pos ?_)
  rw [Bool.and_eq_true, anyOp_iff, hk]
  exact ⟨hop, rfl⟩

/-- A configure that passes the checks for codes 4 and 2. -/
structure Keyed (s : State) (p : Nat) (q : BitVec 512) : Prop where
  well : ¬ IllRequest s p q
  configure : sqAction q ≠ 1
  key : (∀ x ∈ sqSets q, x.op = 0) ∨ s.hasKey (s.ctx (s.part p).ctx).domain = true

theorem Keyed.streamRequest_eq (h : Keyed s p q) : s.streamRequest p q =
    if (match Tbl.get? s.fabric.streams (sqStream q) with
      | some e => e.entered | none => s.fabric.early.contains (sqStream q)) = true then (3, s)
    else if (!s.slotsFit (sqStream q) (sqSets q)) = true then (1, s)
    else (0, s.putStream (sqStream q) (newStream s p q)) := by
  refine ((if_neg (mt illRequest_iff.1 h.well)).trans (if_neg h.configure)).trans ((if_neg ?_).trans rfl)
  rw [Bool.and_eq_true, anyOp_iff, Bool.not_eq_true']
  rintro ⟨⟨x, hx, hop⟩, hk⟩
  rcases h.key with h | h
  · exact hop (h x hx)
  · exact Bool.false_ne_true (hk.symm.trans h)

theorem streamRequest_late (h : Keyed s p q) (he : WordsCame s (sqStream q)) : s.streamRequest p q = (3, s) :=
  h.streamRequest_eq.trans (if_pos (wordsCame_iff.2 he))

theorem streamRequest_full (h : Keyed s p q) (he : ¬ WordsCame s (sqStream q)) (hf : s.slotsFit (sqStream q) (sqSets q) = false) :
    s.streamRequest p q = (1, s) :=
  h.streamRequest_eq.trans ((if_neg (mt wordsCame_iff.1 he)).trans (if_pos (by rw [hf]; rfl)))

theorem streamRequest_configures (h : Keyed s p q) (he : ¬ WordsCame s (sqStream q)) (hf : s.slotsFit (sqStream q) (sqSets q) = true) :
    s.streamRequest p q = (0, s.putStream (sqStream q) (newStream s p q)) :=
  h.streamRequest_eq.trans ((if_neg (mt wordsCame_iff.1 he)).trans (if_neg (by rw [hf]; exact Bool.false_ne_true)))

theorem not_wordsCame {n : Nat} (h₁ : ∀ e, Tbl.get? s.fabric.streams n = some e → e.entered = false)
    (h₂ : Tbl.get? s.fabric.streams n = none → n ∉ s.fabric.early) : ¬ WordsCame s n := by
  rintro (⟨e, he, ht⟩ | ⟨he, hm⟩)
  · exact Bool.false_ne_true ((h₁ e he).symm.trans ht)
  · exact h₂ he hm

end

/-- A request of the ring that is carried out, with its status and the consumer index written. -/
theorem streamServe_serves {s s1 s2 t t1 t2 : State} {p code : Nat} {bs rq : List Byte} {sel : Nat → Bool}
    (hm : s.managed = true) (hen : (s.part p).en = true) (hres : (s.part p).resident = true) (hring : rdEn (s.part p).streamRing = true)
    (hlog : rdLog2n (s.part p).streamRing ≠ 0) (hctrl : s.guestRead p (rdCtrl (s.part p).streamRing) 68 = (s1, some bs))
    (hne : leVal (bs.take 4) ≠ leVal (bs.drop 64))
    (hreq : s1.guestRead p (rdBase (s.part p).streamRing +
      BitVec.ofNat 64 (128 * (leVal (bs.drop 64) % 2 ^ rdLog2n (s.part p).streamRing))) 64 = (s2, some rq))
    (hsel : sel (sqAction (BitVec.ofNat 512 (leVal rq))) = true)
    (hdo : s2.streamRequest p (BitVec.ofNat 512 (leVal rq)) = (code, t))
    (hstat : t.guestWrite p (rdStatus (s.part p).streamRing +
      BitVec.ofNat 64 (16 * (leVal (bs.drop 64) % 2 ^ rdLog2n (s.part p).streamRing))) (statusBytes t.time 0 true true code 0) = (t1, true))
    (hcons : t1.guestWrite p (rdCtrl (s.part p).streamRing + 64) (leBytes 4 ((leVal (bs.drop 64) + 1) % 2 ^ 32)) = (t2, true)) :
    s.streamServe p sel = t2 := by
  have hgo : (!(s.managed && (s.part p).en && (s.part p).resident && rdEn (s.part p).streamRing &&
      decide (rdLog2n (s.part p).streamRing ≠ 0))) = false := by
    rw [hm, hen, hres, hring, decide_eq_true hlog]; rfl
  simp only [State.streamServe, hgo, Bool.false_eq_true, if_false, hctrl, if_neg hne, w64, hreq, hsel, Bool.not_true, hdo, hstat, hcons]

/-! ## Words (R307, R308) -/

/-- A word leaves: by the local port, then by the others where it is not gone already. -/
def State.sendWord (s : State) (n : Nat) (e e' : Stream) (gone : Bool) (x : Nat) (v : W64) : State :=
  match s.streamLocal e (e.sets.getD e.cur {}) x v with
  | (s', false) => s.undone s'
  | (s', true) => if gone then s'.putStream n e' else (s'.putStream n e').streamOut n e (e.sets.getD e.cur {}) (.word x v)

section
variable {s : State} {n port x : Nat} {e : Stream} {v : W64} {gone : Bool} {rest : List (StreamItem × Bool)}

theorem streamWord_eq (he : Tbl.get? s.fabric.streams n = some e) (hq : Tbl.find [] e.queues port = (.word x v, gone) :: rest) :
    s.streamWord n port =
      if !(e.sets.getD e.cur {}).inp.getLsbD port then s
      else if (e.sets.getD e.cur {}).op = 0 then s.sendWord n e { e with queues := Tbl.put [] e.queues port rest } gone x v
      else if (portsOf (e.sets.getD e.cur {}).inp).all fun p => (Tbl.get? (Tbl.set (Tbl.find [] e.words x) port v) p).isSome then
        s.sendWord n e { e with queues := Tbl.put [] e.queues port rest, words := Tbl.del e.words x } gone x
          (streamCombine (e.sets.getD e.cur {}).op ((portsOf (e.sets.getD e.cur {}).inp).map fun p =>
            Tbl.find 0 (Tbl.set (Tbl.find [] e.words x) port v) p))
      else s.putStream n { e with queues := Tbl.put [] e.queues port rest, words := Tbl.set e.words x (Tbl.set (Tbl.find [] e.words x) port v) } := by
  simp only [State.streamWord, he, hq] <;> rfl

theorem sendWord_of_local {t : State} {e' : Stream} {w : W64} (h : s.streamLocal e (e.sets.getD e.cur {}) x w = (t, true)) :
    s.sendWord n e e' gone x w = if gone then t.putStream n e' else (t.putStream n e').streamOut n e (e.sets.getD e.cur {}) (.word x w) := by
  rw [State.sendWord, h]

variable {t : StreamSet}

theorem streamLocal_off (h : t.out.getLsbD 24 = false) : s.streamLocal e t x v = (s, true) :=
  if_pos (by rw [h]; rfl)

theorem streamLocal_dropped {u : State} {c : Nat} (h : t.out.getLsbD 24 = true)
    (hx : s.xlateMem none e.part ((e.base + 8 * x) % 2 ^ 48) .write = (u, .bad c)) : s.streamLocal e t x v = (s, true) := by
  refine (if_neg (by rw [h]; decide)).trans ?_
  simp only [hx]

theorem streamLocal_writes (h : t.out.getLsbD 24 = true)
    (hx : ∀ u c, s.xlateMem none e.part ((e.base + 8 * x) % 2 ^ 48) .write ≠ (u, .bad c)) :
    s.streamLocal e t x v = s.guestWrite e.part (BitVec.ofNat 64 (e.base + 8 * x)) (leBytes 8 v.toNat) := by
  refine (if_neg (by rw [h]; decide)).trans ?_
  show (match s.xlateMem none e.part ((e.base + 8 * x) % 2 ^ 48) .write with | (_, .bad _) => (s, true) | _ => _) = _
  split
  · next u c hb => exact absurd hb (hx u c)
  · rfl

end

theorem putStream_of_fabric {s u : State} (h : u.fabric = s.fabric) (n : Nat) (e : Stream) :
    u.putStream n e = { u with fabric := (s.putStream n e).fabric } := by
  rw [State.putStream, h, State.putStream]

/-! ## Markers -/

section
variable {s : State} {n : Nat} {e : Stream}

theorem streamMark_waits (he : Tbl.get? s.fabric.streams n = some e) {q : Nat} (hq : q ∈ portsOf (e.sets.getD e.cur {}).inp)
    (h : (Tbl.find [] e.queues q).head?.map (·.1) ≠ some .marker) : s.streamMark n = s := by
  have hall : ((portsOf (e.sets.getD e.cur {}).inp).all fun p => ((Tbl.find [] e.queues p).head?.map (·.1)) == some .marker) = false := by
    rw [Bool.eq_false_iff]
    exact fun hb => h (beq_iff_eq.1 (List.all_eq_true.1 hb q hq))
  simp only [State.streamMark, he, hall, Bool.not_false, Bool.or_true, if_true]

/-- The marker of a set leaves by its ports, and the next set becomes current. -/
def State.passMarker (s : State) (n : Nat) (e : Stream) : State :=
  let t := e.sets.getD e.cur {}
  let ins := portsOf t.inp
  let v := s.putStream n { e with
    queues := ins.foldl (fun m q => Tbl.put [] m q ((Tbl.find [] m q).drop 1)) e.queues
    cur := (e.cur + 1) % e.sets.length, words := [] }
  if (∀ q ∈ ins, (Tbl.find [] e.queues q).head?.map (·.2) = some true) then v else v.streamOut n e t .marker

theorem gone_iff {ins : List Nat} : (ins.all fun p => ((Tbl.find [] e.queues p).head?.map (·.2)).getD false) = true ↔
    ∀ q ∈ ins, (Tbl.find [] e.queues q).head?.map (·.2) = some true := by
  rw [List.all_eq_true]
  refine forall₂_congr fun q _ => ?_
  cases (Tbl.find [] e.queues q).head?.map (·.2) with
  | none => exact ⟨fun h => absurd h Bool.false_ne_true, fun h => nomatch h⟩
  | some b => exact ⟨fun h => congrArg some h, Option.some.inj⟩

theorem streamMark_passes (he : Tbl.get? s.fabric.streams n = some e) (hne : portsOf (e.sets.getD e.cur {}).inp ≠ [])
    (h : ∀ q ∈ portsOf (e.sets.getD e.cur {}).inp, (Tbl.find [] e.queues q).head?.map (·.1) = some .marker) :
    s.streamMark n = if (e.sets.getD e.cur {}).out.getLsbD 24 then
      (s.passMarker n e).startBy (coreOfPlace ((s.passMarker n e).part e.part) e.notify) e.cls 0
        ⟨BitVec.ofNat 64 n, BitVec.ofNat 64 e.cur, 0, 0⟩ [] none none else s.passMarker n e := by
  have hall : ((portsOf (e.sets.getD e.cur {}).inp).all fun p => ((Tbl.find [] e.queues p).head?.map (·.1)) == some .marker) = true :=
    List.all_eq_true.2 fun q hq => beq_iff_eq.2 (h q hq)
  have hsome : (portsOf (e.sets.getD e.cur {}).inp).isEmpty = false :=
    Bool.eq_false_iff.2 fun hb => hne (List.isEmpty_iff.1 hb)
  simp only [State.streamMark, he, hall, hsome, Bool.not_true, Bool.or_false, Bool.false_eq_true, if_false, gone_iff] <;> rfl

end

/-! ## Frames in transit (R308) -/

theorem pumpPort_keys (port fuel : Nat) (s : State) : (s.pumpPort port fuel).fabric.keys = s.fabric.keys := by
  induction fuel generalizing s with
  | zero => rfl
  | succ n ih =>
    unfold State.pumpPort
    split
    · rfl
    · dsimp only
      split
      · rw [ih]; rfl
      · rfl

theorem enqueueFrame_keys (s : State) (port k : Nat) (f : Frame) : (s.enqueueFrame port k f).fabric.keys = s.fabric.keys :=
  pumpPort_keys port _ _

/-- The frame goes on by the OUT ports whose links are up. -/
def State.sendOn (s : State) (e : Stream) (f : Frame) : State :=
  ((upto 24).filter fun p => e.now.out.getLsbD p && (s.fabric.link p).up).foldl (fun s p => s.enqueueFrame p transitClass f) s

theorem sendOn_keys (s : State) (e : Stream) (f : Frame) : (s.sendOn e f).fabric.keys = s.fabric.keys := by
  unfold State.sendOn
  generalize (upto 24).filter _ = l
  induction l generalizing s with
  | nil => rfl
  | cons p l ih => rw [List.foldl_cons, ih, enqueueFrame_keys]

theorem tagOk_of_keys {s t : State} (h : t.fabric.keys = s.fabric.keys) (f : Frame) : t.tagOk f = s.tagOk f := by
  rw [State.tagOk, h, State.tagOk]

theorem streamPass_eq (s : State) (e : Stream) (f : Frame) :
    s.streamPass e f = if e.ends f && s.tagOk f then s else s.sendOn e f := rfl

section
variable {s : State} {port : Nat} {f : Frame} {e : Stream}

theorem streamTransit_eq (he : Tbl.get? s.fabric.streams f.stream = some e) : s.streamTransit port f =
    if e.now.op ≠ 0 then (if s.tagOk f then s.sequence port f else s.dropFrame)
    else if e.now.inp.getLsbD port then (if (s.streamPass e f).tagOk f then (s.streamPass e f).sequence port f else s.streamPass e f)
    else s.forwardFrame transitClass { f with out := none } := by
  simp only [State.streamTransit, he]

theorem streamTransit_pass (he : Tbl.get? s.fabric.streams f.stream = some e) (hop : e.now.op = 0) (hin : e.now.inp.getLsbD port = true) :
    (s.tagOk f = false → s.streamTransit port f = s.sendOn e f) ∧
    (s.tagOk f = true → e.ends f = false → s.streamTransit port f = (s.sendOn e f).sequence port f) ∧
    (s.tagOk f = true → e.ends f = true → s.streamTransit port f = s.sequence port f) := by
  have heq := (streamTransit_eq (port := port) he).trans ((if_neg (not_not.2 hop)).trans (if_pos hin))
  have hsent := tagOk_of_keys (sendOn_keys s e f) f
  refine ⟨fun ht => ?_, fun ht hends => ?_, fun ht hends => ?_⟩
  · have hp : s.streamPass e f = s.sendOn e f := by rw [streamPass_eq, ht, Bool.and_false]; rfl
    rw [heq, hp]
    exact if_neg (by rw [hsent, ht]; exact Bool.false_ne_true)
  · have hp : s.streamPass e f = s.sendOn e f := by rw [streamPass_eq, hends, Bool.false_and]; rfl
    rw [heq, hp]
    exact if_pos (hsent.trans ht)
  · have hp : s.streamPass e f = s := by rw [streamPass_eq, hends, ht]; rfl
    rw [heq, hp]
    exact if_pos ht

end

theorem ends_iff {e : Stream} {f : Frame} : e.ends f = true ↔ (e.sets.getD e.cur {}).op ≠ 0 ∨ (marksSet f = true ∧
    ∃ p < 25, ∃ q < 25, p ≠ q ∧ (e.sets.getD e.cur {}).inp.getLsbD p = true ∧ (e.sets.getD e.cur {}).inp.getLsbD q = true) := by
  have hnodup : (portsOf e.now.inp).Nodup := List.Nodup.filter _ List.nodup_range
  have htwo : 2 ≤ (portsOf e.now.inp).length ↔
      ∃ p < 25, ∃ q < 25, p ≠ q ∧ e.now.inp.getLsbD p = true ∧ e.now.inp.getLsbD q = true := by
    rw [← List.toFinset_card_of_nodup hnodup]
    show 1 < _ ↔ _
    rw [Finset.one_lt_card]
    simp only [List.mem_toFinset, mem_portsOf]
    constructor
    · rintro ⟨p, ⟨hp, hp'⟩, q, ⟨hq, hq'⟩, hne⟩
      exact ⟨p, hp, q, hq, hne, hp', hq'⟩
    · rintro ⟨p, hp, q, hq, hne, hp', hq'⟩
      exact ⟨p, ⟨hp, hp'⟩, q, ⟨hq, hq'⟩, hne⟩
  rw [Stream.ends, Bool.or_eq_true, Bool.and_eq_true, decide_eq_true_eq, decide_eq_true_eq, htwo]
  rfl

/-- A store into one word of a stream makes one item. -/
theorem length_streamItems {s : State} {off : Nat} {bs : List NibByte} (h : ∀ b ∈ bs, (off + b.pos) / 8 = off / 8) (hne : bs ≠ []) :
    (s.streamItems off bs).1.length = 1 := by
  have hmap : (bs.map fun b => (off + b.pos) / 8).dedup = [off / 8] := by
    have hrep : (bs.map fun b => (off + b.pos) / 8) = List.replicate bs.length (off / 8) :=
      List.eq_replicate_iff.2 ⟨List.length_map .., by
        intro y hy
        obtain ⟨b, hb, rfl⟩ := List.mem_map.1 hy
        exact h b hb⟩
    rw [hrep]
    exact List.replicate_dedup (mt List.length_eq_zero_iff.1 hne)
  simp only [State.streamItems, List.length_map, List.length_zipIdx, hmap, List.length_singleton]

theorem streamPut_early {s : State} {n : Nat} (off : Nat) (bs : List NibByte) (h : Tbl.get? s.fabric.streams n = none) :
    n ∈ (s.streamPut n off bs).fabric.early ∧ (s.streamPut n off bs).fabric.streams = s.fabric.streams := by
  simp only [State.streamPut, h]
  split
  · next hc => exact ⟨List.contains_iff_mem.1 hc, rfl⟩
  · exact ⟨List.mem_cons_self .., rfl⟩

/-! ## Settling -/

theorem streamWord_spec (s : State) (n port : Nat) (e : Stream) (x : Nat) (v : W64) (gone : Bool) (rest : List (StreamItem × Bool))
    (hw : s.wr = []) (he : Tbl.get? s.fabric.streams n = some e) (hq : Tbl.find [] e.queues port = (.word x v, gone) :: rest) :
    let t := e.sets.getD e.cur {}
    let e1 : Stream := { e with queues := Tbl.put [] e.queues port rest }
    let out (u : State) (v : W64) : State := if gone then u else u.streamOut n e t (.word x v)
    (t.inp.getLsbD port = false → Occurs (.streamWord n port) s s) ∧
    (t.inp.getLsbD port = true →
      (t.op = 0 → t.out.getLsbD 24 = false → Occurs (.streamWord n port) s (out (s.putStream n e1) v)) ∧
      (t.op = 0 → t.out.getLsbD 24 = true → ∀ s', s.xlateMem none e.part ((e.base + 8 * x) % 2 ^ 48) .write = s' →
        (∀ u c, s' = (u, .bad c) → Occurs (.streamWord n port) s (out (s.putStream n e1) v)) ∧
        ((∀ u c, s' ≠ (u, .bad c)) → ∀ u,
          s.guestWrite e.part (BitVec.ofNat 64 (e.base + 8 * x)) (leBytes 8 v.toNat) = (u, true) →
          u.fabric = s.fabric → Occurs (.streamWord n port) s (out { u with fabric := (s.putStream n e1).fabric } v))) ∧
      (t.op ≠ 0 → t.out.getLsbD 24 = false →
        let got := Tbl.set (Tbl.find [] e.words x) port v
        ((∃ q < 25, t.inp.getLsbD q = true ∧ Tbl.get? got q = none) →
          Occurs (.streamWord n port) s (s.putStream n { e1 with words := Tbl.set e.words x got })) ∧
        ((∀ q < 25, t.inp.getLsbD q = true → Tbl.get? got q ≠ none) → Occurs (.streamWord n port) s
          (out (s.putStream n { e1 with words := Tbl.del e.words x })
            (streamCombine t.op ((portsOf t.inp).map fun q => Tbl.find 0 got q)))))) := by
  intro t e1 out
  have ho := occurs_event (j := .streamWord n port) rfl hw
  rw [streamWord_eq he hq] at ho
  refine ⟨fun hin => ?_, fun hin => ⟨fun hop hloc => ?_, fun hop hloc s' hs' => ⟨?_, fun hgood u hu hfab => ?_⟩, fun hop hloc => ⟨?_, fun hall => ?_⟩⟩⟩
  · rwa [if_pos (by rw [hin]; rfl)] at ho
  · rwa [if_neg (by rw [hin]; decide), if_pos hop, sendWord_of_local (streamLocal_off hloc)] at ho
  · rintro u c rfl
    rwa [if_neg (by rw [hin]; decide), if_pos hop, sendWord_of_local (streamLocal_dropped hloc hs')] at ho
  · rwa [if_neg (by rw [hin]; decide), if_pos hop,
      sendWord_of_local ((streamLocal_writes hloc fun u c h => hgood u c (hs'.symm.trans h)).trans hu), putStream_of_fabric hfab] at ho
  · rintro ⟨q, hlt, hbit, hnone⟩
    rwa [if_neg (by rw [hin]; decide), if_neg hop, if_neg] at ho
    intro hb
    have hsome := List.all_eq_true.1 hb q (mem_portsOf.2 ⟨hlt, hbit⟩)
    rw [hnone] at hsome
    cases hsome
  · rwa [if_neg (by rw [hin]; decide), if_neg hop, if_pos, sendWord_of_local (streamLocal_off hloc)] at ho
    refine List.all_eq_true.2 fun q hq => Option.isSome_iff_ne_none.2 ?_
    obtain ⟨hlt, hbit⟩ := mem_portsOf.1 hq
    exact hall q hlt hbit

/-- Settles O44: a request by its checks (`streamRequest_ill` to `streamRequest_configures`), a word and a marker by the current set (`streamWord_spec`,
`streamMark_passes`). -/
theorem streams : Obligations.Streams := by
  refine ⟨?_, ?_, fun s n port e x v gone rest hw he hq => streamWord_spec s n port e x v gone rest hw he hq, ?_, ?_,
    fun e f => ends_iff, fun s off bs => length_streamItems, fun s n off bs h => streamPut_early off bs h, fun op a b c => rfl,
    fun a b => ⟨rfl, rfl, rfl⟩⟩
  · intro s s1 s2 t t1 t2 p bs rq hw hm k w cons i q hen hres hring hlog hctrl hne hreq code hdo hstat hcons
    refine ⟨fun ha => ?_, fun ha hahead => ?_⟩
    · have ho := occurs_event (j := .streamRelease p) rfl hw
      rwa [streamServe_serves hm hen hres hring hlog hctrl hne hreq (sel := fun a => a == 1) (beq_iff_eq.2 ha) hdo hstat hcons] at ho
    · have ho := occurs_event (j := .streamConfigure p) rfl hw
      rwa [show s.streamConf p = s.streamServe p fun a => a != 1 from if_neg (ne_true_of_eq_false hahead),
        streamServe_serves hm hen hres hring hlog hctrl hne hreq (sel := fun a => a != 1) (bne_iff_ne.2 ha) hdo hstat hcons] at ho
  · intro s p q k dom n old facing bad
    refine ⟨streamRequest_ill, streamRequest_release, fun hbad ha => ⟨fun h => streamRequest_keyless hbad ha h.1 h.2, fun hkey => ?_⟩⟩
    have hk : Keyed s p q := ⟨hbad, ha, hkey⟩
    exact ⟨streamRequest_late hk, fun h₁ h₂ => ⟨streamRequest_full hk (not_wordsCame h₁ h₂), streamRequest_configures hk (not_wordsCame h₁ h₂)⟩⟩
  · intro s n e hw he t ins
    have ho := occurs_event (j := .streamMarker n) rfl hw
    refine ⟨?_, fun hne hall => ⟨fun hloc => ?_, fun hloc => ?_⟩⟩
    · rintro ⟨q, hq, h⟩
      rwa [streamMark_waits he hq h] at ho
    · rw [streamMark_passes he hne hall, if_neg (ne_true_of_eq_false hloc)] at ho
      exact ho
    · rw [streamMark_passes he hne hall, if_pos hloc] at ho
      exact ho
  · intro s port f
    refine ⟨fun h => ?_, fun e he => ⟨fun hop ht => ?_, fun hop ht => ?_, fun hop hin => ?_, fun hop hin => streamTransit_pass he hop hin⟩⟩
    · simp only [State.streamTransit, h]
    · exact (streamTransit_eq he).trans ((if_pos hop).trans (if_pos ht))
    · exact (streamTransit_eq he).trans ((if_pos hop).trans (if_neg (ne_true_of_eq_false ht)))
    · exact (streamTransit_eq he).trans ((if_neg (not_not.2 hop)).trans (if_neg (ne_true_of_eq_false hin)))

end Machine
end Sys2Proof
end

section
/-! PROOF. Rounds, verdicts, rings, trellises and courses of the mortar plane (17_mortar_plane.md R257 to R271): O40. -/

namespace Sys2Proof
namespace Machine

open Safety

/-! ## A table that is filled from a list -/

/-- A fold that puts a value of the index itself gives that value at every index of the list, however often it occurs. -/
theorem find_foldl_put {α : Type} [DecidableEq α] (d : α) (f : Nat → α) (l : List Nat) (i : Nat) : ∀ m : Tbl α,
    Tbl.find d (l.foldl (fun m k => Tbl.put d m k (f k)) m) i = if i ∈ l then f i else Tbl.find d m i := by
  induction l with
  | nil => exact fun m => rfl
  | cons k l ih =>
    intro m
    rw [List.foldl_cons, ih, Tbl.find_put]
    by_cases hl : i ∈ l
    · simp [hl]
    · by_cases hk : i = k <;> simp [hl, hk]

theorem find_foldl_put_if {α : Type} [DecidableEq α] (d : α) (b : Nat → Bool) (f : Nat → α) (l : List Nat) (i : Nat) : ∀ m : Tbl α,
    Tbl.find d (l.foldl (fun m k => if b k then Tbl.put d m k (f k) else m) m) i = if i ∈ l ∧ b i = true then f i else Tbl.find d m i := by
  induction l with
  | nil => exact fun m => (if_neg fun h => nomatch h.1).symm
  | cons k l ih =>
    intro m
    rw [List.foldl_cons, ih]
    by_cases hl : i ∈ l ∧ b i = true
    · rw [if_pos hl, if_pos ⟨List.mem_cons_of_mem _ hl.1, hl.2⟩]
    · rw [if_neg hl]
      by_cases hk : i = k
      · subst hk
        cases hb : b i
        · rw [if_neg Bool.false_ne_true, if_neg fun h => Bool.false_ne_true h.2]
        · rw [if_pos rfl, Tbl.find_put, if_pos rfl, if_pos ⟨List.mem_cons_self .., rfl⟩]
      · rw [if_neg (show ¬ (i ∈ k :: l ∧ b i = true) from fun h => hl ⟨(List.mem_cons.1 h.1).resolve_left hk, h.2⟩)]
        split
        · rw [Tbl.find_put, if_neg hk]
        · rfl

/-! ## Token rings (R261) -/

theorem ring_fire_val (r : Ring) (m : Nat) : r.fire.val m =
    if m < r.n ∧ r.privileged m = true ∧ r.heldAtStart m = false then
      (if m = 0 then (r.val 0 + 1) % r.k else r.val (m - 1)) else r.val m := by
  refine (find_foldl_put_if 0 (fun m => r.privileged m && !r.heldAtStart m)
    (fun m => if m = 0 then (r.val 0 + 1) % r.k else r.val (m - 1)) (upto r.n) m r.x).trans ?_
  simp only [mem_upto, Bool.and_eq_true, Bool.not_eq_true']
  rfl

theorem privileged_zero {r : Ring} : r.privileged 0 = true ↔ r.val 0 = r.val (r.n - 1) := beq_iff_eq

theorem privileged_succ {r : Ring} {m : Nat} : r.privileged (m + 1) = true ↔ r.val (m + 1) ≠ r.val m := bne_iff_ne

/-- Exactly one member of the ring has the privilege. -/
def Ring.Legit (r : Ring) : Prop := ∃ m < r.n, r.privileged m = true ∧ ∀ j < r.n, r.privileged j = true → j = m

theorem evidence_iff {r : Ring} : r.evidence = false ↔ r.Legit := by
  have hnodup : ((upto r.n).filter r.privileged).Nodup := List.Nodup.filter _ List.nodup_range
  rw [Ring.evidence, decide_eq_false_iff_not, not_not]
  constructor
  · intro h
    obtain ⟨m, hm⟩ := List.length_eq_one_iff.1 h
    have hmem (j : Nat) : (j < r.n ∧ r.privileged j = true) ↔ j = m := by
      rw [← mem_upto, ← List.mem_filter, hm, List.mem_singleton]
    obtain ⟨hlt, hp⟩ := (hmem m).2 rfl
    exact ⟨m, hlt, hp, fun j hj hpj => (hmem j).1 ⟨hj, hpj⟩⟩
  · rintro ⟨m, hlt, hp, huniq⟩
    rw [← List.toFinset_card_of_nodup hnodup, Finset.card_eq_one]
    refine ⟨m, Finset.ext fun j => ?_⟩
    rw [List.mem_toFinset, List.mem_filter, mem_upto, Finset.mem_singleton]
    exact ⟨fun h => huniq j h.1 h.2, fun h => h ▸ ⟨hlt, hp⟩⟩

/-- From a member on, those without the privilege repeat its value. -/
theorem val_eq_of_calm {r : Ring} {a b : Nat} (hab : a ≤ b) (h : ∀ j, a < j → j ≤ b → ¬ r.privileged j = true) : r.val b = r.val a := by
  induction b, hab using Nat.le_induction with
  | base => rfl
  | succ b hab ih =>
    have hb := h (b + 1) (Nat.lt_succ_of_le hab) le_rfl
    rw [privileged_succ, not_not] at hb
    exact hb.trans (ih fun j h₁ h₂ => h j h₁ (Nat.le_succ_of_le h₂))

/-- A fire of the one privileged member passes the privilege to the next one. -/
theorem ring_fire_passes {r : Ring} (hn : 2 ≤ r.n) (hk : r.n ≤ r.k) (hv : ∀ m < r.n, r.val m < r.k) (hheld : r.held = []) (hrel : r.rel = [])
    {m : Nat} (hm : m < r.n) (hp : r.privileged m = true) (huniq : ∀ j < r.n, r.privileged j = true → j = m) :
    ∀ j < r.n, r.fire.privileged j = true ↔ j = (m + 1) % r.n := by
  have free (j : Nat) : r.heldAtStart j = false := by rw [Ring.heldAtStart, hheld, hrel]; rfl
  have hval (j : Nat) : r.fire.val j = if j = m then (if m = 0 then (r.val 0 + 1) % r.k else r.val (m - 1)) else r.val j := by
    rw [ring_fire_val]
    by_cases hj : j = m
    · subst hj; rw [if_pos ⟨hm, hp, free j⟩, if_pos rfl]
    · rw [if_neg fun h => hj (huniq j h.1 h.2.1), if_neg hj]
  have hfn : r.fire.n = r.n := rfl
  have calm {j : Nat} (hj : j < r.n) (hne : j ≠ m) : ¬ r.privileged j = true := fun h => hne (huniq j hj h)
  intro j hj
  cases m with
  | zero =>
    have hall {i : Nat} (hi : i < r.n) : r.val i = r.val 0 :=
      val_eq_of_calm (Nat.zero_le i) fun q h₁ h₂ => calm (h₂.trans_lt hi) (Nat.ne_of_gt h₁)
    have hnew : (r.val 0 + 1) % r.k ≠ r.val 0 := by
      have h0 := hv 0 hm
      rcases Nat.lt_or_ge (r.val 0 + 1) r.k with h | h
      · rw [Nat.mod_eq_of_lt h]; omega
      · rw [show r.val 0 + 1 = r.k by omega, Nat.mod_self]; omega
    rw [Nat.zero_add, Nat.mod_eq_of_lt (by omega : 1 < r.n)]
    match j with
    | 0 =>
      rw [privileged_zero, hfn, hval, if_pos rfl, if_pos rfl, hval, if_neg (by omega), hall (by omega : r.n - 1 < r.n)]
      exact ⟨fun h => absurd h hnew, fun h => by omega⟩
    | 1 =>
      rw [privileged_succ, hval, if_neg (by decide), hval, if_pos rfl, if_pos rfl, hall hj]
      exact ⟨fun _ => rfl, fun _ => hnew.symm⟩
    | j + 2 =>
      rw [privileged_succ, hval, if_neg (by omega), hval, if_neg (by omega), hall hj, hall (show j + 1 < r.n by omega)]
      exact ⟨fun h => absurd rfl h, fun h => by omega⟩
  | succ m =>
    have hlow {i : Nat} (hi : i ≤ m) : r.val i = r.val 0 :=
      val_eq_of_calm (Nat.zero_le i) fun q h₁ h₂ => calm (by omega) (by omega)
    have hhigh {i : Nat} (hi : m + 1 ≤ i) (hlt : i < r.n) : r.val i = r.val (m + 1) :=
      val_eq_of_calm hi fun q h₁ h₂ => calm (by omega) (by omega)
    have hne : r.val (m + 1) ≠ r.val 0 := by
      have := privileged_succ.1 hp
      rwa [hlow (Nat.le_refl m)] at this
    have hmv : r.fire.val (m + 1) = r.val 0 := by
      rw [hval, if_pos rfl, if_neg (Nat.succ_ne_zero m), Nat.add_sub_cancel, hlow (Nat.le_refl m)]
    have hlo {i : Nat} (hi : i ≤ m + 1) : r.fire.val i = r.val 0 := by
      rcases Nat.lt_or_ge m i with h | h
      · rw [show i = m + 1 by omega, hmv]
      · rw [hval, if_neg (by omega), hlow h]
    have hhi {i : Nat} (h₁ : m + 1 < i) (h₂ : i < r.n) : r.fire.val i = r.val (m + 1) := by
      rw [hval, if_neg (by omega), hhigh (by omega) h₂]
    rcases Nat.lt_or_ge (m + 2) r.n with hlast | hlast
    · rw [Nat.mod_eq_of_lt hlast]
      match j with
      | 0 =>
        rw [privileged_zero, hfn, hlo (Nat.zero_le _), hhi (by omega) (by omega)]
        exact ⟨fun h => absurd h.symm hne, fun h => by omega⟩
      | j + 1 =>
        rw [privileged_succ]
        rcases Nat.lt_trichotomy j (m + 1) with h | h | h
        · rw [hlo (by omega), hlo (by omega)]
          exact ⟨fun h => absurd rfl h, fun h => by omega⟩
        · rw [hhi (by omega) hj, hlo (by omega)]
          exact ⟨fun _ => by omega, fun _ => hne⟩
        · rw [hhi (by omega) hj, hhi h (by omega)]
          exact ⟨fun h => absurd rfl h, fun h => by omega⟩
    · rw [show m + 1 + 1 = r.n by omega, Nat.mod_self]
      match j with
      | 0 =>
        rw [privileged_zero, hfn, hlo (Nat.zero_le _), hlo (by omega)]
        exact ⟨fun _ => rfl, fun _ => rfl⟩
      | j + 1 =>
        rw [privileged_succ, hlo (by omega), hlo (by omega)]
        exact ⟨fun h => absurd rfl h, fun h => by omega⟩

theorem ring_fire_spec {r : Ring} (hn : 2 ≤ r.n) (hk : r.n ≤ r.k) (hv : ∀ m < r.n, r.val m < r.k) (hheld : r.held = []) (hrel : r.rel = [])
    (h : r.evidence = false) :
    r.fire.evidence = false ∧ ∀ m < r.n, r.privileged m = true → r.fire.privileged ((m + 1) % r.n) = true := by
  obtain ⟨m, hm, hp, huniq⟩ := evidence_iff.1 h
  have hpass := ring_fire_passes hn hk hv hheld hrel hm hp huniq
  have hnext : (m + 1) % r.n < r.n := Nat.mod_lt _ (by omega)
  refine ⟨evidence_iff.2 ⟨(m + 1) % r.n, hnext, (hpass _ hnext).2 rfl, fun j hj => (hpass j hj).1⟩, fun i hi hpi => ?_⟩
  rw [huniq i hi hpi]
  exact (hpass _ hnext).2 rfl

/-! ## Trellises (R267, R268) -/

/-- The least distance of some neighbours, and the first port that has it. -/
theorem nodeRule_spec (cap : Nat) (f : Nat → Nat) : ∃ d, (∀ port < 4, d ≤ f port) ∧
    ∃ port < 4, nodeRule cap ([0, 1, 2, 3].map fun p => (p, f p)) = (Nat.min cap (1 + d), port) ∧ f port = d ∧ ∀ q < port, f q ≠ d := by
  obtain ⟨h0, h1, h2⟩ := foldl_min_spec (fun e : Nat × Nat => e.2) ([0, 1, 2, 3].map fun p => (p, f p)) (f 0)
  generalize hd : ([0, 1, 2, 3].map fun p => (p, f p)).foldl (fun m (e : Nat × Nat) => Nat.min m e.2) (f 0) = d at h0 h1 h2
  have hle (port : Nat) (hp : port < 4) : d ≤ f port :=
    h1 (port, f port) (List.mem_map.2 ⟨port, List.mem_range.2 hp, rfl⟩)
  have hhas : ∃ port < 4, f port = d := by
    rcases Nat.lt_or_ge d (f 0) with h | h
    · obtain ⟨e, he, hed⟩ := h2 h
      obtain ⟨p, hp, rfl⟩ := List.mem_map.1 he
      exact ⟨p, List.mem_range.1 hp, hed.symm⟩
    · exact ⟨0, by decide, Nat.le_antisymm h h0⟩
  refine ⟨d, hle, ?_⟩
  obtain ⟨hlt, hp⟩ := Nat.find_spec hhas
  have hmin (q : Nat) (hq : q < Nat.find hhas) : f q ≠ d := fun hqd => Nat.find_min hhas hq ⟨hq.trans hlt, hqd⟩
  have hfirst : (List.range 4).find? ((fun e : Nat × Nat => e.2 == d) ∘ fun p => (p, f p)) = some (Nat.find hhas) :=
    List.find?_range_eq_some.2 ⟨beq_iff_eq.2 hp, List.mem_range.2 hlt, fun q hq => by
      rw [Function.comp_apply, Bool.not_eq_true']; exact beq_eq_false_iff_ne.2 (hmin q hq)⟩
  refine ⟨Nat.find hhas, hlt, ?_, hp, hmin⟩
  have hfind : ([0, 1, 2, 3].map fun p => (p, f p)).find? (fun e : Nat × Nat => e.2 == d) = some (Nat.find hhas, f (Nat.find hhas)) := by
    rw [show [0, 1, 2, 3] = List.range 4 from rfl, List.find?_map, hfirst]
    rfl
  have hhead : (([0, 1, 2, 3].map fun p => (p, f p)).headD (0, 0)).2 = f 0 := rfl
  simp only [nodeRule, hhead, hd, hfind, Option.map_some, Option.getD_some]

section
variable (t : Trellis) (p : Partition) (root k : Nat) (hk : k ∈ p.clusters)
include hk

theorem find_step_dist : Tbl.find 0 (t.step p root).dist k = (t.rule p root k).1 :=
  (find_foldl_put 0 (fun k => (t.rule p root k).1) p.clusters k t.dist).trans (if_pos hk)

theorem find_step_parent : Tbl.find 31 (t.step p root).parent k = (t.rule p root k).2 :=
  (find_foldl_put 31 (fun k => (t.rule p root k).2) p.clusters k t.parent).trans (if_pos hk)

theorem find_step_clock : Tbl.find 0 (t.step p root).clock k = if k = root then (Tbl.find 0 t.clock k + 1) % 2 ^ 32
    else if 4 ≤ Tbl.find 31 t.parent k then Tbl.find 0 t.clock k else Tbl.find 0 t.clock (p.neighbour k (Tbl.find 31 t.parent k)) :=
  (find_foldl_put 0 (fun k => if k = root then (Tbl.find 0 t.clock k + 1) % 2 ^ 32
    else if 4 ≤ Tbl.find 31 t.parent k then Tbl.find 0 t.clock k else Tbl.find 0 t.clock (p.neighbour k (Tbl.find 31 t.parent k)))
    p.clusters k t.clock).trans (if_pos hk)

end

theorem trellis_step_spec (t : Trellis) (p : Partition) (root k : Nat) (hk : k ∈ p.clusters) :
    let ds := [0, 1, 2, 3].map fun port => Tbl.find 0 t.dist (p.neighbour k port)
    let u := t.step p root
    (k = root → Tbl.find 0 u.dist k = 0 ∧ Tbl.find 31 u.parent k = 31 ∧ Tbl.find 0 u.clock k = (Tbl.find 0 t.clock k + 1) % 2 ^ 32) ∧
    (k ≠ root →
      (∃ d ∈ ds, (∀ e ∈ ds, d ≤ e) ∧ Tbl.find 0 u.dist k = Nat.min p.cap (1 + d) ∧
        ∃ port < 4, Tbl.find 31 u.parent k = port ∧ Tbl.find 0 t.dist (p.neighbour k port) = d ∧
          ∀ q < port, Tbl.find 0 t.dist (p.neighbour k q) ≠ d) ∧
      (Tbl.find 31 t.parent k < 4 →
        Tbl.find 0 u.clock k = Tbl.find 0 t.clock (p.neighbour k (Tbl.find 31 t.parent k)))) := by
  intro ds u
  have hdist := find_step_dist t p root k hk
  have hparent := find_step_parent t p root k hk
  have hclock := find_step_clock t p root k hk
  refine ⟨fun hr => ?_, fun hr => ⟨?_, fun hport => ?_⟩⟩
  · have hrule : t.rule p root k = (0, 31) := if_pos hr
    rw [hrule] at hdist hparent
    exact ⟨hdist, hparent, hclock.trans (if_pos hr)⟩
  · obtain ⟨d, hle, port, hlt, hrule, hd, hq⟩ := nodeRule_spec p.cap fun port => Tbl.find 0 t.dist (p.neighbour k port)
    have hnode : t.rule p root k = (Nat.min p.cap (1 + d), port) := (if_neg hr).trans hrule
    rw [hnode] at hdist hparent
    refine ⟨d, List.mem_map.2 ⟨port, List.mem_range.2 hlt, hd⟩, ?_, hdist, port, hlt, hparent, hd, hq⟩
    intro e he
    obtain ⟨q, hq, rfl⟩ := List.mem_map.1 he
    exact hle q (List.mem_range.1 hq)
  · exact hclock.trans ((if_neg hr).trans (if_neg (Nat.not_le.2 hport)))

/-! ## Courses (R265) -/

theorem complete_phase (c : Course) (round b : Nat) (hb : b < 72) (hm : c.mem.getLsbD b = true) :
    (c.complete round).f.pmOf b = (c.f.q + 1) % 3 ∧ Tbl.find 0 (c.complete round).phase b = (c.f.q + 1) % 3 := by
  have hpm : (c.complete round).f.pmOf b = (c.f.q + 1) % 3 :=
    (find_foldl_put_if 0 c.mem.getLsbD (fun _ => (c.f.q + 1) % 3) memberBits b c.f.pm).trans (if_pos ⟨mem_upto.2 hb, hm⟩)
  refine ⟨hpm, ?_⟩
  exact (find_foldl_put_if 0 c.mem.getLsbD (fun b => (c.complete round).f.pmOf b) memberBits b c.phase).trans
    ((if_pos ⟨mem_upto.2 hb, hm⟩).trans hpm)

theorem course_complete_spec (c : Course) (round : Nat) : let u := c.complete round
    u.f.q = (c.f.q + 1) % 3 ∧ u.f.arr = c.f.held ∧ u.f.held = 0 ∧ u.f.dcur = c.f.dnxt ∧ u.f.ecur = c.f.enxt ∧ u.f.dnxt = 0 ∧
      u.f.enxt = 0 ∧ u.f.cont = c.f.contHeld ∧ u.unconfirmed = true ∧ u.mem = c.mem ∧ u.arrived = c.f.held &&& c.mem ∧
      ∀ b < 72, c.mem.getLsbD b = true → u.f.pmOf b = (c.f.q + 1) % 3 ∧ Tbl.find 0 u.phase b = (c.f.q + 1) % 3 :=
  ⟨rfl, rfl, rfl, rfl, rfl, rfl, rfl, rfl, rfl, rfl, rfl, complete_phase c round⟩

/-! ## Rounds (R257, R259, R270, R271) -/

theorem roundDue_iff (s : State) (i : Inst) : s.roundDue i = true ↔
    (s.detector i).began + (match i with | .group _ => 8 | .device _ => 64 | .system _ => 10800) ≤ s.time := by
  cases i <;> exact decide_eq_true_iff

theorem confirmSlot_spec (i : Inst) (round : Nat) (t : Slot) :
    (confirmSlot i round t).pairs = t.pairs.filter (fun x => !(decide (x.inst = i) && x.round == round)) ∧
    ((confirmSlot i round t).taint = true ↔ (confirmSlot i round t).pairs ≠ []) ∧ (confirmSlot i round t).g = t.g := by
  refine ⟨rfl, ?_, rfl⟩
  show (!(confirmSlot i round t).pairs.isEmpty) = true ↔ _
  rw [Bool.not_eq_true', Bool.eq_false_iff, ne_eq, List.isEmpty_iff]

/-- A change of the detectors of the clusters alone. -/
structure DetStep (s t : State) : Prop where
  eq : ∃ c, t = { s with clusters := c }
  courses : ∀ j, (t.cluster j).courses = (s.cluster j).courses
  tasks : ∀ j, (t.cluster j).tasks = (s.cluster j).tasks

theorem DetStep.refl (s : State) : DetStep s s := ⟨⟨s.clusters, rfl⟩, fun _ => rfl, fun _ => rfl⟩

theorem DetStep.trans {s t u : State} (h : DetStep s t) (g : DetStep t u) : DetStep s u := by
  obtain ⟨⟨c, rfl⟩, hc, ht⟩ := h
  obtain ⟨⟨d, rfl⟩, hd, hu⟩ := g
  exact ⟨⟨d, rfl⟩, fun j => (hd j).trans (hc j), fun j => (hu j).trans (ht j)⟩

theorem cluster_modCluster (s : State) (k j : Nat) (f : Cluster → Cluster) :
    (s.modCluster k f).cluster j = if j = k then f (s.cluster k) else s.cluster j := by
  unfold State.modCluster State.setCluster State.cluster
  dsimp only
  rw [Tbl.get?_set]
  split <;> rfl

theorem modDetector_detStep (s : State) (k : Nat) (f : Detector → Detector) : DetStep s (s.modDetector (.group k) f) := by
  refine ⟨⟨_, rfl⟩, fun j => ?_, fun j => ?_⟩
  · show ((s.modCluster k _).cluster j).courses = _
    rw [cluster_modCluster]
    split
    · next h => rw [h]
    · rfl
  · show ((s.modCluster k _).cluster j).tasks = _
    rw [cluster_modCluster]
    split
    · next h => rw [h]
    · rfl

theorem detector_modDetector (s : State) (k : Nat) (f : Detector → Detector) :
    (s.modDetector (.group k) f).detector (.group k) = f (s.detector (.group k)) := by
  show ((s.modCluster k _).cluster k).det = _
  rw [cluster_modCluster, if_pos rfl]
  rfl

theorem DetStep.cores {s t : State} (h : DetStep s t) : t.cores = s.cores := by
  obtain ⟨⟨c, rfl⟩, -, -⟩ := h
  rfl

theorem DetStep.runningSlots {s t : State} (h : DetStep s t) : t.runningSlots = s.runningSlots := by
  rw [State.runningSlots, h.cores]
  rfl

/-- No ring and no course belongs to a group, and no SYNLD waits for the start of its round. -/
structure Bare (s : State) (k : Nat) : Prop where
  rings : s.ringsOf (.group k) = []
  courses : (s.cluster k).courses = []
  synld : ∀ e ∈ s.parts, ∀ t, (s.slot e.2.supCore 7).wait ≠ .synld t

theorem DetStep.bare {s t : State} {k : Nat} (h : DetStep s t) (hb : Bare s k) : Bare t k := by
  obtain ⟨⟨c, rfl⟩, hc, -⟩ := h
  exact ⟨hb.rings, (hc k).trans hb.courses, hb.synld⟩

theorem runWaiting_other {s : State} {c n : Nat} {w : Wait → Bool} {body : Instr → Option (State → Effect)} {after : State → State}
    (h : w (s.slot c n).wait = false) : s.runWaiting c n w body after = s :=
  if_neg (by rw [h, Bool.and_false]; exact Bool.false_ne_true)

theorem applySynlds_none {s : State} (i : Inst) (h : ∀ e ∈ s.parts, ∀ t, (s.slot e.2.supCore 7).wait ≠ .synld t) : s.applySynlds i = s := by
  unfold State.applySynlds
  generalize sortBy _ _ = l
  induction l with
  | nil => rfl
  | cons p l ih =>
    rw [List.foldl_cons]
    refine Eq.trans (congrArg (fun u => List.foldl _ u l) ?_) ih
    dsimp only
    split
    · next hgo =>
      refine runWaiting_other ?_
      cases hp : Tbl.get? s.parts p with
      | none =>
        rw [State.part, hp] at hgo
        cases hgo
      | some q =>
        have hpart : s.part p = q := by rw [State.part, hp]; rfl
        have hwait := h _ (mem_of_get? hp)
        rw [hpart]
        split
        · next t ht => exact absurd ht (hwait t)
        · rfl
    · rfl

theorem roundStart_bare {s : State} {k : Nat} (h : Bare s k) : s.roundStart (.group k) = s := by
  simp only [State.roundStart, applySynlds_none _ h.synld, h.rings, h.courses, List.foldl_nil]

/-- What a bare round's end does to its detector before a verdict. -/
def State.closeRound (s : State) (k : Nat) : State :=
  s.modDetector (.group k) fun d =>
    { d with waiting := d.waiting ++ [((s.detector (.group k)).round, !(s.detector (.group k)).evid)], evid := false }

/-- What it does after it: the next round begins. -/
def State.nextRound (s : State) (k : Nat) : State :=
  ((s.modDetector (.group k) fun d => { d with late := [] }).modDetector (.group k) fun d =>
    { d with round := (d.round + 1) % 2 ^ 32, began := s.time })

theorem closeRound_detStep (s : State) (k : Nat) : DetStep s (s.closeRound k) := modDetector_detStep s k _

theorem nextRound_detStep (s : State) (k : Nat) : DetStep s (s.nextRound k) :=
  (modDetector_detStep s k _).trans (modDetector_detStep _ k _)

theorem waiting_closeRound (s : State) (k : Nat) : ((s.closeRound k).detector (.group k)).waiting =
    (s.detector (.group k)).waiting ++ [((s.detector (.group k)).round, !(s.detector (.group k)).evid)] := by
  rw [State.closeRound, detector_modDetector]

section
variable {s : State} {k : Nat}

theorem stepStructures_bare (h : Bare s k) (r : Nat) : s.stepStructures (.group k) r = s := by
  simp only [State.stepStructures, h.rings, h.courses, List.foldl_nil]

theorem roundEvidence_bare (h : Bare s k) : s.roundEvidence (.group k) = ((s.detector (.group k)).evid, s) := by
  simp only [State.roundEvidence, h.rings, List.any_nil, Bool.or_false]

theorem lateRecords_none (h : (s.detector (.group k)).late = []) :
    s.lateRecords (.group k) = s.modDetector (.group k) fun d => { d with late := [] } := by
  simp only [State.lateRecords, h, List.map_nil, List.dedup_nil, List.foldl_nil]

theorem nextRound_eq (hb : Bare s k) (hl : (s.detector (.group k)).late = []) :
    ((s.lateRecords (.group k)).modDetector (.group k) fun d =>
      { d with round := (d.round + 1) % 2 ^ 32, began := (s.lateRecords (.group k)).time }).roundStart (.group k) = s.nextRound k := by
  rw [lateRecords_none hl]
  exact roundStart_bare ((nextRound_detStep s k).bare hb)

/-- A round's end that delivers no verdict. -/
theorem mortarRound_quiet (h : Bare s k) (hl : (s.detector (.group k)).late = []) (hw : (s.detector (.group k)).waiting = []) :
    s.mortarRound (.group k) =
      ((s.closeRound k).modDetector (.group k) fun d => { d with since := Nat.min 255 (d.since + 1) }).nextRound k := by
  have hwait := waiting_closeRound s k
  rw [hw, List.nil_append] at hwait
  have hb := (((closeRound_detStep s k).trans (modDetector_detStep _ k fun d => { d with since := Nat.min 255 (d.since + 1) })).bare h)
  have hlate : (((s.closeRound k).modDetector (.group k) fun d => { d with since := Nat.min 255 (d.since + 1) }).detector (.group k)).late = [] := by
    rw [detector_modDetector, State.closeRound, detector_modDetector]
    exact hl
  rw [← nextRound_eq hb hlate]
  unfold State.closeRound at hwait ⊢
  simp only [State.mortarRound, stepStructures_bare h, roundEvidence_bare h, State.keepClocks, hwait, instLatency, List.length_singleton,
    lt_self_iff_false, if_false]

/-- A round's end that delivers the verdict of an earlier one. -/
theorem mortarRound_judges {r : Nat} {v : Bool} {t : State} (h : Bare s k) (hw : (s.detector (.group k)).waiting = [(r, v)])
    (ht : ((s.closeRound k).modDetector (.group k) fun d =>
      { d with waiting := [((s.detector (.group k)).round, !(s.detector (.group k)).evid)] }).judge (.group k) r v = t)
    (hb : Bare t k) (hl : (t.detector (.group k)).late = []) : s.mortarRound (.group k) = t.nextRound k := by
  have hwait := waiting_closeRound s k
  rw [hw, List.singleton_append] at hwait
  rw [← nextRound_eq hb hl, ← ht]
  unfold State.closeRound at hwait ⊢
  simp only [State.mortarRound, stepStructures_bare h, roundEvidence_bare h, State.keepClocks, hwait, instLatency, List.length_cons,
    List.length_nil, Nat.reduceAdd, Nat.one_lt_ofNat, if_true]

end

/-! ### What a verdict does where nothing runs -/

theorem judge_good {s : State} {k r : Nat} (hb : Bare s k) (hrun : s.runningSlots = []) : s.judge (.group k) r true =
    (s.modDetector (.group k) fun d => { d with legit := true, since := Nat.min 255 (d.since + 1) }).modDetector (.group k)
      fun d => { d with eaters := d.eaters.filter fun e => e.1 != r } := by
  have hb' := (modDetector_detStep s k fun d => { d with legit := true, since := Nat.min 255 (d.since + 1) }).bare hb
  have hrun' (f : Detector → Detector) : (s.modDetector (.group k) f).runningSlots = [] :=
    (modDetector_detStep s k f).runningSlots.trans hrun
  simp only [State.judge, hrun', State.judgeStructures, State.judgeRings, hb'.courses, List.foldl_nil, if_true, Bool.not_true, Bool.and_false,
    Bool.false_eq_true, if_false]

/-- A change of the records of contexts alone. -/
def CtxStep (s t : State) : Prop := ∃ c, t = { s with ctxs := c }

theorem CtxStep.refl (s : State) : CtxStep s s := ⟨s.ctxs, rfl⟩

theorem CtxStep.trans {s t u : State} (h : CtxStep s t) (g : CtxStep t u) : CtxStep s u := by
  obtain ⟨c, rfl⟩ := h
  obtain ⟨d, rfl⟩ := g
  exact ⟨d, rfl⟩

theorem setLaunch_ctxStep (s : State) (l : LaunchId) (x : Launch) : CtxStep s (s.setLaunch l x) := ⟨_, rfl⟩

theorem reachEarly_ctxStep (s : State) (l : LaunchId) : CtxStep s (s.reachEarly l) := by
  unfold State.reachEarly
  split
  · split
    · exact setLaunch_ctxStep s _ _
    · exact .refl s
  · exact .refl s

theorem triggerAt_ctxStep (s : State) (l : LaunchId) (k : Nat) (cover : List (Nat × Nat)) : CtxStep s (s.triggerAt l k cover) := by
  unfold State.triggerAt
  split
  · split
    · exact (setLaunch_ctxStep s _ _).trans (reachEarly_ctxStep _ _)
    · exact .refl s
  · exact .refl s

theorem noteExit_ctxStep (s : State) (c : Nat) (l : Option LaunchId) : CtxStep s (s.noteExit c l) := by
  unfold State.noteExit
  split
  · exact .refl s
  · split
    · dsimp only
      split
      · exact triggerAt_ctxStep s _ _ _
      · exact .refl s
    · exact .refl s

theorem noteExits_ctxStep (l : List (Nat × Msg)) (s : State) : CtxStep s (l.foldl (fun s e => s.noteExit e.1 e.2.launch) s) := by
  induction l generalizing s with
  | nil => exact .refl s
  | cons e l ih => exact (noteExit_ctxStep s _ _).trans (ih _)

/-- Inbox entries are freed; the queue and the slots stay. -/
theorem freed_keeps (l : List QMsg) (k : Core) : (l.foldl (fun k q => k.inFree q.off) k).runq = k.runq ∧
    (l.foldl (fun k q => k.inFree q.off) k).slots = k.slots := by
  induction l generalizing k with
  | nil => exact ⟨rfl, rfl⟩
  | cons q l ih => exact ih _

/-- What is left of a group's completions of a round that was refuted. -/
structure Withdrawn (s t : State) (k r : Nat) : Prop where
  mem : t.mem = s.mem
  wr : t.wr = s.wr
  time : t.time = s.time
  parts : t.parts = s.parts
  slots : ∀ c, (t.core c).slots = (s.core c).slots
  runq : ∀ c, (t.core c).runq = (s.core c).runq.filter fun q => !s.refutedMsg (.group k) r q.msg
  tasks : ∀ j, (t.cluster j).tasks = (s.cluster j).tasks.filter fun x => !s.refutedMsg (.group k) r x.2
  det : ∀ j, (t.cluster j).det = (s.cluster j).det
  courses : ∀ j, (t.cluster j).courses = (s.cluster j).courses

theorem withdraw_withdrawn (s : State) (k r : Nat) : Withdrawn s (s.withdraw (.group k) r) k r := by
  unfold State.withdraw
  extract_lets gone t
  obtain ⟨c, hc⟩ := noteExits_ctxStep gone t
  rw [hc]
  have hcore (j : Nat) : (({ t with ctxs := c } : State).core j).slots = (s.core j).slots ∧
      (({ t with ctxs := c } : State).core j).runq = (s.core j).runq.filter fun q => !s.refutedMsg (.group k) r q.msg := by
    show ((Tbl.get? t.cores j).getD {}).slots = _ ∧ ((Tbl.get? t.cores j).getD {}).runq = _
    rw [State.core, get?_map_snd fun k₀ : Core =>
      (k₀.runq.filter fun q => s.refutedMsg (.group k) r q.msg).foldl (fun k q => k.inFree q.off)
        { k₀ with runq := k₀.runq.filter fun q => !s.refutedMsg (.group k) r q.msg }]
    cases Tbl.get? s.cores j with
    | none => exact ⟨rfl, rfl⟩
    | some k₀ => exact ⟨(freed_keeps _ _).2, (freed_keeps _ _).1⟩
  have hcluster (j : Nat) : ({ t with ctxs := c } : State).cluster j =
      { s.cluster j with tasks := (s.cluster j).tasks.filter fun x => !s.refutedMsg (.group k) r x.2 } := by
    show (Tbl.get? t.clusters j).getD {} = _
    rw [State.cluster, get?_map_snd fun c₀ : Cluster => { c₀ with tasks := c₀.tasks.filter fun t => !s.refutedMsg (.group k) r t.2 }]
    cases Tbl.get? s.clusters j with
    | none => rfl
    | some c₀ => rfl
  refine ⟨rfl, rfl, rfl, rfl, fun j => (hcore j).1, fun j => (hcore j).2, fun j => ?_, fun j => ?_, fun j => ?_⟩
  · rw [hcluster]
  · rw [hcluster]
  · rw [hcluster]

theorem Withdrawn.bare {s t : State} {k r : Nat} (h : Withdrawn s t k r) (hb : Bare s k) : Bare t k where
  rings := by
    have hr := hb.rings
    unfold State.ringsOf at hr ⊢
    rw [h.parts]
    exact hr
  courses := (h.courses k).trans hb.courses
  synld e he w hw := by
    rw [h.parts] at he
    refine hb.synld e he w ?_
    rw [← hw, State.slot, State.slot, Core.slot, Core.slot, h.slots]

theorem judge_bad {s : State} {k r : Nat} (hb : Bare s k) (hrun : s.runningSlots = []) (he : ∀ x ∈ (s.detector (.group k)).eaters, x.1 ≠ r) :
    s.judge (.group k) r false =
    ((s.modDetector (.group k) fun d => { d with legit := false, since := if d.legit then 0 else Nat.min 255 (d.since + 1) }).withdraw
      (.group k) r).modDetector (.group k) fun d =>
        { d with eaters := d.eaters.filter fun e => e.1 != r, refuted := d.refuted ++ [r] } := by
  have hb' := (modDetector_detStep s k fun d => { d with legit := false, since := if d.legit then 0 else Nat.min 255 (d.since + 1) }).bare hb
  have hrun' (f : Detector → Detector) : (s.modDetector (.group k) f).runningSlots = [] :=
    (modDetector_detStep s k f).runningSlots.trans hrun
  have heat : ((s.modDetector (.group k) fun d => { d with legit := false, since := if d.legit then 0 else Nat.min 255 (d.since + 1) }).detector
      (.group k)).eaters.filter (fun e => e.1 == r) = [] := by
    rw [detector_modDetector, List.filter_eq_nil_iff]
    exact fun x hx hxr => he x hx (beq_iff_eq.1 hxr)
  have hholders (f : Detector → Detector) : (s.modDetector (.group k) f).eagerHolders (.group k) r = [] := by
    rw [State.eagerHolders, hrun']
    rfl
  simp only [State.judge, hrun', heat, hholders, State.containRecs, State.judgeStructures, State.judgeRings, hb'.rings, hb'.courses,
    List.foldl_nil, Bool.false_eq_true, if_false, Bool.not_false, Bool.and_true, List.map_nil, List.nil_append, List.filterMap_nil,
    List.dedup_nil]

theorem DetStep.refutedMsg {s t : State} (h : DetStep s t) (i : Inst) (r : Nat) (m : Msg) : t.refutedMsg i r m = s.refutedMsg i r m := by
  obtain ⟨⟨c, rfl⟩, -, -⟩ := h
  rfl

theorem DetStep.parts {s t : State} (h : DetStep s t) : t.parts = s.parts := by
  obtain ⟨⟨c, rfl⟩, -, -⟩ := h
  rfl

theorem DetStep.wr {s t : State} (h : DetStep s t) : t.wr = s.wr := by
  obtain ⟨⟨c, rfl⟩, -, -⟩ := h
  rfl

theorem DetStep.time {s t : State} (h : DetStep s t) : t.time = s.time := by
  obtain ⟨⟨c, rfl⟩, -, -⟩ := h
  rfl

/-- The detector after a round's end, from what it was before the next round began. -/
theorem detector_nextRound (s : State) (k : Nat) : (s.nextRound k).detector (.group k) =
    { s.detector (.group k) with late := [], round := ((s.detector (.group k)).round + 1) % 2 ^ 32, began := s.time } := by
  rw [State.nextRound, detector_modDetector, detector_modDetector]

theorem detector_closeRound (s : State) (k : Nat) : (s.closeRound k).detector (.group k) = { s.detector (.group k) with
    waiting := (s.detector (.group k)).waiting ++ [((s.detector (.group k)).round, !(s.detector (.group k)).evid)], evid := false } := by
  rw [State.closeRound, detector_modDetector]

theorem detector_settled (s : State) (m : Memory) (p : Platform) (k : Nat) :
    ({ s with mem := m, plat := p } : State).detector (.group k) = s.detector (.group k) := rfl

/-- A due round's end gives the state of the next round. -/
theorem mortarRound_answers {s t : State} {k : Nat} {P : State → Prop} (hw : s.wr = []) (hdue : s.roundDue (.group k) = true)
    (h : s.mortarRound (.group k) = t) (ht : t.wr = []) (hp : P { t with mem := s.mem, plat := s.plat }) :
    Answers (exec (.mortarRound (.group k)) s) P := by
  have ho := occurs_event (j := .mortarRound (.group k)) rfl hw
  rw [show s.mortarRoundEnd (.group k) = s.mortarRound (.group k) from if_pos hdue, h] at ho
  refine ⟨_, ho, ?_⟩
  rw [settleMem_fresh (by exact ht)]
  exact hp

section
variable {s : State} {k : Nat}

/-- What a round's end leaves where no verdict is delivered. -/
theorem quietRound (hw : s.wr = []) (hdue : s.roundDue (.group k) = true) (h : Bare s k) (hl : (s.detector (.group k)).late = [])
    (hq : (s.detector (.group k)).waiting = []) :
    let d := s.detector (.group k)
    Answers (exec (.mortarRound (.group k)) s) fun t =>
      let e := t.detector (.group k)
      e.round = (d.round + 1) % 2 ^ 32 ∧ e.waiting = [(d.round, !d.evid)] ∧ e.evid = false ∧ e.legit = d.legit ∧ e.began = s.time ∧
        e.since = Nat.min 255 (d.since + 1) ∧ t.mem = s.mem ∧ t.cores = s.cores ∧ t.parts = s.parts := by
  intro d
  have hs := (((closeRound_detStep s k).trans (modDetector_detStep _ k fun d => { d with since := Nat.min 255 (d.since + 1) })).trans
    (nextRound_detStep _ k))
  have hd : ((((s.closeRound k).modDetector (.group k) fun d => { d with since := Nat.min 255 (d.since + 1) }).nextRound k).detector
      (.group k)) = { d with
        waiting := [(d.round, !d.evid)], evid := false, since := Nat.min 255 (d.since + 1), late := [],
        round := (d.round + 1) % 2 ^ 32, began := s.time } := by
    rw [detector_nextRound, detector_modDetector, detector_closeRound, hq]
    rfl
  refine mortarRound_answers hw hdue (mortarRound_quiet h hl hq) (hs.wr.trans hw) ?_
  intro e
  have he : e = _ := (detector_settled _ _ _ k).trans hd
  rw [he]
  exact ⟨rfl, rfl, rfl, rfl, rfl, rfl, rfl, hs.cores, hs.parts⟩

/-- What it leaves where the verdict of the round before it is good. -/
theorem goodRound {r : Nat} (hw : s.wr = []) (hdue : s.roundDue (.group k) = true) (h : Bare s k) (hl : (s.detector (.group k)).late = [])
    (hq : (s.detector (.group k)).waiting = [(r, true)]) (hrun : s.runningSlots = []) :
    let d := s.detector (.group k)
    Answers (exec (.mortarRound (.group k)) s) fun t =>
      let e := t.detector (.group k)
      e.round = (d.round + 1) % 2 ^ 32 ∧ e.waiting = [(d.round, !d.evid)] ∧ e.evid = false ∧ e.legit = true ∧ e.began = s.time ∧
        e.since = Nat.min 255 (d.since + 1) ∧ t.mem = s.mem ∧ t.cores = s.cores := by
  intro d
  have hclosed := (closeRound_detStep s k).trans (modDetector_detStep _ k fun d' => { d' with waiting := [(d.round, !d.evid)] })
  have hd0 : (((s.closeRound k).modDetector (.group k) fun d' => { d' with waiting := [(d.round, !d.evid)] }).detector (.group k)) =
      { d with waiting := [(d.round, !d.evid)], evid := false } := by
    rw [detector_modDetector, detector_closeRound]
  generalize hu : ((s.closeRound k).modDetector (.group k) fun d' => { d' with waiting := [(d.round, !d.evid)] }) = u at hclosed hd0
  have hs := (hclosed.trans (modDetector_detStep _ k fun d => { d with legit := true, since := Nat.min 255 (d.since + 1) })).trans
    (modDetector_detStep _ k fun d => { d with eaters := d.eaters.filter fun e => e.1 != r })
  have hd := detector_modDetector (u.modDetector (.group k) fun d => { d with legit := true, since := Nat.min 255 (d.since + 1) }) k
    fun d => { d with eaters := d.eaters.filter fun e => e.1 != r }
  rw [detector_modDetector u, hd0] at hd
  have hjudge := (congrArg (fun u => State.judge u (.group k) r true) hu).trans
    (judge_good (r := r) (hclosed.bare h) (hclosed.runningSlots.trans hrun))
  generalize (State.modDetector _ (.group k) fun d => { d with eaters := d.eaters.filter fun e => e.1 != r }) = t at hjudge hs hd
  have hround := mortarRound_judges h hq hjudge (hs.bare h) (by rw [hd]; exact hl)
  have hn := hs.trans (nextRound_detStep t k)
  refine mortarRound_answers hw hdue hround (hn.wr.trans hw) ?_
  intro e
  have he : e = _ := (detector_settled _ _ _ k).trans (detector_nextRound t k)
  rw [he, hd]
  exact ⟨rfl, rfl, rfl, rfl, hs.time, rfl, rfl, hn.cores⟩

/-- What it leaves where that verdict is bad. -/
theorem badRound {r : Nat} (hw : s.wr = []) (hdue : s.roundDue (.group k) = true) (h : Bare s k) (hl : (s.detector (.group k)).late = [])
    (hq : (s.detector (.group k)).waiting = [(r, false)]) (hrun : s.runningSlots = []) (heat : ∀ x ∈ (s.detector (.group k)).eaters, x.1 ≠ r) :
    let d := s.detector (.group k)
    Answers (exec (.mortarRound (.group k)) s) fun t =>
      let e := t.detector (.group k)
      e.round = (d.round + 1) % 2 ^ 32 ∧ e.waiting = [(d.round, !d.evid)] ∧ e.legit = false ∧
        e.since = (if d.legit then 0 else Nat.min 255 (d.since + 1)) ∧ t.mem = s.mem ∧
        (∀ c, (t.core c).runq = (s.core c).runq.filter fun q => !s.refutedMsg (.group k) r q.msg) ∧
        (∀ j, (t.cluster j).tasks = (s.cluster j).tasks.filter fun x => !s.refutedMsg (.group k) r x.2) := by
  intro d
  have hclosed := (closeRound_detStep s k).trans (modDetector_detStep _ k fun d' => { d' with waiting := [(d.round, !d.evid)] })
  have hd0 : (((s.closeRound k).modDetector (.group k) fun d' => { d' with waiting := [(d.round, !d.evid)] }).detector (.group k)) =
      { d with waiting := [(d.round, !d.evid)], evid := false } := by
    rw [detector_modDetector, detector_closeRound]
  have hjudge := judge_bad (r := r) (hclosed.bare h) (hclosed.runningSlots.trans hrun) (by rw [hd0]; exact heat)
  have hs := hclosed.trans (modDetector_detStep _ k fun d => { d with legit := false, since := if d.legit then 0 else Nat.min 255 (d.since + 1) })
  have hd1 := detector_modDetector ((s.closeRound k).modDetector (.group k) fun d' => { d' with waiting := [(d.round, !d.evid)] }) k
    fun d => { d with legit := false, since := if d.legit then 0 else Nat.min 255 (d.since + 1) }
  rw [hd0] at hd1
  generalize (State.modDetector _ (.group k) fun d => { d with legit := false, since := if d.legit then 0 else Nat.min 255 (d.since + 1) }) = u
    at hjudge hs hd1
  have hwd := withdraw_withdrawn u k r
  have ht := modDetector_detStep (u.withdraw (.group k) r) k fun d =>
    { d with eaters := d.eaters.filter fun e => e.1 != r, refuted := d.refuted ++ [r] }
  have hd2 := detector_modDetector (u.withdraw (.group k) r) k fun d =>
    { d with eaters := d.eaters.filter fun e => e.1 != r, refuted := d.refuted ++ [r] }
  rw [show (u.withdraw (.group k) r).detector (.group k) = u.detector (.group k) from hwd.det k, hd1] at hd2
  generalize (State.modDetector (u.withdraw (.group k) r) (.group k) fun d =>
    { d with eaters := d.eaters.filter fun e => e.1 != r, refuted := d.refuted ++ [r] }) = t at hjudge ht hd2
  have hbt : Bare t k := ht.bare (hwd.bare (hs.bare h))
  have hround := mortarRound_judges h hq hjudge hbt (by rw [hd2]; exact hl)
  have hn := ht.trans (nextRound_detStep t k)
  refine mortarRound_answers hw hdue hround (hn.wr.trans (hwd.wr.trans (hs.wr.trans hw))) ?_
  intro e
  have he : e = _ := (detector_settled _ _ _ k).trans (detector_nextRound t k)
  rw [he, hd2]
  refine ⟨rfl, rfl, rfl, rfl, rfl, fun c => ?_, fun j => ?_⟩
  · show (Core.runq ((Tbl.get? (t.nextRound k).cores c).getD {})) = _
    rw [hn.cores]
    refine (hwd.runq c).trans ?_
    rw [State.core, hs.cores]
    exact List.filter_congr fun q _ => by rw [hs.refutedMsg]
  · refine (hn.tasks j).trans ((hwd.tasks j).trans ?_)
    rw [hs.tasks]
    exact List.filter_congr fun x _ => by rw [hs.refutedMsg]

end

theorem mortarRound_early {s : State} {i : Inst} (h : s.roundDue i = false) (hw : s.wr = []) : Occurs (.mortarRound i) s s := by
  have ho := occurs_event (j := .mortarRound i) rfl hw
  rwa [show s.mortarRoundEnd i = s from if_neg (ne_true_of_eq_false h)] at ho

/-- Settles O40: a round that ends by its verdict (`quietRound`, `goodRound`, `badRound`), and the step of each structure (`ring_fire_spec`, `trellis_step_spec`). -/
theorem mortarRounds : Obligations.MortarRounds := by
  refine ⟨?_, fun s i => ⟨roundDue_iff s i, fun h hw => mortarRound_early h hw⟩, confirmSlot_spec, ring_fire_val,
    fun r hn hk hv hheld hrel h => ring_fire_spec hn hk hv hheld hrel h, trellis_step_spec, course_complete_spec⟩
  intro s k hw hrings hcourses hlate hsynld d
  have hb : Bare s k := ⟨hrings, hcourses, hsynld⟩
  refine ⟨fun ht => ?_, fun ht => ?_⟩
  · exact mortarRound_early (Bool.eq_false_iff.2 fun hd => Nat.not_le.2 ht ((roundDue_iff s _).1 hd)) hw
  · have hdue := (roundDue_iff s (.group k)).2 ht
    exact ⟨fun hq => quietRound hw hdue hb hlate hq, fun r hq hrun => goodRound hw hdue hb hlate hq hrun,
      fun r hq hrun he => badRound hw hdue hb hlate hq hrun he⟩

end Machine
end Sys2Proof
end

section
/-! PROOF. Trap queues, the supervisor's answers and the tasks of a pair (06_issuing.md R102, R107; 22_interruption.md R316 to R320;
24_protection.md R337, R338): O45. -/

namespace Sys2Proof
namespace Machine

open Safety

/-! ## Budgets, deadlocks of the pool and errors (06 R102, R107; 22 R316) -/

/-- An event that takes a trap of an ordinary task leaves what the trap leaves. -/
theorem answers_trapped {s : State} {j : Instr} {f : State → State} {c n p cause code : Nat} {addr : W64} (he : exec j s = event f s)
    (hw : s.wr = []) (hf : f s = s.takeTrap c n cause code addr) (h1 : s.privileged c n = false) (h2 : s.primaryOf? c = none)
    (h3 : s.mirrorOf? c = none) (hp : s.corePart? c = some p) (hd : (s.part p).debugger = false) (ho : (s.part p).ordinary < 252) :
    Answers (exec j s) (Trapped s c n p cause code addr) := by
  have hocc := occurs_event he hw
  rw [hf] at hocc
  exact ⟨_, hocc, trapped_settleMem (takeTrap_trapped cause code addr h1 h2 h3 hp hd ho) hw⟩

theorem budgetExpiry_fires {s : State} {c n : Nat} (hr : (s.slot c n).running = true) (hb : (s.slot c n).budg = 0)
    (hi : (s.slot c n).wait.issued = false) (ht : (s.slot c n).pairTrap = none) (hh : (s.core c).halted = false) :
    s.budgetExpiry c n = s.takeTrap c n Cause.budget 0 0 := by
  refine if_pos ?_
  rw [hr, decide_eq_true hb, hi, ht, hh]
  rfl

theorem budgetExpiry_left {s : State} {c n : Nat} (hb : (s.slot c n).budg ≠ 0) : s.budgetExpiry c n = s := by
  refine if_neg ?_
  rw [decide_eq_false hb, Bool.and_false]
  exact Bool.false_ne_true

theorem budgetExpiry_idle {s : State} {c n : Nat} (hr : (s.slot c n).running = false) : s.budgetExpiry c n = s := by
  refine if_neg ?_
  rw [hr]
  exact Bool.false_ne_true

theorem poolAbort_fires {s : State} {c n : Nat} {j : Instr} (hv : (s.core c).poolVictim = some n) (hs : (s.slot c n).stream = [])
    (hf : s.fetch c n = (s, .ok j)) : s.poolAbort c = s.takeTrap c n Cause.cbfull 0 (instrBits j) := by
  simp only [State.poolAbort, hv, State.nextBits, hs, hf]

theorem poolAbort_none {s : State} {c : Nat} (hv : (s.core c).poolVictim = none) : s.poolAbort c = s := by
  simp only [State.poolAbort, hv]

theorem eccTrap_idle {s : State} {c n : Nat} (hr : (s.slot c n).running = false) : s.eccTrap c n = s :=
  if_pos (by rw [hr]; rfl)

theorem pairCores?_none {s : State} {c : Nat} (h2 : s.primaryOf? c = none) (h3 : s.mirrorOf? c = none) : s.pairCores? c = none := by
  rw [State.pairCores?, h2, Option.getD_none, h3]
  rfl

theorem eccTrap_fires {s : State} {c n : Nat} (hr : (s.slot c n).running = true) (h1 : s.privileged c n = false)
    (h2 : s.primaryOf? c = none) (h3 : s.mirrorOf? c = none) :
    s.eccTrap c n = s.trapNow c n Cause.ecc 0 0 (s.slot c n).pc true := by
  refine (if_neg (by rw [hr]; exact Bool.false_ne_true)).trans (if_neg ?_)
  rw [h1, pairCores?_none h2 h3]
  exact Bool.false_ne_true

/-! ### The victim of a deadlock -/

/-- Of two slots the one whose task was dispatched later; the first where both are one task. -/
def laterTask (f e : Nat × Slot) : Nat × Slot := if f.2.task < e.2.task then e else f

theorem lastTask_cons (x : Nat × Slot) (l : List (Nat × Slot)) : lastTask (x :: l) = some (l.foldl laterTask x) := by
  show l.foldl _ (some x) = _
  induction l generalizing x with
  | nil => rfl
  | cons y l ih =>
    rw [List.foldl_cons, List.foldl_cons, ← ih]
    refine congrArg (fun b => List.foldl _ b l) ?_
    exact (apply_ite some (x.2.task < y.2.task) y x).symm

theorem le_laterTask (f e : Nat × Slot) : f.2.task ≤ (laterTask f e).2.task ∧ e.2.task ≤ (laterTask f e).2.task := by
  unfold laterTask
  split
  · next h => exact ⟨h.le, le_rfl⟩
  · next h => exact ⟨le_rfl, Nat.not_lt.1 h⟩

theorem foldl_laterTask (l : List (Nat × Slot)) (x : Nat × Slot) :
    l.foldl laterTask x ∈ x :: l ∧ ∀ f ∈ x :: l, f.2.task ≤ (l.foldl laterTask x).2.task := by
  induction l generalizing x with
  | nil => exact ⟨List.mem_cons_self, fun f hf => by rw [List.mem_singleton.1 hf]; rfl⟩
  | cons y l ih =>
    obtain ⟨hm, hl⟩ := ih (laterTask x y)
    obtain ⟨hx, hy⟩ := le_laterTask x y
    have hg := hl _ List.mem_cons_self
    rw [List.foldl_cons]
    refine ⟨?_, fun f hf => ?_⟩
    · rcases List.mem_cons.1 hm with h | h
      · rw [h, laterTask]
        split
        · exact List.mem_cons_of_mem _ List.mem_cons_self
        · exact List.mem_cons_self
      · exact List.mem_cons_of_mem _ (List.mem_cons_of_mem _ h)
    · rcases List.mem_cons.1 hf with rfl | hf
      · exact hx.trans hg
      · rcases List.mem_cons.1 hf with rfl | hf
        · exact hy.trans hg
        · exact hl f (List.mem_cons_of_mem _ hf)

/-- The task of a list that was dispatched last is of the list, and none was dispatched after it. -/
theorem lastTask_spec {l : List (Nat × Slot)} {e : Nat × Slot} (h : lastTask l = some e) : e ∈ l ∧ ∀ f ∈ l, f.2.task ≤ e.2.task := by
  cases l with
  | nil => cases h
  | cons x l =>
    rw [lastTask_cons] at h
    exact Option.some.inj h ▸ foldl_laterTask l x

theorem lastTask_none {l : List (Nat × Slot)} (h : lastTask l = none) : l = [] := by
  cases l with
  | nil => rfl
  | cons x l =>
    rw [lastTask_cons] at h
    cases h

/-- A slot's task waits for sectors that the pool does not have. -/
def PoolWaits (k : Core) (t : Slot) : Prop := t.running = true ∧ ∃ need, t.wait = .pool need ∧ 576 < poolUsed k + need

theorem poolWaits_iff {k : Core} {t : Slot} : (t.running && (t.waitsPool && !k.poolReady t.wait)) = true ↔ PoolWaits k t := by
  refine Bool.and_eq_true_iff.trans (and_congr_right fun _ => ?_)
  cases hw : t.wait with
  | pool need =>
    simp only [Slot.waitsPool, hw, Core.poolReady, Bool.true_and, Bool.not_eq_true', decide_eq_false_iff_not, Nat.not_le]
    exact ⟨fun h => ⟨need, rfl, h⟩, fun ⟨_, hn, h⟩ => Wait.pool.inj hn ▸ h⟩
  | _ => simp [Slot.waitsPool, hw]

theorem poolVictim_spec {k : Core} {n : Nat} (h : k.poolVictim = some n) :
    (∀ e ∈ k.slots, e.2.running = true → 0 < poolShare e.2.buf → PoolWaits k e.2) ∧
    ∃ t, (n, t) ∈ k.slots ∧ PoolWaits k t ∧ ((∃ e ∈ k.slots, PoolWaits k e.2 ∧ e.2.repl = true) → t.repl = true) ∧
      ∀ e ∈ k.slots, PoolWaits k e.2 → (e.2.repl = true ∨ t.repl = false) → e.2.task ≤ t.task := by
  unfold Core.poolVictim at h
  dsimp only at h
  split at h
  case isFalse => cases h
  next hall =>
  have hmem (e : Nat × Slot) : e ∈ k.slots.filter (fun e => e.2.running && (e.2.waitsPool && !k.poolReady e.2.wait)) ↔
      e ∈ k.slots ∧ PoolWaits k e.2 := by
    rw [List.mem_filter, poolWaits_iff]
  refine ⟨fun e he hr hs => ?_, ?_⟩
  · have hb := List.all_eq_true.1 hall e he
    rw [hr, decide_eq_true hs, Bool.true_and] at hb
    exact poolWaits_iff.1 (by rw [hr, Bool.true_and]; simpa using hb)
  · generalize k.slots.filter (fun e => e.2.running && (e.2.waitsPool && !k.poolReady e.2.wait)) = l at h hmem
    cases hrep : lastTask (l.filter fun e => e.2.repl) with
    | some e =>
      rw [hrep] at h
      obtain rfl := Option.some.inj h
      obtain ⟨he, hlast⟩ := lastTask_spec hrep
      obtain ⟨hel, her⟩ := List.mem_filter.1 he
      obtain ⟨hes, hew⟩ := (hmem e).1 hel
      refine ⟨e.2, hes, hew, fun _ => her, fun f hf hfw hfr => ?_⟩
      have hfrep : f.2.repl = true := hfr.resolve_right fun hn => Bool.false_ne_true (hn.symm.trans her)
      exact hlast f (List.mem_filter.2 ⟨(hmem f).2 ⟨hf, hfw⟩, hfrep⟩)
    | none =>
      have hnone := List.filter_eq_nil_iff.1 (lastTask_none hrep)
      rw [hrep] at h
      obtain ⟨e, he, rfl⟩ := Option.map_eq_some_iff.1 (show (lastTask l).map (·.1) = some n from h)
      obtain ⟨hel, hlast⟩ := lastTask_spec he
      obtain ⟨hes, hew⟩ := (hmem e).1 hel
      refine ⟨e.2, hes, hew, ?_, fun f hf hfw _ => hlast f ((hmem f).2 ⟨hf, hfw⟩)⟩
      rintro ⟨f, hf, hfw, hfr⟩
      exact absurd hfr (hnone f ((hmem f).2 ⟨hf, hfw⟩))

/-! ## The trap queue and calls (22 R317, R318) -/

theorem modPart_of_eq {s : State} {p : Nat} {f g : Partition → Partition} (h : f (s.part p) = g (s.part p)) :
    s.modPart p f = s.modPart p g := congrArg (s.setPart p) h

section
variable {s : State} {p : Nat} {r : TRec} {q : List TRec}

theorem queueRoom_enters (hf : (s.part p).fatalHeld = none) (hh : (s.part p).heldRecs = r :: q) (ho : (s.part p).ordinary < 252) :
    s.queueRoom p = s.modPart p fun k => { k with trapq := k.trapq ++ [r], heldRecs := q } := by
  refine modPart_of_eq ?_
  simp only [Partition.fileFatal, hf, fillQueue, hh, if_pos ho]

theorem queueRoom_full (hf : (s.part p).fatalHeld = none) (hh : (s.part p).heldRecs = r :: q) (ho : 252 ≤ (s.part p).ordinary) :
    s.queueRoom p = s.setPart p (s.part p) := by
  refine congrArg (s.setPart p) ?_
  simp only [Partition.fileFatal, hf, fillQueue, hh, if_neg (Nat.not_lt.2 ho)]

end

theorem callGood_iff {k : Partition} {h : Nat} : k.callGood h = true ↔ 160 ≤ h ∧ h < imgLength k.supImem / 2 := by
  rw [Partition.callGood, Bool.and_eq_true, decide_eq_true_eq, decide_eq_true_eq]

/-- A call's record goes before none. -/
theorem enterRec_call {r : TRec} (h : r.call.isSome = true) (l : List TRec) : enterRec r l = l ++ [r] := by
  have hno : r.call.isNone = false := by rw [← Option.not_isSome, h]; rfl
  induction l with
  | nil => rfl
  | cons x l ih =>
    rw [enterRec, hno, Bool.false_and, Bool.false_and, Bool.false_and, Bool.false_and, Bool.false_and, if_neg Bool.false_ne_true, ih]
    rfl

/-- The record of a call at a time. -/
def callRec (s : State) (p h : Nat) (q : Quad) : TRec :=
  { w0 := q.a, w1 := q.b, w2 := q.c, w3 := q.d, payload := [], call := some h, core := (s.part p).supCore, slot := 0, launch := none,
    msgid := 0, at_ := s.time }

theorem postCall_bad {s : State} {p h : Nat} {q : Quad} (hg : (s.part p).callGood h = false) : s.postCall p h q = s :=
  if_neg (ne_true_of_eq_false hg)

theorem postCall_enters {s : State} {p h : Nat} {q : Quad} (hg : (s.part p).callGood h = true) (ho : (s.part p).ordinary < 252) :
    s.postCall p h q = s.modPart p fun k => { k with trapq := k.trapq ++ [callRec s p h q] } := by
  refine (if_pos hg).trans ?_
  unfold State.postRec
  refine (if_neg ?_).trans ((if_pos ho).trans ?_)
  · rintro ⟨-, ht, -⟩
    cases ht
  · rw [enterRec_call rfl]
    rfl

section
variable {s : State} {c h : Nat} {q : Quad}

theorem callContext_resident {p : Nat} (hp : s.residentIn? c = some p) : s.callContext c h q = s.postCall p h q := by
  rw [State.callContext, hp]

theorem callContext_away (hp : s.residentIn? c = none) : s.callContext c h q =
    if (s.ctx c).alive then s.modCtx c fun x => { x with calls := x.calls ++ [(h, q)] } else s := by
  rw [State.callContext, hp]

end

/-! ## Replies (22 R319, R320) -/

theorem removeFirst_head {α : Type} [DecidableEq α] (x : α) (l : List α) : removeFirst (fun y => y == x) (x :: l) = l := by
  simp only [removeFirst, beq_self_eq_true, if_true]

section
variable {s : State} {c n p code : Nat} {sel : Nat → Bool}

theorem replyTakes_halted_none (hp : s.corePart? c = some p) (hh : (s.part p).halt ≠ .running)
    (h : ∀ r ∈ (s.part p).debugRecs, r.core = c → r.slot ≠ n) : s.replyTakes c n sel code = s := by
  have hnone : (s.part p).debugRecs.find? (fun r => r.core == c && r.slot == n) = none :=
    List.find?_eq_none.2 fun r hr hb => by
      obtain ⟨h₁, h₂⟩ := Bool.and_eq_true_iff.1 hb
      exact h r hr (beq_iff_eq.1 h₁) (beq_iff_eq.1 h₂)
  simp only [State.replyTakes, hp, hnone, ne_eq, hh, not_false_eq_true, if_true]

theorem replyTakes_halted {r : TRec} {rest : List TRec} (hp : s.corePart? c = some p) (hh : (s.part p).halt ≠ .running)
    (hd : (s.part p).debugRecs = r :: rest) (hc : r.core = c) (hn : r.slot = n) : s.replyTakes c n sel code =
      s.modPart p fun k => { k with debugRecs := rest, replies := k.replies ++ [⟨c, n, code, r.task, none⟩] } := by
  have hfind : (s.part p).debugRecs.find? (fun r => r.core == c && r.slot == n) = some r := by
    rw [hd]
    exact List.find?_cons_of_pos (by rw [hc, hn, beq_self_eq_true, beq_self_eq_true]; rfl)
  simp only [State.replyTakes, hp, hfind, ne_eq, hh, not_false_eq_true, if_true]
  refine modPart_of_eq ?_
  rw [hd, removeFirst_head]

theorem replyTakes_none (hp : s.corePart? c = some p) (hh : (s.part p).halt = .running)
    (hr : ∀ r ∈ (s.part p).replies, r.core = c → r.slot = n → sel r.code = false)
    (h : ∀ r ∈ (s.part p).debugRecs, r.core = c → r.slot ≠ n) : s.replyTakes c n sel code = s := by
  have hnone : (s.part p).debugRecs.find? (fun r => r.core == c && r.slot == n) = none :=
    List.find?_eq_none.2 fun r hr hb => by
      obtain ⟨h₁, h₂⟩ := Bool.and_eq_true_iff.1 hb
      exact h r hr (beq_iff_eq.1 h₁) (beq_iff_eq.1 h₂)
  have hreply : (s.part p).replies.find? (fun r => r.core == c && r.slot == n && sel r.code) = none :=
    List.find?_eq_none.2 fun r hm hb => by
      obtain ⟨h₁₂, h₃⟩ := Bool.and_eq_true_iff.1 hb
      obtain ⟨h₁, h₂⟩ := Bool.and_eq_true_iff.1 h₁₂
      exact Bool.false_ne_true ((hr r hm (beq_iff_eq.1 h₁) (beq_iff_eq.1 h₂)).symm.trans h₃)
  simp only [State.replyTakes, hp, hreply, hnone, hh, ne_eq, not_true_eq_false, if_false]

theorem replyTakes_reply {r : Reply} {rest : List Reply} (hp : s.corePart? c = some p) (hh : (s.part p).halt = .running)
    (hd : (s.part p).replies = r :: rest) (hc : r.core = c) (hn : r.slot = n) (hs : sel r.code = true) :
    s.replyTakes c n sel code = if s.replyReady p r.giver then
      (s.modPart p fun k => { k with replies := rest }).reply c n r.task r.code else s := by
  have hfind : (s.part p).replies.find? (fun r => r.core == c && r.slot == n && sel r.code) = some r := by
    rw [hd]
    exact List.find?_cons_of_pos (by rw [hc, hn, hs, beq_self_eq_true, beq_self_eq_true]; rfl)
  have hmod : (s.modPart p fun k => { k with replies := removeFirst (fun x => x == r) k.replies }) =
      s.modPart p fun k => { k with replies := rest } := modPart_of_eq (by rw [hd, removeFirst_head])
  simp only [State.replyTakes, hp, hfind, hh, ne_eq, not_true_eq_false, if_false, hmod]

end

theorem reply_other {s : State} {c n task code : Nat} (h : task ≠ (s.slot c n).task) : s.reply c n task code = s :=
  if_neg fun ht => h ht.2.symm

/-- The reply to a parked slot of a core without a mirror. -/
theorem reply_single {s : State} {c n : Nat} (code : Nat) (hp : (s.slot c n).parked = true) (hm : s.mirrorOf? c = none) :
    s.reply c n (s.slot c n).task code =
      if code = 1 then s.replyResume c n else if code = 2 then s.replySkip c n else s.replyKill c n := by
  refine (if_pos ⟨hp, rfl⟩).trans ?_
  rw [hm]

/-- Replies 0 and 3 are one: KILL. -/
theorem reply_kill (s : State) (c n task : Nat) : s.reply c n task 3 = s.reply c n task 0 := rfl

theorem CtxStep.mem {s t : State} (h : CtxStep s t) : t.mem = s.mem := by
  obtain ⟨x, rfl⟩ := h
  rfl

theorem CtxStep.core {s t : State} (h : CtxStep s t) (c : Nat) : t.core c = s.core c := by
  obtain ⟨x, rfl⟩ := h
  rfl

theorem CtxStep.slot {s t : State} (h : CtxStep s t) (c n : Nat) : t.slot c n = s.slot c n := by
  rw [State.slot, h.core, State.slot]

/-- What a slot's unpark leaves: its slot is free, and queues and memory are as they were. -/
theorem unpark_spec (s : State) (c n : Nat) : ((s.unpark c n).slot c n).parked = false ∧ (s.unpark c n).mem = s.mem ∧
    ((s.unpark c n).core c).runq = (s.core c).runq := by
  have hx := noteExit_ctxStep (s.modSlot c n fun t => { t with parked := false, msg := none }) c (s.slot c n).launch
  refine ⟨?_, hx.mem, (congrArg Core.runq (hx.core c)).trans (runq_modSlot s c n _)⟩
  exact (congrArg Slot.parked (hx.slot c n)).trans (congrArg Slot.parked (State.slot_modSlot_self _ _ _ _))

theorem passToken_queue (s : State) (c n task ring mem round : Nat) (l : Option LaunchId) :
    (s.passToken c n task ring mem round l).mem = s.mem ∧
      ((s.passToken c n task ring mem round l).core c).runq = (s.core c).runq := by
  refine ⟨rfl, ?_⟩
  simp only [State.passToken, State.nextReq, State.core_modCore_self]

theorem endMsg_queue (s : State) (c n task : Nat) (m : Msg) :
    (s.endMsg c n task m).mem = s.mem ∧ ((s.endMsg c n task m).core c).runq = (s.core c).runq := by
  have htie := (SlotsKept.of_queueKept s c (fun k => k.retireTie m.tie) (retireTie_queueKept _ _)).2
  unfold State.endMsg
  split
  · exact ⟨rfl, rfl⟩
  · split
    · obtain ⟨hm, hq⟩ := passToken_queue (s.modCore c fun k => k.retireTie m.tie) c n task _ _ _ m.launch
      exact ⟨hm, hq.trans htie⟩
    · exact ⟨rfl, htie⟩

section
variable {s : State} {c n : Nat} {q : QMsg}

theorem replyResume_spec (hp : (s.slot c n).parked = true) (hr : (s.slot c n).repl = true) (hq : (s.core c).heldMsg? (s.slot c n) = some q) :
    ((s.replyResume c n).slot c n).parked = false ∧ (s.replyResume c n).mem = s.mem ∧
      ((s.replyResume c n).core c).runq = (s.core c).runq.map fun x =>
        if x.off = q.off then { x with msg := { x.msg with held := false } } else x := by
  have he : s.replyResume c n = (s.modCore c fun k => { k with runq := k.runq.map fun x =>
      if x.off == q.off then { x with msg := { x.msg with held := false } } else x }).unpark c n := by
    simp only [State.replyResume, hp, hr, hq, if_true]
  obtain ⟨hs, hm, hu⟩ := unpark_spec (s.modCore c fun k => { k with runq := k.runq.map fun x =>
      if x.off == q.off then { x with msg := { x.msg with held := false } } else x }) c n
  rw [he]
  refine ⟨hs, hm, hu.trans ?_⟩
  rw [State.core_modCore_self]
  simp only [beq_iff_eq]

theorem replySkip_spec (hp : (s.slot c n).parked = true) (hr : (s.slot c n).repl = true) (hq : (s.core c).heldMsg? (s.slot c n) = some q) :
    ((s.replySkip c n).slot c n).parked = false ∧ (s.replySkip c n).mem = s.mem ∧
      ((s.replySkip c n).core c).runq = (s.core c).runq.filter fun x => x.off != q.off := by
  have he : s.replySkip c n = ((s.modCore c fun k => { (k.inFree q.off) with
      runq := k.runq.filter fun x => x.off != q.off }).endMsg c n (s.slot c n).task q.msg).unpark c n := by
    simp only [State.replySkip, hp, hr, hq, if_true]
  obtain ⟨hem, heq⟩ := endMsg_queue (s.modCore c fun k => { (k.inFree q.off) with
      runq := k.runq.filter fun x => x.off != q.off }) c n (s.slot c n).task q.msg
  obtain ⟨hs, hm, hu⟩ := unpark_spec ((s.modCore c fun k => { (k.inFree q.off) with
      runq := k.runq.filter fun x => x.off != q.off }).endMsg c n (s.slot c n).task q.msg) c n
  rw [he]
  exact ⟨hs, hm.trans hem, hu.trans (heq.trans (by rw [State.core_modCore_self]))⟩

theorem replyKill_launch {l : LaunchId} (hp : (s.slot c n).parked = true) (hl : (s.slot c n).launch = some l) :
    s.replyKill c n = s.killLaunch l := by
  simp only [State.replyKill, hp, hl, if_true]

theorem replyKill_none (hp : (s.slot c n).parked = true) (hl : (s.slot c n).launch = none) : s.replyKill c n = s.replySkip c n := by
  simp only [State.replyKill, hp, hl, if_true]

end

/-! ## The tasks of a pair (24 R337) -/

section
variable {s : State} {core c m n : Nat}

theorem plumbCheck_waits (hp : s.pairCores? core = some (c, m)) (h : (s.slot c n).pairEnd? = none ∨ (s.slot m n).pairEnd? = none) :
    s.plumbCheck core n = s := by
  simp only [State.plumbCheck, hp]
  rcases h with h | h
  · rw [h]
  · rw [h]
    split
    · next hb => cases hb
    · rfl

theorem plumbCheck_hashes {g h : W64} {i j : Nat} (hp : s.pairCores? core = some (c, m)) (hc : (s.slot c n).pairEnd? = some (.hash g i))
    (hm : (s.slot m n).pairEnd? = some (.hash h j)) : s.plumbCheck core n =
      if g = h ∧ i = j then (s.passPlumb c n).passPlumb m n else s.pairDiffers c m n := by
  simp only [State.plumbCheck, hp, hc, hm, State.comparePair]

theorem plumbTimeout_first {e : PairEnd} (hp : s.pairCores? core = some (c, m)) (hc : (s.slot c n).pairEnd? = some e)
    (hm : (s.slot m n).pairEnd? = none) : s.plumbTimeout core n =
      if 4096 ≤ s.time - (s.slot c n).hashTime then s.pairDiffers c m n else s := by
  simp only [State.plumbTimeout, hp, hc, hm] <;> rfl

end

/-- An abort leaves the queue of another core, and whether its slots run. -/
theorem abortTask_other {s : State} {c m : Nat} (h : c ≠ m) (n k : Nat) :
    ((s.abortTask m n).core c).runq = (s.core c).runq ∧ ((s.abortTask m n).slot c k).running = (s.slot c k).running := by
  obtain ⟨x, hx⟩ := returnTiles_clusters (tileEntries (s.slot m n).buf) s
  have hcore : (State.modCore { s with clusters := x } m fun k => (k.dropUnreleased n (s.slot m n).task).giveBack (s.slot m n)).core c =
      s.core c := by
    rw [State.core_modCore, if_neg h]
    rfl
  unfold State.abortTask
  dsimp only
  rw [hx]
  generalize State.modCore { s with clusters := x } m _ = v at hcore
  have hled := dropFollowers_led m n m rfl v
  generalize v.dropFollowers m n = w at hled
  refine ⟨?_, ?_⟩
  · rw [State.setSlot, State.core_setCore, if_neg h, ← hcore]
    have hq := congrArg Core.runq (hled.core c)
    exact hq
  · obtain ⟨wt, f, st, a, ho⟩ := hled.others c k
    rw [State.slot_setSlot, if_neg fun hc => h hc.1, ho, State.slot, hcore, State.slot]

theorem abortTask_running (s : State) (c n : Nat) : ((s.abortTask c n).slot c n).running = false :=
  congrArg Slot.running (State.slot_setSlot_self _ _ _ _)

theorem retryTask_spares (s : State) (c n : Nat) : Spares c n s (s.retryTask c n) :=
  ((abortTask_spares s c n).trans ((returnMsg_slotsKept _ c (s.slot c n) fun m => { m with retried := true }).spares c n)).trans
    (.setSlot _ c n _)

theorem retryTask_running (s : State) (c n : Nat) : ((s.retryTask c n).slot c n).running = false := by
  have hret := (returnMsg_slotsKept (s.abortTask c n) c (s.slot c n) fun m => { m with retried := true }).slots c n
  unfold State.retryTask
  dsimp only
  rw [State.slot_modSlot_self, hret]
  dsimp only
  exact abortTask_running s c n

/-- The message of a task that runs again is at the head of its level, marked. -/
theorem retryTask_runq {s : State} {c n : Nat} {x : Msg} (hx : (s.slot c n).msg = some x) : ∃ off,
    ((s.retryTask c n).core c).runq = enqueueHead (s.core c).runq { msg := { x with retried := true }, off := off } := by
  obtain ⟨off, h⟩ := returnMsg_runq (s.abortTask c n) c (fun m => { m with retried := true }) hx
  rw [abortTask_runq] at h
  exact ⟨off, (runq_modSlot _ c n _).trans h⟩

theorem retryTask_other {s : State} {c m : Nat} (h : c ≠ m) (n k : Nat) :
    ((s.retryTask m n).core c).runq = (s.core c).runq ∧ ((s.retryTask m n).slot c k).running = (s.slot c k).running := by
  obtain ⟨hq, hr⟩ := abortTask_other (s := s) h n k
  have hret : ((s.abortTask m n).returnMsg m (s.slot m n) fun m => { m with retried := true }).core c = (s.abortTask m n).core c := by
    unfold State.returnMsg
    split
    · exact (State.core_modCore _ _ _ _).trans (if_neg h)
    · rfl
  refine ⟨?_, ?_⟩
  · rw [State.retryTask, State.modSlot, State.setSlot, State.core_setCore, if_neg h, hret, hq]
  · rw [State.retryTask, State.slot_modSlot, if_neg fun hc => h hc.1, State.slot, hret]
    exact hr

section
variable {s : State} {c m n p : Nat} {x : Msg}

theorem countMismatch_eq (hp : s.corePart? c = some p) : s.countMismatch c =
    s.modPart p fun k => { k with mismatches := Tbl.put 0 k.mismatches c (Tbl.find 0 k.mismatches c + 1) } := by
  rw [State.countMismatch, hp]

theorem pairDiffers_again (hx : (s.slot c n).msg = some x) (ha : x.retried = true) :
    s.pairDiffers c m n = (s.trapPark m n Cause.pair 0 0).trapNow c n Cause.pair 0 0 (s.slot c n).pc true := by
  simp only [State.pairDiffers, hx, ha, if_true, Bool.not_true, Bool.and_false, Bool.false_eq_true, if_false]

theorem pairDiffers_late (hx : (s.slot c n).msg = some x) (ha : x.retried = false) (hr : (s.slot c n).repl = false) :
    s.pairDiffers c m n = ((s.countMismatch c).trapPark m n Cause.pair 0 0).trapNow c n Cause.pair 0 0 (s.slot c n).pc true := by
  simp only [State.pairDiffers, hx, ha, hr, Bool.false_and, Bool.false_eq_true, if_false]

theorem pairDiffers_first (hx : (s.slot c n).msg = some x) (ha : x.retried = false) (hr : (s.slot c n).repl = true) :
    s.pairDiffers c m n = ((s.countMismatch c).retryTask c n).retryTask m n := by
  simp only [State.pairDiffers, hx, ha, hr, Bool.not_false, Bool.and_self, Bool.false_eq_true, if_false, if_true]

theorem pairDiffers_first_spec (hx : (s.slot c n).msg = some x) (hr : (s.slot c n).repl = true) (hp : s.corePart? c = some p)
    (ha : x.retried = false) (hne : c ≠ m) :
    let t := s.pairDiffers c m n
    (t.slot c n).running = false ∧ (t.slot m n).running = false ∧ t.mem = s.mem ∧
      (∃ off, (t.core c).runq = enqueueHead (s.core c).runq { msg := { x with retried := true }, off := off }) ∧
      Tbl.find 0 (t.part p).mismatches c = Tbl.find 0 (s.part p).mismatches c + 1 := by
  intro t
  have ht : t = ((s.countMismatch c).retryTask c n).retryTask m n := pairDiffers_first hx ha hr
  rw [countMismatch_eq hp] at ht
  have hpart : Tbl.find 0 ((s.modPart p fun k => { k with
      mismatches := Tbl.put 0 k.mismatches c (Tbl.find 0 k.mismatches c + 1) }).part p).mismatches c =
      Tbl.find 0 (s.part p).mismatches c + 1 := by
    rw [State.part_modPart_self]
    dsimp only
    rw [Tbl.find_put, if_pos rfl]
  obtain ⟨off, hq⟩ := retryTask_runq (s := s.modPart p fun k => { k with
      mismatches := Tbl.put 0 k.mismatches c (Tbl.find 0 k.mismatches c + 1) }) (c := c) (n := n) hx
  have hrun := retryTask_running (s.modPart p fun k => { k with
      mismatches := Tbl.put 0 k.mismatches c (Tbl.find 0 k.mismatches c + 1) }) c n
  have hs₁ := retryTask_spares (s.modPart p fun k => { k with
      mismatches := Tbl.put 0 k.mismatches c (Tbl.find 0 k.mismatches c + 1) }) c n
  generalize State.retryTask _ c n = u at ht hq hrun hs₁
  obtain ⟨hqo, hro⟩ := retryTask_other (s := u) hne n n
  have hs₂ := retryTask_spares u m n
  rw [ht]
  refine ⟨hro.trans hrun, retryTask_running u m n, hs₂.mem.trans hs₁.mem, ⟨off, hqo.trans hq⟩, ?_⟩
  rw [hs₂.part, hs₁.part]
  exact hpart

end

theorem engineHeld_iff {s : State} {c unit p : Nat} (hp : s.corePart? c = some p) :
    s.engineHeld c unit = true ↔ ∃ r ∈ (s.part p).heldRecs, r.core = c ∧ r.engine = unit := by
  simp only [State.engineHeld, hp, List.any_eq_true, Bool.and_eq_true, beq_iff_eq]

/-! ## Settling -/

/-- The reply events: the code of the debugger's reply, and the codes that the event takes. -/
theorem replyEvent_spec {s : State} {j : Instr} {c n code p : Nat} {sel : List Nat} (hw : s.wr = []) (hp : s.corePart? c = some p)
    (hj : (j = .resume c n ∧ code = 1 ∧ sel = [1]) ∨ (j = .skip c n ∧ code = 2 ∧ sel = [2]) ∨
      (j = .kill c n ∧ code = 0 ∧ sel = [0, 3])) :
    ((s.part p).halt ≠ .running → (∀ r ∈ (s.part p).debugRecs, r.core = c → r.slot ≠ n) → Occurs j s s) ∧
    (∀ r rest, (s.part p).halt ≠ .running → (s.part p).debugRecs = r :: rest → r.core = c → r.slot = n →
      Occurs j s (s.modPart p fun k => { k with debugRecs := rest, replies := k.replies ++ [⟨c, n, code, r.task, none⟩] })) ∧
    ((s.part p).halt = .running → (∀ r ∈ (s.part p).replies, r.core = c → r.slot = n → r.code ∉ sel) →
      (∀ r ∈ (s.part p).debugRecs, r.core = c → r.slot ≠ n) → Occurs j s s) ∧
    (∀ r rest, (s.part p).halt = .running → (s.part p).replies = r :: rest → r.core = c → r.slot = n → r.code ∈ sel →
      (s.replyReady p r.giver = true →
        Occurs j s ((s.modPart p fun k => { k with replies := rest }).reply c n r.task code)) ∧
      (s.replyReady p r.giver = false → Occurs j s s)) := by
  -- each event takes the replies that a predicate `f` selects, whose meaning is that of its own code
  obtain ⟨f, hf, hcode, he⟩ : ∃ f : Nat → Bool, (∀ k, f k = true ↔ k ∈ sel) ∧
      (∀ (u : State) k task, f k = true → u.reply c n task k = u.reply c n task code) ∧
      exec j s = event (fun s => s.replyTakes c n f code) s := by
    rcases hj with ⟨rfl, rfl, rfl⟩ | ⟨rfl, rfl, rfl⟩ | ⟨rfl, rfl, rfl⟩
    · exact ⟨fun k => k == 1, fun k => by simp, fun u k task hk => by rw [beq_iff_eq.1 hk], rfl⟩
    · exact ⟨fun k => k == 2, fun k => by simp, fun u k task hk => by rw [beq_iff_eq.1 hk], rfl⟩
    · refine ⟨fun k => k == 0 || k == 3, fun k => by simp, fun u k task hk => ?_, rfl⟩
      rcases Bool.or_eq_true_iff.1 hk with h | h
      · rw [beq_iff_eq.1 h]
      · rw [beq_iff_eq.1 h, reply_kill]
  have ho := occurs_event he hw
  have hnot {k : Nat} (hk : k ∉ sel) : f k = false := Bool.eq_false_iff.2 fun h => hk ((hf k).1 h)
  refine ⟨fun hh hd => ?_, fun r rest hh hd hc hn => ?_, fun hh hr hd => ?_, fun r rest hh hd hc hn hs => ?_⟩
  · rwa [replyTakes_halted_none hp hh hd] at ho
  · rwa [replyTakes_halted hp hh hd hc hn] at ho
  · rwa [replyTakes_none hp hh (fun r hm hc hn => hnot (hr r hm hc hn)) hd] at ho
  · have hsel := (hf r.code).2 hs
    rw [replyTakes_reply hp hh hd hc hn hsel] at ho
    refine ⟨fun hready => ?_, fun hready => ?_⟩
    · rwa [if_pos hready, hcode _ _ _ hsel] at ho
    · rwa [if_neg (ne_true_of_eq_false hready)] at ho

/-- Settles O45: who is aborted (`poolVictim_spec`), what enters the trap queue (`queueRoom_enters`), what a reply does (`replyResume_spec`, `replySkip_spec`) and how
a pair goes on (`plumbCheck_hashes`). -/
theorem trapsAndReplies : Obligations.TrapsAndReplies := by
  refine ⟨?_, ?_, fun k n h => poolVictim_spec h, ?_, ?_, fun s j c n sel code p hw hp hj => replyEvent_spec hw hp hj, ?_, ?_, ?_, ?_,
    fun s c unit p hp => engineHeld_iff hp, fun s hw => occurs_event (j := .correctedError) rfl hw⟩
  · intro s c n p hw h1 h2 h3 hp hd ho hr
    refine ⟨fun hb hi ht hh => ?_, fun j hv hs hf => ?_, ?_⟩
    · exact answers_trapped (j := .budgetExpiry c n) rfl hw (budgetExpiry_fires hr hb hi ht hh) h1 h2 h3 hp hd ho
    · exact answers_trapped (j := .cbfullDeadlockAbort c) rfl hw (poolAbort_fires hv hs hf) h1 h2 h3 hp hd ho
    · have hocc := occurs_event (j := .eccUncorrectable c n) rfl hw
      rwa [eccTrap_fires hr h1 h2 h3] at hocc
  · intro s c n hw
    have hbudget := occurs_event (j := .budgetExpiry c n) rfl hw
    have hecc := occurs_event (j := .eccUncorrectable c n) rfl hw
    have hpool := occurs_event (j := .cbfullDeadlockAbort c) rfl hw
    refine ⟨fun hb => ?_, fun hr => ⟨?_, ?_⟩, fun hv => ?_⟩
    · rwa [budgetExpiry_left hb] at hbudget
    · rwa [budgetExpiry_idle hr] at hbudget
    · rwa [eccTrap_idle hr] at hecc
    · rwa [poolAbort_none hv] at hpool
  · intro s p r q hw hf hh
    have ho := occurs_event (j := .trapQueueWaitEnd p) rfl hw
    refine ⟨fun hroom => ?_, fun hfull => ?_⟩
    · rwa [queueRoom_enters hf hh hroom] at ho
    · rwa [queueRoom_full hf hh hfull] at ho
  · intro s c h q hw
    have ho := occurs_event (j := .callRecord c h q) rfl hw
    refine ⟨fun p hp => ⟨fun hbad => ?_, fun h₁ h₂ hroom => ⟨callRec s p h q, ?_, rfl, rfl, rfl, rfl, rfl, rfl⟩⟩, fun hp hal => ?_, fun hp hal => ?_⟩
    · have hg : (s.part p).callGood h = false := Bool.eq_false_iff.2 fun hb => by
        obtain ⟨h₁, h₂⟩ := callGood_iff.1 hb
        omega
      rwa [callContext_resident hp, postCall_bad hg] at ho
    · rwa [callContext_resident hp, postCall_enters (callGood_iff.2 ⟨h₁, h₂⟩) hroom] at ho
    · rwa [callContext_away hp, if_pos hal] at ho
    · rwa [callContext_away hp, if_neg (ne_true_of_eq_false hal)] at ho
  · intro s c n hp hm
    have hreply (code : Nat) := reply_single code hp hm
    refine ⟨fun task code ht => reply_other ht, fun hr q hq => ⟨?_, ?_⟩, fun l hl => ⟨?_, ?_⟩, fun hl => ?_⟩
    · rw [hreply 1]
      exact replyResume_spec hp hr hq
    · rw [hreply 2]
      exact replySkip_spec hp hr hq
    · exact (hreply 0).trans (replyKill_launch hp hl)
    · exact (hreply 3).trans (replyKill_launch hp hl)
    · exact (hreply 0).trans ((replyKill_none hp hl).trans (hreply 2).symm)
  · intro s core c m n hw hp
    have hcheck := occurs_event (j := .plumbCheck core n) rfl hw
    have htime := occurs_event (j := .plumbTimeout core n) rfl hw
    refine ⟨fun h => ?_, fun g i h j hc hm => ?_, fun e hc hm => ?_⟩
    · rwa [plumbCheck_waits hp h] at hcheck
    · rw [plumbCheck_hashes hp hc hm] at hcheck
      refine ⟨fun hg hi => ?_, fun hne => ?_⟩
      · rwa [if_pos ⟨hg, hi⟩] at hcheck
      · rwa [if_neg fun heq => hne.elim (fun h => h heq.1) fun h => h heq.2] at hcheck
    · rw [plumbTimeout_first hp hc hm] at htime
      refine ⟨fun ht => ?_, fun ht => ?_⟩
      · rwa [if_neg (Nat.not_le.2 ht)] at htime
      · rwa [if_pos ht] at htime
  · intro s c m n x p hx hr hp
    exact ⟨fun ha hne => pairDiffers_first_spec hx hr hp ha hne, fun ha => pairDiffers_again hx ha⟩
  · intro s c m n x p hx hr ha hp
    rw [pairDiffers_late hx ha hr, countMismatch_eq hp]

end Machine
end Sys2Proof
end

section
/-! PROOF. Halts, debug and the switch of contexts (03_launching.md R56; 22_interruption.md R322, R325, R326, R328 to R332): O46. -/

namespace Sys2Proof
namespace Machine

open Safety

/-! ## What a read at a home changes

`HomeStep s t`: a read of memory, or a walk, came between: partial lines were merged, and nothing else happened. -/

/-- Besides the pending writes, the lines and the free number nothing differs. -/
def HomeStep (s t : State) : Prop := ∃ w l f, t = { s with wr := w, lines := l, free := f }

theorem HomeStep.refl (s : State) : HomeStep s s := ⟨s.wr, s.lines, s.free, rfl⟩

theorem HomeStep.trans {s t u : State} (h : HomeStep s t) (g : HomeStep t u) : HomeStep s u := by
  obtain ⟨w, l, f, rfl⟩ := h
  obtain ⟨w', l', f', rfl⟩ := g
  exact ⟨w', l', f', rfl⟩

theorem HomeStep.foldl {α : Type} {f : State → α → State} (h : ∀ s x, HomeStep s (f s x)) (l : List α) (s : State) :
    HomeStep s (l.foldl f s) :=
  foldl_of_step HomeStep .refl (fun _ _ _ => .trans) h l s

theorem wrBytes_homeStep (s : State) (a : Nat) (bs : List Byte) : HomeStep s (s.wrBytes a bs) := by
  refine .foldl (f := fun s (e : Byte × Nat) => s.wrByte (a + e.2) e.1) (fun s e => ?_) _ s
  exact ⟨_, s.lines, s.free, rfl⟩

theorem setLine_homeStep (s : State) (a : Nat) (k : Line) : HomeStep s (s.setLine a k) := ⟨s.wr, _, s.free, rfl⟩

theorem tagLines_homeStep (s : State) (p phys n : Nat) : HomeStep s (s.tagLines p phys n) := by
  refine .foldl (fun s l => ?_) _ s
  extract_lets whole k new
  clear_value new
  split
  · exact .refl s
  · exact setLine_homeStep _ _ _

theorem mergeLine_homeStep (s : State) (ln : Nat) : HomeStep s (s.mergeLine ln) := by
  unfold State.mergeLine
  extract_lets l
  split
  · exact .refl s
  · refine .trans (t := s.nextFree.2) ⟨s.wr, s.lines, _, rfl⟩ (.trans (.foldl (fun s e => ?_) _ _) (setLine_homeStep _ _ _))
    exact (wrBytes_homeStep _ _ _).trans (tagLines_homeStep _ _ _ _)

theorem homeWord_homeStep (s : State) (phys : Nat) : HomeStep s (s.homeWord phys).1 := mergeLine_homeStep s _

theorem touchLine_homeStep (s : State) (p ln gpa : Nat) (src : Option Nat) (red : Bool) : HomeStep s (s.touchLine p ln gpa src red) := by
  unfold State.touchLine
  cases src with
  | none => exact .refl s
  | some k =>
    dsimp only
    split
    · split
      · exact .refl s
      · exact setLine_homeStep _ _ _
    · exact setLine_homeStep _ _ _

theorem openLines_homeStep (s : State) (src : Option Nat) (p phys gpa n : Nat) : HomeStep s (s.openLines src p phys gpa n) :=
  .foldl (fun _ _ => (mergeLine_homeStep _ _).trans (touchLine_homeStep _ _ _ _ _ _)) _ s

theorem homeRead_homeStep (s : State) (src : Option Nat) (p phys gpa n : Nat) : HomeStep s (s.homeRead src p phys gpa n).1 :=
  openLines_homeStep s src p phys gpa n

theorem walk2_homeStep (gpa : Nat) (s : State) (table : Nat) (l : List (Nat × Nat × Nat)) : HomeStep s (walk2 gpa s table l).1 := by
  induction l generalizing s table with
  | nil => exact .refl s
  | cons x l ih =>
    obtain ⟨lvl, shift, n⟩ := x
    have h := homeWord_homeStep s (table + 8 * (gpa / 2 ^ shift % n))
    unfold walk2
    split
    next s' e hw =>
    rw [hw] at h
    split
    · exact h
    · split
      · exact h.trans (ih _ _)
      · exact h

/-- A second stage reads the entries of its walk and nothing else. -/
theorem stage2_fst (s : State) (p gpa : Nat) : (s.stage2 p gpa).1 = (walk2 gpa s (s.ctx (s.part p).ctx).s2root levels).1 := by
  unfold State.stage2
  extract_lets k
  split
  · next s' hw => rw [hw]
  · next s' e size hw =>
    rw [hw]
    extract_lets base inSnap
    clear_value base inSnap
    split
    · rfl
    split
    · split
      · rfl
      · split
        · split
          · rfl
          · extract_lets f
            split <;> rfl
        · rfl
    · rfl

theorem stage2_homeStep (s : State) (p gpa : Nat) : HomeStep s (s.stage2 p gpa).1 := by
  rw [stage2_fst]
  exact walk2_homeStep _ _ _ _

/-! ## What stays through a switch -/

section
variable {s t : State} (h : HomeStep s t)
include h

theorem HomeStep.cores : t.cores = s.cores := by obtain ⟨w, l, f, rfl⟩ := h; rfl
theorem HomeStep.parts : t.parts = s.parts := by obtain ⟨w, l, f, rfl⟩ := h; rfl
theorem HomeStep.ctxs : t.ctxs = s.ctxs := by obtain ⟨w, l, f, rfl⟩ := h; rfl
theorem HomeStep.mem : t.mem = s.mem := by obtain ⟨w, l, f, rfl⟩ := h; rfl
theorem HomeStep.part (p : Nat) : t.part p = s.part p := by obtain ⟨w, l, f, rfl⟩ := h; rfl
theorem HomeStep.ctx (c : Nat) : t.ctx c = s.ctx c := by obtain ⟨w, l, f, rfl⟩ := h; rfl
theorem HomeStep.core (c : Nat) : t.core c = s.core c := by obtain ⟨w, l, f, rfl⟩ := h; rfl

end

/-- The root of stage 1 is read, and only it changes. -/
theorem sampleRoot_homeStep (s : State) (c : Nat) : ∃ u, HomeStep s u ∧
    (s.sampleRoot c = u ∨ ∃ w, s.sampleRoot c = u.modCtx c fun x => { x with root1 := w }) := by
  unfold State.sampleRoot
  cases s.residentIn? c with
  | none => exact ⟨s, .refl s, .inl rfl⟩
  | some p =>
    have h := stage2_homeStep s p (s.ctx c).tcb
    dsimp only
    generalize s.stage2 p (s.ctx c).tcb = x at h ⊢
    obtain ⟨s', _ | ⟨pa, n, e⟩⟩ := x
    · exact ⟨s', h, .inr ⟨0, rfl⟩⟩
    · dsimp only
      split
      · exact ⟨s', h, .inr ⟨0, rfl⟩⟩
      · exact ⟨_, h.trans (homeWord_homeStep s' pa), .inr ⟨_, rfl⟩⟩

/-- What a sample of the root keeps. -/
theorem sampleRoot_keeps (s : State) (c : Nat) : (s.sampleRoot c).cores = s.cores ∧ (s.sampleRoot c).parts = s.parts ∧
    (s.sampleRoot c).mem = s.mem ∧ ((s.sampleRoot c).ctx c).calls = (s.ctx c).calls := by
  obtain ⟨u, h, he | ⟨w, he⟩⟩ := sampleRoot_homeStep s c
  · rw [he]
    exact ⟨h.cores, h.parts, h.mem, by rw [h.ctx]⟩
  · rw [he]
    exact ⟨h.cores, h.parts, h.mem, by rw [State.ctx_modCtx_self, h.ctx]⟩

theorem sampleRoot_part (s : State) (c p : Nat) : (s.sampleRoot c).part p = s.part p :=
  part_of_parts (sampleRoot_keeps s c).2.1 p

theorem sampleRoot_core (s : State) (c d : Nat) : (s.sampleRoot c).core d = s.core d := by
  rw [State.core, (sampleRoot_keeps s c).1, State.core]

/-! ## Halts (R330 to R332) -/

section
variable {s : State} {c p : Nat}

theorem onResident_eq (h : s.residentIn? c = some p) (f : State → Nat → State) : s.onResident c f = f s p := by
  rw [State.onResident, h]

theorem askHalt_running (h : (s.part p).halt = .running) :
    s.askHalt p = s.modPart p fun k => { k with halt := .pending, haltTime := s.time } :=
  modPart_of_eq (if_pos h)

theorem askHalt_joins (h : (s.part p).halt ≠ .running) : s.askHalt p = s.setPart p (s.part p) :=
  modPart_of_eq (g := fun k => k) (if_neg h)

theorem debugStep_steps {n : Nat} (hp : s.corePart? c = some p) (hd : (s.part p).debugger = true) (hh : (s.part p).halt = .halted)
    (hr : (s.slot c n).running = true) : s.debugStep c n = { s with agenda := .debug c n :: s.agenda } := by
  rw [State.debugStep, hp]
  refine if_pos ?_
  rw [hd, decide_eq_true hh, hr]
  rfl

theorem debugStep_idle {n : Nat} (hp : s.corePart? c = some p)
    (h : (s.part p).debugger = false ∨ (s.part p).halt ≠ .halted ∨ (s.slot c n).running = false) : s.debugStep c n = s := by
  rw [State.debugStep, hp]
  refine if_neg fun hall => ?_
  simp only [Bool.and_eq_true, decide_eq_true_eq] at hall
  obtain ⟨⟨hd, hh⟩, hr⟩ := hall
  rcases h with h | h | h
  · exact absurd hd (ne_true_of_eq_false h)
  · exact h hh
  · exact absurd hr (ne_true_of_eq_false h)

theorem haltCores_cores (s : State) (p : Nat) (b : Bool) : ∃ cs, s.haltCores p b = { s with cores := cs } ∧
    ∀ d ∈ (s.part p).cores, ((s.haltCores p b).core d).halted = b := by
  unfold State.haltCores
  generalize (s.part p).cores = l
  induction l using List.reverseRecOn with
  | nil => exact ⟨s.cores, rfl, nofun⟩
  | append_singleton l x ih =>
    obtain ⟨cs, he, hall⟩ := ih
    rw [List.foldl_append, List.foldl_cons, List.foldl_nil]
    refine ⟨_, by rw [he]; rfl, fun d hd => ?_⟩
    rw [State.core_modCore]
    by_cases hx : d = x
    · rw [if_pos hx]
    · rw [if_neg hx]
      exact hall d ((List.mem_append.1 hd).resolve_right fun h => hx (List.mem_singleton.1 h))

/-- The cores of a partition stop or go on, and the partition changes by `f`; nothing else does. -/
theorem haltCores_modPart (s : State) (p : Nat) (b : Bool) (f : Partition → Partition) :
    (((s.haltCores p b).modPart p f).part p) = f (s.part p) ∧ ((s.haltCores p b).modPart p f).mem = s.mem ∧
      ((s.haltCores p b).modPart p f).wr = s.wr ∧ ∀ d ∈ (s.part p).cores, (((s.haltCores p b).modPart p f).core d).halted = b := by
  obtain ⟨cs, he, hall⟩ := haltCores_cores s p b
  refine ⟨?_, ?_, ?_, hall⟩
  · rw [State.part_modPart_self, he]
    rfl
  · rw [he]
    rfl
  · rw [he]
    rfl

theorem resumeSwitch_none (h : (s.part p).switchq = []) : s.resumeSwitch p = s := by
  rw [State.resumeSwitch, h]
  rfl

/-- A partition whose halt ends: the halt and what it held are gone. -/
def Partition.released (k : Partition) : Partition := { k with halt := .running, storm := false, holding := [], holdBytes := 0 }

theorem settle_released {k : Partition} (hf : k.fatalHeld = none) :
    k.released.settle = if k.onlySup = true ∧ ∀ r ∈ k.trapq, r.fatal = false then { k.released with onlySup := false } else k.released := by
  have hfile : k.released.fileFatal = k.released := by
    rw [Partition.fileFatal, show k.released.fatalHeld = none from hf]
  rw [Partition.settle, hfile]
  refine if_congr ?_ rfl rfl
  rw [show k.released.fatalHeld = none from hf]
  simp [Partition.released]

theorem settle_released_spec {k : Partition} (hf : k.fatalHeld = none) : k.released.settle.halt = .running ∧ k.released.settle.storm = false ∧
    ((∀ r ∈ k.trapq, r.fatal = false) → k.released.settle.onlySup = false) ∧
    ((∃ r ∈ k.trapq, r.fatal = true) → k.released.settle.onlySup = k.onlySup) := by
  rw [settle_released hf]
  split
  · next h =>
    refine ⟨rfl, rfl, fun _ => rfl, fun ⟨r, hr, ht⟩ => absurd (h.2 r hr) ?_⟩
    rw [ht]
    decide
  · next h =>
    refine ⟨rfl, rfl, fun hall => ?_, fun _ => rfl⟩
    exact Bool.eq_false_iff.2 fun ho => h ⟨ho, hall⟩

theorem endHalt_eq (hh : (s.part p).holding = []) (hq : (s.part p).switchq = []) (hf : (s.part p).fatalHeld = none) :
    s.endHalt p = (((s.haltCores p false).modPart p Partition.released).modPart p Partition.settle) := by
  unfold State.endHalt
  rw [hh]
  refine resumeSwitch_none ?_
  show (((((s.haltCores p false).modPart p Partition.released).modPart p Partition.settle).part p).switchq) = []
  rw [State.part_modPart_self, (haltCores_modPart s p false _).1, settle_released hf]
  generalize s.part p = k at hq
  split <;> exact hq

/-- What the end of a halt leaves. -/
theorem endHalt_spec (hh : (s.part p).holding = []) (hq : (s.part p).switchq = []) (hf : (s.part p).fatalHeld = none) :
    (s.endHalt p).wr = s.wr ∧ (s.endHalt p).mem = s.mem ∧ (s.endHalt p).part p = (s.part p).released.settle ∧
      ∀ d ∈ (s.part p).cores, ((s.endHalt p).core d).halted = false := by
  obtain ⟨hp, hm, hw, hc⟩ := haltCores_modPart s p false Partition.released
  rw [endHalt_eq hh hq hf]
  exact ⟨hw, hm, by rw [State.part_modPart_self, hp], hc⟩

end

/-- What an event that writes no memory leaves. -/
theorem answers_event {j : Instr} {s : State} {f : State → State} {P : State → Prop} (he : exec j s = event f s) (hw : s.wr = [])
    (hf : (f s).wr = []) (h : P { f s with mem := s.mem, plat := s.plat }) : Answers (exec j s) P := by
  refine ⟨_, occurs_event he hw, ?_⟩
  rwa [settleMem_fresh]
  exact hf

/-! ## Requests for a switch (R325) -/

section
variable {s : State} {c p : Nat}

/-- The preconditions under which a waiting request is served. -/
def State.serves (s : State) (p : Nat) : Prop := (s.part p).switch = .none ∧ (s.part p).halt = .running ∧ s.releasing p = false

/-- The partition with one request that waits. -/
def State.withRequest (s : State) (p c : Nat) : State := s.modPart p fun k => { k with switchq := [c] }

theorem withRequest_part (s : State) (p c : Nat) : (s.withRequest p c).part p = { s.part p with switchq := [c] } :=
  State.part_modPart_self s p _

theorem serves_withRequest : (s.withRequest p c).serves p ↔ s.serves p := by
  rw [State.serves, State.releasing, withRequest_part]
  rfl

theorem preemptionRequest_eq (hen : (s.part p).en = true) (hal : (s.ctx c).alive = true) (hq : (s.part p).switchq = []) :
    (if (s.part p).en && (s.ctx c).alive then (s.modPart p fun k => { k with switchq := k.switchq ++ [c] }).resumeSwitch p else s) =
      (s.withRequest p c).resumeSwitch p := by
  rw [hen, hal]
  exact (if_pos rfl).trans (congrArg (State.resumeSwitch · p) (modPart_of_eq (by rw [hq]; rfl)))

theorem resumeSwitch_waits (h : ¬ s.serves p) : (s.withRequest p c).resumeSwitch p = s.withRequest p c := by
  rw [State.resumeSwitch, withRequest_part, List.length_singleton, State.nextSwitch, withRequest_part]
  refine if_neg ?_
  have := mt (serves_withRequest (c := c)).1 h
  rwa [State.serves, withRequest_part] at this

theorem resumeSwitch_serves (h : s.serves p) (hq : (s.part p).switchq = []) : (s.withRequest p c).resumeSwitch p =
    ((s.withRequest p c).setPart p (s.part p)).serveSwitch p c := by
  have hs := (serves_withRequest (c := c)).2 h
  rw [State.serves, withRequest_part] at hs
  have hk : { s.part p with switchq := [] } = s.part p := by
    generalize s.part p = k at hq
    rw [← hq]
  rw [State.resumeSwitch, withRequest_part, List.length_singleton, State.nextSwitch, withRequest_part]
  refine (if_pos hs).trans ?_
  show State.nextSwitch p 0 (((s.withRequest p c).setPart p { s.part p with switchq := [] }).serveSwitch p c) = _
  rw [hk]
  rfl

theorem serveSwitch_resident (hr : (s.part p).resident = true) (hc : (s.part p).ctx = c) : s.serveSwitch p c = s := by
  refine if_pos ?_
  rw [hr, hc]
  simp

theorem serveSwitch_stops (h : ¬((s.part p).resident = true ∧ (s.part p).ctx = c)) :
    s.serveSwitch p c = s.setPart p { s.part p with switch := .stopping c } := by
  refine if_neg ?_
  simpa using h

end

/-! ## The save (R325, R326) -/

theorem get?_filter {α : Type} (f : Nat → Bool) (m : Tbl α) (d : Nat) :
    Tbl.get? (m.filter fun e => f e.1) d = if f d = true then Tbl.get? m d else none := by
  induction m with
  | nil => simp
  | cons e m ih =>
    obtain ⟨j, v⟩ := e
    rw [Tbl.get?_cons, List.filter_cons]
    by_cases hj : j = d
    · subst hj
      by_cases hf : f j = true
      · rw [if_pos hf, if_pos hf, Tbl.get?_cons, if_pos rfl, if_pos rfl]
      · rw [if_neg hf, if_neg hf, ih, if_neg hf]
    · rw [if_neg hj, ← ih]
      split
      · rw [Tbl.get?_cons, if_neg hj]
      · rfl

section
variable {s : State} {c p : Nat}

theorem core_clearPart (s : State) (p d : Nat) :
    (s.clearPart p).core d = if (s.part p).holds (clusterOf d) = true then {} else s.core d := by
  show (Tbl.get? (s.cores.filter fun e => !(s.part p).holds (clusterOf e.1)) d).getD {} = _
  rw [get?_filter fun n => !(s.part p).holds (clusterOf n)]
  cases (s.part p).holds (clusterOf d) <;> rfl

theorem writeBack_idle (h : s.lines = []) : s.writeBack p = s := by
  unfold State.writeBack
  rw [h]
  obtain ⟨⟩ := s
  cases h
  rfl

/-- The partition whose test slice begins. -/
def State.tests (s : State) (p c : Nat) : Partition := { (s.part p).bare with switch := .testing c, testFrom := s.time }

/-- A state whose partition has been saved, and holds nothing of the context any more. -/
def State.savedOff (s : State) (p c : Nat) : State :=
  let t : State := { s with saves := Tbl.set s.saves (s.part p).ctx (s.saveOf p) }
  ((t.modCtx (s.part p).ctx fun x => { x with saveSeq := x.saveSeq + 1 }).clearPart p).setPart p (s.tests p c)

theorem contextSave_waits (h : (s.part p).switch = .stopping c) (hr : (s.part p).resident = true) (hd : s.drained p = false) :
    s.contextSave p = s := by
  unfold State.contextSave
  extract_lets k
  rw [h]
  dsimp only
  rw [show k.resident = true from hr, hd]
  rfl

theorem contextSave_empty (h : (s.part p).switch = .stopping c) (hr : (s.part p).resident = false) :
    s.contextSave p = s.setPart p (s.tests p c) := by
  unfold State.contextSave
  extract_lets k
  rw [h]
  dsimp only
  rw [show k.resident = false from hr]
  rfl

theorem contextSave_saves (h : (s.part p).switch = .stopping c) (hr : (s.part p).resident = true) (hd : s.drained p = true)
    (hl : s.lines = []) : s.contextSave p = s.savedOff p c := by
  unfold State.contextSave
  rw [writeBack_idle hl]
  extract_lets k
  rw [h]
  dsimp only
  rw [show k.resident = true from hr, hd]
  rfl

end

/-! ## The test slice (R329) -/

theorem clusters_nodup {k : Partition} (h : k.px + k.pw ≤ 15) : k.clusters.Nodup := by
  unfold Partition.clusters
  split
  · refine List.nodup_flatMap.2 ⟨fun y _ => ?_, ?_⟩
    · refine List.Nodup.map (fun a b hab => ?_) List.nodup_range
      simp only [clusterAt] at hab
      omega
    · refine List.Pairwise.imp_of_mem (fun {a b} _ _ hab => ?_) List.nodup_range
      rw [Function.onFun, List.disjoint_left]
      intro z hz hz'
      obtain ⟨i, hi, rfl⟩ := List.mem_map.1 hz
      obtain ⟨j, hj, hij⟩ := List.mem_map.1 hz'
      rw [mem_upto] at hi hj
      simp only [clusterAt] at hij
      omega
  · exact List.nodup_nil

/-- Every cluster of a list changes by `f` once. -/
theorem cluster_foldl_modCluster (f : Nat → Cluster → Cluster) {l : List Nat} (hl : l.Nodup) (s : State) (j : Nat) :
    (l.foldl (fun s k => s.modCluster k (f k)) s).cluster j = if j ∈ l then f j (s.cluster j) else s.cluster j := by
  induction l generalizing s with
  | nil => rfl
  | cons x l ih =>
    obtain ⟨hx, hn⟩ := List.nodup_cons.1 hl
    rw [List.foldl_cons, ih hn, cluster_modCluster]
    by_cases hj : j = x
    · subst hj
      rw [if_neg hx, if_pos rfl, if_pos List.mem_cons_self]
    · rw [if_neg hj]
      simp only [List.mem_cons, hj, false_or]

theorem foldl_modCluster_rest {α : Type} (g : α → Nat) (f : α → Cluster → Cluster) (l : List α) (s : State) : ∃ x,
    l.foldl (fun s e => s.modCluster (g e) (f e)) s = { s with clusters := x } := by
  induction l generalizing s with
  | nil => exact ⟨_, rfl⟩
  | cons x l ih =>
    obtain ⟨y, hy⟩ := ih (s.modCluster (g x) (f x))
    exact ⟨y, hy⟩

/-- A cluster after its test. -/
def Cluster.tested (bad : List Nat) (k : Nat) (x : Cluster) : Cluster :=
  { x with testIndex := x.testIndex + 1, failed := x.failed || bad.contains k }

/-- The clusters of a partition after their test. -/
def State.testedAll (s : State) (p : Nat) (bad : List Nat) : State :=
  let t := (s.part p).clusters.foldl (fun s k => s.modCluster k (Cluster.tested bad k)) s
  { t with alerts := t.alerts ++ ((s.part p).clusters.filter bad.contains).map .clusterFailed }

section
variable {s : State} {c p : Nat} {bad : List Nat}

theorem testedAll_rest (s : State) (p : Nat) (bad : List Nat) : ∃ x, s.testedAll p bad = { s with
    clusters := x, alerts := s.alerts ++ ((s.part p).clusters.filter bad.contains).map .clusterFailed } := by
  obtain ⟨x, hx⟩ := foldl_modCluster_rest (fun k => k) (Cluster.tested bad) (s.part p).clusters s
  rw [State.testedAll, hx]
  exact ⟨x, rfl⟩

theorem testedAll_cluster (h : (s.part p).px + (s.part p).pw ≤ 15) {k : Nat} (hk : k ∈ (s.part p).clusters) :
    (s.testedAll p bad).cluster k = (s.cluster k).tested bad k := by
  have := cluster_foldl_modCluster (Cluster.tested bad) (clusters_nodup h) s k
  rwa [if_pos hk] at this

theorem testEnd_early (h : (s.part p).switch = .testing c) (ht : s.time < (s.part p).testFrom + 54000) : s.testEnd p bad = s := by
  unfold State.testEnd
  extract_lets k
  rw [h]
  exact if_pos ht

theorem testEnd_eq (h : (s.part p).switch = .testing c) (ht : (s.part p).testFrom + 54000 ≤ s.time) : s.testEnd p bad =
    if (s.testedAll p bad).hasFailed p then ((s.testedAll p bad).setPart p { s.part p with switch := .none }).resumeSwitch p
    else (s.testedAll p bad).setPart p { s.part p with switch := .restoring c } := by
  unfold State.testEnd
  extract_lets k
  rw [h]
  exact if_neg (Nat.not_lt.2 ht)

theorem hasFailed_tested (h : (s.part p).px + (s.part p).pw ≤ 15) (hf : ∀ k, (s.cluster k).failed = false) :
    (s.testedAll p bad).hasFailed p = true ↔ ∃ k ∈ (s.part p).clusters, k ∈ bad := by
  have hp : (s.testedAll p bad).part p = s.part p := by
    obtain ⟨x, hx⟩ := testedAll_rest s p bad
    rw [hx]
    rfl
  rw [State.hasFailed, hp, List.any_eq_true]
  refine exists_congr fun k => and_congr_right fun hk => ?_
  rw [testedAll_cluster h hk, Cluster.tested, hf k, Bool.false_or, List.contains_iff_mem]

end

/-! ## The restore (R328) -/

/-- The words of a LOST record. -/
theorem lostRec_spec (d : Nat) : let r := mkRec 2 1 0 0 Cause.lost 0 0 0 0 0 (w64 d)
    r.cause = Cause.lost ∧ r.type = 2 ∧ r.fatal = true ∧ r.w3 = BitVec.ofNat 64 d :=
  have hw : (mkRec 2 1 0 0 Cause.lost 0 0 0 0 0 (w64 d)).w0 = w64 (2 * 2 ^ 62 + 2 ^ 61 + Cause.lost * 2 ^ 48) := rfl
  have hc : (mkRec 2 1 0 0 Cause.lost 0 0 0 0 0 (w64 d)).call = none := rfl
  ⟨by rw [TRec.cause, hw]; decide, by rw [TRec.type, hw, hc]; decide, by rw [TRec.fatal, hw, hc]; decide, rfl⟩

/-- A launch of a lost context. -/
def Launch.fail (x : Launch) : Launch := if x.stage = .done then x else { x with killed := true, final := 3 }

/-- A context that is lost. -/
def Ctx.lose (x : Ctx) : Ctx :=
  { x with lost := true, rings := x.rings.map fun r => (r.1, { r.2 with devq := [] }), launches := x.launches.map fun e => (e.1, e.2.fail) }

theorem Launch.fail_spec {x : Launch} (h : x.fail.stage ≠ .done) : x.fail.killed = true ∧ x.fail.final = 3 := by
  unfold Launch.fail at h ⊢
  split
  · next hd => rw [if_pos hd] at h; exact absurd hd h
  · exact ⟨rfl, rfl⟩

/-- A partition whose trap queue holds the LOST record alone. -/
def Partition.postLost (d : Nat) (k : Partition) : Partition := { k with trapq := [mkRec 2 1 0 0 Cause.lost 0 0 0 0 0 (w64 d)] }

theorem lostContext_eq (s : State) (p c d : Nat) :
    s.lostContext p c d = ((s.freshContext p c).modCtx c Ctx.lose).modPart p (Partition.postLost d) := by
  unfold State.lostContext
  generalize s.freshContext p c = u
  rfl

theorem lostContext_spec (s : State) (p c d : Nat) : ((s.lostContext p c d).ctx c).lost = true ∧
    (∀ l k, Tbl.get? ((s.lostContext p c d).ctx c).launches l = some k → k.stage ≠ .done → k.killed = true ∧ k.final = 3) ∧
    ((s.lostContext p c d).part p).trapq = [mkRec 2 1 0 0 Cause.lost 0 0 0 0 0 (w64 d)] := by
  rw [lostContext_eq]
  generalize s.freshContext p c = u
  have hc : ((u.modCtx c Ctx.lose).modPart p (Partition.postLost d)).ctx c = (u.ctx c).lose := State.ctx_modCtx_self u c _
  refine ⟨by rw [hc]; rfl, fun l k hk hs => ?_, by rw [State.part_modPart_self]; rfl⟩
  rw [hc, Ctx.lose, get?_map_snd] at hk
  obtain ⟨x, -, rfl⟩ := Option.map_eq_some_iff.1 hk
  exact Launch.fail_spec hs

section
variable (s : State) (p c : Nat) (v : Saved)

/-- The number of a cluster, and of a core, at the partition's origin. -/
def Saved.shift (v : Saved) (k : Partition) (n : Nat) : Nat := n + clusterAt k.px k.py - clusterAt v.part.px v.part.py
def Saved.shiftCore (v : Saved) (k : Partition) (n : Nat) : Nat := n + 16 * clusterAt k.px k.py - 16 * clusterAt v.part.px v.part.py

/-- The cores of a save, in their places. -/
def State.loadCores (s : State) (p : Nat) (v : Saved) : State :=
  v.cores.foldl (fun t e => t.setCore (v.shiftCore (s.part p) e.1) { e.2.moveTo (v.shiftCore (s.part p)) with selfDev := none }) (s.clearPart p)

/-- The clusters of a save, in their places, after its cores. -/
def State.loadClusters (s : State) (p : Nat) (v : Saved) : State :=
  v.clusters.foldl (fun t e => t.modCluster (v.shift (s.part p) e.1) fun x =>
    { x with walkers := e.2.walkers, courses := e.2.courses, tasks := e.2.tasks.map fun t => (v.shiftCore (s.part p) t.1, t.2) }) (s.loadCores p v)

/-- A context at the partition's origin. -/
def Ctx.moveTo (x : Ctx) (v : Saved) (k : Partition) : Ctx :=
  { x with
    ran := true
    launches := x.launches.map fun e => (e.1, e.2.moveTo (v.shift k) (v.shiftCore k))
    rings := x.rings.map fun r => (r.1, { r.2 with devq := r.2.devq.map fun d => { d with core := v.shiftCore k d.core } }) }

theorem loadContext_eq : s.loadContext p c v = ((((s.loadClusters p v).setPart p
      { (s.part p).load v.part c (v.shift (s.part p)) (v.shiftCore (s.part p)) with selfDev := (s.loadClusters p v).fabric.devId }).modCtx c
        fun x => x.moveTo v (s.part p)).sampleRoot c) := rfl

theorem loadCores_rest : (s.loadCores p v).mem = s.mem ∧ (s.loadCores p v).ctxs = s.ctxs := by
  unfold State.loadCores
  exact foldl_of_step (fun t u : State => u.mem = t.mem ∧ u.ctxs = t.ctxs) (fun _ => ⟨rfl, rfl⟩)
    (fun _ _ _ h g => ⟨g.1.trans h.1, g.2.trans h.2⟩)
    (f := fun t e => t.setCore (v.shiftCore (s.part p) e.1) { e.2.moveTo (v.shiftCore (s.part p)) with selfDev := none })
    (fun _ _ => ⟨rfl, rfl⟩) v.cores (s.clearPart p)

theorem loadClusters_keeps : (s.loadClusters p v).cores = (s.loadCores p v).cores ∧ (s.loadClusters p v).mem = s.mem ∧
    (s.loadClusters p v).ctxs = s.ctxs := by
  obtain ⟨x, hx⟩ := foldl_modCluster_rest (fun e : Nat × Cluster => v.shift (s.part p) e.1) (fun e x => { x with
    walkers := e.2.walkers, courses := e.2.courses, tasks := e.2.tasks.map fun t => (v.shiftCore (s.part p) t.1, t.2) }) v.clusters (s.loadCores p v)
  rw [State.loadClusters, hx]
  exact ⟨rfl, loadCores_rest s p v⟩

theorem loadContext_part : (s.loadContext p c v).part p = { (s.part p).load v.part c (v.shift (s.part p)) (v.shiftCore (s.part p)) with
    selfDev := (s.loadClusters p v).fabric.devId } := by
  rw [loadContext_eq, sampleRoot_part]
  exact State.part_setPart_self _ _ _

theorem loadContext_calls : ((s.loadContext p c v).ctx c).calls = (s.ctx c).calls := by
  rw [loadContext_eq, (sampleRoot_keeps _ _).2.2.2, State.ctx_modCtx_self]
  show ((s.loadClusters p v).ctx c).calls = _
  rw [State.ctx, (loadClusters_keeps s p v).2.2, State.ctx]

theorem loadContext_core (hx : v.part.px = (s.part p).px) (hy : v.part.py = (s.part p).py) {d : Nat} {k : Core} (hv : v.cores = [(d, k)]) :
    (s.loadContext p c v).core d = { k.moveTo (v.shiftCore (s.part p)) with selfDev := none } := by
  have hd : v.shiftCore (s.part p) d = d := by
    rw [Saved.shiftCore, hx, hy]
    omega
  rw [loadContext_eq, sampleRoot_core]
  show (s.loadClusters p v).core d = _
  rw [State.core, (loadClusters_keeps s p v).1, State.loadCores, hv]
  refine (State.core_setCore _ _ d _).trans (if_pos ?_)
  exact hd.symm

theorem loadContext_resumes (hq : (s.part p).switchq = []) (hc : (s.ctx c).calls = []) :
    ((s.loadContext p c v).waitedCalls p c).resumeSwitch p = (s.loadContext p c v).modCtx c fun x => { x with calls := [] } := by
  have hw : (s.loadContext p c v).waitedCalls p c = (s.loadContext p c v).modCtx c fun x => { x with calls := [] } := by
    rw [State.waitedCalls, loadContext_calls, hc]
    rfl
  rw [hw]
  refine resumeSwitch_none ?_
  show ((s.loadContext p c v).part p).switchq = []
  rw [loadContext_part]
  exact hq

end

section
variable {s : State} {p c damage : Nat} (h : (s.part p).switch = .restoring c)
include h

/-- The partition that goes on without a switch. -/
def State.idled (s : State) (p : Nat) : State := s.setPart p { s.part p with switch := .none }

omit h in
theorem idled_switchq (hq : (s.part p).switchq = []) : ((s.idled p).part p).switchq = [] := by
  rw [State.idled, State.part_setPart_self]
  exact hq

theorem contextRestore_idle (hq : (s.part p).switchq = []) (hi : (s.ctx c).alive = false ∨ s.residentIn? c ≠ none) :
    s.contextRestore p damage = s.idled p := by
  unfold State.contextRestore
  extract_lets k
  rw [h]
  refine (if_pos ?_).trans (resumeSwitch_none (idled_switchq hq))
  rcases hi with hi | hi
  · rw [hi]
    rfl
  · rw [Option.ne_none_iff_isSome.1 hi, Bool.or_true]

variable (hal : (s.ctx c).alive = true) (hr : s.residentIn? c = none)
include hal hr

theorem contextRestore_saved : s.contextRestore p damage = match Tbl.get? s.saves c with
    | none => ((s.freshContext p c).waitedCalls p c).resumeSwitch p
    | some v =>
      if v.pw ≠ (s.part p).pw ∨ v.ph ≠ (s.part p).ph ∨ s.admits p c = false then
        State.resumeSwitch { s.idled p with alerts := s.alerts ++ [.restoreRefused p c] } p
      else if damage ≠ 0 ∨ v.key ≠ (s.ctx c).key ∨ v.seq ≠ (s.ctx c).saveSeq ∨ v.addr ≠ (s.ctx c).saveArea then
        ((s.lostContext p c (if damage = 2 then 2 else 1)).waitedCalls p c).resumeSwitch p
      else ((s.loadContext p c v).waitedCalls p c).resumeSwitch p := by
  unfold State.contextRestore
  extract_lets k
  rw [h]
  refine (if_neg ?_).trans ?_
  · rw [hal, hr]
    exact Bool.false_ne_true
  · cases Tbl.get? s.saves c <;> rfl

theorem contextRestore_fresh (hs : Tbl.get? s.saves c = none) :
    s.contextRestore p damage = ((s.freshContext p c).waitedCalls p c).resumeSwitch p := by
  rw [contextRestore_saved h hal hr, hs]

theorem contextRestore_refused {v : Saved} (hq : (s.part p).switchq = []) (hs : Tbl.get? s.saves c = some v)
    (hv : v.pw ≠ (s.part p).pw ∨ v.ph ≠ (s.part p).ph ∨ s.admits p c = false) :
    s.contextRestore p damage = { s.idled p with alerts := s.alerts ++ [.restoreRefused p c] } := by
  rw [contextRestore_saved h hal hr, hs]
  exact (if_pos hv).trans (resumeSwitch_none (idled_switchq hq))

theorem contextRestore_lost {v : Saved} (hs : Tbl.get? s.saves c = some v)
    (hv : ¬ (v.pw ≠ (s.part p).pw ∨ v.ph ≠ (s.part p).ph ∨ s.admits p c = false))
    (hd : damage ≠ 0 ∨ v.key ≠ (s.ctx c).key ∨ v.seq ≠ (s.ctx c).saveSeq ∨ v.addr ≠ (s.ctx c).saveArea) :
    s.contextRestore p damage = ((s.lostContext p c (if damage = 2 then 2 else 1)).waitedCalls p c).resumeSwitch p := by
  rw [contextRestore_saved h hal hr, hs]
  exact (if_neg hv).trans (if_pos hd)

theorem contextRestore_loads {v : Saved} (hs : Tbl.get? s.saves c = some v) (hq : (s.part p).switchq = []) (hc : (s.ctx c).calls = [])
    (hv : ¬ (v.pw ≠ (s.part p).pw ∨ v.ph ≠ (s.part p).ph ∨ s.admits p c = false))
    (hd : ¬ (damage ≠ 0 ∨ v.key ≠ (s.ctx c).key ∨ v.seq ≠ (s.ctx c).saveSeq ∨ v.addr ≠ (s.ctx c).saveArea)) :
    s.contextRestore p damage = (s.loadContext p c v).modCtx c fun x => { x with calls := [] } := by
  rw [contextRestore_saved h hal hr, hs]
  exact (if_neg hv).trans ((if_neg hd).trans (loadContext_resumes s p c v hq hc))

end

/-- Settles O46: halts (`haltCores_modPart`, `endHalt_spec`), requests (`serveSwitch_stops`), saves (`contextSave_saves`), tests (`hasFailed_tested`) and restores
(`contextRestore_fresh`, `contextRestore_loads`). -/
theorem haltsAndSwitches : Obligations.HaltsAndSwitches := by
  refine ⟨?_, ?_, ?_, ?_, ?_, ?_, ?_, ?_, fun s p c d => ?_, fun s p c v hx hy => ?_⟩
  · intro s c p hw hp
    have hocc (j : Instr) (f : State → Nat → State) (he : exec j s = event (fun s => s.onResident c f) s) : Occurs j s (f s p) := by
      have := occurs_event he hw
      rwa [onResident_eq hp] at this
    refine ⟨fun hr => ?_, fun hr => ?_, fun hh => ?_, fun hh => ?_, ?_, fun hh => ?_, fun j hj hh hq hf => ?_⟩
    · have := hocc (.debugHaltRequest c) State.askHalt rfl
      rwa [askHalt_running hr] at this
    · have := hocc (.debugHaltRequest c) State.askHalt rfl
      rwa [askHalt_joins hr] at this
    · obtain ⟨h1, h2, h3, h4⟩ := haltCores_modPart s p true fun k => { k with halt := .halted }
      have he : s.onResident c State.haltNow = (s.haltCores p true).modPart p fun k => { k with halt := .halted } :=
        (onResident_eq hp _).trans (if_pos hh)
      refine answers_event (f := fun s => s.onResident c State.haltNow) rfl hw ?_ ?_
      · rw [he, h3, hw]
      · rw [he]
        exact ⟨congrArg Partition.halt h1, h4, rfl⟩
    · have := hocc (.debugHalt c) State.haltNow rfl
      rwa [State.haltNow, if_neg hh] at this
    · have := occurs_event (j := .debuggerAttach c) rfl hw
      rwa [State.attach, hp] at this
    · have := hocc (.debugRelease c) State.debugRelease rfl
      rwa [State.debugRelease, if_neg fun h => hh.elim (fun hs => absurd h.2 (by rw [hs]; decide)) fun hr => h.1 hr] at this
    · have hev : ∃ f, exec j s = event f s ∧ f s = s.endHalt p := by
        rcases hj with ⟨rfl, hh, hs⟩ | ⟨rfl, hs⟩
        · exact ⟨fun s => s.onResident c State.debugRelease, rfl, (onResident_eq hp _).trans (if_pos ⟨hh, hs⟩)⟩
        · exact ⟨fun s => s.stormRelease p, rfl, if_pos hs⟩
      obtain ⟨f, he, hfe⟩ := hev
      obtain ⟨h1, h2, h3, h4⟩ := endHalt_spec hh hq hf
      obtain ⟨k1, k2, k3, k4⟩ := settle_released_spec hf
      refine answers_event he hw (by rw [hfe, h1, hw]) ?_
      rw [hfe]
      show ((s.endHalt p).part p).halt = _ ∧ ((s.endHalt p).part p).storm = _ ∧ _ ∧ _ ∧ (_ → ((s.endHalt p).part p).onlySup = _) ∧
        (_ → ((s.endHalt p).part p).onlySup = _)
      rw [h3]
      exact ⟨k1, k2, rfl, h4, k3, k4⟩
  · intro s p hw hs
    have := occurs_event (j := .stormRelease p) rfl hw
    rwa [State.stormRelease, if_neg (ne_true_of_eq_false hs)] at this
  · intro s c n p hw hp
    have := occurs_event (j := .debuggerStep c n) rfl hw
    exact ⟨fun hd hh hr => by rwa [debugStep_steps hp hd hh hr] at this, fun h => by rwa [debugStep_idle hp h] at this⟩
  · intro s p c hw hen hal hq
    have hreq : exec (.preemptionRequest p c) s = event (fun s => if (s.part p).en && (s.ctx c).alive then
      (s.modPart p fun k => { k with switchq := k.switchq ++ [c] }).resumeSwitch p else s) s := rfl
    refine ⟨fun hn hr hrel => ⟨fun hne => ?_, fun h1 h2 => ?_⟩, fun h => ?_⟩
    · have he := (preemptionRequest_eq hen hal hq).trans (resumeSwitch_serves ⟨hn, hr, hrel⟩ hq)
      rw [serveSwitch_stops (by rwa [State.part_setPart_self]), State.part_setPart_self] at he
      refine answers_event hreq hw (by rw [he]; exact hw) ?_
      rw [he]
      have hpart := State.part_setPart_self ((s.withRequest p c).setPart p (s.part p)) p { s.part p with switch := .stopping c }
      exact ⟨congrArg Partition.switch hpart, (congrArg Partition.switchq hpart).trans hq, rfl, rfl⟩
    · have he := (preemptionRequest_eq hen hal hq).trans (resumeSwitch_serves ⟨hn, hr, hrel⟩ hq)
      rw [serveSwitch_resident (by rwa [State.part_setPart_self]) (by rwa [State.part_setPart_self])] at he
      refine answers_event hreq hw (by rw [he]; exact hw) ?_
      rw [he]
      exact ⟨State.part_setPart_self _ p _, rfl, rfl⟩
    · have := occurs_event hreq hw
      rwa [(preemptionRequest_eq hen hal hq).trans (resumeSwitch_waits _)] at this
      rintro ⟨hn, hr, hrel⟩
      rcases h with h | h | h
      · exact h hn
      · exact h hr
      · exact absurd h (by rw [hrel]; decide)
  · intro s p c hw h
    have hev : exec (.contextSave p) s = event (fun s => s.contextSave p) s := rfl
    refine ⟨fun hr hd => ?_, fun hr hd hl => ?_, fun hr => ?_⟩
    · have := occurs_event hev hw
      rwa [contextSave_waits h hr hd] at this
    · have he := contextSave_saves h hr hd hl
      refine answers_event hev hw (by rw [he]; exact hw) ?_
      rw [he]
      have hpart : (s.savedOff p c).part p = s.tests p c := State.part_setPart_self _ p _
      have hcore (d : Nat) : (s.savedOff p c).core d = _ := core_clearPart s p d
      show Tbl.get? (Tbl.set s.saves _ _) _ = _ ∧ ((s.savedOff p c).part p).resident = _ ∧ ((s.savedOff p c).part p).switch = _ ∧
        ((s.savedOff p c).part p).testFrom = _ ∧ ((s.savedOff p c).part p).trapq = _ ∧ _ ∧ (∀ d, _ → (s.savedOff p c).core d = _) ∧
        ∀ d, _ → (s.savedOff p c).core d = _
      rw [hpart]
      refine ⟨Tbl.get?_set_self _ _ _, rfl, rfl, rfl, rfl, rfl, fun d hd => ?_, fun d hd => ?_⟩
      · rw [hcore, if_pos hd]
      · rw [hcore, if_neg (ne_true_of_eq_false hd)]
    · have he := contextSave_empty h hr
      refine answers_event hev hw (by rw [he]; exact hw) ?_
      rw [he]
      have hpart : (s.setPart p (s.tests p c)).part p = s.tests p c := State.part_setPart_self s p _
      exact ⟨congrArg Partition.switch hpart, congrArg Partition.testFrom hpart, rfl, rfl, rfl⟩
  · intro s p c bad hw h ht
    have := occurs_event (j := .testSliceEnd p bad) rfl hw
    rwa [testEnd_early h ht] at this
  · intro s p c bad hw h hf ht hx
    have hev : exec (.testSliceEnd p bad) s = event (fun s => s.testEnd p bad) s := rfl
    obtain ⟨cl, hrest⟩ := testedAll_rest s p bad
    have hwr : (s.testedAll p bad).wr = [] := by rw [hrest]; exact hw
    refine ⟨fun hall => ?_, fun k hk hb hq => ?_⟩
    · have he := (testEnd_eq h ht).trans (if_neg fun hh => by
        obtain ⟨k, hk, hb⟩ := (hasFailed_tested hx hf).1 hh
        exact hall k hk hb)
      refine answers_event hev hw (by rw [he]; exact hwr) ?_
      rw [he]
      refine ⟨congrArg Partition.switch (State.part_setPart_self (s.testedAll p bad) p _), ?_, rfl, fun k hk => ?_⟩
      · show (s.testedAll p bad).alerts = _
        rw [hrest]
        show s.alerts ++ _ = _
        rw [List.filter_eq_nil_iff.2 fun k hk hb => hall k hk (List.contains_iff_mem.1 hb), List.map_nil, List.append_nil]
      · show ((s.testedAll p bad).cluster k).testIndex = _ ∧ ((s.testedAll p bad).cluster k).failed = _
        rw [testedAll_cluster hx hk]
        refine ⟨rfl, ?_⟩
        rw [Cluster.tested, hf k, Bool.false_or]
        exact Bool.eq_false_iff.2 fun hb => hall k hk (List.contains_iff_mem.1 hb)
    · have he := (testEnd_eq h ht).trans ((if_pos ((hasFailed_tested hx hf).2 ⟨k, hk, hb⟩)).trans (resumeSwitch_none (by
        rw [State.part_setPart_self]
        exact hq)))
      refine answers_event hev hw (by rw [he]; exact hwr) ?_
      rw [he]
      refine ⟨congrArg Partition.switch (State.part_setPart_self (s.testedAll p bad) p _), ?_, ?_, rfl⟩
      · show Alert.clusterFailed k ∈ (s.testedAll p bad).alerts
        rw [hrest]
        exact List.mem_append_right _ (List.mem_map_of_mem (List.mem_filter.2 ⟨hk, List.contains_iff_mem.2 hb⟩))
      · show ((s.testedAll p bad).cluster k).failed = _
        rw [testedAll_cluster hx hk, Cluster.tested, List.contains_iff_mem.2 hb, Bool.or_true]
  · intro s p c damage hw h hq hc
    have ho := occurs_event (j := .contextRestore p damage) (f := fun s => s.contextRestore p damage) rfl hw
    refine ⟨fun hi => ?_, fun hal hr => ⟨fun hs => ?_, fun v hs => ⟨fun hv => ?_, fun h1 h2 h3 => ?_⟩⟩⟩
    · rwa [contextRestore_idle h hq hi] at ho
    · rwa [contextRestore_fresh h hal hr hs] at ho
    · rwa [contextRestore_refused h hal hr hq hs hv] at ho
    · have hv : ¬ (v.pw ≠ (s.part p).pw ∨ v.ph ≠ (s.part p).ph ∨ s.admits p c = false) := by
        rw [h1, h2, h3]
        simp
      refine ⟨fun hd => ?_, fun h0 hk hs' ha => ?_⟩
      · rwa [contextRestore_lost h hal hr hs hv hd] at ho
      · have hd : ¬ (damage ≠ 0 ∨ v.key ≠ (s.ctx c).key ∨ v.seq ≠ (s.ctx c).saveSeq ∨ v.addr ≠ (s.ctx c).saveArea) := by
          rw [h0, hk, hs', ha]
          simp
        rwa [contextRestore_loads h hal hr hs hq hc hv hd] at ho
  · obtain ⟨h1, h2, h3⟩ := lostContext_spec s p c d
    exact ⟨h1, h2, _, h3, lostRec_spec d⟩
  · intro t
    refine ⟨?_, ?_, ?_, ?_, fun d k hv => ?_⟩
    · exact congrArg Partition.resident (loadContext_part s p c v)
    · exact congrArg Partition.ctx (loadContext_part s p c v)
    · exact congrArg Partition.switch (loadContext_part s p c v)
    · show (s.loadContext p c v).mem = _
      rw [loadContext_eq, (sampleRoot_keeps _ _).2.2.1]
      exact (loadClusters_keeps s p v).2.1
    · have h := loadContext_core s p c v hx hy hv
      show ((s.loadContext p c v).core d).slots = _ ∧ ((s.loadContext p c v).core d).spad = _ ∧ ((s.loadContext p c v).core d).runq = _
      rw [h]
      exact ⟨rfl, rfl, rfl⟩

end Machine
end Sys2Proof
end

section
/-! PROOF. Messages, spawns and third-party reads on the message plane: O33 does not hold. -/

namespace Sys2Proof
namespace Machine

open Safety

/-- The state `fallingParts` with a spawn under way to core 48, whose child traps ILLEGAL at its start. -/
def fallingSpawn : State := { fallingParts with net := [.spawn 0 0 0 (.core 48) badMsg] }

/-- The core that takes the child, with its entry in the inbox. -/
def childCore : Core := { fallingSpawn.core 48 with inbox := [⟨0, 64, false, false, some badMsg⟩], inHead := 64 }

/-- The spawn has reached its target. -/
def afterSpawn : State := fallingSpawn.perform fun s => s.spawnArrive 0

/-- The state after the child has started on core 48 and has trapped there, and the answer has gone back. -/
def onlyChild : State :=
  (((({ fallingSpawn with net := [] } : State).setCore 48 childCore).startTask 48 1 badMsg).returnResult 0 0 1 none)

/-- The mirror of core 48 that there is once the child has trapped starts it too. -/
theorem afterSpawn_mirror : (afterSpawn.slot 176 1).parked = true := by decide +kernel

theorem onlyChild_mirror : (onlyChild.slot 176 1).parked = false := by decide +kernel

/-- Refutes O33: the table of partitions need not rise, and the record of a trap puts its partition in its place of the table. In
`fallingSpawn` core 48 has no mirror before the spawned child starts there; the child traps at its start, and its core has a mirror
afterwards, on which the child starts as well, where the statement has it start on core 48 alone. -/
theorem not_messagesTravel : ¬ Obligations.MessagesTravel := by
  rintro ⟨-, -, -, -, -, -, -, -, -, -, -, -, hspawn, -⟩
  have ho := (hspawn fallingSpawn 0 0 0 0 48 badMsg rfl rfl (by decide +kernel)
    (fun _ hy => absurd hy List.not_mem_nil)).2.2 (by decide +kernel) (by decide +kernel) rfl rfl
    (by decide +kernel) 1 childCore 0 (by decide +kernel) (by decide +kernel)
  have he : afterSpawn = State.settleMem { onlyChild with mem := fallingSpawn.mem, plat := fallingSpawn.plat } := Host.Outcome.next.inj ho
  have hp := congrArg Slot.parked (slot_settled onlyChild fallingSpawn.mem fallingSpawn.plat 176 1)
  rw [← he, afterSpawn_mirror, onlyChild_mirror] at hp
  exact Bool.false_ne_true hp.symm

end Machine
end Sys2Proof
end

section
/-! PROOF. Drained writes where their bytes lie (13_memory_hierarchy.md R231 to R234; 14_ordering.md R243 to R246; 22_interruption.md
R323; 24_protection.md R341): O34. -/

namespace Sys2Proof
namespace Machine

open Safety

/-! ## Bytes of memory -/

/-- What memory holds once the writes of a step are settled is what was read in it. -/
theorem read_settleMem (s : State) (a : Nat) : Memory.read s.settleMem.mem a = s.rdByte a := by
  rw [State.settleMem_mem, Memory.read_writeAll, State.rdByte]
  cases s.wr.find? fun e => e.1 == a <;> rfl

/-- A line without partial lines is as it is at its home. -/
theorem mergeLine_whole {s : State} {ln : Nat} (h : (s.line ln).partials = []) : s.mergeLine ln = s := by
  unfold State.mergeLine
  extract_lets l
  refine if_pos ?_
  rw [show l.partials = [] from h]
  rfl

/-- A request that counts at a line leaves every line's partial lines, and what was written. -/
theorem touchLine_partials (s : State) (p ln gpa : Nat) (src : Option Nat) (red : Bool) (b : Nat) :
    ((s.touchLine p ln gpa src red).line b).partials = (s.line b).partials ∧ (s.touchLine p ln gpa src red).wr = s.wr := by
  have hset (k : Line) (hk : k.partials = (s.line ln).partials) :
      ((s.setLine ln k).line b).partials = (s.line b).partials ∧ (s.setLine ln k).wr = s.wr := by
    refine ⟨?_, rfl⟩
    rw [State.line_setLine]
    split
    · next hb => rw [hk, hb]
    · rfl
  unfold State.touchLine
  cases src with
  | none => exact ⟨rfl, rfl⟩
  | some k =>
    dsimp only
    split
    · split
      · exact ⟨rfl, rfl⟩
      · exact hset _ rfl
    · exact hset _ rfl

/-- An access of whole lines writes nothing. -/
theorem openLines_wr {s : State} {src : Option Nat} {p phys gpa n : Nat} (h : ∀ l ∈ linesOf phys gpa n, (s.line l.1).partials = []) :
    (s.openLines src p phys gpa n).wr = s.wr := by
  unfold State.openLines
  generalize linesOf phys gpa n = ls at h ⊢
  induction ls generalizing s with
  | nil => rfl
  | cons l ls ih =>
    rw [List.foldl_cons, mergeLine_whole (h l List.mem_cons_self)]
    refine (ih fun l' hl' => ?_).trans (touchLine_partials s p l.1 l.2 src false 0).2
    rw [(touchLine_partials s p l.1 l.2 src false l'.1).1]
    exact h l' (List.mem_cons_of_mem _ hl')

theorem rdByte_congr {s t : State} (hw : t.wr = s.wr) (hm : t.mem = s.mem) (a : Nat) : t.rdByte a = s.rdByte a := by
  rw [State.rdByte, State.rdByte, hw, hm]

theorem tagLines_wr (s : State) (p phys n : Nat) : (s.tagLines p phys n).wr = s.wr := by
  unfold State.tagLines
  refine foldl_of_step (fun s t : State => t.wr = s.wr) (fun _ => rfl) (fun _ _ _ h g => g.trans h) (fun s l => ?_) _ s
  extract_lets whole k new
  clear_value new
  split <;> rfl

/-- Bytes in different places are written where they lie, and no other byte changes. -/
theorem rdByte_wrNibs (s : State) (phys : Nat) (bs : List NibByte) (hn : (bs.map (·.pos)).Nodup) (a : Nat) :
    (s.wrNibs phys bs).rdByte a = match bs.find? (fun b => phys + b.pos == a) with
      | some b => mergeNib b (s.rdByte a)
      | none => s.rdByte a := by
  unfold State.wrNibs
  induction bs generalizing s with
  | nil => rfl
  | cons b bs ih =>
    obtain ⟨hb, hn⟩ := List.nodup_cons.1 hn
    rw [List.foldl_cons, ih _ hn, List.find?_cons, State.rdByte_wrByte]
    by_cases ha : a = phys + b.pos
    · have hnone : bs.find? (fun b => phys + b.pos == a) = none := by
        refine List.find?_eq_none.2 fun x hx he => hb ?_
        rw [ha, beq_iff_eq, Nat.add_left_cancel_iff] at he
        exact List.mem_map.2 ⟨x, hx, he⟩
      rw [hnone, if_pos ha, ha, beq_self_eq_true]
    · rw [if_neg ha, show (phys + b.pos == a) = false from beq_eq_false_iff_ne.2 (Ne.symm ha)]

theorem rdByte_homeWrite {s : State} (src : Option Nat) {p phys gpa : Nat} {bs : List NibByte} (a : Nat)
    (hl : ∀ l ∈ linesOf phys gpa (bs.foldl (fun m b => Nat.max m (b.pos + 1)) 1), (s.line l.1).partials = [])
    (hn : (bs.map (·.pos)).Nodup) : (s.homeWrite src p phys gpa bs).rdByte a =
      match bs.find? fun b => phys + b.pos == a with | some b => mergeNib b (s.rdByte a) | none => s.rdByte a := by
  have htag := tagLines_homeStep ((s.openLines src p phys gpa (bs.foldl (fun m b => Nat.max m (b.pos + 1)) 1)).wrNibs phys bs) p phys
    (bs.foldl (fun m b => Nat.max m (b.pos + 1)) 1)
  unfold State.homeWrite
  extract_lets n
  rw [rdByte_congr (tagLines_wr _ _ _ _) htag.mem, rdByte_wrNibs _ _ _ hn,
    rdByte_congr (openLines_wr hl) (openLines_homeStep s src p phys gpa n).mem]

/-! ## What a park queue gives its requests (22 R323) -/

theorem le_foldl_max {α : Type} (f : α → Nat) (l : List α) (m : Nat) :
    m ≤ l.foldl (fun m x => Nat.max m (f x)) m ∧ ∀ x ∈ l, f x ≤ l.foldl (fun m x => Nat.max m (f x)) m := by
  induction l generalizing m with
  | nil => exact ⟨le_rfl, nofun⟩
  | cons y l ih =>
    obtain ⟨h1, h2⟩ := ih (Nat.max m (f y))
    refine ⟨(Nat.le_max_left m (f y)).trans h1, fun x hx => ?_⟩
    rcases List.mem_cons.1 hx with rfl | hx
    · exact (Nat.le_max_right m (f x)).trans h1
    · exact h2 x hx

/-- The number behind every request that is parked. -/
def State.nextSeq (s : State) : Nat := s.clusters.foldl (fun m e => e.2.park.foldl (fun m x => Nat.max m (x.seq + 1)) m) 0

theorem lt_nextSeq {s : State} {h : Nat} {x : Parked} (hx : x ∈ (s.cluster h).park) : x.seq < s.nextSeq := by
  have key (l : Tbl Cluster) (m : Nat) : m ≤ l.foldl (fun m e => e.2.park.foldl (fun m x => Nat.max m (x.seq + 1)) m) m ∧
      ∀ e ∈ l, ∀ x ∈ e.2.park, x.seq + 1 ≤ l.foldl (fun m e => e.2.park.foldl (fun m x => Nat.max m (x.seq + 1)) m) m := by
    induction l generalizing m with
    | nil => exact ⟨le_rfl, nofun⟩
    | cons y l ih =>
      obtain ⟨h1, h2⟩ := ih (y.2.park.foldl (fun m x => Nat.max m (x.seq + 1)) m)
      obtain ⟨h3, h4⟩ := le_foldl_max (fun x : Parked => x.seq + 1) y.2.park m
      refine ⟨h3.trans h1, fun e he x hx => ?_⟩
      rcases List.mem_cons.1 he with rfl | he
      · exact (h4 x hx).trans h1
      · exact h2 e he x hx
  unfold State.cluster at hx
  cases hg : Tbl.get? s.clusters h with
  | none => rw [hg] at hx; exact absurd hx List.not_mem_nil
  | some k =>
    rw [hg] at hx
    exact (key s.clusters 0).2 _ (mem_of_get? hg) x hx

theorem parkAt_spec (s : State) (r : Parked) : ∃ n,
    ((s.parkAt r).cluster (s.homeFor r)).park = (s.cluster (s.homeFor r)).park ++ [{ r with seq := n }] ∧
    (∀ h x, x ∈ (s.cluster h).park → x.seq < n) ∧ (∀ h, h ≠ s.homeFor r → (s.parkAt r).cluster h = s.cluster h) ∧
    (s.parkAt r).cores = s.cores ∧ (s.parkAt r).mem = s.mem := by
  have hc (h : Nat) : (s.parkAt r).cluster h = _ := cluster_modCluster s (s.homeFor r) h _
  refine ⟨s.nextSeq, ?_, fun h x => lt_nextSeq, fun h hh => ?_, rfl, rfl⟩
  · rw [hc, if_pos rfl]
    rfl
  · rw [hc, if_neg hh]

/-! ## What a release goes before (14 R244, R246) -/

section
variable {s : State} {c k : Nat} {e : Entry}

theorem nearNow_none (h : (s.core c).nears e = []) : s.nearNow c e = s := by
  refine if_pos ?_
  rw [h]
  rfl

theorem mayNear_none (h : (s.core c).nears e = []) : s.mayNear c e = true := by
  rw [State.mayNear, h]
  rfl

theorem nears_weak (k : Core) (h : e.order = .weak) : k.nears e = [] := if_pos h

theorem nearAll_flight (k : Core) (e : Entry) : (k.nearAll e).flight = k.flight.map fun f =>
    if (k.nears e).any (fun x => x.id == f.e.id) then { f with e := { f.e with near := true } } else f := by
  unfold Core.nearAll
  split
  · next h =>
    rw [List.isEmpty_iff.1 h]
    exact (List.map_id k.flight).symm
  · rfl

theorem nearNow_flight (s : State) (c : Nat) (e : Entry) (d : Nat) : ((s.nearNow c e).core d).flight = if d = c then
    (s.core c).flight.map (fun f => if ((s.core c).nears e).any (fun x => x.id == f.e.id) then { f with e := { f.e with near := true } } else f)
    else (s.core d).flight := by
  unfold State.nearNow
  split
  · next h =>
    split
    · next hd =>
      rw [hd, List.isEmpty_iff.1 h]
      exact (List.map_id (s.core c).flight).symm
    · rfl
  · rw [State.core_modCore]
    split
    · exact nearAll_flight _ e
    · rfl

/-! ## The events of an entry -/

theorem mayPerform_of_mayRelease {k : Core} (h : k.mayRelease e = true) : k.mayPerform e = true :=
  (Bool.and_eq_true_iff.1 h).1

theorem mayArrive_performs {k : Core} (h : k.mayArrive e = true) (ha : ∀ op n x y uid, e.act ≠ .amo op n x y uid) : k.mayPerform e = true := by
  unfold Core.mayArrive at h
  split at h
  · next op n x y uid ho => exact absurd ho (ha op n x y uid)
  · split at h
    · exact h
    · exact mayPerform_of_mayRelease h
  · exact h

theorem flightArrive_arrives {sel : Entry → Bool} (hk : (s.core c).flight[k]? = some ⟨e, .waiting⟩) (hs : sel e = true)
    (ha : (s.core c).mayArrive e = true) (hn : s.mayNear c e = true) : s.flightArrive c k sel = (s.nearNow c e).arrive c e := by
  rw [State.flightArrive, hk]
  exact if_pos ⟨rfl, hs, ha, hn⟩

theorem flightArrive_waits {sel : Entry → Bool} {st : FlightSt} (hk : (s.core c).flight[k]? = some ⟨e, st⟩)
    (h : ¬ (st = .waiting ∧ sel e = true ∧ (s.core c).mayArrive e = true ∧ s.mayNear c e = true)) : s.flightArrive c k sel = s := by
  rw [State.flightArrive, hk]
  exact if_neg h

theorem flying?_waiting (hk : (s.core c).flight[k]? = some ⟨e, .waiting⟩) : s.flying? c k = some e := by
  rw [State.flying?, hk]
  rfl

theorem flying?_eq {st : FlightSt} (hk : (s.core c).flight[k]? = some ⟨e, st⟩) :
    s.flying? c k = if st = .waiting ∨ st = .refused then some e else none := by
  rw [State.flying?, hk]

/-! ## At a home -/

variable {z : State} {go : State → Nat → Nat → Nat → Nat → State} {p ph gva gpa g : Nat}

theorem sealHolds_hbm (hl : e.loc = .hbm p ph gva gpa) : z.sealHolds c e = z.snapHolds p c e := by
  rw [State.sealHolds, hl]

theorem sealHolds_unmapped (hl : e.loc = .unmapped p gva g) : z.sealHolds c e = z.snapHolds p c e := by
  rw [State.sealHolds, hl]

/-- What keeps an entry of a core from the home of its line. -/
theorem atHome_kept (h : z.sealHolds c e = true ∨ z.refusedAt c (z.parkHome e.loc) = true ∨ z.planeShut e.loc = true) :
    z.atHome c e false go = z := by
  refine if_pos ?_
  rcases h with h | h | h <;> simp [h]

/-- An entry that nothing keeps from the home of its line. -/
theorem atHome_reaches (hl : e.loc = .hbm p ph gva gpa) (hs : z.snapHolds p c e = false) (hr : z.refusedAt c (z.homeOf p (ph / 128)) = false)
    (ho : z.planeOpen p = true) : z.atHome c e false go = if z.nearOpen (clusterOf c) (some (c, e.task)) e.loc e.span then z
      else if z.busy p ph gpa e.span true then (z.startCow p gpa).parkEntry c e else go z p ph gva gpa := by
  have hkept : ¬ (z.sealHolds c e || (!false && (z.refusedAt c (z.parkHome e.loc) || z.planeShut e.loc))) = true := by
    rw [sealHolds_hbm hl, hl, hs, show z.parkHome (.hbm p ph gva gpa) = z.homeOf p (ph / 128) from rfl, hr,
      show z.planeShut (.hbm p ph gva gpa) = !z.planeOpen p from rfl, ho]
    decide
  unfold State.atHome
  refine (if_neg hkept).trans ?_
  conv_lhs => rw [hl]
  dsimp only
  rw [← hl]
  rfl

/-- An entry whose translation waited and fails now. -/
theorem atHome_fails {t : State} {cause : Nat} (hl : e.loc = .unmapped p gva g) (hs : z.snapHolds p c e = false)
    (hr : z.refusedAt c (z.dirSlice p (g / 128)) = false) (ho : z.planeOpen p = true)
    (hx : z.xlateMem (some c) p gva e.access = (t, .bad cause)) : z.atHome c e false go = t.entryFails c e cause := by
  have hkept : ¬ (z.sealHolds c e || (!false && (z.refusedAt c (z.parkHome e.loc) || z.planeShut e.loc))) = true := by
    rw [sealHolds_unmapped hl, hl, hs, show z.parkHome (.unmapped p gva g) = z.dirSlice p (g / 128) from rfl, hr,
      show z.planeShut (.unmapped p gva g) = !z.planeOpen p from rfl, ho]
    decide
  unfold State.atHome
  refine (if_neg hkept).trans ?_
  rw [hl]
  dsimp only
  rw [hx]

theorem parkEntry_eq (t : State) (c : Nat) (e : Entry) : t.parkEntry c e =
    if (t.cluster (t.parkHome e.loc)).park.length < 64 then (t.parkAt { who := .entry, src := c, req := e.id, loc := e.loc }).mark c e.id .parked
    else t.mark c e.id .refused := by
  rw [State.parkEntry, State.parkRoom]
  exact if_congr decide_eq_true_iff rfl rfl

/-! ## Stores -/

section
variable {bs : List NibByte} (ha : e.act = .store bs)
include ha

theorem routeOf_store (hn : hasNibble bs = false) (hl : ∀ d a, e.loc ≠ .imem d a) : routeOf e = .home := by
  rw [routeOf, ha]
  cases he : e.loc with
  | imem d a => exact absurd he (hl d a)
  | peer => rfl
  | stream => rfl
  | _ =>
    refine if_neg ?_
    rw [hn]
    exact Bool.false_ne_true

theorem arrive_store (hn : hasNibble bs = false) (hl : ∀ d a, e.loc ≠ .imem d a) : z.arrive c e = z.storeArrive c e bs false := by
  rw [State.arrive, routeOf_store ha hn hl, ha]

omit ha in
theorem storeArrive_spad {d a : Nat} (hl : e.loc = .spad d a) :
    z.storeArrive c e bs false = (z.modCore d fun x => x.spadMerge a bs).land c e.id := by
  rw [State.storeArrive, hl]
  rfl

omit ha in
theorem storeArrive_hbm (hl : e.loc = .hbm p ph gva gpa) :
    z.storeArrive c e bs false = z.atHome c e false fun s p ph _ gpa => s.storePerform c e bs p ph gpa := by
  rw [State.storeArrive, hl]

omit ha in
theorem storeArrive_unmapped (hl : e.loc = .unmapped p gva g) :
    z.storeArrive c e bs false = z.atHome c e false fun s p ph _ gpa => s.storePerform c e bs p ph gpa := by
  rw [State.storeArrive, hl]

theorem entryFails_store (t : State) (cause : Nat) : t.entryFails c e cause = (t.land c e.id).writeFailed c e cause 0 := by
  rw [State.entryFails, ha]

theorem mortar_store : e.mortar = false := by
  rw [Entry.mortar, ha]

end

/-- The events of a store of a core: a weak one arrives, a strong one is performed once it may release. -/
def StoreEvent (s : State) (c k : Nat) (e : Entry) (ev : Instr) : Prop :=
  (ev = .memoryRequestAtHome c k ∧ e.order = .weak ∧ (s.core c).mayPerform e = true) ∨
    (ev = .releasePerform c k ∧ (e.order = .rel ∨ e.order = .sc) ∧ (s.core c).mayRelease e = true)

theorem releasePerform_store {bs : List NibByte} (hf : s.flying? c k = some e) (ha : e.act = .store bs) :
    s.releasePerform c k = s.flightArrive c k fun e => decide (e.order = .rel) || decide (e.order = .sc) := by
  rw [State.releasePerform, hf]
  dsimp only
  rw [mortar_store ha, ha]
  rfl

/-- What the events of a store do: they take it to where its bytes lie, or nothing. -/
theorem storeEvent_flightArrive {bs : List NibByte} {ev : Instr} (hk : (s.core c).flight[k]? = some ⟨e, .waiting⟩) (ha : e.act = .store bs)
    (hc : c ≠ planeCore) (hn : hasNibble bs = false) (hev : StoreEvent s c k e ev) : ∃ sel f, exec ev s = event f s ∧ f s = s.flightArrive c k sel ∧
      ((∀ d a, e.loc ≠ .imem d a) → sel e = true) ∧ (s.core c).mayArrive e = true := by
  rcases hev with ⟨rfl, ho, hp⟩ | ⟨rfl, ho, hp⟩
  · refine ⟨fun e => decide (routeOf e = .home) && decide (e.order = .weak), fun s => s.memoryRequest c k, rfl, if_neg hc, fun hl => ?_, ?_⟩
    · dsimp only
      rw [routeOf_store ha hn hl, ho]
      rfl
    · rw [Core.mayArrive, ha]
      exact (if_pos ho).trans hp
  · refine ⟨fun e => decide (e.order = .rel) || decide (e.order = .sc), fun s => s.releasePerform c k, rfl,
      releasePerform_store (flying?_waiting hk) ha, fun _ => ?_, ?_⟩
    · rcases ho with ho | ho <;> simp only [ho] <;> decide
    · rw [Core.mayArrive, ha]
      refine (if_neg ?_).trans hp
      rcases ho with ho | ho <;> rw [ho] <;> decide

theorem storeEvent_occurs {bs : List NibByte} {ev : Instr} (hw : s.wr = []) (hk : (s.core c).flight[k]? = some ⟨e, .waiting⟩)
    (ha : e.act = .store bs) (hc : c ≠ planeCore) (hn : hasNibble bs = false) (hev : StoreEvent s c k e ev) :
    (s.mayNear c e = false → Occurs ev s s) ∧
    (s.mayNear c e = true → (∀ d a, e.loc ≠ .imem d a) → Occurs ev s ((s.nearNow c e).storeArrive c e bs false)) := by
  obtain ⟨sel, f, he, hf, hsel, harr⟩ := storeEvent_flightArrive hk ha hc hn hev
  have ho := occurs_event he hw
  rw [hf] at ho
  refine ⟨fun hm => ?_, fun hm hl => ?_⟩
  · rwa [flightArrive_waits hk fun h => absurd h.2.2.2 (ne_true_of_eq_false hm)] at ho
  · rwa [flightArrive_arrives hk (hsel hl) harr hm, arrive_store ha hn hl] at ho

/-- An event of an entry of a core's flight that does nothing: its entry may not arrive, or not go before others. -/
theorem flightEvents_wait {st : FlightSt} (hw : s.wr = []) (hk : (s.core c).flight[k]? = some ⟨e, st⟩) (hc : c ≠ planeCore)
    (h : (s.core c).mayPerform e = false ∨ s.mayNear c e = false) :
    Occurs (.memoryRequestAtHome c k) s s ∧ Occurs (.reductionEntry c k) s s := by
  have hwait (sel : Entry → Bool) (hsel : sel e = true → ∀ op n x y uid, e.act ≠ .amo op n x y uid) : s.flightArrive c k sel = s := by
    refine flightArrive_waits hk fun ⟨_, hs, ha, hn⟩ => ?_
    rcases h with h | h
    · exact absurd (mayArrive_performs ha (hsel hs)) (ne_true_of_eq_false h)
    · exact absurd hn (ne_true_of_eq_false h)
  have hroute (r : Route) (hr : r ≠ .service) (hs : routeOf e = r) (op n : Nat) (x y : W64) (uid : Nat) : e.act ≠ .amo op n x y uid := by
    intro ha
    rw [routeOf, ha] at hs
    exact hr hs.symm
  have hm := occurs_event (j := .memoryRequestAtHome c k) (f := fun s => s.memoryRequest c k) rfl hw
  have hr := occurs_event (j := .reductionEntry c k) (f := fun s => s.reductionEntry c k) rfl hw
  rw [State.memoryRequest, if_neg hc, hwait _ fun hs => hroute .home (by decide) (of_decide_eq_true (Bool.and_eq_true_iff.1 hs).1)] at hm
  rw [State.reductionEntry, if_neg hc, hwait _ fun hs => hroute .reduction (by decide) (of_decide_eq_true hs)] at hr
  exact ⟨hm, hr⟩

theorem releasePerform_waits {st : FlightSt} (hk : (s.core c).flight[k]? = some ⟨e, st⟩)
    (h : s.mayNear c e = false ∨ e.mortar = false ∧ (s.core c).mayRelease e = false) : s.releasePerform c k = s := by
  unfold State.releasePerform
  rw [flying?_eq hk]
  split
  · next x hx =>
    obtain rfl : e = x := by
      split at hx
      · exact Option.some.inj hx
      · exact nomatch hx
    split
    · next hm =>
      refine if_neg fun hall => ?_
      rcases h with h | h
      · exact absurd (Bool.and_eq_true_iff.1 hall).2 (ne_true_of_eq_false h)
      · exact absurd hm (ne_true_of_eq_false h.1)
    · split
      · next bs ha =>
        refine flightArrive_waits hk fun ⟨_, hs, harr, hn⟩ => ?_
        rcases h with h | ⟨-, h⟩
        · exact absurd hn (ne_true_of_eq_false h)
        · rw [Core.mayArrive, ha] at harr
          dsimp only at harr
          rw [if_neg, h] at harr
          · exact absurd harr Bool.false_ne_true
          · intro ho
            rw [ho] at hs
            exact absurd hs (by decide)
      · rfl
  · rfl

/-! ## Updates, fence marks and acknowledgements (08 R136; 13 R234; 20 R311) -/

theorem reductionEntry_red {op n : Nat} {v : W64} (hk : (s.core c).flight[k]? = some ⟨e, .waiting⟩) (ha : e.act = .red op n v)
    (ho : e.order = .weak) (hc : c ≠ planeCore) (hp : (s.core c).mayPerform e = true) : s.reductionEntry c k = s.redArrive c e op n v false := by
  have hroute : routeOf e = .reduction := by
    rw [routeOf, ha]
  have hnone : (s.core c).nears e = [] := nears_weak _ ho
  rw [State.reductionEntry, if_neg hc, flightArrive_arrives hk (decide_eq_true hroute) (by rw [Core.mayArrive, ha]; exact hp) (mayNear_none hnone),
    nearNow_none hnone, State.arrive, hroute, ha]

theorem redArrive_hbm {op n : Nat} {v : W64} (hl : e.loc = .hbm p ph gva gpa) : z.redArrive c e op n v false =
    z.atHome c e false fun s p ph _ gpa => ((s.redEnter p gpa (clusterOf c) ph op n v).l1Forget c ph gpa n).land c e.id := by
  rw [State.redArrive, hl]

theorem fencePass_eq (hf : s.flying? c k = some e) (ha : e.act = .fence) :
    s.fencePass c k = if (s.core c).mayPass e && s.mayNear c e then (s.nearNow c e).land c e.id else s := by
  rw [State.fencePass, hf]
  dsimp only
  rw [ha]

theorem writeAcked_eq {ok : Bool} {cause dev : Nat} (hk : (s.core c).flight[k]? = some ⟨e, .sent⟩)
    (hn : s.net.find? (isAck c e.id ok) = some (.ack c e.id ok cause dev)) : s.writeAcked c k ok =
      let u : State := State.land { s with net := removeFirst (isAck c e.id ok) s.net } c e.id
      if ok then u else u.writeFailed c e cause dev := by
  rw [State.writeAcked, hk]
  refine (if_neg (not_not.2 rfl)).trans ?_
  rw [hn]

theorem snapHolds_iff : s.snapHolds p c e = true ↔ ∃ begun, (s.slot (s.part p).supCore 7).wait = .snap begun ∧ (c, e.id) ∉ begun := by
  unfold State.snapHolds
  split
  · next begun hb =>
    rw [Bool.not_eq_true', ← Bool.not_eq_true, List.contains_iff_mem]
    exact ⟨fun h => ⟨begun, hb, h⟩, fun ⟨b, hb', h⟩ => by cases hb.symm.trans hb'; exact h⟩
  · next hb => exact ⟨fun h => absurd h Bool.false_ne_true, fun ⟨b, hb', _⟩ => absurd hb' (hb b)⟩

end

/-- Settles O34: where an entry's event performs, parks or fails it (`storeEvent_occurs`, `atHome_reaches`, `parkEntry_eq`), and the bytes that a write leaves
(`rdByte_homeWrite`). -/
theorem writesAtHomes : Obligations.WritesAtHomes := by
  refine ⟨?_, fun s c e => ⟨fun h => ⟨nearNow_none h, mayNear_none h⟩, nearNow_flight s c e⟩, parkAt_spec, ?_, ?_, ?_, ?_,
    fun s src p phys gpa bs a => rdByte_homeWrite src a, fun s p c e => snapHolds_iff, read_settleMem⟩
  · intro s c k e bs ev hw hk ha hc hn hev z
    obtain ⟨hwait, harr⟩ := storeEvent_occurs hw hk ha hc hn hev
    refine ⟨hwait, fun hm d a hl => ?_, fun hm p ph gva gpa hl ho hs hr hopen => ?_, fun hm p gva g hl ho hs hr t cause hx => ?_,
      fun hm p ph gva gpa hl hkept => ?_⟩
    · have := harr hm (by rw [hl]; nofun)
      rwa [storeArrive_spad hl] at this
    · have := harr hm (by rw [hl]; nofun)
      rw [storeArrive_hbm hl, atHome_reaches hl hs hr ho, if_neg (ne_true_of_eq_false hopen)] at this
      refine ⟨fun hb => ?_, fun hb => ?_⟩
      · rwa [if_neg (ne_true_of_eq_false hb)] at this
      · rw [if_pos hb, parkEntry_eq] at this
        intro t
        rwa [hl] at this ⊢
    · have := harr hm (by rw [hl]; nofun)
      have hacc : e.access = .write := by rw [Entry.access, ha]
      rwa [storeArrive_unmapped hl, atHome_fails hl hs hr ho (by rw [hacc]; exact hx), entryFails_store ha] at this
    · have := harr hm (by rw [hl]; nofun)
      rw [storeArrive_hbm hl] at this
      by_cases hq : z.planeOpen p = true ∧ z.snapHolds p c e = false ∧ z.refusedAt c (z.homeOf p (ph / 128)) = false
      · obtain ⟨ho, hs, hr⟩ := hq
        rw [atHome_reaches hl hs hr ho, if_pos] at this
        · exact this
        · rcases hkept with h | h | h | h
          · exact absurd ho (ne_true_of_eq_false h)
          · exact absurd h (ne_true_of_eq_false hs)
          · exact absurd h (ne_true_of_eq_false hr)
          · exact h
      · rwa [atHome_kept] at this
        rw [sealHolds_hbm hl, hl]
        show z.snapHolds p c e = true ∨ z.refusedAt c (z.homeOf p (ph / 128)) = true ∨ (!z.planeOpen p) = true
        by_contra hno
        simp only [not_or, Bool.not_eq_true, Bool.not_eq_false'] at hno
        exact hq ⟨hno.2.2, hno.1, hno.2.1⟩
  · intro s c k e st hw hk hc
    have hrel := occurs_event (j := .releasePerform c k) (f := fun s => s.releasePerform c k) rfl hw
    refine ⟨fun h => flightEvents_wait hw hk hc (.inl h), fun hm h => ?_, fun h => ?_⟩
    · rwa [releasePerform_waits hk (.inr ⟨hm, h⟩)] at hrel
    · obtain ⟨h1, h2⟩ := flightEvents_wait hw hk hc (.inr h)
      exact ⟨h1, h2, by rwa [releasePerform_waits hk (.inl h)] at hrel⟩
  · intro s c k e op n v p ph gva gpa hw hk ha ho hc hp hl hopen hs hr hnear hb
    have hocc := occurs_event (j := .reductionEntry c k) (f := fun s => s.reductionEntry c k) rfl hw
    have hspan : e.span = n := by rw [Entry.span, ha]
    rwa [reductionEntry_red hk ha ho hc hp, redArrive_hbm hl, atHome_reaches hl hs hr hopen, if_neg (ne_true_of_eq_false hnear), hspan,
      if_neg (ne_true_of_eq_false hb)] at hocc
  · intro s c k e hw hf ha
    have hocc := occurs_event (j := .fenceMarkPass c k) (f := fun s => s.fencePass c k) rfl hw
    rw [fencePass_eq hf ha] at hocc
    refine ⟨fun hp hm => ?_, fun h => ?_⟩
    · rwa [hp, hm] at hocc
    · rwa [if_neg] at hocc
      rw [Bool.and_eq_true]
      rintro ⟨hp, hm⟩
      rcases h with h | h
      · exact absurd hp (ne_true_of_eq_false h)
      · exact absurd hm (ne_true_of_eq_false h)
  · intro s c k e ok cause dev hw hk hn
    have hocc := occurs_event (j := .writeAck c k ok) (f := fun s => s.writeAcked c k ok) rfl hw
    rwa [writeAcked_eq hk hn] at hocc

end Machine
end Sys2Proof
end

section
/-! PROOF. Service slots, the replay of park queues and moved lines (06_issuing.md R97, R98; 08_isa_memory_messages.md R139, R140, R143;
13_memory_hierarchy.md R227, R233; 22_interruption.md R323, R324): O35. -/

namespace Sys2Proof
namespace Machine

open Safety

/-! ## A handler that has ended -/

theorem serving_modCore (s : State) (d : Nat) {f : Core → Core} (hf : (f (s.core d)).serving = (s.core d).serving) (c : Nat) :
    ((s.modCore d f).core c).serving = (s.core c).serving := by
  rw [State.core_modCore]
  by_cases h : c = d
  · rw [if_pos h, hf, h]
  · rw [if_neg h]

theorem covered_ctxStep (s : State) (c id : Nat) (l : Option LaunchId) : CtxStep s (s.covered c id l) := by
  unfold State.covered
  cases l with
  | none => exact .refl s
  | some l =>
    dsimp only
    cases s.launch? l with
    | none => exact .refl s
    | some x =>
      dsimp only
      split
      · exact (setLaunch_ctxStep _ _ _).trans (reachEarly_ctxStep _ _)
      · exact .refl s

theorem serving_land (s : State) (d id c : Nat) : ((s.land d id).core c).serving = (s.core c).serving := by
  unfold State.land
  extract_lets l
  rw [(covered_ctxStep _ d id l).core]
  exact serving_modCore s d (f := fun k => { k with flight := k.flight.filter fun f => f.e.id != id }) rfl c

theorem serving_l1Invalidate (s : State) (d c : Nat) : ((s.l1Invalidate d).core c).serving = (s.core c).serving := by
  unfold State.l1Invalidate
  split
  · refine foldl_of_step (fun s t : State => (t.core c).serving = (s.core c).serving) (fun _ => rfl) (fun _ _ _ h g => g.trans h)
      (fun s o => ?_) _ s
    exact serving_modCore s o (f := fun k => { k with l1 := k.l1.map fun e => (e.1, { e.2 with valid := e.2.valid.filter (· != d) }) }) rfl c
  · exact serving_modCore s d (f := fun k => { k with l1 := [] }) rfl c

theorem serving_returnResult (s : State) (d uid : Nat) (v : W64) (bad : Option (Nat × W64)) (c : Nat) :
    ((s.returnResult d uid v bad).core c).serving = (s.core c).serving := by
  unfold State.returnResult
  extract_lets k acq t
  have ht : (t.core c).serving = (s.core c).serving := by
    rw [State.core_setCore]
    split
    · next h => rw [h]
    · rfl
  clear_value t
  split
  · exact (serving_l1Invalidate t d c).trans ht
  · exact ht

theorem serving_served (s : State) (c : Nat) : ((s.served c).core c).serving = none :=
  congrArg Core.serving (State.core_modCore_self s c _)

section
variable {s : State} {c : Nat} {r : SvcReq}

theorem serviceTurn_of (hh : (s.core c).halted = false) (ht : Turn s c 0) : s.serviceTurn c = true := by
  refine (if_neg (ne_true_of_eq_false hh)).trans ?_
  rw [ht.1, ht.2]
  rfl

/-- A handler that ends takes its cycle. -/
theorem serviceRun_ends {f : State → State} (hh : (s.core c).halted = false) (ht : Turn s c 0) (hr : (s.core c).serving = some r)
    (hf : ((f s).core c).serving = none) : s.serviceRun c f = (f s).modCore c fun k => k.issued 0 := by
  have hne : f s ≠ s := fun h => by
    rw [h, hr] at hf
    exact nomatch hf
  exact (if_pos (serviceTurn_of hh ht)).trans ((if_neg hne).trans (if_neg (ne_true_of_eq_false hh)))

theorem serviceRun_off {f : State → State} (h : s.serviceTurn c = false) : s.serviceRun c f = s :=
  if_neg (ne_true_of_eq_false h)

theorem serviceRun_same {f : State → State} (h : f s = s) : s.serviceRun c f = s := by
  unfold State.serviceRun
  split
  · exact if_pos h
  · rfl

/-- A handler that ends, as an event. -/
theorem serviceRun_occurs {j : Instr} {f : State → State} {u : State} (he : exec j s = event (fun s => s.serviceRun c f) s) (hw : s.wr = [])
    (hh : (s.core c).halted = false) (ht : Turn s c 0) (hr : (s.core c).serving = some r) (hf : f s = u) (hu : (u.core c).serving = none) :
    Occurs j s (u.modCore c fun k => k.issued 0) := by
  have ho := occurs_event he hw
  rwa [serviceRun_ends hh ht hr (by rw [hf, hu]), hf] at ho

/-! ## The handlers (08 R139, R140, R143; 13 R227) -/

variable {l : Loc} {go : State → Loc → State}

theorem serveAt_spad {k a : Nat} (hl : r.loc = .spad k a) : s.serveAt c r go = go s (.spad k a) := by
  rw [State.serveAt, hl]

theorem serveAt_hbm {p ph gva gpa : Nat} (hl : r.loc = .hbm p ph gva gpa) (ho : s.planeOpen p = true)
    (hb : s.busy p ph gpa r.span true = false) (hc : 16 * s.homeOf p (ph / 128) + 8 = c) : s.serveAt c r go = go s (.hbm p ph gva gpa) := by
  rw [State.serveAt, hl]
  refine (if_neg ?_).trans (if_neg ?_)
  · rw [show s.planeShut (.hbm p ph gva gpa) = !s.planeOpen p from rfl, ho]
    decide
  · rw [hb, Bool.false_or, decide_eq_true_eq, not_not]
    exact hc

/-- The scratchpad word of an atomic, changed. -/
def State.spadAtomic (s : State) (k a op n : Nat) (x y : W64) : State :=
  match atomicOp op n (BitVec.ofNat 64 (leVal ((s.core k).spadBytes a n))) x y with
  | some v => s.modCore k fun z => z.spadWrite a (leBytes n v.toNat)
  | none => s

theorem atomicAt_spad (src : Option Nat) (k a op n : Nat) (x y : W64) :
    s.atomicAt src (.spad k a) op n x y = (s.spadAtomic k a op n x y, BitVec.ofNat 64 (leVal ((s.core k).spadBytes a n))) := by
  unfold State.atomicAt State.wordAt State.spadAtomic
  dsimp only [w64]
  cases atomicOp op n (BitVec.ofNat 64 (leVal ((s.core k).spadBytes a n))) x y <;> rfl

/-- The word of an atomic at its home, changed. -/
def State.homeAtomic (s : State) (p ph op n : Nat) (old x y : W64) : State :=
  match atomicOp op n old x y with
  | some v => (s.wrBytes ph (leBytes n v.toNat)).tagLines p ph n
  | none => s

theorem atomicAt_hbm {s2 : State} {src : Option Nat} {p ph gva gpa op n : Nat} {x y : W64} {bs : List Byte}
    (h : s.homeRead src p ph gpa n = (s2, bs)) : s.atomicAt src (.hbm p ph gva gpa) op n x y =
      (s2.homeAtomic p ph op n (BitVec.ofNat 64 (leVal bs)) x y, BitVec.ofNat 64 (leVal bs)) := by
  unfold State.atomicAt State.wordAt State.homeAtomic
  dsimp only [w64]
  rw [h]
  cases atomicOp op n (BitVec.ofNat 64 (leVal bs)) x y with
  | none => rfl
  | some v => rfl

/-- An AMO of a core of this device at a place that its owner holds: the old value, or a fault of its line, goes back. -/
def amoAnswers (c : Nat) (r : SvcReq) (op n : Nat) (x y : W64) (uid : Nat) (s : State) (l : Loc) : State :=
  if s.badAt l then ((s.served c).returnResult r.src uid 0 (some (Cause.ecc, r.ea))).land r.src r.req
  else ((((s.atomicAt r.cluster? l op n x y).1.forgetAt r l n).served c).returnResult r.src uid (s.atomicAt r.cluster? l op n x y).2 none).land
    r.src r.req

/-- An AMOP of a core of this device. -/
def amopEnds (c : Nat) (r : SvcReq) (op n : Nat) (x : W64) (s : State) (l : Loc) : State :=
  (((s.atomicAt r.cluster? l op n x 0).1.forgetAt r l n).served c).land r.src r.req

theorem forgetAt_spad (s : State) (r : SvcReq) (k a n : Nat) : s.forgetAt r (.spad k a) n = s := by
  unfold State.forgetAt
  cases r.dev <;> rfl

theorem amoAnswers_spad (r : SvcReq) (op n : Nat) (x y : W64) (uid k a : Nat) : amoAnswers c r op n x y uid s (.spad k a) =
    (((s.spadAtomic k a op n x y).served c).returnResult r.src uid (BitVec.ofNat 64 (leVal ((s.core k).spadBytes a n))) none).land
      r.src r.req := by
  rw [amoAnswers, atomicAt_spad, forgetAt_spad]
  rfl

theorem amopEnds_spad (r : SvcReq) (op n : Nat) (x : W64) (k a : Nat) :
    amopEnds c r op n x s (.spad k a) = ((s.spadAtomic k a op n x 0).served c).land r.src r.req := by
  rw [amopEnds, atomicAt_spad, forgetAt_spad]

theorem amoAnswers_bad (r : SvcReq) (op n : Nat) (x y : W64) (uid : Nat) {p ph gva gpa : Nat} (h : s.foreign p ph = true) :
    amoAnswers c r op n x y uid s (.hbm p ph gva gpa) =
      ((s.served c).returnResult r.src uid 0 (some (Cause.ecc, r.ea))).land r.src r.req := if_pos h

theorem amoAnswers_hbm {s2 : State} (r : SvcReq) (op n : Nat) (x y : W64) (uid : Nat) {p ph gva gpa : Nat} {bs : List Byte} (hd : r.dev = none)
    (h : s.foreign p ph = false) (hread : s.homeRead (some (clusterOf r.src)) p ph gpa n = (s2, bs)) :
    amoAnswers c r op n x y uid s (.hbm p ph gva gpa) =
      ((((s2.homeAtomic p ph op n (BitVec.ofNat 64 (leVal bs)) x y).l1Forget r.src ph gpa n).served c).returnResult r.src uid
        (BitVec.ofNat 64 (leVal bs)) none).land r.src r.req := by
  have hcl : r.cluster? = some (clusterOf r.src) := by rw [SvcReq.cluster?, hd]
  refine (if_neg (ne_true_of_eq_false h)).trans ?_
  rw [hcl, atomicAt_hbm hread, State.forgetAt]
  simp only [hd]

variable (hr : (s.core c).serving = some r) (hd : r.dev = none)
include hr hd

theorem atomicServe_amo {op n uid : Nat} {x y : W64} (ha : r.act = .amo op n x y uid) :
    s.atomicServe c = s.serveAt c r (amoAnswers c r op n x y uid) := by
  rw [State.atomicServe, hr]
  dsimp only
  rw [ha]
  dsimp only
  rw [hd]
  rfl

theorem atomicServe_amop {op n : Nat} {x : W64} (ha : r.act = .amop op n x) :
    s.atomicServe c = s.serveAt c r (amopEnds c r op n x) := by
  rw [State.atomicServe, hr]
  dsimp only
  rw [ha]
  dsimp only
  rw [hd]
  rfl

theorem subByteServe_spad {bs : List NibByte} {k a : Nat} (ha : r.act = .store bs) (hl : r.loc = .spad k a) :
    s.subByteServe c = ((s.modCore k fun z => z.spadMerge a bs).served c).land r.src r.req := by
  rw [State.subByteServe, hr]
  dsimp only
  rw [ha, hl]
  dsimp only
  rw [serveAt_spad hl]
  dsimp only
  rw [hd]
  rfl

omit hd in
theorem imemServe_imem {bs : List NibByte} {k a : Nat} (ha : r.act = .store bs) (hl : r.loc = .imem k a) :
    s.imemServe c = ((s.modCore c fun z => z.imemWrite a bs).served c).land r.src r.req := by
  rw [State.imemServe, hr]
  dsimp only
  rw [ha, hl]

end

/-! ## Replay (13 R233; 22 R324) -/

theorem insertParked_perm (r : Parked) (l : List Parked) : (insertParked r l).Perm (r :: l) := by
  induction l with
  | nil => exact .refl _
  | cons x l ih =>
    unfold insertParked
    split
    · exact .refl _
    · exact (ih.cons x).trans (.swap r x l)

theorem insertParked_sorted {r : Parked} {l : List Parked} (h : l.Pairwise fun a b => a.seq ≤ b.seq) :
    (insertParked r l).Pairwise fun a b => a.seq ≤ b.seq := by
  induction l with
  | nil => exact List.pairwise_singleton _ r
  | cons x l ih =>
    obtain ⟨hx, hl⟩ := List.pairwise_cons.1 h
    unfold insertParked
    split
    · next hlt =>
      refine List.pairwise_cons.2 ⟨fun y hy => ?_, h⟩
      rcases List.mem_cons.1 hy with rfl | hy
      · exact hlt.le
      · exact hlt.le.trans (hx y hy)
    · next hle =>
      refine List.pairwise_cons.2 ⟨fun y hy => ?_, ih hl⟩
      rcases List.mem_cons.1 ((insertParked_perm r l).mem_iff.1 hy) with rfl | hy
      · exact Nat.not_lt.1 hle
      · exact hx y hy

/-- The requests of a list in the order of their numbers. -/
theorem sortParked_spec (l acc : List Parked) (h : acc.Pairwise fun a b => a.seq ≤ b.seq) :
    (l.foldl (fun l r => insertParked r l) acc).Perm (acc ++ l) ∧ (l.foldl (fun l r => insertParked r l) acc).Pairwise fun a b => a.seq ≤ b.seq := by
  induction l generalizing acc with
  | nil => exact ⟨by rw [List.append_nil]; exact .refl _, h⟩
  | cons r l ih =>
    obtain ⟨hp, hs⟩ := ih (insertParked r acc) (insertParked_sorted h)
    exact ⟨hp.trans (((insertParked_perm r acc).append_right l).trans List.perm_middle.symm), hs⟩

theorem replayPart_spec (s : State) (p : Nat) : ∃ all : List Parked, all.Perm ((s.part p).clusters.flatMap fun k => (s.cluster k).park) ∧
    all.Pairwise (fun a b => a.seq ≤ b.seq) ∧
    s.replayPart p = (all.foldl State.replayOne
      ((s.part p).clusters.foldl (fun s k => s.modCluster k fun c => { c with park := [] }) s, 0)).1 := by
  obtain ⟨hp, hs⟩ := sortParked_spec ((s.part p).clusters.flatMap fun k => (s.cluster k).park) [] .nil
  exact ⟨_, hp, hs, rfl⟩

theorem replayOne_entry {s : State} {r : Parked} {k : Nat} {f : Flight} (hr : r.who = .entry)
    (hf : (s.core r.src).flight.find? (fun f => f.e.id == r.req) = some f) :
    State.replayOne (s, k) r = ((s.mark r.src r.req .waiting).arrive r.src f.e true, k) := by
  rw [State.replayOne, hr]
  dsimp only
  rw [State.retryParked, hr]
  dsimp only
  rw [hf]

theorem replayOne_item {s : State} {r : Parked} {k : Nat} {x : NetItem} (hr : r.who = .item x) :
    State.replayOne (s, k) r = s.itemArrive k x := by
  rw [State.replayOne, hr]

theorem installForward_moves {s : State} {ln k p : Nat} (hm : (s.line ln).moving = some k) (hp : s.partOf? k = some p) :
    s.installForward ln = (s.setLine ln { s.line ln with
      home := if k = s.dirSlice p ln then none else some k, moving := none, cand := 0, count := 0 }).replayPart p := by
  unfold State.installForward
  extract_lets l
  rw [show l.moving = some k from hm]
  dsimp only
  rw [hp]

/-! ## Service messages of entries (06 R97; 08 R139) -/

section
variable {s : State} {c k : Nat} {e : Entry}

/-- An entry of an atomic. -/
def Atomic (k : Core) (e : Entry) : Prop := (∃ op n x, e.act = .amop op n x ∧ k.mayPerform e = true) ∨
  (∃ op n x y uid, e.act = .amo op n x y uid ∧ k.mayAmo e = true)

theorem Atomic.routeOf {k : Core} (h : Atomic k e) : routeOf e = .service := by
  rcases h with ⟨op, n, x, ha, -⟩ | ⟨op, n, x, y, uid, ha, -⟩ <;> rw [Machine.routeOf, ha]

theorem Atomic.mayArrive {k : Core} (h : Atomic k e) : k.mayArrive e = true := by
  rcases h with ⟨op, n, x, ha, hp⟩ | ⟨op, n, x, y, uid, ha, hp⟩ <;> rw [Core.mayArrive, ha]
  · exact hp
  · exact hp

/-- The event takes any atomic that is no release. -/
theorem serviceMessage_atomic (hk : (s.core c).flight[k]? = some ⟨e, .waiting⟩) (hc : c ≠ planeCore) (h : Atomic (s.core c) e)
    (ho : e.order ≠ .rel) (hm : s.mayNear c e = true) : s.serviceMessage c k = (s.nearNow c e).svcArrive c e false := by
  rw [State.serviceMessage, if_neg hc, flightArrive_arrives hk ?_ h.mayArrive hm, State.arrive, h.routeOf]
  rw [h.routeOf, decide_eq_true rfl, decide_eq_false ho]
  rcases h with ⟨op, n, x, ha, -⟩ | ⟨op, n, x, y, uid, ha, -⟩ <;> simp only [ha] <;> cases e.order <;> rfl

theorem serviceMessage_waits (hk : (s.core c).flight[k]? = some ⟨e, .waiting⟩) (hc : c ≠ planeCore) (hm : s.mayNear c e = false) :
    s.serviceMessage c k = s := by
  rw [State.serviceMessage, if_neg hc]
  exact flightArrive_waits hk fun h => absurd h.2.2.2 (ne_true_of_eq_false hm)

theorem svcArrive_spad {z : State} {d a : Nat} (hl : e.loc = .spad d a) : z.svcArrive c e false = z.takeSvc c e d := by
  rw [State.svcArrive, hl]
  rfl

theorem takeSvc_first {z : State} {d : Nat} (h : ∀ f ∈ (z.core c).flight, f.st = .refused → routeOf f.e = .service → z.ownerOf f.e.loc ≠ d) :
    z.takeSvc c e d = if (z.core d).svcq.length < 8 then (z.modCore d fun x => { x with svcq := x.svcq ++ [e.svc c] }).mark c e.id .sent
      else z.mark c e.id .refused := by
  unfold State.takeSvc State.enqueueSvc
  refine (if_neg fun hany => ?_).trans ?_
  · obtain ⟨f, hf, hall⟩ := List.any_eq_true.1 hany
    simp only [Bool.and_eq_true, beq_iff_eq, decide_eq_true_eq] at hall
    exact h f hf hall.1.1 hall.1.2 hall.2
  · by_cases hq : (z.core d).svcq.length < 8
    · rw [if_pos hq, if_pos hq]
    · rw [if_neg hq, if_neg hq]

/-- What a release goes before changes no way and no owner. -/
theorem nearNow_refused {d : Nat} (h : ∀ f ∈ (s.core c).flight, f.st = .refused → routeOf f.e = .service → s.ownerOf f.e.loc ≠ d) :
    ∀ f ∈ ((s.nearNow c e).core c).flight, f.st = .refused → routeOf f.e = .service → (s.nearNow c e).ownerOf f.e.loc ≠ d := by
  have howner (l : Loc) : (s.nearNow c e).ownerOf l = s.ownerOf l := by
    unfold State.nearNow
    split <;> rfl
  intro f hf hst hroute
  rw [nearNow_flight, if_pos rfl] at hf
  obtain ⟨g, hg, rfl⟩ := List.mem_map.1 hf
  rw [howner]
  by_cases hn : ((s.core c).nears e).any (fun x => x.id == g.e.id) = true
  · rw [if_pos hn] at hst hroute ⊢
    exact h g hg hst hroute
  · rw [if_neg hn] at hst hroute ⊢
    exact h g hg hst hroute

theorem nearNow_svcq (d : Nat) : ((s.nearNow c e).core d).svcq = (s.core d).svcq := by
  unfold State.nearNow
  split
  · rfl
  · rw [State.core_modCore]
    split
    · next h =>
      rw [h, Core.nearAll]
      split <;> rfl
    · rfl

end

/-- Settles O35: what a service slot takes (`takeSvc_first`), what it performs (`amoAnswers_spad`, `serveAt_hbm`), and the order of a replay (`replayPart_spec`). -/
theorem serviceSlots : Obligations.ServiceSlots := by
  refine ⟨?_, ?_, ?_, ?_, ?_, ?_, ?_, ?_, ?_, ?_, ?_, replayPart_spec, fun s r k f => replayOne_entry, fun s r k x => replayOne_item⟩
  · intro s c k e d hw hk hc hat hord ⟨a, hl⟩ hfirst
    have hat : Atomic (s.core c) e := hat
    have ho := occurs_event (j := .serviceMessageArrival c k) (f := fun s => s.serviceMessage c k) rfl hw
    refine ⟨fun hm => ?_, fun hm => ?_⟩
    · rwa [serviceMessage_atomic hk hc hat hord hm, svcArrive_spad hl, takeSvc_first (nearNow_refused hfirst), nearNow_svcq] at ho
    · rwa [serviceMessage_waits hk hc hm] at ho
  · intro s c r op n x y uid k a hw hh ht hr hd ha hl old s1
    refine serviceRun_occurs (f := fun s => s.atomicServe c) rfl hw hh ht hr
      ((atomicServe_amo hr hd ha).trans ((serveAt_spad hl).trans (amoAnswers_spad r op n x y uid k a))) ?_
    exact (serving_land _ _ _ c).trans ((serving_returnResult _ _ _ _ _ c).trans (serving_served _ c))
  · intro s s2 c r op n x y uid p ph gva gpa bs hw hh ht hr hd ha hl ho hb hc
    have hspan : r.span = n := by rw [SvcReq.span, Entry.span, ha]
    have hserve := (atomicServe_amo hr hd ha).trans (serveAt_hbm hl ho (by rw [hspan, hb]) hc)
    refine ⟨fun hf => ?_, fun hf hread => ?_⟩
    · refine serviceRun_occurs (f := fun s => s.atomicServe c) rfl hw hh ht hr (hserve.trans (amoAnswers_bad r op n x y uid hf)) ?_
      exact (serving_land _ _ _ c).trans ((serving_returnResult _ _ _ _ _ c).trans (serving_served _ c))
    · refine serviceRun_occurs (f := fun s => s.atomicServe c) rfl hw hh ht hr (hserve.trans (amoAnswers_hbm r op n x y uid hd hf hread)) ?_
      exact (serving_land _ _ _ c).trans ((serving_returnResult _ _ _ _ _ c).trans (serving_served _ c))
  · intro s c r op n x k a hw hh ht hr hd ha hl old s1
    refine serviceRun_occurs (f := fun s => s.atomicServe c) rfl hw hh ht hr
      ((atomicServe_amop hr hd ha).trans ((serveAt_spad hl).trans (amopEnds_spad r op n x k a))) ?_
    exact (serving_land _ _ _ c).trans (serving_served _ c)
  · intro s c r bs hw hh ht hr hd ha
    refine ⟨fun k a hl => ?_, fun k a hl => ?_⟩
    · refine serviceRun_occurs (f := fun s => s.subByteServe c) rfl hw hh ht hr (subByteServe_spad hr hd ha hl) ?_
      exact (serving_land _ _ _ c).trans (serving_served _ c)
    · refine serviceRun_occurs (f := fun s => s.imemServe c) rfl hw hh ht hr (imemServe_imem hr ha hl) ?_
      exact (serving_land _ _ _ c).trans (serving_served _ c)
  · intro s c hw h
    have hoff (j : Instr) (f : State → State) (he : exec j s = event (fun s => s.serviceRun c f) s) : Occurs j s s := by
      have ho := occurs_event he hw
      rwa [serviceRun_off h] at ho
    exact ⟨hoff _ (fun s => s.atomicServe c) rfl, hoff _ (fun s => s.subByteServe c) rfl, hoff _ (fun s => s.imemServe c) rfl⟩
  · intro s c hw h
    have hsame (j : Instr) (f : State → State) (he : exec j s = event (fun s => s.serviceRun c f) s) (hf : f s = s) : Occurs j s s := by
      have ho := occurs_event he hw
      rwa [serviceRun_same hf] at ho
    exact ⟨hsame _ (fun s => s.atomicServe c) rfl (by rw [State.atomicServe, h]), hsame _ (fun s => s.subByteServe c) rfl (by rw [State.subByteServe, h]),
      hsame _ (fun s => s.imemServe c) rfl (by rw [State.imemServe, h])⟩
  · intro s ln k p hw hm hp
    have ho := occurs_event (j := .forwardingEntryInstall ln) (f := fun s => s.installForward ln) rfl hw
    rwa [installForward_moves hm hp] at ho
  · intro s ln hw h
    have ho := occurs_event (j := .scrub ln) (f := fun s => s.scrubLine ln) rfl hw
    rwa [State.scrubLine, if_neg (ne_true_of_eq_false h)] at ho
  · intro s ln hw h
    have ho := occurs_event (j := .scrub ln) (f := fun s => s.scrubLine ln) rfl hw
    rwa [State.scrubLine, if_pos h] at ho
  · intro s c k e d a bs hw hk ha hn hl
    have ho := occurs_event (j := .parkRetry c k) (f := fun s => s.parkRetry c k) rfl hw
    rw [State.parkRetry, hk] at ho
    dsimp only at ho
    rwa [if_pos rfl, arrive_store ha hn (by rw [hl]; nofun), storeArrive_spad hl] at ho

end Machine
end Sys2Proof
end

section
/-! PROOF. The matrix unit and the reports of the engines (11_matrix_unit.md R193 to R211; 12_copy_engine.md R221, R222): O36. -/

namespace Sys2Proof
namespace Machine

open Safety

/-! ## Accumulators (R193) -/

theorem accKey_inj {a b i j x y : Nat} (hi : i < 32) (hj : j < 32) (hx : x < 32) (hy : y < 32) (h : accKey a i j = accKey b x y) :
    a = b ∧ i = x ∧ j = y := by
  unfold accKey at h
  omega

theorem mem_tilePlaces {i j : Nat} : (i, j) ∈ tilePlaces ↔ i < 32 ∧ j < 32 := by
  simp only [tilePlaces, List.mem_flatMap, List.mem_map, mem_upto, Prod.mk.injEq]
  exact ⟨fun ⟨x, hx, y, hy, h1, h2⟩ => ⟨h1 ▸ hx, h2 ▸ hy⟩, fun ⟨hi, hj⟩ => ⟨i, hi, j, hj, rfl, rfl⟩⟩

/-- An element of an accumulator that is computed anew, or of another, is as it says or as it was. -/
theorem accAt_setAcc (k : Core) (a : Nat) (f : Nat → Nat → W32) {b i j : Nat} (hi : i < 32) (hj : j < 32) :
    (k.setAcc a f).accAt b i j = if b = a then f i j else k.accAt b i j := by
  have key (l : List (Nat × Nat)) (hl : ∀ e ∈ l, e.1 < 32 ∧ e.2 < 32) (m : Tbl W32) :
      Tbl.find 0 (l.foldl (fun m e => Tbl.put 0 m (accKey a e.1 e.2) (f e.1 e.2)) m) (accKey b i j) =
        if b = a ∧ (i, j) ∈ l then f i j else Tbl.find 0 m (accKey b i j) := by
    induction l generalizing m with
    | nil => exact (if_neg fun h => nomatch h.2).symm
    | cons e l ih =>
      obtain ⟨x, y⟩ := e
      obtain ⟨hx, hy⟩ := hl _ List.mem_cons_self
      rw [List.foldl_cons, ih fun e he => hl e (List.mem_cons_of_mem _ he), Tbl.find_put]
      by_cases hin : b = a ∧ (i, j) ∈ l
      · rw [if_pos hin, if_pos ⟨hin.1, List.mem_cons_of_mem _ hin.2⟩]
      · rw [if_neg hin]
        by_cases hk : accKey b i j = accKey a x y
        · obtain ⟨rfl, rfl, rfl⟩ := accKey_inj hi hj hx hy hk
          rw [if_pos rfl, if_pos ⟨rfl, List.mem_cons_self⟩]
        · rw [if_neg hk, if_neg]
          rintro ⟨rfl, hm⟩
          rcases List.mem_cons.1 hm with h | h
          · cases h
            exact hk rfl
          · exact hin ⟨rfl, h⟩
  have h := key tilePlaces (fun ⟨x, y⟩ he => mem_tilePlaces.1 he) k.acc
  have hin : (i, j) ∈ tilePlaces := mem_tilePlaces.2 ⟨hi, hj⟩
  simp only [hin, and_true] at h
  simp only [Core.accAt, Core.setAcc]
  exact h

/-- The accumulators of a mask are cleared, the others stay. -/
theorem accAt_clear (mask : Nat) (k : Core) {a i j : Nat} (ha : a < 4) (hi : i < 32) (hj : j < 32) :
    ((upto 4).foldl (fun k a => if mask / 2 ^ a % 2 = 1 then k.setAcc a fun _ _ => 0 else k) k).accAt a i j =
      if mask / 2 ^ a % 2 = 1 then 0 else k.accAt a i j := by
  have key (l : List Nat) (k : Core) : (l.foldl (fun k a => if mask / 2 ^ a % 2 = 1 then k.setAcc a fun _ _ => 0 else k) k).accAt a i j =
      if a ∈ l ∧ mask / 2 ^ a % 2 = 1 then 0 else k.accAt a i j := by
    induction l generalizing k with
    | nil => exact (if_neg fun h => nomatch h.1).symm
    | cons x l ih =>
      rw [List.foldl_cons, ih]
      by_cases hin : a ∈ l ∧ mask / 2 ^ a % 2 = 1
      · rw [if_pos hin, if_pos ⟨List.mem_cons_of_mem _ hin.1, hin.2⟩]
      · rw [if_neg hin]
        by_cases hx : mask / 2 ^ x % 2 = 1
        · rw [if_pos hx, accAt_setAcc _ _ _ hi hj]
          by_cases hax : a = x
          · subst hax
            rw [if_pos rfl, if_pos ⟨List.mem_cons_self, hx⟩]
          · rw [if_neg hax, if_neg fun h => hin ⟨(List.mem_cons.1 h.1).resolve_left hax, h.2⟩]
        · rw [if_neg hx, if_neg]
          rintro ⟨hm, hb⟩
          rcases List.mem_cons.1 hm with rfl | hm
          · exact hx hb
          · exact hin ⟨hm, hb⟩
  exact (key (upto 4) k).trans (if_congr (and_iff_right (mem_upto.2 ha)) rfl rfl)

/-! ## Commands on scratchpad operands (R200, R204, R205, R207) -/

section
variable {v : Via} {o : Opnd}

theorem readElem_spad (f : Lines) (ho : o.src = 0) (r e : Nat) : ∃ x, readElem v f o r e = .ok (f, x) := by
  unfold readElem Opnd.spot
  rw [if_pos ho]
  exact ⟨_, rfl⟩

theorem readRow_spad (fmt : Fmt) (f : Lines) (ho : o.src = 0) (r : Nat) (es : List Nat) : ∃ l, readRow v o fmt r es f = .ok (f, l) := by
  induction es with
  | nil => exact ⟨[], rfl⟩
  | cons e es ih =>
    obtain ⟨x, hx⟩ := readElem_spad (v := v) f ho r e
    obtain ⟨l, hl⟩ := ih
    unfold readRow
    simp only [hx, hl, Bind.bind, Except.bind]
    exact ⟨_, rfl⟩

theorem readRows_spad (fmt : Fmt) (f : Lines) (ho : o.src = 0) (es rs : List Nat) : ∃ l, readRows v o fmt es rs f = .ok (f, l) := by
  induction rs with
  | nil => exact ⟨[], rfl⟩
  | cons r rs ih =>
    obtain ⟨x, hx⟩ := readRow_spad (v := v) fmt f ho r es
    obtain ⟨l, hl⟩ := ih
    unfold readRows
    simp only [hx, hl, Bind.bind, Except.bind]
    exact ⟨_, rfl⟩

theorem readScales_none (f : Lines) (base : W64) (is : List Nat) : ∃ l, readScales v 2 base is f = .ok (f, l) := by
  induction is with
  | nil => exact ⟨[], rfl⟩
  | cons i is ih =>
    obtain ⟨l, hl⟩ := ih
    unfold readScales
    simp only [if_true, hl, Bind.bind, Except.bind]
    exact ⟨_, rfl⟩

end

/-- The queue of a core's matrix unit, and the writes to memory that wait, are as they were. -/
def MxqKept (c : Nat) (s t : State) : Prop := (t.core c).mxq = (s.core c).mxq ∧ t.wr = s.wr

theorem MxqKept.refl (c : Nat) (s : State) : MxqKept c s s := ⟨rfl, rfl⟩

theorem MxqKept.modCore (s : State) (c : Nat) {f : Core → Core} (h : (f (s.core c)).mxq = (s.core c).mxq) : MxqKept c s (s.modCore c f) := by
  refine ⟨?_, rfl⟩
  rw [State.core_modCore_self, h]

theorem MxqKept.trans {c : Nat} {s t u : State} (h : MxqKept c s t) (g : MxqKept c t u) : MxqKept c s u :=
  ⟨g.1.trans h.1, g.2.trans h.2⟩

theorem setAcc_mxq (k : Core) (a : Nat) (f : Nat → Nat → W32) : (k.setAcc a f).mxq = k.mxq := by
  simp only [Core.setAcc]

theorem addBlock_mxq (k : Core) (acc : Nat) (a b : List (List Val)) (sa sb : List Val) : (addBlock k acc a b sa sb).mxq = k.mxq :=
  setAcc_mxq k acc _

theorem zeroFirst_mxqKept (s : State) (c : Nat) (cmd : Vec) : MxqKept c s (s.zeroFirst c cmd) := by
  unfold State.zeroFirst
  split
  · exact .modCore s c (setAcc_mxq _ _ _)
  · exact .refl c s

theorem skipDecision_mxqKept (s : State) (c : Nat) : MxqKept c s (s.skipDecision c).2 := by
  unfold State.skipDecision
  extract_lets k size
  generalize nextDecision k size (size + 2) (skAddr k.skip) (skPart k.skip) (skDone k.skip) = d
  refine ⟨?_, rfl⟩
  show ((s.setCore c _).core c).mxq = _
  rw [State.core_setCore_self]

section
variable {v : Via} {e : MxEntry}

/-- What a block adds: each element of the accumulator, by the sum of its row and column. -/
theorem doBlock_adds {pa pb : Nat} {f f1 f2 f3 f4 : Lines} {a b : List (List Val)} {sa sb : List Val}
    (h1 : readRows v (opndOf e.cmd 0 e.mapX ((fmFmt? e.recA).getD f32).bits) ((fmFmt? e.recA).getD f32)
      ((upto (fmBlockLen e.recA)).map (fmBlockLen e.recA * pa + ·)) (upto 32) { f with held := [] } = .ok (f1, a))
    (h2 : readRows v (opndOf e.cmd 1 e.mapY ((fmFmt? e.recB).getD f32).bits) ((fmFmt? e.recB).getD f32)
      ((upto (fmBlockLen e.recA)).map (fmBlockLen e.recA * pb + ·)) (upto 32) f1 = .ok (f2, b))
    (h3 : readScales v (fmScale e.recA) (e.scla + BitVec.ofNat 64 (32 * (Cmd.soffa e.cmd + pa))) (upto 32) f2 = .ok (f3, sa))
    (h4 : readScales v (fmScale e.recB) (e.sclb + BitVec.ofNat 64 (32 * (Cmd.soffb e.cmd + pb))) (upto 32) f3 = .ok (f4, sb)) :
    doBlock v e pa pb f = .ok { f4 with s := f4.s.modCore v.c fun k => addBlock k (Cmd.acc e.cmd) a b sa sb } := by
  unfold doBlock
  simp only [h1, h2, w64, h3, h4, Bind.bind, Except.bind]

variable (hx : field (Cmd.ctl e.cmd 0) 1 0 = 0) (hy : field (Cmd.ctl e.cmd 1) 1 0 = 0) (ha : fmScale e.recA = 2) (hb : fmScale e.recB = 2)
include hx hy ha hb

/-- A block whose operands are in the scratchpad, and which has no scales, is added. -/
theorem doBlock_spad (pa pb : Nat) (f : Lines) : ∃ g, doBlock v e pa pb f = .ok g ∧ MxqKept v.c f.s g.s := by
  obtain ⟨a, h1⟩ := readRows_spad (v := v) (o := opndOf e.cmd 0 e.mapX ((fmFmt? e.recA).getD f32).bits) ((fmFmt? e.recA).getD f32)
    { f with held := [] } hx ((upto (fmBlockLen e.recA)).map (fmBlockLen e.recA * pa + ·)) (upto 32)
  obtain ⟨b, h2⟩ := readRows_spad (v := v) (o := opndOf e.cmd 1 e.mapY ((fmFmt? e.recB).getD f32).bits) ((fmFmt? e.recB).getD f32)
    { f with held := [] } hy ((upto (fmBlockLen e.recA)).map (fmBlockLen e.recA * pb + ·)) (upto 32)
  obtain ⟨sa, h3⟩ := readScales_none (v := v) { f with held := [] } (e.scla + BitVec.ofNat 64 (32 * (Cmd.soffa e.cmd + pa))) (upto 32)
  obtain ⟨sb, h4⟩ := readScales_none (v := v) { f with held := [] } (e.sclb + BitVec.ofNat 64 (32 * (Cmd.soffb e.cmd + pb))) (upto 32)
  refine ⟨_, doBlock_adds (f4 := { f with held := [] }) h1 h2 (by rw [ha]; exact h3) (by rw [hb]; exact h4), .modCore f.s v.c (addBlock_mxq _ _ _ _ _ _)⟩

theorem mmaBlocks_spad (n b : Nat) (f : Lines) : ∃ t, mmaBlocks v e n b f = .done t 0 0 (b + n) ∧ MxqKept v.c f.s t := by
  induction n generalizing b f with
  | zero => exact ⟨f.s, rfl, .refl v.c f.s⟩
  | succ n ih =>
    obtain ⟨g, hg, hk⟩ := doBlock_spad (v := v) hx hy ha hb b b f
    obtain ⟨t, ht, hk'⟩ := ih (b + 1) g
    refine ⟨t, ?_, hk.trans hk'⟩
    rw [mmaBlocks, hg]
    exact ht.trans (by rw [Nat.add_right_comm, Nat.add_assoc])

theorem mmasBlocks_spad (n b p : Nat) (f : Lines) : ∃ t status m, mmasBlocks v e n b p f = .done t status 0 m ∧ MxqKept v.c f.s t ∧
    ((status = 0 ∧ m = b + n) ∨ (status = 4 ∧ m < b + n)) := by
  induction n generalizing b p f with
  | zero => exact ⟨f.s, 0, b, rfl, .refl v.c f.s, .inl ⟨rfl, rfl⟩⟩
  | succ n ih =>
    have hskip := skipDecision_mxqKept f.s v.c
    unfold mmasBlocks
    generalize f.s.skipDecision v.c = d at hskip ⊢
    obtain ⟨_ | _ | _, s⟩ := d
    · exact ⟨s, 4, b, rfl, hskip, .inr ⟨rfl, by omega⟩⟩
    · obtain ⟨t, status, m, ht, hk, hm⟩ := ih (b + 1) p { f with s := s }
      exact ⟨t, status, m, ht, hskip.trans hk, by omega⟩
    · obtain ⟨g, hg, hk⟩ := doBlock_spad (v := v) hx hy ha hb p b { f with s := s }
      obtain ⟨t, status, m, ht, hk', hm⟩ := ih (b + 1) (p + 1) g
      refine ⟨t, status, m, ?_, (hskip.trans hk).trans hk', by omega⟩
      simp only [hg, ht]

theorem runMma_spad (s : State) : ∃ t, runMma v e s = .done t 0 0 (Cmd.kb e.cmd + 1) ∧ MxqKept v.c s t := by
  obtain ⟨t, ht, hk⟩ := mmaBlocks_spad (v := v) hx hy ha hb (Cmd.kb e.cmd + 1) 0 ⟨s.zeroFirst v.c e.cmd, e.got, []⟩
  rw [Nat.zero_add] at ht
  exact ⟨t, ht, (zeroFirst_mxqKept s v.c e.cmd).trans hk⟩

theorem runMmas_spad (s : State) : ∃ t status n, runMmas v e s = .done t status 0 n ∧ MxqKept v.c s t ∧
    ((status = 0 ∧ n = Cmd.kb e.cmd + 1) ∨ (status = 4 ∧ n ≤ Cmd.kb e.cmd)) := by
  obtain ⟨t, status, n, ht, hk, hn⟩ := mmasBlocks_spad (v := v) hx hy ha hb (Cmd.kb e.cmd + 1) 0 0 ⟨s.zeroFirst v.c e.cmd, e.got, []⟩
  exact ⟨t, status, n, ht, (zeroFirst_mxqKept s v.c e.cmd).trans hk, by omega⟩

end

/-! ## ACCZ, ACCL, ACCS, ACCM (R207, R208) -/

theorem accAt_addBlock (k : Core) (acc : Nat) (a b : List (List Val)) (sa sb : List Val) {i j : Nat} (hi : i < 32) (hj : j < 32) :
    (addBlock k acc a b sa sb).accAt acc i j =
      f32add (k.accAt acc i j) (blockSum (a.getD i []) (b.getD j []) (sa.getD i .nan) (sb.getD j .nan)) := by
  rw [addBlock, accAt_setAcc _ _ _ hi hj, if_pos rfl]

theorem foldl_setAcc_mxq (mask : Nat) (l : List Nat) (k : Core) :
    (l.foldl (fun k a => if mask / 2 ^ a % 2 = 1 then k.setAcc a fun _ _ => 0 else k) k).mxq = k.mxq := by
  induction l generalizing k with
  | nil => rfl
  | cons a l ih =>
    rw [List.foldl_cons, ih]
    split
    · exact setAcc_mxq k a _
    · rfl

theorem runAccz_done (v : Via) (e : MxEntry) (s : State) : ∃ t, runAccz v e s = .done t 0 0 0 ∧ MxqKept v.c s t ∧
    ∀ a i j, a < 4 → i < 32 → j < 32 →
      (t.core v.c).accAt a i j = if Cmd.zmask e.cmd / 2 ^ a % 2 = 1 then 0 else (s.core v.c).accAt a i j := by
  refine ⟨_, rfl, .modCore s v.c (foldl_setAcc_mxq _ _ _), fun a i j ha hi hj => ?_⟩
  rw [State.core_modCore_self]
  exact accAt_clear _ _ ha hi hj

theorem runAccm_done (f : Core → Nat → Nat → Nat → Nat → W32) (v : Via) (e : MxEntry) (s : State) :
    ∃ t, runAccm f v e s = .done t 0 0 0 ∧ MxqKept v.c s t ∧ ∀ a i j, a < 4 → i < 32 → j < 32 →
      (t.core v.c).accAt a i j = if a = Cmd.acc e.cmd then f (s.core v.c) a (Cmd.acc2 e.cmd) i j else (s.core v.c).accAt a i j := by
  refine ⟨_, rfl, .modCore s v.c (setAcc_mxq _ _ _), fun a i j _ hi hj => ?_⟩
  rw [State.core_modCore_self, accAt_setAcc _ _ _ hi hj]
  refine if_ctx_congr Iff.rfl (fun h => ?_) fun _ => rfl
  rw [h]

theorem runAccl_done {v : Via} {e : MxEntry} {s : State} {f : Lines} {rows : List (List Val)}
    (h : readRows v (opndOf e.cmd 0 e.mapX (cFmt e).bits) (cFmt e) (upto 32) (upto 32) ⟨s, e.got, []⟩ = .ok (f, rows)) :
    ∃ t, runAccl v e s = .done t 0 0 0 ∧ MxqKept v.c f.s t ∧ ∀ i j, i < 32 → j < 32 →
      (t.core v.c).accAt (Cmd.acc e.cmd) i j = enc32 0 0 ((rows.getD i []).getD j .nan) := by
  refine ⟨f.s.modCore v.c fun k => k.setAcc (Cmd.acc e.cmd) fun i j => enc32 0 0 ((rows.getD i []).getD j .nan), ?_,
    .modCore f.s v.c (setAcc_mxq _ _ _), fun i j hi hj => ?_⟩
  · simp only [runAccl, h]
  · rw [State.core_modCore_self, accAt_setAcc _ _ _ hi hj, if_pos rfl]

/-- What writes to the scratchpad of a core leave: its accumulators and queue, memory, and the writes to memory that wait. -/
structure SpadStep (c : Nat) (s t : State) : Prop where
  acc : (t.core c).acc = (s.core c).acc
  mxq : (t.core c).mxq = (s.core c).mxq
  mem : t.mem = s.mem
  wr : t.wr = s.wr

theorem foldl_spadMerge_spadStep (c : Nat) (l : List AccWrite) (s : State) :
    SpadStep c s (l.foldl (fun s w => match w.1 with
      | .spad off => s.modCore c fun k => k.spadMerge off [w.2]
      | .mem _ => s) s) := by
  induction l generalizing s with
  | nil => exact ⟨rfl, rfl, rfl, rfl⟩
  | cons w l ih =>
    rw [List.foldl_cons]
    obtain ⟨_ | _, b⟩ := w
    case spad off =>
      obtain ⟨ha, hq, hm, hw⟩ := ih (s.modCore c fun k => k.spadMerge off [b])
      rw [State.core_modCore_self] at ha hq
      exact ⟨ha, hq, hm, hw⟩
    case mem ea => exact ih s

/-- Writes that all go to the scratchpad, within its size, are made. -/
theorem accWriteAll_spad {s : State} {v : Via} {l : List AccWrite} (h : ∀ w ∈ l, ∃ off, w.1 = .spad off ∧ off < s.spadSize v.c) :
    ∃ t, s.accWriteAll v l = .ok t ∧ SpadStep v.c s t := by
  refine ⟨_, ?_, foldl_spadMerge_spadStep v.c l s⟩
  unfold State.accWriteAll
  rw [List.find?_eq_none.2 ?beyond, List.filterMap_eq_nil_iff.2 ?memory]
  case beyond =>
    intro w hw
    obtain ⟨off, ho, hlt⟩ := h w hw
    simp only [ho, decide_eq_true_eq]
    omega
  case memory =>
    intro w hw
    obtain ⟨off, ho, -⟩ := h w hw
    simp only [ho]
  rfl

theorem runAccs_spad {v : Via} {e : MxEntry} {s : State} (h : ∀ w ∈ accsWrites (s.core v.c) e, ∃ off, w.1 = .spad off ∧ off < s.spadSize v.c) :
    ∃ t, runAccs v e s = .done t 0 0 0 ∧ SpadStep v.c s t := by
  obtain ⟨t, ht, hk⟩ := accWriteAll_spad h
  refine ⟨t, ?_, hk⟩
  simp only [runAccs, ht]

/-! ## The head of the queue executes (R195, R211) -/

theorem mxNext?_head {s : State} {c : Nat} {e : MxEntry} (h : s.mxNext? c = some e) :
    (s.core c).mxq.head? = some e ∧ e.released = true ∧ e.finished = false ∧ e.parked = false ∧
    e.start ≤ s.time ∧ ∀ f ∈ (s.core c).flight, f.e.task = e.task → f.e.id < e.after → f.e.writes = false ∧ f.e.fenceSs = false := by
  unfold State.mxNext? at h
  cases hq : (s.core c).mxq.head? with
  | none => simp only [hq, reduceCtorEq] at h
  | some x =>
    simp only [hq, Option.ite_none_right_eq_some, Option.some.injEq, Bool.and_eq_true, Bool.not_eq_true', Bool.or_eq_true,
      decide_eq_true_eq, List.any_eq_false, not_and, beq_iff_eq] at h
    obtain ⟨⟨⟨⟨⟨⟨⟨hr, hf⟩, hp⟩, -⟩, -⟩, hw⟩, ht⟩, rfl⟩ := h
    refine ⟨rfl, hr, hf, hp, ht, fun f hm ht' hid => ?_⟩
    have hor : ¬((f.e.writes = true) ∨ (f.e.fenceSs = true)) := fun h => hw f hm ⟨ht', h⟩ hid
    simpa only [not_or, Bool.not_eq_true] using hor

theorem mxNext?_none {s : State} {c : Nat}
    (h : (s.core c).mxHeld ≠ none ∨ ((s.core c).halted = true ∧ ∀ e ∈ (s.core c).mxq.head?, e.begun = false)) : s.mxNext? c = none := by
  unfold State.mxNext?
  cases hq : (s.core c).mxq.head? with
  | none => simp only [hq]
  | some x =>
    simp only [hq]
    refine if_neg fun hc => ?_
    simp only [Bool.and_eq_true, Bool.or_eq_true, Bool.not_eq_true', Option.isNone_iff_eq_none] at hc
    obtain ⟨⟨⟨⟨-, hrun⟩, hheld⟩, -⟩, -⟩ := hc
    rcases h with hne | ⟨hh, hb⟩
    · exact hne hheld
    · rw [hh, hb x hq] at hrun
      simp at hrun

theorem head_modMxHead {s : State} {c : Nat} {f : MxEntry → MxEntry} {e : MxEntry} (h : (s.core c).mxq.head? = some e) :
    ((s.modMxHead c f).core c).mxq.head? = some (f e) := by
  rw [State.modMxHead, State.core_modCore_self]
  generalize s.core c = k at h
  obtain ⟨r, hq⟩ := List.head?_eq_some_iff.1 h
  simp only [hq, List.head?_cons]

/-- A command that is done: the head of the queue finished, without its pins. -/
def State.mxDone (t : State) (c uid status : Nat) (bad : W64) (blocks : Nat) : State :=
  (t.modMxHead c fun x => { x with finished := true, status := status, bad := bad, blocks := blocks, refused := none, got := [] }).modCore c
    fun k => { k with pins := k.pins.filter fun q => q.uid != uid }

theorem mxPins_none (s : State) (c uid : Nat) : s.mxPins c uid { loc := .spad c 0 } =
    s.modCore c fun k => { k with pins := k.pins.filter fun q => q.uid != uid } := by
  simp only [State.mxPins, ite_self, List.append_nil]

/-- An event executes the commands that a test takes, by a rule. -/
def Executes (ev : Instr) (c : Nat) (e : MxEntry) (run : Via → MxEntry → State → MxEnd) : Prop :=
  ∃ sel : Vec → Bool, sel e.cmd = true ∧ ∀ s, exec ev s = event (fun s => s.runMatrix c sel run) s

theorem executes_of_kind {ev : Instr} {c : Nat} {e : MxEntry} {run : Via → MxEntry → State → MxEnd}
    (h : (ev = .mma c ∧ Cmd.kind e.cmd = 0 ∧ run = runMma) ∨ (ev = .mmas c ∧ Cmd.kind e.cmd = 1 ∧ run = runMmas) ∨
      (ev = .accz c ∧ Cmd.kind e.cmd = 2 ∧ run = runAccz) ∨ (ev = .accl c ∧ Cmd.kind e.cmd = 3 ∧ run = runAccl) ∨
      (ev = .accs c ∧ Cmd.kind e.cmd = 4 ∧ run = runAccs) ∨
      (ev = .accmCopy c ∧ Cmd.kind e.cmd = 5 ∧ Cmd.opt e.cmd = 0 ∧ run = runAccm fun k _ b i j => k.accAt b i j) ∨
      (ev = .accmAdd c ∧ Cmd.kind e.cmd = 5 ∧ Cmd.opt e.cmd = 1 ∧ run = runAccm fun k a b i j => f32add (k.accAt a i j) (k.accAt b i j)) ∨
      (ev = .accmTranspose c ∧ Cmd.kind e.cmd = 5 ∧ Cmd.opt e.cmd = 2 ∧ run = runAccm fun k _ b i j => k.accAt b j i)) :
    Executes ev c e run := by
  rcases h with ⟨rfl, hk, rfl⟩ | ⟨rfl, hk, rfl⟩ | ⟨rfl, hk, rfl⟩ | ⟨rfl, hk, rfl⟩ | ⟨rfl, hk, rfl⟩ | ⟨rfl, hk, ho, rfl⟩ |
    ⟨rfl, hk, ho, rfl⟩ | ⟨rfl, hk, ho, rfl⟩
  · exact ⟨fun c => Cmd.kind c == 0, beq_iff_eq.2 hk, fun _ => rfl⟩
  · exact ⟨fun c => Cmd.kind c == 1, beq_iff_eq.2 hk, fun _ => rfl⟩
  · exact ⟨fun c => Cmd.kind c == 2, beq_iff_eq.2 hk, fun _ => rfl⟩
  · exact ⟨fun c => Cmd.kind c == 3, beq_iff_eq.2 hk, fun _ => rfl⟩
  · exact ⟨fun c => Cmd.kind c == 4, beq_iff_eq.2 hk, fun _ => rfl⟩
  · exact ⟨fun c => Cmd.kind c == 5 && Cmd.opt c == 0, Bool.and_eq_true_iff.2 ⟨beq_iff_eq.2 hk, beq_iff_eq.2 ho⟩, fun _ => rfl⟩
  · exact ⟨fun c => Cmd.kind c == 5 && Cmd.opt c == 1, Bool.and_eq_true_iff.2 ⟨beq_iff_eq.2 hk, beq_iff_eq.2 ho⟩, fun _ => rfl⟩
  · exact ⟨fun c => Cmd.kind c == 5 && Cmd.opt c == 2, Bool.and_eq_true_iff.2 ⟨beq_iff_eq.2 hk, beq_iff_eq.2 ho⟩, fun _ => rfl⟩

section
variable {s : State} {c p : Nat} {e : MxEntry} {sel : Vec → Bool} {run : Via → MxEntry → State → MxEnd}
  (hn : s.mxNext? c = some e) (hp : s.corePart? c = some p) (hz : e.zeroing = false) (hsel : sel e.cmd = true)
include hn hp hz hsel

theorem runMatrix_done {t : State} {status blocks : Nat} {bad : W64} (h : run ⟨c, p, e.uid, e.fillFailed⟩ e s = .done t status bad blocks) :
    s.runMatrix c sel run = t.mxDone c e.uid status bad blocks := by
  simp only [State.runMatrix, hn, hp, hz, hsel, h, mxPins_none]
  rfl

theorem runMatrix_shut (h : run ⟨c, p, e.uid, e.fillFailed⟩ e s = .shut) : s.runMatrix c sel run = s := by
  simp only [State.runMatrix, hn, hp, hz, hsel, h]
  rfl

theorem runMatrix_parked {w : EngWait} (h : run ⟨c, p, e.uid, e.fillFailed⟩ e s = .parked w) (hk : Cmd.kind e.cmd ≠ 4) :
    s.runMatrix c sel run = s.parkEngine c .matrix e.uid 128 w fun s b r => (s.modMxHead c fun e => { e with
      parked := b, refused := r, begun := true, got := w.got }).mxPins c e.uid w := by
  simp only [State.runMatrix, hn, hp, hz, hsel, h, State.mxCow, if_neg hk]
  rfl

end

/-- What a command that a rule finishes leaves at the head of the queue. -/
theorem executes_finished {s : State} {c p : Nat} {e : MxEntry} {ev : Instr} {run : Via → MxEntry → State → MxEnd} {t : State}
    {status blocks : Nat} {bad : W64} (he : Executes ev c e run) (hw : s.wr = []) (hn : s.mxNext? c = some e) (hp : s.corePart? c = some p)
    (hz : e.zeroing = false) (hr : run ⟨c, p, e.uid, e.fillFailed⟩ e s = .done t status bad blocks) (hk : MxqKept c s t) :
    Answers (exec ev s) fun t => ∃ x, (t.core c).mxq.head? = some x ∧ x.uid = e.uid ∧ x.finished = true ∧ x.status = status ∧ x.bad = bad ∧
      x.blocks = blocks := by
  obtain ⟨sel, hsel, hev⟩ := he
  have hrun := runMatrix_done hn hp hz hsel hr
  refine answers_event (hev s) hw ?_ ⟨{ e with finished := true, status := status, bad := bad, blocks := blocks, refused := none, got := [] },
    ?_, rfl, rfl, rfl, rfl, rfl⟩
  · rw [hrun]
    exact hk.2.trans hw
  · have hhead : (t.core c).mxq.head? = some e := by
      rw [hk.1]
      exact (mxNext?_head hn).1
    show ((s.runMatrix c sel run).core c).mxq.head? = _
    rw [hrun, State.mxDone, State.core_modCore_self]
    exact head_modMxHead hhead

/-- A command that waits at its home: what its entry then says, parked or refused by a home, with its pins. -/
def State.mxWaits (c uid : Nat) (w : EngWait) (s : State) (b : Bool) (r : Option Nat) : State :=
  (s.modMxHead c fun x => { x with parked := b, refused := r, begun := true, got := w.got }).mxPins c uid w

/-- A request of an engine whose translation is there parks at its line's home, or is refused there, behind those of its core. -/
theorem parkEngine_hbm {s : State} {c uid n q ph gva gpa : Nat} {who : Asker} {w : EngWait} {mark : State → Bool → Option Nat → State}
    (hl : w.loc = .hbm q ph gva gpa) :
    let off := s.heldOff q ph gpa n
    let h := s.homeOf q ((ph + off) / 128)
    let u := mark s false none
    s.parkEngine c who uid n w mark = if u.refusedAt c h then s
      else if u.parkRoom h then mark (u.parkAt { who := who, src := c, req := uid, loc := w.loc, off := off }) true none
      else mark u false (some h) := by
  intro off h u
  unfold State.parkEngine State.homeFor
  simp only [hl, Loc.add, State.parkHome] <;> rfl

/-- The command at the head executes by the rule of its kind: it finishes, stays as it is, or waits at a home (R195, R204 to R211). -/
theorem matrix_executes {s : State} {c p : Nat} {e : MxEntry} {ev : Instr} {run : Via → MxEntry → State → MxEnd} (he : Executes ev c e run)
    (hw : s.wr = []) (hn : s.mxNext? c = some e) (hp : s.corePart? c = some p) (hz : e.zeroing = false) :
    (∀ t status bad blocks, run ⟨c, p, e.uid, e.fillFailed⟩ e s = .done t status bad blocks → Occurs ev s (t.mxDone c e.uid status bad blocks)) ∧
    (run ⟨c, p, e.uid, e.fillFailed⟩ e s = .shut → Occurs ev s s) ∧
    (∀ w q ph gva gpa, run ⟨c, p, e.uid, e.fillFailed⟩ e s = .parked w → w.loc = .hbm q ph gva gpa → Cmd.kind e.cmd ≠ 4 →
      let u := s.mxWaits c e.uid w false none
      let off := s.heldOff q ph gpa 128
      let h := s.homeOf q ((ph + off) / 128)
      (u.refusedAt c h = true → Occurs ev s s) ∧
      (u.refusedAt c h = false → (u.cluster h).park.length < 64 → Occurs ev s
        (State.mxWaits c e.uid w (u.parkAt { who := .matrix, src := c, req := e.uid, loc := w.loc, off := off }) true none)) ∧
      (u.refusedAt c h = false → 64 ≤ (u.cluster h).park.length → Occurs ev s (State.mxWaits c e.uid w u false (some h)))) := by
  obtain ⟨sel, hsel, hev⟩ := he
  have hocc {t : State} (h : s.runMatrix c sel run = t) : Occurs ev s t := h ▸ occurs_event (hev s) hw
  refine ⟨fun t status bad blocks h => hocc (runMatrix_done hn hp hz hsel h), fun h => hocc (runMatrix_shut hn hp hz hsel h), ?_⟩
  intro w q ph gva gpa h hl hk u off home
  have hpark : s.runMatrix c sel run = _ :=
    (runMatrix_parked hn hp hz hsel h hk).trans (parkEngine_hbm (c := c) (who := .matrix) (mark := State.mxWaits c e.uid w) hl)
  refine ⟨fun href => hocc (hpark.trans (if_pos href)), fun href hroom => hocc (hpark.trans ?_), fun href hroom => hocc (hpark.trans ?_)⟩
  · exact (if_neg (ne_true_of_eq_false href)).trans (if_pos (decide_eq_true hroom))
  · exact (if_neg (ne_true_of_eq_false href)).trans (if_neg fun hlt => Nat.not_lt.2 hroom (of_decide_eq_true hlt))

/-- Without a command to execute an event of the unit changes nothing. -/
theorem matrix_idle {s : State} {c : Nat} {ev : Instr} (hw : s.wr = []) (hn : s.mxNext? c = none)
    (hev : ev ∈ [Instr.mma c, .mmas c, .accz c, .accl c, .accs c, .accmCopy c, .accmAdd c, .accmTranspose c]) : Occurs ev s s := by
  have hidle (sel : Vec → Bool) (run : Via → MxEntry → State → MxEnd) (he : exec ev s = event (fun s => s.runMatrix c sel run) s) :
      Occurs ev s s := by
    have h : s.runMatrix c sel run = s := by
      simp only [State.runMatrix, hn]
    have ho := occurs_event he hw
    rwa [h] at ho
  simp only [List.mem_cons, List.not_mem_nil, or_false] at hev
  rcases hev with rfl | rfl | rfl | rfl | rfl | rfl | rfl | rfl
  · exact hidle _ _ rfl
  · exact hidle _ _ rfl
  · exact hidle _ _ rfl
  · exact hidle _ _ rfl
  · exact hidle _ _ rfl
  · exact hidle _ _ rfl
  · exact hidle _ _ rfl
  · exact hidle _ _ rfl

/-- The pins of a command that waits: those of the others stay, its own are those that it holds, none while its page moves (R209). -/
theorem mxPins_spec (s : State) (c uid : Nat) (w : EngWait) :
    (∀ q, q.uid ≠ uid → q ∈ (s.core c).pins → q ∈ ((s.mxPins c uid w).core c).pins) ∧
    (∀ q ∈ ((s.mxPins c uid w).core c).pins, q ∈ w.held ∨ (q.uid ≠ uid ∧ q ∈ (s.core c).pins)) ∧
    ((∀ p ph gva gpa, w.loc = .hbm p ph gva gpa → (s.part p).moves gpa = false) → ∀ q ∈ w.held, q ∈ ((s.mxPins c uid w).core c).pins) := by
  unfold State.mxPins
  extract_lets moves
  rw [State.core_modCore_self]
  simp only [List.mem_append, List.mem_filter, bne_iff_ne, ne_eq]
  refine ⟨fun q hq hm => .inl ⟨hm, hq⟩, fun q hq => ?_, fun hm q hq => .inr ?_⟩
  · rcases hq with ⟨hq, hu⟩ | hq
    · exact .inr ⟨hu, hq⟩
    · by_cases hmv : moves = true
      · rw [if_pos hmv] at hq
        exact nomatch hq
      · rw [if_neg hmv] at hq
        exact .inl hq
  · have hstay : moves = false := by
      unfold moves
      split
      · exact hm _ _ _ _ ‹_›
      · rfl
    rwa [hstay, if_neg Bool.false_ne_true]

/-! ## Completion and reports (R194, R202, R210; 12 R222) -/

theorem giveReport_record (s : State) (c : Nat) {r : Report} (h : r.handler = false) : s.giveReport c r =
    if 64 ≤ (s.core c).records then none else some (s.modCore c fun k => { k with cinbox := k.cinbox ++ [r.crec] }) := by
  simp only [State.giveReport, h, Bool.false_and]
  rfl

/-- A finished command at the head, once its entry is free: the report of a failure, the bytes of its course. -/
def State.mxFreed (s : State) (c : Nat) (e : MxEntry) (r : List MxEntry) : State :=
  let u := s.modCore c fun k => { k with mxq := r, mxFreed := k.mxFreed + 1 }
  let u := if e.status = 1 ∨ e.status = 2 ∨ e.status = 3 then
    u.report c { reportRec (if e.status = 2 then Cause.permission else if e.status = 3 then Cause.ecc else Cause.translate) 0 0
      (u.placeWord c) e.bad (w64 e.num) with engine := 1 } else u
  if e.status = 0 ∧ Cmd.courseEn e.cmd = true then
    u.deliverCourse (clusterOf c) (Cmd.courseIdx e.cmd) e.parity (Cmd.courseBytes e.cmd) c else u

/-- The report of a finished command. -/
def mxReport (e : MxEntry) : Report := ⟨decide (Cmd.mode e.cmd = 2), Cmd.cls e.cmd, mxRecord e, e.launch, e.prio⟩

theorem mxComplete_waits {s : State} {c : Nat} {e : MxEntry} {r : List MxEntry} (hq : (s.core c).mxq = e :: r)
    (h : e.finished = false ∨ s.engineHeld c 1 = true) : s.mxComplete c = s := by
  simp only [State.mxComplete, hq]
  refine if_pos ?_
  rcases h with h | h
  · rw [h]
    rfl
  · rw [h, Bool.or_true]

theorem mxComplete_frees {s : State} {c : Nat} {e : MxEntry} {r : List MxEntry} (hq : (s.core c).mxq = e :: r) (hf : e.finished = true)
    (hh : s.engineHeld c 1 = false) : s.mxComplete c = if Cmd.mode e.cmd = 0 then s.mxFreed c e r else
      match (s.mxFreed c e r).giveReport c (mxReport e) with
      | some t => t
      | none => (s.mxFreed c e r).modCore c fun k => { k with mxHeld := some (mxReport e) } := by
  simp only [State.mxComplete, hq, hf, hh, Bool.not_true, Bool.or_self, Bool.false_eq_true, if_false, Bool.and_eq_true, decide_eq_true_eq] <;> rfl

theorem mxComplete_spec {s : State} {c : Nat} {e : MxEntry} {r : List MxEntry} (hw : s.wr = []) (hq : (s.core c).mxq = e :: r)
    (hf : e.finished = true) (hh : s.engineHeld c 1 = false) :
    (Cmd.mode e.cmd = 0 → Occurs (.matrixCompletion c) s (s.mxFreed c e r)) ∧
    (Cmd.mode e.cmd ≠ 0 → ∀ t, (s.mxFreed c e r).giveReport c (mxReport e) = some t → Occurs (.matrixCompletion c) s t) ∧
    (Cmd.mode e.cmd ≠ 0 → (s.mxFreed c e r).giveReport c (mxReport e) = none →
      Occurs (.matrixCompletion c) s ((s.mxFreed c e r).modCore c fun k => { k with mxHeld := some (mxReport e) })) := by
  have hocc {t : State} (h : s.mxComplete c = t) : Occurs (.matrixCompletion c) s t :=
    h ▸ occurs_event (f := fun s => s.mxComplete c) rfl hw
  have heq := mxComplete_frees hq hf hh
  refine ⟨fun hm => hocc (heq.trans (if_pos hm)), fun hm t hg => hocc ((heq.trans (if_neg hm)).trans ?_),
    fun hm hg => hocc ((heq.trans (if_neg hm)).trans ?_)⟩
  · simp only [hg]
  · simp only [hg]

/-- The report that the matrix unit holds stays where there is no room, and is given once there is. -/
theorem unblockReports_matrix {s : State} {c : Nat} {r : Report} (hm : (s.core c).mxHeld = some r) (hc : (s.core c).cpHeld = []) :
    (s.giveReport c r = none → s.unblockReports c = s) ∧
    (r.handler = false → ∀ u, s.giveReport c r = some u → s.unblockReports c = u.modCore c fun k => { k with mxHeld := none }) := by
  refine ⟨fun hg => ?_, fun hr u hg => ?_⟩
  · simp only [State.unblockReports, hm, hg, hc, ite_self]
  · have hu : ((u.modCore c fun k => { k with mxHeld := none }).core c).cpHeld = [] := by
      rw [giveReport_record s c hr] at hg
      obtain ⟨-, hg⟩ := Option.ite_none_left_eq_some.1 hg
      cases hg
      rw [State.core_modCore_self, State.core_modCore_self]
      exact hc
    simp only [State.unblockReports, hm, hg, hu, ite_self]

theorem unblockReports_copy {s u : State} {c : Nat} {r : Report} {q : List Report} (hm : (s.core c).mxHeld = none)
    (hc : (s.core c).cpHeld = r :: q) (hh : s.engineHeld c 2 = false) (hg : s.giveReport c r = some u) :
    s.unblockReports c = u.modCore c fun k => { k with cpHeld := q } := by
  simp only [State.unblockReports, hm, hh, hc, hg, Bool.false_eq_true, if_false]

theorem zeroAccs_eq {s : State} {c : Nat} {e : MxEntry} {r : List MxEntry} (hq : (s.core c).mxq = e :: r) (hz : e.zeroing = true)
    (hr : e.released = true) : s.zeroAccs c = s.modCore c fun k => { k with acc := [], mxq := r } := by
  simp only [State.zeroAccs, hq, hz, hr, Bool.and_self, if_true]

/-- Commands whose operands are in the scratchpad finish, and so do those on accumulators alone. -/
theorem matrix_finishes {s : State} {c p : Nat} {e : MxEntry} (hw : s.wr = []) (hn : s.mxNext? c = some e) (hp : s.corePart? c = some p)
    (hz : e.zeroing = false) :
    let Finished (ev : Instr) (n : Nat) : Prop := Answers (exec ev s) fun t => ∃ x, (t.core c).mxq.head? = some x ∧ x.uid = e.uid ∧
      x.finished = true ∧ x.status = 0 ∧ x.bad = 0 ∧ x.blocks = n
    (field (Cmd.ctl e.cmd 0) 1 0 = 0 → field (Cmd.ctl e.cmd 1) 1 0 = 0 → fmScale e.recA = 2 → fmScale e.recB = 2 →
      (Cmd.kind e.cmd = 0 → Finished (.mma c) (Cmd.kb e.cmd + 1)) ∧
      (Cmd.kind e.cmd = 1 → Answers (exec (.mmas c) s) fun t => ∃ x, (t.core c).mxq.head? = some x ∧ x.uid = e.uid ∧
        x.finished = true ∧ (x.status = 0 ∧ x.blocks = Cmd.kb e.cmd + 1 ∨ x.status = 4 ∧ x.blocks ≤ Cmd.kb e.cmd))) ∧
    (field (Cmd.ctl e.cmd 0) 1 0 = 0 → Cmd.kind e.cmd = 3 → Finished (.accl c) 0) ∧
    ((∀ w ∈ accsWrites (s.core c) e, ∃ off, w.1 = .spad off ∧ off < s.spadSize c) → Cmd.kind e.cmd = 4 → Finished (.accs c) 0) ∧
    (Cmd.kind e.cmd = 2 → Finished (.accz c) 0) ∧
    (Cmd.kind e.cmd = 5 → (Cmd.opt e.cmd = 0 → Finished (.accmCopy c) 0) ∧ (Cmd.opt e.cmd = 1 → Finished (.accmAdd c) 0) ∧
      (Cmd.opt e.cmd = 2 → Finished (.accmTranspose c) 0)) := by
  intro Finished
  let v : Via := ⟨c, p, e.uid, e.fillFailed⟩
  have hmove {ev : Instr} {f : Core → Nat → Nat → Nat → Nat → W32} (he : Executes ev c e (runAccm f)) : Finished ev 0 := by
    obtain ⟨t, ht, hk, -⟩ := runAccm_done f v e s
    exact executes_finished he hw hn hp hz ht hk
  refine ⟨fun hx hy ha hb => ⟨fun hk => ?_, fun hk => ?_⟩, fun hx hk => ?_, fun hspad hk => ?_, fun hk => ?_,
    fun hk => ⟨fun ho => ?_, fun ho => ?_, fun ho => ?_⟩⟩
  · obtain ⟨t, ht, hkept⟩ := runMma_spad (v := v) hx hy ha hb s
    exact executes_finished (executes_of_kind (.inl ⟨rfl, hk, rfl⟩)) hw hn hp hz ht hkept
  · obtain ⟨t, status, n, ht, hkept, hend⟩ := runMmas_spad (v := v) hx hy ha hb s
    obtain ⟨t', ht', x, hq, hu, hf, hst, -, hn'⟩ :=
      executes_finished (executes_of_kind (.inr (.inl ⟨rfl, hk, rfl⟩))) hw hn hp hz ht hkept
    exact ⟨t', ht', x, hq, hu, hf, by rwa [hst, hn']⟩
  · obtain ⟨rows, hrows⟩ := readRows_spad (v := v) (o := opndOf e.cmd 0 e.mapX (cFmt e).bits) (cFmt e) ⟨s, e.got, []⟩ hx (upto 32) (upto 32)
    obtain ⟨t, ht, hkept, -⟩ := runAccl_done hrows
    exact executes_finished (executes_of_kind (.inr (.inr (.inr (.inl ⟨rfl, hk, rfl⟩))))) hw hn hp hz ht hkept
  · obtain ⟨t, ht, hstep⟩ := runAccs_spad (v := v) (e := e) (s := s) hspad
    exact executes_finished (executes_of_kind (.inr (.inr (.inr (.inr (.inl ⟨rfl, hk, rfl⟩)))))) hw hn hp hz ht ⟨hstep.mxq, hstep.wr⟩
  · obtain ⟨t, ht, hkept, -⟩ := runAccz_done v e s
    exact executes_finished (executes_of_kind (.inr (.inr (.inl ⟨rfl, hk, rfl⟩)))) hw hn hp hz ht hkept
  · exact hmove (executes_of_kind (.inr (.inr (.inr (.inr (.inr (.inl ⟨rfl, hk, ho, rfl⟩)))))))
  · exact hmove (executes_of_kind (.inr (.inr (.inr (.inr (.inr (.inr (.inl ⟨rfl, hk, ho, rfl⟩))))))))
  · exact hmove (executes_of_kind (.inr (.inr (.inr (.inr (.inr (.inr (.inr ⟨rfl, hk, ho, rfl⟩))))))))

/-- Settles O36: the head of the queue executes by its rule (`matrix_executes`, `matrix_finishes`); the accumulators by what each
rule computes; completion and held reports. -/
theorem matrixCommands : Obligations.MatrixCommands := by
  unfold Obligations.MatrixCommands
  refine ⟨?rule, ?finished, fun s c => mxNext?_none, fun s c e => mxNext?_head, fun s c uid w => mxPins_spec s c uid w,
    fun s c ev hw hn hev => matrix_idle hw hn hev, ?accz, ?accm, ?accl, ?block, ?blocks, ?accs, ?waits, ?completes,
    fun s c r hr => giveReport_record s c hr, ?held, ?copy, ?zeroing⟩
  case rule => exact fun s c p e ev run hw hn hp hz h => matrix_executes (executes_of_kind h) hw hn hp hz
  case finished => exact fun s c p e hw hn hp hz => matrix_finishes hw hn hp hz
  case accz =>
    intro v e s
    obtain ⟨t, ht, -, h⟩ := runAccz_done v e s
    exact ⟨t, ht, h⟩
  case accm =>
    intro f v e s
    obtain ⟨t, ht, -, h⟩ := runAccm_done f v e s
    exact ⟨t, ht, h⟩
  case accl =>
    intro v e s f rows hrows
    obtain ⟨t, ht, -, h⟩ := runAccl_done hrows
    exact ⟨t, ht, h⟩
  case block =>
    intro v e pa pb f f1 f2 f3 f4 a b sa sb n fa fb h1 h2 h3 h4
    refine ⟨_, doBlock_adds h1 h2 h3 h4, fun i j hi hj => ?_⟩
    rw [State.core_modCore_self]
    exact accAt_addBlock _ _ _ _ _ _ hi hj
  case blocks =>
    intro v e s hx hy ha hb
    obtain ⟨t, ht, -⟩ := runMma_spad (v := v) hx hy ha hb s
    obtain ⟨u, status, n, hu, -, hend⟩ := runMmas_spad (v := v) hx hy ha hb s
    exact ⟨⟨t, ht⟩, u, status, n, hu, hend⟩
  case accs =>
    intro v e s h
    obtain ⟨t, ht, hstep⟩ := runAccs_spad h
    exact ⟨t, ht, hstep.acc, hstep.mem, hstep.wr⟩
  case waits =>
    intro s c e r hw hq h
    have ho : Occurs (.matrixCompletion c) s (s.mxComplete c) := occurs_event (f := fun s => s.mxComplete c) rfl hw
    rwa [mxComplete_waits hq h] at ho
  case completes => exact fun s c e r hw hq hf hh => mxComplete_spec hw hq hf hh
  case held =>
    intro s c r hw hm hc
    have ho : Occurs (.engineReportUnblock c) s (s.unblockReports c) := occurs_event (f := fun s => s.unblockReports c) rfl hw
    obtain ⟨hstay, hgive⟩ := unblockReports_matrix hm hc
    exact ⟨fun hg => by rwa [hstay hg] at ho, fun hr u hg => by rwa [hgive hr u hg] at ho⟩
  case copy =>
    intro s c r q u hw hm hc hh hg
    exact unblockReports_copy hm hc hh hg ▸ occurs_event (f := fun s => s.unblockReports c) rfl hw
  case zeroing =>
    intro s c e r hw hq hz hr
    exact zeroAccs_eq hq hz hr ▸ occurs_event (f := fun s => s.zeroAccs c) rfl hw

end Machine
end Sys2Proof
end

section
/-! PROOF. The transfers of the copy engine, chunk by chunk, and their completion (12_copy_engine.md R213 to R223): O37. -/

namespace Sys2Proof
namespace Machine

open Safety

/-! ## The entry that a channel works on -/

theorem cpNext?_entry {s : State} {c chan : Nat} {e : CpEntry} (h : s.cpNext? c chan = some e) :
    ((s.core c).cpq.find? fun e => e.chan == chan && e.released) = some e := by
  unfold State.cpNext? at h
  cases hq : (s.core c).cpq.find? fun e => e.chan == chan && e.released with
  | none => simp only [hq, reduceCtorEq] at h
  | some x =>
    simp only [hq, Option.ite_none_right_eq_some, Option.some.injEq] at h
    rw [h.2]

theorem cpq_modCp (s : State) (c uid : Nat) (f : CpEntry → CpEntry) :
    ((s.modCp c uid f).core c).cpq = (s.core c).cpq.map fun e => if e.uid == uid then f e else e := by
  rw [State.modCp, State.core_modCore_self]

/-- A channel whose oldest released transfer has finished works on none. -/
theorem cpNext?_finished {s : State} {c chan : Nat} {e : CpEntry} (h : s.cpNext? c chan = some e) :
    (s.modCp c e.uid fun e => { e with finished := true }).cpNext? c chan = none := by
  have hfind : (((s.modCp c e.uid fun e => { e with finished := true }).core c).cpq.find? fun e => e.chan == chan && e.released) =
      some { e with finished := true } := by
    rw [cpq_modCp, List.find?_map]
    have hp : ((fun e : CpEntry => e.chan == chan && e.released) ∘ fun x => if x.uid == e.uid then { x with finished := true } else x) =
        fun e => e.chan == chan && e.released := by
      funext x
      simp only [Function.comp]
      split <;> rfl
    rw [hp, cpNext?_entry h, Option.map_some, if_pos (beq_self_eq_true _)]
  simp only [State.cpNext?, hfind, Bool.not_true, Bool.false_and, Bool.false_eq_true, if_false]

/-! ## Steps of a transfer (R221) -/

section
variable {s : State} {c chan : Nat} {e : CpEntry}

theorem sampleGath_kept (h : Cp.kind e.q.d = 3 → e.gath.isSome = true) : s.sampleGath c e = (s, e) := by
  refine if_neg fun ⟨hk, hn, _⟩ => ?_
  have hs := h hk
  rw [Option.isNone_iff_eq_none.1 hn] at hs
  exact nomatch hs

theorem sampleGath_done (h : s.nextChunk c e = none) : s.sampleGath c e = (s, e) := by
  refine if_neg fun ⟨_, _, hlt⟩ => ?_
  rw [State.nextChunk, if_neg (Nat.not_le.2 hlt)] at h
  exact nomatch h

/-- A transfer without a next chunk has come to its end. -/
theorem cpStep_ends (h : s.nextChunk c e = none) : s.cpStep c e = s.modCp c e.uid fun e => { e with finished := true } := by
  have hend : ¬ e.off < Cp.total e.q e.map := fun hlt => by
    rw [State.nextChunk, if_neg (Nat.not_le.2 hlt)] at h
    exact nomatch h
  simp only [State.cpStep, sampleGath_done h, h, hend, decide_false, Bool.and_false, Bool.false_eq_true, if_false]

/-- No chunk starts under a debug halt. -/
theorem cpStep_halted {ch : Chunk} (h : s.nextChunk c e = some ch) (hh : (s.core c).halted = true) (hu : e.under = none) :
    s.cpStep c e = s := by
  have hlt : e.off < Cp.total e.q e.map := Nat.not_le.1 fun hle => by
    rw [State.nextChunk, if_pos hle] at h
    exact nomatch h
  simp only [State.cpStep, hh, hu, hlt, Option.isNone_none, decide_true, Bool.and_self, if_true]

theorem cpStep_chunk {s1 : State} {e1 : CpEntry} {ch : Chunk} (hg : s.sampleGath c e = (s1, e1)) (h : s1.nextChunk c e1 = some ch)
    (hh : (s.core c).halted = false) : s.cpStep c e = s1.copyChunk c e1 ch := by
  simp only [State.cpStep, hh, hg, h, Bool.false_and, Bool.false_eq_true, if_false]

theorem cpChunk_eq (h : s.cpNext? c chan = some e) : s.cpChunk c chan = s.cpStep c e := by
  simp only [State.cpChunk, h]

theorem cpChunk_idle (h : s.cpNext? c chan = none) : s.cpChunk c chan = s := by
  simp only [State.cpChunk, h]

variable {sel : CpEntry → Bool}

theorem cpRun_idle (h : s.cpNext? c chan = none) (n : Nat) : s.cpRun c chan sel n = s := by
  cases n with
  | zero => rfl
  | succ n => simp only [State.cpRun, h]

theorem cpRun_succ (h : s.cpNext? c chan = some e) (hsel : sel e = true) (n : Nat) : s.cpRun c chan sel (n + 1) =
    match ((s.cpStep c e).core c).cpq.find? fun x => x.uid == e.uid with
    | some x => if x.off = e.off then s.cpStep c e else (s.cpStep c e).cpRun c chan sel n
    | none => s.cpStep c e := by
  simp only [State.cpRun, h, hsel, if_true] <;> rfl

/-- A transfer goes on behind a chunk that moved it. -/
theorem cpRun_goes_on {x : CpEntry} (h : s.cpNext? c chan = some e) (hsel : sel e = true)
    (hx : (((s.cpStep c e).core c).cpq.find? fun x => x.uid == e.uid) = some x) (ho : x.off ≠ e.off) (n : Nat) :
    s.cpRun c chan sel (n + 1) = (s.cpStep c e).cpRun c chan sel n := by
  simp only [cpRun_succ h hsel, hx, if_neg ho]

/-- A transfer stops for the step at a chunk that did not move it. -/
theorem cpRun_stops {x : CpEntry} (h : s.cpNext? c chan = some e) (hsel : sel e = true)
    (hx : (((s.cpStep c e).core c).cpq.find? fun x => x.uid == e.uid) = some x) (ho : x.off = e.off) (n : Nat) :
    s.cpRun c chan sel (n + 1) = s.cpStep c e := by
  simp only [cpRun_succ h hsel, hx, if_pos ho]

/-- So does one whose channel has nothing to work on after it. -/
theorem cpRun_last (h : s.cpNext? c chan = some e) (hsel : sel e = true) (hlast : (s.cpStep c e).cpNext? c chan = none) (n : Nat) :
    s.cpRun c chan sel (n + 1) = s.cpStep c e := by
  rw [cpRun_succ h hsel]
  split
  · rw [cpRun_idle hlast, ite_self]
  · rfl

theorem cpRun_still (h : s.cpNext? c chan = some e) (hsel : sel e = true) (hstill : s.cpStep c e = s) (n : Nat) :
    s.cpRun c chan sel n = s := by
  induction n with
  | zero => rfl
  | succ n ih =>
    rw [cpRun_succ h hsel, hstill, ih]
    split
    · rw [ite_self]
    · rfl

end

/-- An event runs the transfers of a kind. -/
def Transfers (ev : Instr) (c chan : Nat) (e : CpEntry) : Prop :=
  ∃ sel : Quad → Bool, sel e.q = true ∧ ∀ s, exec ev s = event (fun s => s.cpTransfer c chan sel) s

theorem transfers_of_kind {ev : Instr} {c chan : Nat} {e : CpEntry}
    (h : (ev = .lin c chan ∧ Cp.kind e.q.d = 0) ∨ (ev = .rect c chan ∧ Cp.kind e.q.d = 1 ∧ Cp.map e.q.d = false) ∨
      (ev = .rectMap c chan ∧ Cp.kind e.q.d = 1 ∧ Cp.map e.q.d = true) ∨ (ev = .slab c chan ∧ Cp.kind e.q.d = 2) ∨
      (ev = .gath c chan ∧ Cp.kind e.q.d = 3) ∨ (ev = .fill c chan ∧ Cp.kind e.q.d = 4)) : Transfers ev c chan e := by
  rcases h with ⟨rfl, hk⟩ | ⟨rfl, hk, hm⟩ | ⟨rfl, hk, hm⟩ | ⟨rfl, hk⟩ | ⟨rfl, hk⟩ | ⟨rfl, hk⟩
  · exact ⟨fun q => Cp.kind q.d == 0, beq_iff_eq.2 hk, fun _ => rfl⟩
  · exact ⟨fun q => Cp.kind q.d == 1 && !Cp.map q.d, Bool.and_eq_true_iff.2 ⟨beq_iff_eq.2 hk, congrArg Bool.not hm⟩, fun _ => rfl⟩
  · exact ⟨fun q => Cp.kind q.d == 1 && Cp.map q.d, Bool.and_eq_true_iff.2 ⟨beq_iff_eq.2 hk, hm⟩, fun _ => rfl⟩
  · exact ⟨fun q => Cp.kind q.d == 2, beq_iff_eq.2 hk, fun _ => rfl⟩
  · exact ⟨fun q => Cp.kind q.d == 3, beq_iff_eq.2 hk, fun _ => rfl⟩
  · exact ⟨fun q => Cp.kind q.d == 4, beq_iff_eq.2 hk, fun _ => rfl⟩

/-- What the event of a kind does with the transfer of its channel: it ends it, starts nothing under a debug halt, and does one chunk
where the chunk does not move it. -/
theorem transfer_steps {s : State} {c chan : Nat} {e : CpEntry} {ev : Instr} (he : Transfers ev c chan e) (hw : s.wr = [])
    (hn : s.cpNext? c chan = some e) :
    (s.nextChunk c e = none → Occurs ev s (s.modCp c e.uid fun e => { e with finished := true })) ∧
    (∀ ch, s.nextChunk c e = some ch → (s.core c).halted = true → e.under = none → Occurs ev s s) ∧
    (∀ s1 e1 ch x, s.sampleGath c e = (s1, e1) → s1.nextChunk c e1 = some ch → (s.core c).halted = false →
      (((s1.copyChunk c e1 ch).core c).cpq.find? fun x => x.uid == e.uid) = some x → x.off = e.off → Occurs ev s (s1.copyChunk c e1 ch)) := by
  obtain ⟨sel, hsel, hev⟩ := he
  have hs : (decide (e.uid = e.uid) && sel e.q) = true := by rw [decide_eq_true rfl, hsel, Bool.and_self]
  have hocc {t : State} (h : s.cpRun c chan (fun x => x.uid == e.uid && sel x.q) (Cp.total e.q e.map + 1) = t) : Occurs ev s t := by
    have ho := occurs_event (hev s) hw
    simp only [State.cpTransfer, hn, h] at ho
    exact ho
  refine ⟨fun h => ?_, fun ch h hh hu => hocc (cpRun_still hn hs (cpStep_halted h hh hu) _), fun s1 e1 ch x hg h hh hx ho => ?_⟩
  · refine hocc ((cpRun_last hn hs ?_ _).trans (cpStep_ends h))
    rw [cpStep_ends h]
    exact cpNext?_finished hn
  · have hst := cpStep_chunk hg h hh
    rw [← hst] at hx ⊢
    exact hocc (cpRun_stops hn hs hx ho _)

/-! ## Chunks (R218 to R220) -/

theorem plainChunk_spec (sa da : W64) (n : Nat) : ∃ m, plainChunk sa da n = ⟨.mem sa none, some da, none, m, m⟩ ∧ m ≤ n ∧
    sa.toNat % 4096 + m ≤ 4096 ∧ da.toNat % 4096 + m ≤ 4096 ∧ (0 < n → 0 < m) := by
  have hs := Nat.mod_lt sa.toNat (by decide : 0 < 4096)
  have hd := Nat.mod_lt da.toNat (by decide : 0 < 4096)
  have h1 : Nat.min n (Nat.min (toBoundary sa) (toBoundary da)) ≤ n := Nat.min_le_left _ _
  have h2 : Nat.min n (Nat.min (toBoundary sa) (toBoundary da)) ≤ 4096 - sa.toNat % 4096 := (Nat.min_le_right _ _).trans (Nat.min_le_left _ _)
  have h3 : Nat.min n (Nat.min (toBoundary sa) (toBoundary da)) ≤ 4096 - da.toNat % 4096 := (Nat.min_le_right _ _).trans (Nat.min_le_right _ _)
  refine ⟨_, rfl, h1, by omega, by omega, fun hn => ?_⟩
  exact Nat.lt_min.2 ⟨hn, Nat.lt_min.2 ⟨Nat.sub_pos_of_lt hs, Nat.sub_pos_of_lt hd⟩⟩

/-- The next chunk of a transfer that has not come to its end, by its kind. -/
theorem nextChunk_kinds (s : State) (c : Nat) {e : CpEntry} (h : e.off < Cp.total e.q e.map) :
    let x := e.q.c
    let o := e.off
    let left := Cp.total e.q e.map - o
    (Cp.kind e.q.d = 0 → s.nextChunk c e = some (plainChunk (e.q.a + BitVec.ofNat 64 o) (e.q.b + BitVec.ofNat 64 o) left)) ∧
    (Cp.kind e.q.d = 1 → Cp.map e.q.d = false →
      let rowb := field x 47 32
      s.nextChunk c e = some (plainChunk
        (e.q.a + BitVec.ofNat 64 (16 * field x 31 16 * (o / rowb) + o % rowb))
        (e.q.b + BitVec.ofNat 64 (16 * field x 15 0 * (o / rowb) + o % rowb)) (rowb - o % rowb))) ∧
    (Cp.kind e.q.d = 2 →
      let bb := Cp.slabB x * Cp.slabEs x
      let p := Cp.slabW x * Cp.slabH x
      s.nextChunk c e = some (plainChunk (e.q.a + BitVec.ofNat 64 o)
        (slabAddr e.q (o / bb % p) (field e.q.b 31 0 + o / bb / p * bb + o % bb)) (Nat.min left (bb - o % bb)))) ∧
    (Cp.kind e.q.d = 3 →
      let esz := field x 43 32 + 1
      ∀ g, e.gath = some g → s.nextChunk c e = some (plainChunk (e.q.a + g + BitVec.ofNat 64 (o % esz))
        (e.q.b + BitVec.ofNat 64 o) (esz - o % esz))) := by
  intro x o left
  have hlt : ¬ Cp.total e.q e.map ≤ e.off := Nat.not_le.2 h
  refine ⟨fun hk => ?_, fun hk hm => ?_, fun hk => ?_, fun hk => ?_⟩
  · simp only [State.nextChunk, if_neg hlt, hk] <;> rfl
  · intro rowb
    simp only [State.nextChunk, if_neg hlt, hk, hm, Bool.false_eq_true, if_false] <;> rfl
  · intro bb p
    simp only [State.nextChunk, if_neg hlt, hk] <;> rfl
  · intro esz g hg
    simp only [State.nextChunk, if_neg hlt, hk, hg, Option.getD_some] <;> rfl

/-- The offset of an element of a GATH is read from its list when the element starts. -/
theorem sampleGath_reads (s : State) (c : Nat) {e : CpEntry} (hk : Cp.kind e.q.d = 3) (hg : e.gath = none) (h : e.off < Cp.total e.q e.map) :
    s.sampleGath c e =
      (s.modCp c e.uid fun x => { x with gath := some (s.gathOffset c e) }, { e with gath := some (s.gathOffset c e) }) :=
  if_pos ⟨hk, Option.isNone_iff_eq_none.2 hg, h⟩

/-- A chunk that is under way with another device waits for its bytes, for its turn at the memory plane and for writes near its cluster, and
is written once it has them. -/
theorem copyChunk_under {s : State} {c : Nat} {e : CpEntry} {ch : Chunk} {src dst : Loc} {req : Nat} (hu : e.under = some (src, dst, req))
    (hd : ch.dst ≠ none) :
    (e.fetched = none → s.copyChunk c e ch = s) ∧
    (∀ bs, e.fetched = some bs → s.planeShut dst = true ∨ s.cpNear c ch.n dst = true → s.copyChunk c e ch = s) ∧
    (∀ bs, e.fetched = some bs → s.planeShut dst = false → s.cpNear c ch.n dst = false → s.pinHolds dst = false →
      s.copyChunk c e ch = s.putChunk c e ch (some src) dst bs) := by
  obtain ⟨da, hda⟩ := Option.ne_none_iff_exists'.1 hd
  refine ⟨fun hf => ?_, fun bs hf h => ?_, fun bs hf hp hn hh => ?_⟩
  · simp only [State.copyChunk, hda, hu, hf]
  · simp only [State.copyChunk, hda, hu, hf, Bool.or_eq_true, h, if_true]
  · simp only [State.copyChunk, hda, hu, hf, hp, hn, hh, Bool.or_self, Bool.false_eq_true, if_false]

/-! ## Chunks to the scratchpad -/

/-- Nothing at a scratchpad is performed for one cluster alone. -/
theorem nearOpen_spad (s : State) (k : Nat) (own : Option (Nat × Nat)) (j i n : Nat) : s.nearOpen k own (.spad j i) n = false := by
  have hline (e : Entry) : e.onLines (.spad j i) n = false := by
    unfold Entry.onLines
    cases e.loc <;> rfl
  simp only [State.nearOpen, hline, Bool.and_false, List.any_eq_false, List.any_eq_true, Bool.false_eq_true, and_false, exists_false,
    not_false_eq_true, implies_true]

theorem mergeNib_whole (i : Nat) (b old : Byte) : mergeNib ⟨i, b, true, true⟩ old = b := by
  apply BitVec.eq_of_getLsbD_eq
  intro k hk
  rw [getLsbD_mergeNib _ _ hk]
  simp only [if_true, ite_self]

/-- Whole bytes written into a scratchpad are there, and no other byte changes. -/
theorem find_spadMerge (k : Core) (a : Nat) (bs : List Byte) (x : Nat) :
    Tbl.find 0 (k.spadMerge a (fullBytes bs)).spad x = if a ≤ x ∧ x < a + bs.length then bs.getD (x - a) 0 else Tbl.find 0 k.spad x := by
  have key (bs : List Byte) (n : Nat) (m : Tbl Byte) :
      Tbl.find 0 (((bs.zipIdx n).map fun e => (⟨e.2, e.1, true, true⟩ : NibByte)).foldl
        (fun m b => Tbl.put 0 m (a + b.pos) (mergeNib b (Tbl.find 0 m (a + b.pos)))) m) x =
        if a + n ≤ x ∧ x < a + n + bs.length then bs.getD (x - a - n) 0 else Tbl.find 0 m x := by
    induction bs generalizing n m with
    | nil => exact (if_neg fun h => by simp only [List.length_nil] at h; omega).symm
    | cons b bs ih =>
      rw [List.zipIdx_cons, List.map_cons, List.foldl_cons, ih, mergeNib_whole, Tbl.find_put, List.length_cons]
      by_cases h0 : x = a + n
      · rw [if_neg (by omega), if_pos h0, if_pos (by omega), show x - a - n = 0 by omega, List.getD_cons_zero]
      · by_cases h1 : a + n ≤ x ∧ x < a + n + (bs.length + 1)
        · rw [if_pos h1, if_pos (by omega), show x - a - n = x - a - (n + 1) + 1 by omega, List.getD_cons_succ]
        · rw [if_neg h1, if_neg (by omega), if_neg h0]
  exact key bs 0 k.spad

theorem spadBytes_of_find {k : Core} {o : Nat} {bs : List Byte} (h : ∀ i, i < bs.length → Tbl.find 0 k.spad (o + i) = bs.getD i 0) :
    k.spadBytes o bs.length = bs := by
  refine List.ext_getElem (by simp only [Core.spadBytes, upto, List.length_map, List.length_range]) fun i h1 h2 => ?_
  simp only [Core.spadBytes, upto, List.getElem_map, List.getElem_range, h i h2, List.getD_eq_getElem?_getD, List.getElem?_eq_getElem h2,
    Option.getD_some]

/-- What one byte of a transfer that overlaps itself adds to what it writes (R218). -/
def overlapStep (f : Nat) (olds : Tbl Byte) (src dst : Nat) (out : List Byte) (e : Byte × Nat) : List Byte :=
  let k := src + e.2
  let v :=
    match Tbl.get? olds k with
    | some old => if Config.overlapPick (4096 * f + e.2) then old else e.1
    | none =>
      if dst ≤ k ∧ k < dst + e.2 then (if Config.overlapPick (4096 * f + e.2) then e.1 else out.getD (k - dst) e.1)
      else e.1
  out ++ [v]

theorem overlapBytes_eq (f : Nat) (olds : Tbl Byte) (src dst : Nat) (bs : List Byte) :
    overlapBytes f olds src dst bs = bs.zipIdx.foldl (overlapStep f olds src dst) [] := rfl

theorem overlapStep_apart {f src dst n : Nat} {b : Byte} {out : List Byte} (h : ¬(dst ≤ src + n ∧ src + n < dst + n)) :
    overlapStep f [] src dst out (b, n) = out ++ [b] := by
  simp only [overlapStep, Tbl.get?, if_neg h]

/-- A transfer whose source does not run into what the chunk has written before copies the bytes as they are (R218). -/
theorem overlapBytes_apart (f src dst : Nat) (bs : List Byte) (h : ∀ i, i < bs.length → ¬(dst ≤ src + i ∧ src + i < dst + i)) :
    overlapBytes f [] src dst bs = bs := by
  have key (r : List Byte) (n : Nat) (out : List Byte) (hr : ∀ i, n ≤ i → i < n + r.length → ¬(dst ≤ src + i ∧ src + i < dst + i)) :
      (r.zipIdx n).foldl (overlapStep f [] src dst) out = out ++ r := by
    induction r generalizing n out with
    | nil => exact (List.append_nil out).symm
    | cons b r ih =>
      rw [List.length_cons] at hr
      rw [List.zipIdx_cons, List.foldl_cons, overlapStep_apart (hr n (Nat.le_refl n) (by omega)),
        ih (n + 1) _ fun i h1 h2 => hr i (by omega) (by omega), List.append_assoc]
      rfl
  exact key bs 0 [] fun i _ hi => h i (by omega)

/-! ## What a chunk to a scratchpad leaves -/

theorem spad_modCore (s : State) (c k : Nat) {f : Core → Core} (h : ∀ x, (f x).spad = x.spad) : ((s.modCore c f).core k).spad = (s.core k).spad := by
  rw [State.core_modCore]
  split
  · next hk => rw [h, hk]
  · rfl

/-- The entry of a transfer behind a chunk of it that was written. -/
def CpEntry.passed (ch : Chunk) (dst : Option Loc) (olds : Tbl Byte) (e : CpEntry) : CpEntry :=
  { e with
    off := e.off + ch.step, under := none, fetched := none, acking := false, refused := none, fillFailed := false, olds := olds
    gath := if (e.off + ch.step) % (field e.q.c 43 32 + 1) = 0 then none else e.gath
    counts := match dst with
      | some l => Tbl.put 0 e.counts (countKey l) (Tbl.find 0 e.counts (countKey l) + (if ch.nib.isSome then 1 else 2 * ch.n))
      | none => e.counts }

theorem passChunk_eq (s : State) (c uid : Nat) (ch : Chunk) (dst : Option Loc) (olds : Tbl Byte) :
    s.passChunk c uid ch dst olds = ((s.unpin c uid).modCp c uid (CpEntry.passed ch dst olds)).dropDoomed c uid := rfl

theorem passChunk_entry {s : State} {c : Nat} {e : CpEntry} (hin : e ∈ (s.core c).cpq) (hd : e.doomed = false) (ch : Chunk) (dst : Option Loc)
    (olds : Tbl Byte) : ∃ x ∈ ((s.passChunk c e.uid ch dst olds).core c).cpq, x.uid = e.uid ∧ x.off = e.off + ch.step := by
  refine ⟨e.passed ch dst olds, ?_, rfl, rfl⟩
  have hun : e ∈ ((s.unpin c e.uid).core c).cpq := by
    rw [State.unpin, State.core_modCore_self]
    exact hin
  rw [passChunk_eq, State.dropDoomed, State.core_modCore_self]
  refine List.mem_filter.2 ⟨?_, ?_⟩
  · rw [cpq_modCp]
    exact List.mem_map.2 ⟨e, hun, if_pos (beq_self_eq_true _)⟩
  · show (!(e.uid == e.uid && e.doomed)) = true
    rw [hd, Bool.and_false]
    rfl

theorem passChunk_spad (s : State) (c k uid : Nat) (ch : Chunk) (dst : Option Loc) (olds : Tbl Byte) :
    ((s.passChunk c uid ch dst olds).core k).spad = (s.core k).spad := by
  rw [passChunk_eq]
  refine (spad_modCore _ c k fun _ => ?drop).trans ((spad_modCore _ c k fun _ => ?entry).trans (spad_modCore s c k fun _ => ?pins))
  case drop => rfl
  case entry => rfl
  case pins => rfl

/-- What a chunk of a transfer leaves once its bytes are in a scratchpad: the bytes, every other byte, the entry, moved on. -/
structure Filled (c k o : Nat) (e : CpEntry) (bs : List Byte) (s t : State) : Prop where
  bytes : (t.core k).spadBytes o bs.length = bs
  rest : ∀ a, a < o ∨ o + bs.length ≤ a → Tbl.find 0 (t.core k).spad a = Tbl.find 0 (s.core k).spad a
  entry : ∃ x ∈ (t.core c).cpq, x.uid = e.uid ∧ x.off = e.off + bs.length
  wr : t.wr = s.wr

/-- The bytes of a chunk for a scratchpad are written there. -/
theorem putChunk_spad {s : State} {c k o : Nat} {e : CpEntry} {ch : Chunk} {src : Option Loc} {bs out : List Byte}
    (hin : e ∈ (s.core c).cpq) (hd : e.doomed = false) (hnib : ch.nib = none)
    (hout : (match src with | some l => overlapBytes s.free e.olds (locKey l) (locKey (.spad k o)) bs | none => bs) = out)
    (hlen : ch.step = out.length) : Filled c k o e out s (s.putChunk c e ch src (.spad k o) bs) := by
  have hput : s.putChunk c e ch src (.spad k o) bs = ((s.nextFree.2.modCore k fun x => x.spadMerge o (fullBytes out)).passChunk c e.uid ch
      (some (.spad k o)) (s.nextFree.2.keepOlds (.spad k o) ch.n e.olds)) := by
    rw [← hout]
    simp only [State.putChunk, State.cpBusy, chunkNibs, hnib, Bool.false_eq_true, if_false] <;> rfl
  have hfind (a : Nat) : Tbl.find 0 ((s.putChunk c e ch src (.spad k o) bs).core k).spad a =
      if o ≤ a ∧ a < o + out.length then out.getD (a - o) 0 else Tbl.find 0 (s.core k).spad a := by
    rw [hput, passChunk_spad, State.core_modCore_self]
    exact find_spadMerge _ o out a
  refine ⟨spadBytes_of_find fun i hi => ?_, fun a ha => ?_, ?_, ?_⟩
  · rw [hfind, if_pos (by omega), Nat.add_sub_cancel_left]
  · rw [hfind, if_neg (by omega)]
  · rw [hput, ← hlen]
    refine passChunk_entry ?_ hd ch _ _
    rw [State.core_modCore]
    split
    · next h => exact h ▸ hin
    · exact hin
  · rw [hput]
    rfl

theorem planeShut_spad (s : State) (k o : Nat) : s.planeShut (.spad k o) = false := rfl

theorem cpNear_spad (s : State) (c n k o : Nat) : s.cpNear c n (.spad k o) = false := nearOpen_spad s (clusterOf c) none k o n

/-- A chunk of a FILL whose destination is in a scratchpad. -/
theorem copyChunk_fill {s : State} {c k o m i : Nat} {e : CpEntry} {w da a : W64} (hu : e.under = none)
    (hx : s.cpXlate c e da m .write = (s, .at_ (.spad k o), a)) :
    s.copyChunk c e ⟨.pattern w i, some da, none, m, m⟩ = s.putChunk c e ⟨.pattern w i, some da, none, m, m⟩ none (.spad k o)
      ((upto m).map fun j => (leBytes 8 w.toNat).getD ((i + j) % 8) 0) := by
  simp only [State.copyChunk, hu, hx, planeShut_spad, cpNear_spad, Bool.or_self, Bool.false_eq_true, if_false]

/-- A chunk of plain bytes from a scratchpad to a scratchpad. -/
theorem copyChunk_spads {s : State} {c j i k o m : Nat} {e : CpEntry} {sa da a b : W64} (hu : e.under = none)
    (hs : s.cpXlate c e sa m .fetch = (s, .at_ (.spad j i), a)) (hd : s.cpXlate c e da m .write = (s, .at_ (.spad k o), b)) :
    s.copyChunk c e ⟨.mem sa none, some da, none, m, m⟩ = s.putChunk c e ⟨.mem sa none, some da, none, m, m⟩ (some (.spad j i)) (.spad k o)
      ((s.core j).spadBytes i m) := by
  simp only [State.copyChunk, hu, hs, hd, planeShut_spad, cpNear_spad, State.cpBusy, State.cpRead, Bool.or_self, Bool.false_eq_true, if_false]

/-- What a step of a channel answers when it fills a scratchpad. -/
theorem answers_filled {s : State} {c chan k o : Nat} {e : CpEntry} {out : List Byte} {t : State} (hw : s.wr = [])
    (hn : s.cpNext? c chan = some e) (hstep : s.cpStep c e = t) (hf : Filled c k o e out s t) :
    Answers (exec (.copyChunk c chan) s) fun t =>
      (t.core k).spadBytes o out.length = out ∧
      (∀ a, a < o ∨ o + out.length ≤ a → Tbl.find 0 (t.core k).spad a = Tbl.find 0 (s.core k).spad a) ∧
      (∃ x ∈ (t.core c).cpq, x.uid = e.uid ∧ x.off = e.off + out.length) ∧ t.mem = s.mem := by
  have hch : s.cpChunk c chan = t := (cpChunk_eq hn).trans hstep
  subst hch
  obtain ⟨hb, hr, he, hwr⟩ := hf
  exact answers_event (f := fun s => s.cpChunk c chan) rfl hw (hwr.trans hw) ⟨hb, hr, he, rfl⟩

theorem fill_answers {s : State} {c chan k o m i : Nat} {e : CpEntry} {w da a : W64} (hw : s.wr = []) (hn : s.cpNext? c chan = some e)
    (hin : e ∈ (s.core c).cpq) (hd : e.doomed = false) (hu : e.under = none) (hh : (s.core c).halted = false) (hk : Cp.kind e.q.d = 4)
    (hc : s.nextChunk c e = some ⟨.pattern w i, some da, none, m, m⟩) (hx : s.cpXlate c e da m .write = (s, .at_ (.spad k o), a)) :
    Answers (exec (.copyChunk c chan) s) fun t =>
      (t.core k).spadBytes o m = (upto m).map (fun j => (leBytes 8 w.toNat).getD ((i + j) % 8) 0) ∧
      (∀ a, a < o ∨ o + m ≤ a → Tbl.find 0 (t.core k).spad a = Tbl.find 0 (s.core k).spad a) ∧
      (∃ x ∈ (t.core c).cpq, x.uid = e.uid ∧ x.off = e.off + m) ∧ t.mem = s.mem := by
  have hlen : ((upto m).map fun j => (leBytes 8 w.toNat).getD ((i + j) % 8) 0).length = m := by
    simp only [upto, List.length_map, List.length_range]
  have hg : s.sampleGath c e = (s, e) := sampleGath_kept fun h => absurd (hk.symm.trans h) (by decide)
  have h := answers_filled hw hn ((cpStep_chunk hg hc hh).trans (copyChunk_fill hu hx)) (putChunk_spad hin hd rfl rfl hlen.symm)
  rwa [hlen] at h

theorem copy_answers {s : State} {c chan j i k o m : Nat} {e : CpEntry} {sa da a b : W64} (hw : s.wr = []) (hn : s.cpNext? c chan = some e)
    (hin : e ∈ (s.core c).cpq) (hd : e.doomed = false) (hu : e.under = none) (hh : (s.core c).halted = false) (holds : e.olds = [])
    (hap : j ≠ k ∨ i + m ≤ o ∨ o + m ≤ i) (hi : i + m ≤ 2 ^ 18) (ho : o + m ≤ 2 ^ 18) (hg : Cp.kind e.q.d = 3 → e.gath.isSome = true)
    (hc : s.nextChunk c e = some ⟨.mem sa none, some da, none, m, m⟩) (hs : s.cpXlate c e sa m .fetch = (s, .at_ (.spad j i), a))
    (hx : s.cpXlate c e da m .write = (s, .at_ (.spad k o), b)) :
    Answers (exec (.copyChunk c chan) s) fun t =>
      (t.core k).spadBytes o m = (s.core j).spadBytes i m ∧
      (∀ a, a < o ∨ o + m ≤ a → Tbl.find 0 (t.core k).spad a = Tbl.find 0 (s.core k).spad a) ∧
      (∃ x ∈ (t.core c).cpq, x.uid = e.uid ∧ x.off = e.off + m) ∧ t.mem = s.mem := by
  have hlen : ((s.core j).spadBytes i m).length = m := by
    simp only [Core.spadBytes, upto, List.length_map, List.length_range]
  have hbytes : overlapBytes s.free e.olds (locKey (.spad j i)) (locKey (.spad k o)) ((s.core j).spadBytes i m) = (s.core j).spadBytes i m := by
    rw [holds]
    refine overlapBytes_apart _ _ _ _ fun x hlt => ?_
    rw [hlen] at hlt
    simp only [locKey]
    omega
  have h := answers_filled hw hn ((cpStep_chunk (sampleGath_kept hg) hc hh).trans (copyChunk_spads hu hs hx))
    (putChunk_spad (src := some (.spad j i)) hin hd rfl hbytes hlen.symm)
  rwa [hlen] at h

/-! ## Completion (R222, R223) -/

/-- The report of a finished transfer. -/
def cpReport (e : CpEntry) : Report := ⟨decide (Cp.mode e.q.d = 2), Cp.cls e.q.d, cpRecord e, e.launch, e.prio⟩

/-- A finished transfer leaves the queue with the word of a stream that it has begun. -/
def State.cpLeaves (s : State) (c : Nat) (e : CpEntry) : State :=
  (s.contribute e.word).modCore c fun k => { k with cpq := k.cpq.filter fun x => x.uid != e.uid }

/-- A report is given, or held behind those that the engine holds. -/
def State.cpGive (s : State) (c : Nat) (rep : Report) : State :=
  if (s.core c).cpHeld.isEmpty && !s.engineHeld c 2 then
    match s.giveReport c rep with
    | some s => s
    | none => s.modCore c fun k => { k with cpHeld := [rep] }
  else s.modCore c fun k => { k with cpHeld := k.cpHeld ++ [rep] }

theorem cpGive_given {s t : State} {c : Nat} {rep : Report} (hc : (s.core c).cpHeld = []) (hh : s.engineHeld c 2 = false)
    (hg : s.giveReport c rep = some t) : s.cpGive c rep = t := by
  simp only [State.cpGive, hc, hh, List.isEmpty_nil, Bool.not_false, Bool.and_self, if_true, hg]

theorem cpGive_held {s : State} {c : Nat} {rep : Report}
    (h : (s.core c).cpHeld ≠ [] ∨ s.engineHeld c 2 = true ∨ s.giveReport c rep = none) :
    s.cpGive c rep = s.modCore c fun k => { k with cpHeld := k.cpHeld ++ [rep] } := by
  unfold State.cpGive
  split
  · next hfree =>
    simp only [Bool.and_eq_true, List.isEmpty_iff, Bool.not_eq_true'] at hfree
    obtain ⟨hc, hh⟩ := hfree
    have hg : s.giveReport c rep = none := (h.resolve_left (not_not_intro hc)).resolve_left (ne_true_of_eq_false hh)
    simp only [hg, State.modCore, hc, List.nil_append]
  · rfl

theorem placeWord_of_parts {s t : State} (h : t.parts = s.parts) (c : Nat) : t.placeWord c = s.placeWord c := by
  simp only [State.placeWord, State.corePart?, State.partOf?, State.part, h]

theorem endMsg_parts {m : Msg} (hm : m.comp = none) (s : State) (c n task : Nat) : (s.endMsg c n task m).parts = s.parts := by
  unfold State.endMsg
  split
  · rfl
  · simp only [hm] <;> rfl

theorem acceptTask_parts {s t : State} {c : Nat} {m : Msg} (hm : m.comp = none) (hst : s.staleAt c m = false)
    (h : s.acceptTask c m = .ok t) : t.parts = s.parts := by
  unfold State.acceptTask at h
  split at h
  · exact nomatch h
  split at h
  · cases h
    exact endMsg_parts hm s c 0 _
  rw [if_neg (ne_true_of_eq_false hst)] at h
  split at h
  · exact nomatch h
  · dsimp only at h
    split at h
    · cases h
      rfl
    · split at h
      · cases h
        rfl
      · exact nomatch h

theorem acceptOwn_parts {s t : State} {c : Nat} {m : Msg} (hm : m.comp = none) (hst : s.staleAt c m = false)
    (h : s.acceptOwn c m = some t) : t.parts = s.parts := by
  unfold State.acceptOwn at h
  split at h
  · cases h
    exact endMsg_parts hm s c 0 _
  rw [if_neg (ne_true_of_eq_false hst)] at h
  dsimp only at h
  split at h
  · next u hu =>
    cases h
    refine acceptTask_parts (s := s.setCore c (s.core c).nextMsgId.2) ?comp ?stale hu
    case comp => exact hm
    rw [← hst]
    unfold State.staleAt
    rw [State.core_setCore_self]
    rfl
  · exact nomatch h

/-- What a report changes is the core's alone. -/
theorem giveReport_parts {s t : State} {c : Nat} {r : Report} (h : s.giveReport c r = some t) : t.parts = s.parts := by
  unfold State.giveReport at h
  dsimp only at h
  split at h
  · next hc =>
    obtain ⟨-, hst⟩ := Bool.and_eq_true_iff.1 hc
    refine acceptOwn_parts ?comp ?stale h
    case comp => rfl
    case stale => exact (Bool.not_eq_true' _) ▸ hst
  · unfold State.postCompletion at h
    obtain ⟨-, h⟩ := Option.ite_none_left_eq_some.1 h
    cases h
    rfl

theorem cpComplete_eq {s : State} {c chan : Nat} {e : CpEntry}
    (hq : ((s.core c).cpq.find? fun e => e.chan == chan && e.released) = some e) (hf : e.finished = true) :
    s.cpComplete c chan =
      if e.status = 0 then
        if Cp.mode e.q.d = 0 then ((s.cpLeaves c e).modCore c fun k => k.retire e.chan e.xid).cpDeliver c e
        else (((s.cpLeaves c e).modCore c fun k => k.retire e.chan e.xid).cpDeliver c e).cpGive c (cpReport e)
      else ((s.cpLeaves c e).cpGive c (cpReport e)).report c
        { reportRec (if e.status = 2 then Cause.permission else if e.status = 3 then Cause.ecc else Cause.translate) e.chan 0
            ((s.cpLeaves c e).placeWord c) e.bad
            (w64 (Cp.bytesOf e.q e.map e.off % 2 ^ 32 * 2 ^ 32 + e.xid)) with engine := 2 } := by
  have hgo : ¬(!e.finished) = true := by rw [hf]; exact Bool.false_ne_true
  unfold State.cpComplete
  rw [hq]
  refine (if_neg hgo).trans ?_
  extract_lets u rep give v cause off
  have hu : u = s.cpLeaves c e := rfl
  have hgive : give = fun s => s.cpGive c (cpReport e) := rfl
  have hv : v = (u.modCore c fun k => k.retire e.chan e.xid).cpDeliver c e := rfl
  clear_value v u give
  subst hv hu hgive
  rfl

theorem completion_occurs {s t : State} {c chan : Nat} (hw : s.wr = []) (h : s.cpComplete c chan = t) :
    Occurs (.copyCompletion c chan) s t :=
  h ▸ occurs_event (f := fun s => s.cpComplete c chan) rfl hw

/-- A transfer that has come to its end is retired, delivers its bytes, and reports as its control word says. -/
theorem completion_done {s : State} {c chan : Nat} {e : CpEntry} (hw : s.wr = [])
    (hq : ((s.core c).cpq.find? fun e => e.chan == chan && e.released) = some e) (hf : e.finished = true) (hs : e.status = 0) :
    let u := ((s.cpLeaves c e).modCore c fun k => k.retire e.chan e.xid).cpDeliver c e
    (Cp.mode e.q.d = 0 → Occurs (.copyCompletion c chan) s u) ∧
    (Cp.mode e.q.d ≠ 0 → (u.core c).cpHeld = [] → u.engineHeld c 2 = false → ∀ t, u.giveReport c (cpReport e) = some t →
      Occurs (.copyCompletion c chan) s t) ∧
    (Cp.mode e.q.d ≠ 0 → (u.core c).cpHeld ≠ [] ∨ u.engineHeld c 2 = true ∨ u.giveReport c (cpReport e) = none →
      Occurs (.copyCompletion c chan) s (u.modCore c fun k => { k with cpHeld := k.cpHeld ++ [cpReport e] })) := by
  intro u
  have heq := (cpComplete_eq hq hf).trans (if_pos hs)
  exact ⟨fun hm => completion_occurs hw (heq.trans (if_pos hm)),
    fun hm hc hh t hg => completion_occurs hw ((heq.trans (if_neg hm)).trans (cpGive_given hc hh hg)),
    fun hm h => completion_occurs hw ((heq.trans (if_neg hm)).trans (cpGive_held h))⟩

/-- One that stopped reports, and its record goes to the supervisor. -/
theorem completion_stopped {s t : State} {c chan : Nat} {e : CpEntry} (hw : s.wr = [])
    (hq : ((s.core c).cpq.find? fun e => e.chan == chan && e.released) = some e) (hf : e.finished = true) (hs : e.status ≠ 0)
    (hc : ((s.cpLeaves c e).core c).cpHeld = []) (hh : (s.cpLeaves c e).engineHeld c 2 = false)
    (hg : (s.cpLeaves c e).giveReport c (cpReport e) = some t) :
    Occurs (.copyCompletion c chan) s (t.report c
      { reportRec (if e.status = 2 then Cause.permission else if e.status = 3 then Cause.ecc else Cause.translate) e.chan 0 (t.placeWord c)
          e.bad (w64 (Cp.bytesOf e.q e.map e.off % 2 ^ 32 * 2 ^ 32 + e.xid)) with engine := 2 }) := by
  refine completion_occurs hw (((cpComplete_eq hq hf).trans (if_neg hs)).trans ?_)
  rw [cpGive_given hc hh hg, placeWord_of_parts (giveReport_parts hg)]

theorem retire_next {k : Core} {chan id : Nat} (hr : k.retired = []) (hn : Tbl.find 0 k.cpdn chan = id) :
    Tbl.find 0 (k.retire chan id).cpdn chan = (id + 1) % 2 ^ 32 ∧ (k.retire chan id).retired = [] := by
  subst hn
  simp [Core.retire, hr, advanceCpdn]

theorem retire_ahead {k : Core} {chan id : Nat} (hr : k.retired = []) (hn : Tbl.find 0 k.cpdn chan ≠ id) :
    (k.retire chan id).cpdn = k.cpdn ∧ (k.retire chan id).retired = [(chan, id)] := by
  simp [Core.retire, hr, advanceCpdn, hn]

/-- Settles O37: what the events of a channel do with its oldest released transfer (`transfer_steps`, `cpStep_*`), the chunks of each
kind, chunks to a scratchpad (`fill_answers`, `copy_answers`), and completion (`cpComplete_eq`). -/
theorem copyTransfers : Obligations.CopyTransfers := by
  unfold Obligations.CopyTransfers
  refine ⟨?transfer, ?chunk, fun s c e h => sampleGath_kept h, fun s c e hk hg hlt => sampleGath_reads s c hk hg hlt,
    fun s c e ch src dst req hu hd => copyChunk_under hu hd, ?idle, ?run, fun s c e h => nextChunk_kinds s c h,
    fun sa da n => plainChunk_spec sa da n, ?fill, ?copy, ?complete, fun k chan id hr hn _ => retire_next hr hn,
    fun k chan id hr hn => retire_ahead hr hn⟩
  case transfer => exact fun s c chan e ev hw hn h => transfer_steps (transfers_of_kind h) hw hn
  case chunk =>
    intro s c chan e hw hn
    have ho : Occurs (.copyChunk c chan) s (s.cpChunk c chan) := occurs_event (f := fun s => s.cpChunk c chan) rfl hw
    rw [cpChunk_eq hn] at ho
    exact ⟨fun h => by rwa [cpStep_ends h] at ho, fun s1 e1 ch hg h hh => by rwa [cpStep_chunk hg h hh] at ho⟩
  case idle =>
    intro s c chan hw hn
    have ho : Occurs (.copyChunk c chan) s (s.cpChunk c chan) := occurs_event (f := fun s => s.cpChunk c chan) rfl hw
    rwa [cpChunk_idle hn] at ho
  case run => exact fun s c chan e sel n hn hsel x hx ho => cpRun_goes_on hn hsel hx ho n
  case fill => exact fun s c chan e w i da m k o a hw hn hin hd hu _ hh hk hc hx => fill_answers hw hn hin hd hu hh hk hc hx
  case copy =>
    exact fun s c chan e sa da m j i k o a b hw hn hin hd hu _ hh holds hap hi ho hg hc hs hx =>
      copy_answers hw hn hin hd hu hh holds hap hi ho hg hc hs hx
  case complete =>
    intro s c chan e hw hq
    refine ⟨fun hf => completion_occurs hw ?_, fun hf hs => completion_done hw hq hf hs,
      fun hf hs hc hh t hg => completion_stopped hw hq hf hs hc hh hg⟩
    simp only [State.cpComplete, hq, hf, Bool.not_false, if_true]

end Machine
end Sys2Proof
end

section
/-! PROOF. What the hypervisor does to pages: fills, invalidations, moves, copies on write, tags (13_memory_hierarchy.md R238, R239, R241;
24_protection.md R339 to R342): O38. -/

namespace Sys2Proof
namespace Machine

open Safety

/-! ## Bytes in memory -/

theorem rdByte_wrBytes (s : State) (a : Nat) (bs : List Byte) (x : Nat) :
    (s.wrBytes a bs).rdByte x = if a ≤ x ∧ x < a + bs.length then bs.getD (x - a) 0 else s.rdByte x := by
  have key (bs : List Byte) (n : Nat) (s : State) : ((bs.zipIdx n).foldl (fun s e => s.wrByte (a + e.2) e.1) s).rdByte x =
      if a + n ≤ x ∧ x < a + n + bs.length then bs.getD (x - a - n) 0 else s.rdByte x := by
    induction bs generalizing n s with
    | nil => exact (if_neg fun h => by simp only [List.length_nil] at h; omega).symm
    | cons b bs ih =>
      rw [List.zipIdx_cons, List.foldl_cons, ih, State.rdByte_wrByte, List.length_cons]
      by_cases h0 : x = a + n
      · rw [if_neg (by omega), if_pos h0, if_pos (by omega), show x - a - n = 0 by omega, List.getD_cons_zero]
      · by_cases h1 : a + n ≤ x ∧ x < a + n + (bs.length + 1)
        · rw [if_pos h1, if_pos (by omega), show x - a - n = x - a - (n + 1) + 1 by omega, List.getD_cons_succ]
        · rw [if_neg h1, if_neg (by omega), if_neg h0]
  exact key bs 0 s

theorem rdByte_fresh {s : State} (h : s.wr = []) (a : Nat) : s.rdByte a = Memory.read s.mem a := by
  rw [State.rdByte, h]
  rfl

/-! ## The waits for a fill (13 R238 case 3) -/

/-- The wait of a slot for a page is over. -/
def Slot.endFill (gpa : Nat) (failed : Bool) (t : Slot) : Slot :=
  match t.wait with
  | .fill g => if samePage g gpa then { t with wait := .order, fillFailed := failed } else t
  | _ => t

theorem Slot.endFill_fill {t : Slot} {g gpa : Nat} {failed : Bool} (h : t.wait = .fill g) (hp : g / 65536 = gpa / 65536) :
    t.endFill gpa failed = { t with wait := .order, fillFailed := failed } := by
  simp only [Slot.endFill, h, samePage, hp, decide_true, if_true]

theorem Slot.endFill_idem (t : Slot) (gpa : Nat) (failed : Bool) : (t.endFill gpa failed).endFill gpa failed = t.endFill gpa failed := by
  cases hw : t.wait with
  | fill g =>
    by_cases hp : g / 65536 = gpa / 65536
    · rw [Slot.endFill_fill hw hp]
      rfl
    · have h : t.endFill gpa failed = t := by
        simp only [Slot.endFill, hw, samePage, hp, decide_false, Bool.false_eq_true, if_false]
      rw [h, h]
  | _ =>
    have h : t.endFill gpa failed = t := by simp only [Slot.endFill, hw]
    rw [h, h]

/-- The waits of a core's slots for a page are over. -/
def Core.endFill (gpa : Nat) (failed : Bool) (k : Core) : Core := { k with slots := k.slots.map fun e => (e.1, e.2.endFill gpa failed) }

theorem slot_endFill (k : Core) (gpa : Nat) (failed : Bool) (n : Nat) : (k.endFill gpa failed).slot n = (k.slot n).endFill gpa failed := by
  rw [Core.slot, Core.endFill, get?_map_snd, Core.slot]
  cases Tbl.get? k.slots n <;> rfl

theorem slot_foldl_endFill (gpa : Nat) (failed : Bool) (l : List Nat) (c n : Nat) : ∀ s : State,
    (l.foldl (fun s c => s.modCore c (Core.endFill gpa failed)) s).slot c n =
      if c ∈ l then (s.slot c n).endFill gpa failed else s.slot c n := by
  induction l with
  | nil => exact fun s => rfl
  | cons x l ih =>
    intro s
    have hx : (s.modCore x (Core.endFill gpa failed)).slot c n = if c = x then (s.slot c n).endFill gpa failed else s.slot c n := by
      rw [State.slot, State.core_modCore]
      split
      · next h => rw [slot_endFill, h]; rfl
      · rfl
    rw [List.foldl_cons, ih, hx]
    by_cases hc : c = x
    · rw [if_pos hc, Slot.endFill_idem, ite_self, if_pos (List.mem_cons.2 (.inl hc))]
    · rw [if_neg hc]
      exact if_congr (by rw [List.mem_cons, or_iff_right hc]) rfl rfl

theorem foldl_modCore_rest (f : Core → Core) (l : List Nat) : ∀ s : State,
    (l.foldl (fun s c => s.modCore c f) s).parts = s.parts ∧ (l.foldl (fun s c => s.modCore c f) s).clusters = s.clusters ∧
    (l.foldl (fun s c => s.modCore c f) s).wr = s.wr ∧ (l.foldl (fun s c => s.modCore c f) s).mem = s.mem := by
  induction l with
  | nil => exact fun s => ⟨rfl, rfl, rfl, rfl⟩
  | cons x l ih => exact fun s => ih (s.modCore x f)

/-- What a partition has once its waits for a page are over. -/
def Partition.endFill (gpa : Nat) (failed : Bool) (k : Partition) : Partition :=
  { k with
    faults := k.faults.filter fun g => !samePage g gpa
    feAsked := if failed then k.feAsked.map fun e => if samePage e.1 gpa then (e.1, true) else e
               else k.feAsked.filter fun e => !samePage e.1 gpa }

theorem endFill_eq (s : State) (p gpa : Nat) (failed : Bool) : s.endFill p gpa failed =
    (s.part p).cores.foldl (fun s c => s.modCore c (Core.endFill gpa failed)) (s.modPart p (Partition.endFill gpa failed)) := by
  unfold State.endFill
  extract_lets u
  have hu : u = s.modPart p (Partition.endFill gpa failed) := rfl
  clear_value u
  subst hu
  have hc : ((s.modPart p (Partition.endFill gpa failed)).part p).cores = (s.part p).cores := by
    rw [State.part_modPart_self]
    rfl
  rw [hc]
  rfl

/-- What the end of the waits for a page leaves: the partition's own faults, the slots that waited for it, and the rest as it was. -/
theorem endFill_spec (s : State) (p gpa : Nat) (failed : Bool) :
    (s.endFill p gpa failed).part p = (s.part p).endFill gpa failed ∧ (s.endFill p gpa failed).clusters = s.clusters ∧
    (s.endFill p gpa failed).wr = s.wr ∧ ∀ c n, c ∈ (s.part p).cores →
      (s.endFill p gpa failed).slot c n = (s.slot c n).endFill gpa failed := by
  rw [endFill_eq]
  obtain ⟨hp, hc, hw, -⟩ := foldl_modCore_rest (Core.endFill gpa failed) (s.part p).cores (s.modPart p (Partition.endFill gpa failed))
  refine ⟨?_, hc, hw, fun c n hin => ?_⟩
  · rw [State.part, hp]
    exact State.part_modPart_self _ p _
  · rw [slot_foldl_endFill, if_pos hin]
    rfl

theorem mem_endFill_faults (k : Partition) (gpa : Nat) (failed : Bool) (g : Nat) :
    g ∈ (k.endFill gpa failed).faults ↔ g ∈ k.faults ∧ g / 65536 ≠ gpa / 65536 := by
  simp only [Partition.endFill, List.mem_filter, samePage, Bool.not_eq_true', decide_eq_false_iff_not, ne_eq]

/-- Where nothing is parked a replay changes nothing that is seen. -/
theorem replayPart_nothing {s : State} {p : Nat} (h : ∀ k ∈ (s.part p).clusters, (s.cluster k).park = []) :
    ∃ x, s.replayPart p = { s with clusters := x } := by
  obtain ⟨all, hperm, -, hr⟩ := replayPart_spec s p
  have hnone : ((s.part p).clusters.flatMap fun k => (s.cluster k).park) = [] := List.flatMap_eq_nil_iff.2 h
  rw [hnone] at hperm
  rw [hr, hperm.eq_nil]
  exact foldl_modCluster_rest (fun k => k) (fun _ c => { c with park := [] }) (s.part p).clusters s

/-- Nor does a failed walk where nothing is parked. -/
theorem failParks_nothing {s : State} {p : Nat} (h : ∀ k ∈ (s.part p).clusters, (s.cluster k).park = []) (gpa : Nat) :
    ∃ x, s.failParks p gpa = { s with clusters := x } := by
  have key (l : List Nat) : ∀ s : State, (∀ k ∈ l, (s.cluster k).park = []) → ∃ x, l.foldl (fun s k =>
      let l := (s.cluster k).park
      let s := s.modCluster k fun c => { c with park := c.park.filter fun r => (r.waitsFill p gpa).isNone }
      l.foldl (fun s r => match r.waitsFill p gpa with | some gva => s.failParked r gva | none => s) s) s = { s with clusters := x } := by
    induction l with
    | nil => exact fun s _ => ⟨s.clusters, rfl⟩
    | cons k l ih =>
      intro s hs
      rw [List.foldl_cons]
      simp only [hs k List.mem_cons_self, List.foldl_nil]
      obtain ⟨x, hx⟩ := ih (s.modCluster k fun c => { c with park := c.park.filter fun r => (r.waitsFill p gpa).isNone }) fun j hj => by
        rw [cluster_modCluster]
        split
        · rw [hs k List.mem_cons_self]
          rfl
        · exact hs j (List.mem_cons_of_mem _ hj)
      exact ⟨x, hx⟩
  exact key (s.part p).clusters s h

/-- What the partition and its slots have once the waits for a page are over. -/
theorem endFill_over {s u t : State} {p gpa : Nat} {failed : Bool} (hup : u.parts = s.parts) (huc : u.cores = s.cores)
    (htp : t.parts = (u.endFill p gpa failed).parts) (htc : t.cores = (u.endFill p gpa failed).cores) :
    (∀ g, g ∈ (t.part p).faults ↔ g ∈ (s.part p).faults ∧ g / 65536 ≠ gpa / 65536) ∧
    (∀ c n g, c ∈ (s.part p).cores → (s.slot c n).wait = .fill g → g / 65536 = gpa / 65536 →
      (t.slot c n).wait = .order ∧ (t.slot c n).fillFailed = failed) := by
  obtain ⟨hp, -, -, hslot⟩ := endFill_spec u p gpa failed
  have hpart : u.part p = s.part p := by rw [State.part, State.part, hup]
  refine ⟨fun g => ?_, fun c n g hin hwait hpage => ?_⟩
  · have ht : t.part p = (s.part p).endFill gpa failed := by rw [← hpart, ← hp, State.part, State.part, htp]
    rw [ht, mem_endFill_faults]
  · have ht : t.slot c n = (s.slot c n).endFill gpa failed := by
      rw [← hpart] at hin
      have h := hslot c n hin
      rw [State.slot, State.core, ← htc, State.slot, State.core, huc] at h
      exact h
    rw [ht, Slot.endFill_fill hwait hpage]
    exact ⟨rfl, rfl⟩

/-- A fill that the hypervisor writes. -/
theorem fillReply_answers {s : State} {p gpa addr : Nat} {w : W64} (hw : s.wr = []) (ha : addr + 8 ≤ hbmBytes)
    (hpark : ∀ k ∈ (s.part p).clusters, (s.cluster k).park = []) :
    Answers (exec (.stage2FillReply p gpa (.fill addr w)) s) fun t =>
      (∀ a, Memory.read t.mem a = if addr ≤ a ∧ a < addr + 8 then (leBytes 8 w.toNat).getD (a - addr) 0 else Memory.read s.mem a) ∧
      (∀ g, g ∈ (t.part p).faults ↔ g ∈ (s.part p).faults ∧ g / 65536 ≠ gpa / 65536) ∧
      (∀ c n g, c ∈ (s.part p).cores → (s.slot c n).wait = .fill g → g / 65536 = gpa / 65536 →
        (t.slot c n).wait = .order ∧ (t.slot c n).fillFailed = false) := by
  have hread (a : Nat) := rdByte_wrBytes s addr (leBytes 8 w.toNat) a
  simp only [leBytes_length, rdByte_fresh hw] at hread
  have ho : Occurs (.stage2FillReply p gpa (.fill addr w)) s (s.fillReply p gpa (.fill addr w)) :=
    occurs_event (f := fun s => s.fillReply p gpa (.fill addr w)) rfl hw
  have hf : s.fillReply p gpa (.fill addr w) = ((s.wrBytes addr (leBytes 8 w.toNat)).endFill p gpa false).replayPart p := if_pos ha
  rw [hf] at ho
  obtain ⟨wr, l, f, hu⟩ := wrBytes_homeStep s addr (leBytes 8 w.toNat)
  have hup : (s.wrBytes addr (leBytes 8 w.toNat)).parts = s.parts := by rw [hu]
  have huc : (s.wrBytes addr (leBytes 8 w.toNat)).cores = s.cores := by rw [hu]
  have hucl : (s.wrBytes addr (leBytes 8 w.toNat)).clusters = s.clusters := by rw [hu]
  have hum : (s.wrBytes addr (leBytes 8 w.toNat)).mem = s.mem := by rw [hu]
  generalize s.wrBytes addr (leBytes 8 w.toNat) = u at ho hread hup huc hucl hum
  obtain ⟨hp, hc, hwr, -⟩ := endFill_spec u p gpa false
  obtain ⟨x, hx⟩ := replayPart_nothing (s := u.endFill p gpa false) (p := p) fun k hk => by
    rw [hp, State.part, hup] at hk
    rw [State.cluster, hc, hucl]
    exact hpark k hk
  rw [hx] at ho
  refine ⟨_, ho, fun a => ?_, endFill_over hup huc rfl rfl⟩
  rw [read_settleMem, ← hread]
  exact rdByte_congr (t := { u.endFill p gpa false with clusters := x, mem := s.mem, plat := s.plat }) hwr hum.symm a

/-- A fill that the hypervisor fails. -/
theorem fillFail_answers {s : State} {p gpa : Nat} (hw : s.wr = []) (hpark : ∀ k ∈ (s.part p).clusters, (s.cluster k).park = []) :
    Answers (exec (.stage2FillReply p gpa .fail) s) fun t =>
      t.mem = s.mem ∧ (∀ g, g ∈ (t.part p).faults ↔ g ∈ (s.part p).faults ∧ g / 65536 ≠ gpa / 65536) ∧
      (∀ c n g, c ∈ (s.part p).cores → (s.slot c n).wait = .fill g → g / 65536 = gpa / 65536 →
        (t.slot c n).wait = .order ∧ (t.slot c n).fillFailed = true) := by
  obtain ⟨x, hx⟩ := failParks_nothing hpark gpa
  have hf : s.fillReply p gpa .fail = ({ s with clusters := x } : State).endFill p gpa true := congrArg (State.endFill · p gpa true) hx
  obtain ⟨-, -, hwr, -⟩ := endFill_spec ({ s with clusters := x } : State) p gpa true
  refine answers_event (f := fun s => s.fillReply p gpa .fail) rfl hw ?_ ?_
  · show (s.fillReply p gpa .fail).wr = []
    rw [hf]
    exact hwr.trans hw
  · show _ ∧ _
    rw [hf]
    exact ⟨rfl, endFill_over (u := { s with clusters := x }) rfl rfl rfl rfl⟩

/-! ## Invalidations (R239 case 2) -/

section
variable {s : State} {p g : Nat}

theorem invalidate2_waits (h : s.walksOpen p ≠ [] ∨ s.nearIn p = true) (gpa : Option Nat) : s.invalidate2 p gpa = s := by
  refine if_pos ?_
  rcases h with h | h
  · rw [List.isEmpty_eq_false_iff.2 h]
    rfl
  · rw [h, Bool.or_true]

/-- The size of the page that an invalidation takes an address to lie in: the largest of a dropped translation and of the tables. -/
def State.dropSize (s : State) (p g : Nat) : Nat :=
  ((s.cores.flatMap fun e => e.2.tlb) ++ s.clusters.flatMap fun e => e.2.tlb).foldl
    (fun m t => if t.part == p && decide (t.gpa / t.s2size = g / t.s2size) then Nat.max m t.s2size else m) (s.pageSize2 p g)

variable (hw : s.walksOpen p = []) (hn : s.nearIn p = false)
include hw hn

theorem invalidate2_page : s.invalidate2 p (some g) = if s.pinned p (fun q => q.uses2 g) then s else
    (s.dropTlb fun t => t.uses2 p g).relocate p fun a => decide (a / s.dropSize p g = g / s.dropSize p g) := by
  unfold State.invalidate2
  refine (if_neg ?_).trans rfl
  rw [hw, hn]
  exact Bool.false_ne_true

theorem invalidate2_all : s.invalidate2 p none = if s.pinned p (fun _ => true) then s else
    (s.dropTlb fun t => t.part == p).relocate p fun _ => true := by
  unfold State.invalidate2
  refine (if_neg ?_).trans rfl
  rw [hw, hn]
  exact Bool.false_ne_true

end

theorem core_dropTlb (s : State) (drop : TlbEnt → Bool) (c : Nat) :
    (s.dropTlb drop).core c = { s.core c with tlb := (s.core c).tlb.filter fun t => !drop t } := by
  rw [State.core, State.dropTlb, State.core]
  dsimp only
  rw [get?_map_snd fun k : Core => { k with tlb := k.tlb.filter fun t => !drop t }]
  cases Tbl.get? s.cores c <;> rfl

theorem cluster_dropTlb (s : State) (drop : TlbEnt → Bool) (k : Nat) :
    (s.dropTlb drop).cluster k = { s.cluster k with tlb := (s.cluster k).tlb.filter fun t => !drop t } := by
  rw [State.cluster, State.dropTlb, State.cluster]
  dsimp only
  rw [get?_map_snd fun x : Cluster => { x with tlb := x.tlb.filter fun t => !drop t }]
  cases Tbl.get? s.clusters k <;> rfl

/-- An entry at the place that stage 2 has for it now. -/
def State.entryNow (s : State) (p : Nat) (sel : Nat → Bool) (e : Entry) : Entry := { e with loc := s.placeNow p sel e.access e.loc }

/-- A service message at the place that stage 2 has for it now. -/
def State.svcNow (s : State) (p : Nat) (sel : Nat → Bool) (r : SvcReq) : SvcReq := { r with loc := s.placeNow p sel r.access r.loc }

/-- A core whose entries and service messages are where stage 2 has them now. -/
def State.coreNow (s : State) (p : Nat) (sel : Nat → Bool) (k : Core) : Core :=
  { k with
    slots := k.slots.map fun e => (e.1, { e.2 with buf := e.2.buf.map (s.entryNow p sel) })
    flight := k.flight.map fun f => { f with e := s.entryNow p sel f.e }
    svcq := k.svcq.map (s.svcNow p sel)
    serving := k.serving.map (s.svcNow p sel) }

/-- A cluster whose parked requests are where stage 2 has them now. -/
def State.clusterNow (s : State) (p : Nat) (sel : Nat → Bool) (k : Cluster) : Cluster :=
  { k with park := k.park.map fun r => { r with loc := s.placeNow p sel .read r.loc } }

theorem relocate_eq (s : State) (p : Nat) (sel : Nat → Bool) : s.relocate p sel =
    { s with
      cores := s.cores.map fun e => (e.1, s.coreNow p sel e.2)
      clusters := s.clusters.map fun e => (e.1, s.clusterNow p sel e.2) } := rfl

/-- What is translated anew of a core: its cached translations stay, its entries on their way are where stage 2 has them now. -/
theorem core_relocate (s : State) (p : Nat) (sel : Nat → Bool) (c : Nat) :
    ((s.relocate p sel).core c).tlb = (s.core c).tlb ∧
    ((s.relocate p sel).core c).flight = (s.core c).flight.map fun f => { f with e := s.entryNow p sel f.e } := by
  rw [relocate_eq, State.core, get?_map_snd (s.coreNow p sel), State.core]
  cases Tbl.get? s.cores c <;> exact ⟨rfl, rfl⟩

theorem cluster_relocate_tlb (s : State) (p : Nat) (sel : Nat → Bool) (k : Nat) : ((s.relocate p sel).cluster k).tlb = (s.cluster k).tlb := by
  rw [relocate_eq, State.cluster, get?_map_snd (s.clusterNow p sel), State.cluster]
  cases Tbl.get? s.clusters k <;> rfl

/-- Where an entry at an address of the page is once it is translated anew. -/
theorem placeNow_page {s : State} {p g gva ph : Nat} {sel : Nat → Bool} (hs : sel g = true) (acc : Access) :
    let q := (s.stage2 p g).2
    (q = none → s.placeNow p sel acc (.hbm p ph gva g) = .unmapped p gva g) ∧
    (∀ pa size e, q = some (pa, size, e) → lacks acc.needs (pteR e) (pteW e) (pteA e) = false →
      s.placeNow p sel acc (.hbm p ph gva g) = .hbm p pa gva g) := by
  intro q
  refine ⟨fun hq => ?_, fun pa size e hq hl => ?_⟩
  · simp only [State.placeNow, hs, and_self, if_true, show (s.stage2 p g).2 = none from hq]
  · simp only [State.placeNow, hs, and_self, if_true, show (s.stage2 p g).2 = some (pa, size, e) from hq, hl, Bool.false_eq_true, if_false]

/-- What the invalidation of a page leaves. -/
structure Invalidated (s t : State) (p g : Nat) : Prop where
  wr : t.wr = s.wr
  core : ∀ c, (t.core c).tlb = (s.core c).tlb.filter fun x => !x.uses2 p g
  cluster : ∀ k, (t.cluster k).tlb = (s.cluster k).tlb.filter fun x => !x.uses2 p g
  flight : ∀ c f ph gva, f ∈ (s.core c).flight → f.e.loc = .hbm p ph gva g →
    let q := ((s.dropTlb fun x => x.uses2 p g).stage2 p g).2
    ∃ f' ∈ (t.core c).flight, f'.e.id = f.e.id ∧ f'.st = f.st ∧
      (q = none → f'.e.loc = .unmapped p gva g) ∧
      (∀ pa size e, q = some (pa, size, e) → lacks f.e.access.needs (pteR e) (pteW e) (pteA e) = false → f'.e.loc = .hbm p pa gva g)

theorem relocate_invalidated (s : State) {p g : Nat} {sel : Nat → Bool} (hs : sel g = true) :
    Invalidated s ((s.dropTlb fun t => t.uses2 p g).relocate p sel) p g := by
  refine ⟨rfl, fun c => ?_, fun k => ?_, fun c f ph gva hin hloc => ?_⟩
  · rw [(core_relocate _ p sel c).1, core_dropTlb]
  · rw [cluster_relocate_tlb, cluster_dropTlb]
  · intro q
    have hplace := placeNow_page (s := s.dropTlb fun x => x.uses2 p g) (p := p) (gva := gva) (ph := ph) hs f.e.access
    have hflight := (core_relocate (s.dropTlb fun t => t.uses2 p g) p sel c).2
    rw [core_dropTlb] at hflight
    rw [hflight]
    refine ⟨{ f with e := (s.dropTlb fun x => x.uses2 p g).entryNow p sel f.e }, List.mem_map.2 ⟨f, hin, rfl⟩, rfl, rfl, fun hq => ?_,
      fun pa size e hq hl => ?_⟩
    · rw [← hplace.1 hq, ← hloc]
      rfl
    · rw [← hplace.2 pa size e hq hl, ← hloc]
      rfl

theorem invalidation_answers {s : State} {p g : Nat} (hwr : s.wr = []) (hw : s.walksOpen p = []) (hn : s.nearIn p = false)
    (hpin : s.pinned p (fun q => q.uses2 g) = false) :
    Answers (exec (.stage2Invalidation p (some g)) s) fun t =>
      t.mem = s.mem ∧ (∀ c, (t.core c).tlb = (s.core c).tlb.filter fun x => !x.uses2 p g) ∧
      (∀ k, (t.cluster k).tlb = (s.cluster k).tlb.filter fun x => !x.uses2 p g) ∧
      (∀ c f ph gva, f ∈ (s.core c).flight → f.e.loc = .hbm p ph gva g →
        let q := ((s.dropTlb fun x => x.uses2 p g).stage2 p g).2
        ∃ f' ∈ (t.core c).flight, f'.e.id = f.e.id ∧ f'.st = f.st ∧
          (q = none → f'.e.loc = .unmapped p gva g) ∧
          (∀ pa size e, q = some (pa, size, e) → lacks f.e.access.needs (pteR e) (pteW e) (pteA e) = false →
            f'.e.loc = .hbm p pa gva g)) := by
  have hinv : Invalidated s (s.invalidate2 p (some g)) p g := by
    rw [(invalidate2_page hw hn).trans (if_neg (ne_true_of_eq_false hpin))]
    exact relocate_invalidated s (decide_eq_true rfl)
  obtain ⟨hwr', hcore, hcluster, hflight⟩ := hinv
  exact answers_event (f := fun s => s.invalidate2 p (some g)) rfl hwr (hwr'.trans hwr) ⟨rfl, hcore, hcluster, hflight⟩

/-! ## Page moves (R241; 24 R341) -/

theorem movePage_eq {s s1 : State} {p gpa frame pa size : Nat} {e : W64} (h2 : s.stage2 p gpa = (s1, some (pa, size, e)))
    (hal : frame % size = 0) (hin : frame + size ≤ hbmBytes) (hm : (s1.part p).moves gpa = false)
    (hc : (s1.part p).cow.contains (gpa / 65536) = false) : s.movePage p gpa frame =
      (s1.modPart p fun k => { k with migrating := Tbl.set k.migrating (gpa / size * size) (frame, size) }).copyFrame p
        (pa - gpa % size) frame size := by
  unfold State.movePage
  rw [h2]
  refine if_neg ?_
  rintro (h | h | h | h)
  · exact h hal
  · exact Nat.not_lt.2 hin h
  · exact ne_true_of_eq_false hm h
  · exact ne_true_of_eq_false hc h

theorem mergeFrame_whole {s : State} (h : ∀ l ∈ s.lines, l.2.partials = []) (base n : Nat) : s.mergeFrame base n = s := by
  have hline (ln : Nat) : (s.line ln).partials = [] := by
    rw [State.line]
    cases hg : Tbl.get? s.lines ln with
    | none => rfl
    | some l => exact h _ (mem_of_get? hg)
  have key (ls : List (Nat × Line)) :
      ls.foldl (fun s l => if base / 128 ≤ l.1 ∧ l.1 < (base + n) / 128 then s.mergeLine l.1 else s) s = s := by
    induction ls with
    | nil => rfl
    | cons l ls ih => rw [List.foldl_cons, mergeLine_whole (hline l.1), ite_self, ih]
  exact key s.lines

theorem moveTags_rest (s : State) (p src dst n : Nat) : (s.moveTags p src dst n).wr = s.wr ∧ (s.moveTags p src dst n).mem = s.mem := by
  unfold State.moveTags
  refine foldl_of_step (fun s t : State => t.wr = s.wr ∧ t.mem = s.mem) (fun _ => ⟨rfl, rfl⟩)
    (fun _ _ _ h g => ⟨g.1.trans h.1, g.2.trans h.2⟩) (fun s i => ?_) _ s
  dsimp only
  split <;> exact ⟨rfl, rfl⟩

theorem rdByte_l1Clear (s : State) (base n a : Nat) : (s.l1Clear base n).rdByte a = s.rdByte a := rdByte_congr rfl rfl a

/-- Bytes written at places of a frame. -/
theorem rdByte_foldl_wrByte (dst : Nat) (v : Nat → Byte) (offs : List Nat) (o : Nat) : ∀ s : State,
    ((offs.map fun o => (o, v o)).foldl (fun s e => s.wrByte (dst + e.1) e.2) s).rdByte (dst + o) =
      if o ∈ offs then v o else s.rdByte (dst + o) := by
  induction offs with
  | nil => exact fun s => rfl
  | cons x l ih =>
    intro s
    rw [List.map_cons, List.foldl_cons, ih, State.rdByte_wrByte]
    by_cases hx : o = x
    · subst hx
      rw [if_pos rfl, ite_self, if_pos List.mem_cons_self]
    · rw [if_neg (show ¬dst + o = dst + x by omega)]
      exact if_congr (by rw [List.mem_cons, or_iff_right hx]) rfl rfl

/-- The addresses of which memory, or a write of this step, holds a byte. -/
def State.known (s : State) : List Nat := s.mem.map (·.1) ++ s.wr.map (·.1)

/-- The offsets of a frame at which its source or its destination has a byte. -/
def State.frameOffs (s : State) (src dst n : Nat) : List Nat :=
  ((s.known.filter fun a => decide (src ≤ a ∧ a < src + n)).map (· - src)
    ++ (s.known.filter fun a => decide (dst ≤ a ∧ a < dst + n)).map (· - dst)).dedup

/-- The bytes of a frame written to another. -/
def State.writeFrame (s : State) (src dst n : Nat) : State :=
  ((s.frameOffs src dst n).map fun o => (o, s.rdByte (src + o))).foldl (fun s e => s.wrByte (dst + e.1) e.2) s

theorem copyFrame_eq {s : State} (h : ∀ l ∈ s.lines, l.2.partials = []) (p src dst n : Nat) :
    s.copyFrame p src dst n = (((s.writeFrame src dst n).moveTags p src dst n).l1Clear src n).l1Clear dst n := by
  unfold State.copyFrame
  rw [mergeFrame_whole h]
  rfl

theorem of_not_mem_frameOffs {s : State} {src dst n o : Nat} (ho : o < n) (h : o ∉ s.frameOffs src dst n) :
    src + o ∉ s.known ∧ dst + o ∉ s.known := by
  rw [State.frameOffs, List.mem_dedup, List.mem_append, not_or] at h
  refine ⟨fun hk => h.1 (List.mem_map.2 ⟨src + o, List.mem_filter.2 ⟨hk, ?_⟩, Nat.add_sub_cancel_left _ _⟩),
    fun hk => h.2 (List.mem_map.2 ⟨dst + o, List.mem_filter.2 ⟨hk, ?_⟩, Nat.add_sub_cancel_left _ _⟩)⟩
  · exact decide_eq_true (by omega)
  · exact decide_eq_true (by omega)

theorem rdByte_unknown {s : State} {a : Nat} (h : a ∉ s.known) : s.rdByte a = 0 := by
  obtain ⟨hm, hw⟩ := not_or.1 fun hor => h (List.mem_append.2 hor)
  have hfind : (s.wr.find? fun e => e.1 == a) = none := by
    exact List.find?_eq_none.2 fun e he h => hw (List.mem_map.2 ⟨e, he, beq_iff_eq.1 h⟩)
  have hread : Tbl.get? s.mem a = none := by
    cases hg : Tbl.get? s.mem a with
    | none => rfl
    | some v => exact absurd (List.mem_map.2 ⟨(a, v), mem_of_get? hg, rfl⟩) hm
  rw [State.rdByte, hfind]
  show (Tbl.get? s.mem a).getD _ = _
  rw [hread]
  rfl

/-- A copied frame holds the bytes of its source. -/
theorem rdByte_copyFrame {s : State} {p src dst n o : Nat} (ho : o < n) (h : ∀ l ∈ s.lines, l.2.partials = []) :
    (s.copyFrame p src dst n).rdByte (dst + o) = s.rdByte (src + o) := by
  rw [copyFrame_eq h]
  obtain ⟨hw, hm⟩ := moveTags_rest (s.writeFrame src dst n) p src dst n
  rw [rdByte_l1Clear, rdByte_l1Clear, rdByte_congr hw hm]
  refine (rdByte_foldl_wrByte dst (fun o => s.rdByte (src + o)) _ o s).trans ?_
  by_cases hin : o ∈ s.frameOffs src dst n
  · exact if_pos hin
  · obtain ⟨hs, hd⟩ := of_not_mem_frameOffs ho hin
    rw [if_neg hin, rdByte_unknown hs, rdByte_unknown hd]

/-- A page that moves is at its new frame once its entry names it. -/
theorem movePageDone_eq {s : State} {p gpa base frame size : Nat}
    (h : (s.part p).migrating.find? (fun e => decide (e.1 ≤ gpa ∧ gpa < e.1 + e.2.2)) = some (base, frame, size)) :
    s.movePageDone p gpa = if s.pinned p (fun q => q.uses2 base) then s else
      ((((s.repoint p base frame).dropTlb fun t => t.uses2 p base).relocate p fun a => decide (base ≤ a ∧ a < base + size)).modPart
          p fun k => { k with migrating := Tbl.del k.migrating base }).replayPart p := by
  unfold State.movePageDone
  rw [h]

theorem repoint_leaf {s : State} {p base frame a size : Nat} {e : W64} (hs : (s.part p).snapEntry? base = none)
    (hl : leaf2 base s (s.ctx (s.part p).ctx).s2root levels = some (a, size, e)) :
    s.repoint p base frame = s.wrBytes a (leBytes 8 (e.toNat - pteAddr e + frame)) := by
  simp only [State.repoint, hs, hl]

theorem repoint_snap {s : State} {p base a : Nat} (frame : Nat) (hs : (s.part p).snapEntry? base = some a) :
    s.repoint p base frame =
      let x := s.snapEntry a
      let shift := if bitAt x 24 then 48 else 0
      if hbmBytes < a + 16 then s
      else s.wrBytes a (leBytes 16 (x.toNat - field x (shift + 23) shift * 2 ^ shift + frame / 65536 % 2 ^ 24 * 2 ^ shift)) := by
  simp only [State.repoint, hs]

/-! ## Copies on write (24 R340) -/

section
variable {s : State} {p page a : Nat}

theorem cowDone_pinned (h : s.pinned p (fun q => q.uses2 (65536 * page)) = true) : s.cowDone p page = s := by
  unfold State.cowDone
  extract_lets gpa k
  refine if_pos ?_
  rw [show s.pinned p (fun q => q.uses2 gpa) = true from h, Bool.or_true]

variable (hc : (s.part p).cow.contains page = true) (hm : (s.part p).moves (65536 * page) = false)
  (hs : (s.part p).snapEntry? (65536 * page) = some a)
include hc hm hs

/-- A copy on write whose page nothing pins: it is not made into a frame beyond HBM. -/
theorem cowDone_eq (hp : s.pinned p (fun q => q.uses2 (65536 * page)) = false) : s.cowDone p page =
    let x := s.snapEntry a
    let live := bitAt x 24
    let y := x.toNat % 2 ^ 96 + ((s.part p).snapEpoch + 1) % 2 ^ 32 * 2 ^ 96
    let s1 := s.copyFrame p (snapFrame x live) (snapFrame x !live) 65536
    if hbmBytes < snapFrame x (!live) + 65536 ∨ hbmBytes < a + 16 then s else
      ((((s1.wrBytes a (leBytes 16 (if live then y - 2 ^ 24 else y + 2 ^ 24))).dropTlb fun t =>
          t.uses2 p (65536 * page)).relocate p fun g => decide (g / 65536 = page)).modPart p fun k =>
          { k with cow := k.cow.filter (· != page) }).replayPart p := by
  have hsame : (fun a => samePage a (65536 * page)) = fun g => decide (g / 65536 = page) := by
    funext g
    rw [samePage, Nat.mul_div_cancel_left page (by decide)]
  unfold State.cowDone
  simp only [hc, hm, hp, hs, Bool.not_true, Bool.or_self, Bool.false_eq_true, if_false, hsame]

end

/-! ## Tags (24 R342) -/

/-- A line of a range that is written for a partition is tagged: a step of `tagLines`. -/
def tagLine (p phys n : Nat) (s : State) (l : Nat × Nat) : State :=
  let whole := decide (phys ≤ 128 * l.1 ∧ 128 * l.1 + 128 ≤ phys + n)
  let k := s.line l.1
  let new : Line := if !whole && s.foreign p (128 * l.1) then { k with bad := true }
    else { k with key := (s.keyOf p).map fun x => (x, p), bad := false }
  if new = k then s else s.setLine l.1 new

theorem tagLines_eq (s : State) (p phys n : Nat) : s.tagLines p phys n = (linesOf phys 0 n).foldl (tagLine p phys n) s := rfl

theorem foreign_eq (s : State) (p a : Nat) : s.foreign p (128 * a) = ((s.line a).bad || match (s.line a).key, s.keyOf p with
    | some a, some b => a != (b, p)
    | _, _ => false) := by
  rw [State.foreign, Nat.mul_div_cancel_left a (by decide)] <;> rfl

theorem foreign_tagLine_same (s : State) {p phys n a : Nat} (o : Nat) (h1 : phys ≤ 128 * a) (h2 : 128 * a + 128 ≤ phys + n) :
    (tagLine p phys n s (a, o)).foreign p (128 * a) = false := by
  have hline : (tagLine p phys n s (a, o)).line a = { s.line a with key := (s.keyOf p).map fun x => (x, p), bad := false } ∧
      (tagLine p phys n s (a, o)).keyOf p = s.keyOf p := by
    unfold tagLine
    simp only [h1, h2, and_self, decide_true, Bool.not_true, Bool.false_and, Bool.false_eq_true, if_false]
    split
    · next h => exact ⟨h.symm, rfl⟩
    · exact ⟨(State.line_setLine s a a _).trans (if_pos rfl), rfl⟩
  rw [foreign_eq, hline.1, hline.2]
  cases s.keyOf p with
  | none => rfl
  | some x => exact bne_self_eq_false _

theorem foreign_tagLine_ne (s : State) {p phys n a : Nat} {l : Nat × Nat} (h : a ≠ l.1) :
    (tagLine p phys n s l).foreign p (128 * a) = s.foreign p (128 * a) := by
  rw [foreign_eq, foreign_eq]
  unfold tagLine
  extract_lets whole k new
  clear_value new
  split
  · rfl
  · rw [State.line_setLine, if_neg h]
    rfl

/-- A line that is written whole for a partition bears its tag. -/
theorem foreign_tagLines (s : State) {p phys n a : Nat} (h1 : phys ≤ 128 * a) (h2 : 128 * a + 128 ≤ phys + n) :
    (s.tagLines p phys n).foreign p (128 * a) = false := by
  have key (ls : List (Nat × Nat)) : ∀ s : State, s.foreign p (128 * a) = false ∨ (∃ l ∈ ls, l.1 = a) →
      (ls.foldl (tagLine p phys n) s).foreign p (128 * a) = false := by
    induction ls with
    | nil => exact fun s h => h.resolve_right fun ⟨_, hl, _⟩ => nomatch hl
    | cons l ls ih =>
      intro s h
      rw [List.foldl_cons]
      refine ih _ ?_
      by_cases hl : a = l.1
      · subst hl
        exact .inl (foreign_tagLine_same s l.2 h1 h2)
      · rw [foreign_tagLine_ne s hl]
        refine h.imp_right fun ⟨x, hx, he⟩ => ?_
        rcases List.mem_cons.1 hx with rfl | hx
        · exact absurd he.symm hl
        · exact ⟨x, hx, he⟩
  rw [tagLines_eq]
  refine key _ s (.inr ⟨(a, _), List.mem_map.2 ⟨a - phys / 128, mem_upto.2 (by omega), Prod.ext (by dsimp only; omega) rfl⟩, rfl⟩)

/-- Settles O38: fills (`fillReply_answers`, `fillFail_answers`), invalidations (`invalidate2_page`, `relocate_invalidated`), page moves
(`movePage_eq`, `rdByte_copyFrame`, `movePageDone_eq`), copies on write (`cowDone_eq`), and the tags of written lines. -/
theorem pageEvents : Obligations.PageEvents := by
  unfold Obligations.PageEvents
  refine ⟨fun s p gpa addr w hw ha hpark => fillReply_answers hw ha hpark, fun s p gpa hw hpark _ => fillFail_answers hw hpark, ?waits,
    ?invalidation, ?move, fun s p src dst n o ho h => rdByte_copyFrame ho h, ?moved, fun s p base frame a size e hs hl => repoint_leaf hs hl,
    ?snap, ?cow, ?sealed, fun s p phys n a h1 h2 => foreign_tagLines s h1 h2⟩
  case waits =>
    intro s p g hw h
    have hocc (gpa : Option Nat) : Occurs (.stage2Invalidation p gpa) s s := by
      have ho : Occurs (.stage2Invalidation p gpa) s (s.invalidate2 p gpa) := occurs_event (f := fun s => s.invalidate2 p gpa) rfl hw
      rwa [invalidate2_waits h] at ho
    exact ⟨hocc (some g), hocc none⟩
  case invalidation =>
    intro s p g hwr hw hn
    have hocc (gpa : Option Nat) : Occurs (.stage2Invalidation p gpa) s (s.invalidate2 p gpa) :=
      occurs_event (f := fun s => s.invalidate2 p gpa) rfl hwr
    have hpage := hocc (some g)
    have hall := hocc none
    rw [invalidate2_page hw hn] at hpage
    rw [invalidate2_all hw hn] at hall
    exact ⟨fun h => by rwa [if_pos h] at hpage, fun h => invalidation_answers hwr hw hn h, fun h => by rwa [if_pos h] at hall,
      fun h => by rwa [if_neg (ne_true_of_eq_false h)] at hall⟩
  case move =>
    intro s s1 p gpa frame pa size e hw h2 hal hin hm hc
    have ho : Occurs (.pageMigration p gpa frame) s (s.movePage p gpa frame) := occurs_event (f := fun s => s.movePage p gpa frame) rfl hw
    rwa [movePage_eq h2 hal hin hm hc] at ho
  case moved =>
    intro s p gpa base frame size hw h
    have ho : Occurs (.pageMigrationComplete p gpa) s (s.movePageDone p gpa) := occurs_event (f := fun s => s.movePageDone p gpa) rfl hw
    rw [movePageDone_eq h] at ho
    exact ⟨fun hp => by rwa [if_pos hp] at ho, fun hp => by rwa [if_neg (ne_true_of_eq_false hp)] at ho⟩
  case snap =>
    intro s p base frame a hs
    have h := repoint_snap frame hs
    exact ⟨fun hb => h.trans (if_pos hb), fun hb => h.trans (if_neg (Nat.not_lt.2 hb))⟩
  case cow =>
    intro s p page a hw hc hm hs x live
    have ho : Occurs (.copyOnWriteComplete p page) s (s.cowDone p page) := occurs_event (f := fun s => s.cowDone p page) rfl hw
    refine ⟨fun hp => by rwa [cowDone_pinned hp] at ho, fun hb => ?_, fun hp h1 h2 => ?_⟩
    · cases hp : s.pinned p fun q => q.uses2 (65536 * page) with
      | true => rwa [cowDone_pinned hp] at ho
      | false => rwa [(cowDone_eq hc hm hs hp).trans (if_pos hb)] at ho
    · intro y s1
      rwa [(cowDone_eq hc hm hs hp).trans (if_neg (not_or.2 ⟨Nat.not_lt.2 h1, Nat.not_lt.2 h2⟩))] at ho
  case sealed =>
    intro e epoch
    rw [sealedFrame]
    split <;> rfl

end Machine
end Sys2Proof
end

section
/-! PROOF. Rings, launches, releases and the end of a launch (02_describing_work.md R30; 03_launching.md R41 to R57): O39. -/

namespace Sys2Proof
namespace Machine

open Safety

/-! ## A visit to a ring (R41, R42) -/

section
variable {s : State} {ctx n p : Nat}

theorem ringVisit_idle (hp : s.residentIn? ctx = some p)
    (h : s.managed = false ∨ ((s.ctx ctx).ring n).en = false ∨ ((s.ctx ctx).ring n).served = false) : s.ringVisit ctx n = s := by
  simp only [State.ringVisit, hp]
  refine if_pos ?_
  rcases h with h | h | h
  · rw [h]; rfl
  · rw [h, Bool.and_false]; rfl
  · rw [h, Bool.and_false]; rfl

/-- A ring without device launches takes the records up to its producer index, at most four. -/
theorem ringVisit_takes {s1 : State} {bs : List Byte} (hp : s.residentIn? ctx = some p) (hm : s.managed = true)
    (he : ((s.ctx ctx).ring n).en = true) (hs : ((s.ctx ctx).ring n).served = true) (hl : ((s.ctx ctx).ring n).log2n ≠ 0)
    (hc : ((s.ctx ctx).ring n).ctx = ctx) (hd : ((s.ctx ctx).ring n).devq = [])
    (hr : s.feRead p (w64 ((s.ctx ctx).ring n).ctrl) 68 = (s1, .got bs)) :
    let r := (s.ctx ctx).ring n
    let cons := leVal (bs.drop 64)
    let due := (leVal (bs.take 4) + 2 ^ 32 - cons) % 2 ^ 32
    s.ringVisit ctx n = if 2 ^ r.log2n < due then s1.modRingD ctx n fun r => { r with err := true, served := false }
      else State.takeRecords p ctx n r (Nat.min 4 due) cons s1 := by
  intro r cons due
  have hgo : ¬(!(s.managed && r.en && r.served && decide (r.log2n ≠ 0) && r.ctx == ctx)) = true := by
    rw [hm, show r.en = true from he, show r.served = true from hs, decide_eq_true hl, show r.ctx = ctx from hc, beq_self_eq_true]
    exact Bool.false_ne_true
  unfold State.ringVisit
  rw [hp]
  refine (if_neg hgo).trans ?_
  simp only [hd, State.takeDevices, List.isEmpty_nil, Bool.not_true, Bool.false_eq_true, if_false, hr] <;> rfl

end

theorem takeRecords_succ {p ctx n k cons code lid : Nat} {r : RingD} {s u v w : State}
    (ha : s.accept p ctx (w64 (r.base + 128 * (cons % 2 ^ r.log2n))) n (cons % 2 ^ r.log2n) none = (u, some (code, lid)))
    (hs : u.feWrite p (w64 (r.status + 16 * (cons % 2 ^ r.log2n))) (statusBytes s.time 0 (decide (code ≠ 0)) true code lid) = (v, .got []))
    (hc : v.feWrite p (w64 (r.ctrl + 64)) (leBytes 4 ((cons + 1) % 2 ^ 32)) = (w, .got [])) :
    State.takeRecords p ctx n r (k + 1) cons s = State.takeRecords p ctx n r k ((cons + 1) % 2 ^ 32) (w.ringServed ctx n) := by
  simp only [State.takeRecords, ha, hs, hc]

/-! ## Acceptance (R30, R43) -/

section
variable {s s1 : State} {p ctx n i : Nat} {a : W64} {d : Option DevLaunch} {bs : List Byte}
  (hr : s.feReadAll p 3 a 128 [] = (s1, .got bs))
include hr

theorem accept_refused {k : Nat} (hc : recordCase (s1.part p) (BitVec.ofNat 1024 (leVal bs)) bs = some k) :
    s.accept p ctx a n i d = (s1, some (k, 0)) := by
  simp only [State.accept, hr, hc]

theorem accept_enrols {s2 : State} {hd : List Byte} (hc : recordCase (s1.part p) (BitVec.ofNat 1024 (leVal bs)) bs = none)
    (hh : s1.readHead p (w64 (Rec.image (BitVec.ofNat 1024 (leVal bs)))) = (s2, .got hd))
    (hb : headerBad (BitVec.ofNat 1024 (leVal bs)) (hd.zipIdx.map fun e => (e.2, e.1)) = false)
    (hcl : classAbsent (hd.zipIdx.map fun e => (e.2, e.1)) (Rec.cls (BitVec.ofNat 1024 (leVal bs))) = false)
    (hu : Rec.signal (BitVec.ofNat 1024 (leVal bs)) = 0 ∨ (s2.ctx ctx).unraised < 4096) :
    s.accept p ctx a n i d = (s2.setCtx ctx ((s2.ctx ctx).enrol (BitVec.ofNat 1024 (leVal bs)) n i d).2,
      some (0, ((s2.ctx ctx).enrol (BitVec.ofNat 1024 (leVal bs)) n i d).1)) := by
  have hsig : ¬(Rec.signal (BitVec.ofNat 1024 (leVal bs)) ≠ 0 ∧ 4096 ≤ (s2.ctx ctx).unraised) := fun ⟨h1, h2⟩ =>
    hu.elim h1 (Nat.not_lt.2 h2)
  simp only [State.accept, hr, hc, hh, hb, hcl, hsig, Bool.false_eq_true, if_false]

end

/-- A launch that is enrolled is held, with the next id. -/
theorem launch?_enrol (s : State) {ctx n i : Nat} {r : BitVec 1024} {d : Option DevLaunch} (h : (s.ctx ctx).lastLid + 1 < 2 ^ 32) :
    let t := s.setCtx ctx ((s.ctx ctx).enrol r n i d).2
    ((s.ctx ctx).enrol r n i d).1 = (s.ctx ctx).lastLid + 1 ∧ (t.ctx ctx).lastLid = (s.ctx ctx).lastLid + 1 ∧
    ∃ k, t.launch? { ctx := ctx, lid := (s.ctx ctx).lastLid + 1 } = some k ∧ k.stage = .held ∧ k.rcd = r ∧ k.raised = none ∧
      k.ring = n ∧ k.slotIdx = i ∧ k.device = d := by
  intro t
  have hlid : ((s.ctx ctx).enrol r n i d).1 = (s.ctx ctx).lastLid + 1 := if_pos h
  have hctx : t.ctx ctx = ((s.ctx ctx).enrol r n i d).2 := State.ctx_setCtx_self _ ctx _
  refine ⟨hlid, by rw [hctx]; exact hlid, ?_⟩
  have hget : t.launch? { ctx := ctx, lid := (s.ctx ctx).lastLid + 1 } =
      Tbl.get? ((s.ctx ctx).enrol r n i d).2.launches ((s.ctx ctx).enrol r n i d).1 := by
    rw [hlid, ← hctx]
    rfl
  rw [hget]
  exact ⟨_, Tbl.get?_set_self _ _ _, rfl, rfl, rfl, rfl, rfl, rfl⟩

/-! ## Device launches and triggers (R50 to R53) -/

/-- Launches of the contexts aside, everything is as it was. -/
structure LaunchStep (s t : State) : Prop where
  step : CtxStep s t
  rings : ∀ x, (t.ctx x).rings = (s.ctx x).rings
  route : ∀ x q, (t.ctx x).route q = (s.ctx x).route q

theorem LaunchStep.refl (s : State) : LaunchStep s s := ⟨.refl s, fun _ => rfl, fun _ _ => rfl⟩

theorem LaunchStep.trans {s t u : State} (h : LaunchStep s t) (g : LaunchStep t u) : LaunchStep s u :=
  ⟨h.step.trans g.step, fun x => (g.rings x).trans (h.rings x), fun x q => (g.route x q).trans (h.route x q)⟩

theorem setLaunch_launchStep (s : State) (l : LaunchId) (k : Launch) : LaunchStep s (s.setLaunch l k) := by
  refine ⟨setLaunch_ctxStep s l k, fun x => ?_, fun x q => ?_⟩
  · rw [State.setLaunch, State.ctx_modCtx]
    split
    · next h => rw [h]
    · rfl
  · rw [State.setLaunch, State.ctx_modCtx]
    split
    · next h => rw [h]; rfl
    · rfl

theorem reachEarly_launchStep (s : State) (l : LaunchId) : LaunchStep s (s.reachEarly l) := by
  unfold State.reachEarly
  split
  · split
    · exact setLaunch_launchStep _ _ _
    · exact .refl s
  · exact .refl s

theorem covered_launchStep (s : State) (c id : Nat) (l : Option LaunchId) : LaunchStep s (s.covered c id l) := by
  unfold State.covered
  split
  · exact .refl s
  · split
    · split
      · exact (setLaunch_launchStep _ _ _).trans (reachEarly_launchStep _ _)
      · exact .refl s
    · exact .refl s

theorem land_contexts (s : State) (c id : Nat) : (s.land c id).parts = s.parts ∧ (∀ x, ((s.land c id).ctx x).rings = (s.ctx x).rings) ∧
    ∀ x q, ((s.land c id).ctx x).route q = (s.ctx x).route q := by
  unfold State.land
  extract_lets l
  obtain ⟨⟨y, hy⟩, hrings, hroute⟩ := covered_launchStep (s.modCore c fun k => { k with flight := k.flight.filter fun f => f.e.id != id }) c id l
  refine ⟨?_, hrings, hroute⟩
  rw [hy]
  rfl

section
variable {s : State} {c k : Nat} {e : Entry} (hf : s.flying? c k = some e)
include hf

theorem lnchCommit_waits (h : (s.core c).mayRelease e = false) : s.lnchCommit c k = s := by
  simp only [State.lnchCommit, hf, h, Bool.false_eq_true, if_false]
  split <;> rfl

theorem trigCommit_waits (h : (s.core c).mayRelease e = false) : s.trigCommit c k = s := by
  simp only [State.trigCommit, hf, h, Bool.false_eq_true, if_false]
  split <;> rfl

theorem trigCommit_triggers {l : LaunchId} (ha : e.act = .trig) (h : (s.core c).mayRelease e = true) (hl : e.launch = some l) :
    s.trigCommit c k = (s.land c e.id).triggerAt l (clusterOf c) [] := by
  simp only [State.trigCommit, hf, ha, h, hl, if_true]

theorem lnchCommit_commits {a : W64} {qid ticket p : Nat} {ar dr : Bool} (ha : e.act = .launch a qid ar dr ticket)
    (h : (s.core c).mayRelease e = true) (hp : s.corePart? c = some p) :
    s.lnchCommit c k = match (s.ctx (s.part p).ctx).route qid with
      | none => (s.land c e.id).answerLaunch ⟨a, c, qid, ar, dr, ticket⟩ 18 0
      | some n =>
        if 16 ≤ ((s.ctx (s.part p).ctx).ring n).devq.length then (s.land c e.id).answerLaunch ⟨a, c, qid, ar, dr, ticket⟩ 19 0
        else (s.land c e.id).modRingD (s.part p).ctx n fun r => { r with devq := r.devq ++ [⟨a, c, qid, ar, dr, ticket⟩] } := by
  obtain ⟨hparts, hrings, hroute⟩ := land_contexts s c e.id
  have hcp : (s.land c e.id).corePart? c = some p := by
    rw [← hp, State.corePart?, State.partOf?, hparts]
    rfl
  have hpart : (s.land c e.id).part p = s.part p := by rw [State.part, hparts, State.part]
  have hring (x n : Nat) : ((s.land c e.id).ctx x).ring n = (s.ctx x).ring n := by rw [Ctx.ring, hrings, Ctx.ring]
  simp only [State.lnchCommit, hf, ha, h, if_true, hcp, hpart, hroute, hring] <;> rfl

end

/-! ## Release (R46, R54 to R59) -/

theorem releaseLaunch_waits {s : State} {ctx lid p : Nat} {k : Launch} (hp : s.residentIn? ctx = some p)
    (hl : s.launch? { ctx := ctx, lid := lid } = some k)
    (h : s.managed = false ∨ (s.part p).switch ≠ .none ∨ (s.part p).switchq ≠ [] ∨ s.releasable p ctx lid k = false ∨
      s.releaseTurn p ctx lid k = false) : s.releaseLaunch ctx lid = s := by
  simp only [State.releaseLaunch, hp, hl]
  refine if_neg ?_
  rintro ⟨h1, h2, h3, h4, h5⟩
  rcases h with h | h | h | h | h
  · exact ne_true_of_eq_false h h1
  · exact h h2
  · exact h h3
  · exact ne_true_of_eq_false h h4
  · exact ne_true_of_eq_false h h5

theorem feFill_ne_got (s : State) (p gva gpa : Nat) (bs : List Byte) : (s.feFill p gva gpa).2 ≠ .got bs := by
  unfold State.feFill
  extract_lets hold
  split <;> exact nofun

/-- A read of the front end that gives bytes leaves the partitions as they are. -/
theorem feRead_walked {s t : State} {p n : Nat} {a : W64} {bs : List Byte} (h : s.feRead p a n = (t, .got bs)) : Walked s t := by
  have hx := xlateMem_walked s none p (field a 47 0) .read false
  unfold State.feRead at h
  split at h
  · exact nomatch h
  split at h
  · exact nomatch h
  generalize s.xlateMem none p (field a 47 0) .read = r at h hx
  obtain ⟨u, x⟩ := r
  split at h
  · next q phys gva gpa he =>
    obtain ⟨rfl, -⟩ := Prod.ext_iff.1 he
    split at h
    · exact nomatch h
    · have hr := homeRead_walked u none q phys gpa n
      generalize u.homeRead none q phys gpa n = r at h hr
      cases h
      exact hx.trans hr
  · next => exact absurd (Prod.ext_iff.1 h).2 (feFill_ne_got _ _ _ _ _)
  · exact nomatch h
  · exact nomatch h
  · exact nomatch h

theorem feReadAll_walked {p : Nat} (fuel : Nat) : ∀ {s t : State} {a : W64} {n : Nat} {bs out : List Byte},
    State.feReadAll p fuel s a n bs = (t, .got out) → Walked s t := by
  induction fuel with
  | zero =>
    intro s t a n bs out h
    cases h
    exact .refl s
  | succ fuel ih =>
    intro s t a n bs out h
    rw [State.feReadAll] at h
    split at h
    · cases h
      exact .refl s
    · dsimp only at h
      split at h
      · next u xs hu => exact (feRead_walked hu).trans (ih h)
      · exact feRead_walked h

theorem loadWalker_parts (s : State) (pt : Partition) (l : LaunchId) (r : BitVec 1024) (k : Nat) : (s.loadWalker pt l r k).parts = s.parts := by
  unfold State.loadWalker
  split <;> rfl

theorem foldl_eq_of_kept {σ α : Type} {f g : σ → α → σ} (P : σ → Prop) (hfg : ∀ s x, P s → f s x = g s x) (hP : ∀ s x, P s → P (g s x))
    (l : List α) : ∀ s, P s → l.foldl f s = l.foldl g s := by
  induction l with
  | nil => exact fun s _ => rfl
  | cons x l ih =>
    intro s hs
    rw [List.foldl_cons, List.foldl_cons, hfg s x hs]
    exact ih _ (hP s x hs)

theorem foldl_loadWalker_part (p : Nat) (l : LaunchId) (r : BitVec 1024) (ks : List Nat) (s : State) :
    ks.foldl (fun s c => s.loadWalker (s.part p) l r c) s = ks.foldl (fun t c => t.loadWalker (s.part p) l r c) s := by
  refine foldl_eq_of_kept (fun t : State => t.part p = s.part p) (fun t c ht => ?_) (fun t c ht => ?_) ks s rfl
  · rw [ht]
  · exact (part_of_parts (loadWalker_parts t _ l r c) p).trans ht

theorem releaseLaunch_releases {s s1 s2 : State} {ctx lid p : Nat} {k : Launch} {n bs : List Byte} (hp : s.residentIn? ctx = some p)
    (hl : s.launch? { ctx := ctx, lid := lid } = some k) (hm : s.managed = true) (hs : (s.part p).switch = .none)
    (hq : (s.part p).switchq = []) (hr : s.releasable p ctx lid k = true) (ht : s.releaseTurn p ctx lid k = true)
    (h1 : s.feRead p (w64 (Rec.image k.rcd) + 8) 4 = (s1, .got n))
    (h2 : s1.feReadAll p 514 (w64 (Rec.image k.rcd)) (Nat.min 65536 (leVal n)) [] = (s2, .got bs)) :
    s.releaseLaunch ctx lid = (gangClusters (s.part p) k.rcd).foldl
      (fun s c => s.loadWalker (s.part p) { ctx := ctx, lid := lid } k.rcd c)
      (s2.setLaunch { ctx := ctx, lid := lid } { k with stage := .releasing, image := bs }) := by
  have hpart : s2.part p = s.part p := ((feRead_walked h1).trans (feReadAll_walked 514 h2)).part p
  have hset : (s2.setLaunch { ctx := ctx, lid := lid } { k with stage := .releasing, image := bs }).part p = s.part p := hpart
  rw [foldl_loadWalker_part, hset]
  simp only [State.releaseLaunch, hp, hl, hm, hs, hq, hr, ht, and_self, if_true, h1, h2]

section
variable {s : State} {ctx lid c p : Nat} {x : Launch} (hp : s.residentIn? ctx = some p)
  (hl : s.launch? { ctx := ctx, lid := lid } = some x)
include hp hl

theorem imageLoad_waits (h : (s.core c).freeFor { ctx := ctx, lid := lid } = false) : s.imageLoad ctx lid c = s := by
  simp only [State.imageLoad, hp, hl]
  exact if_neg fun ⟨_, _, _, _, hfree, _⟩ => ne_true_of_eq_false h hfree

theorem imageLoad_loads (hst : x.stage = .releasing) (hk : x.killed = false) (ho : (occupied (s.part p) x.rcd).contains c = true)
    (hld : x.loaded.contains c = false) (hfree : (s.core c).freeFor { ctx := ctx, lid := lid } = true)
    (he : (s.core c).enginesFree { ctx := ctx, lid := lid } = true ∨
      (8 ≤ indexOf c ∨ (s.core c).l1code = Rec.l1 x.rcd) ∧ (s.core c).fuse = Rec.fuse x.rcd) :
    s.imageLoad ctx lid c =
      (s.setCore c ((s.core c).loadImage c { ctx := ctx, lid := lid } x.rcd x.image s.fabric.devId)).setLaunch { ctx := ctx, lid := lid }
        { x with loaded := c :: x.loaded } := by
  simp only [State.imageLoad, hp, hl]
  refine if_pos ⟨hst, hk, ho, hld, hfree, ?_⟩
  rw [Bool.or_eq_true, Bool.and_eq_true, decide_eq_true_eq, beq_iff_eq]
  exact he.symm

end

/-- The bytes of an image in an IMEM. -/
theorem find_overStart (bs : List Byte) (a : Nat) : Tbl.find 0 (overStart bs []) a = bs.getD a 0 := by
  have key (bs : List Byte) (n : Nat) :
      Tbl.find 0 ((bs.zipIdx n).filterMap fun e => if e.1 = 0 then none else some (e.2, e.1)) a =
        if n ≤ a then bs.getD (a - n) 0 else 0 := by
    induction bs generalizing n with
    | nil => exact (ite_self _).symm
    | cons b bs ih =>
      have hstep : Tbl.find 0 (((b :: bs).zipIdx n).filterMap fun e => if e.1 = 0 then none else some (e.2, e.1)) a =
          if n = a then b else Tbl.find 0 ((bs.zipIdx (n + 1)).filterMap fun e => if e.1 = 0 then none else some (e.2, e.1)) a := by
        rw [List.zipIdx_cons, List.filterMap_cons]
        by_cases hb : b = 0
        · rw [if_pos hb]
          by_cases hn : n = a
          · rw [if_pos hn, hb]
            exact (ih (n + 1)).trans (if_neg (by omega))
          · rw [if_neg hn]
        · rw [if_neg hb, Tbl.find, Tbl.get?_cons]
          by_cases hn : n = a
          · rw [if_pos hn, if_pos hn]
            rfl
          · rw [if_neg hn, if_neg hn]
            rfl
      rw [hstep, ih]
      by_cases hn : n = a
      · rw [if_pos hn, if_pos (Nat.le_of_eq hn), hn, Nat.sub_self, List.getD_cons_zero]
      · rw [if_neg hn]
        by_cases h : n + 1 ≤ a
        · rw [if_pos h, if_pos (by omega), show a - n = a - (n + 1) + 1 by omega, List.getD_cons_succ]
        · rw [if_neg h, if_neg (by omega)]
  rw [overStart, List.filter_nil, List.append_nil]
  exact (key bs 0).trans (if_pos (Nat.zero_le a))

/-- The slots of a core after the image of a launch is loaded: those of its tasks and the service slot have the launch's registers. -/
theorem slot_loadImage (k : Core) (c : Nat) (l : LaunchId) (r : BitVec 1024) (bs : List Byte) (dev : Nat) {n : Nat} (hn : n ≤ 7) :
    (k.loadImage c l r bs dev).slot n = releaseRegs r (k.slot n) := by
  have key (ls : List Nat) (hd : ls.Nodup) : ∀ m : Tbl Slot,
      (Tbl.get? (ls.foldl (fun m n => Tbl.set m n (releaseRegs r ((Tbl.get? m n).getD {}))) m) n).getD {} =
        if n ∈ ls then releaseRegs r ((Tbl.get? m n).getD {}) else (Tbl.get? m n).getD {} := by
    induction ls with
    | nil => exact fun m => rfl
    | cons x ls ih =>
      intro m
      obtain ⟨hx, hd⟩ := List.nodup_cons.1 hd
      rw [List.foldl_cons, ih hd, Tbl.get?_set]
      by_cases h : n = x
      · subst h
        rw [if_neg hx, if_pos rfl, if_pos List.mem_cons_self]
        rfl
      · rw [if_neg h]
        exact if_congr (by rw [List.mem_cons, or_iff_right h]) rfl rfl
  have hin : n ∈ 0 :: taskSlots := by
    rw [taskSlots]
    simp only [List.mem_cons, List.not_mem_nil, or_false]
    omega
  have hslots : (k.loadImage c l r bs dev).slots =
      (0 :: taskSlots).foldl (fun m n => Tbl.set m n (releaseRegs r ((Tbl.get? m n).getD {}))) k.slots := by
    rw [Core.loadImage]
  rw [Core.slot, hslots, key (0 :: taskSlots) (by decide), if_pos hin, Core.slot]

theorem loadImage_spec (k : Core) (c : Nat) (l : LaunchId) (r : BitVec 1024) (bs : List Byte) (dev : Nat) :
    (∀ a, Tbl.find 0 (k.loadImage c l r bs dev).imem a = bs.getD a 0) ∧ (k.loadImage c l r bs dev).selfDev = some dev ∧
    (k.loadImage c l r bs dev).l1 = [] ∧ (k.loadImage c l r bs dev).image = some l ∧ (k.loadImage c l r bs dev).imemDirty = false ∧
    (indexOf c < 8 → (k.loadImage c l r bs dev).l1code = Rec.l1 r ∧ ∃ e ∈ (k.loadImage c l r bs dev).mxq, e.zeroing = true ∧ e.released = true) ∧
    ∀ n, n ≤ 7 →
      ((k.loadImage c l r bs dev).slot n).regs.fmta = BitVec.ofNat 64 (Rec.fmt r) ∧
      ((k.loadImage c l r bs dev).slot n).regs.fmtb = BitVec.ofNat 64 (Rec.fmt r) ∧
      ((k.loadImage c l r bs dev).slot n).regs.fmtc = BitVec.ofNat 64 (Rec.fmt r) ∧
      ((k.loadImage c l r bs dev).slot n).regs.scla = BitVec.ofNat 64 (Rec.scla r) ∧
      ((k.loadImage c l r bs dev).slot n).regs.sclb = BitVec.ofNat 64 (Rec.sclb r) ∧
      ((k.loadImage c l r bs dev).slot n).g = (k.slot n).g := by
  refine ⟨fun a => find_overStart bs a, rfl, rfl, rfl, rfl, fun hc => ⟨?_, { launch := some l, released := true, zeroing := true }, ?_, rfl, rfl⟩,
    fun n hn => ?_⟩
  · unfold Core.loadImage
    exact if_pos (decide_eq_true hc)
  · unfold Core.loadImage
    simp only [hc, decide_true, if_true, List.mem_append, List.mem_singleton, or_true, true_or]
  · rw [slot_loadImage k c l r bs dev hn]
    exact ⟨rfl, rfl, rfl, rfl, rfl, rfl⟩

section
variable {s : State} {ctx lid k p : Nat} {x : Launch} (hp : s.residentIn? ctx = some p)
  (hl : s.launch? { ctx := ctx, lid := lid } = some x)
include hp hl

theorem releaseMsg_waits (h : ((if Rec.pair x.rcd then [k, k + 8] else [k]).flatMap (maskCores x.rcd)).all x.loaded.contains = false) :
    s.releaseMsg ctx lid k = s := by
  simp only [State.releaseMsg, hp, hl]
  exact if_neg fun ⟨_, _, _, _, hall⟩ => ne_true_of_eq_false h hall

/-- The state in which a gang cluster's tasks are started: its courses and its units' stagger set, a message on each core. -/
def State.gangStarted (s : State) (ctx lid p k : Nat) (x : Launch) : State :=
  let r := x.rcd
  let pt := s.part p
  let ks := if Rec.pair r then [k, k + 8] else [k]
  let cs := ks.flatMap (maskCores r)
  let u := (ks.foldl (fun s k => s.startCourse0 pt r k) s).setMxStart cs (s.time + 32 * staggerOf pt r k)
  (maskCores r k).foldl (fun s c => s.startBy c (Rec.cls r) x.prio
    ⟨BitVec.ofNat 64 (Rec.args r), BitVec.ofNat 64 (rankOf pt r c), BitVec.ofNat 64 (gangSize r), BitVec.ofNat 64 (Rec.total r)⟩
    [] (some { ctx := ctx, lid := lid }) none) u

omit hp hl in
theorem startCourse0_time (pt : Partition) (r : BitVec 1024) (ks : List Nat) (s : State) :
    (ks.foldl (fun s k => s.startCourse0 pt r k) s).time = s.time :=
  foldl_of_step (f := fun s k => s.startCourse0 pt r k) (fun s t : State => t.time = s.time) (fun _ => rfl) (fun _ _ _ h g => g.trans h)
    (fun _ _ => rfl) ks s

theorem releaseMsg_starts (hst : x.stage = .releasing) (hk : x.killed = false) (hg : (gangClusters (s.part p) x.rcd).contains k = true)
    (hs : x.started.contains k = false)
    (h : ((if Rec.pair x.rcd then [k, k + 8] else [k]).flatMap (maskCores x.rcd)).all x.loaded.contains = true) :
    s.releaseMsg ctx lid k =
      if (gangClusters (s.part p) x.rcd).all (k :: x.started).contains then
        ((s.gangStarted ctx lid p k x).setLaunch { ctx := ctx, lid := lid } { x with started := k :: x.started, stage := .running }).resumeSwitch p
      else (s.gangStarted ctx lid p k x).setLaunch { ctx := ctx, lid := lid } { x with started := k :: x.started, stage := .releasing } := by
  unfold State.releaseMsg
  rw [hp]
  extract_lets l
  rw [show s.launch? l = some x from hl]
  refine (if_pos ⟨hst, hk, hg, hs, h⟩).trans ?_
  extract_lets u v w started whole z
  have htime : u.time = s.time := startCourse0_time _ _ _ s
  have hw : w = s.gangStarted ctx lid p k x := by
    unfold w v
    rw [htime]
    rfl
  have hz : z = (s.gangStarted ctx lid p k x).setLaunch l { x with started := k :: x.started, stage := if whole then .running else .releasing } := by
    rw [← hw]
  clear_value w z
  subst hz
  cases hwhole : whole with
  | true =>
    rw [if_pos rfl, if_pos rfl]
    exact (if_pos hwhole).symm
  | false =>
    rw [if_neg Bool.false_ne_true, if_neg Bool.false_ne_true]
    exact (if_neg (ne_true_of_eq_false hwhole)).symm

end

/-! ## The end of a launch (R47, R48) -/

section
variable {s : State} {ctx lid p : Nat} {x : Launch} (hp : s.residentIn? ctx = some p)
  (hl : s.launch? { ctx := ctx, lid := lid } = some x)
include hp hl

theorem launchDone_waits (h : s.managed = false ∨ s.ending? p { ctx := ctx, lid := lid } x = none) : s.launchDone ctx lid = s := by
  have hnone : (if s.managed then s.ending? p { ctx := ctx, lid := lid } x else none) = none := by
    rcases h with h | h
    · exact if_neg (ne_true_of_eq_false h)
    · rw [h, ite_self]
  simp only [State.launchDone, hp, hl, hnone]

theorem launchDone_ends {final : Nat} {ok : Bool} {t : State} (hm : s.managed = true)
    (he : s.ending? p { ctx := ctx, lid := lid } x = some (final, ok))
    (hf : (s.setLaunch { ctx := ctx, lid := lid } { x with
      stage := .done, final := final, image := [], raised := some (x.raised.getD ok) }).finalStatus p { ctx := ctx, lid := lid } x
        final = some t) :
    s.launchDone ctx lid = ((t.freeWalkers { ctx := ctx, lid := lid }).clearMembers
      ((occupied (s.part p) x.rcd).filter fun c => (s.core c).image == some { ctx := ctx, lid := lid })).resumeSwitch p := by
  unfold State.launchDone
  rw [hp]
  extract_lets l
  rw [show s.launch? l = some x from hl]
  simp only [hm, if_true, show s.ending? p l x = some (final, ok) from he]
  cases hx : x.raised with
  | none =>
    simp only [hx, Option.getD_none] at hf
    simp only [l, hf]
  | some b =>
    simp only [hx, Option.getD_some] at hf
    simp only [l, hf]

end

end Machine

open Machine Safety

/-- Settles O39: ring visits (`ringVisit_takes`, `takeRecords_succ`), acceptance (`accept_refused`, `accept_enrols`), device launches and
triggers, the steps of a release, and the end of a launch (`launchDone_ends`). -/
theorem launchEvents : Obligations.LaunchEvents := by
  unfold Obligations.LaunchEvents
  refine ⟨?visit, ?records, ?accept, ?commit, ?waits, ?trigger, ?release, ?load, fun k c l r bs dev => loadImage_spec k c l r bs dev, ?message,
    ?done⟩
  case visit =>
    intro s ctx n p hw hp r
    have ho : Occurs (.ringVisit ctx n) s (s.ringVisit ctx n) := occurs_event (f := fun s => s.ringVisit ctx n) rfl hw
    refine ⟨fun h => by rwa [ringVisit_idle hp h] at ho, fun hm he hs hl hc hd s1 bs hr => ?_⟩
    intro cons due
    rw [ringVisit_takes hp hm he hs hl hc hd hr] at ho
    exact ⟨fun h => by rwa [if_pos h] at ho, fun h => by rwa [if_neg (Nat.not_lt.2 h)] at ho⟩
  case records => exact fun p ctx n r k cons s u v w code lid _ ha hs hc => ⟨takeRecords_succ ha hs hc, rfl⟩
  case accept =>
    intro s s1 p ctx a n i d bs hr
    refine ⟨fun k hc => accept_refused hr hc, fun hc s2 hd hh hb hcl hu hlid => ?_⟩
    obtain ⟨hl1, hl2, k, hk⟩ := launch?_enrol s2 (n := n) (i := i) (r := BitVec.ofNat 1024 (leVal bs)) (d := d) hlid
    refine ⟨_, k, (accept_enrols hr hc hh hb hcl hu).trans ?_, hl2, hk⟩
    rw [hl1]
  case commit =>
    intro s c k e a qid ar dr ticket p hw hf ha hr hp ctx u d
    have ho : Occurs (.lnchCommit c k) s (s.lnchCommit c k) := occurs_event (f := fun s => s.lnchCommit c k) rfl hw
    have heq := lnchCommit_commits hf ha hr hp
    refine ⟨fun hroute => ?_, fun n hroute => ⟨fun hfull => ?_, fun hroom => ?_⟩⟩
    · simp only [show (s.ctx (s.part p).ctx).route qid = none from hroute] at heq
      rwa [heq] at ho
    · simp only [show (s.ctx (s.part p).ctx).route qid = some n from hroute, if_pos (show 16 ≤ ((s.ctx (s.part p).ctx).ring n).devq.length from hfull)]
        at heq
      rwa [heq] at ho
    · simp only [show (s.ctx (s.part p).ctx).route qid = some n from hroute,
        if_neg (show ¬16 ≤ ((s.ctx (s.part p).ctx).ring n).devq.length from Nat.not_le.2 hroom)] at heq
      rwa [heq] at ho
  case waits =>
    intro s c k e hw hf hr
    have hl : Occurs (.lnchCommit c k) s (s.lnchCommit c k) := occurs_event (f := fun s => s.lnchCommit c k) rfl hw
    have ht : Occurs (.trigCommit c k) s (s.trigCommit c k) := occurs_event (f := fun s => s.trigCommit c k) rfl hw
    rw [lnchCommit_waits hf hr] at hl
    rw [trigCommit_waits hf hr] at ht
    exact ⟨hl, ht⟩
  case trigger =>
    intro s c k e l hw hf ha hr hl
    have ho : Occurs (.trigCommit c k) s (s.trigCommit c k) := occurs_event (f := fun s => s.trigCommit c k) rfl hw
    rwa [trigCommit_triggers hf ha hr hl] at ho
  case release =>
    intro s s1 s2 ctx lid p k n bs hw hp hl
    have ho : Occurs (.launchRelease ctx lid) s (s.releaseLaunch ctx lid) := occurs_event (f := fun s => s.releaseLaunch ctx lid) rfl hw
    exact ⟨fun h => by rwa [releaseLaunch_waits hp hl h] at ho,
      fun hm hs hq hr ht h1 h2 => by rwa [releaseLaunch_releases hp hl hm hs hq hr ht h1 h2] at ho⟩
  case load =>
    intro s ctx lid c p x hw hp hl hst hk hocc hld
    have ho : Occurs (.releaseImageLoad ctx lid c) s (s.imageLoad ctx lid c) := occurs_event (f := fun s => s.imageLoad ctx lid c) rfl hw
    exact ⟨fun h => by rwa [imageLoad_waits hp hl h] at ho,
      fun hfree he => by rwa [imageLoad_loads hp hl hst hk hocc hld hfree he] at ho⟩
  case message =>
    intro s ctx lid k p x hw hp hl r pt ks cs hst hk hg hs
    have ho : Occurs (.releaseMessage ctx lid k) s (s.releaseMsg ctx lid k) := occurs_event (f := fun s => s.releaseMsg ctx lid k) rfl hw
    refine ⟨fun h => by rwa [releaseMsg_waits hp hl h] at ho, fun h => ?_⟩
    intro u v
    rw [releaseMsg_starts hp hl hst hk hg hs h] at ho
    exact ⟨fun hall => by rwa [if_neg (ne_true_of_eq_false hall)] at ho, fun hall => by rwa [if_pos hall] at ho⟩
  case done =>
    intro s ctx lid p x hw hp hl
    have ho : Occurs (.launchDone ctx lid) s (s.launchDone ctx lid) := occurs_event (f := fun s => s.launchDone ctx lid) rfl hw
    exact ⟨fun h => by rwa [launchDone_waits hp hl h] at ho,
      fun final ok t hm he hf => by rwa [launchDone_ends hp hl hm he hf] at ho⟩

end Sys2Proof
end

section
/-! PROOF. The management interface (03_launching.md R37, R39, R50; 20_fabric.md R297, R298, R302; 24_protection.md R339, R344 to R346): O42. -/

namespace Sys2Proof
namespace Machine

open Safety

/-! ## Partition descriptors (R37) -/

theorem writeDesc_unmanaged {s : State} (p : Nat) (v : W64) (h : s.managed = false) : s.writeDesc p v = s :=
  if_pos (.inr h)

section
variable {s : State} {p : Nat} {v : W64} (hp : p < 64) (hm : s.managed = true)
include hp hm

theorem writeDesc_eq : s.writeDesc p v =
    if (s.part p).resident = true ∨ s.descBad p (descOf (s.part p) v) = true ∨ ((descOf (s.part p) v).en = true ∧ s.plat.stage ≠ .running) then
      { s with alerts := s.alerts ++ [.descriptorRefused p] }
    else
      let k := if (descOf (s.part p) v).en && !(s.part p).en then (descOf (s.part p) v).enabled else descOf (s.part p) v
      let u := s.setPart p { k with switch := .none }
      if k.en && (u.ctx k.ctx).alive && !u.hasFailed p then u.setPart p { k with switch := .restoring k.ctx } else u :=
  if_neg (not_or.2 ⟨Nat.not_le.2 hp, ne_false_of_eq_true hm⟩)

end

/-- The rules of R37 that a descriptor breaks. -/
theorem descBad_iff (s : State) (p : Nat) (k : Partition) : s.descBad p k = true ↔
    15 < k.px + k.pw ∨ 15 < k.py + k.ph ∨ 5 ≤ k.l1max ∨ k.l1max < k.l1min ∨
      ∃ e ∈ s.parts, e.1 ≠ p ∧ e.2.en = true ∧ k.px ≤ e.2.px + e.2.pw ∧ e.2.px ≤ k.px + k.pw ∧
        k.py ≤ e.2.py + e.2.ph ∧ e.2.py ≤ k.py + k.ph := by
  simp only [State.descBad, Partition.overlaps, Bool.or_eq_true, decide_eq_true_eq, List.any_eq_true, Bool.and_eq_true, bne_iff_ne, ne_eq,
    or_assoc, and_assoc]

section
variable {s : State} {p : Nat} {v : W64} (hp : p < 64) (hm : s.managed = true)
include hp hm

theorem writeDesc_refused (h : (s.part p).resident = true ∨ s.descBad p (descOf (s.part p) v) = true ∨ (bitAt v 49 = true ∧ s.plat.stage ≠ .running)) :
    s.writeDesc p v = { s with alerts := s.alerts ++ [.descriptorRefused p] } := by
  rw [writeDesc_eq hp hm]
  exact if_pos h

variable (hr : (s.part p).resident = false) (hb : ¬s.descBad p (descOf (s.part p) v) = true)
include hr hb

theorem writeDesc_disabled (he : bitAt v 49 = false) : s.writeDesc p v = s.setPart p { descOf (s.part p) v with switch := .none } := by
  have hen : (descOf (s.part p) v).en = false := he
  rw [writeDesc_eq hp hm, if_neg (by simp [hr, hb, hen])]
  generalize descOf (s.part p) v = k at *
  simp [hen]

theorem writeDesc_restores (he : bitAt v 49 = true) (hs : s.plat.stage = .running) (ha : (s.ctx (descOf (s.part p) v).ctx).alive = true)
    (hf : ∀ c, (s.cluster c).failed = false) :
    ∃ u k, s.writeDesc p v = State.setPart u p { k with switch := .restoring k.ctx } ∧ u = s.setPart p { k with switch := .none } ∧
      k = if (s.part p).en = false then (descOf (s.part p) v).enabled else descOf (s.part p) v := by
  have hen : (descOf (s.part p) v).en = true := he
  rw [writeDesc_eq hp hm, if_neg (by simp [hr, hb, hs])]
  generalize descOf (s.part p) v = k at *
  have hcur : (if k.en && !(s.part p).en then k.enabled else k) = if (s.part p).en = false then k.enabled else k := by
    rw [hen]
    cases (s.part p).en <;> rfl
  rw [hcur]
  have hk : (if (s.part p).en = false then k.enabled else k).en = true ∧ (if (s.part p).en = false then k.enabled else k).ctx = k.ctx := by
    split
    · exact ⟨hen, rfl⟩
    · exact ⟨hen, rfl⟩
  generalize (if (s.part p).en = false then k.enabled else k) = k' at hk ⊢
  refine ⟨_, k', ?_, rfl, rfl⟩
  have hnone (t : State) (ht : ∀ c, (t.cluster c).failed = false) : t.hasFailed p = false := by
    rw [State.hasFailed, List.any_eq_false]
    exact fun c _ => by simp [ht]
  have hal : (s.ctx k'.ctx).alive = true := by
    rw [hk.2]
    exact ha
  exact if_pos (Bool.and_eq_true_iff.2 ⟨Bool.and_eq_true_iff.2 ⟨hk.1, hal⟩, congrArg not (hnone (s.setPart p { k' with switch := .none }) hf)⟩)

end

/-! ## Registers and tables (R39, R50) -/

theorem managed_write {s t : State} {m : Mgmt} (hw : s.wr = []) (hm : s.managed = true) (h : s.manage m = t) :
    Occurs (.managementWrite m) s t := by
  subst h
  have ho : Occurs (.managementWrite m) s (if s.managed then s.manage m else s) :=
    occurs_event (f := fun s => if s.managed then s.manage m else s) rfl hw
  rwa [if_pos hm] at ho

/-- A command of the management cores while they do not run (25 R347, R350). -/
theorem occurs_unmanaged {j : Instr} {s : State} {f : State → State} (he : exec j s = event (fun s => s.whenManaged f) s) (hw : s.wr = [])
    (hm : s.managed = false) : Occurs j s s := by
  have ho : Occurs j s (s.whenManaged f) := occurs_event (f := fun s => s.whenManaged f) he hw
  rwa [State.whenManaged, if_neg (ne_true_of_eq_false hm)] at ho

/-- A command of the management cores while they run. -/
theorem occurs_managed {j : Instr} {s t : State} {f : State → State} (he : exec j s = event (fun s => s.whenManaged f) s) (hw : s.wr = [])
    (hm : s.managed = true) (h : f s = t) : Occurs j s t := by
  subst h
  have ho : Occurs j s (s.whenManaged f) := occurs_event (f := fun s => s.whenManaged f) he hw
  rwa [State.whenManaged, if_pos hm] at ho

theorem toNat_w64_field {n : Nat} (w : BitVec n) {hi lo : Nat} (h : hi - lo + 1 = 64) : (w64 (field w hi lo)).toNat = field w hi lo := by
  refine (BitVec.toNat_ofNat _ _).trans (Nat.mod_eq_of_lt ?_)
  rw [field, h]
  exact Nat.mod_lt _ (by omega)

theorem ringD_write (r : RingD) (w : BitVec 256) : r.write w = { r with
    ctx := field w 223 216, err := r.err && !bitAt w 207, en := bitAt w 206, served := bitAt w 206, pcap := field w 205 204,
    log2n := field w 195 192, ctrl := field w 191 128, status := field w 127 64, base := field w 63 0 } := by
  rw [RingD.write, rdCtrl, rdStatus, rdBase, toNat_w64_field w rfl, toNat_w64_field w rfl, toNat_w64_field w rfl]
  rfl

/-! ## The debugger (22 R331) -/

theorem manage_debug (s : State) (c : Nat) (w : DebugWrite) :
    s.manage (.debug c w) = s.onResident c fun s p => if s.debugs p then s.debugWrite p w else s := rfl

theorem debug_unattached {s : State} {c p : Nat} (w : DebugWrite) (hp : s.residentIn? c = some p)
    (h : (s.part p).debugger = false ∨ (s.part p).halt ≠ .halted) : s.manage (.debug c w) = s := by
  rw [manage_debug, onResident_eq hp]
  refine if_neg ?_
  rw [State.debugs, Bool.and_eq_true, decide_eq_true_eq]
  exact fun ⟨hd, hh⟩ => h.elim (fun h => Bool.false_ne_true (h.symm.trans hd)) fun h => h hh

theorem debug_absent {s : State} {c : Nat} (w : DebugWrite) (h : s.residentIn? c = none) : s.manage (.debug c w) = s := by
  rw [manage_debug, State.onResident, h]

section
variable {s : State} {c p : Nat} (hp : s.residentIn? c = some p) (hd : (s.part p).debugger = true) (hh : (s.part p).halt = .halted)
include hp hd hh

theorem debug_attached (w : DebugWrite) : s.manage (.debug c w) = s.debugWrite p w := by
  rw [manage_debug, onResident_eq hp]
  refine if_pos ?_
  rw [State.debugs, hd, hh]
  rfl

theorem debug_guarded {w : DebugWrite} {k : Nat} {q : Prop} [Decidable q] {t e : State} (hk : s.corePart? k = some p) (hq : q)
    (h : s.debugWrite p w = if (s.corePart? k == some p && decide q) = true then t else e) : s.manage (.debug c w) = t := by
  rw [debug_attached hp hd hh, h]
  exact if_pos (by simp [hk, hq])

end

/-! ## Sealed snapshots and memory (24 R341) -/

theorem verified_length (s : State) (p a : Nat) (bs : List Byte) : (s.verified p a bs).length = bs.length := by
  rw [State.verified, List.length_map, List.length_zipIdx]

theorem verified_getD (s : State) (p a : Nat) (bs : List Byte) (i : Nat) (h : i < bs.length) :
    (s.verified p a bs).getD i 0 = if s.foreign p (a + i) = true then 0 else bs.getD i 0 := by
  rw [State.verified, List.getD_eq_getElem _ _ (by simpa using h), List.getElem_map, List.getElem_zipIdx, List.getD_eq_getElem _ _ h,
    Nat.zero_add]

section
variable {s : State} {p g n a : Nat} (ha : (s.part p).snapEntry? g = some a)
include ha

theorem readSealed_unread (h : hbmBytes < a + 16 ∨ s.foreign p a = true) : s.readSealed p g n = s := by
  rw [State.readSealed, ha]
  exact if_pos h

theorem readSealed_reads (hb : a + 16 ≤ hbmBytes) (hf : s.foreign p a = false) : s.readSealed p g n =
    let at_ := sealedFrame (s.snapEntry a) (s.part p).snapEpoch + g % 65536
    let r := s.homeRead none p at_ g (Nat.min n (65536 - g % 65536))
    { r.1 with readout := s.verified p at_ r.2 } := by
  rw [State.readSealed, ha]
  exact if_neg (by simp [Nat.not_lt.2 hb, hf])

end

theorem manage_memory {s : State} (a : Nat) (w : W64) (ha : a + 8 ≤ hbmBytes) (hl : (s.line (a / 128)).partials = []) :
    s.manage (.memory a w) = (s.wrBytes a (leBytes 8 w.toNat)).spoilSaves a := by
  refine (if_pos ha).trans ?_
  rw [mergeLine_whole hl]

/-- What the writes that wait leave of a table: the last of them to a place, or what stood there. -/
theorem find_foldl_edits {α : Type} [DecidableEq α] (d : α) (l : List (Nat × α)) (i : Nat) : ∀ m : Tbl α,
    Tbl.find d (l.foldl (fun m e => Tbl.put d m e.1 e.2) m) i = ((l.reverse.find? fun e => e.1 == i).map (·.2)).getD (Tbl.find d m i) := by
  induction l with
  | nil => exact fun m => rfl
  | cons e l ih =>
    intro m
    rw [List.foldl_cons, ih, List.reverse_cons, List.find?_append, Tbl.find_put]
    cases l.reverse.find? fun e => e.1 == i with
    | some x => rfl
    | none =>
      by_cases h : i = e.1
      · simp [h]
      · simp [h, Ne.symm h]

/-! ## The memory plane's slots (24 R344) -/

theorem slotNow_eq {s : State} (h : s.fabric.slotPending = [] ∨ s.time / 256 ≤ s.fabric.frames) :
    s.slotNow = Tbl.find 0 s.fabric.slotTable (s.time % 256) := by
  rw [State.slotNow]
  by_cases hf : s.fabric.frames < s.time / 256
  · rw [if_pos hf, Fabric.slotsWritten, h.resolve_right (Nat.not_le.2 hf)]
    rfl
  · rw [if_neg hf]

theorem planeOpen_iff (s : State) (p : Nat) : s.planeOpen p = true ↔
    bitAt s.slotNow 7 = true ∧ field s.slotNow 5 0 = p ∨
      bitAt (s.part p).qos 24 = true ∧ (bitAt s.slotNow 7 = false ∨ Config.slotIdle s.time (field s.slotNow 5 0) = true) := by
  simp only [State.planeOpen, Bool.or_eq_true, Bool.and_eq_true, beq_iff_eq, Bool.not_eq_true']

/-! ## Contexts and domains (24 R346) -/

theorem holds_of_mem_clusters {k : Partition} {n : Nat} (hx : k.px + k.pw ≤ 15) (hn : n ∈ k.clusters) : k.holds n = true := by
  unfold Partition.clusters at hn
  split at hn
  case isFalse => exact absurd hn List.not_mem_nil
  case isTrue he =>
    obtain ⟨y, hy, hn⟩ := List.mem_flatMap.1 hn
    obtain ⟨x, hx', rfl⟩ := List.mem_map.1 hn
    rw [mem_upto] at hy hx'
    simp only [Partition.holds, he, Bool.true_and, Bool.and_eq_true, decide_eq_true_eq]
    simp only [clX, clY, clusterAt]
    omega

section
variable (s : State) (c : Nat)

theorem destroyContext_absent (h : s.residentIn? c = none) : s.destroyContext c = { s.setCtx c {} with saves := Tbl.del s.saves c } := by
  rw [State.destroyContext, h]

theorem destroyContext_resident {p : Nat} (h : s.residentIn? c = some p) : s.destroyContext c =
    { ((s.clearPart p).modPart p fun k => { k.bare with switch := .none }).setCtx c {} with saves := Tbl.del s.saves c } := by
  rw [State.destroyContext, h]
  rfl

theorem ctx_destroyContext (d : Nat) : (s.destroyContext c).ctx d = if d = c then {} else s.ctx d := by
  cases h : s.residentIn? c with
  | none =>
    rw [destroyContext_absent s c h]
    exact State.ctx_setCtx _ c d _
  | some p =>
    rw [destroyContext_resident s c h]
    exact State.ctx_setCtx _ c d _

theorem destroyContext_rest : (s.destroyContext c).mem = s.mem ∧ (s.destroyContext c).saves = Tbl.del s.saves c := by
  cases h : s.residentIn? c with
  | none =>
    rw [destroyContext_absent s c h]
    exact ⟨rfl, rfl⟩
  | some p =>
    rw [destroyContext_resident s c h]
    exact ⟨rfl, rfl⟩

theorem core_destroyContext {p n : Nat} (h : s.residentIn? c = some p) (hn : (s.part p).holds (clusterOf n) = true) :
    (s.destroyContext c).core n = {} := by
  rw [destroyContext_resident s c h]
  exact (core_clearPart s p n).trans (if_pos hn)

end

section
variable {s : State} {d : Nat} {k : DomKeys} (hk : Tbl.get? s.fabric.keys d = some k)
include hk

theorem modKeys_held (f : DomKeys → DomKeys) :
    s.modKeys d f = { s with fabric := { s.fabric with keys := Tbl.set s.fabric.keys d (f k) } } := by
  rw [State.modKeys, hk]

theorem destroyDomain_held : s.destroyDomain d = { s with fabric := { s.fabric with
    keys := Tbl.del s.fabric.keys d, keysMade := Tbl.put 0 s.fabric.keysMade d (Nat.max (Tbl.find 0 s.fabric.keysMade d) (k.made + 1)) } } := by
  rw [State.destroyDomain, hk]

end

theorem get?_of_hasKey_false {s : State} {d : Nat} (h : s.hasKey d = false) : Tbl.get? s.fabric.keys d = none :=
  Option.isNone_iff_eq_none.1 (Option.isSome_eq_false_iff.1 h)

theorem keyInUse_iff (s : State) (d key : Nat) :
    s.keyInUse d key = true ↔ ∃ o ∈ s.fabric.out, ∃ f ∈ o.2.unacked, f.domain = d ∧ f.key = key := by
  simp only [State.keyInUse, List.any_eq_true, Bool.and_eq_true, beq_iff_eq]

end Machine

open Machine Safety

/-- Settles O42: descriptors (`writeDesc_eq`), the registers and the debugger (`managed_write`, `debug_guarded`), peer and slot tables
(`find_foldl_edits`), slots (`planeOpen_iff`), contexts (`destroyContext_resident`), domains and keys (`modKeys_held`). -/
theorem management : Obligations.Management := by
  unfold Obligations.Management
  refine ⟨?desc, ?descUnmanaged, ?descResident, ?write, ?peerUnmanaged, ?peer, ?frameSame, ?frame, ?plane, ?e2et, ?create, ?destroy, ?unmanaged,
    ?domain, ?keys⟩
  case desc =>
    intro s p v hw hp hm hr k px py pw ph en bad u
    have ho : Occurs (.partitionDescriptorWrite p v) s (s.writeDesc p v) := occurs_event (f := fun s => s.writeDesc p v) rfl hw
    have hbad : s.descBad p (descOf (s.part p) v) = true ↔ bad := descBad_iff s p _
    refine ⟨fun h => ?_, fun he hs => ?_, fun h he => ?_, fun h he hs ha hf => ?_⟩
    · rwa [writeDesc_refused hp hm (.inr (.inl (hbad.2 h)))] at ho
    · rwa [writeDesc_refused hp hm (.inr (.inr ⟨he, hs⟩))] at ho
    · rwa [writeDesc_disabled hp hm hr (mt hbad.1 h) he] at ho
    · obtain ⟨t, j, ht, htt, hj⟩ := writeDesc_restores hp hm hr (mt hbad.1 h) he hs ha hf
      rw [ht] at ho
      subst htt
      refine ⟨_, ho, rfl, rfl, ?_⟩
      rw [State.part_setPart_self]
      have hrest (q : Nat) (hq : q ≠ p) :
          (((s.setPart p { j with switch := .none }).setPart p { j with switch := .restoring j.ctx }).part q) = s.part q := by
        rw [State.part_setPart, if_neg hq, State.part_setPart, if_neg hq]
      clear ho ht
      by_cases hk : (s.part p).en = false
      · rw [if_pos hk] at hj
        subst hj
        exact ⟨rfl, he, rfl, rfl, rfl, rfl, rfl, rfl, rfl, fun _ => ⟨rfl, rfl, rfl⟩, hrest⟩
      · rw [if_neg hk] at hj
        subst hj
        exact ⟨rfl, he, rfl, rfl, rfl, rfl, rfl, rfl, rfl, fun h => absurd h hk, hrest⟩
  case descUnmanaged =>
    intro s p v hw hm
    have ho : Occurs (.partitionDescriptorWrite p v) s (s.writeDesc p v) := occurs_event (f := fun s => s.writeDesc p v) rfl hw
    rwa [writeDesc_unmanaged p v hm] at ho
  case descResident =>
    intro s p v hw hm hr hp
    have ho : Occurs (.partitionDescriptorWrite p v) s (s.writeDesc p v) := occurs_event (f := fun s => s.writeDesc p v) rfl hw
    rwa [writeDesc_refused hp hm (.inl hr)] at ho
  case write =>
    intro s m hw
    refine ⟨fun hm => ?_, fun hm => ?_⟩
    · have ho : Occurs (.managementWrite m) s (if s.managed then s.manage m else s) :=
        occurs_event (f := fun s => if s.managed then s.manage m else s) rfl hw
      rwa [if_neg (ne_true_of_eq_false hm)] at ho
    have take {t : State} (h : s.manage m = t) : Occurs (.managementWrite m) s t := managed_write hw hm h
    refine ⟨?ring, ?queue1, ?queue2, ?area, ?root, ?block, ?image, ?peerEdit, ?snap, ?slot, ?sealed, ?debug, ?dev, ?clear, ?dom, ?length, ?qos,
      ?weight, ?stream, ?route, ?udp, ?trellis, ?memory⟩
    case ring =>
      rintro c n w rfl hn
      refine take ((if_pos hn).trans ?_)
      simp only [ringD_write]
    case queue1 =>
      rintro c i w rfl hi
      exact take (if_pos hi)
    case queue2 =>
      rintro c i w rfl hi
      exact take (if_pos hi)
    case dev | weight | udp =>
      rintro _ rfl
      exact take rfl
    case area | root | block | image | snap | dom | length | qos | stream | route =>
      rintro _ _ rfl
      exact take rfl
    case peerEdit | trellis =>
      rintro _ _ _ rfl
      exact take rfl
    case slot =>
      rintro t w rfl ht
      exact take (if_pos ht)
    case sealed =>
      rintro p g n a rfl ha
      refine ⟨fun h => take (readSealed_unread ha h), fun hb hf => ?_⟩
      intro at_ r
      refine ⟨s.verified p at_ r.2, take (readSealed_reads ha hb hf), ?_, fun i hi => ?_⟩
      · exact verified_length s p at_ r.2
      · exact verified_getD s p at_ r.2 i (by rwa [verified_length] at hi)
    case debug =>
      rintro c w rfl
      refine ⟨fun h => take (debug_absent w h), fun p hp => ⟨fun h => take (debug_unattached w hp h), fun hd hh => ?_⟩⟩
      refine ⟨?g, ?v, ?cr, ?walker, ?pc, ?spad, ?imem, ?acc⟩
      case g =>
        rintro k n r v rfl hk hn hr
        refine take ((debug_attached hp hd hh _).trans (if_pos ?_))
        simp [hk, hn, show ¬r = 0#5 from hr]
      case v =>
        rintro k n r v rfl hk hn
        exact take (debug_guarded hp hd hh hk hn rfl)
      case cr =>
        rintro k n num v rfl hk hn
        refine ⟨?_, ?_, ?_, ?_, ?_⟩ <;> rintro rfl <;> exact take (debug_guarded hp hd hh hk hn rfl)
      case walker =>
        rintro k i st win ret x rfl hk hx
        refine take ((debug_attached hp hd hh _).trans ((if_pos hk).trans ?_))
        rw [hx]
        rfl
      case pc =>
        rintro k n a rfl hk hn
        exact take (debug_guarded hp hd hh hk hn rfl)
      case spad =>
        rintro k o b rfl hk ho
        exact take (debug_guarded hp hd hh hk ho rfl)
      case imem =>
        rintro k o b rfl hk ho
        exact take (debug_guarded hp hd hh hk ho rfl)
      case acc =>
        rintro k i v rfl hk hi
        exact take (debug_guarded hp hd hh hk hi rfl)
    case clear =>
      rintro c n rfl hn
      exact take (if_pos hn)
    case memory =>
      rintro a w rfl ha hl
      refine ⟨_, take (manage_memory a w ha hl), fun b => ?_⟩
      have hmem : (s.wrBytes a (leBytes 8 w.toNat)).mem = s.mem := by
        obtain ⟨wr, l, f, h⟩ := wrBytes_homeStep s a (leBytes 8 w.toNat)
        rw [h]
      rw [read_settleMem, ← rdByte_fresh hw]
      exact (rdByte_congr (s := s.wrBytes a (leBytes 8 w.toNat)) rfl hmem.symm b).trans (rdByte_wrBytes s a (leBytes 8 w.toNat) b)
  case peerUnmanaged =>
    intro s p hw hm
    have ho : Occurs (.peerInvalidation p) s (if s.managed then s.modPart p Partition.applyPeers else s) :=
      occurs_event (f := fun s => if s.managed then s.modPart p Partition.applyPeers else s) rfl hw
    rwa [if_neg (ne_true_of_eq_false hm)] at ho
  case peer =>
    intro s p hw hm
    have ho : Occurs (.peerInvalidation p) s (if s.managed then s.modPart p Partition.applyPeers else s) :=
      occurs_event (f := fun s => if s.managed then s.modPart p Partition.applyPeers else s) rfl hw
    rw [if_pos hm] at ho
    refine ⟨_, ho, rfl, ?_⟩
    rw [State.part_modPart_self]
    refine ⟨rfl, rfl, rfl, fun h => ?_⟩
    refine (find_foldl_edits 0 (s.part p).peerEdits h (s.part p).peers).trans ?_
    cases (s.part p).peerEdits.reverse.find? fun e => e.1 == h <;> rfl
  case frameSame =>
    intro s hw h
    have ho : Occurs .memoryPlaneFrame s { s with fabric := s.fabric.nextFrame s.time } :=
      occurs_event (f := fun s => { s with fabric := s.fabric.nextFrame s.time }) rfl hw
    rwa [Fabric.nextFrame, if_neg (Nat.not_lt.2 h)] at ho
  case frame =>
    intro s hw h
    have ho : Occurs .memoryPlaneFrame s { s with fabric := s.fabric.nextFrame s.time } :=
      occurs_event (f := fun s => { s with fabric := s.fabric.nextFrame s.time }) rfl hw
    rw [Fabric.nextFrame, if_pos h] at ho
    refine ⟨_, ho, rfl, rfl, rfl, rfl, fun t => ?_⟩
    refine (find_foldl_edits 0 s.fabric.slotPending t s.fabric.slotTable).trans ?_
    cases s.fabric.slotPending.reverse.find? fun e => e.1 == t <;> rfl
  case plane =>
    intro s p h e
    have he : s.slotNow = e := slotNow_eq h
    have hopen := planeOpen_iff s p
    rw [he] at hopen
    refine ⟨fun hb hq => hopen.2 (.inl ⟨hb, hq⟩), fun hb hq => ?_, fun hb hq => hopen.2 (.inr ⟨hq, .inl hb⟩)⟩
    rw [← Bool.not_eq_true, hopen]
    rintro (⟨h7, hqp⟩ | ⟨h24, -⟩)
    · exact hb.elim (fun h => h hqp) fun h => Bool.false_ne_true (h.symm.trans h7)
    · exact Bool.false_ne_true (hq.symm.trans h24)
  case e2et =>
    intro s v hw hm
    exact ⟨fun h => occurs_managed rfl hw hm (if_pos h), fun h => occurs_managed rfl hw hm (if_neg (by omega))⟩
  case create =>
    intro s c hw hc ha
    have ho : Occurs (.contextCreation c) s (s.createContext c) := occurs_event (f := fun s => s.createContext c) rfl hw
    rwa [State.createContext, if_neg (by simp [ha, hc])] at ho
  case destroy =>
    intro s c hw
    obtain ⟨hmem, hsaves⟩ := destroyContext_rest s c
    refine ⟨_, occurs_event (f := fun s => s.destroyContext c) rfl hw, hmem, ?_, ?_, fun d hd => ?_, fun h => ?_, fun p h hx hy => ⟨?_, fun k hk i hi => ?_⟩⟩
    · exact (ctx_destroyContext s c c).trans (if_pos rfl)
    · rw [hsaves]
      exact Tbl.get?_del_self _ _
    · exact (ctx_destroyContext s c d).trans (if_neg hd)
    · rw [destroyContext_absent s c h]
      exact ⟨rfl, rfl⟩
    · rw [destroyContext_resident s c h]
      exact congrArg Partition.resident (State.part_modPart_self (s.clearPart p) p fun k => { k.bare with switch := .none })
    · refine core_destroyContext s c h ?_
      rw [show clusterOf (16 * k + i) = k by rw [clusterOf]; omega]
      exact holds_of_mem_clusters hx hk
  case unmanaged =>
    intro s d v w hw hm
    exact ⟨occurs_unmanaged rfl hw hm, occurs_unmanaged rfl hw hm, occurs_unmanaged rfl hw hm, occurs_unmanaged rfl hw hm,
      occurs_unmanaged rfl hw hm, occurs_unmanaged rfl hw hm, occurs_unmanaged rfl hw hm⟩
  case domain =>
    intro s d hw hm n
    refine ⟨fun h => occurs_managed rfl hw hm (if_pos h), fun h => ⟨occurs_managed rfl hw hm (if_neg (ne_true_of_eq_false h)),
      occurs_managed rfl hw hm ?_⟩, fun k hk => occurs_managed rfl hw hm (destroyDomain_held hk)⟩
    rw [State.destroyDomain, get?_of_hasKey_false h]
  case keys =>
    intro s d k hw hm hk set
    refine ⟨fun hn => occurs_managed rfl hw hm ?_, fun n hn => ⟨occurs_managed rfl hw hm ?_, fun hs hu => occurs_managed rfl hw hm ?_,
      fun h => occurs_managed rfl hw hm ?_⟩⟩
    · rw [modKeys_held hk, DomKeys.install, hn]
      rfl
    · rw [modKeys_held hk, DomKeys.switch, hn]
      rfl
    · have hno : s.keyInUse d k.current = false := by
        rw [← Bool.not_eq_true, keyInUse_iff]
        exact fun ⟨o, ho, f, hf, hd, hc⟩ => hu o ho f hf hd hc
      rw [State.destroyKey, modKeys_held hk, hn, hs, hno]
      rfl
    · have hno : (k.switched && !s.keyInUse d k.current) = false := by
        rcases h with h | h
        · rw [h]
          rfl
        · rw [(keyInUse_iff s d k.current).2 h, Bool.not_true, Bool.and_false]
      rw [State.destroyKey, modKeys_held hk, hn]
      simp only [hno]
      rfl

end Sys2Proof
end

section
/-! PROOF. Frames, links and flows of the fabric (20_fabric.md R291, R292, R294, R295, R299 to R304; 24_protection.md R345): O43. -/

namespace Sys2Proof
namespace Machine

open Safety

/-! ## The sides of a flow -/

theorem find?_replaced {α : Type} (l : List (FlowId × α)) (w : FlowId) (x : α) :
    ((l.filter fun e => e.1 != w) ++ [(w, x)]).find? (fun e => e.1 == w) = some (w, x) := by
  have hno : (l.filter fun e => e.1 != w).find? (fun e => e.1 == w) = none := by
    rw [List.find?_eq_none]
    intro e he
    simpa using (List.mem_filter.1 he).2
  rw [List.find?_append, hno]
  simp

theorem outOf_setOut (f : Fabric) (w : FlowId) (o : FlowOut) : (f.setOut w o).outOf w = o :=
  congrArg (fun x => (x.map (·.2)).getD {}) (find?_replaced f.out w o)

theorem inOf_setIn (f : Fabric) (w : FlowId) (i : FlowIn) : (f.setIn w i).inOf w = i :=
  congrArg (fun x => (x.map (·.2)).getD {}) (find?_replaced f.inn w i)

/-! ## What a port's sending leaves of the flows -/

theorem pumpPort_flows (port fuel : Nat) (s : State) :
    (s.pumpPort port fuel).fabric.out = s.fabric.out ∧ (s.pumpPort port fuel).fabric.devId = s.fabric.devId := by
  induction fuel generalizing s with
  | zero => exact ⟨rfl, rfl⟩
  | succ n ih =>
    unfold State.pumpPort
    split
    · exact ⟨rfl, rfl⟩
    · dsimp only
      split
      · exact ih _
      · exact ⟨rfl, rfl⟩

theorem forwardFrame_flows (s : State) (k : Nat) (fr : Frame) :
    (s.forwardFrame k fr).fabric.out = s.fabric.out ∧ (s.forwardFrame k fr).fabric.devId = s.fabric.devId := by
  unfold State.forwardFrame
  extract_lets all ports
  split
  · exact ⟨rfl, rfl⟩
  · dsimp only
    split
    · exact pumpPort_flows _ _ _
    · exact ⟨rfl, rfl⟩

theorem inject_flows (s : State) (k : Nat) (fr : Frame) :
    (s.inject k fr).fabric.out = s.fabric.out ∧ (s.inject k fr).fabric.devId = s.fabric.devId := by
  unfold State.inject
  split
  · exact forwardFrame_flows _ _ _
  · exact ⟨rfl, rfl⟩

theorem flowOn_devId (w : FlowId) (fuel : Nat) (s : State) : (s.flowOn w fuel).fabric.devId = s.fabric.devId := by
  induction fuel generalizing s with
  | zero => rfl
  | succ n ih =>
    unfold State.flowOn
    dsimp only
    split
    · rfl
    · split
      · exact (ih _).trans (inject_flows _ _ _).2
      · rfl

theorem flowGoes_devId (s : State) (w : FlowId) : (s.flowGoes w).fabric.devId = s.fabric.devId := flowOn_devId w _ s

/-! ## Frames that a link brings (R295, R299, R301) -/

section
variable {s : State} {port : Nat} {f : Frame}

theorem receive_down (h : (s.fabric.link port).up = false ∨ s.managed = false) : s.receive port f = s := by
  refine if_pos ?_
  rcases h with h | h <;> simp [h]

variable (hup : (s.fabric.link port).up = true) (hm : s.managed = true)
include hup hm

theorem receive_badFcs (hg : f.fcsGood = false) : s.receive port f = s.dropFrame.reportCount port true := by
  simp [State.receive, hup, hm, hg]

variable (hg : f.fcsGood = true)
include hg

theorem receive_link {count : Nat} {gap : Bool} (hl : linkFrame f = true) (hp : f.payload = .link count gap) :
    s.receive port f = if s.frameOk port f then s.linkControl port count gap else s.dropFrame := by
  simp [State.receive, hup, hm, hg, hl, hp]

variable (hl : linkFrame f = false)
include hl

theorem receive_gap (hc : (s.fabric.link port).received + 1 < f.count) : s.receive port f = s.reportCount port true := by
  simp [State.receive, hup, hm, hg, hl, hc, hc.ne']

theorem receive_again (hc : f.count ≤ (s.fabric.link port).received) : s.receive port f = s.reportCount port false := by
  have hne : f.count ≠ (s.fabric.link port).received + 1 := by omega
  have hlt : ¬(s.fabric.link port).received + 1 < f.count := by omega
  simp [State.receive, hup, hm, hg, hl, hne, hlt]

theorem receive_next (hc : f.count = (s.fabric.link port).received + 1) : s.receive port f =
    (State.reportCount { s with fabric := s.fabric.setLink port { s.fabric.link port with received := (s.fabric.link port).received + 1 } }
      port false).receiveGood port f := by
  simp [State.receive, hup, hm, hg, hl, hc]

end

section
variable {u : State} {port : Nat} {f : Frame}

theorem receiveGood_bad (h : u.frameOk port f = false) : u.receiveGood port f = u.dropFrame := if_pos (by simp [h])

variable (h : u.frameOk port f = true)
include h

theorem receiveGood_transit (hc : f.ddev ≠ 0x3FFFF) (hd : f.ddev ≠ u.fabric.devId)
    (hs : f.opcode ≠ 3 ∨ Tbl.get? u.fabric.streams f.stream = none) :
    u.receiveGood port f = u.forwardFrame transitClass { f with out := none } := by
  rw [State.receiveGood, if_neg (by simp [h]), if_neg hc, if_pos hd]
  by_cases ho : f.opcode = 3
  · rw [if_pos ho, State.streamTransit, hs.resolve_left (not_not.2 ho)]
  · exact if_neg ho

variable (hd : f.ddev = u.fabric.devId) (hc : u.fabric.devId ≠ 0x3FFFF)
include hd hc

theorem receiveGood_own : u.receiveGood port f =
    if !u.tagOk f then u.dropFrame
    else
      let u := if f.ackv then u.takeAckFrame f else u
      if f.opcode = 2 then u else u.sequence port f := by
  rw [State.receiveGood, if_neg (by simp [h]), if_neg (by rwa [hd]), if_neg (not_not.2 hd)]

end

theorem frameOk_iff (s : State) (port : Nat) (f : Frame) : s.frameOk port f = true ↔
    f.supported = true ∧ 64 ≤ f.wire ∧ f.wire ≤ 9216 ∧ f.reservedZero = true ∧ f.tc ≤ 3 ∧
    (f.opcode = 1 ∨ f.opcode = 2 ∨ f.opcode = 3 ∨ f.opcode = 4 ∨ f.opcode = 0x0F ∧ f.ddev = 0x3FFFF) ∧
    f.length ≤ (if 24 ≤ port then 9108 else 9174) ∧ (port < 24 ∨ f.udp = s.fabric.udpPort) := by
  simp only [State.frameOk, linkFrame, List.contains_cons, List.contains_nil, Bool.and_eq_true, Bool.or_eq_true, decide_eq_true_eq, beq_iff_eq,
    Bool.or_false, and_assoc, or_assoc]

/-! ## Where a frame of this device stands in its flow (R300, R303) -/

theorem ahead_eq (i : FlowIn) (f : Frame) (hn : i.next < 2 ^ 24) (hf : f.seq < 2 ^ 24) : i.ahead f =
    (f.epoch % 2 ^ 20 * 2 ^ 24 + f.seq + 2 ^ 44 - (i.epoch % 2 ^ 20 * 2 ^ 24 + i.next)) % 2 ^ 44 := by
  rw [FlowIn.ahead, Nat.mod_eq_of_lt hn, Nat.mod_eq_of_lt hf]

section
variable {s : State} {port : Nat} {f : Frame}

theorem sequence_eq (s : State) (port : Nat) (f : Frame) {w : FlowId} (hw : w = ⟨f.sdev, f.ddev, f.tc⟩) {i : FlowIn} (hi : i = s.fabric.inOf w)
    {d : Nat} (hd : d = i.ahead f) : s.sequence port f =
    if d = 0 then
      if s.takeable f = true then
        ((State.takeFrame { s with fabric := s.fabric.setIn w i.pass } port f).takeHeld w (i.held.length + 1)).answerFrame f
      else s
    else if d < 4096 then
      if (Tbl.get? i.held f.seq).isSome = true then s.answerFrame f
      else { s with fabric := s.fabric.setIn w { i with held := Tbl.set i.held f.seq (port, f) } }
    else if 2 ^ 43 ≤ d then s.answerFrame f
    else s := by
  subst hd hi hw
  unfold State.sequence
  rfl

theorem answerFrame_own (h : f.ddev = s.fabric.devId) : s.answerFrame f = s.sendAck f := by
  refine if_pos ?_
  rw [State.ackHere, beq_iff_eq.2 h, Bool.true_or]

end

/-! ## The plane between ports and partitions (R289, 24 R344) -/

section
variable {s : State} {p : Nat} {f : Frame}

theorem takeFrame_own (port : Nat) (h : s.frameFor f = some p) : s.takeFrame port f =
    if (s.part p).halt ≠ .running then s.modPart p fun k => { k with holding := k.holding ++ [(port, f)], holdBytes := k.holdBytes + f.wire }
    else if s.planeOpen p && s.fabric.arrived.all fun e => s.frameFor e.2 != some p then s.takePayload port f
    else { s with fabric := { s.fabric with arrived := s.fabric.arrived ++ [(port, f)] } } := by
  rw [State.takeFrame, h]

end

/-! ## Acknowledgements (R300) -/

theorem flowGoes_idle {s : State} {w : FlowId} (h : (s.fabric.outOf w).queue = []) : s.flowGoes w = s := by
  rw [State.flowGoes, h]
  rfl

theorem acked_spec {s : State} {w : FlowId} (next : Nat) (hq : (s.fabric.outOf w).queue = []) :
    ((s.acked w next).fabric.outOf w).unacked = (s.fabric.outOf w).unacked.filter (fun f => !seqBefore f.seq next) ∧
      (((s.acked w next).fabric.outOf w).unacked ≠ (s.fabric.outOf w).unacked → ((s.acked w next).fabric.outOf w).expired = 0) ∧
      (s.acked w next).mem = s.mem := by
  unfold State.acked
  dsimp only
  generalize hl : (s.fabric.outOf w).unacked.filter (fun f => !seqBefore f.seq next) = left
  by_cases he : left.length = (s.fabric.outOf w).unacked.length
  · rw [if_pos he]
    have hsame : left = (s.fabric.outOf w).unacked := by
      rw [← hl] at he ⊢
      exact List.filter_sublist.eq_of_length he
    exact ⟨hsame.symm, fun h => absurd rfl h, rfl⟩
  · rw [if_neg he, flowGoes_idle (by rw [outOf_setOut]; exact hq), outOf_setOut]
    exact ⟨rfl, fun _ => rfl, rfl⟩

/-! ## The best of the ports (R299) and the class whose turn it is (24 R345) -/

/-- A fold that keeps the better of two keeps the best of a list. -/
theorem foldl_best {α : Type} {b : α → α → Prop} [DecidableRel b] {R : α → α → Prop} (hr : ∀ x, R x x) (ht : ∀ {x y z}, R x y → R y z → R x z)
    (hb : ∀ {x y}, b x y → R x y) (hn : ∀ {x y}, ¬b x y → R y x) (l : List α) : ∀ p,
    l.foldl (fun m q => if b q m then q else m) p ∈ p :: l ∧ ∀ q ∈ p :: l, R (l.foldl (fun m q => if b q m then q else m) p) q := by
  induction l with
  | nil =>
    intro p
    exact ⟨List.mem_cons_self, fun q hq => by rw [List.mem_singleton.1 hq]; exact hr p⟩
  | cons x l ih =>
    intro p
    rw [List.foldl_cons]
    obtain ⟨hm, hbest⟩ := ih (if b x p then x else p)
    generalize l.foldl (fun m q => if b q m then q else m) (if b x p then x else p) = m at *
    have hfirst := hbest _ List.mem_cons_self
    refine ⟨?_, fun q hq => ?_⟩
    · rcases List.mem_cons.1 hm with h | h
      · rw [h]
        split <;> simp
      · simp [h]
    · by_cases hx : b x p
      · rw [if_pos hx] at hfirst
        rcases List.mem_cons.1 hq with rfl | hq
        · exact ht hfirst (hb hx)
        · rcases List.mem_cons.1 hq with rfl | hq
          · exact hfirst
          · exact hbest q (List.mem_cons_of_mem _ hq)
      · rw [if_neg hx] at hfirst
        rcases List.mem_cons.1 hq with rfl | hq
        · exact hfirst
        · rcases List.mem_cons.1 hq with rfl | hq
          · exact ht hfirst (hn hx)
          · exact hbest q (List.mem_cons_of_mem _ hq)

theorem portBefore_iff (s : State) (n p q : Nat) : s.portBefore n p q = true ↔
    Config.portSlots n q < Config.portSlots n p ∨ Config.portSlots n q = Config.portSlots n p ∧
      ((s.fabric.queued p).length < (s.fabric.queued q).length ∨ (s.fabric.queued p).length = (s.fabric.queued q).length ∧ p < q) := by
  rw [State.portBefore, decide_eq_true_eq, eq_comm (a := Config.portSlots n p)]

theorem bestPort_spec (s : State) (n : Nat) {l : List Nat} (hl : l ≠ []) : ∃ p ∈ l, s.bestPort n l = some p ∧
    ∀ q ∈ l, q ≠ p → s.portBefore n p q = true := by
  obtain ⟨p, r, rfl⟩ := List.exists_cons_of_ne_nil hl
  obtain ⟨hm, hbest⟩ := foldl_best (b := fun q p => s.portBefore n q p = true) (R := fun p q => q ≠ p → s.portBefore n p q = true)
    (fun x h => absurd rfl h) (fun {x y z} hxy hyz h => by
      by_cases hy : y = x
      · exact hy ▸ hyz (hy ▸ h)
      · by_cases hz : z = y
        · exact hz ▸ hxy hy
        · have h1 := (portBefore_iff s n x y).1 (hxy hy)
          have h2 := (portBefore_iff s n y z).1 (hyz hz)
          rw [portBefore_iff]
          omega) (fun h _ => h) (fun {x y} h hne => by
      rw [portBefore_iff] at h ⊢
      omega) r p
  exact ⟨_, hm, rfl, hbest⟩

theorem forwardFrame_ports {s : State} (k : Nat) {f : Frame} (hf : f.out = none) :
    let ports := ((Tbl.get? s.fabric.routes f.ddev).getD []).filter fun p =>
      (s.fabric.link p).up && (decide (p < 24) || decide (f.length ≤ 9108))
    (ports = [] → s.forwardFrame k f = s.dropFrame) ∧
    (ports ≠ [] → ∃ p ∈ ports, s.forwardFrame k f = State.enqueueFrame { s with free := s.free + 1 } p k f ∧
      ∀ q ∈ ports, q ≠ p → s.portBefore s.free p q = true) := by
  intro ports
  have he : s.forwardFrame k f = if ports.isEmpty then s.dropFrame else match State.bestPort { s with free := s.free + 1 } s.free ports with
      | some p => State.enqueueFrame { s with free := s.free + 1 } p k f
      | none => { s with free := s.free + 1 } := by
    rw [State.forwardFrame, hf]
    rfl
  rw [he]
  refine ⟨fun h => if_pos (List.isEmpty_iff.2 h), fun h => ?_⟩
  obtain ⟨p, hp, hb, hq⟩ := bestPort_spec { s with free := s.free + 1 } s.free h
  refine ⟨p, hp, ?_, hq⟩
  rw [if_neg (mt List.isEmpty_iff.1 h), hb]

theorem mem_busyClasses (s : State) (port k : Nat) :
    k ∈ s.busyClasses port ↔ k ∈ (s.fabric.queued port).map (·.1) ∧ s.weight port k ≠ 0 := by
  rw [State.busyClasses, List.mem_filter, List.mem_dedup, bne_iff_ne]

theorem foldl_min_mem (l : List Nat) (x : Nat) : l.foldl Nat.min x ∈ x :: l := by
  induction l generalizing x with
  | nil => exact List.mem_cons_self
  | cons y l ih =>
    rw [List.foldl_cons]
    rcases List.mem_cons.1 (ih (Nat.min x y)) with h | h
    · rw [h]
      rcases Nat.le_total x y with hxy | hxy
      · rw [show Nat.min x y = x from Nat.min_eq_left hxy]
        exact List.mem_cons_self
      · rw [show Nat.min x y = y from Nat.min_eq_right hxy]
        exact List.mem_cons_of_mem _ List.mem_cons_self
    · exact List.mem_cons_of_mem _ (List.mem_cons_of_mem _ h)

/-- The port's count has reached the start of a class that has frames queued. -/
theorem exists_started {s : State} {port : Nat} (h : s.busyClasses port ≠ []) :
    ∃ k ∈ s.busyClasses port, Tbl.find 0 (s.fabric.link port).start k ≤ s.portClock port := by
  obtain ⟨x, r, hl⟩ := List.exists_cons_of_ne_nil (mt List.map_eq_nil_iff.1 h : (s.busyClasses port).map (Tbl.find 0 (s.fabric.link port).start) ≠ [])
  have hc : s.portClock port = Nat.max (s.fabric.link port).clock (r.foldl Nat.min x) := by
    rw [State.portClock]
    simp only [hl]
  obtain ⟨k, hk, hmin⟩ := List.mem_map.1 (hl ▸ foldl_min_mem r x)
  exact ⟨k, hk, by rw [hmin, hc]; exact Nat.le_max_right _ _⟩

/-- What a fold from no class keeps is what the fold from the first one keeps. -/
theorem foldl_dueEnd (s : State) (port : Nat) (l : List Nat) : ∀ j,
    l.foldl (fun b k => match b with
      | none => some k
      | some j => if s.dueEnd port k < s.dueEnd port j then some k else some j) (some j) =
    some (l.foldl (fun j k => if s.dueEnd port k < s.dueEnd port j then k else j) j) := by
  induction l with
  | nil => exact fun j => rfl
  | cons k l ih =>
    intro j
    rw [List.foldl_cons, List.foldl_cons, ← ih]
    dsimp only
    split <;> rfl

theorem nextClass?_idle {s : State} {port : Nat} (h : s.busyClasses port = []) :
    s.nextClass? port = ((s.fabric.queued port).head?).map (·.1) := by
  rw [State.nextClass?, h]

theorem nextClass?_busy {s : State} {port : Nat} (h : s.busyClasses port ≠ []) : ∃ k ∈ s.busyClasses port, s.nextClass? port = some k ∧
    Tbl.find 0 (s.fabric.link port).start k ≤ s.portClock port ∧
    ∀ j ∈ s.busyClasses port, Tbl.find 0 (s.fabric.link port).start j ≤ s.portClock port → s.dueEnd port k ≤ s.dueEnd port j := by
  obtain ⟨k0, hk0, hs0⟩ := exists_started h
  have hmem (k : Nat) : k ∈ (s.busyClasses port).filter (fun k => decide (Tbl.find 0 (s.fabric.link port).start k ≤ s.portClock port)) ↔
      k ∈ s.busyClasses port ∧ Tbl.find 0 (s.fabric.link port).start k ≤ s.portClock port := by
    rw [List.mem_filter, decide_eq_true_eq]
  have hn : s.nextClass? port =
      ((s.busyClasses port).filter fun k => decide (Tbl.find 0 (s.fabric.link port).start k ≤ s.portClock port)).foldl (fun b k => match b with
        | none => some k
        | some j => if s.dueEnd port k < s.dueEnd port j then some k else some j) none := by
    rw [State.nextClass?]
    split
    · next he => exact absurd he h
    · rfl
  obtain ⟨x, r, hx⟩ := List.exists_cons_of_ne_nil (List.ne_nil_of_mem ((hmem k0).2 ⟨hk0, hs0⟩))
  rw [hx, List.foldl_cons] at hn
  rw [hx] at hmem
  obtain ⟨hm, hbest⟩ := foldl_best (b := fun k j => s.dueEnd port k < s.dueEnd port j) (R := fun k j => s.dueEnd port k ≤ s.dueEnd port j)
    (fun k => Nat.le_refl _) Nat.le_trans Nat.le_of_lt Nat.le_of_not_lt r x
  obtain ⟨hk, hs⟩ := (hmem _).1 hm
  exact ⟨_, hk, hn.trans (foldl_dueEnd s port r x), hs, fun j hj hjs => hbest j ((hmem j).2 ⟨hj, hjs⟩)⟩

theorem classFrame?_spec {s : State} {port k c : Nat} {f : Frame} (h : s.classFrame? port k = some (c, f)) :
    c = k ∧ (f.tc = 0 → ∀ e ∈ s.fabric.queued port, e.1 = k → e.2.tc ≠ 1) := by
  have hmem {e : Nat × Frame} : e ∈ (s.fabric.queued port).filter (fun e => e.1 == k) ↔ e ∈ s.fabric.queued port ∧ e.1 = k := by
    rw [List.mem_filter, beq_iff_eq]
  rw [State.classFrame?] at h
  generalize (s.fabric.queued port).filter (fun e => e.1 == k) = l at h hmem
  cases l with
  | nil => exact absurd h (by simp)
  | cons x r =>
    by_cases h0 : x.2.tc = 0
    · simp only [List.head?_cons, h0, if_true] at h
      cases hq : (x :: r).find? fun e => e.2.tc == 1 with
      | some y =>
        rw [hq] at h
        obtain rfl : y = (c, f) := Option.some.inj h
        refine ⟨(hmem.1 (List.mem_of_find?_eq_some hq)).2, fun ht => ?_⟩
        have h1 : f.tc = 1 := beq_iff_eq.1 (List.find?_some (p := fun e : Nat × Frame => e.2.tc == 1) hq)
        exact absurd (ht.symm.trans h1) (by decide)
      | none =>
        rw [hq] at h
        obtain rfl : x = (c, f) := Option.some.inj h
        exact ⟨(hmem.1 List.mem_cons_self).2, fun _ e he hk => by simpa using List.find?_eq_none.1 hq e (hmem.2 ⟨he, hk⟩)⟩
    · simp only [List.head?_cons, h0, if_false] at h
      obtain rfl : x = (c, f) := Option.some.inj h
      exact ⟨(hmem.1 List.mem_cons_self).2, fun ht => absurd ht h0⟩

theorem nextFrame?_spec {s : State} {port k : Nat} {f : Frame} (h : s.nextFrame? port = some (k, f)) :
    s.nextClass? port = some k ∧ (f.tc = 0 → ∀ e ∈ s.fabric.queued port, e.1 = k → e.2.tc ≠ 1) := by
  rw [State.nextFrame?] at h
  cases hc : s.nextClass? port with
  | none =>
    rw [hc] at h
    cases h
  | some j =>
    rw [hc] at h
    obtain ⟨rfl, ht⟩ := classFrame?_spec h
    exact ⟨rfl, ht⟩

theorem charge_weighted (l : Link) (k bytes all : Nat) {w : Nat} (hw : w ≠ 0) : l.charge k bytes w all =
    { l with start := Tbl.put 0 l.start k (Tbl.find 0 l.start k + bytes * 65536 / w), clock := l.clock + bytes * 65536 / all } := if_neg hw

/-! ## Sending in a flow (R300, R304) -/

theorem reuses_unused {o : FlowOut} {dom key : Nat} (h : ∀ e ∈ o.keys, e.1 = dom → e.2.1 ≠ key) : o.reuses dom key = false := by
  have hn : o.keys.find? (fun e => e.1 == dom && e.2.1 == key) = none := by
    rw [List.find?_eq_none]
    intro e he
    simpa using h e he
  rw [FlowOut.reuses, keySince, hn]
  rfl

theorem reuses_used {o : FlowOut} {dom key n : Nat} (h : o.keys.find? (fun e => e.1 == dom && e.2.1 == key) = some (dom, key, n)) :
    o.reuses dom key = true ↔ n + 2 ^ 20 ≤ o.epoch := by
  rw [FlowOut.reuses, keySince, h, Option.map_some, Option.any_some, decide_eq_true_eq]

section
variable {s : State} (dev tc dom strm : Nat) (out : Option Nat) (pl : Payload)

theorem sendVia_eq : s.sendVia dev tc dom strm out pl =
    if (s.fabric.outOf (s.flowTo dev tc)).queue = [] ∧ (s.fabric.outOf (s.flowTo dev tc)).unacked.length < 4096 ∧
        (s.fabric.outOf (s.flowTo dev tc)).broken = false ∧ (s.fabric.outOf (s.flowTo dev tc)).reuses dom (s.sealKey dom) = false then
      s.emit (s.flowTo dev tc) dom strm out pl
    else { s with fabric := s.fabric.setOut (s.flowTo dev tc) { s.fabric.outOf (s.flowTo dev tc) with
      queue := (s.fabric.outOf (s.flowTo dev tc)).queue ++ [(dom, strm, out, pl)] } } := by
  unfold State.sendVia
  dsimp only
  simp only [FlowOut.room, Bool.and_eq_true, List.isEmpty_iff, decide_eq_true_eq, Bool.not_eq_true', and_assoc]

end

/-! ## Links that come up (R301) -/

section
variable {s : State} {port : Nat}

theorem linkTraining_started (port : Nat) (hw : s.wr = []) (hr : s.plat.stage ≠ .recovery) :
    Occurs (.linkTraining port) s (s.linkTrain port) := by
  have hk : s.plat.portTrained port s.time s.fabric.devId = s.plat := if_neg fun h => hr h.1
  rw [Occurs, linkTraining_eq port hw]
  generalize s.linkTrain port = t
  refine congrArg Host.Outcome.next ?_
  show State.performPlat _ _ = _
  rw [State.performPlat, show (State.settleMem { t with mem := s.mem, plat := s.plat }).plat = s.plat from rfl, hk]
  rfl

theorem linkTrain_idle (hr : s.plat.stage ≠ .recovery) (h : (s.fabric.link port).up = true ∨ 26 ≤ port ∨ s.managed = false) :
    s.linkTrain port = s := by
  unfold State.linkTrain
  split
  · rfl
  · next hup =>
    refine if_pos ((h.resolve_left hup).imp_right fun hm => ?_)
    rw [hm, decide_eq_false hr]
    rfl

theorem linkTrain_starts (hd : (s.fabric.link port).up = false) (hp : port < 26) (hm : s.managed = true) :
    s.linkTrain port = State.pump { s with fabric := s.fabric.setLink port { up := true } } port := by
  rw [State.linkTrain, if_neg (ne_true_of_eq_false hd), if_neg]
  rw [hm]
  rintro (h | h)
  · exact Nat.not_le.2 hp h
  · exact Bool.false_ne_true h

end

/-! ## Timers and restarts (R302) -/

theorem newEpoch_bounds (n old : Nat) : old < newEpoch n old ∧ newEpoch n old < old + 2 ^ 20 := by
  have h : Config.restartEpoch n % 1048575 < 1048575 := Nat.mod_lt _ (by decide)
  rw [show newEpoch n old = old + 1 + Config.restartEpoch n % 1048575 from rfl]
  omega

section
variable {s : State} {w : FlowId} (hs : w.sdev = s.fabric.devId)
include hs

theorem timerExpiry_due (hu : (s.fabric.outOf w).unacked ≠ []) (hb : (s.fabric.outOf w).broken = false) : s.timerExpiry w =
    if s.time < (s.fabric.outOf w).sentAt.headD 0 + s.fabric.e2et * 2700 then s
    else if 7 ≤ (s.fabric.outOf w).expired then s.breakFlow w
    else ((s.fabric.outOf w).unacked.map fun f => { f with resend := true }).foldl (fun u f => u.inject (u.classOf f.domain f.payload) f)
      { s with fabric := s.fabric.setOut w { s.fabric.outOf w with
        unacked := (s.fabric.outOf w).unacked.map fun f => { f with resend := true }
        sentAt := ((s.fabric.outOf w).unacked.map fun f => { f with resend := true }).map fun _ => s.time
        expired := (s.fabric.outOf w).expired + 1 } } := by
  unfold State.timerExpiry
  dsimp only
  simp only [hs, ne_eq, not_true_eq_false, List.isEmpty_iff, hu, hb, Bool.false_eq_true, false_or, cyclesPerUs,
    Nat.add_le_add_iff_right (n := 1)]

end

section
variable {s : State} {w : FlowId}

theorem restartFlow_broken (hs : w.sdev = s.fabric.devId) (hd : w.ddev ≠ s.fabric.devId) (hb : (s.fabric.outOf w).broken = true) :
    s.restartFlow w = State.flowGoes { s.nextFree.2 with fabric := s.fabric.setOut w { s.fabric.outOf w with
      seq := 0, epoch := newEpoch s.free (s.fabric.outOf w).epoch, unacked := [], sentAt := [], expired := 0, broken := false } } w := by
  rw [State.restartFlow, if_pos hs]
  dsimp only
  rw [if_pos hb]
  exact if_neg fun h => hd (h.trans (flowGoes_devId _ w))

theorem restartFlow_unbroken (hs : w.sdev = s.fabric.devId) (hd : w.ddev ≠ s.fabric.devId) (hb : (s.fabric.outOf w).broken = false) :
    s.restartFlow w = s := by
  rw [State.restartFlow, if_pos hs]
  dsimp only
  rw [if_neg (ne_true_of_eq_false hb), if_neg hd]

theorem restartFlow_in (hs : w.sdev ≠ s.fabric.devId) (hd : w.ddev = s.fabric.devId) :
    s.restartFlow w = (s.forgetAbroad w.sdev).restartIn w := by
  rw [State.restartFlow, if_neg hs, if_pos hd]

theorem restartIn_inOf (s : State) (w : FlowId) : ∃ e, e < 2 ^ 20 ∧ e ≠ (s.fabric.inOf w).epoch % 2 ^ 20 ∧
    (s.restartIn w).fabric.inOf w = { epoch := e } := by
  obtain ⟨hlo, hhi⟩ := newEpoch_bounds s.free (s.fabric.inOf w).epoch
  refine ⟨newEpoch s.free (s.fabric.inOf w).epoch % 2 ^ 20, Nat.mod_lt _ (by decide), ?_, inOf_setIn _ _ _⟩
  generalize newEpoch s.free (s.fabric.inOf w).epoch = e at hlo hhi ⊢
  generalize (s.fabric.inOf w).epoch = o at hlo hhi ⊢
  omega

end

/-! ## Where NEXT and a frame's number stand (R300, R303) -/

section
variable {i : FlowIn} {f : Frame} (hn : i.next < 2 ^ 24) (hf : f.seq < 2 ^ 24)
include hn hf

theorem ahead_sameEpoch (h : f.epoch % 2 ^ 20 = i.epoch % 2 ^ 20) :
    i.ahead f = if i.next ≤ f.seq then f.seq - i.next else 2 ^ 44 - (i.next - f.seq) := by
  rw [ahead_eq i f hn hf, h]
  split <;> omega

theorem ahead_nextEpoch (h : f.epoch % 2 ^ 20 = (i.epoch + 1) % 2 ^ 20) : i.ahead f = 2 ^ 24 - i.next + f.seq := by
  rw [ahead_eq i f hn hf, h]
  omega

theorem ahead_lastEpoch (h : (f.epoch + 1) % 2 ^ 20 = i.epoch % 2 ^ 20) : 2 ^ 43 ≤ i.ahead f := by
  rw [ahead_eq i f hn hf, ← h]
  omega

end

end Machine

open Machine Safety

/-- Settles O43: what a link brings (`receive_next`, `receiveGood_own`), a frame's place in its flow (`sequence_eq`, `ahead_nextEpoch`), the memory
plane (`takeFrame_own`), the choice of a port and of a class (`foldl_best`), sending, timers and restarts (`sendVia_eq`, `timerExpiry_due`). -/
theorem framesAndLinks : Obligations.FramesAndLinks := by
  unfold Obligations.FramesAndLinks
  refine ⟨?down, ?receive, ?sequence, fun s f h => answerFrame_own h, ?ahead, ?take, ?inject, ?report, frameOk_iff, ?acked, ?control, ?linkDown,
    ?training, ?forward, ?turn, ?idle, ?due, ?charge, ?next, ?emit, ?send, ?reuses, ?timer, ?restartOut, ?restartIn⟩
  case down =>
    intro s port f hw h
    have ho : Occurs (.frameReceive port f) s (s.receive port f) := occurs_event (f := fun s => s.receive port f) rfl hw
    rwa [receive_down h] at ho
  case receive =>
    intro s port f hw hup hm l u
    have ho : Occurs (.frameReceive port f) s (s.receive port f) := occurs_event (f := fun s => s.receive port f) rfl hw
    have hnext (hg : f.fcsGood = true) (hl : linkFrame f = false) (hc : f.count = l.received + 1) : s.receive port f = u.receiveGood port f :=
      receive_next hup hm hg hl hc
    have hdev : u.fabric.devId = s.fabric.devId := rfl
    have hstreams : u.fabric.streams = s.fabric.streams := rfl
    have htag : u.tagOk f = s.tagOk f := rfl
    clear_value u
    refine ⟨fun hg => ?_, fun hg hl count gap hp => ⟨fun hk => ?_, fun hk => ?_⟩, fun hg hl => ⟨fun hc => ?_, fun hc => ?_, fun hc => ?_⟩⟩
    · rwa [receive_badFcs hup hm hg] at ho
    · rwa [receive_link hup hm hg hl hp, if_neg (ne_true_of_eq_false hk)] at ho
    · rwa [receive_link hup hm hg hl hp, if_pos hk] at ho
    · rwa [receive_gap hup hm hg hl hc] at ho
    · rwa [receive_again hup hm hg hl hc] at ho
    rw [hnext hg hl hc] at ho
    refine ⟨fun hk => ?_, fun hk hn hd hs => ?_, fun hk hd hn => ?_⟩
    · rwa [receiveGood_bad hk] at ho
    · rwa [receiveGood_transit hk hn (hdev ▸ hd) (hstreams ▸ hs)] at ho
    have hown := receiveGood_own hk (hdev ▸ hd) (hdev ▸ hn)
    have hack : Occurs (.ackReceive port f) s (if f.opcode = 2 then s.receive port f else s) :=
      occurs_event (f := fun s => s.receiveAck port f) rfl hw
    rw [hnext hg hl hc] at hack
    refine ⟨fun ht => ?_, fun ht hop hv => ?_, fun ht hop hv => ?_⟩
    · rwa [hown, htag, ht] at ho
    · have he : u.receiveGood port f = u.acked ⟨s.fabric.devId, f.sdev, f.tc⟩ f.ack := by
        rw [hown, htag, ht, hv, if_pos hop, ← hdev]
        rfl
      rw [if_pos hop] at hack
      rw [he] at ho hack
      exact ⟨ho, hack⟩
    · have he : u.receiveGood port f = u.sequence port f := by
        simp only [hown, htag, ht, hv, hop, Bool.not_true, Bool.false_eq_true, if_false]
      rw [if_neg hop] at hack
      rw [he] at ho
      exact ⟨hack, ho⟩
  case sequence =>
    intro s port f w i d
    have hq := sequence_eq s port f (w := w) rfl (i := i) rfl (d := d) rfl
    clear_value d
    refine ⟨fun hd ht => ?_, fun hd ht => ?_, fun h1 h2 hh => ?_, fun h1 h2 hh => ?_, fun h1 => ⟨fun h2 => ?_, fun h2 => ?_⟩⟩
    · rw [hq, if_pos hd, if_pos ht]
    · rw [hq, if_pos hd, if_neg (ne_true_of_eq_false ht)]
    · rw [hq, if_neg (Nat.ne_of_gt h1), if_pos h2, if_neg fun h => Option.isSome_iff_ne_none.1 h hh]
    · rw [hq, if_neg (Nat.ne_of_gt h1), if_pos h2, if_pos (Option.isSome_iff_ne_none.2 hh)]
    · rw [hq, if_neg (Nat.ne_of_gt (Nat.lt_of_lt_of_le (by decide) h1)), if_neg (Nat.not_lt.2 h1), if_pos h2]
    · rw [hq, if_neg (Nat.ne_of_gt (Nat.lt_of_lt_of_le (by decide) h1)), if_neg (Nat.not_lt.2 h1), if_neg (Nat.not_le.2 h2)]
  case ahead =>
    intro i f hn hf
    exact ⟨ahead_sameEpoch hn hf, ahead_nextEpoch hn hf, ahead_lastEpoch hn hf, rfl, Tbl.get?_del_self _ _, rfl⟩
  case take =>
    intro s port f
    refine ⟨fun h => ?_, fun p hp => ⟨fun hh => ?_, fun hh ho ha => ?_, fun hh ho => ?_⟩⟩
    · rw [State.takeFrame, h]
    · exact (takeFrame_own port hp).trans (if_pos hh)
    · rw [takeFrame_own port hp, if_neg (not_not.2 hh)]
      exact if_pos (Bool.and_eq_true_iff.2 ⟨ho, List.all_eq_true.2 fun e he => bne_iff_ne.2 (ha e he)⟩)
    · rw [takeFrame_own port hp, if_neg (not_not.2 hh)]
      refine if_neg fun h => ?_
      obtain ⟨h1, h2⟩ := Bool.and_eq_true_iff.1 h
      rcases ho with ho | ⟨e, he, hep⟩
      · exact Bool.false_ne_true (ho.symm.trans h1)
      · exact bne_iff_ne.1 (List.all_eq_true.1 h2 e he) hep
  case inject =>
    intro s k f
    refine ⟨fun h => if_pos (h.imp_right fun ⟨ho, ha⟩ => ⟨ho, List.all_eq_true.2 fun e he => bne_iff_ne.2 (ha e he)⟩), fun hk ho => if_neg ?_⟩
    rintro (h | ⟨h1, h2⟩)
    · exact hk h
    · rcases ho with ho | ⟨e, he, hep⟩
      · exact Bool.false_ne_true (ho.symm.trans h1)
      · exact bne_iff_ne.1 (List.all_eq_true.1 h2 e he) hep
  case report =>
    intro s port gap
    exact ⟨_, link_setLink _ _ _, rfl, rfl, rfl⟩
  case acked => exact fun s w next hq => acked_spec next hq
  case control =>
    intro s port count gap hw l left
    have ho : Occurs (.linkControlFrame port count gap) s (s.linkControl port count gap) :=
      occurs_event (f := fun s => s.linkControl port count gap) rfl hw
    refine ⟨fun hup hm hf hc => ?_, fun h => ?_⟩
    · rwa [State.linkControl, if_pos ⟨hup, hm, hf, hc⟩] at ho
    · rwa [State.linkControl, if_neg (by
        rintro ⟨hup, hm, hf, hc⟩
        rcases h with h | h | h | h
        · exact Bool.false_ne_true (h.symm.trans hup)
        · exact Bool.false_ne_true (h.symm.trans hm)
        · exact Nat.not_le.2 h hf
        · exact Nat.not_le.2 h hc)] at ho
  case linkDown =>
    intro s port hw l down
    exact occurs_event (f := fun s => s.linkDown port) rfl hw
  case training =>
    intro s port hw hr
    have ho := linkTraining_started port hw hr
    refine ⟨fun h => ?_, fun hd hp hm => ?_⟩
    · rwa [linkTrain_idle hr h] at ho
    · rwa [linkTrain_starts hd hp hm] at ho
  case forward =>
    intro s k f hf ports
    obtain ⟨hno, hsome⟩ := forwardFrame_ports (s := s) k hf
    refine ⟨hno, fun h => ?_⟩
    obtain ⟨p, hp, he, hq⟩ := hsome h
    exact ⟨p, hp, he, fun q hqp hne => (portBefore_iff s s.free p q).1 (hq q hqp hne)⟩
  case turn =>
    rintro s port ⟨j, hj, hw⟩
    obtain ⟨k, hk, hn, hs, hmin⟩ := nextClass?_busy (List.ne_nil_of_mem ((mem_busyClasses s port j).2 ⟨hj, hw⟩))
    obtain ⟨hq, hkw⟩ := (mem_busyClasses s port k).1 hk
    exact ⟨k, hn, hq, hkw, hs, fun j hj hw hjs => hmin j ((mem_busyClasses s port j).2 ⟨hj, hw⟩) hjs⟩
  case idle =>
    intro s port h
    refine nextClass?_idle (List.eq_nil_iff_forall_not_mem.2 fun k hk => ?_)
    obtain ⟨hq, hw⟩ := (mem_busyClasses s port k).1 hk
    exact hw (h k hq)
  case due =>
    intro s port k e h
    rw [State.dueEnd, h]
    rfl
  case charge =>
    intro l k bytes w all hw
    rw [charge_weighted l k bytes all hw]
    exact ⟨(Tbl.find_put ..).trans (if_pos rfl), rfl, fun j hj => (Tbl.find_put ..).trans (if_neg hj)⟩
  case next => exact fun s port k f h => nextFrame?_spec h
  case emit =>
    intro s w dom strm out pl hs o t
    have ht : t.fabric.outOf w = _ := (congrArg (fun x => ((x.find? fun e => e.1 == w).map (·.2)).getD {}) (inject_flows _ _ _).1).trans
      (outOf_setOut _ _ _)
    rw [ht]
    exact ⟨rfl, rfl, _, rfl, rfl, rfl, rfl, rfl, rfl, rfl, rfl, rfl, rfl, rfl⟩
  case send =>
    intro s dev tc dom strm out pl w o
    rw [sendVia_eq]
    refine ⟨fun h => if_neg ?_, fun h1 h2 h3 h4 => if_pos ⟨h1, h2, h3, h4⟩⟩
    rintro ⟨h1, h2, h3, h4⟩
    rcases h with h | h | h | h
    · exact h h1
    · exact Nat.not_lt.2 h h2
    · exact Bool.false_ne_true (h3.symm.trans h)
    · exact Bool.false_ne_true (h4.symm.trans h)
  case reuses => exact fun o dom key => ⟨reuses_unused, fun n h => reuses_used h⟩
  case timer =>
    intro s w hw hs hu hb o due
    have ho : Occurs (.e2eTimerExpiry w) s (s.timerExpiry w) := occurs_event (f := fun s => s.timerExpiry w) rfl hw
    rw [timerExpiry_due hs hu hb] at ho
    refine ⟨fun h => ?_, fun h h7 => ?_, fun h h7 => ?_⟩
    · rwa [if_pos h] at ho
    · rwa [if_neg (Nat.not_lt.2 h), if_neg (Nat.not_le.2 h7)] at ho
    · rwa [if_neg (Nat.not_lt.2 h), if_pos h7] at ho
  case restartOut =>
    intro s w hw hm hs hd o
    have hr (t : State) (ht : s.restartFlow w = t) : Occurs (.flowRestart w) s t := occurs_managed rfl hw hm ht
    refine ⟨fun hb => ⟨newEpoch s.free o.epoch, (newEpoch_bounds _ _).1, (newEpoch_bounds _ _).2, hr _ (restartFlow_broken hs hd hb)⟩,
      fun hb => hr _ (restartFlow_unbroken hs hd hb)⟩
  case restartIn =>
    intro s w hw hm hs hd
    have hf : s.whenManaged (fun s => s.restartFlow w) = (s.forgetAbroad w.sdev).restartIn w := by
      rw [State.whenManaged, if_pos hm, restartFlow_in hs hd]
    refine answers_event (f := fun s => s.whenManaged fun s => s.restartFlow w) rfl hw ?_ ⟨rfl, ?_⟩
    · rw [hf]
      exact hw
    · rw [hf]
      exact restartIn_inOf (s.forgetAbroad w.sdev) w

end Sys2Proof
end
